-- ==== Sys2Proof/Word.lean ====
section
/-! DEFINITION. The plain words of the model: bytes, register words, slot indexes and sparse tables. -/

namespace Sys2Proof

/-- One byte (R3: multi-byte quantities are little-endian). -/
abbrev Byte := BitVec 8

/-- A register is 32 bits (R4). -/
abbrev Word := BitVec 32

/-- A slot index (R11): SI counts slots and never decreases. -/
abbrev SI := Nat

/-- A time in fine LSB, 64 to a slot (R13): SI × 64 + fine code. -/
abbrev FineTime := Nat

/-- A sparse table by number: entries in strictly rising key order, absent keys reading as a default. -/
abbrev Tab (α : Type) := List (Nat × α)

end Sys2Proof
end

