-- ==== Sys2Proof/Syntax.lean ====
section
/-! DEFINITION. The commands of the block: one constructor of Instr for each row of the table of operations and events.
No row gives bits; the operands are what the row's rule says the outside supplies. Every command carries first the slot
`t` at which it happens (notes/assumptions/1.md). -/

namespace Sys2Proof

/-- An Opain packet as the device copies it at fetch (R429, R430): the ring it came from, TAG, FLAGS, AT_ST, whether any
of the 44 reserved header bytes is not 0, and the PARAM_LEN parameter bytes. -/
structure Packet where
  ring : Fin 16
  tag : BitVec 16
  flags : BitVec 16
  atSt : BitVec 96
  reservedSet : Bool
  params : List Byte
  deriving DecidableEq, Repr

/-- How a non-posted request ended (R411). -/
inductive CplStatus where
  | success | unsupportedRequest | completerAbort | poisoned
  deriving DecidableEq, Repr

/-- What a host unmasks (R408). -/
inductive MsixUnmask where
  | vector (v : Fin 2048)
  | function
  | enable
  deriving DecidableEq, Repr

/-- Registers of configuration space that the rules name or give a value (R396, R398, R400, R408, R409, R414, R420 to R422), by their PCI Express names. -/
inductive ConfigReg where
  /-- Device ID and Vendor ID -/
  | deviceVendor
  /-- Command: Bus Master Enable in [2] -/
  | command
  /-- Class Code and Revision ID -/
  | classRevision
  /-- Subsystem ID and Subsystem Vendor ID -/
  | subsystem
  /-- Interrupt Line and Pin -/
  | interruptPin
  /-- DW n of the BARs, at 0x10 + 4n -/
  | bar (n : Fin 6)
  /-- Expansion ROM BAR: enable in [0] -/
  | romBar
  /-- Power Management Capabilities -/
  | pmCapabilities
  /-- PCI Express capability header -/
  | pcieCapability
  /-- Device Capabilities -/
  | deviceCapabilities
  /-- Link Capabilities -/
  | linkCapabilities
  /-- Link Control in [15:0], Link Status in [31:16] -/
  | linkStatus
  /-- Device Capabilities 2 -/
  | deviceCapabilities2
  /-- MSI-X Table Offset and BIR -/
  | msixTable
  /-- MSI-X PBA Offset and BIR -/
  | msixPba
  /-- Header of the nth extended capability of R398 -/
  | extCapability (n : Fin 10)
  /-- AER Uncorrectable Error Severity -/
  | aerUncorrectableSeverity
  /-- AER Advanced Error Capabilities and Control: ECRC generation and checking -/
  | aerControl
  /-- L1 PM Substates Capabilities, and Control 1 -/
  | l1SubstatesCapability
  | l1SubstatesControl
  /-- Device Serial Number, low and high DW -/
  | serialLow
  | serialHigh
  /-- Vendor-Specific Header -/
  | vsecHeader
  /-- VSEC_CONTAIN (R421) -/
  | vsecContain
  /-- Device Control: Max Read Request Size in [14:12] -/
  | deviceControl
  /-- Device Control 2: Completion Timeout Value in [3:0] -/
  | deviceControl2
  /-- Power Management Control/Status: PME_En in [8], PME_Status W1C in [15] -/
  | pmControlStatus
  /-- AER Uncorrectable Error Status, W1C -/
  | aerUncorrectableStatus
  /-- MSI-X Message Control: MSI-X Enable in [31], Function Mask in [30] -/
  | msixControl
  deriving DecidableEq, Repr

/-- Where a write goes: BAR0, BAR2 or BAR4 by byte offset, or configuration space. -/
inductive RegAddr where
  | bar0 (off : Nat)
  | bar2 (off : Nat)
  | bar4 (off : Nat)
  | config (r : ConfigReg)
  deriving DecidableEq, Repr

/-- Where a read of a register goes (R5, R398, R401, R404, R407): BAR0, BAR4 or the expansion ROM by byte offset, or configuration space. -/
inductive ReadAddr where
  | bar0 (off : Nat)
  | bar4 (off : Nat)
  | rom (off : Nat)
  | config (r : ConfigReg)
  /-- two aligned DWs of BAR0, and what is counted in the higher register at the same moment -/
  | two (off : Nat) (racedHigh : Word)
  /-- `dws` DWs of the directory at BAR0 or, with `atRom`, at the expansion ROM -/
  | directory (off dws : Nat) (atRom : Bool)
  deriving DecidableEq, Repr

/-- How a register write arrives (R9, R401): as a single aligned DW with all byte enables or not, and the bits that are set at the same moment. -/
structure WriteForm where
  whole : Bool := true
  raced : Word := 0
  deriving DecidableEq, Repr

/-- A host read of one DW (R5, R10): where, and what is counted there at the same moment. -/
structure HostRead where
  reg : ReadAddr
  raced : Word := 0
  deriving DecidableEq, Repr

/-- What a cell samples in one slot (R84, R95, R98): the voltages of its two balls at the end of the slot, in nV, whether the comparator also changed back
within the slot, and what the serving lanes measured for the first and the second edge, in raw units. -/
structure CellInput where
  vp : Int
  vn : Int
  glitch : Bool
  raw : Nat
  raw2 : Nat
  deriving DecidableEq, Repr

/-- A 64-byte access that waits at a channel of the DRAM controller (R371 to R373): its port, whether it writes, its address, its age in ns. -/
structure DramReq where
  port : Fin 11
  write : Bool
  addr : Nat
  ageNs : Nat
  deriving DecidableEq, Repr

/-- What the ECC finds on one DRAM read (R378, R379). -/
inductive ReadKind where
  | clean | corrected | uncorrectable | poisonMarker | migrationMarker
  deriving DecidableEq, Repr

/-- What reading a whole segment from DRAM finds, and at which of its 64-byte accesses (R378 to R380). -/
structure SegRead where
  kind : ReadKind := .clean
  word : Nat := 0
  deriving DecidableEq, Repr

/-- The outcome of one lane's calibration pass (R95), in 1/1024 of a raw unit: mean spans S1, S2 and the spread. -/
structure LanePass where
  ch : Fin 1024
  lane : Fin 3
  s1 : Nat
  s2 : Nat
  sigma : Nat
  deriving DecidableEq, Repr

/-- What TRAIN finds on the DIMMs (R363, R364, R388). `failed` is coded as EXCLUDE: bit 4c + k. -/
structure DimmFindings where
  unsupported : Bool
  differ : Bool
  spdUnreadable : Bool
  physRanks : Fin 5
  dense : Bool
  twoPerChannel : Bool
  failed : BitVec 16
  deriving DecidableEq, Repr

/-- What a job's work produced, given at JOB_END (R441). -/
inductive JobWork where
  /-- work done or failed, with the result words the work itself counts -/
  | words (ok : Bool) (w : List Nat)
  /-- CAL_DESKEW: with SOURCE 0, per channel, the deskew that the calibration network's measurement gives, or none where it timed out (R101) -/
  | deskew (found : List (Fin 1024 × Option Int))
  /-- SCRUB: the words of its range, by address, that were found corrected or uncorrectable and that no access has shown (R386) -/
  | scrub (found : List (Nat × ReadKind))
  /-- TRAIN (R388) -/
  | train (f : DimmFindings)
  deriving DecidableEq, Repr

/-- The content of a received IDLE control block (R180). -/
structure IdleBlock where
  ackSeq : BitVec 8
  ackValid : Bool
  nak : Bool
  role : Fin 4
  unitId : BitVec 14
  depth : Fin 8
  deriving DecidableEq, Repr

/-- A Tiuth message as received with a good CRC (R182); TYPE is the command's own. -/
structure CasMsg where
  flags : BitVec 4
  origin : BitVec 14
  dir : Fin 4
  linkSeq : BitVec 8
  a : BitVec 32
  b : BitVec 64
  c : BitVec 32
  d : BitVec 16
  deriving DecidableEq, Repr

/-- Why a cascade link goes down (R181). -/
inductive LinkDownCause where
  | blockLock | retransmission | queueOverflow | roleChange
  deriving DecidableEq, Repr

/-- ORIGIN and LINK_SEQ of a TIME_TRANSFER message (R182). -/
structure TtHeader where
  origin : BitVec 14
  linkSeq : BitVec 8
  deriving DecidableEq, Repr

/-- What one TIME_TRANSFER message brings (R62, R186): a request from a child, a reply or an info message from the parent; or that an exchange has failed,
which no message brings. `fine` is the fine code at which the port stamps its arrival; `t2` is the parent's ST and `t3MinusT2` is in ps. -/
inductive TtMessage where
  | request (h : TtHeader) (fine : Fin 64)
  | reply (h : TtHeader) (fine : Fin 64) (t2 : BitVec 96) (t3MinusT2 : BitVec 32) (tgen : BitVec 8) (state : Fin 8)
  | info (h : TtHeader) (u : BitVec 32) (hz : BitVec 32) (stepPs : Int) (tgen : BitVec 8) (state : Fin 8)
  | failed
  deriving DecidableEq, Repr

/-- The header of the message that brings it. -/
def TtMessage.header (m : TtMessage) : Option TtHeader :=
  match m with
  | .request h _ | .reply h _ _ _ _ _ | .info h _ _ _ _ _ => some h
  | .failed => none

/-- What the board has written into the slots of the boot flash from outside, none where a slot is as the device left it (R470, R472). -/
structure BootFlash where
  slotA : Option (List Byte) := none
  slotB : Option (List Byte) := none
  deriving DecidableEq, Repr

/-- The rows of the table of operations and events. -/
inductive Instr where
  -- host accesses to registers and doorbells
  | registerWrite (t : SI) (reg : RegAddr) (v : Word) (form : WriteForm)
  | rcFieldRead (t : SI) (what : HostRead)
  | lowWordRead (t : SI) (off : Nat)
  | timSnapSiLoRead (t : SI)
  | bobRdWrite (t : SI) (b : Fin 262144) (v : Word)
  | bobRelWrite (t : SI) (b : Fin 262144) (v : Word)
  | bobMarkWrite (t : SI) (b : Fin 262144) (v : Word)
  | bobDupWrite (t : SI) (b : Fin 262144) (v : Word)
  | ringEnable (t : SI) (r : Fin 16) (v : Word)
  | ringDisable (t : SI) (r : Fin 16) (v : Word)
  | sqTailWrite (t : SI) (r : Fin 16) (v : Word)
  | cqHeadWrite (t : SI) (r : Fin 16) (v : Word)
  | hstWinDbHiWrite (t : SI) (v : Word)
  | containmentRelease (t : SI)
  | msixVectorUnmask (t : SI) (what : MsixUnmask)
  | bar2Read (t : SI) (x : Fin 1073741824) (kind : ReadKind)
  -- PCIe endpoint
  | busMasterEnableClear (t : SI)
  | busMasterEnableSet (t : SI)
  | d3hotEntry (t : SI)
  | d0Entry (t : SI)
  | functionLevelReset (t : SI)
  | hotReset (t : SI) (linkDown : Bool)
  | fundamentalReset (t : SI)
  | pcieLinkDown (t : SI)
  | pcieLinkUp (t : SI) (speed : Fin 7) (width : Fin 32) (flit : Bool)
  | fatalErrorFreeze (t : SI) (cause : Fin 32)
  | completionReceived (t : SI) (tag : Fin 1024) (st : CplStatus) (data : List Byte)
  | completionTimeout (t : SI) (tag : Fin 1024)
  | tagQuarantineEnd (t : SI) (tag : Fin 1024)
  -- Opain packets
  | nop (t : SI) (p : Packet)
  | getInfo (t : SI) (p : Packet)
  | resetRegion (t : SI) (p : Packet)
  | softReset (t : SI) (p : Packet)
  | setFailsafePolicy (t : SI) (p : Packet)
  | setRef (t : SI) (p : Packet)
  | setEpoch (t : SI) (p : Packet)
  | setSt (t : SI) (p : Packet)
  | setReturnPolicy (t : SI) (p : Packet)
  | schedule (t : SI) (p : Packet)
  | unschedule (t : SI) (p : Packet)
  | setThreshold (t : SI) (p : Packet)
  | setInputMode (t : SI) (p : Packet)
  | setDeskew (t : SI) (p : Packet)
  | calDeskew (t : SI) (p : Packet)
  | calInterp (t : SI) (p : Packet)
  | setInterval (t : SI) (p : Packet)
  | loadPattern (t : SI) (p : Packet)
  | arm (t : SI) (p : Packet)
  | disarm (t : SI) (p : Packet)
  | forceTack (t : SI) (p : Packet)
  | setTrigout (t : SI) (p : Packet)
  | setUnit (t : SI) (p : Packet)
  | setPortRole (t : SI) (p : Packet)
  | cascadeDiscover (t : SI) (p : Packet)
  | setReduction (t : SI) (p : Packet)
  | setLookback (t : SI) (p : Packet)
  | setWindowPolicy (t : SI) (p : Packet)
  | exportWindow (t : SI) (p : Packet)
  | startRun (t : SI) (p : Packet)
  | stopRun (t : SI) (p : Packet)
  | setDecoder (t : SI) (p : Packet)
  | createBobbin (t : SI) (p : Packet)
  | destroyBobbin (t : SI) (p : Packet)
  | route (t : SI) (p : Packet)
  | rewind (t : SI) (p : Packet)
  | setCompression (t : SI) (p : Packet)
  | setSigning (t : SI) (p : Packet)
  | replay (t : SI) (p : Packet)
  | setDramMap (t : SI) (p : Packet)
  | train (t : SI) (p : Packet)
  | migrateRank (t : SI) (p : Packet)
  | scrub (t : SI) (p : Packet)
  | setHkSeq (t : SI) (p : Packet)
  | hkCal (t : SI) (p : Packet)
  | getAttestation (t : SI) (p : Packet)
  | rotateEsk (t : SI) (p : Packet)
  | auth (t : SI) (p : Packet)
  | updateFirmware (t : SI) (p : Packet)
  | zeroize (t : SI) (p : Packet)
  | jobSuspend (t : SI) (p : Packet)
  | jobResume (t : SI) (p : Packet)
  | jobCancel (t : SI) (p : Packet)
  | jobStatus (t : SI) (p : Packet)
  | readLog (t : SI) (p : Packet)
  -- jobs
  | jobDequeue (t : SI) (job : Nat)
  | jobSuspendPoint (t : SI) (job : Nat)
  | jobEnd (t : SI) (job : Nat) (work : JobWork)
  -- station time and the synthesiser
  | epochInPulse (t : SI) (fine : Fin 64) (rising : Bool) (cycles : Nat) (lost : Bool)
  | slewEnd (t : SI)
  | epochInMiss (t : SI)
  | refclkAbsent (t : SI)
  | refFreqMeasurement (t : SI) (hz : Nat)
  | anchorBoundary (t : SI) (passes : List LanePass) (disagree : List (Fin 1024 × Nat))
  | epochBoundary (t : SI)
  | epochOutPulseEnd (t : SI)
  | synthesiserLockLoss (t : SI)
  | synthesiserRelock (t : SI)
  | timeTransfer (t : SI) (port : Fin 16) (m : TtMessage)
  | schedulerEntryDue (t : SI) (entry : Fin 256)
  -- cells, blocks, regions
  | edgeDetected (t : SI) (ch : Fin 1024) (balls : Int × Int) (glitch : Bool) (raw : Nat) (raw2 : Nat)
  | intervalTimeout (t : SI) (unit : Fin 64)
  | settleWindowEnd (t : SI) (ch : Fin 1024)
  | inputOutOfRange (t : SI) (ch : Fin 1024)
  | outOfRangeEnd (t : SI) (ch : Fin 1024)
  | deskewDoubtEnd (t : SI) (ch : Fin 1024)
  | burstSramResume (t : SI) (block : Fin 64)
  | burstSramParityError (t : SI) (block : Fin 64) (firstFrame lastFrame : Nat)
  | flushIntervalExpiry (t : SI) (source : Nat)
  | selfVerifyComplete (t : SI) (region : Fin 4) (ok : Bool)
  | stagingResume (t : SI) (region : Fin 4)
  | stagingDramWriteComplete (t : SI) (seg : Nat)
  | loadIntervalEnd (t : SI)
  -- the trigger sequencer and its pins
  | slotEvaluation (t : SI) (q : Fin 2) (slots : Nat)
  | disarmShutdownEnd (t : SI)
  | trigInEdge (t : SI) (pin : Fin 8) (level : Bool) (fine : Fin 64)
  | trigOutAssert (t : SI) (pin : Fin 8)
  | trigOutPulseEnd (t : SI) (pin : Fin 8)
  | cancelPattern (t : SI) (pin : Fin 8)
  -- the cascade
  | idle (t : SI) (port : Fin 16) (w : IdleBlock)
  | cascadeLinkDown (t : SI) (port : Fin 16) (cause : LinkDownCause)
  | retransmitTimeout (t : SI) (port : Fin 16)
  | armMessage (t : SI) (port : Fin 16) (m : CasMsg)
  | disarmMessage (t : SI) (port : Fin 16) (m : CasMsg)
  | cascadeCommandDue (t : SI)
  | fire (t : SI) (port : Fin 16) (m : CasMsg)
  | basteMessage (t : SI) (port : Fin 16) (m : CasMsg)
  | sewMessage (t : SI) (port : Fin 16) (m : CasMsg)
  | unpickMessage (t : SI) (port : Fin 16) (m : CasMsg)
  | discover (t : SI) (port : Fin 16) (m : CasMsg)
  | report (t : SI) (port : Fin 16) (m : CasMsg)
  | armResult (t : SI) (port : Fin 16) (m : CasMsg)
  | isolated (t : SI) (port : Fin 16) (m : CasMsg)
  | rejoined (t : SI) (port : Fin 16) (m : CasMsg)
  | doubtMessage (t : SI) (port : Fin 16) (m : CasMsg)
  | remoteBasteExpiry (t : SI) (origin : BitVec 14) (number : BitVec 16)
  -- reductions, windows, runs, decoders
  | stateSampleComplete (t : SI) (region : Fin 4) (clock : Fin 16)
  | statsWindowEnd (t : SI) (region : Fin 4)
  | windowSegmentRead (t : SI) (slot : Fin 64) (part : Fin 16) (read : SegRead)
  | windowClose (t : SI) (slot : Fin 64)
  | runShutdownEnd (t : SI)
  | decoderMessageComplete (t : SI) (engine : Fin 64)
  | cdrLockLoss (t : SI) (engine : Fin 64)
  | smbusTimeout (t : SI) (engine : Fin 64)
  -- evidence and bobbins
  | segmentHashComplete (t : SI) (stream : Fin 4096)
  | signatureIntervalExpiry (t : SI) (stream : Fin 4096)
  | segmentDelivered (t : SI) (b : Fin 262144) (badWords : List Nat)
  | oweTimeout (t : SI) (b : Fin 262144) (seg : Nat)
  | backlogSegmentRead (t : SI) (b : Fin 262144) (read : SegRead)
  | rewindComplete (t : SI) (b : Fin 262144)
  | duplicateTimeout (t : SI) (b : Fin 262144)
  | contextParityError (t : SI) (b : Fin 262144)
  -- DRAM
  | dramReadComplete (t : SI) (port : Fin 11) (addr : Nat) (channel : Fin 4) (before : List DramReq) (kind : ReadKind) (ageNs : Nat)
  | migrationBlockCopied (t : SI) (lost : List Nat) (spareBad : Bool)
  | refreshInterval (t : SI)
  | dimmTemperatureRead (t : SI) (celsius : List Int)
  | selfRefreshEntry (t : SI)
  | selfRefreshExit (t : SI)
  | dqsCompensation (t : SI)
  | rowIdleClose (t : SI) (bank : Nat)
  | patrolScrub (t : SI) (addr : Nat) (channel : Fin 4) (rank : Fin 4) (kind : ReadKind)
  -- audit log and security
  | logRetry (t : SI) (onChipOk : Bool) (dramOk : Bool)
  | tamperNAssert (t : SI)
  | tamperNRelease (t : SI)
  | svcEnAssert (t : SI)
  | svcEnDeassert (t : SI)
  | svcUnlock (t : SI) (v : Word)
  | zeroizationEraseComplete (t : SI)
  | fikGenerated (t : SI)
  | authChallengeExpiry (t : SI) (ring : Fin 16)
  | authLockoutEnd (t : SI)
  | firmwareSwapPoint (t : SI) (startOk : Bool)
  -- seams, region resets, the fail-safe state
  | seamUnsettled (t : SI) (seam : Fin 13) (region : Fin 4) (agree : Bool)
  | seamUnsettledTimeout (t : SI) (seam : Fin 13)
  | seamOverrunDiscard (t : SI) (region : Fin 4)
  | seamClockStopped (t : SI) (seam : Fin 13) (region : Fin 4)
  | seamClockStopTimeout (t : SI) (seam : Fin 13)
  | seamClockResumed (t : SI) (seam : Fin 13)
  | regionWatchdog (t : SI) (region : Fin 4)
  | regionIntakeEnd (t : SI) (region : Fin 4)
  | regionWriteDrainEnd (t : SI) (region : Fin 4) (unfinished : List Nat) (dropped : Nat)
  | regionReinitEnd (t : SI) (region : Fin 4)
  | temperatureCheck (t : SI) (celsius : List Int)
  | supplyCheck (t : SI) (microvolts : List Nat)
  | configParityCheck (t : SI) (found : Bool) (copyBad : Bool)
  | configParityRepair (t : SI) (values : List Byte)
  | controlCoreWatchdog (t : SI)
  | coreRestartComplete (t : SI)
  | softResetComplete (t : SI) (failedTest : Fin 8)
  -- housekeeping
  | hkReading (t : SI) (slice : Fin 3) (raw : Int) (lost : Bool)
  | hkIntervalTrigger (t : SI)
  | hkWake (t : SI)
  | hkCalPass (t : SI) (slice : Fin 3) (gain : Fin 5) (integ : Fin 6) (zero : Int) (fullScale : Int)
  -- start-up
  | configSpaceUp (t : SI)
  | selfTestsComplete (t : SI) (failedTest : Fin 8)
  | firmwareSelected (t : SI) (flash : BootFlash)
  | initialSynthLock (t : SI)
  | initialLockTimeout (t : SI)
  | readySet (t : SI)
  | supplyCollapse (t : SI)
  | supplyRecovered (t : SI)
  | perstNRelease (t : SI)
  | blockLockAchieved (t : SI) (port : Fin 16)
  | blockLockLoss (t : SI) (port : Fin 16)
  | badCrcMessage (t : SI) (port : Fin 16) (cutThrough : Option (Fin 16 × CasMsg))
  deriving DecidableEq, Repr

end Sys2Proof
end

