-- ==== Sys2Proof/WellFormed.lean ====
section
/-! DEFINITION. Well-formed commands: the static bounds that the operand types do not already give. -/

namespace Sys2Proof

/-- A packet has at most 4,096 parameter bytes (R430). -/
def Packet.wellFormed (p : Packet) : Bool := decide (p.params.length ≤ 4096)

/-- The packet that a command carries, where it carries one. -/
def Instr.packet (i : Instr) : Option Packet :=
  match i with
  | .nop _ p | .getInfo _ p | .resetRegion _ p | .softReset _ p | .setFailsafePolicy _ p | .setRef _ p | .setEpoch _ p
  | .setSt _ p | .setReturnPolicy _ p | .schedule _ p | .unschedule _ p | .setThreshold _ p | .setInputMode _ p
  | .setDeskew _ p | .calDeskew _ p | .calInterp _ p | .setInterval _ p | .loadPattern _ p | .arm _ p | .disarm _ p
  | .forceTack _ p | .setTrigout _ p | .setUnit _ p | .setPortRole _ p | .cascadeDiscover _ p | .setReduction _ p
  | .setLookback _ p | .setWindowPolicy _ p | .exportWindow _ p | .startRun _ p | .stopRun _ p | .setDecoder _ p
  | .createBobbin _ p | .destroyBobbin _ p | .route _ p | .rewind _ p | .setCompression _ p | .setSigning _ p | .replay _ p
  | .setDramMap _ p | .train _ p | .migrateRank _ p | .scrub _ p | .setHkSeq _ p | .hkCal _ p | .getAttestation _ p
  | .rotateEsk _ p | .auth _ p | .updateFirmware _ p | .zeroize _ p | .jobSuspend _ p | .jobResume _ p | .jobCancel _ p
  | .jobStatus _ p | .readLog _ p => some p
  | _ => none

/-- The command's own bounds. -/
def Instr.wellFormed (i : Instr) : Bool :=
  (match i.packet with
   | some p => p.wellFormed
   | none => true) &&
  (match i with
   | .registerWrite _ (.bar0 off) _ _ => off % 4 = 0
   | .registerWrite _ (.bar4 off) _ _ => off % 4 = 0
   | .rcFieldRead _ ⟨.bar0 off, _⟩ => off % 4 = 0
   | .rcFieldRead _ ⟨.bar4 off, _⟩ => off % 4 = 0
   | .rcFieldRead _ ⟨.rom off, _⟩ => off % 4 = 0
   | .rcFieldRead _ ⟨.two off _, _⟩ => off % 4 = 0 && decide (off % 4096 ≤ 4088)
   | .rcFieldRead _ ⟨.directory off n _, _⟩ => off % 4 = 0 && decide (1 ≤ n) && decide (off % 4096 + 4 * n ≤ 4096) && decide (off < 65536)
   | .lowWordRead _ off => off % 4 = 0
   | .completionReceived _ _ _ data => decide (data.length ≤ 4096)
   | .slotEvaluation _ _ slots => decide (1 ≤ slots)
   | .dramReadComplete _ _ _ _ before _ _ => decide ((before.filter (fun q => q.write)).length ≤ 64)
   | .segmentDelivered _ _ bad => bad.all (fun w => decide (w < 8180))
   | .burstSramParityError _ _ a b => decide (a ≤ b)
   | .temperatureCheck _ c => c.length = 8
   | .supplyCheck _ v => v.length = 16
   | _ => true)

end Sys2Proof
end

