-- ==== Sys2Proof/Config.lean ====
section
/-! DEFINITION. What one device fixes and what the manual leaves open. Every constant here is opaque: no proof can see
its value, so a statement holds whatever it is. The Nat argument of a free value is State.freeCtr when it is taken. -/

namespace Sys2Proof.Config

/-- Grade of the part: true for grade E (R1, R404). -/
opaque gradeE : Bool
/-- STEPPING of the Skosta directory (R404). -/
opaque stepping : BitVec 16
/-- SERIAL of the Skosta directory (R404). -/
opaque serial : BitVec 64
/-- FREE VALUE: the alignment error of the loop, in 2^-152 epoch; Time.loopError holds it within the ±50 ps of R42. -/
opaque loopError : Nat → Int
/-- FREE VALUE: the loop's measured phase-error bound in ps (R45). -/
opaque dpllBound : Nat → Nat
/-- RATE of an ANCHOR while ST advances by 2^64 units of 2^-88 epoch or more per slot, which the 64-bit field cannot hold (R287): the spec states no
value (notes/assumptions/7.md). -/
opaque wideRate : Nat → Nat
/-- FREE VALUE: a candidate LZ4 block; the engine takes it only where it decodes to its input (R310). -/
opaque lz4Block : Nat → List Byte
/-- FREE VALUE: entropy input of the noise source for the DRBG (R460). -/
opaque entropy : Nat → BitVec 384
/-- FREE VALUE: the ERR_CODE that a failed SVN check of an image leaves: the table gives none for it (R463, R484, notes/assumptions/31.md). -/
opaque svnErrCode : BitVec 8
/-- FREE VALUE: the private key of the device identity key (R461). -/
opaque identitySecret : BitVec 256
/-- FREE VALUE: the wrapping key that the package's PUF yields: the same at each power-up (R459, notes/assumptions/54.md). -/
opaque pufKey : BitVec 256
/-- The firmware verification public key of the boot ROM (R461, R471). -/
opaque firmwareKey : BitVec 512
/-- SHA-256 of the boot ROM (R478). -/
opaque romDigest : BitVec 256
/-- FREE VALUE: length in bytes of the identity certificate, by the identity's kind (R476, R478). -/
opaque certLength : Nat → Nat
/-- FREE VALUE: the progress that JOB_STATUS reports of a job that has begun and not ended DONE (R453). -/
opaque jobCount : Nat → Nat
/-- FREE VALUE: the content of a DRAM byte that no rule places (R367): address and counter. -/
opaque dramByte : Nat → Nat → Byte
/-- FREE VALUE: where in the bobbin area the device places a new ring; taken only where the ring fits there (R338). -/
opaque ringOffset : Nat → Nat
/-- FREE VALUE: the ST that a replay reconstructs for a slot before the first ANCHOR of its input (R152). -/
opaque replaySt : Nat → Nat
/-- FREE VALUE: the value that an 8b/10b decoder shows for ten bits that are no valid code (R260). -/
opaque badSymbol : Nat → Byte
/-- Vendor ID, Revision ID and the subsystem IDs of the board's boot flash (R398). -/
opaque vendorId : BitVec 16
opaque revision : BitVec 8
opaque subsystem : BitVec 32
/-- FREE VALUE: bits of a configuration register that the manual leaves to the PCI Express specification (R398, notes/assumptions/35.md). -/
opaque configOther : Nat → BitVec 32
/-- FREE VALUE: whether an MDIO decoder takes a 1 after that many ones of preamble as the first bit of ST (R256, notes/assumptions/50.md). -/
opaque mdioStart : Nat → Bool
/-- FREE VALUE: a byte of a structure whose content the manual does not give (a certificate body, R478). -/
opaque otherByte : Nat → Nat → Byte

end Sys2Proof.Config
end

