-- ==== Sys2Proof/Machine/Curve.lean ====
section
/-! DEFINITION. Arithmetic of the curve P-256 (FIPS 186-5, R460), and the public key of a private one. -/

namespace Sys2Proof.Machine

/-- The field prime. -/
def p256p : Nat := 0xffffffff00000001000000000000000000000000ffffffffffffffffffffffff
/-- The group order. -/
def p256n : Nat := 0xffffffff00000000ffffffffffffffffbce6faada7179e84f3b9cac2fc632551
/-- The curve coefficient b. -/
def p256b : Nat := 0x5ac635d8aa3a93e7b3ebbd55769886bc651d06b0cc53b0f63bce3c3e27d2604b
/-- The base point. -/
def p256g : Nat × Nat :=
  (0x6b17d1f2e12c4247f8bce6e563a440f277037d812deb33a0f4a13945d898c296,
   0x4fe342e2fe1a7f9b8ee7eb4a7c0f9e162bce33576b315ececbb6406837bf51f5)

/-- b^e mod m by squaring, 256 bits of e. -/
def powMod (fuel b e m : Nat) : Nat :=
  match fuel with
  | 0 => 1 % m
  | k + 1 =>
    let h := powMod k (b * b % m) (e / 2) m
    if e % 2 = 1 then h * b % m else h

/-- Inverse modulo a prime. -/
def invMod (a m : Nat) : Nat := powMod 256 (a % m) (m - 2) m

/-- Point addition; none is the point at infinity. -/
def ecAdd (x y : Option (Nat × Nat)) : Option (Nat × Nat) :=
  match x, y with
  | none, y => y
  | x, none => x
  | some (x1, y1), some (x2, y2) =>
    let l :=
      if x1 = x2 then
        if (y1 + y2) % p256p = 0 then none
        else some ((3 * x1 * x1 + (p256p - 3)) % p256p * invMod (2 * y1) p256p % p256p)
      else some ((y2 + p256p - y1) % p256p * invMod (x2 + p256p - x1) p256p % p256p)
    match l with
    | none => none
    | some l =>
      let x3 := (l * l + 2 * p256p - x1 - x2) % p256p
      some (x3, (l * (x1 + p256p - x3) + p256p - y1) % p256p)

/-- k times a point. -/
def ecMul (fuel k : Nat) (q : Option (Nat × Nat)) : Option (Nat × Nat) :=
  match fuel with
  | 0 => none
  | f + 1 =>
    let h := ecMul f (k / 2) (ecAdd q q)
    if k % 2 = 1 then ecAdd q h else h

/-- The public key of a private one (R461): X then Y, as one number of 64 bytes, the most significant first. -/
def ecPublic (d : BitVec 256) : BitVec 512 :=
  match ecMul 256 d.toNat (some p256g) with
  | none => 0
  | some (x, y) => BitVec.ofNat 512 (x * 2 ^ 256 + y)

end Sys2Proof.Machine
end

