-- ==== Sys2Proof/Machine/Wrap.lean ====
section
/-! DEFINITION. AES-256 (FIPS 197) and what the security unit does with it: key wrap with padding (SP 800-38F, R459) and CMAC
(SP 800-38B, R461). A block is a number whose first byte is the most significant. -/

namespace Sys2Proof.Machine

/-! ### AES-256 -/

/-- The substitution table, the entry of byte 0 lowest. -/
def aesTable : Nat := 0x16bb54b00f2d99416842e6bf0d89a18cdf2855cee9871e9b948ed9691198f8e19e1dc186b95735610ef6034866b53e708a8bbd4b1f74dde8c6b4a61c2e2578ba08ae7a65eaf4566ca94ed58d6d37c8e779e4959162acd3c25c2406490a3a32e0db0b5ede14b8ee4688902a22dc4f816073195d643d7ea7c41744975fec130ccdd2f3ff1021dab6bcf5389d928f40a351a89f3c507f02f94585334d43fbaaefd0cf584c4a39becb6a5bb1fc20ed00d153842fe329b3d63b52a05a6e1b1a2c830975b227ebe28012079a059618c323c7041531d871f1e5a534ccf73f362693fdb7c072a49cafa2d4adf04759fa7dc982ca76abd7fe2b670130c56f6bf27b777c63

/-- The substitution of one byte. -/
def aesSub (b : Byte) : Byte := BitVec.ofNat 8 (aesTable >>> (8 * b.toNat))

/-- The n bytes of a number, the most significant first. -/
def bytesOf (n : Nat) {w : Nat} (x : BitVec w) : List Byte := (List.range n).map (fun i => x.extractLsb' (8 * (n - 1 - i)) 8)

/-- The number of some bytes, the most significant first. -/
def numberOf (w : Nat) (bs : List Byte) : BitVec w := bs.foldl (fun n b => n <<< 8 ||| b.setWidth w) 0

/-- Multiplication by x in the field of AES. -/
def aesTwice (b : Byte) : Byte := if b.getLsbD 7 then b <<< 1 ^^^ 0x1b else b <<< 1

/-- Four bytes of a column mixed; row i takes twice itself and three times its successor. -/
def aesMix (col : List Byte) : List Byte :=
  let all := col.foldl (· ^^^ ·) 0
  (List.range 4).map (fun i => let a := col.getD i 0; a ^^^ all ^^^ aesTwice (a ^^^ col.getD ((i + 1) % 4) 0))

/-- SubBytes and ShiftRows. -/
def aesShift (x : List Byte) : List Byte := (List.range 16).map (fun i => aesSub (x.getD (5 * i % 16) 0))

/-- A round between the first and the last. -/
def aesRound (x key : BitVec 128) : BitVec 128 :=
  let y := aesShift (bytesOf 16 x)
  numberOf 128 ((List.range 4).flatMap (fun c => aesMix ((y.drop (4 * c)).take 4))) ^^^ key

/-- Four words of the key schedule from the four before the last four, `t` being the substituted word that begins them. -/
def aesWords (w : BitVec 128) (t : BitVec 32) : BitVec 128 :=
  let a := w.extractLsb' 96 32 ^^^ t
  let b := w.extractLsb' 64 32 ^^^ a
  let c := w.extractLsb' 32 32 ^^^ b
  a ++ b ++ c ++ (w.extractLsb' 0 32 ^^^ c)

/-- A word with each byte substituted. -/
def aesSubWord (w : BitVec 32) : BitVec 32 := numberOf 32 ((bytesOf 4 w).map aesSub)

/-- n pairs of round keys that follow the pair `hi`, `lo`. -/
def aesKeys (n : Nat) (hi lo : BitVec 128) (rcon : Byte) : List (BitVec 128) :=
  match n with
  | 0 => []
  | n + 1 =>
    let hi' := aesWords hi (aesSubWord ((lo.extractLsb' 0 32).rotateLeft 8) ^^^ (rcon ++ 0#24))
    let lo' := aesWords lo (aesSubWord (hi'.extractLsb' 0 32))
    hi' :: lo' :: aesKeys n hi' lo' (aesTwice rcon)

/-- AES-256 encryption of one block. -/
def aes256 (key : BitVec 256) (x : BitVec 128) : BitVec 128 :=
  let hi := key.extractLsb' 128 128
  let lo := key.extractLsb' 0 128
  let keys := lo :: aesKeys 7 hi lo 1
  let y := (keys.take 13).foldl aesRound (x ^^^ hi)
  numberOf 128 (aesShift (bytesOf 16 y)) ^^^ keys.getD 13 0

/-! ### Key wrap and CMAC -/

/-- Steps t, t + 1, … of the wrapping function: the integrity register and the semiblocks, the next one first. -/
def kwpSteps (key : BitVec 256) (n t : Nat) (a : BitVec 64) (r : List (BitVec 64)) : List (BitVec 64) :=
  match n, r with
  | 0, _ => a :: r
  | _, [] => [a]
  | n + 1, x :: r =>
    let b := aes256 key (a ++ x)
    kwpSteps key n (t + 1) (b.extractLsb' 64 64 ^^^ BitVec.ofNat 64 t) (r ++ [b.extractLsb' 0 64])

/-- A 32-byte secret wrapped under AES-256 KWP (R459): the length of 32 bytes stands in the integrity value, and no byte of padding is needed. -/
def kwpWrap (key secret : BitVec 256) : BitVec 320 :=
  let r := (List.range 4).map (fun i => secret.extractLsb' (64 * (3 - i)) 64)
  (kwpSteps key 24 1 0xA65959A600000020 r).foldl (fun n b => n <<< 64 ||| b.setWidth 320) 0

/-- The AES-256 CMAC of a public key's 64 bytes (R461): four whole blocks, the last under the first subkey. -/
def keyCmac (key : BitVec 256) (m : BitVec 512) : BitVec 128 :=
  let l := aes256 key 0
  let sub := if l.getLsbD 127 then l <<< 1 ^^^ 0x87 else l <<< 1
  (List.range 4).foldl (fun x i =>
    aes256 key (x ^^^ m.extractLsb' (128 * (3 - i)) 128 ^^^ (if i = 3 then sub else 0))) 0

end Sys2Proof.Machine
end

