-- ==== Sys2Proof/Machine/Drbg.lean ====
section
/-! DEFINITION. CTR_DRBG with AES-256 and its derivation function (SP 800-90A, R460), and unwrapping of a secret (SP 800-38F, R459). -/

namespace Sys2Proof.Machine

/-! ### AES-256 decryption and unwrapping -/

/-- The inverse substitution table, the entry of byte 0 lowest. -/
def aesBack : Nat := 0x7d0c2155631469e126d677ba7e042b17619953833cbbebc8b0f52aae4d3be0a0ef9cc9939f7ae52d0d4ab519a97f51605fec8027591012b131c7078833a8dd1ff45acd78fec0db9a2079d2c64b3e56fc1bbe18aa0e62b76f89c5291d711af1476edf751ce837f9e28535ade72274ac9673e6b4f0cecff297eadc674f4111913a6b8a130103bdafc1020f3fca8f1e2cd00645b3b80558e4f70ad3bc8c00abd890849d8da75746155edab9edfd5048706c92b6655dcc5ca4d41698688664f6f87225d18b6d49a25b76b224d92866a12e084ec3fa420b954cee3d23c2a632947b54cbe9dec444438e3487ff2f9b8239e37cfbd7f3819ea340bf38a53630d56a0952

/-- The inverse of ShiftRows and SubBytes. -/
def aesUnshift (x : List Byte) : List Byte := (List.range 16).map (fun i => BitVec.ofNat 8 (aesBack >>> (8 * (x.getD (13 * i % 16) 0).toNat)))

/-- A mixed column undone: four times the sums of opposite bytes, then the mix itself. -/
def aesUnmix (col : List Byte) : List Byte :=
  let four := fun (i : Nat) => aesTwice (aesTwice (col.getD i 0 ^^^ col.getD (i + 2) 0))
  aesMix ((List.range 4).map (fun i => col.getD i 0 ^^^ four (i % 2)))

/-- A round between the first and the last, undone. -/
def aesUnround (x key : BitVec 128) : BitVec 128 :=
  let y := bytesOf 16 (numberOf 128 (aesUnshift (bytesOf 16 x)) ^^^ key)
  numberOf 128 ((List.range 4).flatMap (fun c => aesUnmix ((y.drop (4 * c)).take 4)))

/-- AES-256 decryption of one block. -/
def aes256Back (key : BitVec 256) (x : BitVec 128) : BitVec 128 :=
  let hi := key.extractLsb' 128 128
  let lo := key.extractLsb' 0 128
  let keys := lo :: aesKeys 7 hi lo 1
  let y := (keys.take 13).reverse.foldl aesUnround (x ^^^ keys.getD 13 0)
  numberOf 128 (aesUnshift (bytesOf 16 y)) ^^^ hi

/-- Steps n, n − 1, … 1 of the wrapping function, undone: the semiblocks, of which the last was written last. -/
def kwpBack (key : BitVec 256) (n : Nat) (a : BitVec 64) (r : List (BitVec 64)) : List (BitVec 64) :=
  match n with
  | 0 => r
  | n + 1 =>
    let b := aes256Back key ((a ^^^ BitVec.ofNat 64 (n + 1)) ++ r.getLastD 0)
    kwpBack key n (b.extractLsb' 64 64) (b.extractLsb' 0 64 :: r.dropLast)

/-- The 32-byte secret that a blob of the device holds. -/
def kwpUnwrap (key : BitVec 256) (blob : BitVec 320) : BitVec 256 :=
  let r := (List.range 4).map (fun i => blob.extractLsb' (64 * (3 - i)) 64)
  (kwpBack key 24 (blob.extractLsb' 256 64) r).foldl (fun n b => n <<< 64 ||| b.setWidth 256) 0

/-! ### CTR_DRBG -/

/-- The state of the generator: its key, its counter block, and the requests served since it was seeded. -/
structure Drbg where
  key : BitVec 256
  v : BitVec 128
  requests : Nat
  deriving DecidableEq, Repr

/-- n blocks of output after counter block v. -/
def drbgBlocks (n : Nat) (key : BitVec 256) (v : BitVec 128) : List Byte :=
  match n with
  | 0 => []
  | n + 1 => bytesOf 16 (aes256 key (v + 1)) ++ drbgBlocks n key (v + 1)

/-- The generator's key and counter block updated with 48 bytes. -/
def Drbg.update (x : Drbg) (bs : List Byte) : Drbg :=
  let y := List.zipWith (· ^^^ ·) (drbgBlocks 3 x.key x.v) bs
  { x with key := numberOf 256 (y.take 32), v := numberOf 128 (y.drop 32) }

/-- n blocks chained under a key. -/
def drbgChain (key : BitVec 256) (n : Nat) (x : BitVec 128) (bs : List Byte) : BitVec 128 :=
  match n with
  | 0 => x
  | n + 1 => drbgChain key n (aes256 key (x ^^^ numberOf 128 (bs.take 16))) (bs.drop 16)

/-- The derivation function: 48 bytes of seed from some bytes. -/
def drbgDerive (input : List Byte) : List Byte :=
  let n := input.length + 9
  let text := bytesOf 4 (BitVec.ofNat 32 input.length) ++ bytesOf 4 (48 : BitVec 32) ++ input ++ 0x80#8 :: List.replicate ((16 - n % 16) % 16) 0
  let start : BitVec 256 := numberOf 256 ((List.range 32).map (BitVec.ofNat 8))
  let out := (List.range 3).flatMap (fun i =>
    bytesOf 16 (drbgChain start (1 + (n + 15) / 16) 0 (bytesOf 4 (BitVec.ofNat 32 i) ++ List.replicate 12 0 ++ text)))
  let key : BitVec 256 := numberOf 256 (out.take 32)
  let x1 := aes256 key (numberOf 128 (out.drop 32))
  let x2 := aes256 key x1
  bytesOf 16 x1 ++ bytesOf 16 x2 ++ bytesOf 16 (aes256 key x2)

/-- The generator instantiated with entropy input and nonce, in 48 bytes. -/
def Drbg.start (entropy : BitVec 384) : Drbg := ({ key := 0, v := 0, requests := 0 } : Drbg).update (drbgDerive (bytesOf 48 entropy))

/-- The generator reseeded with 32 bytes of entropy input. -/
def Drbg.reseed (x : Drbg) (entropy : BitVec 384) : Drbg := { x.update (drbgDerive (bytesOf 32 (entropy.setWidth 256))) with requests := 0 }

/-- One request for n bytes. -/
def Drbg.generate (x : Drbg) (n : Nat) : List Byte × Drbg :=
  let k := (n + 15) / 16
  let y := ({ x with v := x.v + BitVec.ofNat 128 k } : Drbg).update (List.replicate 48 0)
  ((drbgBlocks k x.key x.v).take n, { y with requests := x.requests + 1 })

end Sys2Proof.Machine
end

