-- ==== Sys2Proof/Machine/State.lean ====
section
/-! DEFINITION. The state of the SKC1024 as plain data: every register, buffer, counter, mode and pin of the spec, the
queue of waiting commands, and the state after reset. Tables are sparse: an absent key reads as the type's default. -/

namespace Sys2Proof.Machine

/-! ### Records and segments (08_stream_format.md) -/

/-- A record: its words W0 onwards (R276) and the lowest and highest SI it carries, where it carries any (R569). -/
structure Rec where
  words : List (BitVec 64) := []
  span : Option (SI × SI) := none
  deriving DecidableEq, Repr

/-- An edge entry (R280) with the two marks of R281. -/
structure Edge where
  cell : Nat
  slot : Nat
  fine : Nat
  level : Bool
  gf : Bool := false
  settle : Bool := false
  coarse : Bool := false
  deriving DecidableEq, Repr

/-- A frame entry of one block: its frame number and its edges in the order of R20. -/
structure FrameEntry where
  frame : Nat
  edges : List Edge
  deriving DecidableEq, Repr

/-- A FRAME record in the making (R280, R282). -/
structure FrameBody where
  block : Nat
  base : Nat
  entries : List FrameEntry
  deriving DecidableEq, Repr

/-- What stands in an open segment: a finished record, or a FRAME record kept decoded until the segment is formed. -/
inductive Item where
  | frame (f : FrameBody)
  | plain (r : Rec)
  deriving DecidableEq, Repr

/-- The open segment of a source (R268, R274): when its first record was placed, the coding mode and flush interval it
opened with (R330, R344), its records in order, and the FRAME records still growing, one per block. -/
structure OpenSeg where
  since : SI
  mode : Nat := 0
  flush : Nat := 1048576
  items : List Item := []
  growing : List FrameBody := []
  deriving DecidableEq, Repr

/-- A formed segment (R268 to R272). `form` is 0 uncompressed, 1 MOLTIK, 2 MOLTIK and LZ4; `coded` is the payload when
compressed. `seg` numbers the model's segments; `home` is the region whose records a window segment carries (R317); `crc` is the hem's CRC where a
record was poisoned after it was computed (R314); `gap` marks a gap segment (R350). -/
structure Seg where
  seg : Nat := 0
  source : Nat := 0
  windowId : Nat := 0
  items : List Item := []
  form : Nat := 0
  raw : Bool := false
  coded : List Byte := []
  idx : Nat := 0
  stream : Option Nat := none
  chain : BitVec 256 := 0
  audit : Bool := false
  home : Nat := 0
  crc : Option Nat := none
  gap : Bool := false
  deriving DecidableEq, Repr

/-- A source (R270): its open segment, the next SEG_INDEX (R275), its compression mode (R330) and flush interval (R343). `waiting` are records that it will place
once no edge can come that must stand before them (R301): from an ANCHOR, TIMESTEP or SLEW on; a frame entry waits as a FRAME record of its own. -/
structure Source where
  opened : Option OpenSeg := none
  waiting : List Item := []
  nextIdx : Nat := 0
  mode : Nat := 0
  oldMode : Nat := 0
  modeFrom : SI := 0
  flushLog2 : Nat := 20
  oldFlush : Nat := 20
  flushFrom : SI := 0
  deriving DecidableEq, Repr

/-- A closed segment in its region's commit queue (R21, R313): whether it waits for self-verify and what that found. `coder` says that its source is compressed,
`engine` that the engine took it in (R22). -/
structure ClosedSeg where
  seg : Seg
  waits : Bool := false
  closedAt : SI := 0
  engine : Bool := false
  coder : Bool := false
  deriving DecidableEq, Repr

/-- A segment in staging (R24) and whether it is in DRAM. The bobbins that neither accepted nor owed it are those that hold it
in their queue as an item that is not owed. -/
structure Staged where
  seg : Seg
  inDram : Bool := false
  at_ : SI := 0
  deriving DecidableEq, Repr

/-- A DRAM ring of segments in commit order, oldest first: a look-back partition, the reduction ring or the special
area (R217, R220, R348), with the load and pin counts of R240; `gone` is, per region, the first slot after what was overwritten;
`places` the offset of each segment in the ring's area and `next` that of the one to come (R367, R379). -/
structure DramRing where
  segs : List Seg := []
  loadBytes : Nat := 0
  lastMb : Nat := 0
  broken : Nat := 0
  gone : Tab Nat := []
  next : Nat := 0
  places : Tab Nat := []
  deriving DecidableEq, Repr

/-- Chip-wide data path: staging and its watch registers (R24, R35 to R37) with the start of the load interval in progress, the rings, the directory of ANCHORs (R223), the
latest ANCHOR that resumed a region's sources (R287), and the TIMESTEP records of the latest step's boundary (R228). -/
structure Data where
  sources : Tab Source := []
  staging : List Staged := []
  nextSeg : Nat := 0
  stgPeak : Nat := 0
  stgOvf : Nat := 0
  trnBytes : Nat := 0
  trnLastMb : Nat := 0
  trnMaxMb : Nat := 0
  loadFrom : SI := 0
  lookback : Tab DramRing := []
  reduction : DramRing := {}
  special : DramRing := {}
  anchors : List (SI × Rec) := []
  resumed : Option (SI × Rec) := none
  stepRecs : List (SI × Rec) := []
  windowIdx : Tab Nat := []
  deriving DecidableEq, Repr

/-! ### Blocks and regions (01_architecture.md, 06_reductions_and_windows.md) -/

/-- A deskewed edge waiting in the alignment buffer (R99): its time, the edge, and the slot under which R20 orders it in its frame, which for the
trailing edge of a glitch is that of its leading edge. -/
structure Aligned where
  time : FineTime
  edge : Edge
  key : Nat
  deriving DecidableEq, Repr

/-- A block (R26, R27): the alignment buffer, entries in the burst SRAM oldest first, its fill in bytes with the frame of the last drain, the
first discarded frame while discarding, the first frame that the encoder has not reached, and RGN_BLK_SRAM's counters (R38). -/
structure Block where
  align : List Aligned := []
  entries : List FrameEntry := []
  fill : Nat := 0
  drained : Nat := 0
  discardFrom : Option Nat := none
  nextFrame : Nat := 0
  ovfCnt : Nat := 0
  peak : Nat := 0
  deriving DecidableEq, Repr

/-- A state clock's settings (R208). -/
structure StateClock where
  clk : Nat
  slope : Nat
  setup : Nat
  hold : Nat
  ofs : Int
  mask : BitVec 256
  deriving DecidableEq, Repr

/-- A clock edge whose sample is not complete (R209), under the settings it began with (R216). -/
structure PendingSample where
  clock : Nat
  cfg : StateClock
  time : FineTime
  settle : Bool
  coarse : Bool
  deriving DecidableEq, Repr

/-- A deskewed edge kept for state samples and decoders: time, level after, SETTLE, COARSE, glitch part. -/
structure PastEdge where
  time : FineTime
  level : Bool
  settle : Bool
  coarse : Bool := false
  glitch : Nat := 0
  deriving DecidableEq, Repr

/-- A deskewed edge as the taps take it (R17, R18): channel, deskewed time, level after, glitch part (0 none, 1 leading, 2 trailing). -/
structure SeqEdge where
  ch : Nat
  time : FineTime
  level : Bool
  glitch : Nat := 0
  settle : Bool := false
  coarse : Bool := false
  deriving DecidableEq, Repr

/-- A channel's statistics in the window in progress (R212 to R214), in fine LSB. -/
structure Stats where
  start : FineTime := 0
  edges : Nat := 0
  glitches : Nat := 0
  highTime : Nat := 0
  minHigh : Option Nat := none
  maxHigh : Nat := 0
  minLow : Option Nat := none
  maxLow : Nat := 0
  firstRise : Option FineTime := none
  lastRise : FineTime := 0
  rises : Nat := 0
  lastEdge : Option FineTime := none
  level : Bool := false
  levelSince : FineTime := 0
  partial_ : Bool := false
  gap : Bool := false
  doubt : Bool := false
  settle : Bool := false
  coarse : Bool := false
  deriving DecidableEq, Repr

/-- A statistics window that has ended at slot `fin` and waits until no edge below it can come (R99, R216): its size and start, whether it was cut short, whether
the next window goes on from it, and what its channels gathered. -/
structure EndedStats where
  fin : SI
  log2 : Nat
  start : SI
  cut : Bool
  carry : Bool
  stats : Tab Stats
  deriving DecidableEq, Repr

/-- A region reset in progress (R497, R498): M, FLAGS.DEFAULTS, whether the writer still takes in data of slots below M, the first frame lost
per source, records held for N by source, and counts for the result. `cut` says that a run's stop has ended the span in its sources, `longest` the frames
of the selvedge then placed. -/
structure RegionReset where
  m : SI
  defaults : Bool
  intake : Bool := true
  lostFrom : Tab Nat := []
  held : List (Nat × Rec) := []
  discarded : Nat := 0
  dropped : Nat := 0
  cut : Bool := false
  longest : Nat := 0
  deriving DecidableEq, Repr

/-- A region's configuration (R233, R240). -/
structure RegionCfg where
  trnGroupsLog2 : Nat := 0
  statLog2 : Nat := 16
  statsOn : Bool := false
  chMask : BitVec 256 := 0
  engMask : BitVec 16 := 0
  clocks : Tab StateClock := []
  deriving DecidableEq, Repr

/-- A region: its configuration, writer, reductions, compression engine, hash pipeline with the bytes it took in the last 1 ms by slot, and reset
state. `gaps` holds the latest spans
whose captured data was discarded and reported, `resetSpan` the latest region reset's span; `oldClocks` and `oldEng` held before the slots
`clocksAt` and `engAt` (R216). `clockBuf` are edges that the state clocks take once no command can take effect at or below their slot. -/
structure Region where
  cfg : RegionCfg := {}
  closed : List ClosedSeg := []
  discardFrom : Option Nat := none
  samples : List PendingSample := []
  past : Tab (List PastEdge) := []
  frameClocks : Tab (Nat × Nat) := []
  stateSkip : Nat := 0
  stateViol : Nat := 0
  skipEvent : Option Nat := none
  violEvent : Option Nat := none
  stats : Tab Stats := []
  statBuf : List SeqEdge := []
  statStart : SI := 0
  ended : List EndedStats := []
  clockBuf : List SeqEdge := []
  cmpBucket : Nat := 0
  cmpAt : Nat := 0
  bypass : Nat := 0
  mismatch : Nat := 0
  cmpIn : Nat := 0
  cmpOut : Nat := 0
  cmpInMb : Nat := 0
  cmpOutMb : Nat := 0
  hashDeferred : Nat := 0
  hashEvent : Option Nat := none
  hashBytes : Nat := 0
  hashMb : Nat := 0
  hashLog : List (SI × Nat) := []
  rstState : Nat := 0
  resets : Nat := 0
  discarded : Nat := 0
  dropped : Nat := 0
  rst : Option RegionReset := none
  gaps : List (SI × SI) := []
  resetSpan : Option (SI × SI) := none
  oldClocks : Tab StateClock := []
  clocksAt : SI := 0
  oldEng : BitVec 16 := 0
  engAt : SI := 0
  deriving DecidableEq, Repr

/-! ### Windows and runs (06_reductions_and_windows.md) -/

/-- A window policy (R235). -/
structure WPolicy where
  valid : Bool := false
  merge : Bool := false
  regions : Nat := 0
  red : Nat := 0
  pre : Nat := 0
  post : Nat := 0
  deriving DecidableEq, Repr

/-- A tack as a window lists it (R294). -/
structure TackRef where
  si : SI
  fine : Nat
  seq : Nat
  kind : Nat
  origin : Nat
  number : Nat
  deriving DecidableEq, Repr

/-- One part of a window: region and reduction with the sources it has, its delivered start d (R222), the next SI to read (the pin, R224), and per source the
number of the next segment to read. `lost` are spans lost under its pin that no selvedge states yet, by
source, `told` those that one states, and `marred` the spans stated for poisoned reads, with cause and source. -/
structure WPart where
  region : Nat
  red : Nat
  sources : List Nat := []
  start : SI
  pos : SI
  read : Tab Nat := []
  lost : List (Nat × SI × SI) := []
  told : List (Nat × SI × SI) := []
  marred : List (Nat × Nat × SI × SI) := []
  deriving DecidableEq, Repr

/-- A window slot in use (R223 to R226, R241): state 1 reserved, 2 open, 3 paused; `runB` is B of R222. -/
structure WSlot where
  state : Nat
  policy : Nat
  merge : Bool := false
  regions : Nat := 0
  red : Nat := 0
  pre : Nat := 0
  post : Nat := 0
  exportJob : Option Nat := none
  id : Nat := 0
  t : SI := 0
  reqStart : SI := 0
  reqEnd : SI := 0
  tacks : List TackRef := []
  preopened : Bool := false
  opened : Bool := false
  parts : List WPart := []
  pos : SI := 0
  stopped : Bool := false
  merged : Bool := false
  selvedges : Nat := 0
  frames : Nat := 0
  openOrder : Nat := 0
  runB : SI := 0
  deriving DecidableEq, Repr

/-- Run state and window engine (R228 to R241). `flushed` says that everything of a stopping run has been placed, `ending` that only the records of E
themselves remain, of which `endAnchor` is the ANCHOR where E is no anchor boundary; `early` holds deskewed edges that no run has taken and a run that is
started now could. -/
structure Capture where
  runState : Nat := 0
  runId : Nat := 0
  runB : SI := 0
  runE : SI := 0
  pastRuns : List (SI × SI) := []
  lbGib : Nat := 0
  redGib : Nat := 0
  pinLimit : Nat := 50
  share : List Nat := [16, 16, 16, 16]
  policies : Tab WPolicy := []
  slots : Tab WSlot := []
  refused : Nat := 0
  shortPre : Nat := 0
  peak : Nat := 0
  lastId : Nat := 0
  winOpened : Nat := 0
  winJoined : Nat := 0
  winSeq : Nat := 0
  flushed : Bool := false
  ending : Bool := false
  endAnchor : Option Rec := none
  early : List SeqEdge := []
  deriving DecidableEq, Repr

/-! ### Commands, jobs and the log: shared shapes (13_command_interface.md) -/

/-- Where a change comes from (R297): 0 host ring, 1 cascade master, 2 schedule entry, 3 firmware recovery, 4 service
port, 5 TAMPER_N, 6 STOP_RUN action. -/
structure Origin where
  kind : Nat := 0
  id : Nat := 0
  deriving DecidableEq, Repr

/-- A command being carried out: who asked, the ring and TAG that its completion entry answers (none where no entry is
posted), whether it is the execution of a scheduler entry, the parameters it was given, and a cascade command's number. -/
structure Ctx where
  origin : Origin := {}
  reply : Option (Nat × BitVec 16) := none
  opcode : Nat := 0
  params : List Byte := []
  sched : Bool := false
  late : Bool := false
  ring : Nat := 0
  casNo : Nat := 0
  lost : Bool := false
  deriving DecidableEq, Repr

/-- A completion entry (R431), before its PHASE is known. `waited`: it has been seen to wait for CQ space (R456, HELD). -/
structure CplEntry where
  ring : Nat
  tag : BitVec 16
  status : Nat
  interim : Bool := false
  sched : Bool := false
  opcode : Nat := 0
  jobId : Nat := 0
  result : List Nat := []
  waited : Bool := false
  deriving DecidableEq, Repr

/-! ### Bobbins (10_bobbins.md) -/

/-- One item of a bobbin's delivery queue. `owed` items come from backlog and `ready` says that the backlog reader has
read them; `counted` items count towards SPILL_MIB; `gap` holds the cause of a gap segment (R350). `need` are the words that its poisoned copies take once a
parity error has been met (R315), and `deferred` says that its hash was counted as deferred (R317). -/
structure QItem where
  seg : Seg
  owed : Bool := false
  ready : Bool := true
  counted : Bool := true
  kept : Bool := false
  contained : Bool := false
  hostStopped : Bool := false
  again : Bool := false
  gap : Option Nat := none
  gapStart : Option SI := none
  gapEnd : Option SI := none
  since : SI := 0
  need : Nat := 0
  deferred : Bool := false
  deriving DecidableEq, Repr

/-- A bobbin's context and delivery queue (R338 to R342, R354). `ring` holds the segments between REL and WR with the
pointer at which each starts; `dup` is a pointer write that waits for its duplicate (R353) and `dupVal` the latest BOB_DUP write. -/
structure Bobbin where
  loc1 : Bool := false
  sizeLog2 : Nat := 12
  provisional : Bool := false
  skc256 : Bool := false
  notifyTack : Bool := false
  weight : Nat := 1
  notify4k : Nat := 0
  ringAddr : Nat := 0
  wbAddr : Nat := 0
  spillMib : Nat := 0
  wr : Nat := 0
  rd : Nat := 0
  rel : Nat := 0
  mark : Nat := 0
  markValid : Bool := false
  rewinding : Option (List Seg × Ctx × Nat) := none
  dropping : Bool := false
  flags : BitVec 9 := 0
  drops : Nat := 0
  held : Bool := false
  queue : List QItem := []
  ring : List (Nat × Seg) := []
  wbCount : Nat := 0
  dup : Option (Nat × Nat × SI) := none
  dupVal : Nat := 0
  stream : Option Nat := none
  credit : Nat := 0
  deriving DecidableEq, Repr

/-- All bobbins, the routing table (R343: source to bobbins), the routes whose removal waits for owed segments (R344),
and the allocated spans of the bobbin area (R338, R357: bobbin, offset, bytes). `turnHost` and `turnDram` are the bobbins that the
host link and the DDR5 controller served last (R346). `oldRoutes` holds a source's bobbins before the boundary of its latest ROUTE, `ending` removed routes
(source, bobbin, boundary) that still deliver (R344), and `cached` the bobbins whose contexts are cached, latest used first (R342). -/
structure Bobbins where
  tab : Tab Bobbin := []
  routes : Tab (List Nat) := []
  area : List (Nat × Nat × Nat) := []
  turnHost : Nat := 0
  turnDram : Nat := 0
  oldRoutes : Tab (SI × List Nat) := []
  ending : List (Nat × Nat × SI) := []
  cached : List Nat := []
  deriving DecidableEq, Repr

/-! ### Evidence streams and replay (09_compression_integrity_replay.md) -/

/-- An evidence stream (R316 to R324, R335). `toHash` holds the delivered segments whose hash is not yet counted, each with its chain
digest and the region whose pipeline it is in; `lastChain` that of the latest hashed one; `closeSeg` and `finalSeg` number the audit segments of a close, and `noFinal` says that no final
signature follows (R324); `finalDue` that the close's segment has been hashed, so that the next signature is the final one. -/
structure Stream where
  active : Bool := false
  closing : Bool := false
  bobbin : Nat := 0
  sigSegs : Nat := 0
  sigMs : Nat := 0
  genesis : Nat := 0
  chain : BitVec 256 := 0
  nextIdx : Nat := 0
  toHash : List (Nat × BitVec 256 × Nat) := []
  lastChain : BitVec 256 := 0
  hashed : Nat := 0
  hashedSince : Nat := 0
  closeSeg : Option Nat := none
  finalSeg : Option Nat := none
  lastSig : SI := 0
  deferred : Option Ctx := none
  noFinal : Bool := false
  due : Option Nat := none
  finalDue : Bool := false
  deriving DecidableEq, Repr

/-- One accepted segment of a replay that waits in the work area: its source, the SI of its header and hem, bytes of decoded payload, and
the records that the sequencer consumes, and its offset in the buffer. -/
structure ReplaySeg where
  source : Nat
  first : SI
  last : SI
  bytes : Nat
  items : List Item
  loaded : Bool := false
  ofs : Nat := 0
  deriving DecidableEq, Repr

/-- The replay job's own state (R325 to R329, R336). `offset` is the buffer offset of the next segment and `got` the bytes read from there,
`fetched` the offset up to which reads were made; `spans` holds selvedges of the input (scope, ID, first slot, end) and `skipped` the sources
of rejected segments with the slot from which they are missing; `anchors` waits to be consumed, and `anchor` is the ST reconstructed from it;
slots below `upto` can be evaluated; the job started at slot `since`. -/
structure Replay where
  job : Option Nat := none
  lastCheck : Nat := 0
  acc : Nat := 0
  rej : Nat := 0
  pos : Nat := 0
  fail : Nat := 0
  bufAddr : Nat := 0
  bufLen : Nat := 0
  abortOnFail : Bool := false
  rate : Nat := 1
  since : SI := 0
  offset : Nat := 0
  got : List Byte := []
  fetched : Nat := 0
  prevFirst : Nat := 0
  firstRej : Nat := 0
  tacks : Nat := 0
  input : List ReplaySeg := []
  spans : List (Nat × Nat × SI × SI) := []
  skipped : List (Nat × SI) := []
  anchors : List (SI × Rec) := []
  anchor : Option (SI × Nat × Nat) := none
  ended : Bool := false
  failed : Bool := false
  upto : SI := 0
  last : SI := 0
  deriving DecidableEq, Repr

/-! ### Station time (02_station_time.md) -/

/-- The DPLL's own state (R43). -/
inductive DpllState where
  | free | acquire | locked | coast | returnSlew | returnStep
  deriving DecidableEq, Repr

/-- A step of ST waiting for the next anchor boundary (R48): its cause as R288 codes it, Δ in 2^-152 epoch, and for
SET_ST mode 1 the ST to set. `lock` is, for the step that ends ACQUIRE, the slot of its pulse and the rate that the loop runs at from the step on. -/
structure PendingStep where
  cause : Nat
  delta : Int := 0
  target : Option Nat := none
  lock : Option (SI × Nat) := none
  deriving DecidableEq, Repr

/-- A slew in progress (R49, R50, R52): the signed Δ that remained at slot `startSi`, in 2^-152 epoch, the rate of the policy it began
under, and the boundary at which it began. -/
structure Slew where
  delta : Int
  ppm : Nat
  startSi : SI
  began : SI
  deriving DecidableEq, Repr

/-- The mapping from SI to ST: at slot `si0` ST is `st0`, and it advances by the rate per slot (2^-152 epoch). -/
structure StMap where
  si0 : SI := 0
  st0 : Int := 0
  rate : Nat := 2 ^ 152 / 4000000000
  deriving DecidableEq, Repr

/-- The SET_REF settings (R74). -/
structure RefCfg where
  refFreq : Nat := 0
  rateKhz : Nat := 4000000
  synMode : Bool := false
  timeSrc : Bool := false
  refoutDiv : Nat := 0
  epochOutW : Nat := 10
  epochInDelay : Int := 0
  ttAsym : Int := 0
  deriving DecidableEq, Repr

/-- The SET_EPOCH settings (R75); `nominal` is none until the first SET_EPOCH (R566). -/
structure EpochCfg where
  nominal : Option Nat := none
  falling : Bool := false
  tol : Nat := 8
  deriving DecidableEq, Repr

/-- The SET_RETURN_POLICY settings (R77). -/
structure ReturnPolicy where
  slewWindow : Nat := 4000
  slewRate : Nat := 20
  holdover : Nat := 50000
  uncAlarm : Nat := 0
  deriving DecidableEq, Repr

/-- Time transfer in a child (R62 to R66): delay and offsets in kept ST, and `pull`, the part of the present
rate that only pulls ST in (R63). -/
structure TimeTransfer where
  offsets : List Int := []
  delay : Int := 0
  filtered : Int := 0
  parentState : Nat := 0
  parentTgen : Option (BitVec 8) := none
  parentHz : Nat := 0
  parentU : Nat := 0
  failed : Nat := 0
  parentStep : Option Int := none
  pull : Int := 0
  deriving DecidableEq, Repr

/-- What the loop has found at an accepted pulse or an exchange and applies at the next anchor boundary, whose ANCHOR states it (R305): the rate, its part
that only pulls ST in (R63), and in LOCKED the instant at which ST is to meet an epoch boundary with the kept error that it leaves there (R42). -/
structure LoopSet where
  rate : Nat
  pull : Int := 0
  aim : Option (FineTime × Int) := none
  deriving DecidableEq, Repr

/-- The snapshot registers (R80, R82). -/
structure Snap where
  si : Nat := 0
  st : Nat := 0
  tgen : Nat := 0
  coasting : Bool := false
  state : Nat := 0
  deriving DecidableEq, Repr

/-- The station-time unit and the sample synthesiser. `growth` is the HOLDOVER_PS_PER_S in force (R45, R52). `pulses` counts consecutive accepted pulses (or completed exchanges), `slips` holds
the positions of a run of slips in cycles since the last accepted pulse, latest first, and `labelOfs` is what a label adds to the
free-running ST in FREE and ACQUIRE (R53); `labelHeld` says that the label outlived an abandoned return step (R53). `view` is the station
time at the latest frame boundary below which no later command can have changed it (R80), `coastLog` the latest changes of the coasting flag, newest
first (R193). `past` holds the earlier mappings with the slews that ran under them, newest first (R305), and `loopDue` what the loop applies next. -/
structure Time where
  running : Bool := false
  si : SI := 0
  map : StMap := {}
  past : List (StMap × Option Slew) := []
  loopDue : Option LoopSet := none
  tgen : BitVec 8 := 0
  state : DpllState := .free
  pulses : Nat := 0
  lastPulse : Option FineTime := none
  misses : Nat := 0
  slips : List Nat := []
  refValid : Bool := false
  refHz : Nat := 0
  phasePs : Int := 0
  uLoss : Nat := 0
  lossSi : SI := 0
  growth : Nat := 50000
  bound : Nat := 60
  alarmed : Bool := false
  pending : Option PendingStep := none
  labelStep : Option PendingStep := none
  slew : Option Slew := none
  label : Option Nat := none
  labelOfs : Option Int := none
  labelHeld : Bool := false
  lastStepPs : Int := 0
  stepCnt : Nat := 0
  lossCnt : Nat := 0
  slipCnt : Nat := 0
  missCnt : Nat := 0
  ref : RefCfg := {}
  epoch : EpochCfg := {}
  policy : ReturnPolicy := {}
  synLock : Bool := false
  synLoss : Nat := 0
  gatedFrom : Option SI := none
  gateEnd : SI := 0
  outActive : Bool := false
  refoutOn : Bool := false
  epochOutHigh : Bool := false
  epochOutUntil : SI := 0
  tt : TimeTransfer := {}
  snap : Snap := {}
  view : Snap := {}
  coastLog : List (SI × Bool) := []
  deriving DecidableEq, Repr

/-- A scheduler entry (R67 to R73, R78): the requested ST, when and by whom it was accepted, its acceptance order, the
command, and for a repeating entry FIRST_ST, COUNT, PERIOD and the occurrences done. `announced` marks a root's ARM or DISARM that has gone down the
tree, `casLate` one whose due ST lies after the requested one (R189). -/
structure SchedEntry where
  due : Nat
  accepted : SI
  order : Nat
  packet : Packet
  opcode : Nat
  reply : Option (Nat × BitVec 16)
  repeats : Bool := false
  first : Nat := 0
  count : Nat := 0
  period : Nat := 0
  done : Nat := 0
  casLate : Bool := false
  announced : Bool := false
  deriving DecidableEq, Repr

/-- The scheduler table (R67, R82). -/
structure Sched where
  entries : Tab SchedEntry := []
  nextOrder : Nat := 0
  failCnt : Nat := 0
  lateCnt : Nat := 0
  deriving DecidableEq, Repr

/-! ### PCIe endpoint (12_host_interface.md) -/

/-- What a non-posted request reads (R409, R411, R429): a packet header, a packet's parameters with its header bytes, or
REPLAY input. -/
inductive ReadUse where
  | header (ring : Nat)
  | params (ring : Nat) (hdr : List Byte)
  | replay (job ofs : Nat)
  deriving DecidableEq, Repr

/-- An outstanding request (R409 to R411, R413): its use, address, length, whether it is the second try, the completion
timeout in ns it was issued with, and whether it waits to be issued again. -/
structure Request where
  use : ReadUse
  addr : Nat
  len : Nat
  retried : Bool := false
  timeoutNs : Nat := 50000000
  issuedAt : SI := 0
  failedTag : Option Nat := none
  deriving DecidableEq, Repr

/-- MSI-X table entry (R407). -/
structure MsixEntry where
  addr : BitVec 64 := 0
  data : Word := 0
  masked : Bool := true
  deriving DecidableEq, Repr

/-- Event map entry (R407). -/
structure EvMap where
  enable : Bool := false
  wake : Bool := false
  vector : Nat := 0
  deriving DecidableEq, Repr

/-- The endpoint: link, power and containment state, counters, tags, MSI-X, the BAR2 window and the latches of R8. -/
structure Pcie where
  configUp : Bool := false
  retryStatus : Bool := true
  speed : Nat := 0
  width : Nat := 0
  linkUp : Bool := false
  flit : Bool := false
  d3hot : Bool := false
  bme : Bool := false
  quiesced : Bool := false
  frozen : Bool := false
  retain : Bool := true
  msixEn : Bool := false
  fnMask : Bool := false
  winRange : Bool := false
  pmeEn : Bool := false
  pmeStatus : Bool := false
  wakeN : Bool := false
  cause : Nat := 0
  refused : Nat := 0
  freezes : Nat := 0
  aerStatus : BitVec 32 := 0
  cto : Nat := 0
  lateCpl : Nat := 0
  cntLinkDown : Nat := 0
  cntHotReset : Nat := 0
  cntFlr : Nat := 0
  cntFreeze : Nat := 0
  badCpl : Nat := 0
  barErr : Nat := 0
  rdBytes : Nat := 0
  wrBytes : Nat := 0
  rdMb : Nat := 0
  wrMb : Nat := 0
  winBase : Nat := 0
  dbLo : Word := 0
  bars : Tab Word := []
  romBar : Word := 0
  aerSeverity : BitVec 32 := 0x00462030
  payloadCode : Nat := 0
  ecrcGen : Bool := false
  ecrcCheck : Bool := false
  aspm : Nat := 0
  clockPm : Bool := false
  l1Sub : Nat := 0
  clkreq : Bool := true
  deriving DecidableEq, Repr

/-- Event status, map, MSI-X table and pending bits (R407, R408). -/
structure Events where
  raised : List Nat := []
  map : Tab EvMap := []
  table : Tab MsixEntry := []
  pba : List Nat := []
  deriving DecidableEq, Repr

/-- Outstanding and quarantined tags (R410) and requests waiting to be issued (R410, R413). -/
structure Tags where
  outstanding : Tab Request := []
  quarantined : Tab Nat := []
  reissue : List Request := []
  timeoutCode : Nat := 0
  readSizeCode : Nat := 2
  deriving DecidableEq, Repr

/-! ### Command rings, jobs and the audit log (13_command_interface.md) -/

/-- A packet held on the chip: fetched, not yet examined (R412, R429, R434). -/
structure Fetched where
  opcode : Nat
  packet : Packet
  deriving DecidableEq, Repr

/-- A command ring (R427 to R433, R456). -/
structure Ring where
  sqBase : Nat := 0
  cqBase : Nat := 0
  enable : Bool := false
  role : Nat := 0
  cqLog2 : Nat := 0
  sqLog2 : Nat := 0
  sqTail : Nat := 0
  sqHead : Nat := 0
  cqTail : Nat := 0
  cqHead : Nat := 0
  stopped : Bool := false
  stopCause : Nat := 0
  cfgErr : Bool := false
  ptrErr : Bool := false
  heldFlag : Bool := false
  accepted : Nat := 0
  refused : Nat := 0
  fetched : List Fetched := []
  fetching : Bool := false
  unreplied : Nat := 0
  deriving DecidableEq, Repr

/-- Job states (R441). -/
inductive JobState where
  | queued | running | suspended | done | cancelled | failed
  deriving DecidableEq, Repr

/-- A job (R441 to R444). `fromQueued` marks a suspension from QUEUED; `suspendReq` and `cancelReq` are the commands that
wait for its suspend point; `since` is the slot at which it began to run; `bySwap` marks a suspension by the firmware swap. -/
structure Job where
  id : Nat
  state : JobState := .queued
  ctx : Ctx
  progress : Nat := 0
  result : List Nat := []
  fromQueued : Bool := false
  suspendReq : List Ctx := []
  cancelReq : List Ctx := []
  bySwap : Bool := false
  seen : Nat := 0
  since : SI := 0
  deriving DecidableEq, Repr

/-- The measurement of a CAL_DESKEW job with SOURCE 1 (R101): the latest edges of REF_CH with the channels attributed to each, edges of the other
channels that no such edge has claimed yet, and per channel how many occurrences were collected with the sum of REF_CH's time less its own. -/
structure DeskewCal where
  job : Nat
  refs : List (FineTime × List Nat) := []
  early : List (Nat × FineTime) := []
  sums : Tab (Nat × Int) := []
  deriving DecidableEq, Repr

/-- Rings, jobs, the hold store (R432) and the deferred commands of the sequencer and the run (R440). -/
structure Cmd where
  rings : Tab Ring := []
  hold : List CplEntry := []
  jobs : List Job := []
  ended : List Job := []
  nextJob : Nat := 1
  deferredArm : Option Ctx := none
  deferredStart : Option Ctx := none
  deskew : Option DeskewCal := none
  deriving DecidableEq, Repr

/-- A CHANGE record as the log keeps it (R297, R448). -/
structure LogEntry where
  sequence : Nat
  body : Rec
  lost : Bool := false
  onchip : Bool := false
  deriving DecidableEq, Repr

/-- A final entry that waits until the command's record is in the on-chip log (R447). -/
structure LateEnd where
  ctx : Ctx
  status : Nat
  jobId : Nat
  result : List Nat
  deriving DecidableEq, Repr

/-- The audit log (R445 to R449, R457, R505). `entries` are the unreleased entries, oldest first, in the DRAM log or, while `onchipOnly`, carried in
the on-chip log; `carried` says that a later training carries them; `onchip` is the latest 8,192 records, newest first; `held` the records whose
write waits for a retry, `ends` the final entries that wait for such a write. -/
structure Log where
  boot : Nat := 1
  count : Nat := 0
  release : Nat := 1099511627776
  entries : List LogEntry := []
  onchip : List LogEntry := []
  reserved : Nat := 0
  onchipOnly : Bool := true
  carried : Bool := false
  unwritable : Bool := false
  onchipBad : Bool := false
  held : List LogEntry := []
  ends : List LateEnd := []
  logFull : Nat := 0
  lost : Nat := 0
  lowRaised : Bool := false
  deriving DecidableEq, Repr

/-! ### Seams, SOFT_RESET and doubt (15_seams_resets_failsafe.md) -/

/-- A seam (R487 to R494, R514). -/
structure Seam where
  unsettled : Bool := false
  stopped : Bool := false
  overrun : Bool := false
  region : Nat := 0
  lost : Nat := 0
  unsettledCnt : Nat := 0
  badFor1ms : Bool := false
  /-- The slot since which it is unsettled, and since which a clock is stopped. -/
  unsettledAt : SI := 0
  stoppedAt : SI := 0
  deriving DecidableEq, Repr

/-- Seams, doubt, the fail-safe policy and the control core's recovery (R487 to R514). `rstCtx` holds the RESET_REGION commands that wait for
their N, by region. -/
structure Safe where
  seams : Tab Seam := []
  quiet : Bool := true
  causes : BitVec 8 := 0
  seen : BitVec 8 := 0
  doubtSi : SI := 0
  tempLimit : Nat := if Config.gradeE then 110 else 105
  supplyTol : Nat := 5
  monSupply : BitVec 16 := 0
  monTemp : BitVec 8 := 0
  restarts : Nat := 0
  cfgPar : Nat := 0
  swapBusy : Nat := 0
  copyBad : Bool := false
  coreDown : Bool := false
  lastRestart : Option SI := none
  stuckCore : Bool := false
  swapping : Bool := false
  softReset : Option Ctx := none
  softBegun : Bool := false
  softAt : SI := 0
  fault : Bool := false
  coolSince : Option SI := none
  supplyGoodSince : Option SI := none
  supplyBad : Tab SI := []
  rstCtx : Tab Ctx := []
  deriving DecidableEq, Repr

/-! ### Input cells and interval units (03_input_cells.md) -/

/-- An interpolator lane (R93 to R95): whether it has passed and not since failed, the spans S1 and S2 − S1 of its pass in 1/1024 raw unit, the
time of its latest served edge and the raw slot it last served. -/
structure Lane where
  good : Bool := false
  retired : Bool := false
  s1 : Nat := 65536
  span : Nat := 65536
  lastEdge : FineTime := 0
  lastSlot : Option SI := none
  deriving DecidableEq, Repr

/-- Why a channel is in channel doubt (R89, R296). -/
structure ChDoubt where
  settling : Bool := false
  stuck : Bool := false
  oor : Bool := false
  deskew : Bool := false
  deriving DecidableEq, Repr

/-- What a comparator decides by (R84, R85): mode, CODE and HYST_MV. -/
structure Comparator where
  diff : Bool := false
  thresh : Nat := 1489
  hyst : Nat := 0
  deriving DecidableEq, Repr

/-- A channel: settings (R116, R117), level, lanes, monitors and doubt. `input` holds the latest ball voltages in nV, where one was given, and `oldCmp`
what the comparator decided by before slot `cmpAt`. `enabledAt` is the latest boundary at which it was
enabled or disabled, `enableLog` the latest such boundaries, newest first, with what it became; `deskewAt`/`oldDeskew` hold the change of R100. -/
structure Cell where
  deskew : Int := 0
  hyst : Nat := 0
  thresh : Nat := 1489
  enable : Bool := false
  diff : Bool := false
  term50 : Bool := false
  enabledAt : SI := 0
  enableLog : List (SI × Bool) := []
  firstSample : Bool := false
  input : Option (Int × Int) := none
  oldCmp : Comparator := {}
  cmpAt : SI := 0
  level : Bool := false
  levelAtEnable : Bool := false
  coarseCnt : Nat := 0
  parCal : Bool := false
  calFail : Bool := false
  settleFrom : SI := 0
  settleUntil : Option SI := none
  deskewUntil : Option SI := none
  oldDeskew : Int := 0
  deskewAt : SI := 0
  doubt : ChDoubt := {}
  doubtOpen : Bool := false
  lastTime : Option FineTime := none
  anchorEdges : Nat := 0
  lanes : List Lane := [{}, {}, {}]
  calLane : Nat := 3
  rotating : Bool := false
  parDone : Bool := false
  deriving DecidableEq, Repr

/-- One endpoint edge held by an interval unit. -/
structure IvlEdge where
  time : FineTime
  isStart : Bool := false
  isStop : Bool := false
  settle : Bool
  coarse : Bool
  deriving DecidableEq, Repr

/-- The settings that SET_INTERVAL gives a unit (R114). -/
structure IvlSet where
  enable : Bool
  pairing : Bool
  startCh : Nat
  stopCh : Nat
  startSlope : Nat
  stopSlope : Nat
  decim : Nat
  maxSpan : Nat
  deriving DecidableEq, Repr

/-- An interval unit (R103 to R108, R114, R118). `next` holds settings that count from a later slot on. `starts` are the pending starts and `stops` the stops that may still
serve them; `queued` counts results waiting for the writer and `dropFrom` the frames of dropped results. -/
structure Ivl where
  enable : Bool := false
  pairing : Bool := false
  startCh : Nat := 0
  stopCh : Nat := 0
  startSlope : Nat := 0
  stopSlope : Nat := 0
  decim : Nat := 0
  maxSpan : Nat := 4096
  buf : List IvlEdge := []
  starts : List IvlEdge := []
  stops : List IvlEdge := []
  next : List (SI × IvlSet) := []
  results : Nat := 0
  queued : Nat := 0
  queueFrame : Nat := 0
  dropFrames : List Nat := []
  orderSkip : Nat := 0
  startLost : Nat := 0
  timeout : Nat := 0
  drop : Nat := 0
  deriving DecidableEq, Repr

/-! ### The trigger sequencer (04_trigger_sequencer.md) -/

/-- A term unit (R123, R156) with the PATTERN masks and values of the four regions (R125); bit r of `given` says that region r has a MASK section. -/
structure Term where
  kind : Nat := 0
  mode : Nat := 0
  sel : Nat := 0
  field : Nat := 0
  a : BitVec 64 := 0
  b : BitVec 64 := 0
  masks : List (BitVec 256) := [0, 0, 0, 0]
  values : List (BitVec 256) := [0, 0, 0, 0]
  given : Nat := 0
  deriving DecidableEq, Repr

/-- A branch entry (R157). -/
structure Branch where
  ctrl : Nat := 0
  next : Nat := 0
  terms : List Nat := [0, 0, 0, 0]
  fire : Nat := 0
  markCode : Nat := 0
  ctrOp : Nat := 0
  tmrOp : Nat := 0
  drive : Nat := 0
  misc : Nat := 0
  confirm : Nat := 0
  deadline : Nat := 0
  deriving DecidableEq, Repr

/-- A program image (R121, R153 to R158). -/
structure Program where
  startStitch : Nat := 0
  suppRec : Bool := false
  holdoff : Nat := 0
  terms : Tab Term := []
  stitches : Tab (List Branch) := []
  counters : Tab Nat := []
  deriving DecidableEq, Repr

/-- A baste awaiting its sew or unpick (R142, R168 to R174); `st` is its tack ST, which its cascade messages carry (R186). -/
structure PendingBaste where
  number : Nat
  si : SI
  fine : Nat
  stitch : Nat
  branch : Nat
  settle : Bool
  coarse : Bool
  confirm : Nat
  deadline : Nat
  window : Bool := false
  wpol : Nat := 0
  slot : Option Nat := none
  sent : Bool := false
  st : Nat := 0
  deriving DecidableEq, Repr

/-- An occurrence that is not an edge: kind 0 field of an engine's message, 1 TRIG_IN edge, 2 cascade FIRE or SEW, 3 BASTE, 4 DOUBT, 5 the level at
which a channel is enabled. -/
structure SeqEvent where
  kind : Nat
  src : Nat
  time : FineTime
  level : Bool := false
  fields : List (Nat × FineTime × Nat × Bool × Bool) := []
  deriving DecidableEq, Repr

/-- A pulse being measured by a PULSE_WIDTH term: its leading edge (R126). -/
structure Pulse where
  lead : FineTime
  settle : Bool
  coarse : Bool
  deriving DecidableEq, Repr

/-- A sequencer (R120 to R147, R164, R165). `next` is the first slot not evaluated; `stopAt` the boundary at which evaluation ends; `levels`
holds levels at the end of the slot before it (TRIG_IN pin n under 4096 + n), `edges` and `events` what lies at or after it; `cycleFrame` is
the FRM cycle in which it last evaluated. `forced` holds forced tacks (slot, FLAGS, WPOL) that wait for the evaluation of their slot (R172), `rearm` each ARM with RESTART and its
image until its boundary is evaluated. `stitchAt` is the stitch that was current in the latest evaluated slot (R164). -/
structure Seq where
  pending : Program := {}
  active : Program := {}
  pendingOk : Bool := false
  pendingId : Nat := 0
  activeId : Nat := 0
  armed : Bool := false
  halted : Bool := false
  stitch : Nat := 0
  stitchAt : Nat := 0
  from_ : SI := 0
  stopAt : Option SI := none
  next : SI := 0
  lagMax : Nat := 0
  held : Nat := 0
  uneval : Nat := 0
  counters : Tab Nat := []
  timers : Tab Nat := []
  timersOn : List Nat := []
  holdFrom : Option FineTime := none
  holdBaste : Option Nat := none
  bastes : List PendingBaste := []
  basteNo : Nat := 0
  tackNo : Nat := 0
  suppHold : Nat := 0
  suppFull : Nat := 0
  transCnt : Nat := 0
  lastStitch : Nat := 0
  lastBranch : Nat := 0
  lastKind : Nat := 0
  lastFine : Nat := 0
  lastSi : SI := 0
  levels : Tab Bool := []
  edges : List SeqEdge := []
  events : List SeqEvent := []
  matched : Tab Bool := []
  pulses : Tab Pulse := []
  gated : List (SI × Option SI) := []
  cycleFrame : Nat := 0
  cycleSlots : Nat := 0
  cycleTrans : Nat := 0
  forced : List (SI × Nat × Nat) := []
  rearm : List (SI × Option (Program × Nat)) := []
  deriving DecidableEq, Repr

/-- A pulse decided for a TRIG_OUT pin and not yet asserted: when it is due, and the baste it shows. -/
structure DuePulse where
  at_ : SI
  aligned : Bool
  late : Bool := false
  baste : Option (Nat × Nat) := none
  deriving DecidableEq, Repr

/-- A basted pulse that a pin has driven, or a cancel owed for it: origin and number of the baste, the boundaries at which the pulse began and ended, and when
the cancel is due (R176). -/
structure Basted where
  key : Nat × Nat
  began : SI
  fin : SI
  at_ : SI := 0
  deriving DecidableEq, Repr

/-- A TRIG_OUT pin (R148 to R150, R163, R166, R175 to R178): `shown` are the basted pulses driven and not yet resolved, `cancels` the cancels owed. -/
structure TrigOut where
  source : Nat := 0
  basted : Bool := false
  align : Bool := false
  polarity : Bool := false
  width : Nat := 1
  delayNs : Nat := 0
  active : Bool := false
  began : SI := 0
  until_ : SI := 0
  due : List DuePulse := []
  shown : List Basted := []
  cancels : List Basted := []
  guardUntil : SI := 0
  cancelUntil : SI := 0
  deriving DecidableEq, Repr

/-- All trigger pins: TRIG_OUT, TRIG_IN levels, and the registers of R166 and R203. -/
structure Pins where
  out : Tab TrigOut := []
  late : Nat := 0
  merged : Nat := 0
  inLevels : BitVec 8 := 0
  withheld : Nat := 0
  cancels : Nat := 0
  ambig : Nat := 0
  discarded : Nat := 0
  deriving DecidableEq, Repr

/-! ### The cascade (05_baste_and_cascade.md) -/

/-- A message queued for sending on a port (R182 to R184). -/
structure OutMsg where
  type : Nat
  msg : CasMsg
  cls : Nat
  deriving DecidableEq, Repr

/-- A cascade port (R180 to R185, R204). `idle` is the IDLE sent last and `idlesTx` how often it has been sent in a row, `txRun` the messages sent since;
`ackAt` is when the wait for an acknowledgement began (R183). -/
structure Port where
  role : Nat := 0
  state : Nat := 0
  peer : BitVec 14 := 0
  blockLock : Bool := false
  lockLostAt : Option SI := none
  fell : Bool := false
  idles : Nat := 0
  idlesTx : Nat := 0
  idle : BitVec 64 := 0
  txRun : Nat := 0
  ackAt : SI := 0
  peerRole : Nat := 0
  peerDepth : Nat := 7
  crcErr : Nat := 0
  retry : Nat := 0
  discard : Nat := 0
  downCnt : Nat := 0
  txSeq : BitVec 8 := 0
  rxSeq : BitVec 8 := 0
  rxValid : Bool := false
  nak : Bool := false
  unacked : List OutMsg := []
  queue : List OutMsg := []
  sameRetry : Nat := 0
  linkDoubt : BitVec 32 := 0
  deriving DecidableEq, Repr

/-- A baste forwarded upward: its key, the port it arrived on and its tack ST (R195). -/
structure Forwarded where
  origin : Nat
  number : Nat
  port : Nat
  st : Nat
  deriving DecidableEq, Repr

/-- A remote pending baste (R194, R195). -/
structure RemoteBaste where
  origin : Nat
  number : Nat
  st : Nat
  tgen : BitVec 8
  a : Nat
  si : SI
  fine : Nat
  slot : Option Nat := none
  deriving DecidableEq, Repr

/-- A cascade ARM or DISARM held for its due ST (R190). -/
structure CasCmd where
  arm : Bool
  load : Bool := false
  restart : Bool := false
  due : Nat
  number : Nat
  master : Nat
  deriving DecidableEq, Repr

/-- The cascade unit (R187 to R204). `discoverHeld` are entries with the ports they came from that arrived while the discovery was suspended (R443);
`timeSent` is t1, the kept ST at which the latest time request left (R62). -/
structure Cascade where
  unitId : BitVec 14 := 0
  localArm : Bool := false
  sendFire : Bool := false
  retroWin : Bool := false
  preopen : Bool := false
  retroWpol : Nat := 0
  depth : Nat := 0
  dupId : Bool := false
  ports : Tab Port := []
  fireRx : Nat := 0
  retroNoRun : Nat := 0
  expired : Nat := 0
  storeFull : Nat := 0
  lastFailUnit : BitVec 14 := 0
  armFail : Nat := 0
  doubtUnits : List Nat := []
  remote : List RemoteBaste := []
  forwarded : List Forwarded := []
  commands : List CasCmd := []
  cmdNumber : Nat := 0
  discoveries : Nat := 0
  discoverIds : List Nat := []
  discoverWritten : Nat := 0
  discoverDup : Nat := 0
  discoverDepth : Nat := 0
  discoverPorts : List Nat := []
  discoverHeld : List (Nat × List Byte) := []
  timeSent : Int := 0
  deriving DecidableEq, Repr

/-! ### Protocol decoders (07_protocol_decoders.md) -/

/-- An edge as a decode engine holds it: deskewed time, input, level after, whether it belongs to a glitch, and whether it is the glitch's trailing edge. -/
structure DecEdge where
  time : FineTime
  input : Nat
  level : Bool
  glitch : Bool := false
  trail : Bool := false
  settle : Bool := false
  coarse : Bool := false
  deriving DecidableEq, Repr

/-- A decoded message (R247): its common fields, protocol fields and payloads, at its completion instant; NPF of its protocol (R285). -/
structure Msg where
  kind : Nat := 0
  err : Nat := 0
  len : Nat := 0
  seg : Nat := 0
  fields : List (Nat × Nat) := []
  pa : List Byte := []
  pb : List Byte := []
  time : FineTime := 0
  settle : Bool := false
  coarse : Bool := false
  npf : Nat := 0
  deriving DecidableEq, Repr

/-- An offer of one field to MESSAGE terms (R248); field 64 stands for the message's completion. -/
structure Offer where
  field : Nat
  value : Nat
  time : FineTime
  settle : Bool := false
  coarse : Bool := false
  deriving DecidableEq, Repr

/-- A sampled bit of an 8b/10b lane: its start, an edge near its sample point, and the flags of the edges since the sample before. -/
structure BitMark where
  start : FineTime
  near : Bool := false
  settle : Bool := false
  coarse : Bool := false
  deriving DecidableEq, Repr

/-- A symbol of an 8b/10b lane: value, K, comma, error bits, the start of its first bit, the sample point of its last, and its edges' flags. -/
structure LaneSym where
  val : Nat
  k : Bool
  comma : Bool := false
  errs : Nat := 0
  start : FineTime
  fin : FineTime
  settle : Bool := false
  coarse : Bool := false
  deriving DecidableEq, Repr

/-- The running state of a decode. `phase`, `cnt`, `idx`, `aux`… are the protocol's own counters; `bits` and `bits2` gather bits, latest
last; `msg` is the message in progress, `aTimes` and `bTimes` the instants of its payload bytes, `offA` and `offB` the payload
fields already offered, `segs` the segments already closed, `start` its first instant. `edgeT`, `edgeS` and `edgeC` are the latest edge's time and
flags; `laterS` and `laterC` the flags of edges that belong to what follows the payload gathered so far, `laterT` TIMING of a sample that does; `flagged` are
edges on which a field may complete and that carry SETTLE or COARSE. `marks` are a lane's latest ten bits and
`syms` its latest symbols; `tracked` holds MDIO's addresses. -/
structure DecState where
  phase : Nat := 0
  cnt : Nat := 0
  idx : Nat := 0
  t0 : FineTime := 0
  last : FineTime := 0
  bits : List Bool := []
  bits2 : List Bool := []
  aux : Nat := 0
  aux2 : Nat := 0
  aux3 : Nat := 0
  flag : Bool := false
  flag2 : Bool := false
  flag3 : Bool := false
  inMsg : Bool := false
  msg : Msg := {}
  aTimes : List FineTime := []
  bTimes : List FineTime := []
  offA : Nat := 0
  offB : Nat := 0
  segs : Nat := 0
  start : FineTime := 0
  period : Nat := 0
  boundary : Int := 0
  lock : Bool := false
  goodRun : Nat := 0
  recentBad : List Bool := []
  hs : Bool := false
  tap : Nat := 0
  tapKnown : Bool := false
  tracked : List (Nat × Nat) := []
  bytes : List Byte := []
  edgeT : FineTime := 0
  edgeS : Bool := false
  edgeC : Bool := false
  laterS : Bool := false
  laterC : Bool := false
  laterT : Bool := false
  flagged : List (FineTime × Bool × Bool) := []
  marks : List BitMark := []
  syms : List LaneSym := []
  deriving DecidableEq, Repr

/-- A decode engine (R243 to R251, R262 to R266). `buf` holds edges not yet filtered, `ready` those not yet decoded, `past` the latest decoded
ones, `base` the level of each input before them with `baseMark` the flags of the edge that gave it, `inCh` the channel last set for each input (R266), `removed` the times of removed pulses; `done` is the queue of R250. -/
structure Engine where
  enable : Bool := false
  protocol : Nat := 0
  gang : Nat := 1
  member : Bool := false
  lead : Nat := 0
  filter : Nat := 0
  guard : Nat := 0
  ofs : Int := 0
  inputs : List (Option Nat) := []
  inCh : List Nat := []
  body : List Byte := []
  buf : List DecEdge := []
  ready : List DecEdge := []
  past : List DecEdge := []
  base : List Bool := []
  baseMark : Tab (Bool × Bool) := []
  removed : List FineTime := []
  st : DecState := {}
  sync : Nat := 0
  inputOff : Bool := false
  from_ : SI := 0
  lastErr : Nat := 0
  msgs : Nat := 0
  errMsgs : Nat := 0
  drop : Nat := 0
  skip : Nat := 0
  abandoned : Nat := 0
  filtered : Nat := 0
  frameEdges : Nat × Nat := (0, 0)
  skipFrames : List Nat := []
  offers : List Offer := []
  fresh : List Msg := []
  done : List Msg := []
  dropFrames : List Nat := []
  lostLock : Bool := false
  errEvent : Option Nat := none
  skipEvent : Option Nat := none
  deriving DecidableEq, Repr

/-! ### DRAM controller (11_dram_controller.md) -/

/-- A physical rank (R366, R394): STATE, logical rank served, UE and CE counts. -/
structure Rank where
  state : Nat := 0
  logical : Nat := 0
  ue : Nat := 0
  ce : Nat := 0
  deriving DecidableEq, Repr

/-- A bank's page predictor, its open row and the slot of its latest access (R370). -/
structure Bank where
  p : Nat := 2
  row : Option Nat := none
  last : SI := 0
  deriving DecidableEq, Repr

/-- A migration in progress (R383). -/
structure Migration where
  job : Nat
  channel : Nat
  source : Nat
  spare : Nat
  pos : Nat := 0
  lost : Nat := 0
  deriving DecidableEq, Repr

/-- A read whose data waits for older reads of its port (R371): its port and address, what was found, its age in ns when it was issued and the slot, and how many
older reads of the port are still to be issued. -/
structure DramReturn where
  port : Nat
  addr : Nat
  kind : ReadKind
  ns : Nat
  at_ : SI
  ahead : Nat
  deriving DecidableEq, Repr

/-- The DRAM controller (R363 to R394). `mem` is the DRAM content the model keeps: the LOC 1 rings (R338). `ordered` counts, for a bank in in-order mode, the
writes still to be issued before the mode ends, `returns` is read data that waits for older reads of its port (R371), and `refBank` the bank index of the next
same-bank refresh (R375). -/
structure Dram where
  trained : Bool := false
  training : Bool := false
  map : Nat := 0
  page : Nat := 0
  selfRefresh : Bool := false
  hot : Bool := false
  warm : Bool := false
  speed : Nat := 0
  usable : Nat := 0
  free : Nat := 0
  logRanks : Nat := 0
  physRanks : Nat := 0
  dense : Bool := false
  spares : Bool := false
  dpc2 : Bool := false
  patrolHours : Nat := 24
  ceThresh : Nat := 16
  srIdleUs : Nat := 10
  ranks : Tab Rank := []
  banks : Tab Bank := []
  mig : Option Migration := none
  migLost : Nat := 0
  migChannel : Nat := 0
  migSource : Nat := 0
  migSpare : Nat := 0
  migPos : Nat := 0
  unbacked : List Nat := []
  rdBytes : Nat := 0
  wrBytes : Nat := 0
  rdMb : Nat := 0
  wrMb : Nat := 0
  ueAddr : Nat := 0
  miss : Tab Nat := []
  maxNs : Tab Nat := []
  poisonEvent : Option Nat := none
  missEvent : Option Nat := none
  markers : Tab Nat := []
  mem : List Host.Cell := []
  idleSince : SI := 0
  refreshes : Nat := 0
  refFrom : SI := 0
  refDone : Nat := 0
  patrolled : Nat := 0
  dqs : Nat := 0
  ordered : Tab Nat := []
  returns : List DramReturn := []
  refBank : Nat := 0
  deriving DecidableEq, Repr

/-! ### Security (14_security.md) -/

/-- A firmware update in progress (R473 to R475): `data` holds the chunks written, by offset; `checked` says that the image has passed its checks
and waits for the swap point. -/
structure Update where
  job : Nat
  ring : Nat
  slotB : Bool
  length : Nat
  digest : BitVec 256
  activate : Bool
  raiseFloor : Bool
  data : List (Nat × List Byte) := []
  finished : Bool := false
  checked : Bool := false
  deriving DecidableEq, Repr

/-- An outstanding AUTH challenge (R465). -/
structure Challenge where
  id : Nat
  bits : BitVec 128
  /-- The slot at which it expires, 10 s after its issue (R465; notes/assumptions/31.md). -/
  until_ : SI := 0
  deriving DecidableEq, Repr

/-- An ESK certificate's own content (R479). -/
structure EskCert where
  id : Nat
  identity : Nat
  fikOrigin : Nat
  boot : Nat
  st : Nat
  tgen : BitVec 8
  key : BitVec 512
  idKey : BitVec 512
  sig : BitVec 512
  deriving DecidableEq, Repr

/-- What a zeroization still owes (R481): trigger cause and the command that waits for its completion. -/
structure Zeroization where
  cause : Nat
  reply : Option Ctx := none
  openPort : Bool := false
  deriving DecidableEq, Repr

/-- The security unit (R459 to R485). `wrapKey` is the PUF-derived key, none until it is derived at power-up; `blobs` and `keyMacs` are in the secure
store: the wrapped private keys (1 DIK, 2 FIK, 3 ESK) and the CMAC of each role's key (R459, R461). `drbg` is the generator's state, none until it is
first needed; `retiring` the evidence signing keys, by ESK_ID, under which a signature is still being made (R483); `romKey` the boot ROM's firmware
verification key; `imageA` and `imageB` what the slots of the boot flash hold (R470). -/
structure Sec where
  error : Bool := false
  selftestOk : Bool := false
  errCode : Nat := 0
  tamperLatched : Bool := false
  tamper : Bool := false
  svcEn : Bool := false
  svcOpen : Bool := false
  identity : Nat := 1
  fikOrigin : Nat := 0
  identityKey : BitVec 512 := ecPublic Config.identitySecret
  eskId : Nat := 0
  esk : Bool := false
  eskKey : BitVec 512 := 0
  lastEskId : Nat := 0
  certs : List EskCert := []
  wrapKey : Option (BitVec 256) := none
  blobs : Tab (BitVec 320) := [(1, kwpWrap Config.pufKey Config.identitySecret)]
  roleKeys : Tab (BitVec 512) := []
  keyMacs : Tab (BitVec 128) := []
  drbg : Option Drbg := none
  retiring : Tab (BitVec 256) := []
  romKey : BitVec 512 := Config.firmwareKey
  imageA : List Byte := []
  imageB : List Byte := []
  challenges : Tab Challenge := []
  nextChallenge : Nat := 1
  authFails : Nat := 0
  authFailCnt : Nat := 0
  tamperCnt : Nat := 0
  lockoutUntil : Option SI := none
  lockoutLevel : Nat := 0
  zeroizeLife : Nat := 0
  zcause : Nat := 0
  zboot : Nat := 0
  zero : Option Zeroization := none
  fikDue : Bool := false
  fwSvn : Nat := 0
  fwFloor : Nat := 0
  fwSlotB : Bool := false
  fwVersion : BitVec 32 := 0
  fwDigest : BitVec 256 := 0
  fwVerified : Bool := false
  slotA : Nat := 0
  slotB : Nat := 0
  preferB : Bool := false
  failedSlot : Bool := false
  update : Option Update := none
  deriving DecidableEq, Repr

/-! ### Housekeeping ADC (16_housekeeping_adc.md) -/

/-- A sequence entry (R521, R532). -/
structure HkEntry where
  input : Nat := 0
  cell : Nat := 0
  gain : Nat := 0
  integ : Nat := 0
  readings : Nat := 0
  deriving DecidableEq, Repr

/-- HKA_LAST of an entry (R532). -/
structure HkLast where
  valid : Bool := false
  overrange : Bool := false
  value : Int := 0
  deriving DecidableEq, Repr

/-- A slice (R517, R518): good or retired, the calibration of its pairs (pair number 6 × gain + integ to zero and
full-scale reading, in 2^-24 of the span), the pairs passed since it began calibrating, whether its next reading is invalid (R524), and
the slot in which the integration in progress ends. -/
structure Slice where
  good : Bool := true
  pairs : Tab (Int × Int) := []
  done : List Nat := []
  settle : Bool := false
  endsAt : Option SI := none
  deriving DecidableEq, Repr

/-- The housekeeping converter (R516 to R532). `prev` holds the settings of the previous conversion, none after a change of conditions;
`triggerAt` is the slot of the next trigger where it is known; `integ` is the integration time of the current entry in slots (R519); `calDone` holds the pairs an HK_CAL job has calibrated, as 30 × slice + pair. -/
structure Hk where
  enabled : Bool := false
  running : Bool := false
  powered : Bool := false
  pending : Bool := false
  calJob : Bool := false
  calSlice : Nat := 3
  entry : Nat := 0
  entries : List HkEntry := []
  mains : Nat := 0
  trig : Nat := 0
  overrun : Nat := 0
  overrange : Nat := 0
  rotations : Nat := 0
  seqCount : Nat := 0
  mainsNs : Nat := 20000000
  integ : Nat := 0
  intervalUs : Nat := 0
  mainsPerEpoch : Nat := 0
  calPeriod : Nat := 60
  last : Tab HkLast := []
  corrOfs : Tab Int := []
  corrGain : Tab Nat := []
  slices : List Slice := [{}, {}, {}]
  validLeft : Nat := 0
  prev : Option HkEntry := none
  rotatedAt : SI := 0
  rangeEvent : Bool := false
  triggerAt : Option SI := none
  calDone : List Nat := []
  deriving DecidableEq, Repr

/-! ### What the device sent outward, and the state as a whole -/

/-- An outward action, as the model records it (notes/assumptions/4.md). -/
inductive Posted where
  /-- a completion entry written at address `addr` of the CQ, with its 32 bytes, PHASE among them (R431, R432) -/
  | completion (e : CplEntry) (addr : Nat) (block : List Byte)
  /-- a segment written to a bobbin at word pointer `pos` (R339) -/
  | segment (b : Nat) (pos : Nat) (g : Seg) (poisoned : List Nat)
  /-- the 16-byte writeback block of a bobbin, written at an address (R341) -/
  | writeback (b : Nat) (addr : Nat) (block : List Byte)
  /-- an MSI-X message (R408) -/
  | msix (v : Nat)
  /-- a wake (R414): a PME message, or WAKE_N asserted while the link is down -/
  | wake
  /-- bytes written to host memory (READ_LOG, GET_ATTESTATION, discovery entries) -/
  | hostWrite (addr : Nat) (data : List Byte)
  /-- a non-posted read request (R409) -/
  | hostRead (tag : Nat) (addr : Nat) (len : Nat)
  /-- blocks put on a Tiuth link (R180): a control block of one word, or the three data blocks of a message -/
  | tiuth (port : Nat) (control : Bool) (words : List (BitVec 64))
  /-- a pin driven: TRIG_OUT n, or 8 FAULT_N, 9 EPOCH_OUT, 10 REFOUT running, 11 WAKE_N released, 12 CLKREQ_N released -/
  | pin (n : Nat) (level : Bool)
  /-- a configuration request answered with Request Retry Status (R399) -/
  | retryStatus
  deriving DecidableEq, Repr

/-- What the outside has seen: the latest register read's answer, with the higher DWs of the latest read of more than one (R401), outward actions newest
first, and the high words latched under R8 and R80 by register offset. -/
structure Obs where
  readData : Word := 0
  readPoisoned : Bool := false
  readMore : List Word := []
  posted : List Posted := []
  latches : Tab Word := []
  deriving DecidableEq, Repr

/-- Start-up progress (R534 to R538). -/
structure Startup where
  step : Nat := 1
  ready : Bool := false
  stopped : Bool := false
  collapsed : Bool := false
  backup : Bool := false
  lateLock : Bool := false
  trainJob : Option Nat := none
  calJob : Option Nat := none
  deriving DecidableEq, Repr

/-- Why the block would stop with a fault. No rule of the spec stops this block, and no meaning of the model faults:
the type has no constructor. Nobody raises it; safe. -/
inductive Fault where
  deriving DecidableEq, Repr

/-- Why the model would refuse a command. -/
inductive Refusal where
  /-- Raised by Machine/Dispatch.lean for a command whose meaning is not written; safe: no claim follows from it. -/
  | notModelled (mnemonic : String)
  deriving DecidableEq, Repr

/-- The whole state of the capture engine: every group of registers, buffers and modes that the spec names, the queue of
waiting commands, and the model's own observation fields. `cutEngines` are engines as they stood when a command or a lost input took their place at a slot: they
still decode the edges below it (R251). -/
structure State where
  pending : List Instr := []
  freeCtr : Nat := 0
  obs : Obs := {}
  startup : Startup := {}
  time : Time := {}
  sched : Sched := {}
  cells : Tab Cell := []
  ivls : Tab Ivl := []
  blocks : Tab Block := []
  regions : Tab Region := []
  data : Data := {}
  cap : Capture := {}
  seq0 : Seq := {}
  seq1 : Seq := {}
  pins : Pins := {}
  cas : Cascade := {}
  engines : Tab Engine := []
  cutEngines : List (Nat × SI × Engine) := []
  streams : Tab Stream := []
  replay : Replay := {}
  bob : Bobbins := {}
  dram : Dram := {}
  pcie : Pcie := {}
  events : Events := {}
  tags : Tags := {}
  cmd : Cmd := {}
  log : Log := {}
  sec : Sec := {}
  safe : Safe := {}
  hk : Hk := {}
  deriving DecidableEq, Repr

/-- The machine right after a power-on reset (R416, R534): every field at the value the spec states, or the one that
notes/assumptions/8.md names; start-up is at step 1 and no command waits. -/
def State.reset : State := {}

end Sys2Proof.Machine
end

