-- ==== Sys2Proof/Machine/Ops.lean ====
section
/-! DEFINITION. The named operations that every meaning shares: sparse tables, counters, byte order, frame boundaries, DRAM
bytes, events, and the moment of a command. -/

namespace Sys2Proof.Machine

/-! ### Sparse tables -/

/-- The entry of key k, where there is one. -/
def tfind (t : Tab α) (k : Nat) : Option α :=
  match t with
  | [] => none
  | (j, v) :: rest => if j = k then some v else tfind rest k

/-- The entry of key k, absent keys reading as the type's default. -/
def tget [Inhabited α] (t : Tab α) (k : Nat) : α := (tfind t k).getD default

/-- The table without key k. -/
def tdel (t : Tab α) (k : Nat) : Tab α := t.filter (fun e => e.1 ≠ k)

/-- The table with key k holding v, keys in rising order. -/
def tput (t : Tab α) (k : Nat) (v : α) : Tab α :=
  match t with
  | [] => [(k, v)]
  | (j, w) :: rest =>
    if k < j then (k, v) :: (j, w) :: rest
    else if j = k then (k, v) :: rest
    else (j, w) :: tput rest k v

/-- The table with f applied at key k (to d where the key is absent). -/
def tmod (t : Tab α) (k : Nat) (d : α) (f : α → α) : Tab α := tput t k (f ((tfind t k).getD d))

/-- Keys in strictly rising order. -/
def tsorted (t : Tab α) : Bool :=
  match t with
  | [] => true
  | [_] => true
  | (i, _) :: (j, w) :: rest => decide (i < j) && tsorted ((j, w) :: rest)

/-- n inserted into a rising list of numbers, once. -/
def ninsert (l : List Nat) (n : Nat) : List Nat :=
  match l with
  | [] => [n]
  | m :: rest => if n < m then n :: m :: rest else if n = m then m :: rest else m :: ninsert rest n

/-! ### Counters and bytes -/

/-- A counter of w bits that saturates at its all-ones value. -/
def satAdd (w n k : Nat) : Nat := min (n + k) (2 ^ w - 1)

/-- One more in a saturating counter of w bits. -/
def satInc (w n : Nat) : Nat := satAdd w n 1

/-- A quantity in coarser units, rounded up (R568), saturating at w bits. -/
def unitsUp (w unit n : Nat) : Nat := min ((n + unit - 1) / unit) (2 ^ w - 1)

/-- A little-endian number (R3). -/
def leNat (bs : List Byte) : Nat := bs.foldr (fun b acc => b.toNat + 256 * acc) 0

/-- The k low bytes of n, little-endian (R3). -/
def leBytes (k n : Nat) : List Byte :=
  match k with
  | 0 => []
  | k + 1 => BitVec.ofNat 8 n :: leBytes k (n / 256)

/-- The k low bytes of n, big-endian. -/
def beBytes (k n : Nat) : List Byte := (leBytes k n).reverse

/-- The bytes of 64-bit words, little-endian. -/
def wordBytes (ws : List (BitVec 64)) : List Byte := ws.flatMap (fun w => leBytes 8 w.toNat)

/-- Bit i of n. -/
def bit (n i : Nat) : Bool := n.testBit i

/-- Bits [hi:lo] of n. -/
def bits (n hi lo : Nat) : Nat := n / 2 ^ lo % 2 ^ (hi + 1 - lo)

/-- A truth value as a bit. -/
def b2n (b : Bool) : Nat := if b then 1 else 0

/-- A w-bit number read as two's complement. -/
def toSigned (w n : Nat) : Int := if n % 2 ^ w < 2 ^ (w - 1) then ((n % 2 ^ w : Nat) : Int) else (n % 2 ^ w : Nat) - (2 ^ w : Nat)

/-- The w low bits of an integer. -/
def toField (w : Nat) (i : Int) : Nat := (i % (2 ^ w : Nat)).toNat

/-- An integer limited to lo..hi. -/
def clampInt (lo hi i : Int) : Int := max lo (min hi i)

/-- Signed saturation at ±(2^31 − 1) (R82). -/
def sat32 (i : Int) : Int := clampInt (-2147483647) 2147483647 i

/-- A 32-bit register word. -/
def w32 (n : Nat) : Word := BitVec.ofNat 32 n

/-! ### Slots and frames (R12) -/

/-- The first slot of the frame that holds slot x. -/
def floor16 (x : Nat) : Nat := x / 16 * 16

/-- The first frame boundary at or after slot x. -/
def ceil16 (x : Nat) : Nat := (x + 15) / 16 * 16

/-- Slots in d nanoseconds at the programmed sample rate, rounded up (R15: durations scale with the slot). -/
def slotsOfNs (rateKhz d : Nat) : Nat := (d * rateKhz + 999999) / 1000000

/-- The first frame boundary at or after the present slot. -/
def State.boundary (s : State) : SI := ceil16 s.time.si

/-- Take one free value's number (notes/assumptions/2.md). -/
def State.tick (s : State) : State := { s with freeCtr := s.freeCtr + 1 }

/-- Record an outward action. -/
def State.post (s : State) (p : Posted) : State := { s with obs := { s.obs with posted := p :: s.obs.posted } }

/-- n bytes written to host memory, for HST_RATE (R425). -/
def State.sent (s : State) (n : Nat) : State := { s with pcie := { s.pcie with wrBytes := s.pcie.wrBytes + n } }

/-- An outward write of n bytes. -/
def State.postBytes (s : State) (p : Posted) (n : Nat) : State := (s.post p).sent n

/-! ### DRAM bytes the model keeps: the LOC 1 rings (R338) -/

/-- What an address that is not listed reads as (notes/assumptions/10.md). -/
def Memory.unlisted : Byte := 0

/-- Canonical form: addresses strictly rising, no entry equal to what an unlisted address reads as. -/
def Memory.wf (m : List Host.Cell) : Bool := tsorted m && m.all (fun c => decide (c.2 ≠ Memory.unlisted))

/-- One byte. -/
def Memory.read (m : List Host.Cell) (a : Nat) : Byte := (tfind m a).getD Memory.unlisted

/-- One byte written; writing what an unlisted address reads as removes the entry. -/
def Memory.write (m : List Host.Cell) (a : Nat) (b : Byte) : List Host.Cell :=
  if b = Memory.unlisted then tdel m a else tput m a b

/-- Consecutive bytes written from address a. -/
def Memory.writeMany (m : List Host.Cell) (a : Nat) (bs : List Byte) : List Host.Cell :=
  match bs with
  | [] => m
  | b :: rest => Memory.writeMany (Memory.write m a b) (a + 1) rest

/-- The four bytes at a, little-endian. -/
def Memory.read32 (m : List Host.Cell) (a : Nat) : Word :=
  w32 (leNat [Memory.read m a, Memory.read m (a + 1), Memory.read m (a + 2), Memory.read m (a + 3)])

/-! ### Events (R408) -/

/-- Messages wait while Bus Master Enable is 0, in D3hot, while the link is down or in containment (R412, R420). -/
def Pcie.blocked (p : Pcie) : Bool := !p.bme || p.d3hot || !p.linkUp || p.frozen

/-- Vector v would send its message at once (R408). -/
def State.vectorOpen (s : State) (v : Nat) : Bool :=
  s.pcie.msixEn && !s.pcie.fnMask && !((tfind s.events.table v).getD {}).masked && !s.pcie.blocked

/-- Source n is recorded, and its vector signalled or left pending (R408). -/
def State.signal (s : State) (n : Nat) : State :=
  let m := (tfind s.events.map n).getD {}
  let sends := m.enable && !s.events.pba.contains m.vector && s.vectorOpen m.vector
  let waits := m.enable && !s.events.pba.contains m.vector && !s.vectorOpen m.vector
  { s with
    events := { s.events with
      raised := ninsert s.events.raised n
      pba := if waits then ninsert s.events.pba m.vector else s.events.pba }
    pcie := { s.pcie with wrBytes := s.pcie.wrBytes + 4 * b2n sends }
    obs := { s.obs with posted := if sends then .msix m.vector :: s.obs.posted else s.obs.posted } }

/-- Event source n is raised: recorded, signalled, and in D3hot a wake where its map entry has WAKE: by a PME message, or by
WAKE_N where the link is down; where the reference clock is withdrawn in L1, CLKREQ_N is asserted first (R408, R414). -/
def State.raise (s : State) (n : Nat) : State :=
  let m := (tfind s.events.map n).getD {}
  let wakes := m.wake && s.pcie.d3hot && s.pcie.pmeEn && !s.pcie.frozen
  if wakes then
    ({ (s.signal n) with
      pcie := { (s.signal n).pcie with pmeStatus := true, wakeN := s.pcie.wakeN || !s.pcie.linkUp, clkreq := s.pcie.clkreq || s.pcie.linkUp }
      obs := { (s.signal n).obs with posted := .wake :: ((if s.pcie.linkUp && !s.pcie.clkreq then [.pin 12 false] else []) ++ (s.signal n).obs.posted) } } : State).signal 206
  else s.signal n

/-- Several events in order. -/
def State.raiseAll (s : State) (ns : List Nat) : State := ns.foldl State.raise s

/-- An event that is raised only when c holds. -/
def State.raiseIf (s : State) (c : Bool) (n : Nat) : State := if c then s.raise n else s

/-- Pending vectors whose messages can now leave send them (R408). -/
def State.flushMsix (s : State) : State :=
  let out := s.events.pba.filter s.vectorOpen
  { s with
    events := { s.events with pba := s.events.pba.filter (fun v => !s.vectorOpen v) }
    pcie := { s.pcie with wrBytes := s.pcie.wrBytes + 4 * out.length }
    obs := { s.obs with posted := (out.reverse.map Posted.msix) ++ s.obs.posted } }

/-- A pulse of seam n is lost (R492): OVERRUN, LOST and event 8. -/
def State.seamLost (s : State) (n : Nat) : State :=
  ({ s with safe := { s.safe with seams := tmod s.safe.seams n {} (fun m => { m with overrun := true, lost := satInc 16 m.lost }) } } : State).raise 8

/-- Event source of region r, number k of its group. -/
def regionEvent (r k : Nat) : Nat := 64 + 16 * r + k

end Sys2Proof.Machine
end

