-- ==== Sys2Proof/Machine/Flags.lean ====
section
/-! DEFINITION. The codes that status fields report: completion status (R436), doubt causes (R296, R502) and selvedge causes (R232). -/

namespace Sys2Proof.Machine

/-! ### Completion status (R436) -/

/-- OK. -/
def stOk : Nat := 0x00
/-- ACCEPTED_JOB. -/
def stJob : Nat := 0x01
/-- DEFERRED. -/
def stDeferred : Nat := 0x02
/-- LATE. -/
def stLate : Nat := 0x03
/-- BAD_OPCODE. -/
def stBadOpcode : Nat := 0x10
/-- BAD_PARAM. -/
def stBadParam : Nat := 0x11
/-- BAD_STATE. -/
def stBadState : Nat := 0x12
/-- BUSY. -/
def stBusy : Nat := 0x13
/-- NOT_AUTHORIZED. -/
def stNotAuth : Nat := 0x14
/-- LOG_FULL. -/
def stLogFull : Nat := 0x15
/-- DOUBT. -/
def stDoubt : Nat := 0x16
/-- RGN_RESETTING. -/
def stResetting : Nat := 0x17
/-- JOB_SUSPENDED. -/
def stSuspended : Nat := 0x20
/-- JOB_CANCELLED. -/
def stCancelled : Nat := 0x21
/-- JOB_FAILED. -/
def stFailed : Nat := 0x22
/-- INTERNAL_ERROR. -/
def stInternal : Nat := 0x30

/-- INTERIM is set exactly on the statuses that R436 marks as not final. -/
def statusInterim (st : Nat) : Bool := st = stJob || st = stDeferred || st = stSuspended

/-! ### Doubt causes (R296, R502) -/

/-- Synthesiser lock lost. -/
def causeSynth : Nat := 0
/-- Temperature over limit. -/
def causeTemp : Nat := 1
/-- Supply out of range. -/
def causeSupply : Nat := 2
/-- Essential seam. -/
def causeSeam : Nat := 3
/-- Configuration storage parity. -/
def causeParity : Nat := 4
/-- SEQ_LAG. -/
def causeLag : Nat := 5
/-- Control-core watchdog. -/
def causeCore : Nat := 6
/-- Audit log unwritable. -/
def causeLog : Nat := 7

/-- The chip is in doubt (R502). -/
def State.inDoubt (s : State) : Bool := s.safe.causes ≠ 0

/-! ### Selvedge causes (R232) -/

/-- ENVELOPE. -/
def selEnvelope : Nat := 0x01
/-- DRAM_BACKLOG. -/
def selBacklog : Nat := 0x02
/-- BOBBIN_FULL. -/
def selFull : Nat := 0x03
/-- HOST_STOPPED. -/
def selStopped : Nat := 0x04
/-- CLOCK_GATED. -/
def selGated : Nat := 0x05
/-- REGION_RESET. -/
def selReset : Nat := 0x06
/-- LOOKBACK_OVERWRITTEN. -/
def selOverwritten : Nat := 0x07
/-- RUN_START. -/
def selRunStart : Nat := 0x08
/-- POISON. -/
def selPoison : Nat := 0x09
/-- MIGRATION. -/
def selMigration : Nat := 0x0A
/-- SEAM_OVERRUN. -/
def selSeam : Nat := 0x0B
/-- HOST_CONTAINED. -/
def selContained : Nat := 0x0C

end Sys2Proof.Machine
end

