-- ==== Sys2Proof/Machine/Operands.lean ====
section
/-! DEFINITION. The operand forms of Opain packets: fields of the parameter area by byte offset (13_command_interface.md, R3). -/

namespace Sys2Proof.Machine

/-- The n-byte little-endian field at byte `ofs` of a parameter area. -/
def pField (p : List Byte) (ofs n : Nat) : Nat := leNat ((p.drop ofs).take n)

/-- The signed n-byte field at byte `ofs`. -/
def pInt (p : List Byte) (ofs n : Nat) : Int := toSigned (8 * n) (pField p ofs n)

/-- n reserved bytes at `ofs`, which must be 0. -/
def pZero (p : List Byte) (ofs n : Nat) : Bool := pField p ofs n = 0

/-- The field lies within lo..hi. -/
def pIn (p : List Byte) (ofs n lo hi : Nat) : Bool := decide (lo ≤ pField p ofs n ∧ pField p ofs n ≤ hi)

/-- Bits of the byte at `ofs` above bit `k` are 0. -/
def pBits (p : List Byte) (ofs k : Nat) : Bool := decide (pField p ofs 1 < 2 ^ k)

/-- A chunk of n bytes at `ofs`. -/
def pBytes (p : List Byte) (ofs n : Nat) : List Byte := (p.drop ofs).take n

/-- A mask of 256 bits at `ofs`. -/
def pMask (p : List Byte) (ofs : Nat) : BitVec 256 := BitVec.ofNat 256 (pField p ofs 32)

/-- The packet's parameters as n fixed-size records from `ofs`. -/
def pRecords (p : List Byte) (ofs size : Nat) (n : Nat) : List (List Byte) :=
  (List.range n).map (fun i => pBytes p (ofs + size * i) size)

end Sys2Proof.Machine
end

