-- ==== Sys2Proof/Machine/Crypto.lean ====
section
/-! DEFINITION. The integrity and security functions that the spec names by standard: CRC-32C (R273), CRC-8 and CRC-16 of the
links, SHA-256 (FIPS 180-4), and ECDSA verification on P-256 (FIPS 186-5). -/

namespace Sys2Proof.Machine

/-! ### CRC -/

/-- One bit of CRC-32C, reflected polynomial 0x82F63B78 (R273). -/
def crc32cBit (c : BitVec 32) : BitVec 32 := if c.getLsbD 0 then (c >>> 1) ^^^ 0x82F63B78 else c >>> 1

/-- One byte of CRC-32C. -/
def crc32cByte (c : BitVec 32) (b : Byte) : BitVec 32 :=
  (List.range 8).foldl (fun c _ => crc32cBit c) (c ^^^ b.setWidth 32)

/-- CRC-32C (R273). -/
def crc32c (bs : List Byte) : BitVec 32 := bs.foldl crc32cByte 0xFFFFFFFF ^^^ 0xFFFFFFFF

/-- SMBus packet error code: CRC-8 with polynomial 0x07 (R255). -/
def crc8 (bs : List Byte) : BitVec 8 :=
  bs.foldl (fun c b => (List.range 8).foldl
    (fun c _ => if c.getLsbD 7 then (c <<< 1) ^^^ 0x07 else c <<< 1) (c ^^^ b)) 0

/-- A CRC over bits, most significant first, of width w and polynomial p (CAN, R258). -/
def crcBits (w p init : Nat) (bs : List Bool) : Nat :=
  bs.foldl (fun c b =>
    let top := xor (c.testBit (w - 1)) b
    let c := c * 2 % 2 ^ w
    if top then c ^^^ p else c) init

/-! ### SHA-256 -/

/-- The 64 round constants, that of round 0 lowest. -/
def shaConstants : Nat := 0xc67178f2bef9a3f7a4506ceb90befffa8cc7020884c8781478a5636f748f82ee682e6ff35b9cca4f4ed8aa4a391c0cb334b0bcb52748774c1e376c0819a4c116106aa070f40e3585d6990624d192e819c76c51a3c24b8b70a81a664ba2bfe8a192722c8581c2c92e766a0abb650a735453380d134d2c6dfc2e1b213827b70a851429296706ca6351d5a79147c6e00bf3bf597fc7b00327c8a831c66d983e515276f988da5cb0a9dc4a7484aa2de92c6f240ca1cc0fc19dc6efbe4786e49b69c1c19bf1749bdc06a780deb1fe72be5d74550c7dc3243185be12835b01d807aa98ab1c5ed5923f82a459f111f13956c25be9b5dba5b5c0fbcf71374491428a2f98

/-- The initial hash value: its eight words, the first one highest. -/
def shaStart : BitVec 256 := 0x6a09e667bb67ae853c6ef372a54ff53a510e527f9b05688c1f83d9ab5be0cd19

/-- The eight working variables and the message schedule while a block is hashed: `a` holds the latest four values of variable a, which are a, b, c
and d, the latest first; `e` the same for e, f, g and h; `w` the 16 schedule words that come next. -/
structure Sha where
  a : List Word
  e : List Word
  w : List Word

/-- Three rotations to the right, combined. -/
def turns (i j k : Nat) (x : Word) : Word := x.rotateRight i ^^^ x.rotateRight j ^^^ x.rotateRight k

/-- The schedule word that follows the 16 of `w`. -/
def shaNext (w : List Word) : Word :=
  let at' := fun k => w.getD k 0
  let mix := fun i j k (x : Word) => x.rotateRight i ^^^ x.rotateRight j ^^^ x >>> k
  at' 0 + at' 9 + mix 7 18 3 (at' 1) + mix 17 19 10 (at' 14)

/-- Round t. -/
def Sha.round (x : Sha) (t : Nat) : Sha :=
  let old := fun (l : List Word) k => l.getD k 0
  let choice := old x.e 2 ^^^ (old x.e 0 &&& (old x.e 1 ^^^ old x.e 2))
  let most := (old x.a 0 &&& old x.a 1) ||| (old x.a 2 &&& (old x.a 0 ||| old x.a 1))
  let sum := choice + turns 6 11 25 (old x.e 0) + old x.e 3 + w32 (shaConstants >>> (32 * t)) + old x.w 0
  { a := (most + turns 2 13 22 (old x.a 0) + sum) :: x.a.take 3
    e := (old x.a 3 + sum) :: x.e.take 3
    w := x.w.drop 1 ++ [shaNext x.w] }

/-- One 64-byte block, hashed onto the eight words so far. -/
def shaBlock (h : List Word) (block : List Byte) : List Word :=
  let x := (List.range 64).foldl Sha.round { a := h.take 4, e := h.drop 4, w := (List.range 16).map (fun k => numberOf 32 ((block.drop (4 * k)).take 4)) }
  List.zipWith (· + ·) h (x.a ++ x.e)

/-- n blocks in turn. -/
def shaBlocks (n : Nat) (h : List Word) (bs : List Byte) : List Word :=
  match n with
  | 0 => h
  | n + 1 => shaBlocks n (shaBlock h (bs.take 64)) (bs.drop 64)

/-- Padding of FIPS 180-4 for a message of n bytes. -/
def shaPad (n : Nat) : List Byte :=
  0x80#8 :: (List.replicate ((119 - n % 64) % 64) 0 ++ beBytes 8 (8 * n))

/-- SHA-256: the digest's 32 bytes. -/
def sha256 (bs : List Byte) : List Byte :=
  let start := (List.range 8).map (fun k => shaStart.extractLsb' (32 * (7 - k)) 32)
  (shaBlocks ((bs.length + 72) / 64) start (bs ++ shaPad bs.length)).flatMap (bytesOf 4)

/-- A digest kept as one number, byte 0 lowest. -/
def digestNat (bs : List Byte) : BitVec 256 := BitVec.ofNat 256 (leNat bs)

/-- The bytes of a kept digest. -/
def digestBytes (d : BitVec 256) : List Byte := leBytes 32 d.toNat

/-! ### ECDSA on P-256 -/

/-- A public key (R461): X then Y, each 32 bytes big-endian. -/
def ecPoint (key : List Byte) : Nat × Nat := (leNat (key.take 32).reverse, leNat ((key.drop 32).take 32).reverse)

/-- A valid P-256 point (R469). -/
def ecValid (key : List Byte) : Bool :=
  let (x, y) := ecPoint key
  key.length = 64 && decide (x < p256p) && decide (y < p256p)
    && decide (y * y % p256p = (x * x * x + (p256p - 3) * x + p256b) % p256p)

/-- ECDSA verification with SHA-256: r and s are 32-byte big-endian integers. -/
def ecdsaVerify (key msg r s : List Byte) : Bool :=
  let rn := leNat r.reverse
  let sn := leNat s.reverse
  let z := leNat (sha256 msg).reverse
  if rn = 0 || sn = 0 || decide (p256n ≤ rn) || decide (p256n ≤ sn) || !ecValid key then false
  else
    let w := invMod sn p256n
    let pt := ecAdd (ecMul 256 (z * w % p256n) (some p256g)) (ecMul 256 (rn * w % p256n) (some (ecPoint key)))
    match pt with
    | none => false
    | some (x, _) => x % p256n = rn

/-- The r and s of an ECDSA signature with SHA-256 under private key d and the number k of this message; none where k does not serve. -/
def ecdsaPair (d k : BitVec 256) (msg : List Byte) : Option (Nat × Nat) :=
  match ecMul 256 k.toNat (some p256g) with
  | none => none
  | some (x, _) =>
    let r := x % p256n
    let s := invMod k.toNat p256n * (leNat (sha256 msg).reverse + r * d.toNat) % p256n
    if r = 0 || s = 0 then none else some (r, s)

/-! ### Random bits, key pairs and signatures of the device (R460) -/

/-- The generator: instantiated where it holds no state, reseeded after 2^20 requests. -/
def State.seeded (s : State) : Drbg × State :=
  match s.sec.drbg with
  | none => (Drbg.start (Config.entropy s.freeCtr), s.tick)
  | some d => if 2 ^ 20 ≤ d.requests then (d.reseed (Config.entropy s.freeCtr), s.tick) else (d, s)

/-- The generator's state becomes d. -/
def State.setDrbg (s : State) (d : Drbg) : State := { s with sec := { s.sec with drbg := some d } }

/-- n random bytes. -/
def State.random (s : State) (n : Nat) : List Byte × State :=
  let (d, s) := s.seeded
  let (bs, d) := d.generate n
  (bs, s.setDrbg d)

/-- Reseeding with prediction resistance, before a key generation. -/
def State.reseed (s : State) : State :=
  match s.sec.drbg with
  | none => s
  | some d => s.tick.setDrbg (d.reseed (Config.entropy s.freeCtr))

/-- A number from 1 to the group order less 1, by rejection sampling: each number of 32 random bytes serves but for one in 2^32 (notes/assumptions/11.md). -/
def State.scalar (tries : Nat) (s : State) : BitVec 256 × State :=
  match tries with
  | 0 => (1, s)
  | n + 1 =>
    let (bs, s) := s.random 32
    let c := leNat bs.reverse
    if c ≤ p256n - 2 then (BitVec.ofNat 256 (c + 1), s) else s.scalar n

/-- A new private key. -/
def State.newKey (s : State) : BitVec 256 × State := (s.reseed).scalar 64

/-- The r and s, 32 bytes each, big-endian, of a signature under private key d (R323, R478, R479): the number of this message is drawn anew where it does not
serve. -/
def State.ecdsaSign (tries : Nat) (s : State) (d : BitVec 256) (msg : List Byte) : List Byte × State :=
  match tries with
  | 0 => (List.replicate 64 0, s)
  | n + 1 =>
    let (k, s) := s.scalar 64
    match ecdsaPair d k msg with
    | some (r, t) => (beBytes 32 r ++ beBytes 32 t, s)
    | none => s.ecdsaSign n d msg

/-- A signature under private key d. -/
def State.signature (s : State) (d : BitVec 256) (msg : List Byte) : List Byte × State := s.ecdsaSign 64 d msg

/-- Secret n (1 DIK, 2 FIK, 3 ESK), unwrapped from the secure store (R459, R461). -/
def Sec.secret (x : Sec) (n : Nat) : Option (BitVec 256) :=
  match x.wrapKey, tfind x.blobs n with
  | some k, some b => some (kwpUnwrap k b)
  | _, _ => none

/-- The private key of ESK_ID n: the current one, or one under which a signature is still to be made (R483). -/
def Sec.signingKey (x : Sec) (n : Nat) : BitVec 256 := (if n = x.eskId then x.secret 3 else tfind x.retiring n).getD 0

/-- The private key of the identity (R476). -/
def Sec.identitySecret (x : Sec) : BitVec 256 := (x.secret x.identity).getD 0

end Sys2Proof.Machine
end

