-- ==== Sys2Proof/Machine/Station.lean ====
section
/-! DEFINITION. Station time as a function of SI: the mapping, its rate, the uncertainty U and the reported state (R42 to R46,
R61 to R66, R81, R566, R567). ST is kept in units of 2^-152 epoch and reported in 2^-56 epoch, rounded (R42). -/

namespace Sys2Proof.Machine

/-- Units of the kept ST in one epoch (notes/assumptions/6.md). -/
def epochUnits : Nat := 2 ^ 152

/-- Kept units in one reported unit of ST, 2^-56 epoch. -/
def stUnit : Nat := 2 ^ 96

/-- Code of a DPLL state (R81). -/
def DpllState.code : DpllState → Nat
  | .free => 0
  | .acquire => 1
  | .locked => 2
  | .coast => 3
  | .returnSlew => 4
  | .returnStep => 5

/-- Samples per second. -/
def Time.hz (t : Time) : Nat := t.ref.rateKhz * 1000

/-- F of R566: the frequency that the epoch length is counted in. -/
def Time.refHzOf (t : Time) : Nat := if t.ref.timeSrc then t.tt.parentHz else t.ref.refFreq

/-- Whether NOMINAL_CYCLES at frequency f gives an epoch of 1 ms to 100 s (R74, R75). -/
def epochLengthOk (nom f : Nat) : Bool := decide (f ≤ nom * 1000) && decide (nom ≤ 100 * f) && decide (0 < nom)

/-- The nominal epoch length L as a fraction of seconds, numerator and denominator (R566, R75). -/
def Time.epochLen (t : Time) : Nat × Nat :=
  match t.epoch.nominal with
  | none => (1, 1)
  | some nom =>
    let f := t.refHzOf
    if f = 0 then (1, 1)
    else if t.ref.timeSrc && !epochLengthOk nom f then (1, 1)
    else (nom, f)

/-- The nominal rate of ST in kept units per slot (R566). -/
def Time.nominalRate (t : Time) : Nat := epochUnits * t.epochLen.2 / (t.epochLen.1 * t.hz)

/-- Kept ST units as ps, with L seconds to the epoch (R567), to the nearest. -/
def Time.toPs (t : Time) (d : Int) : Int :=
  (2 * d * (t.epochLen.1 * 1000000000000 : Nat) + (t.epochLen.2 * epochUnits : Nat)) / ((2 * t.epochLen.2 * epochUnits : Nat) : Int)

/-- The magnitude of kept ST units in ps, rounded up (R568). -/
def Time.toPsUp (t : Time) (d : Int) : Nat :=
  (d.natAbs * (t.epochLen.1 * 1000000000000) + t.epochLen.2 * epochUnits - 1) / (t.epochLen.2 * epochUnits)

/-- Kept ST units as a register reports them in ps: signed, the magnitude rounded up to a whole ps (R82, R568). -/
def Time.toPsReg (t : Time) (d : Int) : Int := if d < 0 then -(t.toPsUp d : Int) else t.toPsUp d

/-- ps as kept ST units (R567). -/
def Time.ofPs (t : Time) (ps : Int) : Int :=
  ps * ((t.epochLen.2 * epochUnits : Nat) : Int) / (t.epochLen.1 * 1000000000000 : Nat)

/-- The mapping and the slew in force at slot x (R305). -/
def Time.mapAt (t : Time) (x : SI) : StMap × Option Slew :=
  if t.map.si0 ≤ x then (t.map, t.slew) else (t.past.find? (fun e => decide (e.1.si0 ≤ x))).getD (t.map, t.slew)

/-- The signed change of rate of the slew in progress, per slot (R49). -/
def Time.rateSign (t : Time) : Int :=
  match t.slew with
  | none => 0
  | some w => (if w.delta < 0 then -1 else 1) * (t.map.rate * w.ppm / 1000000 : Nat)

/-- The rate of ST per slot, the slew included (R49, R287). -/
def Time.rate (t : Time) : Nat := (t.map.rate + t.rateSign).toNat

/-- The correction that a slew has accumulated on a mapping by slot x plus f/64: at most Δ (R49). -/
def StMap.slewed (m : StMap) (slew : Option Slew) (x : SI) (f : Nat) : Int :=
  match slew with
  | none => 0
  | some w =>
    let moved : Int := ((64 * (x - w.startSi) + f) * (m.rate * w.ppm / 1000000) / 64 : Nat)
    if w.delta < 0 then max w.delta (-moved) else min w.delta moved

/-- ST at slot x plus f/64 slots, in kept units, by the mapping in force there. -/
def Time.stFine (t : Time) (x : SI) (f : Nat) : Int :=
  let (m, w) := t.mapAt x
  m.st0 + (((x : Int) - m.si0) * 64 + f) * m.rate / 64 + m.slewed w x f

/-- ST at slot x, in kept units. -/
def Time.stAt (t : Time) (x : SI) : Int := t.stFine x 0

/-- Kept units as a reported 96-bit ST (R42: rounded). -/
def stReport (v : Int) : Nat := ((v + (stUnit / 2 : Nat)) / (stUnit : Int)).toNat % 2 ^ 96

/-- A reported 96-bit ST as kept units. -/
def stKeep (st : Nat) : Int := ((st * stUnit : Nat) : Int)

/-- The reported ST of slot x. -/
def Time.st (t : Time) (x : SI) : Nat := stReport (t.stAt x)

/-- The remaining Δ of the slew in progress at slot x (R50). -/
def Time.remaining (t : Time) (x : SI) : Int :=
  match t.slew with
  | none => 0
  | some w => w.delta - t.map.slewed t.slew x 0

/-- The mappings that a slot from about two anchor intervals before x on can need: those that began since, and the one before them. -/
def pastFrom (x : SI) (l : List (StMap × Option Slew)) : List (StMap × Option Slew) :=
  let late := l.takeWhile (fun e => decide (x < e.1.si0 + 8388608))
  late ++ (l.drop late.length).take 1

/-- The mapping moved to slot x without a change of ST there; a slew goes on with what remains of it. -/
def Time.rebase (t : Time) (x : SI) : Time :=
  { t with past := pastFrom x ((t.map, t.slew) :: t.past)
           map := { t.map with si0 := x, st0 := t.stAt x }
           slew := t.slew.map (fun w => { w with delta := t.remaining x, startSi := x }) }

/-- ST runs at `rate` units per slot from slot x on. -/
def Time.setRate (t : Time) (x : SI) (rate : Nat) : Time :=
  { t.rebase x with map := { (t.rebase x).map with rate := rate } }

/-- How good a state is, best first (R64). -/
def stateRank (c : Nat) : Nat :=
  match c with
  | 2 => 0
  | 4 => 1
  | 5 => 2
  | 3 => 3
  | 1 => 4
  | _ => 5

/-- The reported DPLL state (R64, R81). -/
def Time.reported (t : Time) : Nat :=
  if t.ref.timeSrc && stateRank t.state.code < stateRank t.tt.parentState then t.tt.parentState else t.state.code

/-- The coasting flag (R46). -/
def Time.coasting (t : Time) : Bool := t.reported = 0 || t.reported = 1 || t.reported = 3 || t.reported = 5

/-- The LOCKED bound (R45, R63). -/
def Time.lockedU (t : Time) : Nat := if t.ref.timeSrc then t.tt.parentU + 50 + t.bound else max 60 (t.bound + 50)

/-- U in ps at slot x (R45). -/
def Time.u (t : Time) (x : SI) : Nat :=
  let coast := t.uLoss + (t.growth * (x - t.lossSi) + t.hz - 1) / t.hz
  min 4294967295 (match t.state with
    | .free | .acquire => 4294967295
    | .locked => t.lockedU
    | .coast | .returnStep => coast
    | .returnSlew => t.toPsUp (t.remaining x) + t.lockedU)

/-- The nearest epoch boundary to a kept ST (R42). -/
def nearestEpoch (v : Int) : Int := (v + (epochUnits / 2 : Nat)) / (epochUnits : Int) * (epochUnits : Int)

/-- TGEN after a step (R44). -/
def nextTgen (g : BitVec 8) : BitVec 8 := if g = 255 then 1 else g + 1

/-- The alignment error that the loop leaves (R42): a free value within ±50 ps. -/
def Time.loopError (t : Time) (k : Nat) : Int := clampInt (t.ofPs (-50)) (t.ofPs 50) (Config.loopError k)

/-- The rate at which `n` epochs pass in `d` fine LSB, but for the error `e` (R49: the rate that the reference implies). -/
def impliedRate (n d : Nat) (e : Int) : Nat := (64 * (n * epochUnits : Nat) + 64 * e).toNat / d

/-- The rate from slot b on that the loop has decided. In LOCKED it is the one that brings ST at the aimed instant to the epoch boundary that ST is
nearest to there, the pulse lying EPOCH_IN_DELAY_PS before the ball's edge, but for the error (R42). -/
def Time.loopRateAt (t : Time) (l : LoopSet) (b : SI) : Nat :=
  match l.aim with
  | none => l.rate
  | some (p, e) =>
    if p ≤ 64 * b then l.rate
    else
      let delay := t.ofPs t.ref.epochInDelay
      let met := nearestEpoch (t.stAt b + ((p - 64 * b) * l.rate / 64 : Nat) - delay)
      (64 * (met + delay + e - t.stAt b)).toNat / (p - 64 * b)

/-- Station time with what the loop has decided, from anchor boundary b on. In FREE and ACQUIRE ST runs at the nominal rate (R566). -/
def Time.looped (t : Time) (b : SI) : Time :=
  match t.loopDue with
  | none => t
  | some l =>
    if t.state = .free || t.state = .acquire then { t with loopDue := none }
    else { t.setRate b (t.loopRateAt l b) with loopDue := none, tt := { t.tt with pull := l.pull } }

/-- What the snapshot registers would show of the frame boundary b (R80), as the station time stands. -/
def Time.viewAt (t : Time) (b : SI) : Snap := { si := b, st := t.st b, tgen := t.tgen.toNat, coasting := t.coasting, state := t.reported }

/-! ### Steps of ST at an anchor boundary (R48) -/

/-- What the loop's rate adds between the pulse that a step aligns to and the boundary b at which it takes effect (R42). -/
def Time.lockDrift (t : Time) (p : PendingStep) (b : SI) : Int :=
  match p.lock with
  | none => 0
  | some (x, rate) => ((rate : Int) - t.map.rate) * ((b : Int) - x)

/-- Δ of a step at anchor boundary b. -/
def Time.stepDelta (t : Time) (p : PendingStep) (b : SI) : Int :=
  match p.target with
  | some st => stKeep st - t.stAt b
  | none => p.delta + t.lockDrift p b

/-- Station time after the step: a new TGEN, and REFOUT stopped until it aligns again (R48, R61). -/
def Time.stepped (t : Time) (p : PendingStep) (b : SI) : Time :=
  let delta := t.stepDelta p b
  let u := t.rebase b
  let ends := p.cause = 0 || p.cause = 1
  { u with
    map := { u.map with st0 := u.map.st0 + delta, rate := (p.lock.map (fun l => l.2)).getD u.map.rate }
    tgen := nextTgen t.tgen
    stepCnt := satInc 8 t.stepCnt
    lastStepPs := sat32 (t.toPs delta)
    refoutOn := false
    labelOfs := if p.cause = 1 then none else t.labelOfs.map (fun o => o - delta)
    state := if ends then .locked else t.state
    pulses := if ends then 0 else t.pulses }

/-- The steps that wait for the next anchor boundary, in their order: the pending one, the label's, the parent's (R51, R53, R65). -/
def Time.waiting (t : Time) : List PendingStep :=
  t.pending.toList ++ t.labelStep.toList ++ (t.tt.parentStep.map (fun d => ({ cause := 4, delta := d } : PendingStep))).toList

/-- The ANCHOR of boundary b stands in the directory already. -/
def State.anchored (s : State) (b : SI) : Bool := (s.data.anchors.head?).map (fun e => e.1) = some b

/-- Station time as a record with SI b carries it: at an anchor boundary that has not been reached, after the steps that wait for it and with the
rate that the loop applies there (R48, R305). -/
def State.timeFor (s : State) (b : SI) : Time :=
  if b % 1048576 = 0 && !s.anchored b then (s.time.waiting.foldl (fun t p => t.stepped p b) s.time).looped b else s.time

/-- ST of frame boundary b under the TGEN current there (R67). -/
def State.stNow (s : State) (b : SI) : Nat := (s.timeFor b).st b

/-- m of R61: REFOUT_DIV over its greatest common divisor with NOMINAL_CYCLES. DESIGN CHOICE (notes/assumptions/38.md): 1 while NOMINAL_CYCLES has
never been set. -/
def Time.refoutM (t : Time) : Nat :=
  if t.ref.refoutDiv = 0 then 1
  else match t.epoch.nominal with
    | none => 1
    | some n => t.ref.refoutDiv / Nat.gcd n t.ref.refoutDiv

/-- The coasting flag as it stands, logged where it has changed in the latest slot. -/
def Time.coastLogged (t : Time) : List (SI × Bool) :=
  if (t.coastLog.head?).map (fun e => e.2) = some t.coasting then t.coastLog else ((t.si, t.coasting) :: t.coastLog).take 64

/-- The coasting flag at slot x, as far as it is logged. -/
def Time.coastingAt (t : Time) (x : SI) : Bool :=
  if t.si ≤ x then t.coasting
  else match t.coastLog.find? (fun e => decide (e.1 ≤ x)) with
    | some e => e.2
    | none => ((t.coastLog.getLast?).map (fun e => e.2)).getD t.coasting

/-- Slot t: SI never decreases (R11), and it does not run before the synthesiser first locks. The view of R80 is taken anew while every command so
far happened at or before the latest frame boundary: what later commands of the frame do takes effect at the next one. `now` is station time as a
record of that boundary carries it. -/
def Time.atSlot (t : Time) (x : SI) (now : SI → Time) : Time :=
  let si := if t.running then max t.si x else t.si
  { t with si := si, coastLog := t.coastLogged, view := if t.si ≤ floor16 si then (now (floor16 si)).viewAt (floor16 si) else t.view }

/-- The command happens at slot t. -/
def State.moment (s : State) (t : SI) : State := { s with time := s.time.atSlot t s.timeFor }

end Sys2Proof.Machine
end

