-- ==== Sys2Proof/Machine/Records.lean ====
section
/-! DEFINITION. Every record of 08_stream_format.md as words (R276 to R300), with the SI it carries (R569). -/

namespace Sys2Proof.Machine

/-- A 64-bit word of a record. -/
def w64 (n : Nat) : BitVec 64 := BitVec.ofNat 64 n

/-- The header word (R276): TYPE, LEN, bits [23:16], SPEC. -/
def hdrWord (type len flags spec : Nat) : BitVec 64 :=
  w64 (type + len * 256 + flags % 256 * 65536 + spec * 4294967296)

/-- A record of the given type: its words are the header and `body`. -/
def mkRec (type flags spec : Nat) (body : List Nat) (span : Option (SI × SI)) : Rec :=
  { words := hdrWord type (body.length + 1) flags spec :: body.map w64, span := span }

/-- A record that carries one SI. -/
def recAt (type flags spec : Nat) (body : List Nat) (si : SI) : Rec := mkRec type flags spec body (some (si, si))

/-- TYPE of a record. -/
def Rec.type (r : Rec) : Nat := ((r.words.head?).getD 0).toNat % 256

/-- The record's bytes. -/
def Rec.bytes (r : Rec) : List Byte := wordBytes r.words

/-- Common flags: SETTLE is bit 18, COARSE bit 19 of the header (R276, R277). -/
def markFlags (settle coarse : Bool) : Nat := 4 * b2n settle + 8 * b2n coarse

/-! ### FRAME (R280, R281) -/

/-- The edge entry of one edge. -/
def Edge.unit (e : Edge) : Nat :=
  e.cell * 4096 + e.slot * 256 + e.fine * 4 + 2 * b2n e.level + b2n e.gf

/-- The units of frame entries that follow frame `prev`. -/
def frameUnits (prev : Nat) (es : List FrameEntry) : List Nat :=
  match es with
  | [] => []
  | e :: rest =>
    let v := (e.frame - prev) * 256 + e.edges.length
    (v % 65536) :: (v / 65536) :: (e.edges.map Edge.unit) ++ frameUnits e.frame rest

/-- Units packed four to a word, low unit first. -/
def packUnits (us : List Nat) : List Nat :=
  match us with
  | [] => []
  | [a] => [a]
  | [a, b] => [a + 65536 * b]
  | [a, b, c] => [a + 65536 * b + 4294967296 * c]
  | a :: b :: c :: d :: rest => (a + 65536 * b + 4294967296 * c + 281474976710656 * d) :: packUnits rest

/-- Mark bits packed 32 edges to a word (R281). -/
def packMarks (ms : List Nat) (fuel : Nat) : List Nat :=
  match fuel, ms with
  | 0, _ => []
  | _, [] => []
  | k + 1, ms => (ms.take 32).foldr (fun m acc => m + 4 * acc) 0 :: packMarks (ms.drop 32) k

/-- All edges of a FRAME body. -/
def FrameBody.edges (f : FrameBody) : List Edge := f.entries.flatMap (fun e => e.edges)

/-- Highest SI of an edge of a FRAME body (R569), among the edges of its latest frame. -/
def FrameBody.lastSi (f : FrameBody) : SI :=
  match f.entries.getLast? with
  | none => f.base
  | some e => 16 * e.frame + ((f.entries.filter (fun x => x.frame = e.frame)).flatMap (fun x => x.edges)).foldl (fun a x => max a x.slot) 0

/-- The FRAME record of the body (R280, R281). -/
def FrameBody.record (f : FrameBody) : Rec :=
  let es := f.edges
  let marked := es.any (fun e => e.settle || e.coarse)
  let marks := if marked then packMarks (es.map (fun e => b2n e.settle + 2 * b2n e.coarse)) es.length else []
  let units := packUnits (frameUnits (f.base / 16) f.entries)
  mkRec 0x01 (4 * b2n (es.any (fun e => e.settle)) + 8 * b2n (es.any (fun e => e.coarse)) + 16 * b2n marked)
    (f.block + f.entries.length * 64 + es.length * 65536) (f.base :: (units ++ marks)) (some (f.base, f.lastSi))

/-- Words that the FRAME record of this body takes. -/
def FrameBody.size (f : FrameBody) : Nat := f.record.words.length

/-! ### Captured data of the other reductions -/

/-- STATE (R283). -/
def recState (clock fine ndata : Nat) (si : SI) (settle coarse viol : Bool) (value setup hold : Nat) : Rec :=
  recAt 0x02 (markFlags settle coarse + 16 * b2n viol) (clock + fine * 16 + ndata * 1024)
    (if viol then [si, value, setup, hold] else [si, value]) si

/-- Saturation of a STATS field at w bits. -/
def satField (w n : Nat) : Nat := min n (2 ^ w - 1)

/-- STATS (R284). -/
def recStats (ch log2 : Nat) (level : Bool) (si : SI) (x : Stats) : Rec :=
  let g := satField 24 x.glitches
  let cnt := x.rises - 1
  let span := match x.firstRise with
    | none => 0
    | some f => if x.rises < 2 then 0 else x.lastRise - f
  recAt 0x03 (markFlags x.settle x.coarse + 16 * b2n x.partial_ + 32 * b2n x.gap + 64 * b2n x.doubt)
    (ch + log2 * 1024 + b2n level * 32768 + g % 65536 * 65536)
    [si / 65536 % 2 ^ 48 + g / 65536 * 2 ^ 48,
     satField 28 x.edges + satField 35 x.highTime * 2 ^ 28,
     satField 27 cnt + satField 34 span * 2 ^ 27,
     satField 32 (x.minHigh.getD 4294967295) + satField 32 x.maxHigh * 2 ^ 32,
     satField 32 (x.minLow.getD 4294967295) + satField 32 x.maxLow * 2 ^ 32]
    (si / 65536 * 65536)

/-- Bytes as words, zero padded. -/
def bytesToWords (bs : List Byte) (fuel : Nat) : List Nat :=
  match fuel, bs with
  | 0, _ => []
  | _, [] => []
  | k + 1, bs => leNat (bs.take 8) :: bytesToWords (bs.drop 8) k

/-- MESSAGE (R285): NPF protocol fields from field 4 on. -/
def recMessage (engine npf : Nat) (m : Msg) : Rec :=
  let fieldOf := fun k => ((m.fields.find? (fun f => f.1 = k)).map (fun f => f.2)).getD 0
  recAt 0x04 (markFlags m.settle m.coarse)
    (m.time % 64 + engine * 64 + m.pa.length * 4096 + m.pb.length * 524288)
    ([m.time / 64, m.kind % 256 + m.seg % 4 * 256 + m.err % 65536 * 65536 + m.len % 65536 * 2 ^ 32 + npf * 2 ^ 48]
      ++ (List.range npf).map (fun i => fieldOf (4 + i))
      ++ bytesToWords m.pa m.pa.length ++ bytesToWords m.pb m.pb.length) (m.time / 64)

/-- INTERVAL (R286). -/
def recInterval (unit : Nat) (start : FineTime) (interval : Int) (unresolved settle coarse : Bool) : Rec :=
  recAt 0x58 (markFlags settle coarse + 16 * b2n unresolved) (start % 64 + unit * 64)
    [start / 64, toField 64 interval] (start / 64)

/-! ### Time records -/

/-- RATE as an ANCHOR reports it, in 2^-88 epoch per slot. -/
def Time.rateField (t : Time) : Nat :=
  let r := t.rate / 2 ^ 64
  if r < 2 ^ 64 then r else Config.wideRate r

/-- ANCHOR at slot x (R287). -/
def recAnchor (t : Time) (x : SI) (runStart runEnd : Bool) : Rec :=
  recAt 0x10 (2 * b2n t.coasting + 16 * b2n runStart + 32 * b2n runEnd) (t.tgen.toNat + t.reported * 256)
    [x, t.st x % 2 ^ 64, t.st x / 2 ^ 64 + t.u x * 2 ^ 32, t.rateField] x

/-- TIMESTEP (R288): Δ in reported ST units and in ps. -/
def recTimestep (si : SI) (old new : BitVec 8) (cause : Nat) (delta : Int) (ps : Int) : Rec :=
  let d := toField 96 delta
  recAt 0x11 0 (old.toNat + new.toNat * 256 + cause * 65536)
    [si, d % 2 ^ 64, d / 2 ^ 64 + toField 32 (sat32 ps) * 2 ^ 32] si

/-- SLEW (R289): phase 0 start, 1 at an anchor boundary, 2 end. -/
def recSlew (si : SI) (tgen : BitVec 8) (phase ppm : Nat) (ps : Int) : Rec :=
  recAt 0x12 0 (tgen.toNat + phase * 256 + ppm * 1024) [si, toField 32 (sat32 ps)] si

/-! ### Trigger records -/

/-- TACK (R290). -/
def recTack (r : TackRef) (window forced gap settle coarse coasting : Bool) (stitch branch mark : Nat) : Rec :=
  recAt 0x20 (2 * b2n coasting + markFlags settle coarse + 16 * b2n window + 32 * b2n forced + 64 * b2n gap)
    (r.fine + r.seq * 64 + r.kind * 128 + stitch * 512 + branch * 8192)
    [r.si, r.number % 2 ^ 32 + r.origin * 2 ^ 32 + mark * 2 ^ 46] r.si

/-- BASTE (R291). -/
def recBaste (si : SI) (fine seq stitch branch number origin deadline : Nat) (preopen remote settle coarse : Bool) : Rec :=
  recAt 0x21 (markFlags settle coarse + 16 * b2n preopen + 32 * b2n remote)
    (fine + seq * 64 + stitch * 512 + branch * 8192) [si, number + origin * 65536, deadline] si

/-- SEW (R291). -/
def recSew (si : SI) (fine seq number origin tack : Nat) (remote : Bool) : Rec :=
  recAt 0x22 (32 * b2n remote) (fine + seq * 64) [si, number + origin * 65536 + tack % 2 ^ 32 * 2 ^ 32] si

/-- UNPICK (R291). -/
def recUnpick (si : SI) (fine seq reason number origin : Nat) (remote : Bool) : Rec :=
  recAt 0x23 (32 * b2n remote) (fine + seq * 64 + reason * 128) [si, number + origin * 65536] si

/-- SUPPRESSED (R291): reason 0 hold-off, 1 baste store full. -/
def recSuppressed (si : SI) (fine seq stitch branch reason : Nat) (baste : Bool) : Rec :=
  recAt 0x24 (16 * b2n baste) (fine + seq * 64 + stitch * 512 + branch * 8192 + reason * 32768) [si] si

/-- WINDOW_REFUSED (R292). -/
def recRefused (r : TackRef) (policy reason : Nat) : Rec :=
  recAt 0x2A 0 (r.fine + r.seq * 64 + r.kind * 128 + policy * 512 + reason * 8192) [r.si, r.number % 2 ^ 32] r.si

/-! ### Window records -/

/-- WINDOW_OPEN (R293). -/
def recWindowOpen (w : WSlot) (first : TackRef) (delivered : SI) : Rec :=
  let export_ := w.exportJob.isSome
  mkRec 0x28 (16 * b2n w.merge + 32 * b2n w.preopened + 64 * b2n export_)
    (w.policy + w.regions * 16 + w.red * 256 + first.fine * 4096 + first.seq * 2 ^ 18 + first.kind * 2 ^ 19)
    [w.id + first.number % 2 ^ 32 * 2 ^ 32, w.t, if export_ then 0 else w.pre,
     w.post, w.reqStart, delivered,
     if export_ then 0 else toField 64 ((w.t : Int) - delivered)] none

/-- WINDOW_CLOSE (R294). -/
def recWindowClose (w : WSlot) (cancelled : Bool) (deliveredEnd : SI) : Rec :=
  let export_ := w.exportJob.isSome
  let tacks := if export_ then [] else w.tacks.take 64
  mkRec 0x29 (16 * b2n w.stopped + 32 * b2n w.merged + 64 * b2n cancelled) tacks.length
    (w.id :: deliveredEnd :: tacks.flatMap (fun r =>
      [r.si, r.fine + r.seq * 64 + r.kind * 128 + r.origin * 512 + r.number % 2 ^ 32 * 2 ^ 32])) none

/-! ### Gap, doubt, audit and housekeeping records -/

/-- SELVEDGE (R295). Scope: 0 chip, 1 region, 2 block, 3 channel, 4 reduction. -/
def recSelvedge (cause scope id : Nat) (start len : Nat) : Rec :=
  recAt 0x30 0 (cause + scope * 256) [start, len % 2 ^ 48, id] start

/-- DOUBT_BEGIN (R296). Scope: 0 chip, 3 channel, 5 port. -/
def recDoubtBegin (scope id : Nat) (si : SI) (causes : Nat) (update : Bool) : Rec :=
  recAt 0x31 (16 * b2n update) (scope + id * 8) [si, causes] si

/-- DOUBT_END (R296). -/
def recDoubtEnd (scope id : Nat) (si : SI) : Rec := recAt 0x32 0 (scope + id * 8) [si, 0] si

/-- CHANGE (R297). -/
def recChange (t : Time) (origin : Origin) (sequence : Nat) (si : SI) (opcode status : Nat) (digest : Nat) : Rec :=
  recAt 0x40 (2 * b2n t.coasting) (origin.kind + origin.id * 8)
    [sequence, si, t.st si % 2 ^ 64,
     t.st si / 2 ^ 64 + t.tgen.toNat * 2 ^ 32 + opcode * 2 ^ 40 + status * 2 ^ 56,
     digest % 2 ^ 64, digest / 2 ^ 64 % 2 ^ 64] si

/-- SIGNATURE (R298): `chain`, `r` and `s` are given in stored byte order as little-endian numbers. -/
def recSignature (t : Time) (index : Nat) (si : SI) (stream : Nat) (chain r s : List Byte) (esk : Nat) : Rec :=
  recAt 0x48 (2 * b2n t.coasting) 0
    ([index, si, t.st si % 2 ^ 64, t.st si / 2 ^ 64 + t.tgen.toNat * 2 ^ 32 + stream * 2 ^ 40]
      ++ bytesToWords chain 4 ++ bytesToWords r 4 ++ bytesToWords s 4 ++ [esk]) si

/-- HK (R299). -/
def recHk (input entry gain integ : Nat) (si : SI) (value : Int) (seqCount : Nat) (overrange settle : Bool) : Rec :=
  recAt 0x50 (markFlags settle false + 16 * b2n overrange) (input + entry * 128 + gain * 2048 + integ * 16384)
    [si, toField 24 value + seqCount * 2 ^ 32] si

/-- PAD of n words (R300). -/
def recPad (n : Nat) (poison : Bool) : Rec := mkRec 0x7F (b2n poison) 0 (List.replicate (n - 1) 0) none

/-- Records that state a baste's life (R173). -/
def Rec.provisional (r : Rec) : Bool := r.type = 0x21 || r.type = 0x22 || r.type = 0x23

/-- Records that carry captured data (R279). -/
def Rec.captured (r : Rec) : Bool := r.type = 1 || r.type = 2 || r.type = 3 || r.type = 4 || r.type = 0x58

/-- Captured data that a discard or reset drops. The record of a statistics window is never itself lost through a gap (R214). -/
def Rec.droppable (r : Rec) : Bool := r.captured && r.type ≠ 3

end Sys2Proof.Machine
end

