-- ==== Sys2Proof/Machine/Moltik.lean ====
section
/-! DEFINITION. Moltik coding: stage 1 (R306 to R309), the LZ4 block decoder of stage 2 (R310), and the choice of a segment's
form (R311). -/

namespace Sys2Proof.Machine

/-! ### Bit streams, least significant bit first (R307) -/

/-- The n low bits of v, lowest first. -/
def lsbBits (n v : Nat) : List Bool := (List.range n).map (fun i => v.testBit i)

/-- The number that bits spell, lowest first. -/
def bitsVal (bs : List Bool) : Nat := bs.foldr (fun b acc => b2n b + 2 * acc) 0

/-- Bits packed into bytes, the last padded with 0. -/
def packBits (fuel : Nat) (bs : List Bool) : List Byte :=
  match fuel, bs with
  | 0, _ => []
  | _, [] => []
  | k + 1, bs => BitVec.ofNat 8 (bitsVal (bs.take 8)) :: packBits k (bs.drop 8)

/-- The bits of bytes, lowest first. -/
def unpackBits (bs : List Byte) : List Bool := bs.flatMap (fun b => lsbBits 8 b.toNat)

/-- A varint of at most `fuel` groups (R307). -/
def varint (fuel v : Nat) : List Bool :=
  match fuel with
  | 0 => []
  | k + 1 => if v < 128 then lsbBits 8 v else lsbBits 8 (v % 128 + 128) ++ varint k (v / 128)

/-! ### Stage 1 coding (R307 to R309) -/

/-- The cells of a frame entry as a 16-bit map. -/
def cellMap (es : List Edge) : Nat :=
  (List.range 16).foldl (fun m c => if es.any (fun e => e.cell = c) then m + 2 ^ c else m) 0

/-- Number of cells in a map. -/
def mapCount (m : Nat) : Nat := ((List.range 16).filter (fun c => m.testBit c)).length

/-- Bits of INDEX for k cells (R308). -/
def indexBits (k : Nat) : Nat := if k ≤ 1 then 0 else Nat.log2 (k - 1) + 1

/-- Position of cell c among a map's cells. -/
def mapIndex (m c : Nat) : Nat := ((List.range c).filter (fun i => m.testBit i)).length

/-- The edge codes of an entry (R308): `trail` says the previous edge had GF 1. -/
def edgeCodes (m : Nat) (trail : Bool) (es : List Edge) : List Bool :=
  match es with
  | [] => []
  | e :: rest =>
    (if trail then lsbBits 6 e.fine
     else lsbBits (indexBits (mapCount m)) (mapIndex m e.cell) ++ lsbBits 4 e.slot ++ lsbBits 6 e.fine ++ [e.level, e.gf])
      ++ edgeCodes m e.gf rest

/-- How many of the next entries have cell set m, up to 63 (R309). -/
def runLength (m : Nat) (es : List FrameEntry) (n : Nat) : Nat :=
  match n, es with
  | 0, _ => 0
  | _, [] => 0
  | k + 1, e :: rest => if cellMap e.edges = m then runLength m rest k + 1 else 0

/-- The frame entries of a coded body (R307, R309). -/
def codeEntries (prev m run : Nat) (es : List FrameEntry) : List Bool :=
  match es with
  | [] => []
  | e :: rest =>
    let set := cellMap e.edges
    let l := runLength set rest 63
    let code := if run = 0 then
        (if set = m then [false] else true :: lsbBits 16 set) ++ lsbBits 6 l
      else []
    varint 4 (e.frame - prev) ++ varint 2 e.edges.length ++ code ++ edgeCodes set false e.edges
      ++ codeEntries e.frame set (if run = 0 then l else run - 1) rest

/-- Stage 1 of one record (R306). -/
def stage1Item (i : Item) : List Byte :=
  match i with
  | .plain r => r.bytes
  | .frame f =>
    let r := f.record
    let marks := if f.edges.any (fun e => e.settle || e.coarse)
      then f.edges.flatMap (fun e => [e.settle, e.coarse]) else []
    let body := codeEntries (f.base / 16) 0 0 f.entries ++ marks
    wordBytes (r.words.take 2) ++ packBits body.length body

/-- Stage 1 of a payload. -/
def stage1 (is : List Item) : List Byte := is.flatMap stage1Item

/-! ### Stage 1 decoding (R306 to R309) -/

/-- A varint read from bits: the value and the rest; none where it has more groups than `fuel`. -/
def readVarint (fuel : Nat) (bs : List Bool) : Option (Nat × List Bool) :=
  match fuel with
  | 0 => none
  | k + 1 =>
    if bs.length < 8 then none
    else
      let v := bitsVal (bs.take 7)
      if bs.getD 7 false then (readVarint k (bs.drop 8)).map (fun r => (v + 128 * r.1, r.2))
      else some (v, bs.drop 8)

/-- n bits read from a stream. -/
def readBits (n : Nat) (bs : List Bool) : Option (Nat × List Bool) :=
  if bs.length < n then none else some (bitsVal (bs.take n), bs.drop n)

/-- The edges of one entry (R308): n edges under map m. -/
def readEdges (n m : Nat) (prev : Option Edge) (bs : List Bool) : Option (List Edge × List Bool) :=
  match n with
  | 0 => some ([], bs)
  | n + 1 =>
    let k := mapCount m
    match prev with
    | some p =>
      if p.gf then
        match readBits 6 bs with
        | none => none
        | some (f, bs) =>
          let e : Edge := { cell := p.cell, slot := p.slot, fine := f, level := !p.level, gf := false }
          (readEdges n m (some e) bs).map (fun r => (e :: r.1, r.2))
      else full n m k bs
    | none => full n m k bs
where
  /-- A full edge code. -/
  full (n m k : Nat) (bs : List Bool) : Option (List Edge × List Bool) :=
    if k = 0 then none
    else
      match readBits (indexBits k) bs with
      | none => none
      | some (i, bs) =>
        match readBits 12 bs with
        | none => none
        | some (v, bs) =>
          if k ≤ i then none
          else
            let e : Edge := { cell := ((List.range 16).filter (fun c => m.testBit c)).getD i 0, slot := v % 16,
                              fine := v / 16 % 64, level := v.testBit 10, gf := v.testBit 11 }
            (readEdges n m (some e) bs).map (fun r => (e :: r.1, r.2))

/-- The frame entries of a coded body: `prev` is the previous frame, `m` the map, `run` the run counter. -/
def readEntries (n prev m run : Nat) (bs : List Bool) : Option (List FrameEntry × List Bool) :=
  match n with
  | 0 => some ([], bs)
  | n + 1 => do
    let (d, bs) ← readVarint 4 bs
    let (c, bs) ← readVarint 2 bs
    if c = 0 then none
    let (m, run, bs) ← (if run = 0 then do
        let (nb, bs) ← readBits 1 bs
        let (m, bs) ← (if nb = 1 then readBits 16 bs else some (m, bs))
        let (l, bs) ← readBits 6 bs
        some (m, l, bs)
      else some (m, run - 1, bs) : Option (Nat × Nat × List Bool))
    let (es, bs) ← readEdges c m none bs
    let rest ← readEntries n (prev + d) m run bs
    some ({ frame := prev + d, edges := es } :: rest.1, rest.2)

/-- Marks applied to edges in entry order. -/
def markEdges (es : List Edge) (ms : List Bool) : List Edge × List Bool :=
  match es with
  | [] => ([], ms)
  | e :: rest =>
    let r := markEdges rest (ms.drop 2)
    ({ e with settle := ms.getD 0 false, coarse := ms.getD 1 false } :: r.1, r.2)

/-- Marks applied to entries. -/
def markEntries (es : List FrameEntry) (ms : List Bool) : List FrameEntry :=
  match es with
  | [] => []
  | e :: rest =>
    let r := markEdges e.edges ms
    { e with edges := r.1 } :: markEntries rest r.2

/-- One FRAME record decoded from its two words, which stand unchanged, and the bytes that follow: the record and how many bytes it took. -/
def readFrame (w0 base : Nat) (bs : List Byte) : Option (Rec × Nat) := do
  let all := unpackBits bs
  let n := w0 / 2 ^ 38 % 1024
  let edges := w0 / 2 ^ 48 % 1024
  let (es, rest) ← readEntries n (base / 16) 0 0 all
  if (es.flatMap (fun e => e.edges)).length ≠ edges then none
  let marked := w0.testBit 20
  if marked && rest.length < 2 * edges then none
  let es := if marked then markEntries es rest else es
  let rest := if marked then rest.drop (2 * edges) else rest
  let used := (all.length - rest.length + 7) / 8
  if ((all.take (8 * used)).drop (all.length - rest.length)).any (fun b => b) then none
  let f : FrameBody := { block := w0 / 2 ^ 32 % 64, base := base, entries := es }
  let noMarks := marked && !f.edges.any (fun e => e.settle || e.coarse)
  let body := f.record.words.drop 2 ++ (if noMarks then List.replicate ((edges + 31) / 32) 0 else [])
  some ({ words := w64 w0 :: w64 base :: body }, used)

/-- A stage 1 stream as records; none where it is malformed (R309). -/
def unstage1 (fuel : Nat) (bs : List Byte) : Option (List Item) :=
  match fuel with
  | 0 => none
  | k + 1 =>
    if bs.length = 0 then some []
    else if bs.length < 8 then none
    else
      let w0 := leNat (bs.take 8)
      let len := w0 / 256 % 256
      if len = 0 then none
      else if w0 % 256 = 1 then
        if bs.length < 16 then none
        else do
          let (f, used) ← readFrame w0 (leNat ((bs.drop 8).take 8)) (bs.drop 16)
          let rest ← unstage1 k (bs.drop (16 + used))
          some (.plain f :: rest)
      else if bs.length < 8 * len then none
      else do
        let ws := (bytesToWords (bs.take (8 * len)) len).map w64
        let rest ← unstage1 k (bs.drop (8 * len))
        some (.plain { words := ws } :: rest)

/-- The records' bytes of items. -/
def Item.bytes (i : Item) : List Byte :=
  match i with
  | .frame f => f.record.bytes
  | .plain r => r.bytes

/-! ### LZ4 blocks (R310) -/

/-- An LZ4 length: 15 continues in bytes until one is not 255. -/
def lz4Len (fuel v : Nat) (bs : List Byte) : Option (Nat × List Byte) :=
  match fuel with
  | 0 => none
  | k + 1 =>
    match bs with
    | [] => none
    | b :: rest => if b = 255 then lz4Len k (v + 255) rest else some (v + b.toNat, rest)

/-- n bytes copied from `ofs` back, one at a time; output newest first. -/
def lz4Copy (n ofs : Nat) (out : List Byte) : List Byte :=
  match n with
  | 0 => out
  | n + 1 => lz4Copy n ofs (out.getD (ofs - 1) 0 :: out)

/-- The sequences of an LZ4 block; output newest first; none where the block is not valid. -/
def lz4Seqs (fuel : Nat) (bs out : List Byte) : Option (List Byte) :=
  match fuel with
  | 0 => none
  | k + 1 =>
    match bs with
    | [] => none
    | tok :: rest => do
      let lit := tok.toNat / 16
      let (lit, rest) ← if lit = 15 then lz4Len rest.length 15 rest else some (lit, rest)
      if rest.length < lit then none
      let out := (rest.take lit).reverse ++ out
      let rest := rest.drop lit
      if rest.length = 0 then some out
      else
        if rest.length < 2 then none
        let ofs := leNat (rest.take 2)
        let rest := rest.drop 2
        let m := tok.toNat % 16
        let (m, rest) ← if m = 15 then lz4Len rest.length 15 rest else some (m, rest)
        if ofs = 0 || out.length < ofs then none
        lz4Seqs k rest (lz4Copy (m + 4) ofs out)

/-- Where the last match of a block begins in its output, `last` being the one before, and the literals that end the block. -/
def lz4Last (fuel : Nat) (bs : List Byte) (pos : Nat) (last : Option Nat) : Option Nat × Nat :=
  match fuel, bs with
  | 0, _ => (last, 0)
  | _, [] => (last, 0)
  | k + 1, tok :: rest =>
    let long := fun (v : Nat) (r : List Byte) => if v = 15 then (lz4Len r.length 15 r).getD (v, r) else (v, r)
    let (lit, rest) := long (tok.toNat / 16) rest
    let rest := rest.drop lit
    if rest.length = 0 then (last, lit)
    else
      let (m, rest) := long (tok.toNat % 16) (rest.drop 2)
      lz4Last k rest (pos + lit + m + 4) (some (pos + lit))

/-- The end-of-block conditions that the device's blocks keep (R310), for an output of n bytes: the last five bytes are literals, and the last match
begins at least 12 bytes before the end. -/
def lz4EndOk (bs : List Byte) (n : Nat) : Bool :=
  match lz4Last (bs.length + 1) bs 0 none with
  | (none, _) => true
  | (some m, lit) => decide (5 ≤ lit) && decide (m + 12 ≤ n)

/-- An LZ4 block decoded (R310). -/
def lz4Decode (bs : List Byte) : Option (List Byte) := (lz4Seqs (bs.length + 1) bs []).map List.reverse

/-- A segment's payload decoded from its flags: MOLTIK and LZ4 (R310, R311), TAIL bytes taken off first. -/
def decodePayload (moltik lz4 : Bool) (tail : Nat) (payload : List Byte) : Option (List Byte) :=
  let body := payload.take (payload.length - tail)
  if lz4 && !moltik then none
  else if !moltik then some payload
  else do
    let s1 ← if lz4 then lz4Decode body else some body
    let items ← unstage1 (s1.length + 1) s1
    some (items.flatMap Item.bytes)

/-! ### The form of a segment (R311) -/

/-- The form (0 uncompressed, 1 MOLTIK, 2 MOLTIK and LZ4) and coded payload that the engine chooses; `cand` is the block
that the free LZ4 encoder offers, taken only where it is a block of the stage 1 stream that keeps R310 (notes/assumptions/12.md). -/
def chooseForm (mode : Nat) (is : List Item) (cand : List Byte) : Nat × List Byte :=
  let n := ((is.map Item.bytes).map List.length).sum
  let s1 := stage1 is
  if mode = 0 || decide (n ≤ s1.length) then (0, [])
  else if mode = 2 && decide (cand.length < s1.length) && lz4Decode cand = some s1 && lz4EndOk cand s1.length then (2, cand)
  else (1, s1)

end Sys2Proof.Machine
end

