-- ==== Sys2Proof/Machine/Segments.lean ====
section
/-! DEFINITION. Sources and segments: source IDs (R270), active sources (R228), placing records (R274, R282, R301), closing,
the region writer's queue and commit to staging (R21, R22, R28, R275, R313), and the bytes of a segment (R268 to R273). -/

namespace Sys2Proof.Machine

/-! ### Source IDs (R270) -/

/-- Transitions of region r, channel group g. -/
def trnSource (r g : Nat) : Nat := r * 65536 + g
/-- State clock k of region r. -/
def stateSource (r k : Nat) : Nat := 16777216 + r * 65536 + k
/-- Statistics of region r. -/
def statSource (r : Nat) : Nat := 33554432 + r * 65536
/-- Messages of engine k of region r. -/
def msgSource (r k : Nat) : Nat := 50331648 + r * 65536 + k
/-- Window policy p. -/
def winSource (p : Nat) : Nat := 83820544 + p
/-- Special source k: 0 housekeeping, 1 audit, 2 replay output. -/
def specialSource (k : Nat) : Nat := 100597760 + k
/-- CLASS. -/
def srcClass (id : Nat) : Nat := id / 16777216
/-- REGION. -/
def srcRegion (id : Nat) : Nat := id / 65536 % 256
/-- INDEX. -/
def srcIndex (id : Nat) : Nat := id % 65536

/-- A source ID that is not reserved (R270). -/
def srcValid (id : Nat) : Bool :=
  match srcClass id with
  | 0 | 1 | 3 => decide (srcRegion id < 4) && decide (srcIndex id < 16)
  | 2 => decide (srcRegion id < 4) && srcIndex id = 0
  | 4 => srcRegion id = 255 && decide (srcIndex id < 16)
  | 5 => srcRegion id = 255 && decide (srcIndex id < 3)
  | _ => false

/-- Channel group of block b in its region (R206). -/
def groupOf (log2 b : Nat) : Nat := b % 16 / (16 / 2 ^ log2)

/-- The transitions source of block b. -/
def blockSource (c : RegionCfg) (b : Nat) : Nat := trnSource (b / 16) (groupOf c.trnGroupsLog2 b)

/-- The active sources of region r: enabled reductions and routed sources (R228). -/
def regionActive (c : RegionCfg) (routed : List Nat) (r : Nat) : List Nat :=
  let base := (List.range (2 ^ c.trnGroupsLog2)).map (trnSource r)
    ++ (c.clocks.map (fun e => stateSource r e.1))
    ++ (if c.statsOn then [statSource r] else [])
    ++ ((List.range 16).filter (fun k => c.engMask.getLsbD k)).map (msgSource r)
  base ++ routed.filter (fun id => decide (srcClass id < 4) && srcRegion id = r && !base.contains id)

/-- The bobbins to which a source's segments go that are committed at slot x: a ROUTE counts from its frame boundary on (R344). -/
def Bobbins.routesAt (b : Bobbins) (x : SI) (id : Nat) : List Nat :=
  match tfind b.oldRoutes id with
  | some (c, l) => if x < c then l else (tfind b.routes id).getD []
  | none => (tfind b.routes id).getD []

/-- The sources that have a route at slot x. -/
def Bobbins.routedAt (b : Bobbins) (x : SI) : List Nat :=
  (b.routes.map (fun e => e.1) ++ (b.oldRoutes.map (fun e => e.1)).filter (fun id => (tfind b.routes id).isNone)).filter (fun id => b.routesAt x id ≠ [])

/-- The sources of one region that are active while a run is active. -/
def State.sourcesOf (s : State) (r : Nat) : List Nat :=
  regionActive ((tfind s.regions r).getD {}).cfg (s.bob.routedAt s.time.si) r

/-- Every active source (R228), from the run's start until its shut-down has placed its last records (R229). -/
def State.active (s : State) : List Nat :=
  if s.cap.runState = 0 then [] else (List.range 4).flatMap s.sourcesOf

/-- A slot that the present run captures: from B on, and below E once the run stops (R228, R229). -/
def Capture.inRun (c : Capture) (x : SI) : Bool :=
  decide (c.runB ≤ x) && (c.runState = 1 || (c.runState = 2 && decide (x < c.runE)))

/-! ### Items of an open segment -/

/-- A finished record of an item. -/
def Item.record (i : Item) : Rec :=
  match i with
  | .frame f => f.record
  | .plain r => r

/-- Words that an item takes. -/
def Item.size (i : Item) : Nat := i.record.words.length

/-- Payload bytes of an open segment, growing FRAME records included. -/
def OpenSeg.bytes (o : OpenSeg) : Nat := 8 * ((o.items.map Item.size).sum + (o.growing.map FrameBody.size).sum)

/-- TIMESTEP, ANCHOR and SLEW records of a later SI, before which a FRAME record stands (R301). -/
def orderedAfter (hi : SI) (i : Item) : Bool :=
  match i with
  | .frame _ => false
  | .plain r => (r.type = 0x10 || r.type = 0x11 || r.type = 0x12) &&
      (match r.span with
       | none => false
       | some (lo, _) => decide (hi < lo))

/-- A record that carries an SI at or above x. -/
def carriesFrom (x : SI) (i : Item) : Bool :=
  match i with
  | .frame _ => false
  | .plain r => r.span.any (fun p => decide (x ≤ p.1))

/-- An item set at the end of a source's records; a SLEW record before those at the end that carry its SI or a later one (R301, item 5). -/
def putItem (is : List Item) (i : Item) : List Item :=
  match i with
  | .frame _ => is ++ [i]
  | .plain r =>
    let late := if r.type = 0x12 then ((is.reverse.takeWhile (carriesFrom ((r.span.map (fun p => p.1)).getD 0))).length) else 0
    is.take (is.length - late) ++ [i] ++ is.drop (is.length - late)

/-- The slot of an ANCHOR, TIMESTEP or SLEW record, before which every edge of lower slots stands (R301). -/
def Item.orderSlot (i : Item) : Option SI :=
  match i with
  | .frame _ => none
  | .plain r => if r.type = 0x10 || r.type = 0x11 || r.type = 0x12 then r.span.map (fun p => p.1) else none

/-- The first slot that an item carries. -/
def Item.slot (i : Item) : Option SI :=
  match i with
  | .frame f => some f.base
  | .plain r => r.span.map (fun p => p.1)

/-- Item i stands after item w, whose slot orders it (R301). -/
def Item.behind (i w : Item) : Bool :=
  match w.orderSlot, i.slot with
  | some a, some x => decide (a ≤ x)
  | _, _ => false

/-- An item set among those that wait: a frame entry before the first ANCHOR, TIMESTEP or SLEW above it. -/
def putWaiting (is : List Item) (i : Item) : List Item :=
  match i with
  | .frame f => is.takeWhile (fun y => !orderedAfter f.lastSi y) ++ [i] ++ is.dropWhile (fun y => !orderedAfter f.lastSi y)
  | .plain _ => putItem is i

/-- A finished FRAME record set in its place (R301). -/
def insertFrame (f : FrameBody) (is : List Item) : List Item :=
  is.takeWhile (fun i => !orderedAfter f.lastSi i) ++ [.frame f] ++ is.dropWhile (fun i => !orderedAfter f.lastSi i)

/-- Growing FRAME records finished. -/
def OpenSeg.finish (o : OpenSeg) : OpenSeg :=
  { o with items := o.growing.foldl (fun is f => insertFrame f is) o.items, growing := [] }

/-- FIRST_SI (R269). -/
def itemsFirst (is : List Item) : Nat :=
  match is.filterMap (fun i => i.record.span.map (fun p => p.1)) with
  | [] => 0
  | x :: rest => rest.foldl min x

/-- LAST_SI (R272). -/
def itemsLast (is : List Item) : Nat := (is.filterMap (fun i => i.record.span.map (fun p => p.2))).foldl max 0

/-- Whether any record carries an SI. -/
def itemsSpan (is : List Item) : Bool := is.any (fun i => i.record.span.isSome)

/-! ### The bytes of a segment -/

/-- Records of a segment. -/
def Seg.recs (g : Seg) : List Rec := g.items.map Item.record
/-- Uncompressed payload bytes. -/
def Seg.plain (g : Seg) : List Byte := g.recs.flatMap Rec.bytes
/-- UNCOMP_LEN. -/
def Seg.uncompLen (g : Seg) : Nat := 8 * (g.items.map Item.size).sum
/-- TAIL (R269). -/
def Seg.tail (g : Seg) : Nat := if g.form = 0 then 0 else (8 - g.coded.length % 8) % 8
/-- LEN in words (R269, R311). -/
def Seg.len (g : Seg) : Nat :=
  12 + (if g.form = 0 then (g.items.map Item.size).sum else (g.coded.length + g.tail) / 8)
/-- FLAGS (R271). -/
def Seg.flags (g : Seg) : Nat :=
  b2n (g.form ≠ 0) + 2 * b2n (g.form = 2) + 4 * b2n g.raw + 8 * b2n (g.windowId ≠ 0) + 16 * b2n g.stream.isSome
/-- FIRST_SI. -/
def Seg.firstSi (g : Seg) : Nat := itemsFirst g.items
/-- LAST_SI. -/
def Seg.lastSi (g : Seg) : Nat := itemsLast g.items

/-- The 32-byte header (R269). -/
def Seg.header (g : Seg) : List Byte :=
  leBytes 4 0x47534B53 ++ [1, BitVec.ofNat 8 g.flags] ++ leBytes 2 g.len ++ leBytes 4 g.source ++ leBytes 4 g.uncompLen
    ++ leBytes 8 g.firstSi ++ leBytes 4 g.windowId ++ leBytes 2 (g.stream.getD 65535) ++ [BitVec.ofNat 8 g.tail, 0]

/-- The payload as delivered. -/
def Seg.payload (g : Seg) : List Byte := if g.form = 0 then g.plain else g.coded ++ List.replicate g.tail 0

/-- Hem bytes 0 to 23 (R272, R273). -/
def Seg.hemHead (g : Seg) : List Byte :=
  leBytes 4 g.items.length ++ leBytes 4 (g.crc.getD (crc32c g.plain).toNat) ++ leBytes 8 g.idx ++ leBytes 8 g.lastSi

/-- The bytes that d[n] covers (R318). -/
def Seg.hashed (g : Seg) : List Byte := g.header ++ g.payload ++ g.hemHead

/-- The whole segment (R268). -/
def Seg.bytes (g : Seg) : List Byte :=
  g.hashed ++ (if g.stream.isSome then digestBytes g.chain else List.replicate 32 0) ++ leBytes 4 0x4D484B53
    ++ List.replicate 4 0

/-- The largest uncompressed payload in bytes (R268). -/
def payloadMax : Nat := 65440

/-- Items cut into runs that each fit a segment: a record that no longer fits begins the next run (R268, R274). `cur` is the run in progress, `n` its words. -/
def chunkItems (cur : List Item) (n : Nat) (is : List Item) : List (List Item) :=
  match is with
  | [] => if cur = [] then [] else [cur]
  | i :: rest =>
    if cur ≠ [] && decide (payloadMax < 8 * (n + i.size)) then cur :: chunkItems [i] i.size rest
    else chunkItems (cur ++ [i]) (n + i.size) rest

/-- A record of the item carries POISON (R277). -/
def Item.poisoned (i : Item) : Bool := bit (((i.record.words.head?).getD 0).toNat) 16

/-- A segment that holds more than fits as the segments that carry it (R268). One without a poisoned record has a CRC of its own (R273, R314). -/
def Seg.pieces (g : Seg) : List Seg :=
  if g.form = 0 && decide (payloadMax < g.uncompLen) then
    (chunkItems [] 0 g.items).map (fun is => { g with items := is, crc := if is.any Item.poisoned then g.crc else none })
  else [g]

/-- Words of the segments that carry it. -/
def Seg.pieceWords (g : Seg) : Nat := (g.pieces.map Seg.len).sum

/-! ### Sources -/

/-- A source's state. -/
def Data.source (d : Data) (id : Nat) : Source := (tfind d.sources id).getD {}

/-- Region r. -/
def State.region (s : State) (r : Nat) : Region := (tfind s.regions r).getD {}

/-- Region r changed by f. -/
def State.modRegion (s : State) (r : Nat) (f : Region → Region) : State :=
  { s with regions := tmod s.regions r {} f }

/-- Source id changed by f. -/
def State.modSource (s : State) (id : Nat) (f : Source → Source) : State :=
  { s with data := { s.data with sources := tmod s.data.sources id {} f } }

/-- Staging fill in bytes (R28). -/
def Data.fill (d : Data) : Nat := (d.staging.map (fun g => 8 * g.seg.len)).sum

/-- The staging SRAM in bytes. -/
def stagingSize : Nat := 67108864

/-- A source's new open segment at slot t (R274, R330, R344). -/
def Source.fresh (x : Source) (t : SI) : OpenSeg := { since := t, mode := if t < x.modeFrom then x.oldMode else x.mode, flush := 2 ^ (if t < x.flushFrom then x.oldFlush else x.flushLog2) }

/-! ### Region discards (R28) -/

/-- What remains of an item when captured data at or above slot x is discarded: FRAME records are cut at the frame, and records
without captured data stay (R18, R28). -/
def keepBelow (x : SI) (i : Item) : Option Item :=
  match i with
  | .frame f =>
    let es := f.entries.filter (fun e => decide (16 * e.frame < x))
    if es = [] then none else some (.frame { f with entries := es })
  | .plain r =>
    match r.span with
    | none => some i
    | some (lo, _) => if !r.droppable || decide (lo < x) then some i else none

/-- An open segment without its captured data at or above slot x. -/
def OpenSeg.cut (o : OpenSeg) (x : SI) : OpenSeg :=
  { o with items := o.items.filterMap (keepBelow x)
           growing := o.growing.filterMap (fun f => match keepBelow x (.frame f) with
             | some (.frame g) => some g
             | _ => none) }

/-- Every source of region r loses its open captured data at or above slot x. -/
def Data.cutRegion (d : Data) (r : Nat) (x : SI) : Data :=
  { d with sources := d.sources.map (fun e =>
      if decide (srcClass e.1 < 4) && srcRegion e.1 = r
      then (e.1, { e.2 with opened := e.2.opened.map (fun o => o.cut x), waiting := e.2.waiting.filterMap (keepBelow x) }) else e) }

end Sys2Proof.Machine
end

