-- ==== Sys2Proof/Machine/DramMap.lean ====
section
/-! DEFINITION. How the DRAM controller lays out its addresses (R366 to R370, R379, R383, R384): the areas of the usable space, the address maps, the ranks that
serve an address, the banks that an access touches, and the markers. -/

namespace Sys2Proof.Machine

/-! ### The usable address space (R367) -/

/-- The first byte of the reserved area (R367). -/
def Dram.reserved (d : Dram) : Nat := (d.usable - 17) * 1073741824

/-- Bytes of usable DRAM. -/
def Dram.capacity (d : Dram) : Nat := d.usable * 1073741824

/-- Bytes of the bobbin area (R367). -/
def bobbinArea : Nat := 17179869184

/-- Offsets of the areas in the reserved area (R367): special area, replay work area, ring directory, bobbin contexts, audit log region, remainder. -/
def ofsSpecial : Nat := 0x400000000
def ofsReplay : Nat := 0x410000000
def ofsDirectory : Nat := 0x420000000
def ofsContexts : Nat := 0x430000000
def ofsLog : Nat := 0x432000000
def ofsRemainder : Nat := 0x436000000

/-- Capacity in bytes of partition r (R217). -/
def Capture.partition (c : Capture) (r : Nat) : Nat := c.lbGib * 1073741824 * c.share.getD r 0 / 64
/-- Capacity in bytes of the reduction ring (R220). -/
def Capture.redBytes (c : Capture) : Nat := c.redGib * 1073741824
/-- The special area: 256 MiB (R348). -/
def specialBytes : Nat := 268435456

/-- Where partition r of the look-back ring begins: the ring begins at 0, its partitions follow one another (R217, R367). -/
def Capture.partitionStart (c : Capture) (r : Nat) : Nat := ((List.range r).map c.partition).sum

/-- Where the reduction ring begins (R367). -/
def Capture.redStart (c : Capture) : Nat := c.lbGib * 1073741824

/-- The ring that keeps a source's segments: where it begins and its bytes (R217, R220, R348, R367). -/
def State.ringArea (s : State) (source : Nat) : Nat × Nat :=
  if srcClass source = 0 then (s.cap.partitionStart (srcRegion source), s.cap.partition (srcRegion source))
  else if srcClass source < 4 then (s.cap.redStart, s.cap.redBytes)
  else (s.dram.reserved + ofsSpecial, specialBytes)

/-- An address that the controller may access: below R, and not in the remainder of the reserved area (R367). -/
def Dram.accessible (d : Dram) (a : Nat) : Bool := decide (a < d.capacity) && (decide (d.usable < 17) || decide (a < d.reserved + ofsRemainder))

/-- Address a lies in a LOC 1 ring's area (R367). -/
def Dram.inBobbins (d : Dram) (a : Nat) : Bool := decide (d.reserved ≤ a) && decide (a < d.reserved + bobbinArea)

/-! ### Address maps (R368) -/

/-- An address as the controller splits it. -/
structure DramAddr where
  ch : Nat
  sc : Nat
  rank : Nat
  bg : Nat
  ba : Nat
  row : Nat
  col : Nat
  deriving DecidableEq, Repr

/-- Row width: 17 bits for 32 Gb devices, 16 for 16 Gb. -/
def Dram.rw (d : Dram) : Nat := if d.dense then 17 else 16

/-- The bits of A from `lo`, `n` of them. -/
def fieldAt (a lo n : Nat) : Nat := a / 2 ^ lo % 2 ^ n

/-- Byte address a under the map in force. -/
def Dram.split (d : Dram) (a : Nat) : DramAddr :=
  let row := fieldAt a 21 d.rw
  match d.map with
  | 0 => { ch := fieldAt a 6 2, sc := fieldAt a 8 1, rank := a / 2 ^ (21 + d.rw), bg := fieldAt a 9 3, ba := fieldAt a 14 2, row := row,
           col := fieldAt a 12 2 + 4 * fieldAt a 16 5 }
  | 1 => { ch := fieldAt a 6 2, sc := fieldAt a 8 1, rank := a / 2 ^ (21 + d.rw), bg := Nat.xor (fieldAt a 9 3) (row % 8),
           ba := Nat.xor (fieldAt a 14 2) (row / 8 % 4), row := row, col := fieldAt a 12 2 + 4 * fieldAt a 16 5 }
  | 2 =>
    let k := Nat.log2 d.logRanks
    { ch := fieldAt a 6 2, sc := fieldAt a 8 1, rank := fieldAt a 9 k, bg := fieldAt a (9 + k) 3, ba := fieldAt a (14 + k) 2,
      row := fieldAt a (21 + k) d.rw, col := fieldAt a (12 + k) 2 + 4 * fieldAt a (16 + k) 5 }
  | _ => { ch := fieldAt a 14 2, sc := fieldAt a 6 1, rank := a / 2 ^ (21 + d.rw), bg := fieldAt a 16 3, ba := fieldAt a 19 2, row := row,
           col := fieldAt a 7 7 }

/-- The page predictor and open row after one access; with a further request for the bank queued, the row stays open (R370). -/
def Bank.access (b : Bank) (page row : Nat) (now : SI) (more : Bool) : Bank :=
  let p := match b.row with
    | none => b.p
    | some r => if r = row then min 3 (b.p + 1) else b.p - 1
  let keep := match page with
    | 0 => more || decide (2 ≤ p)
    | 1 => true
    | _ => false
  { p := p, row := if keep then some row else none, last := now }

/-! ### Ranks (R366, R383) -/

/-- Physical rank k of channel c. -/
def Dram.rank (d : Dram) (c k : Nat) : Rank := (tfind d.ranks (4 * c + k)).getD {}

/-- The place of address a in its rank, in MiB: the ranks of the four channels share their part of the address space (R366, R368). -/
def Dram.rankPos (d : Dram) (a : Nat) : Nat :=
  (if d.map = 2 then a / (if d.logRanks = 0 then 1 else d.logRanks) else a % 2 ^ (21 + d.rw)) / 4194304

/-- The physical rank that holds address a (R366): of the ranks in service, degraded or migrated from, the one that serves the logical rank, else one that
waits for its migration. -/
def Dram.owner (d : Dram) (a : Nat) : Nat :=
  let x := d.split a
  let has := fun (ok : Nat → Bool) => (List.range 4).find? (fun k => let r := d.rank x.ch k; ok r.state && r.logical = x.rank)
  ((has (fun st => st = 1 || st = 3 || st = 5)).or (has (fun st => st = 4))).getD 0

/-- The physical rank that answers a read of address a (R366, R383): below the copy pointer of a migration, the spare. -/
def Dram.serving (d : Dram) (a : Nat) : Nat :=
  let k := d.owner a
  match d.mig with
  | some m => if m.channel = (d.split a).ch ∧ m.source = k ∧ d.rankPos a < m.pos then m.spare else k
  | none => k

/-- The physical ranks that take a write to address a: during a migration both the source and the spare (R383). -/
def Dram.takers (d : Dram) (a : Nat) : List Nat :=
  let k := d.owner a
  match d.mig with
  | some m => if m.channel = (d.split a).ch ∧ m.source = k then [k, m.spare] else [k]
  | none => [k]

/-! ### Banks (R370) -/

/-- The number of a bank among all banks of all channels, subchannels and physical ranks. -/
def DramAddr.bank (x : DramAddr) (k : Nat) : Nat := (((x.ch * 2 + x.sc) * 4 + k) * 8 + x.bg) * 4 + x.ba

/-- The bank that a read of address a goes to. -/
def Dram.bankOf (d : Dram) (a : Nat) : Nat := (d.split a).bank (d.serving a)

/-- An access to address a in physical rank k. -/
def Dram.useBank (d : Dram) (a k : Nat) (now : SI) (more : Bool) : Dram :=
  { d with banks := tmod d.banks ((d.split a).bank k) {} (fun b => b.access d.page (d.split a).row now more) }

/-- An access of 64 bytes at address a, `more` saying that another waits for the same bank. -/
def Dram.touch (d : Dram) (a : Nat) (now : SI) (more write : Bool) : Dram :=
  { (if write then (d.takers a).foldl (fun d k => d.useBank a k now more) d else d.useBank a (d.serving a) now more) with
    idleSince := now, rdBytes := if write then d.rdBytes else d.rdBytes + 64 }

/-- The 64-byte accesses that n bytes take from offset `ofs` of an area of `size` bytes that begins at `start`, in order, wrapping at its end. -/
def spanAccesses (start size ofs n : Nat) : List Nat :=
  (List.range ((ofs % 64 + n + 63) / 64)).map (fun k => start + (ofs / 64 * 64 + 64 * k) % (if size = 0 then 1 else size))

/-- Accesses in turn; a later one to the same bank waits behind. -/
def Dram.touchAll (d : Dram) (as : List Nat) (now : SI) (write : Bool) : Dram :=
  match as with
  | [] => d
  | a :: rest => (d.touch a now (rest.any (fun b => d.bankOf b = d.bankOf a)) write).touchAll rest now write

/-! ### Markers (R379, R384) -/

/-- The logical rank that holds byte address a is UNBACKED: reads of it return the migration marker (R384). -/
def Dram.isUnbacked (d : Dram) (a : Nat) : Bool :=
  let x := d.split a
  d.unbacked.contains (4 * x.ch + x.rank)

/-- The 64 bytes at address a carry a marker (R379): 1 poison, 2 migration. -/
def Dram.marker (d : Dram) (a : Nat) : Option Nat := (List.range 8).findSome? (fun i => tfind d.markers (a / 64 * 64 + 8 * i))

/-- What a read of address a finds: the markers that stand there are delivered as such, else what the ECC finds (R379, R384). -/
def Dram.found (d : Dram) (a : Nat) (kind : ReadKind) : ReadKind :=
  if d.isUnbacked a then .migrationMarker
  else match d.marker a with
    | none => kind
    | some m => if m = 2 then .migrationMarker else .poisonMarker

/-- The 64 bytes at address a are written again, outside the LOC 1 rings, whose words are written with their own markers. -/
def Dram.unmark (d : Dram) (a : Nat) : Dram :=
  { d with markers := (List.range 8).foldl (fun m i => tdel m (a / 64 * 64 + 8 * i)) d.markers }

/-- The eight words of the 64 bytes at address a take a marker: 1 poison, 2 migration (R379, R382, R383). -/
def Dram.mark (d : Dram) (a v : Nat) : Dram := { d with markers := (List.range 8).foldl (fun m i => tput m (a / 64 * 64 + 8 * i) v) d.markers }

/-- Bytes written from address a on: those of an UNBACKED rank are discarded (R384). -/
def Dram.store (d : Dram) (m : List Host.Cell) (a : Nat) (bs : List Byte) : List Host.Cell :=
  match bs with
  | [] => m
  | b :: rest => d.store (if d.isUnbacked a then m else Memory.write m a b) (a + 1) rest

end Sys2Proof.Machine
end

