-- ==== Sys2Proof/Machine/Bobbin.lean ====
section
/-! DEFINITION. Bobbins (10_bobbins.md): pointers, status, owing and dropping, gap segments, evidence stamping and poison, and the
delivery of one segment. -/

namespace Sys2Proof.Machine

/-! ### Pointers (R338, R339) -/

/-- Ring size in words. -/
def Bobbin.n (b : Bobbin) : Nat := 2 ^ (b.sizeLog2 - 3)
/-- Pointer modulus. -/
def Bobbin.m2 (b : Bobbin) : Nat := 2 * b.n
/-- (p − q) mod M2. -/
def Bobbin.dist (b : Bobbin) (p q : Nat) : Nat := (p + (b.m2 - q % b.m2)) % b.m2
/-- Words held. -/
def Bobbin.used (b : Bobbin) : Nat := b.dist b.wr b.rel
/-- Free words. -/
def Bobbin.free (b : Bobbin) : Nat := b.n - b.used
/-- Words written and not consumed. -/
def Bobbin.unread (b : Bobbin) : Nat := b.dist b.wr b.rd

/-! ### The copy that a bobbin takes (R345) -/

/-- The copy for a bobbin without PROVISIONAL carries no BASTE, SEW or UNPICK record (R345); it is coded like the segment. -/
def Seg.viewFor (g : Seg) (provisional : Bool) : Seg :=
  let keep := fun (i : Item) => match i with
    | .frame _ => true
    | .plain r => !r.provisional
  if provisional || g.items.all keep then g
  else
    let is := g.items.filter keep
    let (form, coded) := if g.form = 0 then (0, []) else chooseForm g.form is (Config.lz4Block (2 ^ 64 + g.seg))
    { g with items := is, form := form, coded := coded }

/-- An item's segment as the bobbin would take it. -/
def QItem.copyFor (x : QItem) (provisional : Bool) : Seg := if x.again then x.seg else x.seg.viewFor provisional

/-! ### Owed segments (R347 to R350) -/

/-- An item that the bobbin owes. -/
def QItem.isOwed (q : QItem) : Bool := q.owed && q.gap.isNone
/-- The bobbin owes some segment of the source. -/
def Bobbin.owes (b : Bobbin) (id : Nat) : Bool := b.queue.any (fun q => q.isOwed && q.seg.source = id)
/-- Some segment is owed. -/
def Bobbin.owing (b : Bobbin) : Bool := b.queue.any QItem.isOwed
/-- The owed amount in bytes (R349, R412). -/
def Bobbin.owedBytes (b : Bobbin) : Nat :=
  ((b.queue.filter (fun q => q.isOwed && q.counted)).map (fun q => 8 * (q.copyFor b.provisional).len)).sum
/-- The owed amount as it counts now: nothing while delivery is stopped (R412). -/
def Bobbin.owedNow (b : Bobbin) (stopped : Bool) : Nat := if stopped then 0 else b.owedBytes
/-- SPILL_MIB in bytes. -/
def Bobbin.limit (b : Bobbin) : Nat := b.spillMib * 1048576

/-- BOB_STAT (R354). -/
def Bobbin.stat (b : Bobbin) : Word :=
  w32 (2 ^ 31 + 2 ^ 30 * b2n b.rewinding.isSome + 2 ^ 29 * b2n b.markValid + 2 ^ 28 * b2n b.owing
    + 2 ^ 27 * b2n b.dropping + b.flags.toNat)

/-- A writeback block with a value of BOB_STAT (R341); in SKC256 pointer mode WR stands twice, the second time inverted (R353). -/
def Bobbin.wbBlock (b : Bobbin) (stat : Word) : List Byte :=
  leBytes 4 b.wr ++ leBytes 4 stat.toNat ++
    (if b.skc256 then leBytes 4 (Nat.xor b.wr 0xFFFFFFFF) ++ leBytes 4 b.wbCount else leBytes 8 b.wbCount)

/-- The writeback block (R341). -/
def Bobbin.writeback (b : Bobbin) : List Byte := b.wbBlock b.stat

/-- BOB_STAT flag bits. -/
def flagCtx : BitVec 9 := 256
/-- RESET. -/
def flagReset : BitVec 9 := 128
/-- PTR_ERR. -/
def flagPtrErr : BitVec 9 := 64
/-- POISON. -/
def flagPoison : BitVec 9 := 32
/-- GAP. -/
def flagGap : BitVec 9 := 16
/-- SPILL. -/
def flagSpill : BitVec 9 := 8
/-- TACK. -/
def flagTack : BitVec 9 := 4
/-- FILL. -/
def flagFill : BitVec 9 := 2

/-- Flags set. -/
def Bobbin.flag (b : Bobbin) (f : BitVec 9) : Bobbin := { b with flags := b.flags ||| f }

/-- A segment's slots, where any record carries an SI. -/
def Seg.slots (g : Seg) : Option (SI × SI) := if itemsSpan g.items then some (g.firstSi, g.lastSi) else none

/-- The frames that a lost segment covered; a gap segment's are its SELVEDGE's (R350). -/
def Seg.lostSpan (g : Seg) : Option (SI × SI) :=
  if g.gap then ((g.recs.head?).map (fun r => ((r.words.getD 1 0).toNat, (r.words.getD 1 0).toNat + (r.words.getD 2 0).toNat)))
  else g.slots.map (fun p => (floor16 p.1, floor16 p.2 + 16))

/-- Segment g lost to the bobbin with the given cause, in the place where it would have been delivered: it joins a gap of the same
source and cause that it follows directly, or makes a gap of its own (R350). -/
def addGap (q : List QItem) (g : Seg) (cause : Nat) (contained : Bool) : List QItem :=
  let mine := q.filter (fun x => x.seg.source = g.source && !x.seg.audit)
  let fresh : QItem :=
    { seg := { source := g.source, idx := g.idx, seg := g.seg }, gap := some cause, contained := contained,
      gapStart := g.lostSpan.map (fun p => p.1), gapEnd := g.lostSpan.map (fun p => p.2) }
  match mine.getLast? with
  | some x =>
    if x.gap = some cause then
      q.map (fun y => if y.seg.seg = x.seg.seg && y.gap = some cause && y.seg.source = g.source then
        { y with seg := fresh.seg, gapStart := (match y.gapStart with | none => fresh.gapStart | some a => some a),
                 gapEnd := (match fresh.gapEnd with | none => y.gapEnd | some a => some a) } else y)
    else q ++ [fresh]
  | none => q ++ [fresh]

/-- The first segment of a source in a queue that is a gap of the given cause joins the gap x before it: one run, one gap segment (R350). -/
def QItem.joinNext (x : QItem) (after : List QItem) : QItem × List QItem :=
  match after.find? (fun y => y.seg.source = x.seg.source && !y.seg.audit) with
  | some y =>
    if y.gap = x.gap && x.gap.isSome then
      ({ y with gapStart := x.gapStart.or y.gapStart, gapEnd := y.gapEnd.or x.gapEnd }, after.erase y)
    else (x, after)
  | none => (x, after)

/-- Segment g of a queue lost with the given cause between those before and after it: it joins the gaps of its source and cause on both sides (R350). -/
def gapBetween (before : List QItem) (g : Seg) (cause : Nat) (contained : Bool) (after : List QItem) : List QItem :=
  let q := addGap before g cause contained
  match q.reverse.find? (fun y => y.seg.source = g.source && !y.seg.audit && y.gap = some cause) with
  | none => q ++ after
  | some x =>
    let (y, rest) := x.joinNext after
    q.map (fun z => if z = x then y else z) ++ rest

/-- Segment h, committed at slot b, comes after segment g, committed at slot a, in one FRM cycle of their region: transitions, state, statistics,
messages, the lower group first, which is the order of the source IDs (R21). -/
def cycleAfter (g : Seg) (a : SI) (h : Seg) (b : SI) : Bool :=
  a / 16 = b / 16 && decide (srcClass g.source < 4) && decide (srcClass h.source < 4) && srcRegion g.source = srcRegion h.source &&
    decide (g.source < h.source)

/-- An item set at its place in a bobbin's queue (R21). -/
def queueIn (l : List QItem) (x : QItem) : List QItem :=
  let n := l.length - (l.reverse.takeWhile (fun y => cycleAfter x.seg x.since y.seg y.since && y.gap.isNone)).length
  l.take n ++ [x] ++ l.drop n

/-- A segment committed to staging at slot `si` is offered to the bobbin (R347 to R349, R412): queued from staging, owed, or
dropped. `stopped` says that delivery to its ring is stopped, `contained` that containment is in force. -/
def Bobbin.offer (b : Bobbin) (stopped contained : Bool) (si : SI) (g : Seg) : Bobbin :=
  let n := (g.viewFor b.provisional).len
  let must := b.owes g.source || decide (b.free < n) || stopped
  let item : QItem := { seg := g, since := si }
  if g.audit then
    { b with queue := b.queue ++ [{ item with owed := must, ready := !must, counted := false, kept := true }] }
  else if b.n < n then { b with queue := addGap b.queue g 3 false }
  else if stopped then
    { (if b.owing then b else b.flag flagSpill) with
      dropping := false, queue := queueIn b.queue { item with owed := true, ready := false, counted := false, hostStopped := true, contained := contained } }
  else if b.dropping then { b with queue := addGap b.queue g 3 false }
  else if must then
    if b.limit < b.owedBytes + 8 * n then
      { b with queue := addGap b.queue g 3 false, dropping := decide (b.spillMib ≠ 0) }
    else { (if b.owing then b else b.flag flagSpill) with
           queue := queueIn b.queue { item with owed := true, ready := false } }
  else { b with queue := queueIn b.queue item }

/-- The item of segment number `seg` stops waiting in staging and is owed, and with it every later one of its source (R347);
beyond the spill limit it is dropped (R349), but not while delivery is `stopped`, when it does not count either (R412). -/
def Bobbin.owe (b : Bobbin) (stopped contained : Bool) (seg : Nat) : Bobbin :=
  match b.queue.find? (fun q => q.seg.seg = seg && !q.owed && q.gap.isNone) with
  | none => b
  | some x =>
    let later := b.queue.filter (fun q => !q.owed && q.gap.isNone && q.seg.source = x.seg.source && decide (seg ≤ q.seg.seg))
    let step := fun (b : Bobbin) (q : QItem) =>
      if !q.seg.audit && !stopped && (b.dropping || decide (b.limit < b.owedBytes + 8 * (q.copyFor b.provisional).len)) then
        let before := b.queue.takeWhile (fun y => y.seg.seg ≠ q.seg.seg || y.gap.isSome)
        let after := b.queue.drop (before.length + 1)
        { b with queue := gapBetween before q.seg 3 false after, dropping := b.dropping || decide (b.spillMib ≠ 0) }
      else { (if b.owing then b else b.flag flagSpill) with
             queue := b.queue.map (fun y => if y.seg.seg = q.seg.seg && y.gap.isNone then
               { y with owed := true, ready := false, counted := !q.seg.audit && !stopped, hostStopped := stopped, contained := stopped && contained } else y) }
    later.foldl step b

/-- An item is owed because its region's hash pipeline is full (R33), and with it every later one of its source (R347); it is not dropped itself. -/
def Bobbin.defer (b : Bobbin) (stopped contained : Bool) (x : QItem) : Bobbin :=
  let b := { (if b.owing then b else b.flag flagSpill) with
    queue := b.queue.map (fun y => if y = x then { y with owed := true, ready := x.owed, deferred := true } else y) }
  match b.queue.find? (fun y => !y.owed && y.gap.isNone && y.seg.source = x.seg.source && decide (x.seg.seg < y.seg.seg)) with
  | none => b
  | some y => b.owe stopped contained y.seg.seg

/-- Dropping ends once the owed amount has fallen below half the limit (R349). -/
def Bobbin.recover (b : Bobbin) (stopped : Bool) : Bobbin :=
  { b with dropping := b.dropping && decide (b.limit ≤ 2 * b.owedNow stopped) }

/-! ### The copy that is delivered -/

/-- Set POISON in a record's header (R276). -/
def Rec.poisoned (r : Rec) : Rec :=
  match r.words with
  | [] => r
  | h :: rest => { r with words := (h ||| 0x10000#64) :: rest }

/-- The record's SELVEDGE where it carried captured data (R279): whole frames, block scope for FRAME, else the reduction. -/
def Rec.poisonSelvedge (r : Rec) (source : Nat) : List Rec :=
  match r.captured, r.span with
  | true, some (lo, hi) =>
    let a := floor16 lo
    let len := floor16 hi + 16 - a
    if r.type = 1 then [recSelvedge 9 2 (((r.words.head?).getD 0).toNat / 2 ^ 32 % 64) a len]
    else [recSelvedge 9 4 source a len]
  | _, _ => []

/-- One record whose words at the offsets `bad` failed parity (R279, R320): a PAD where the header word is bad, else the record with
POISON; its body is zero for an evidence bobbin, and a bad word holds a free value otherwise. -/
def Rec.damage (r : Rec) (source : Nat) (evidence : Bool) (ctr : Nat) (bad : List Nat) : List Rec :=
  if bad = [] then [r]
  else if bad.contains 0 then recPad r.words.length true :: r.poisonSelvedge source
  else
    let body := (r.words.drop 1).zipIdx.map (fun p =>
      if evidence then (0 : BitVec 64)
      else if bad.contains (p.2 + 1) then w64 (leNat ((List.range 8).map (fun k => Config.otherByte (8 * p.2 + k) ctr))) else p.1)
    { (r.poisoned) with words := r.poisoned.words.take 1 ++ body } :: r.poisonSelvedge source

/-- Records with the payload word offset at which each starts. -/
def recOffsets (ofs : Nat) (rs : List Rec) : List (Nat × Rec) :=
  match rs with
  | [] => []
  | r :: rest => (ofs, r) :: recOffsets (ofs + r.words.length) rest

/-- The offsets in one record at which the words `bad` of a payload lie, the record starting at ofs. -/
def badIn (bad : List Nat) (ofs : Nat) (r : Rec) : List Nat := (bad.filter (fun w => decide (ofs ≤ w ∧ w < ofs + r.words.length))).map (fun w => w - ofs)

/-- Payload offsets of the words delivered with the poisoned attribute: those that failed parity, each in the place where its record stands in the copy (R352).
`out` is the copy's offset, each record with its first offset in the segment. -/
def poisonedWords (g : Seg) (evidence : Bool) (ctr : Nat) (bad : List Nat) (out : Nat) (rs : List (Nat × Rec)) : List Nat :=
  match rs with
  | [] => []
  | (ofs, r) :: rest =>
    let mine := badIn bad ofs r
    mine.map (fun w => out + w) ++ poisonedWords g evidence ctr bad (out + ((r.damage g.source evidence ctr mine).map (fun x => x.words.length)).sum) rest

/-- A delivered copy some of whose payload words failed parity (R279, R315, R352), with the offsets of the words that are delivered poisoned: of a
compressed payload, all words of the PAD records (notes/assumptions/52.md). -/
def Seg.poison (g : Seg) (evidence : Bool) (ctr : Nat) (bad : List Nat) : Seg × List Nat :=
  if bad = [] then (g, [])
  else
    let crc := some (crc32c g.plain).toNat
    if g.form = 0 then
      let rs := recOffsets 0 g.recs
      let out := rs.flatMap (fun p => p.2.damage g.source evidence ctr (badIn bad p.1 p.2))
      ({ g with items := out.map Item.plain, crc := crc }, poisonedWords g evidence ctr bad 0 rs)
    else
      let pads := g.recs.map (fun r => recPad r.words.length true)
      let sels := g.recs.flatMap (fun r => r.poisonSelvedge g.source)
      ({ g with items := (pads ++ sels).map Item.plain, form := 0, coded := [], crc := crc }, List.range (pads.map (fun r => r.words.length)).sum)

/-- The copies that carry a poisoned segment whose selvedges no longer fit one (R268), each with its poisoned words. -/
def splitPoison (bad : List Nat) (out : Nat) (gs : List Seg) : List (Seg × List Nat) :=
  match gs with
  | [] => []
  | g :: rest =>
    let n := g.uncompLen / 8
    (g, (bad.filter (fun w => decide (out ≤ w ∧ w < out + n))).map (fun w => w - out)) :: splitPoison bad (out + n) rest

/-- The gap segment of a gap item (R350). `next` is FIRST_SI of the next delivered segment of the source. -/
def QItem.gapSeg (q : QItem) (cause : Nat) (next : SI) : Seg :=
  let (a, n) := match q.gapStart, q.gapEnd with
    | some a, some e => (a, e - a)
    | _, _ => (next, 16)
  { q.seg with items := [.plain (recSelvedge cause 4 q.seg.source a n)], form := 0, coded := [], raw := false, gap := true }

/-- c[−1] of a stream (R318, R319). -/
def genesisDigest (stream sequence : Nat) : BitVec 256 :=
  digestNat (sha256 (leBytes 4 0x56454B53 ++ leBytes 2 stream ++ leBytes 2 0 ++ leBytes 8 sequence ++ List.replicate 16 0))

/-- A segment stamped as the next one of stream n (R316, R318). -/
def Seg.stamp (g : Seg) (n : Nat) (x : Stream) : Seg :=
  let g := { g with stream := some n, idx := x.nextIdx }
  { g with chain := digestNat (sha256 (digestBytes x.chain ++ sha256 g.hashed)) }

/-- Whether any record of the segment is a TACK. -/
def Seg.hasTack (g : Seg) : Bool := g.recs.any (fun r => r.type = 0x20)

/-- WR advances over a segment written at it (R339, R354). -/
def Bobbin.write (b : Bobbin) (g : Seg) (gap poison : Bool) : Bobbin :=
  let b' := { b with ring := b.ring ++ [(b.wr, g)], wr := (b.wr + g.len) % b.m2 }
  let fl := (if b.notifyTack && g.hasTack then flagTack else 0)
    ||| (if gap then flagGap else 0) ||| (if poison then flagPoison else 0)
  { (b'.flag fl) with drops := if gap then satInc 8 b.drops else b.drops }

/-- The credit that serves a segment of LEN words: what is left in the visit that `same` continues, else what a new visit adds (R346). -/
def Bobbin.quantum (b : Bobbin) (same : Bool) (len : Nat) : Nat := if same && decide (8 * len ≤ b.credit) then b.credit else b.credit + b.weight * 65536

/-- A visit of the router to the bobbin whose ready segment does not fit: it adds to the credit and serves nothing (R346). -/
def Bobbin.visit (b : Bobbin) : Bobbin := { b with credit := b.credit + b.weight * 65536 }

/-- Deficit credit after a segment of LEN words is served (R346): 0 once no segment is ready. -/
def Bobbin.serve (b : Bobbin) (same : Bool) (len : Nat) : Bobbin :=
  { b with credit := if b.queue.all (fun x => x.isOwed && !x.ready) then 0 else b.quantum same len - 8 * len }

/-- Segments whose words lie between REL and WR stay recorded (R340, R351). -/
def Bobbin.trim (b : Bobbin) (rel : Nat) : Bobbin :=
  { b with ring := b.ring.filter (fun e => decide (b.dist e.1 b.rel ≥ b.dist rel b.rel)), rel := rel }

/-! ### The bobbin table in the state -/

/-- Delivery to the ring is stopped (R412): only host rings stop. -/
def State.ringStopped (s : State) (b : Bobbin) : Bool := !b.loc1 && (s.pcie.blocked || b.held)

/-- Flags that a change from b to b' sets of itself: FILL where unread has reached the threshold from below, SPILL where owing has begun (R354, R355). -/
def Bobbin.notes (b b' : Bobbin) : Bobbin :=
  let thr := b.notify4k * 512
  let fill := decide (b.notify4k ≠ 0 ∧ b.unread < thr ∧ thr ≤ b'.unread)
  b'.flag ((if fill then flagFill else 0) ||| (if !b.owing && b'.owing then flagSpill else 0))

/-- The contexts in the cache once that of bobbin i has been used: the 4,096 most recently used, latest first (R342). -/
def Bobbins.use (x : Bobbins) (i : Nat) : Bobbins := { x with cached := (i :: x.cached.filter (fun k => k ≠ i)).take 4096 }

/-- The outward effect of a bobbin that changed from b to b': the writeback block after each advance of WR and each change of
BOB_STAT (R341), and event 256 + g when a flag of bits [8:1] was set (R355). A stopped link takes no writeback. -/
def State.bobOut (s : State) (i : Nat) (b b' : Bobbin) : State :=
  let b' := b.notes b'
  let wb := decide (b'.wbAddr ≠ 0) && (b.wr ≠ b'.wr || b.stat ≠ b'.stat) && !s.pcie.blocked
  let b' := { b' with wbCount := if wb then b'.wbCount + 1 else b'.wbCount }
  let s := if wb then s.postBytes (.writeback i b'.wbAddr b'.writeback) 16 else s
  let s := { s with bob := { s.bob.use i with tab := tput s.bob.tab i b' } }
  s.raiseIf (b'.flags &&& ~~~b.flags &&& 0x1FE#9 ≠ 0) (256 + i / 512)

/-- Bobbin i changed by f, where it exists. -/
def State.modBob (s : State) (i : Nat) (f : Bobbin → Bobbin) : State :=
  match tfind s.bob.tab i with
  | none => s
  | some b => s.bobOut i b (f b)

/-- A bobbin holds the staged segment as one it has neither accepted nor owed (R24). -/
def Bobbin.waitsFor (b : Bobbin) (seg : Nat) : Bool := b.queue.any (fun q => q.seg.seg = seg && !q.owed && q.gap.isNone)

/-- Segments that R24 lets go leave staging. -/
def State.retire (s : State) : State :=
  { s with data := { s.data with
      staging := s.data.staging.filter (fun g => !g.inDram || s.bob.tab.any (fun e => e.2.waitsFor g.seg.seg)) } }

/-- The bobbins that a source's segments go to: its routes, and for the audit source every active evidence stream's (R343, R344, R447). -/
def State.bobbinsOf (s : State) (id : Nat) : List Nat :=
  let routed := s.bob.routesAt s.time.si id
  if id = specialSource 1 then
    (s.streams.filter (fun e => e.2.active)).foldl (fun l e => ninsert l e.2.bobbin) routed
  else routed

/-- Segment g, committed, offered to every bobbin of its source. -/
def State.offerAll (s : State) (g : Seg) : State :=
  (s.bobbinsOf g.source).foldl (fun s i => s.modBob i (fun b => b.offer (s.ringStopped b) s.pcie.frozen s.time.si
    (if g.source = specialSource 1 ∧ b.stream.isSome then { g with audit := true } else g))) s

/-- The device still holds a copy of segment g (R321, R348, R351): in staging; a stamped one until it is released; by class in its ring, and a
window segment while its window is open. A gap segment has no copy. -/
def State.copyHeld (s : State) (g : Seg) : Bool :=
  let has := fun (r : DramRing) => r.segs.any (fun y => y.seg = g.seg)
  g.stream.isSome || (!g.gap && (s.data.staging.any (fun y => y.seg.seg = g.seg) ||
    (match srcClass g.source with
     | 0 => has ((tfind s.data.lookback (srcRegion g.source)).getD {})
     | 4 => s.cap.slots.any (fun w => decide (2 ≤ w.2.state) && w.2.id = g.windowId)
     | 5 => has s.data.special
     | _ => has s.data.reduction)))

/-- The place where a segment is kept still holds it (R348). -/
def State.held (s : State) (q : QItem) : Bool := q.kept || s.copyHeld q.seg

/-- The hash pipeline that a segment's digest uses (R317). -/
def Seg.hashRegion (g : Seg) (stream : Nat) : Nat :=
  match srcClass g.source with
  | 4 => g.home
  | 5 => stream % 4
  | _ => srcRegion g.source

end Sys2Proof.Machine
end

