-- ==== Sys2Proof/Machine/Writer.lean ====
section
/-! DEFINITION. The region writer (01_architecture.md, 08_stream_format.md): placing records and frame entries in sources, closing
segments, the compression engine, committing to staging, discards when staging is full, and the DRAM rings. -/

namespace Sys2Proof.Machine

/-! ### Commit (R21, R24, R28, R275) -/

/-- Bytes of a segment. -/
def Seg.size (g : Seg) : Nat := 8 * g.len

/-- A segment set among the staged ones: before those of its region that closed in the same FRM cycle and come after it in the order of R21. -/
def stageIn (l : List Staged) (x : Staged) : List Staged :=
  let n := l.length - (l.reverse.takeWhile (fun y => cycleAfter x.seg x.at_ y.seg y.at_)).length
  l.take n ++ [x] ++ l.drop n

/-- The segment enters staging with its number and SEG_INDEX, and is offered to its bobbins. -/
def State.commit (s : State) (g : Seg) : State :=
  let x := s.data.source g.source
  let g := { g with idx := x.nextIdx, seg := s.data.nextSeg }
  let d := s.data
  let s := { s with data := { d with
    sources := tput d.sources g.source { x with nextIdx := x.nextIdx + 1 }
    nextSeg := d.nextSeg + 1
    staging := stageIn d.staging { seg := g, at_ := s.time.si }
    stgPeak := max d.stgPeak (d.fill + g.size)
    trnBytes := d.trnBytes + (if srcClass g.source = 0 then g.size else 0) } }
  s.offerAll g

/-- Staging has room for the segment. -/
def Data.room (d : Data) (g : Seg) : Bool := decide (d.fill + g.size ≤ stagingSize)

/-- What is left of a segment's items when captured data at or above slot x is discarded. -/
def cutItems (x : SI) (is : List Item) : List Item := is.filterMap (keepBelow x)

/-- Staging is full for the segments in region r's queue (R28): captured data of the region from the first frame that cannot be
placed is discarded; what carries none returns to the open segments. -/
def State.stagingFull (s : State) (r : Nat) : State :=
  let rg := s.region r
  match rg.closed with
  | [] => s
  | c :: _ =>
    let x := rg.closed.foldl (fun a e => match e.seg.slots with
      | some (lo, _) => min a (floor16 lo)
      | none => a) (match c.seg.slots with
        | some (lo, _) => floor16 lo
        | none => floor16 s.time.si)
    let x := match rg.discardFrom with
      | some y => min x y
      | none => x
    let back := rg.closed.map (fun e => (e.seg.source, cutItems x e.seg.items))
    let s := s.modRegion r (fun g => { g with closed := [], discardFrom := some x })
    let s := { s with data := s.data.cutRegion r x }
    back.foldr (fun e s => if e.2 = [] then s else s.modSource e.1 (fun y =>
      let o := y.opened.getD (y.fresh s.time.si)
      { y with opened := some { o with items := e.2 ++ o.items } })) s

/-- The engine's counts once a segment of a compressed source is committed: one that bypassed it or stays uncompressed, and the payload of one that it took in
(R334). -/
def Region.noteCommit (g : Region) (c : ClosedSeg) : Region :=
  { g with
    bypass := if c.coder && c.seg.form = 0 && !c.seg.raw then satInc 16 g.bypass else g.bypass
    cmpOut := if c.engine then g.cmpOut + 8 * (c.seg.len - 12) else g.cmpOut }

/-- Closed segments of region r that wait for nothing are committed in closing order (R21, R313). -/
def State.commitReady (s : State) (r fuel : Nat) : State :=
  match fuel with
  | 0 => s
  | k + 1 =>
    match (s.region r).closed with
    | [] => s
    | c :: rest =>
      if c.waits then s
      else if s.data.room c.seg then
        ((s.modRegion r (fun g => { g.noteCommit c with closed := rest })).commit c.seg).commitReady r k
      else s.stagingFull r

/-- Every region's queue is drained as far as it goes. -/
def State.commitRegion (s : State) (r : Nat) : State := s.commitReady r ((s.region r).closed.length + 1)

/-! ### The compression engine (R22, R311) -/

/-- Bytes that the engine takes in one frame: 32 GB/s. -/
def engineRate : Nat := 128

/-- Bytes that may wait in the engine's input queue: 10 µs of its rate (R22). DESIGN CHOICE (notes/assumptions/46.md): the spec gives the average over any
10 µs and no depth. -/
def engineDepth : Nat := 320000

/-- A closed segment enters its region's commit queue: in closing order, and among those of one FRM cycle in the order of their source IDs, which is that
of R21: transitions, state, statistics, messages, the lower group first. -/
def queueClosed (q : List ClosedSeg) (c : ClosedSeg) : List ClosedSeg :=
  let later := fun (y : ClosedSeg) => y.closedAt / 16 = c.closedAt / 16 && decide (c.seg.source < y.seg.source)
  q.takeWhile (fun y => !later y) ++ [c] ++ q.dropWhile (fun y => !later y)

/-- A segment of a window source that belongs to no window goes to the router, where it waits for its bobbins: a window source never loses a segment to a full
bobbin (R224). -/
def State.queueWindow (s : State) (g : Seg) : State :=
  let x := s.data.source g.source
  let g := { g with idx := x.nextIdx, seg := s.data.nextSeg }
  let s := { s with data := { s.data with sources := tput s.data.sources g.source { x with nextIdx := x.nextIdx + 1 }, nextSeg := s.data.nextSeg + 1 } }
  (s.bobbinsOf g.source).foldl (fun s i => s.modBob i (fun b => { b with
    queue := b.queue ++ [({ seg := g, counted := false, since := s.time.si } : QItem)] })) s

/-- Items closed as one segment of the source enter the region's commit queue, or are committed at once for special sources. -/
def State.emit (s : State) (id : Nat) (is : List Item) (mode : Nat) : State :=
  let g : Seg := { source := id, items := is }
  if srcClass id < 4 then
    let r := srcRegion id
    let rg := s.region r
    let frame := s.time.si / 16
    let bucket := rg.cmpBucket - engineRate * (frame - rg.cmpAt)
    let full := decide (engineDepth < bucket + g.uncompLen)
    let chosen := chooseForm mode is (Config.lz4Block s.freeCtr)
    let form := if full then 0 else chosen.1
    let g := if form = 0 then g else { g with form := form, coded := chosen.2 }
    let s := if mode = 0 then s.modRegion r (fun x => { x with closed := queueClosed x.closed { seg := g, closedAt := s.time.si } })
      else (s.modRegion r (fun x => { x with
        closed := queueClosed x.closed { seg := g, waits := decide (form ≠ 0), closedAt := s.time.si, coder := true, engine := !full }
        cmpBucket := if full then bucket else bucket + g.uncompLen
        cmpAt := frame
        cmpIn := if full then x.cmpIn else x.cmpIn + g.uncompLen })).tick
    s.commitRegion r
  else if srcClass id = 4 then s.queueWindow g
  else s.commit g

/-! ### Closing and placing (R268, R274, R282, R301) -/

/-- The slot below which no further edge of the source can come: frames still in the alignment buffers or the burst SRAM of its
blocks, and the frames that the alignment buffers have not released yet (R99). -/
def State.horizon (s : State) (id : Nat) : Option SI :=
  if srcClass id ≠ 0 then none
  else
    let c := (s.region (srcRegion id)).cfg
    let mine := s.blocks.filter (fun e => e.1 / 16 = srcRegion id && blockSource c e.1 = id)
    some (mine.foldl (fun (a : SI) (e : Nat × Block) =>
      (e.2.align.map (fun (x : Aligned) => floor16 (x.time / 64)) ++ e.2.entries.map (fun (x : FrameEntry) => 16 * x.frame)).foldl min a)
      (floor16 (s.time.si - 48)))

/-- The open segment of source id leaves (R274): what stagingFull gave back may be more than one segment, cut at the record that does not fit. -/
def State.closeOpen (s : State) (id : Nat) : State :=
  match (s.data.source id).opened with
  | none => s
  | some o => (chunkItems [] 0 o.finish.items).foldl (fun s is => s.emit id is o.mode) (s.modSource id (fun x => { x with opened := none }))

/-- Room for n more words in source id's open segment, closing what is full first: the next record does not fit (R274). -/
def State.ensureRoom (s : State) (id n : Nat) : State :=
  match (s.data.source id).opened with
  | none => s
  | some o =>
    if o.bytes + 8 * n ≤ payloadMax then s
    else match (chunkItems [] 0 o.finish.items).reverse with
      | last :: x :: full =>
        if 8 * ((last.map Item.size).sum + n) ≤ payloadMax then
          (x :: full).reverse.foldl (fun s is => s.emit id is o.mode)
            (s.modSource id (fun y => { y with opened := some { o with since := s.time.si, items := last, growing := [] } }))
        else s.closeOpen id
      | _ => s.closeOpen id

/-- An item placed in source id's open segment, which it opens where none is. `at_` is the slot from which the flush interval then runs. -/
def State.putNow (s : State) (id : Nat) (i : Item) (at_ : SI) : State :=
  (s.ensureRoom id i.size).modSource id (fun x =>
    let o := x.opened.getD { x.fresh s.time.si with since := at_ }
    { x with opened := some { o with items := putItem o.items i } })

/-- Whether a FRAME record can take one more entry (R280, R282): DELTA within 24 bits, at most 255 words, one anchor interval. -/
def FrameBody.takes (f : FrameBody) (e : FrameEntry) : Bool :=
  let prev := ((f.entries.getLast?).map (fun x => x.frame)).getD (f.base / 16)
  decide (e.frame - prev < 16777216) && decide (e.frame / 65536 = f.base / 1048576) && decide (f.base ≤ 16 * e.frame) &&
    decide (({ f with entries := f.entries ++ [e] } : FrameBody).size ≤ 255) &&
    decide (f.edges.length + e.edges.length ≤ 1004)

/-- A frame entry of block b set in source id's open segment (R280, R282). A full or unfitting FRAME record is finished first. -/
def State.putEntry (s : State) (id b : Nat) (e : FrameEntry) (at_ : SI) : State :=
  let fresh : FrameBody := { block := b, base := 16 * e.frame, entries := [e] }
  let grows := (((s.data.source id).opened.map (fun o => o.growing)).getD []).find? (fun f => f.block = b && f.takes e)
  let s := s.ensureRoom id (match grows with
    | some f => ({ f with entries := f.entries ++ [e] } : FrameBody).size - f.size
    | none => fresh.size)
  s.modSource id (fun x =>
    let o := x.opened.getD { x.fresh s.time.si with since := at_ }
    match o.growing.find? (fun f => f.block = b) with
    | none => { x with opened := some { o with growing := o.growing ++ [fresh] } }
    | some f =>
      if f.takes e then
        { x with opened := some { o with growing := o.growing.map (fun y => if y.block = b then { y with entries := y.entries ++ [e] } else y) } }
      else
        { x with opened := some { o with
            items := insertFrame f o.items
            growing := o.growing.map (fun y => if y.block = b then fresh else y) } })

/-- A record, or a frame entry, that has waited is placed. -/
def State.putWaited (s : State) (id : Nat) (i : Item) (at_ : SI) : State :=
  match i with
  | .plain _ => s.putNow id i at_
  | .frame f => f.entries.foldl (fun s e => s.putEntry id f.block e at_) s

/-- Waiting records of source id are placed as far as no edge can come that must stand before them: those below the horizon h, or all where there is none
(R301). One counts as placed when the alignment buffers have passed the slot that it waited for, 48 slots after it.
DESIGN CHOICE (notes/assumptions/69.md): the spec does not say when the writer takes a record that waits. -/
def State.releaseSource (s : State) (id : Nat) (h : Option SI) : State :=
  let w := (s.data.source id).waiting
  if w = [] then s
  else
    let now := match h with
      | none => w
      | some h => w.takeWhile (fun i => !orderedAfter h i)
    let s := s.modSource id (fun x => { x with waiting := w.drop now.length })
    (now.foldl (fun (a : State × SI) i =>
      let at_ := match i.orderSlot with
        | some x => x + 48
        | none => a.2
      (a.1.putWaited id i (min s.time.si at_), at_)) (s, s.time.si)).1

/-- Waiting records of every source placed as far as they can be. -/
def State.releaseAll (s : State) : State :=
  ((s.data.sources.filter (fun e => e.2.waiting ≠ [])).map (fun e => e.1)).foldl (fun s id => s.releaseSource id (s.horizon id)) s

/-- Whether an item of source id must wait: it is an ANCHOR, TIMESTEP or SLEW above the horizon, or stands after one that waits. -/
def State.itemWaits (s : State) (id : Nat) (i : Item) : Bool :=
  (s.horizon id).any (fun h => orderedAfter h i) || (s.data.source id).waiting.any (fun w => i.behind w)

/-- An item that must wait does so. -/
def State.setWaiting (s : State) (id : Nat) (i : Item) : State :=
  s.modSource id (fun x => { x with waiting := putWaiting x.waiting i })

/-- The open segment of source id is closed (R274), after the waiting records that the horizon h lets be placed. -/
def State.closeAt (s : State) (id : Nat) (h : Option SI) : State := (s.releaseSource id h).closeOpen id

/-- Close with the source's own horizon. -/
def State.closeSource (s : State) (id : Nat) : State := s.closeAt id (s.horizon id)

/-- An item placed in source id, or waiting to be. -/
def State.addItem (s : State) (id : Nat) (i : Item) : State :=
  let s := s.releaseSource id (s.horizon id)
  if s.itemWaits id i then s.setWaiting id i else s.putNow id i s.time.si

/-- Captured data of slot lo that region g does not take: discarded while staging is full (R28), or in a reset span (R497), or
lying in a span that such a discard has reported. -/
def Region.drops (g : Region) (lo : SI) : Bool :=
  (match g.discardFrom with
   | some x => decide (x ≤ lo)
   | none => false) ||
  (match g.rst with
   | some w => decide (w.m ≤ lo) || !w.intake
   | none => false) ||
  g.gaps.any (fun e => decide (e.1 ≤ lo ∧ lo < e.2))

/-- An ANCHOR with RUN_START or RUN_END (R287). -/
def Rec.runAnchor (r : Rec) : Bool := r.type = 0x10 && (((r.words.head?).getD 0).toNat / 2 ^ 20 % 4 ≠ 0)

/-- A record that a source of the run may still take (R228, R229): any while RUNNING; below E, the UNPICKs of E (R171), and at last the
TIMESTEP and ANCHOR of E, while STOPPING. -/
def Capture.takes (c : Capture) (r : Rec) : Bool :=
  match c.runState with
  | 1 => true
  | 2 => match r.span with
    | none => true
    | some (lo, _) => decide (lo < c.runE) || (lo = c.runE && (r.type = 0x23 || (c.ending && (r.type = 0x10 || r.type = 0x11))))
  | _ => false

/-- A record placed in source id (R139, R274). In a region reset, captured data of the span is dropped, other records are held for N,
statistics and late INTERVAL records among them, and anchors of the span are left out (R497). -/
def State.place (s : State) (id : Nat) (r : Rec) : State :=
  if srcClass id < 4 && !s.cap.takes r then s
  else if srcClass id < 4 then
    let g := s.region (srcRegion id)
    let lo := (r.span.map (fun p => p.1)).getD 0
    match g.rst.filter (fun w => !w.cut) with
    | some w =>
      if r.type = 0x10 && !r.runAnchor && decide (w.m ≤ lo) then s
      else if w.intake && decide (lo < w.m) && r.type ≠ 3 then (if r.droppable && g.drops lo then s else s.addItem id (.plain r))
      else if r.droppable && (r.type ≠ 0x58 || decide (w.m ≤ lo)) then s
      else s.modRegion (srcRegion id) (fun x => { x with rst := some { w with held := w.held ++ [(id, r)] } })
    | none => if r.droppable && g.drops lo then s else s.addItem id (.plain r)
  else s.addItem id (.plain r)

/-- A record placed in several sources. -/
def State.placeIn (s : State) (ids : List Nat) (r : Rec) : State := ids.foldl (fun s id => s.place id r) s

/-- A record placed in every active source. -/
def State.placeActive (s : State) (r : Rec) : State := s.placeIn s.active r

/-- The active sources that are routed to a bobbin with PROVISIONAL (R173). -/
def State.provisionalSources (s : State) : List Nat :=
  s.active.filter (fun id => (s.bob.routesAt s.time.si id).any (fun b => ((tfind s.bob.tab b).getD {}).provisional))

/-- A BASTE, SEW or UNPICK record placed (R173). -/
def State.placeProvisional (s : State) (r : Rec) : State := s.placeIn s.provisionalSources r

/-- A frame entry of block b placed in its transitions source, or waiting to be (R280, R282, R301). -/
def State.placeEntry (s : State) (b : Nat) (e : FrameEntry) : State :=
  let g := s.region (b / 16)
  let id := blockSource g.cfg b
  let i := Item.frame { block := b, base := 16 * e.frame, entries := [e] }
  if g.drops (16 * e.frame) || s.cap.runState = 0 then s
  else
    let s := s.releaseSource id (s.horizon id)
    if s.itemWaits id i then s.setWaiting id i else s.putEntry id b e s.time.si

/-- Every open segment of region r closed, as at a run's end or a region reset (R229, R497). -/
def State.closeRegion (s : State) (r : Nat) : State :=
  ((s.data.sources.map (fun e => e.1)).filter (fun id => decide (srcClass id < 4) && srcRegion id = r)).foldl
    (fun s id => s.closeAt id none) s

/-! ### The DRAM rings (R217 to R220, R348) -/

/-- Bytes of a ring. -/
def DramRing.bytes (x : DramRing) : Nat := (x.segs.map Seg.size).sum

/-- Which ring a class is kept in: 0 look-back partition, 1 reduction ring, 2 special area. -/
def ringOf (source : Nat) : Nat := if srcClass source = 0 then 0 else if srcClass source < 4 then 1 else 2

/-- The part has not read segment g yet. -/
def WPart.unread (p : WPart) (g : Seg) : Bool := decide ((tfind p.read g.source).getD 0 ≤ g.seg)

/-- Whether window slot w pins segment g: a part of the segment's region and reduction that has not read it yet (R219, R224). A
reservation pins its history from its start. -/
def WSlot.pins (w : WSlot) (g : Seg) : Bool :=
  decide (srcClass g.source < 4) &&
    (if w.state = 1 then bit w.regions (srcRegion g.source) && bit w.red (srcClass g.source) && decide (w.reqStart ≤ g.lastSi)
     else w.parts.any (fun p => p.region = srcRegion g.source && p.red = srcClass g.source &&
       p.unread g && decide (p.start ≤ g.lastSi)))

/-- Room for g is made in a ring of `cap` bytes: the oldest unpinned segment goes where space is short, and the oldest pinned one while more than `limit`
bytes would be pinned, whether space is short or not (R219). Answers the ring and the pinned segments that were overwritten. -/
def DramRing.makeRoom (x : DramRing) (cap limit : Nat) (pin : Seg → Bool) (g : Seg) (fuel : Nat) : DramRing × List Seg :=
  match fuel with
  | 0 => (x, [])
  | k + 1 =>
    let pinned := ((x.segs.filter pin).map Seg.size).sum + (if pin g then g.size else 0)
    let tooMany := decide (limit < pinned)
    let full := decide (cap < x.bytes + g.size)
    let free := x.segs.find? (fun y => !pin y)
    let held := x.segs.find? pin
    let victim := if tooMany && held.isSome then held
      else if full then (match free with | some v => some v | none => held) else none
    match victim with
    | none => (x, [])
    | some v =>
      let r := srcRegion v.source
      let x' := { x with
        segs := x.segs.filter (fun y => y.seg ≠ v.seg)
        gone := match v.slots with
          | some (_, hi) => tmod x.gone r 0 (fun a => max a (floor16 hi + 16))
          | none => x.gone
        broken := satAdd 8 x.broken (b2n (pin v)) }
      let (y, lost) := x'.makeRoom cap limit pin g k
      (y, if pin v then v :: lost else lost)

/-- The first slot of the oldest frame of region r that the ring holds completely; 0 where it holds none (R218). -/
def DramRing.oldest (x : DramRing) (r : Nat) : SI :=
  match x.segs.filter (fun g => srcRegion g.source = r && g.slots.isSome) with
  | [] => 0
  | g :: rest => max ((tfind x.gone r).getD 0) (floor16 (rest.foldl (fun a y => min a y.firstSi) g.firstSi))

/-- A span without the slots of another. -/
def spanLess (x y : SI × SI) : List (SI × SI) := [(x.1, min x.2 y.1), (max x.1 y.2, x.2)].filter (fun e => decide (e.1 < e.2))

/-- What is left of a span without those of a list: selvedges of one scope and cause in one source never overlap (R231). -/
def spansLess (x : SI × SI) (told : List (SI × SI)) : List (SI × SI) := told.foldl (fun l e => l.flatMap (fun y => spanLess y e)) [x]

/-- A lost span of a source as far as the part has not lost it already. -/
def WPart.newlyLost (p : WPart) (source : Nat) (x : SI × SI) : List (Nat × SI × SI) :=
  (spansLess x (((p.lost ++ p.told).filter (fun e => p.red = 0 || e.1 = source)).map (fun e => e.2))).map (fun y => (source, y))

/-- A span of a source that could not be read, as far as no selvedge of this cause states it yet. -/
def WPart.newlyMarred (p : WPart) (cause source : Nat) (x : SI × SI) : List (Nat × Nat × SI × SI) :=
  (spansLess x ((p.marred.filter (fun e => e.1 = cause && (p.red = 0 || e.2.1 = source))).map (fun e => e.2.2))).map (fun y => (cause, source, y))

/-- Frames of a lost pinned segment, owed to every window that pinned it as a LOOKBACK_OVERWRITTEN selvedge (R219). -/
def WSlot.lose (w : WSlot) (g : Seg) : WSlot :=
  if w.pins g then
    { w with parts := w.parts.map (fun p =>
        if p.region = srcRegion g.source && p.red = srcClass g.source then
          match g.slots with
          | some (lo, hi) => { p with lost := p.lost ++ p.newlyLost g.source (max p.start (floor16 lo), floor16 hi + 16) }
          | none => p
        else p) }
  else w

/-- The window slots after pinned segments were lost (R219). -/
def Capture.loses (c : Capture) (lost : List Seg) : Capture := { c with slots := c.slots.map (fun e => (e.1, lost.foldl WSlot.lose e.2)) }

/-- Some window slot pins the segment. -/
def Capture.pinned (c : Capture) (g : Seg) : Bool := c.slots.any (fun e => e.2.pins g)

/-- The ring of `cap` bytes with g as its newest segment, at the place that follows the segment before it. DESIGN CHOICE (notes/assumptions/72.md): the spec does
not say where in its ring a segment lies. -/
def DramRing.push (x : DramRing) (cap : Nat) (g : Seg) : DramRing :=
  { x with
    segs := x.segs ++ [g], loadBytes := x.loadBytes + g.size
    places := tput (x.places.filter (fun e => x.segs.any (fun y => y.seg = e.1))) g.seg x.next, next := (x.next + g.size) % (if cap = 0 then 1 else cap) }

/-- Partition r of the look-back store with room for g (R217 to R219). -/
def State.lookbackRoom (s : State) (g : Seg) : DramRing × List Seg :=
  let cap := s.cap.partition (srcRegion g.source)
  let x := (tfind s.data.lookback (srcRegion g.source)).getD {}
  x.makeRoom cap (cap * s.cap.pinLimit / 100) s.cap.pinned g (x.segs.length + 1)

/-- The reduction ring with room for g (R219, R220). -/
def State.reductionRoom (s : State) (g : Seg) : DramRing × List Seg :=
  let cap := s.cap.redBytes
  let x := s.data.reduction
  x.makeRoom cap (cap * s.cap.pinLimit / 100) s.cap.pinned g (x.segs.length + 1)

/-- The special area with room for g (R348). -/
def State.specialRoom (s : State) (g : Seg) : DramRing :=
  (s.data.special.makeRoom specialBytes 0 (fun _ => false) g (s.data.special.segs.length + 1)).1

/-- The next request of a port ends self-refresh, with DQS compensation on exit (R377). -/
def State.dramWake (s : State) : State :=
  if s.dram.selfRefresh then
    ({ s with dram := { s.dram with
      selfRefresh := false, dqs := s.dram.dqs + 1, idleSince := s.time.si, refFrom := s.time.si, refDone := 0 } } : State).raise 170
  else s

/-- A staged segment written into the look-back partition of its region. -/
def State.writeLookback (s : State) (g : Seg) : State :=
  let y := s.lookbackRoom g
  ({ s with
    data := { s.data with lookback := tput s.data.lookback (srcRegion g.source) (y.1.push (s.cap.partition (srcRegion g.source)) g) }
    cap := s.cap.loses y.2 } : State).raiseIf (y.2 ≠ []) (regionEvent (srcRegion g.source) 6)

/-- A pinned segment of region r was overwritten in the reduction ring: counted in the region's CAP_LB_PIN.BROKEN, with its event (R219, R220). -/
def State.brokenPin (s : State) (r : Nat) : State :=
  ({ s with data := { s.data with lookback := tmod s.data.lookback r {} (fun x => { x with broken := satInc 8 x.broken }) } } : State).raise (regionEvent r 6)

/-- A staged segment written into the reduction ring. -/
def State.writeReduction (s : State) (g : Seg) : State :=
  let y := s.reductionRoom g
  let s := { s with data := { s.data with reduction := y.1.push s.cap.redBytes g }, cap := s.cap.loses y.2 }
  y.2.foldl (fun s v => s.brokenPin (srcRegion v.source)) s

/-- A staged segment written into the special area. -/
def State.writeSpecial (s : State) (g : Seg) : State :=
  let y := s.specialRoom g
  { s with data := { s.data with special := { (y.push specialBytes g) with loadBytes := y.loadBytes } } }

/-- A staged segment written into its ring (R217, R220, R348). -/
def State.ringWrite (s : State) (g : Seg) : State :=
  match ringOf g.source with
  | 0 => s.writeLookback g
  | 1 => s.writeReduction g
  | _ => s.writeSpecial g

/-- The ring that holds a source's segments, as it stands. -/
def State.ringFor (s : State) (source : Nat) : DramRing :=
  match ringOf source with
  | 0 => (tfind s.data.lookback (srcRegion source)).getD {}
  | 1 => s.data.reduction
  | _ => s.data.special

/-- The 64-byte accesses at which segment g lies in its ring; none where the ring does not hold it. -/
def State.segAccesses (s : State) (g : Seg) : List Nat :=
  match tfind (s.ringFor g.source).places g.seg with
  | some ofs => if (s.ringFor g.source).segs.any (fun y => y.seg = g.seg) then spanAccesses (s.ringArea g.source).1 (s.ringArea g.source).2 ofs g.size else []
  | none => []

/-- A segment is written at its place: its banks are accessed, and markers that stood there are gone (R370, R379). -/
def State.storeSeg (s : State) (g : Seg) : State :=
  let as := s.segAccesses g
  let d := as.foldl (fun d a => d.unmark a) (s.dram.touchAll as s.time.si true)
  { s with dram := { d with wrBytes := d.wrBytes + g.size, idleSince := s.time.si } }

/-- STAGING_DRAM_WRITE_COMPLETE: the staged segment stands in DRAM; it leaves staging once R24 lets it. -/
def execStagingDramWriteComplete (t : SI) (seg : Nat) (s : State) : Host.Outcome State Fault Refusal :=
  let s := s.moment t
  match s.data.staging.find? (fun g => g.seg.seg = seg && !g.inDram) with
  | none => .next s
  | some g =>
    let s := (s.dramWake.ringWrite g.seg).storeSeg g.seg
    .next ({ s with data := { s.data with
      staging := s.data.staging.map (fun x => if x.seg.seg = seg then { x with inDram := true } else x) } } : State).retire

end Sys2Proof.Machine
end

