-- ==== Sys2Proof/Machine/Command.lean ====
section
/-! DEFINITION. The audit log and its CHANGE records (R445 to R449), completion entries (R431, R432), jobs (R441 to R444), and how a
command that is carried out ends. -/

namespace Sys2Proof.Machine

/-! ### The audit log (R446 to R449) -/

/-- Entries of the DRAM log. -/
def logSize : Nat := 524288
/-- Entries of the on-chip log. -/
def onchipSize : Nat := 8192
/-- Entries that R449 keeps back. -/
def logKept : Nat := 16
/-- FREE at which event 5 is raised. -/
def logLow : Nat := 65536

/-- FREE (R448): free DRAM log entries; none before the DRAM log is available. -/
def Log.free (l : Log) : Nat := if l.onchipOnly then 0 else logSize - l.entries.length

/-- Entries that a new record can still take (R449): before training the on-chip log is the limit, by the records made since reset; while a later
training carries the unreleased entries there, by those. -/
def Log.left (l : Log) : Nat :=
  (if !l.onchipOnly then logSize - l.entries.length
   else if l.carried then onchipSize - l.entries.length
   else onchipSize - l.count) - l.reserved

/-- n entries can be reserved (R449). -/
def Log.canReserve (l : Log) (n : Nat) : Bool := !l.unwritable && decide (n + logKept ≤ l.left)

/-- The next SEQUENCE (R446). -/
def Log.next (l : Log) : Nat := l.boot * 2 ^ 40 + l.count % 2 ^ 40

/-- Records, newest first, with one more in its place. -/
def insertEntry (e : LogEntry) (l : List LogEntry) : List LogEntry :=
  match l with
  | [] => [e]
  | x :: rest =>
    if x.sequence < e.sequence then e :: x :: rest
    else if x.sequence = e.sequence then e :: rest
    else x :: insertEntry e rest

/-- The on-chip log takes a record: it keeps the latest 8,192 (R448). -/
def Log.putOnchip (l : Log) (e : LogEntry) : Log := { l with onchip := (insertEntry e l.onchip).take onchipSize }

/-- Even the entries that R449 keeps back are used: of the DRAM log, or of the on-chip log where that is the limit. -/
def Log.full (l : Log) : Bool :=
  if !l.onchipOnly then decide (logSize ≤ l.entries.length)
  else if l.carried then decide (onchipSize ≤ l.entries.length)
  else decide (onchipSize + l.held.length ≤ l.count)

/-- A record among the unreleased ones: one that finds no entry left is counted in LOST (R449). -/
def Log.keep (l : Log) (e : LogEntry) : Log :=
  { l with
    entries := if l.onchipOnly then (l.entries ++ [e]).drop (l.entries.length + 1 - onchipSize) else if l.full then l.entries else l.entries ++ [e]
    lost := if l.full then satInc 16 l.lost else l.lost }

/-- A new record in the log (R447 to R449). While the log is unwritable its write is held; the on-chip log takes it still, unless it is that log that fails
its parity check. -/
def Log.add (l : Log) (e : LogEntry) : Log :=
  let l := if l.unwritable then { l with held := l.held ++ [e] } else l.keep e
  let l := if l.unwritable && l.onchipBad then l else l.putOnchip e
  { l with count := l.count + 1 }

/-- The first 16 bytes of the SHA-256 of the parameters, as the little-endian number of W5 and W6 (R297). -/
def changeDigest (params : List Byte) : Nat := leNat ((sha256 params).take 16)

/-- The CHANGE record that the next change makes. -/
def State.changeRec (s : State) (o : Origin) (opcode status : Nat) (params : List Byte) (si : SI) : Rec :=
  recChange (s.timeFor si) o s.log.next si opcode status (changeDigest params)

/-- A CHANGE record (R445): on-chip log, DRAM log and special source 1 (R447); event 5 when FREE falls to 65,536. -/
def State.change (s : State) (o : Origin) (opcode status : Nat) (params : List Byte) (si : SI) : State :=
  let r := s.changeRec o opcode status params si
  let l := s.log.add { sequence := s.log.next, body := r, onchip := s.log.onchipOnly }
  let low := !l.onchipOnly && decide (l.free ≤ logLow)
  let news := low && !s.log.lowRaised
  (({ s with log := { l with lowRaised := low } } : State).place (specialSource 1) r).raiseIf news 5

/-- n log entries reserved for records still to come. -/
def State.reserve (s : State) (n : Nat) : State := { s with log := { s.log with reserved := s.log.reserved + n } }

/-- n reserved entries given back. -/
def State.unreserve (s : State) (n : Nat) : State := { s with log := { s.log with reserved := s.log.reserved - n } }

/-! ### Completion entries (R431, R432) -/

/-- SQ size in slots. -/
def Ring.sqSize (r : Ring) : Nat := 2 ^ r.sqLog2
/-- CQ size in entries. -/
def Ring.cqSize (r : Ring) : Nat := 2 ^ r.cqLog2
/-- (a − b) mod m. -/
def modDist (m a b : Nat) : Nat := (a + (m - b % m)) % m
/-- The role that the ring is bound to: a disabled ring is bound to none (R438), and `role` then stays that of its fetched packets, which are
carried out (R427). -/
def Ring.bound (r : Ring) : Nat := if r.enable then r.role else 0
/-- CQ entries written and not consumed. -/
def Ring.cqUsed (r : Ring) : Nat := modDist (2 * r.cqSize) r.cqTail r.cqHead
/-- Space for one more entry. -/
def Ring.cqRoom (r : Ring) : Bool := decide (r.cqUsed < r.cqSize)

/-- Ring n. -/
def State.ring (s : State) (n : Nat) : Ring := (tfind s.cmd.rings n).getD {}

/-- Ring n changed by f. -/
def State.modRing (s : State) (n : Nat) (f : Ring → Ring) : State :=
  { s with cmd := { s.cmd with rings := tmod s.cmd.rings n {} f } }

/-- The 32 bytes of an entry (R431): TAG, STATUS, FLAGS, OPCODE, reserved, JOB_ID and five result words. -/
def CplEntry.bytes (e : CplEntry) (phase : Bool) : List Byte :=
  leBytes 2 e.tag.toNat ++ leBytes 1 e.status ++ leBytes 1 (b2n phase + 2 * b2n e.interim + 4 * b2n e.sched) ++ leBytes 2 e.opcode
    ++ leBytes 2 0 ++ leBytes 4 e.jobId ++ (List.range 5).flatMap (fun i => leBytes 4 (e.result.getD i 0))

/-- Entry e written at CQ_TAIL with its PHASE; event 16 + n. -/
def State.writeEntry (s : State) (e : CplEntry) : State :=
  let r := s.ring e.ring
  let at_ := r.cqBase + 32 * (r.cqTail % r.cqSize)
  let s := s.modRing e.ring (fun x => { x with cqTail := (x.cqTail + 1) % (2 * x.cqSize) })
  (s.postBytes (.completion { e with waited := false } at_ (e.bytes (!bit r.cqTail r.cqLog2))) 32).raise (16 + e.ring)

/-- Entry e waits in the hold store: HELD the first time it is found to wait for CQ space (R432, R456). -/
def State.holdEntry (s : State) (e : CplEntry) : State :=
  let full := !(s.ring e.ring).cqRoom
  let s := s.modRing e.ring (fun x => { x with heldFlag := x.heldFlag || (full && !e.waited) })
  { s with cmd := { s.cmd with hold := s.cmd.hold ++ [{ e with waited := e.waited || full }] } }

/-- An entry posted: written at once, or held where delivery is stopped, an earlier entry of the ring is held, or the CQ is full
(HELD). The ring of a discarded entry is disabled and has no space, or was reset (R427, R450). -/
def State.postEntry (s : State) (e : CplEntry) : State :=
  let r := s.ring e.ring
  let s := s.raiseIf (e.status = stInternal) 7
  if r.cqLog2 = 0 then s
  else if !r.enable then (if r.cqRoom && !s.pcie.blocked then s.writeEntry e else s)
  else if s.pcie.blocked || s.cmd.hold.any (fun x => x.ring = e.ring) || !r.cqRoom then
    s.holdEntry e
  else s.writeEntry e

/-- Held entries that can now be written, in order (R432). -/
def State.drainHold (s : State) : State :=
  if s.pcie.blocked then s
  else
    let all := s.cmd.hold
    all.foldl (fun s e =>
      if (s.ring e.ring).cqRoom && !s.cmd.hold.any (fun x => x.ring = e.ring) then s.writeEntry e
      else s.holdEntry e)
      { s with cmd := { s.cmd with hold := [] } }

/-- An entry that ends what FENCE waits for (R434): the accepting entry of a job, or the final entry of any other packet. -/
def fenceEntry (c : Ctx) (status jobId : Nat) : Bool :=
  !c.sched && (status = stJob || (jobId = 0 && status ≠ stDeferred))

/-- A completion entry for the command of context c. -/
def State.complete (s : State) (c : Ctx) (status jobId : Nat) (result : List Nat) : State :=
  match c.reply with
  | none => s
  | some (ring, tag) =>
    let s := if fenceEntry c status jobId then s.modRing ring (fun r => { r with unreplied := r.unreplied - 1 }) else s
    if c.lost then s
    else s.postEntry { ring := ring, tag := tag, status := status, interim := statusInterim status, sched := c.sched,
                       opcode := c.opcode, jobId := jobId, result := result }

/-- The final entry of a command or job whose record has just been made: once that record is in the on-chip log (R447). -/
def State.completeLogged (s : State) (c : Ctx) (status jobId : Nat) (result : List Nat) : State :=
  if s.log.unwritable && s.log.onchipBad then
    { s with log := { s.log with ends := s.log.ends ++ [{ ctx := c, status := status, jobId := jobId, result := result }] } }
  else s.complete c status jobId result

/-- The final entries that waited for their records. -/
def State.postEnds (s : State) : State :=
  s.log.ends.foldl (fun s e => s.complete e.ctx e.status e.jobId e.result) { s with log := { s.log with ends := [] } }

/-- OK, or LATE where the command was carried out later than requested (R436). -/
def Ctx.okStatus (c : Ctx) : Nat := if c.late then stLate else stOk

/-- A command of kind F or C has taken effect at slot b: its CHANGE record, then its final entry (R445, R447). -/
def State.finishAt (s : State) (c : Ctx) (b : SI) (result : List Nat) : State :=
  (s.change c.origin c.opcode c.okStatus c.params b).completeLogged c c.okStatus 0 result

/-- The same at the present frame boundary. -/
def State.finish (s : State) (c : Ctx) (result : List Nat) : State := s.finishAt c s.boundary result

/-- A deferred command is cancelled: its final entry, and what it reserved (R440). -/
def State.cancelAt (s : State) (c : Option Ctx) (b : SI) : State :=
  match c with
  | none => s
  | some c => ((s.unreserve 2).change c.origin c.opcode stCancelled c.params b).completeLogged c stCancelled 0 []

/-- A deferred command cancelled by a command that takes effect at the present boundary. -/
def State.cancelDeferred (s : State) (c : Option Ctx) : State := s.cancelAt c s.boundary

/-- A query ends without a record. -/
def State.answer (s : State) (c : Ctx) (result : List Nat) : State := s.complete c stOk 0 result

/-! ### Jobs (R441 to R444) -/

/-- States in which a job is active. -/
def JobState.active (j : JobState) : Bool := j = .queued || j = .running || j = .suspended

/-- JOB_STATUS coding (R453). -/
def JobState.code : JobState → Nat
  | .queued => 0
  | .running => 1
  | .suspended => 2
  | .done => 3
  | .cancelled => 4
  | .failed => 5

/-- Job n among the active ones. -/
def State.job (s : State) (n : Nat) : Option Job := s.cmd.jobs.find? (fun j => j.id = n)

/-- Job n changed by f. -/
def State.modJob (s : State) (n : Nat) (f : Job → Job) : State :=
  { s with cmd := { s.cmd with jobs := s.cmd.jobs.map (fun j => if j.id = n then f j else j) } }

/-- The next job ID: from 1, wrapping from 0xFFFF_FFFF to 1 (R442). -/
def nextJobId (n : Nat) : Nat := if n ≥ 4294967295 then 1 else n + 1

/-- A job accepted (R441, R445): its CHANGE record and interim entry; one more log entry stays reserved for its end. -/
def State.startJob (s : State) (c : Ctx) (st : JobState) (extra : Nat) : State :=
  let id := s.cmd.nextJob
  let s := { s with cmd := { s.cmd with
    nextJob := nextJobId id
    jobs := s.cmd.jobs ++ [({ id := id, state := st, ctx := c, seen := s.time.si, since := s.time.si } : Job)] } }
  ((s.change c.origin c.opcode stJob c.params s.boundary).reserve (1 + extra)).complete c stJob id []

/-- Log entries that a job still has reserved at its end (R449): CAL_DESKEW with APPLY keeps one more, for the record of R112 that it may make then. -/
def Job.entries (j : Job) : Nat := if j.ctx.opcode = 0x0210 && pField j.ctx.params 12 1 = 1 then 2 else 1

/-- Job n ends (R441): pending controls complete (R444, R453), then its own CHANGE record and final entry, and event 4. -/
def State.endJob (s : State) (n : Nat) (st : JobState) (result : List Nat) : State :=
  match s.job n with
  | none => s
  | some j =>
    let status := if st = .done then stOk else if st = .cancelled then stCancelled else stFailed
    let j' := { j with state := st, result := result, suspendReq := [], cancelReq := [] }
    let s := { s with cmd := { s.cmd with
      jobs := s.cmd.jobs.filter (fun x => x.id ≠ n)
      ended := (j' :: s.cmd.ended).take 64 } }
    let gone := st = JobState.cancelled
    let s := j.suspendReq.foldl (fun s c => (s.unreserve 1).complete c (if gone then stCancelled else stBadState) 0
      (if gone then [] else [st.code])) s
    let s := j.cancelReq.foldl (fun s c =>
      if gone then (s.unreserve 1).finish c [] else (s.unreserve 1).complete c stBadState 0 [st.code]) s
    (((s.unreserve j.entries).change j.ctx.origin j.ctx.opcode status j.ctx.params s.boundary).completeLogged j.ctx status n result).raise 4

/-- An active job of opcode op. -/
def State.jobOf (s : State) (op : Nat) : Option Job := s.cmd.jobs.find? (fun j => j.ctx.opcode = op)

/-- A running job of opcode op. -/
def State.runningOf (s : State) (op : Nat) : Bool := s.cmd.jobs.any (fun j => j.ctx.opcode = op && j.state = .running)

/-- 32 jobs are active (R442). -/
def State.jobsFull (s : State) : Bool := decide (32 ≤ s.cmd.jobs.length)

/-- The origin of a device's own job or recovery (R297). -/
def firmware : Origin := { kind := 3 }

end Sys2Proof.Machine
end

