-- ==== Sys2Proof/Machine/Deliver.lean ====
section
/-! DEFINITION. Evidence streams (R316 to R324) and the delivery of segments into bobbin rings (R339, R345 to R353). -/

namespace Sys2Proof.Machine

/-! ### Evidence streams -/

/-- Stream n. -/
def State.stream (s : State) (n : Nat) : Stream := (tfind s.streams n).getD {}

/-- Stream n changed by f. -/
def State.modStream (s : State) (n : Nat) (f : Stream → Stream) : State := { s with streams := tmod s.streams n {} f }

/-- Signatures are made: an ESK exists, the security unit is not in its error state and no zeroization runs (R464, R481). -/
def State.canSign (s : State) : Bool := s.sec.esk && !s.sec.error && s.sec.zero.isNone

/-- The 64-byte message M of a SIGNATURE record of boundary b (R323). -/
def signMessage (t : Time) (index : Nat) (b : SI) (stream : Nat) (chain : List Byte) (esk : Nat) : List Byte :=
  leBytes 4 0x49534B53 ++ leBytes 2 stream ++ leBytes 1 t.tgen.toNat ++ leBytes 1 (b2n t.coasting) ++ leBytes 8 index ++ leBytes 12 (t.st b) ++ leBytes 4 esk ++
    chain

/-- Old signing keys under which nothing is to be signed any more are erased (R477, R483). -/
def State.dropRetired (s : State) : State :=
  { s with sec := { s.sec with retiring := s.sec.retiring.filter (fun k => s.streams.any (fun e => e.2.due = some k.1)) } }

/-- A SIGNATURE record by key `esk` over the latest hashed segment of stream n, in an audit segment that is the stream's next one (R322, R323);
nothing where no segment is hashed or no signature can be made. -/
def State.signAs (s : State) (n esk : Nat) : State :=
  let x := s.stream n
  if x.hashed = 0 || !s.canSign then s
  else
    let b := s.boundary
    let m := signMessage (s.timeFor b) (x.hashed - 1) b n (digestBytes x.lastChain) esk
    let (sg, s) := s.signature (s.sec.signingKey esk) m
    let r := recSignature (s.timeFor b) (x.hashed - 1) b n (digestBytes x.lastChain) (sg.take 32) (sg.drop 32) esk
    let g : Seg := { seg := s.data.nextSeg, source := specialSource 1, items := [.plain r], audit := true }
    let s := { s with data := { s.data with nextSeg := s.data.nextSeg + 1 } }
    let s := s.modBob x.bobbin (fun b => { b with
      queue := ({ seg := g, counted := false, kept := true, since := s.time.si } : QItem) :: b.queue })
    (s.modStream n (fun x => { x with hashedSince := 0, lastSig := b, due := none, finalSeg := if x.finalDue then some g.seg else x.finalSeg })).dropRetired

/-- A signature of stream n falls due: made at once, or, while a delivered segment is still to be hashed, after it and under the key of now, so that the
record covers the segment before the one that carries it (R298). -/
def State.sign (s : State) (n : Nat) : State :=
  if (s.stream n).toHash = [] then s.signAs n s.sec.eskId
  else s.modStream n (fun x => { x with due := some (x.due.getD s.sec.eskId) })

/-- SIG_MS has passed at slot si since the last signature, or since creation (R322). -/
def Stream.overdue (x : Stream) (si : SI) : Bool := decide (x.lastSig + x.sigMs * 4000000 ≤ si)

/-- A segment that is hashed with n others not yet signed brings a signature (R322). -/
def Stream.cadence (x : Stream) (n : Nat) (si : SI) : Bool := !x.closing && (decide (x.sigSegs ≤ n) || x.overdue si)

/-- The stream's next segment waits for a hash: a signature follows the segments delivered so far (R298, R322). -/
def Stream.waits (x : Stream) (si : SI) : Bool :=
  x.toHash ≠ [] && (x.due.isSome || x.cadence (x.hashedSince + x.toHash.length) si || x.closeSeg.any (fun n => x.toHash.any (fun e => e.1 = n)))

/-- The queue of a bobbin whose stream has ended: audit segments that only the stream brought here go, those of the audit source's own route stay as plain ones
(R324). -/
def endAudit (routed : Bool) (q : List QItem) : List QItem :=
  (q.filter (fun x => !x.seg.audit || routed)).map (fun x => if x.seg.audit then { x with seg := { x.seg with audit := false }, kept := false } else x)

/-- A stream ends: its bobbin's later segments are plain (R324). -/
def State.endStream (s : State) (n : Nat) : State :=
  let x := s.stream n
  let s := s.modStream n (fun x => { x with active := false, closing := false, toHash := [], closeSeg := none, finalSeg := none, finalDue := false, noFinal := false, deferred := none, due := none })
  let routed := (s.bob.routesAt s.time.si (specialSource 1)).contains x.bobbin
  s.modBob x.bobbin (fun b => { b with stream := none, queue := endAudit routed b.queue })

/-- SET_SIGNING create takes effect: segment 0 is an audit segment that begins with this command's CHANGE record (R319, R331). -/
def State.createStream (s : State) (c : Ctx) : State :=
  let n := pField c.params 0 2
  let i := pField c.params 4 4
  let s := s.closeAt (specialSource 1) none
  let q := s.log.next
  let fresh : Stream :=
    { active := true, bobbin := i, sigSegs := pField c.params 8 2, sigMs := pField c.params 10 2, genesis := q,
      chain := genesisDigest n q, lastSig := s.boundary }
  let s := { s with streams := tput s.streams n fresh }
  let s := s.modBob i (fun b => { b with stream := some n })
  (s.finish c []).closeAt (specialSource 1) none

/-- SET_SIGNING close: an audit segment with the close's CHANGE record; the final SIGNATURE follows its hash (R324). -/
def State.closeStream (s : State) (c : Ctx) : State :=
  let n := pField c.params 0 2
  let s := s.finish c []
  let num := s.data.nextSeg
  (s.modStream n (fun x => { x with closing := true, closeSeg := some num })).closeAt (specialSource 1) none

/-- The deferred create of a stream whose close has ended (R439, R440). -/
def State.resumeCreate (s : State) (d : Option Ctx) : State :=
  match d with
  | none => s
  | some c =>
    let i := pField c.params 4 4
    let s := s.unreserve 2
    if s.inDoubt then s.complete c stDoubt 0 []
    else match tfind s.bob.tab i with
      | none => s.complete c stBadState 0 []
      | some b => if b.stream.isSome then s.complete c stBadState 0 []
        else if !s.canSign then s.complete c stBadState 0 []
        else s.createStream c

/-! ### One segment delivered -/

/-- The first item of each source; an audit item goes before all others, which wait for it (R322, R346). -/
def Bobbin.heads (q : List QItem) : List QItem :=
  let au := q.filter (fun x => x.seg.audit)
  let rest := q.filter (fun x => !x.seg.audit)
  let firsts := fun (l : List QItem) => l.filter (fun x => (l.find? (fun y => y.seg.source = x.seg.source)) = some x)
  if au = [] then firsts rest else au.take 1

/-- FIRST_SI of the next segment of a gap's source, for a gap whose segments carried no SI (R350). -/
def Bobbin.nextSi (q : List QItem) (x : QItem) : Option SI :=
  ((q.filter (fun y => y.seg.source = x.seg.source && y.gap.isNone)).head?).map (fun y => y.seg.firstSi)

/-- The copy of an item that the bobbin would receive. -/
def Bobbin.copy (b : Bobbin) (x : QItem) : Option Seg :=
  match x.gap with
  | some cause =>
    match x.gapEnd, Bobbin.nextSi b.queue x with
    | some _, _ => some (x.gapSeg cause 0)
    | none, some n => some (x.gapSeg cause n)
    | none, none => none
  | none => some (x.copyFor b.provisional)

/-- The items that are ready for the bobbin, with their copies: read back where they are owed (R346). -/
def Bobbin.ready (b : Bobbin) : List (QItem × Seg) :=
  (Bobbin.heads b.queue).filterMap (fun x => if x.owed && !x.ready && x.gap.isNone then none else (b.copy x).map (fun g => (x, g)))

/-- The item that the bobbin takes next: one that is ready and no longer than the free space. -/
def Bobbin.next (b : Bobbin) : Option (QItem × Seg) := b.ready.find? (fun p => decide (max p.2.len p.1.need ≤ b.free))

/-- The queue without its first item equal to x. -/
def dropItem (q : List QItem) (x : QItem) : List QItem :=
  match q with
  | [] => []
  | y :: rest => if y = x then rest else y :: dropItem rest x

/-- Bytes that one region's pipeline may hash in any 1 ms (R33): 32 GB/s. -/
def hashLimit : Nat := 32000000

/-- What the region's pipeline has taken in the 1 ms before slot x. -/
def Region.hashRecent (g : Region) (x : SI) (khz : Nat) : List (SI × Nat) := g.hashLog.filter (fun e => decide (x < e.1 + slotsOfNs khz 1000000))

/-- A segment of n bytes would take the region's pipeline above its limit at slot x (R33). -/
def Region.hashFull (g : Region) (x : SI) (khz n : Nat) : Bool := decide (hashLimit < ((g.hashRecent x khz).map (fun e => e.2)).sum + n)

/-- Event n at most once in the present anchor interval, `last` being the interval in which it was last raised. -/
def onceAnchor (s : State) (last : Option Nat) : Bool := last ≠ some (s.time.si / 1048576)

/-- A poisoned read is delivered to a port: event 172, at most once per anchor interval (R380). -/
def State.poisonRead (s : State) : State :=
  ({ s with dram := { s.dram with poisonEvent := some (s.time.si / 1048576) } } : State).raiseIf (onceAnchor s s.dram.poisonEvent) 172

/-- A read that is delivered poisoned (R380). -/
def poisonedKind (k : ReadKind) : Bool := !(k = .clean || k = .corrected)

/-- Word w of a DRAM ring is marked poisoned (R352, R379). -/
def markWords (d : Dram) (m : Tab Nat) (b : Bobbin) (pos : Nat) (ws : List Nat) : Tab Nat :=
  ws.foldl (fun m w => let a := b.ringAddr + 8 * ((pos + w) % b.n); if d.isUnbacked a then m else tput m a 1) m

/-- A segment's bytes written into a DRAM ring at word pointer pos, wrapping at its end (R338, R384). -/
def ringBytes (d : Dram) (b : Bobbin) (pos : Nat) (bs : List Byte) : List Host.Cell :=
  let ofs := 8 * (pos % b.n)
  let room := 8 * b.n - ofs
  d.store (d.store d.mem (b.ringAddr + ofs) (bs.take room)) b.ringAddr (bs.drop room)

/-- The markers of ring words that are written again are gone. -/
def clearMarks (m : Tab Nat) (b : Bobbin) (pos len : Nat) : Tab Nat :=
  (List.range len).foldl (fun m w => tdel m (b.ringAddr + 8 * ((pos + w) % b.n))) m

/-- A segment written into a DRAM ring at WR, the words `bad` poisoned: its bytes, its markers, and the banks accessed (R338, R352, R370, R377). -/
def Dram.storeRing (d : Dram) (b : Bobbin) (g : Seg) (now : SI) (bad : List Nat) : Dram :=
  { (d.touchAll (spanAccesses b.ringAddr (8 * b.n) (8 * (b.wr % b.n)) g.size) now true) with
    wrBytes := d.wrBytes + g.size
    mem := ringBytes d b b.wr g.bytes
    markers := markWords d (clearMarks d.markers b b.wr g.len) b b.wr bad
    idleSince := now }

/-- The service of one link goes to bobbin i. -/
def State.turnTo (s : State) (loc1 : Bool) (i : Nat) : State :=
  { s with bob := if loc1 then { s.bob with turnDram := i } else { s.bob with turnHost := i } }

/-- Segment g written into bobbin i's ring in place of its queue item x; the payload words `bad` are delivered poisoned (R352). -/
def State.deliver (s : State) (i : Nat) (b : Bobbin) (x : QItem) (g : Seg) (bad : List Nat) : State :=
  let stamped := match b.stream with
    | none => g
    | some n => if x.again then g else g.stamp n (s.stream n)
  let isGap := x.gap.isSome
  let b' := ((({ b with queue := dropItem b.queue x }.write stamped isGap (bad ≠ [])).serve (decide ((if b.loc1 then s.bob.turnDram else s.bob.turnHost) = i)) stamped.len)).recover (s.ringStopped b)
  let s := (if b.loc1 then s.dramWake else s).turnTo b.loc1 i
  let s := s.postBytes (.segment i b.wr stamped (bad.map (fun w => w + 4))) (if b.loc1 then 0 else stamped.size)
  let s := if b.loc1 then { s with dram := s.dram.storeRing b stamped s.time.si (bad.map (fun w => w + 4)) } else s
  let s := s.bobOut i b b'
  let s := s.raiseIf (x.gap = some selStopped) 209
  let s := s.raiseIf (x.gap = some selContained) 210
  let s := match b.stream with
    | none => s
    | some n =>
      if x.again then s
      else
        let r := stamped.hashRegion n
        let s := s.modStream n (fun y => { y with
          nextIdx := y.nextIdx + 1, chain := stamped.chain, toHash := y.toHash ++ [(stamped.seg, stamped.chain, r)] })
        let s := s.modRegion r (fun y => { y with
          hashBytes := y.hashBytes + stamped.size, hashLog := y.hashRecent s.time.si s.time.ref.rateKhz ++ [(s.time.si, stamped.size)] })
        let y := s.stream n
        if y.finalSeg = some stamped.seg && y.closing then (s.endStream n).resumeCreate y.deferred else s
  s.retire

/-- A region that is being reset holds a segment of stream n in its pipeline: the stream waits (R324). -/
def State.streamReset (s : State) (n : Nat) : Bool := (s.stream n).toHash.any (fun e => (s.region e.2.2).rstState ≠ 0)

/-- The pipeline still has no room for a segment whose hash it has deferred (R33). -/
def State.hashBusy (s : State) (n : Nat) (q : QItem) (g : Seg) : Bool :=
  q.deferred && (s.region (g.hashRegion n)).hashFull s.time.si s.time.ref.rateKhz (8 * g.len)

/-- The segment that bobbin b has ready for delivery: delivery is not stopped, it fits, and where it is to be hashed, neither a signature comes first nor
is the region of its pipeline being reset (R298, R324, R346). -/
def State.readyFor (s : State) (b : Bobbin) : Option (QItem × Seg) :=
  if s.ringStopped b then none
  else match b.next with
    | none => none
    | some (q, g) => match b.stream with
      | none => some (q, g)
      | some n => if !q.again && ((s.region (g.hashRegion n)).rstState ≠ 0 || (s.stream n).waits s.time.si || s.streamReset n || s.hashBusy n q g) then none
          else some (q, g)

/-- The bobbin that the host link, or the DDR5 controller for DRAM rings, serves next by deficit round robin (R346): the one in service while its credit
lasts, else the next one in ascending order of IDs, cyclically. A visit adds at least the bytes of any segment, so it serves at least one. -/
def State.served (s : State) (loc1 : Bool) : Option Nat :=
  let ready := s.bob.tab.filter (fun e => e.2.loc1 = loc1 && (s.readyFor e.2).isSome)
  let turn := if loc1 then s.bob.turnDram else s.bob.turnHost
  let lasts := ready.find? (fun e => e.1 = turn && (s.readyFor e.2).any (fun p => decide (8 * p.2.len ≤ e.2.credit)))
  ((lasts.or (ready.find? (fun e => decide (turn < e.1)))).or ready.head?).map (fun e => e.1)

/-- Bobbin j comes strictly between `turn` and i in the cyclic order of the service. -/
def passedBy (turn i j : Nat) : Bool :=
  if turn < i then decide (turn < j ∧ j < i) else j ≠ i && (decide (turn < j) || decide (j < i))

/-- The service of one link comes round to bobbin i: the bobbins passed whose ready segments do not fit have each had a visit (R346). DESIGN CHOICE
(notes/assumptions/70.md): a round in which no bobbin is served adds nothing. -/
def State.passVisits (s : State) (loc1 : Bool) (i len : Nat) : State :=
  let turn := if loc1 then s.bob.turnDram else s.bob.turnHost
  let goesOn := turn = i && ((tfind s.bob.tab i).any (fun b => decide (8 * len ≤ b.credit)))
  if goesOn then s
  else { s with bob := { s.bob with tab := s.bob.tab.map (fun (e : Nat × Bobbin) =>
    if e.2.loc1 = loc1 && passedBy turn i e.1 && !s.ringStopped e.2 && e.2.ready ≠ [] && e.2.next.isNone then (e.1, e.2.visit) else e) } }

/-- Every copy that carries a segment, delivered in turn. -/
def State.deliverAll (s : State) (i : Nat) (x : QItem) (gs : List (Seg × List Nat)) : State :=
  gs.foldl (fun s p => match tfind s.bob.tab i with
    | none => s
    | some b => s.deliver i b x p.1 p.2) s

/-- SEGMENT_DELIVERED: bobbin b, whose turn it is (R346), takes its next segment; `badWords` are the payload words that left staging with a parity error.
Nothing is delivered to a bobbin that is not next. A segment of an evidence stream waits for
its region's hash pipeline: one that would take it above 32 GB/s over 1 ms is owed and comes back from backlog, unless the ring has overwritten it by
then; a window segment, which is never owed, waits where it is (R33, R317, R324, R348). -/
def rowSegmentDelivered (t : SI) (b : Fin 262144) (badWords : List Nat) (s : State) : State :=
  let s := s.moment t
  match tfind s.bob.tab b.val with
  | none => s
  | some x =>
    match s.readyFor x with
      | none => s
      | some (q, g) =>
        if s.served x.loc1 ≠ some b.val then s else
        let bad := if q.owed || q.gap.isSome || q.again then [] else badWords.filter (fun w => decide (w + 12 < g.len))
        let (g', words) := g.poison x.stream.isSome s.freeCtr bad
        let out := splitPoison words 0 g'.pieces
        let s := if bad = [] then s else s.tick
        let s := s.passVisits x.loc1 b.val g.len
        let x := (tfind s.bob.tab b.val).getD x
        if x.free < g'.pieceWords then (s.modBob b.val (fun y => { y with
            credit := y.quantum (decide ((if x.loc1 then s.bob.turnDram else s.bob.turnHost) = b.val)) g.len
            queue := y.queue.map (fun z => if z = q then { z with need := g'.pieceWords } else z) })).turnTo x.loc1 b.val
        else match x.stream with
          | none => s.deliverAll b.val q out
          | some n =>
            let r := g'.hashRegion n
            let rg := s.region r
            if q.again then s.deliverAll b.val q out
            else if rg.hashFull s.time.si s.time.ref.rateKhz (8 * g'.pieceWords) then
              let s := (s.modBob b.val (fun y => if srcClass q.seg.source = 4 then
                  { y with queue := y.queue.map (fun z => if z = q then { z with deferred := true } else z) }
                else y.defer (s.ringStopped y) s.pcie.frozen q)).modRegion r
                (fun y => { y with hashDeferred := satInc 16 y.hashDeferred, hashEvent := some (s.time.si / 1048576) })
              (s.raiseIf (onceAnchor s rg.hashEvent) (regionEvent r 12)).retire
            else s.deliverAll b.val q out

/-- Segment `seg` has waited 100 µs in the bobbin's queue, and may be owed: one of a window source never is (R347, R348). -/
def Bobbin.waited (b : Bobbin) (seg : Nat) (khz : Nat) (si : SI) : Bool :=
  b.queue.any (fun q => q.seg.seg = seg && srcClass q.seg.source ≠ 4 && decide (q.since + slotsOfNs khz 100000 ≤ si))

/-- OWE_TIMEOUT: a segment that has waited 100 µs in staging for bobbin b is owed (R347). -/
def execOweTimeout (t : SI) (b : Fin 262144) (seg : Nat) (s : State) : Host.Outcome State Fault Refusal :=
  let s := s.moment t
  .next ((s.modBob b.val (fun x => if x.waited seg s.time.ref.rateKhz s.time.si then x.owe (s.ringStopped x) s.pcie.frozen seg else x)).retire)

/-- The gap item that an owed segment becomes when its backlog no longer holds it, or its read was poisoned (R348, R380, R412). -/
def Bobbin.loseItem (b : Bobbin) (x : QItem) (cause : Nat) : Bobbin :=
  let before := b.queue.takeWhile (fun y => y ≠ x)
  let after := b.queue.drop (before.length + 1)
  { b with queue := gapBetween before x.seg cause x.contained after }

/-- The cause of an owed segment that is overwritten while delivery is `stopped` or not (R350, R412). -/
def QItem.lostCause (x : QItem) (stopped : Bool) : Nat :=
  if x.hostStopped || stopped then (if x.contained then selContained else selStopped) else selBacklog

/-- Hashing of the stream waits: its bobbin's delivery is stopped, or the region whose pipeline holds the segment is reset; then the partial digest is
discarded and the segment hashed again (R324). -/
def State.hashStopped (s : State) (bobbin region : Nat) : Bool :=
  (s.region region).rstState ≠ 0 || (match tfind s.bob.tab bobbin with
    | none => false
    | some b => s.ringStopped b)

/-- SEGMENT_HASH_COMPLETE: the oldest delivered segment of the stream whose hash was outstanding is chained; the cadence or a close may
place a SIGNATURE (R318, R322, R324). A close whose final signature cannot be made ends the stream here (R464, R481). -/
def rowSegmentHashComplete (t : SI) (stream : Fin 4096) (s : State) : State :=
  let s := s.moment t
  let x := s.stream stream.val
  match x.toHash with
  | [] => s
  | (num, ch, r) :: rest =>
    if s.hashStopped x.bobbin r then s else
    let s := s.modStream stream.val (fun y => { y with
      toHash := rest, lastChain := ch, hashed := y.hashed + 1, hashedSince := y.hashedSince + 1
      finalDue := y.finalDue || (y.closing && y.closeSeg = some num) })
    if x.closeSeg = some num && (x.noFinal || !s.canSign) then ((s.endStream stream.val).resumeCreate x.deferred)
    else if rest = [] && x.due.isSome then s.signAs stream.val (x.due.getD 0)
    else if x.closeSeg = some num || x.cadence (x.hashedSince + 1) s.time.si then (s.sign stream.val) else s

/-- SIGNATURE_INTERVAL_EXPIRY: SIG_MS × 4,000,000 slots have passed since the last signature with a segment hashed since (R322). -/
def execSignatureIntervalExpiry (t : SI) (stream : Fin 4096) (s : State) : Host.Outcome State Fault Refusal :=
  let s := s.moment t
  let x := s.stream stream.val
  if x.active && !x.closing && decide (0 < x.hashedSince) && x.overdue s.time.si
  then .next (s.sign stream.val) else .next s

end Sys2Proof.Machine
end

