-- ==== Sys2Proof/Machine/Packet.lean ====
section
/-! DEFINITION. How a packet is examined (R434, R435), scheduled (R67 to R73) and carried out: what differs between opcodes stands in
an OpSpec, one for each row of R437. -/

namespace Sys2Proof.Machine

/-- One opcode of R437: its code, the roles that may submit it, whether it is permitted in doubt, whether AT_ST is, whether it is a
query without a CHANGE record, the log entries it reserves, the checks of R435 steps 7 to 10, the result words of a BAD_PARAM, and its effect. `adapt` and `announce` are the due ST
and the message of a command that a cascade's root sends down (R189). -/
structure OpSpec where
  opcode : Nat
  user : Bool := true
  crypto : Bool := true
  service : Bool := false
  unbound : Bool := false
  doubtOk : State → List Byte → Bool := fun _ _ => false
  sched : Bool := true
  query : Bool := false
  logExempt : Bool := false
  reserve : List Byte → Nat := fun _ => 1
  bad : State → Ctx → Bool
  words : State → List Byte → List Nat := fun _ _ => []
  denied : State → Ctx → Bool := fun _ _ => false
  resetting : State → List Byte → Bool := fun _ _ => false
  badState : State → Ctx → Bool := fun _ _ => false
  defers : State → List Byte → Bool := fun _ _ => false
  busy : State → Ctx → Bool := fun _ _ => false
  hold : Ctx → State → State := fun _ s => s
  adapt : State → Packet → Packet × Bool := fun _ p => (p, false)
  announce : Packet → State → State := fun _ s => s
  effect : Ctx → State → State

/-- The ring's role may submit the opcode (R438). -/
def OpSpec.permits (o : OpSpec) (role : Nat) : Bool :=
  match role with
  | 0 => o.unbound
  | 1 => o.user
  | 2 => o.crypto
  | 3 => o.service
  | _ => false

/-- Steps 8 to 10 of R435, in order: the status that refuses the command, or none. -/
def OpSpec.late (o : OpSpec) (s : State) (c : Ctx) : Option Nat :=
  if o.resetting s c.params then some stResetting
  else if o.badState s c then some stBadState
  else if o.busy s c then some stBusy
  else none

/-- Steps 5 and 6 of R435. -/
def OpSpec.gate (o : OpSpec) (s : State) (c : Ctx) : Option Nat :=
  if s.inDoubt && !o.doubtOk s c.params then some stDoubt
  else if !o.query && !o.logExempt && o.reserve c.params ≠ 0 && !s.log.canReserve (o.reserve c.params) then some stLogFull
  else none

/-- Steps 1, 3, 4, 5, 6 and 7 of R435 for a packet; step 2 found the OpSpec. -/
def OpSpec.early (o : OpSpec) (s : State) (role : Nat) (c : Ctx) (p : Packet) : Option Nat :=
  if p.reservedSet || decide (1 < p.flags.toNat) then some stBadParam
  else if !o.permits role || o.denied s c then some stNotAuth
  else if p.atSt ≠ 0 && !o.sched then some stBadParam
  else match o.gate s c with
    | some st => some st
    | none => if o.bad s c then some stBadParam else none

/-- The command takes effect, or is held while its function shuts down (R439). -/
def OpSpec.carry (o : OpSpec) (c : Ctx) (s : State) : State :=
  if o.defers s c.params then o.hold c ((s.complete c stDeferred 0 []).reserve 2) else o.effect c s

/-- The context of a packet of ring n: its own, or what is left of it after a reset (R417, R427). -/
def packetCtx (opcode : Nat) (p : Packet) (n : Nat := p.ring.val) : Ctx :=
  { origin := { kind := 0, id := p.ring.val }, reply := some (n, p.tag), opcode := opcode, params := p.params, ring := p.ring.val }

/-- Where a packet's ring is kept: under its own number, or under that of what is left of it. -/
def Ctx.home (c : Ctx) : Nat :=
  match c.reply with
  | some r => r.1
  | none => c.ring

/-- A command refused with LOG_FULL is counted, and raises event 6 (R449). -/
def State.countLogFull (s : State) : State := ({ s with log := { s.log with logFull := satInc 16 s.log.logFull } } : State).raise 6

/-- A packet refused with status st (R435): counted. -/
def State.refuse (s : State) (c : Ctx) (st : Nat) (words : List Nat := []) : State :=
  let s := s.modRing c.home (fun r => { r with refused := satInc 16 r.refused })
  (if st = stLogFull then s.countLogFull else s).complete c st 0 words

/-! ### The scheduler (R67 to R73) -/

/-- The lowest free entry number. -/
def Sched.free (x : Sched) : Option Nat := (List.range 256).find? (fun k => (tfind x.entries k).isNone)

/-- The due time of an entry has come at boundary b. -/
def State.entryDue (s : State) (e : SchedEntry) (b : SI) : Bool := decide (e.due ≤ s.stNow b)

/-- Slots that preparation takes (R68). -/
def prepSlots : Nat := 80000

/-- A refused or skipped execution: counted in FAIL_CNT, event 43 (R73, R83). -/
def State.schedFail (s : State) : State :=
  ({ s with sched := { s.sched with failCnt := satInc 8 s.sched.failCnt } } : State).raise 43

/-- An execution later than its R67 boundary: LATE_CNT and event 42 (R71). -/
def State.schedLate (s : State) : State :=
  ({ s with sched := { s.sched with lateCnt := satInc 8 s.sched.lateCnt } } : State).raise 42

/-- The next occurrence of a repeating entry after boundary b: the first on its grid whose ST is not yet reached (R72). -/
def SchedEntry.advance (e : SchedEntry) (now : Nat) : SchedEntry :=
  let k := if now < e.first || e.period = 0 then e.done + 1 else max (e.done + 1) ((now - e.first) / e.period + 1)
  { e with done := k, due := e.first + k * e.period }

/-- A root's scheduled ARM or DISARM goes down the tree and waits for its due ST (R189). -/
def State.again (s : State) (o : OpSpec) (e : SchedEntry) (p : Packet) (casLate : Bool) : State :=
  match s.sched.free with
  | none => s.schedFail
  | some k =>
    let n : SchedEntry := { e with due := p.atSt.toNat, accepted := s.time.si, order := s.sched.nextOrder, repeats := false, casLate := casLate, announced := true }
    o.announce p { s with sched := { s.sched with entries := tput s.sched.entries k n, nextOrder := s.sched.nextOrder + 1 } }

/-- Entry k of opcode o executes at boundary b (R71 to R73). -/
def State.executeEntry (s : State) (o : OpSpec) (k : Nat) (e : SchedEntry) (late : Bool) (b : SI) : State :=
  let c : Ctx := { origin := { kind := 2, id := k }, reply := if e.repeats then none else e.reply, opcode := e.opcode,
                   params := e.packet.params, sched := true, late := late || e.casLate, ring := e.packet.ring.val }
  let e' := e.advance (s.stNow b)
  let more := e.repeats && (e.count = 0 || decide (e'.done < e.count))
  let s := { s with sched := { s.sched with entries := if more then tput s.sched.entries k e' else tdel s.sched.entries k } }
  let s := if late then s.schedLate else s
  let (p, casLate) := if e.announced then (e.packet, false) else o.adapt s e.packet
  match (o.gate s c).or (o.late s c) with
  | some st => (((if st = stLogFull then s.countLogFull else s).schedFail).change c.origin c.opcode st c.params b).completeLogged c st 0 []
  | none => if p.atSt ≠ e.packet.atSt then s.again o { e with reply := c.reply } p casLate else o.carry c s

/-- A packet with AT_ST becomes a scheduler entry, or is refused with BUSY; one whose ST has already passed executes at once with
LATE (R68, R71). -/
def State.scheduleEntry (s : State) (o : OpSpec) (c : Ctx) (p : Packet) (casLate : Bool) : State :=
  match s.sched.free with
  | none => (s.refuse c stBusy).raise 44
  | some k =>
    let e : SchedEntry := { due := p.atSt.toNat, accepted := s.time.si, order := s.sched.nextOrder, packet := p, opcode := c.opcode, reply := c.reply,
                             casLate := casLate, announced := true }
    let s := o.announce p s
    let s := s.modRing c.home (fun r => { r with accepted := satInc 16 r.accepted, unreplied := r.unreplied - 1 })
    let s := { s with sched := { s.sched with entries := tput s.sched.entries k e, nextOrder := s.sched.nextOrder + 1 } }
    let s := s.change c.origin c.opcode stOk c.params s.boundary
    if s.entryDue e s.boundary then s.executeEntry o k e true s.boundary else s

/-! ### Examination (R434, R435) -/

/-- A packet of opcode o examined. A SCHEDULE that finds the table full raises event 44, as a packet with AT_ST does (R83). -/
def State.submit (s : State) (o : OpSpec) (p : Packet) (n : Nat := p.ring.val) : State :=
  let c := packetCtx o.opcode p n
  let s := s.modRing n (fun r => { r with unreplied := r.unreplied + 1 })
  match o.early s (s.ring n).role c p with
  | some st => s.refuse c st (if st = stBadParam then o.words s p.params else [])
  | none =>
    let (p, casLate) := o.adapt s p
    if p.atSt ≠ 0 then s.scheduleEntry o c p casLate
    else match o.late s c with
      | some st => (s.refuse c st).raiseIf (st = stBusy && c.opcode = 0x0110) 44
      | none => o.carry c (s.modRing n (fun r => { r with accepted := satInc 16 r.accepted }))

/-- Fetched packets of the ring are not examined: SOFT_RESET is in progress or the core is down (R501, R506). -/
def State.coreBusy (s : State) : Bool := s.safe.softReset.isSome || s.safe.coreDown

/-- A packet that a firmware swap finds fetched and not yet examined completes with BUSY (R500). -/
def State.swapRefuse (s : State) (c : Ctx) : State :=
  ({ s with safe := { s.safe with swapBusy := satInc 8 s.safe.swapBusy } } : State).complete c stBusy 0 []

/-- A packet waits on the chip: the core is busy, an earlier packet of its ring waits, or it has FENCE and an earlier one has not
posted (R434). -/
def State.mustWait (s : State) (p : Packet) : Bool :=
  s.coreBusy || (s.ring p.ring.val).fetched ≠ [] || bit p.flags.toNat 0 && decide (0 < (s.ring p.ring.val).unreplied)

/-- The ring takes packets: READY, enabled and not stopped (R427, R433, R534). -/
def State.ringLive (s : State) (n : Nat) : Bool := s.startup.ready && (s.ring n).enable && !(s.ring n).stopped

/-- A packet of opcode o has been fetched: it is examined at once, or waits on the chip. -/
def State.receive (s : State) (o : OpSpec) (p : Packet) : State :=
  if !s.ringLive p.ring.val then s
  else if s.safe.swapping then
    (s.modRing p.ring.val (fun r => { r with unreplied := r.unreplied + 1 })).swapRefuse (packetCtx o.opcode p)
  else if s.mustWait p then s.modRing p.ring.val (fun r => { r with fetched := r.fetched ++ [{ opcode := o.opcode, packet := p }] })
  else s.submit o p

/-- Parameters of exactly n bytes. -/
def Ctx.len (c : Ctx) (n : Nat) : Bool := c.params.length = n

/-- Permitted in doubt. -/
def inDoubtYes : State → List Byte → Bool := fun _ _ => true

/-- A simple command: its effect on the state, then its record and entry. -/
def simply (f : List Byte → State → State) (c : Ctx) (s : State) : State := (f c.params s).finish c []

end Sys2Proof.Machine
end

