-- ==== Sys2Proof/Machine/Hk.lean ====
section
/-! DEFINITION. The housekeeping ADC (16_housekeeping_adc.md): its slices and their calibration, the sequence and its triggers, readings
and their records, SET_HK_SEQ and HK_CAL. -/

namespace Sys2Proof.Machine

/-! ### Slices (R517, R518) -/

/-- Slice k. -/
def Hk.slice (h : Hk) (k : Nat) : Slice := h.slices.getD k {}

/-- Slice k changed by f. -/
def Hk.modSlice (h : Hk) (k : Nat) (f : Slice → Slice) : Hk := { h with slices := h.slices.set k (f (h.slice k)) }

/-- The good slices. -/
def Hk.good (h : Hk) : List Nat := (List.range 3).filter (fun k => (h.slice k).good)

/-- The slices in service (R517). -/
def Hk.serving (h : Hk) : List Nat := h.good.filter (fun k => k ≠ h.calSlice)

/-- With three good slices one calibrates in background, slice 2 first; with fewer none does (R517; notes/assumptions/30.md). -/
def Hk.assign (h : Hk) : Hk :=
  if h.good.length < 3 then { h with calSlice := 3 }
  else if h.calSlice = 3 then { h with calSlice := 2 }.modSlice 2 (fun x => { x with done := [] })
  else h

/-- The number of a pair of gain and integration time. -/
def hkPair (gain integ : Nat) : Nat := 6 * gain + integ

/-- The pairs that the loaded sequence uses. -/
def Hk.pairs (h : Hk) : List Nat := h.entries.map (fun e => hkPair e.gain e.integ)

/-- The checks of R518 on one pair: gain within 2 % of nominal, offset within 0.5 % of the span. -/
def hkPassOk (zero fullScale : Int) : Bool :=
  decide ((fullScale - zero - 8388608).natAbs * 50 ≤ 8388608) && decide (zero.natAbs * 200 ≤ 16777216)

/-- Slice k is retired: event 242, and 243 where none is left good. -/
def State.retireSlice (s : State) (k : Nat) : State :=
  let h := (s.hk.modSlice k (fun x => { x with good := false })).assign
  (({ s with hk := h } : State).raise 242).raiseIf (h.good = []) 243

/-! ### Integration time and power (R519, R523) -/

/-- a / b rounded up (R568). -/
def ceilDiv (a b : Nat) : Nat := (a + b - 1) / b

/-- The mains period in ns (R519), as a fraction. -/
def State.mainsFraction (s : State) : Nat × Nat :=
  let n := s.hk.mainsPerEpoch
  match s.hk.mains with
  | 0 => (20000000, 1)
  | 1 => (16666667, 1)
  | _ =>
    if s.time.state = .free || s.time.state = .acquire then
      match s.time.epoch.nominal with
      | none => (20000000, 1)
      | some nom => if s.time.refHzOf = 0 then (20000000, 1) else (nom * 1000000000, s.time.refHzOf * n)
    else (epochUnits * 1000000, s.time.map.rate * s.time.ref.rateKhz * n)

/-- The mains period in ns, rounded up as HKA_MAINS reports it (R531, R568). -/
def State.mainsPeriod (s : State) : Nat := ceilDiv s.mainsFraction.1 s.mainsFraction.2

/-- The integration time of code INTEG in slots: 2^INTEG quarters of the mains period, in whole HK cycles of 40 ns (R519). -/
def State.integSlots (s : State) (integ : Nat) : Nat :=
  let (num, den) := s.mainsFraction
  slotsOfNs s.time.ref.rateKhz (40 * ((2 ^ integ * num + 80 * den) / (160 * den)))

/-- The slot in which the first integration of slice k ends, for an entry that starts at slot b: the lower-numbered slice in service starts
first, the other half an integration later (R517). -/
def Hk.firstEnd (h : Hk) (k : Nat) (b : SI) (integ : Nat) : Option SI :=
  if !h.serving.contains k then none
  else if h.serving.head? = some k then some (b + integ)
  else some (b + integ / 2 + integ)

/-- Slots in d µs. -/
def State.usSlots (s : State) (d : Nat) : Nat := slotsOfNs s.time.ref.rateKhz (1000 * d)

/-- The next trigger is known to lie at most d µs ahead (R523); a continuous sequence has none to wait for. -/
def State.hkSoon (s : State) (d : Nat) : Bool :=
  let soon := s.time.si + s.usSlots d
  match s.hk.trig with
  | 0 => true
  | 1 => s.hk.triggerAt.any (fun x => decide (x ≤ soon))
  | 2 => false
  | _ => decide (s.time.stAt s.time.si / (epochUnits : Int) ≠ s.time.stAt soon / (epochUnits : Int))

/-- The converter idles at slot s.si: powered, or powered down, after which the first entry settles (R523, R524). -/
def State.hkIdle (s : State) : State :=
  if s.hkSoon 400 then s else { s with hk := { s.hk with powered := false, prev := none } }

/-! ### The sequence (R521, R522) -/

/-- The rotation that an entry boundary brings, where the calibrating slice has passed every pair and the period is over (R518). -/
def State.rotateSlices (s : State) (b : SI) : State :=
  let h := s.hk
  let k := h.calSlice
  let due := k < 3 && h.pairs.all (fun p => (h.slice k).done.contains p)
    && decide (h.rotatedAt + 4000000000 * h.calPeriod ≤ b)
  let n := (k + 1) % 3
  let h' := h.modSlice n (fun x => { x with done := [] })
  if due then
    ({ s with hk := { h' with calSlice := n, rotatedAt := b, prev := none, rotations := satInc 8 h.rotations } } : State).raise 245
  else s

/-- Entry e begins at slot b: an entry whose settings differ from the previous conversion's makes the first reading of each slice
in service invalid (R524), and integrations start anew, with the mains period then in use (R519, R521). -/
def State.beginEntry (s : State) (e : Nat) (b : SI) : State :=
  let s := s.rotateSlices b
  let x := s.hk.entries.getD e {}
  let s := { s with hk := { s.hk with mainsNs := s.mainsPeriod, integ := s.integSlots x.integ } }
  let same := match s.hk.prev with
    | some y => y.input = x.input && y.cell = x.cell && y.gain = x.gain && y.integ = x.integ
    | none => false
  { s with hk := { s.hk with
    entry := e
    validLeft := x.readings
    prev := some x
    slices := (List.range 3).map (fun k => { s.hk.slice k with settle := !same, endsAt := s.hk.firstEnd k b s.hk.integ }) } }

/-- A sequence run begins at slot b. -/
def State.startHk (s : State) (b : SI) : State :=
  let h := s.hk.assign
  let n := if h.seqCount ≥ 4294967295 then 1 else h.seqCount + 1
  ({ s with hk := { h with running := true, powered := true, pending := false, rangeEvent := false, seqCount := n } } : State).beginEntry 0 b

/-- After a run: a latched trigger or TRIG 0 starts the next. -/
def State.nextHk (s : State) (b : SI) : State :=
  if s.hk.calJob || !s.hk.enabled then s
  else if s.hk.pending || s.hk.trig = 0 then s.startHk b
  else s.hkIdle

/-- A trigger arrives at slot b (R522). A trigger that waits for the converter's wake counts as latched (notes/assumptions/30.md). -/
def State.triggerHk (s : State) (b : SI) : State :=
  if s.hk.pending then ({ s with hk := { s.hk with overrun := satInc 16 s.hk.overrun } } : State).raise 241
  else if s.hk.running || s.hk.calJob then { s with hk := { s.hk with pending := true } }
  else if s.hk.trig = 2 && !s.hk.powered then
    { s with hk := { s.hk with pending := true, powered := true, triggerAt := some (b + s.usSlots 200) } }
  else s.startHk b

/-- The current entry has produced its valid readings: the next entry, or the end of the run (R521). -/
def State.endEntry (s : State) (b : SI) : State :=
  if s.hk.entry + 1 < s.hk.entries.length then s.beginEntry (s.hk.entry + 1) b
  else ((({ s with hk := { s.hk with running := false } } : State).raise 240).nextHk b)

/-! ### Readings (R525, R526) -/

/-- The span of an input at a gain, in VALUE units (R516). -/
def hkSpan (input gain : Nat) : Nat :=
  (if input < 64 then 16000000 else if 80 ≤ input && input < 88 then 16777216 else 5000000) / 2 ^ gain

/-- OFFSET of an input. -/
def Hk.ofs (h : Hk) (input : Nat) : Int := (tfind h.corrOfs input).getD 0

/-- GAIN of an input. -/
def Hk.gain (h : Hk) (input : Nat) : Nat := (tfind h.corrGain input).getD 16777216

/-- The reading of a slice for entry x: the value of R525 and OVERRANGE. `raw` is in VALUE units at nominal gain and zero offset. -/
def Hk.value (h : Hk) (slice : Nat) (x : HkEntry) (raw : Int) : Int × Bool :=
  let (zero, full) := (tfind (h.slice slice).pairs (hkPair x.gain x.integ)).getD (0, 8388608)
  let w : Int := hkSpan x.input x.gain
  let den := 2 * (full - zero)
  let num := raw * 16777216 - zero * w
  let up := decide (w * den < 2 * num)
  let down := decide (2 * num < -(w * den))
  let (n, d) := if up then (w, (2 : Int)) else if down then (-w, 2) else (num, den)
  let v := (2 * (n - h.ofs x.input * d) * h.gain x.input + d * 16777216) / (2 * d * 16777216)
  (clampInt (-8388607) 8388607 v, up || down)

/-- The HK record of a reading, what counts it, and HKA_LAST. -/
def State.reportReading (s : State) (x : HkEntry) (si : SI) (v : Int) (ovr settle : Bool) : State :=
  let h := s.hk
  let first := ovr && !h.rangeEvent
  let s := { s with hk := { h with
    overrange := if ovr then satInc 8 h.overrange else h.overrange
    rangeEvent := h.rangeEvent || ovr
    last := if settle then h.last else tput h.last h.entry { valid := true, overrange := ovr, value := v } } }
  (s.place (specialSource 0) (recHk x.input h.entry x.gain x.integ si v h.seqCount ovr settle)).raiseIf first 244

/-- A reading-ready pulse is lost at seam 12 (R492): a selvedge takes the record's place. -/
def State.loseReading (s : State) (si : SI) : State :=
  (s.seamLost 12).place (specialSource 0) (recSelvedge selSeam 4 (specialSource 0) (floor16 si) 16)

/-- An integration of slice k ends now, to within 160 slots (R526). -/
def State.hkEnds (s : State) (k : Nat) : Bool := (s.hk.slice k).endsAt.any (fun e => decide (e ≤ s.time.si + 160))

/-- Slice y after a reading: it integrates on at once (R517). -/
def Slice.again (y : Slice) (integ : Nat) : Slice := { y with settle := false, endsAt := y.endsAt.map (· + integ) }

/-- HK_READING: an integration of `slice` ends at slot t; `lost` says that its pulse comes in the acknowledge phase of seam 12. In quiet mode
nothing is lost (R493). -/
def execHkReading (t : SI) (slice : Fin 3) (raw : Int) (lost : Bool) (s : State) : Host.Outcome State Fault Refusal :=
  let s := s.moment t
  let h := s.hk
  if !h.running || !h.serving.contains slice.val || !s.hkEnds slice.val then .next s
  else
    let x := h.entries.getD h.entry {}
    let settle := (h.slice slice.val).settle
    let (v, ovr) := h.value slice.val x raw
    let s := if lost && !s.safe.quiet then s.loseReading s.time.si else s.reportReading x s.time.si v ovr settle
    let left := if settle then s.hk.validLeft else s.hk.validLeft - 1
    let s := { s with hk := { (s.hk.modSlice slice.val (fun y => y.again s.hk.integ)) with validLeft := left } }
    if left = 0 then .next (s.endEntry s.time.si) else .next s

/-- HK_INTERVAL_TRIGGER: the interval of TRIG 1 has passed since the trigger before (R522). -/
def execHkIntervalTrigger (t : SI) (s : State) : Host.Outcome State Fault Refusal :=
  let s := s.moment t
  match s.hk.triggerAt with
  | none => .next s
  | some x =>
    if !s.hk.enabled || s.hk.trig ≠ 1 || decide (s.time.si < x) then .next s
    else .next (({ s with hk := { s.hk with triggerAt := some (x + 4000 * s.hk.intervalUs) } } : State).triggerHk s.time.si)

/-- The epoch trigger of TRIG 3 at an epoch boundary of ST. -/
def State.epochHk (s : State) : State :=
  if s.hk.enabled && s.hk.trig = 3 then s.triggerHk s.time.si else s

/-- HK_WAKE: a powered-down converter powers up 200 µs before its next trigger; with TRIG 2 that trigger has come 200 µs ago, and the
run starts. -/
def execHkWake (t : SI) (s : State) : Host.Outcome State Fault Refusal :=
  let s := s.moment t
  if !s.hk.enabled || s.hk.running || s.hk.calJob then .next s
  else if s.hk.trig = 2 then
    if s.hk.pending && s.hk.triggerAt.any (fun x => decide (x ≤ s.time.si)) then
      .next (({ s with hk := { s.hk with triggerAt := none } } : State).startHk s.time.si)
    else .next s
  else if s.hkSoon 200 then .next { s with hk := { s.hk with powered := true } }
  else .next s

/-! ### SET_HK_SEQ (R528, R530) -/

/-- One entry of a load is good: INPUT, GAIN, INTEG and READINGS in range, ×1 on diodes. -/
def hkEntryOk (p : List Byte) (ofs : Nat) : Bool :=
  let input := pField p ofs 1
  let gain := bits (pField p (ofs + 1) 1) 6 4
  decide (input ≤ 95) && decide (gain ≤ 4) && pBits p (ofs + 1) 7 && decide (pField p (ofs + 2) 1 ≤ 5) && decide (1 ≤ pField p (ofs + 3) 1)
    && !(decide (80 ≤ input ∧ input ≤ 87) && gain ≠ 0)

/-- A load is malformed. -/
def hkLoadBad (p : List Byte) : Bool :=
  let n := pField p 1 1
  !pIn p 1 1 1 16 || !(p.length = 16 + 4 * n) || !pIn p 2 1 0 3 || !pIn p 3 1 0 2
    || !(if pField p 3 1 = 2 then pIn p 4 2 1 1000 else pZero p 4 2) || !pIn p 6 2 1 3600
    || !(if pField p 2 1 = 1 then pIn p 8 4 1000 3600000000 else pZero p 8 4) || !pZero p 12 4
    || !(List.range n).all (fun e => hkEntryOk p (16 + 4 * e))

/-- A correction is malformed. -/
def hkCorrectionBad (p : List Byte) : Bool :=
  let n := pField p 2 1
  !pIn p 1 1 0 95 || !pIn p 2 1 1 96 || !(p.length = 8 + 8 * n) || decide (96 < pField p 1 1 + n) || !pZero p 3 5
    || !(List.range n).all (fun i => pIn p (12 + 8 * i) 4 8388608 33554432)

/-- SET_HK_SEQ with bad parameters. -/
def setHkSeqBad (p : List Byte) : Bool :=
  match pField p 0 1 with
  | 0 => hkLoadBad p
  | 1 => hkCorrectionBad p
  | 2 => !(p.length = 8) || !pZero p 1 7
  | 3 => !(p.length = 8) || !pZero p 1 7
  | _ => true

/-- OP 2 needs an enabled sequence with TRIG 2. -/
def setHkSeqBadState (s : State) (p : List Byte) : Bool := pField p 0 1 = 2 && (!s.hk.enabled || s.hk.trig ≠ 2)

/-- Entry e of a load. -/
def hkEntryOf (p : List Byte) (e : Nat) : HkEntry :=
  let o := 16 + 4 * e
  { input := pField p o 1, cell := bits (pField p (o + 1) 1) 3 0, gain := bits (pField p (o + 1) 1) 6 4, integ := pField p (o + 2) 1,
    readings := pField p (o + 3) 1 }

/-- A load: the new sequence is enabled at boundary b, and starts there with TRIG 0 or 1 (R522, R527). -/
def State.loadHk (s : State) (p : List Byte) (b : SI) : State :=
  let trig := pField p 2 1
  let interval := pField p 8 4
  let s : State := { s with hk := { s.hk with
    enabled := true
    running := false
    pending := false
    seqCount := 0
    last := []
    prev := none
    entry := 0
    entries := (List.range (pField p 1 1)).map (hkEntryOf p)
    trig := trig
    mains := pField p 3 1
    mainsPerEpoch := pField p 4 2
    calPeriod := pField p 6 2
    intervalUs := interval
    triggerAt := if trig = 1 then some (b + 4000 * interval) else none } }
  if trig ≤ 1 then s.triggerHk b else s.hkIdle

/-- Corrections of the inputs from FIRST on. -/
def Hk.correct (h : Hk) (p : List Byte) : Hk :=
  (List.range (pField p 2 1)).foldl (fun h i =>
    { h with
      corrOfs := tput h.corrOfs (pField p 1 1 + i) (pInt p (8 + 8 * i) 4)
      corrGain := tput h.corrGain (pField p 1 1 + i) (pField p (12 + 8 * i) 4) }) h

/-- The sequence disabled: conversions abandoned, the converter powers down (R527). -/
def Hk.disable (h : Hk) : Hk := { h with enabled := false, running := false, powered := false, pending := false, prev := none, triggerAt := none }

/-- SET_HK_SEQ. -/
def setHkSeq (p : List Byte) (s : State) : State :=
  match pField p 0 1 with
  | 0 => s.loadHk p s.boundary
  | 1 => { s with hk := s.hk.correct p }
  | 2 => s.triggerHk s.boundary
  | _ => { s with hk := s.hk.disable }

/-! ### HK_CAL (R529) -/

/-- HK_CAL with bad parameters. -/
def hkCalBad (p : List Byte) : Bool := !(p.length = 8) || !pBits p 0 1 || !pZero p 1 7

/-- Another HK_CAL is active. -/
def hkCalBadState (s : State) : Bool := (s.jobOf 0x0A10).isSome

/-- The converter turns to an HK_CAL job: conversions are abandoned and the sequence pauses (R527). -/
def Hk.beginCal (h : Hk) : Hk := { h with running := false, powered := true, calJob := true, calDone := [], prev := none }

/-- HK_CAL accepted. -/
def hkCalEffect (c : Ctx) (s : State) : State :=
  let s := s.startJob c .running 0
  { s with hk := s.hk.beginCal }

/-- The result words of R529. -/
def Hk.calWords (h : Hk) : List Nat :=
  [((List.range 30).filter (fun p => (List.range 3).any (fun k => h.calDone.contains (30 * k + p)))).length,
   3 - h.good.length, h.good.length]

/-- An HK_CAL job has ended: a latched or continuous run starts, with settling. -/
def State.endHkCal (s : State) : State :=
  let h := s.hk.assign
  let s : State := { s with hk := { h with calJob := false, calDone := [] } }
  s.nextHk s.time.si

/-- The pair of slice k has passed with these readings. -/
def Hk.passed (h : Hk) (k pair : Nat) (zero fullScale : Int) : Hk :=
  h.modSlice k (fun x => { x with pairs := tput x.pairs pair (zero, fullScale), done := ninsert x.done pair })

/-- A pass of an HK_CAL job: a retired slice that REQUALIFY covers is good again once all its pairs have passed. -/
def State.calPass (s : State) (requalify : Bool) (k pair : Nat) (zero fullScale : Int) : State :=
  let good := (s.hk.slice k).good
  if !good && !requalify then s
  else if hkPassOk zero fullScale then
    let h := { (s.hk.passed k pair zero fullScale) with calDone := ninsert s.hk.calDone (30 * k + pair) }
    let all := (List.range 30).all (fun p => h.calDone.contains (30 * k + p))
    { s with hk := h.modSlice k (fun x => { x with good := x.good || all }) }
  else if good then s.retireSlice k
  else s

/-- HK_CAL_PASS: `slice` has read the zero and the full-scale reference for one pair, in 2^-24 of the span. -/
def execHkCalPass (t : SI) (slice : Fin 3) (gain : Fin 5) (integ : Fin 6) (zero fullScale : Int) (s : State) :
    Host.Outcome State Fault Refusal :=
  let s := s.moment t
  let pair := hkPair gain.val integ.val
  if s.hk.calJob then
    match s.jobOf 0x0A10 with
    | some j => if j.state = .running then .next (s.calPass (bit (pField j.ctx.params 0 1) 0) slice.val pair zero fullScale) else .next s
    | none => .next s
  else if !s.hk.enabled || s.hk.calSlice ≠ slice.val || !s.hk.pairs.contains pair then .next s
  else if hkPassOk zero fullScale then .next { s with hk := s.hk.passed slice.val pair zero fullScale }
  else .next (s.retireSlice slice.val)

end Sys2Proof.Machine
end

