-- ==== Sys2Proof/Machine/Pins.lean ====
section
/-! DEFINITION. TRIG_OUT pins (R148 to R151, R175 to R178): deciding, asserting and ending pulses, and cancel patterns. -/

namespace Sys2Proof.Machine

/-- Pin n. -/
def State.out (s : State) (n : Nat) : TrigOut := (tfind s.pins.out n).getD {}

/-- Pin n changed by f. -/
def State.modOut (s : State) (n : Nat) (f : TrigOut → TrigOut) : State :=
  { s with pins := { s.pins with out := tmod s.pins.out n {} f } }

/-- The level at the ball: the active level while active, the inactive one otherwise (R148). -/
def TrigOut.level (x : TrigOut) : Bool := x.active != x.polarity

/-- The frame boundary that ends the present FRM cycle: where a decision of this cycle reaches the pins and the run (R133, R151). -/
def State.cycleEnd (s : State) : SI := floor16 s.time.si + 16

/-- The first frame boundary at or after a fine time. -/
def ceilFrame (f : FineTime) : SI := ceil16 ((f + 63) / 64)

/-- A pulse decided at boundary `now` for a tack at fine time `tack` (R150): aligned, at the first boundary at or after tack time +
DELAY_NS, late where that boundary has passed; else at `now`. -/
def TrigOut.schedule (x : TrigOut) (khz : Nat) (tack : FineTime) (now : SI) (baste : Option (Nat × Nat)) : TrigOut :=
  let due := if x.align then ceilFrame (tack + (x.delayNs * khz * 64 + 999999) / 1000000) else now
  { x with due := x.due ++ [{ at_ := max due now, aligned := x.align, late := x.align && decide (due < now), baste := baste }] }

/-- The source bits of SET_TRIGOUT (R163). -/
def srcLive : Nat := 0
/-- Forced tacks. -/
def srcForced : Nat := 1
/-- DRIVE actions. -/
def srcDrive : Nat := 2
/-- Retro-tacks. -/
def srcRetro : Nat := 3

/-- Pulses decided on every pin that `sel` chooses; none in doubt (R144, R148). -/
def State.pulse (s : State) (sel : Nat → TrigOut → Bool) (tack : FineTime) (now : SI) (baste : Option (Nat × Nat)) : State :=
  if s.inDoubt then s
  else (List.range 8).foldl (fun s n =>
    if sel n (s.out n) then s.modOut n (fun x => x.schedule s.time.ref.rateKhz tack now baste) else s) s

/-- The key of a baste on the pins: origin and number; sequencer 0's own bastes use an origin that no unit ID can have. -/
def localKey (number : Nat) : Nat × Nat := (16384, number)

/-- A baste leaves the pins by a sew: it no longer awaits a cancel. -/
def State.resolvePins (s : State) (key : Nat × Nat) : State :=
  (List.range 8).foldl (fun s n => s.modOut n (fun x => { x with shown := x.shown.filter (fun e => e.key ≠ key) })) s

/-- One pin's answer to an unpick (R176, R178): the pulse is withheld where it is not yet asserted, else a cancel pattern falls due,
which doubt discards. -/
def State.unpickPin (s : State) (n : Nat) (key : Nat × Nat) : State :=
  let x := s.out n
  if x.due.any (fun d => d.baste = some key) then
    let s := s.modOut n (fun x => { x with due := x.due.filter (fun d => d.baste ≠ some key) })
    ({ s with pins := { s.pins with withheld := satInc 8 s.pins.withheld } } : State).raise 141
  else match x.shown.find? (fun e => e.key = key) with
    | none => s
    | some p =>
      if s.inDoubt then
        let s := s.modOut n (fun x => { x with shown := x.shown.filter (fun e => e.key ≠ key) })
        { s with pins := { s.pins with discarded := satInc 8 s.pins.discarded } }
      else s.modOut n (fun x => { x with
        shown := x.shown.filter (fun e => e.key ≠ key)
        cancels := x.cancels ++ [{ p with at_ := max (p.fin + 32) s.cycleEnd }] })

/-- An unpicked baste on every pin. -/
def State.unpickPins (s : State) (key : Nat × Nat) : State := (List.range 8).foldl (fun s n => s.unpickPin n key) s

/-- A pin at its inactive level, with nothing due (R148, R178). The basted pulses it has driven stay known until doubt ends: a cancel for one of
them is discarded. -/
def TrigOut.quiet (x : TrigOut) : TrigOut :=
  { x with active := false, due := [], cancels := [], guardUntil := 0, cancelUntil := 0 }

/-- Doubt has ended: the basted pulses driven before it have been withdrawn by FAULT_N (R178). -/
def State.forgetPulses (s : State) : State :=
  { s with pins := { s.pins with out := s.pins.out.map (fun e => (e.1, { e.2 with shown := [] })) } }

/-- Pulses cut off and everything due discarded on every pin at doubt entry. -/
def State.quietPins (s : State) : State :=
  let lost := (s.pins.out.map (fun e => e.2.cancels.length)).sum
  let downs := (s.pins.out.filter (fun e => e.2.active)).map (fun e => Posted.pin e.1 e.2.polarity)
  { s with
    pins := { s.pins with out := s.pins.out.map (fun e => (e.1, e.2.quiet)), discarded := satAdd 8 s.pins.discarded lost }
    obs := { s.obs with posted := downs.reverse ++ s.obs.posted } }

/-- A pin's pulse begins at slot b for the due pulse d (R148, R149). -/
def State.assertPulse (s : State) (n : Nat) (d : DuePulse) (b : SI) : State :=
  let x := s.out n
  let fin := b + 16 * x.width
  let s := s.modOut n (fun x => { x with
    active := true, began := b, until_ := max fin (if x.active then x.until_ else 0)
    shown := match d.baste with
      | some k => x.shown ++ [{ key := k, began := b, fin := fin }]
      | none => x.shown
    due := x.due.erase d })
  let s := if x.active then ({ s with pins := { s.pins with merged := satInc 8 s.pins.merged } } : State).raise 135
    else s.post (.pin n (!x.polarity))
  if d.late then ({ s with pins := { s.pins with late := satInc 8 s.pins.late } } : State).raise 134 else s

/-- The boundary at which an owed cancel can begin: when it is due, two frames after the pin's latest pulse, and not in other guard frames. -/
def TrigOut.cancelFrom (x : TrigOut) (c : Basted) : SI := max (max c.at_ (if 0 < x.until_ then x.until_ + 32 else 0)) x.guardUntil

/-- Where boundary b lies in the guard frames of a cancel pattern, or in the pattern, the end of its guard frames (R176). -/
def TrigOut.guardEnd (x : TrigOut) (b : SI) : Option SI :=
  match x.cancels.find? (fun c => decide (x.cancelFrom c ≤ b + 32)) with
  | some c => some (max (x.cancelFrom c) b + 64)
  | none => if b < x.guardUntil then some x.guardUntil else none

/-- TRIG_OUT_ASSERT: the pulses of the pin that are due by now assert. During a cancel pattern and its guard frames they wait for
the guard's end, late where aligned (R176); in doubt none asserts (R148). -/
def execTrigOutAssert (t : SI) (pin : Fin 8) (s : State) : Host.Outcome State Fault Refusal :=
  let s := s.moment t
  let b := s.boundary
  let x := s.out pin.val
  let ready := x.due.filter (fun d => decide (d.at_ ≤ b))
  if s.inDoubt then .next s
  else match x.guardEnd b with
  | some g =>
    .next (s.modOut pin.val (fun x => { x with
      due := x.due.map (fun d => if d.at_ ≤ b then { d with at_ := g, late := d.late || d.aligned } else d) }))
  | none => .next (ready.foldl (fun s d => s.assertPulse pin.val d b) s)

/-- TRIG_OUT_PULSE_END: an active pin whose time has come returns to its inactive level (R148). -/
def execTrigOutPulseEnd (t : SI) (pin : Fin 8) (s : State) : Host.Outcome State Fault Refusal :=
  let s := s.moment t
  let x := s.out pin.val
  if x.active && decide (x.until_ ≤ s.boundary) then
    .next ((s.modOut pin.val (fun x => { x with active := false })).post (.pin pin.val x.polarity))
  else .next s

/-- CANCEL_PATTERN: the first cancel of the pin that is due drives its 2-frame pulse, once the pin has been inactive for 2 frames; none in
doubt (R176, R178). -/
def execCancelPattern (t : SI) (pin : Fin 8) (s : State) : Host.Outcome State Fault Refusal :=
  let s := s.moment t
  let b := s.boundary
  let x := s.out pin.val
  match x.cancels.find? (fun c => decide (x.cancelFrom c ≤ b)) with
  | none => .next s
  | some c =>
    if s.inDoubt || x.active then .next s
    else
      let ambiguous := x.shown.any (fun p => decide (c.began < p.began))
      let s := s.modOut pin.val (fun x => { x with
        cancels := x.cancels.erase c, active := true, began := b, until_ := b + 32, cancelUntil := b + 32, guardUntil := b + 64 })
      let s := ({ s with pins := { s.pins with
        cancels := satInc 8 s.pins.cancels
        ambig := if ambiguous then satInc 8 s.pins.ambig else s.pins.ambig } } : State).post (.pin pin.val (!x.polarity))
      .next ((s.raise 140).raiseIf ambiguous 141)

end Sys2Proof.Machine
end

