-- ==== Sys2Proof/Machine/Windows.lean ====
section
/-! DEFINITION. Windows (R221 to R227): requests, reservations, parts, reading history and closing. -/

namespace Sys2Proof.Machine

/-- Window slot w. -/
def Capture.slot (c : Capture) (w : Nat) : Option WSlot := tfind c.slots w

/-- Window slot w changed by f. -/
def State.modSlot (s : State) (w : Nat) (f : WSlot → WSlot) : State :=
  { s with cap := { s.cap with slots := match tfind s.cap.slots w with
      | some x => tput s.cap.slots w (f x)
      | none => s.cap.slots } }

/-- The lowest free window slot. -/
def Capture.freeSlot (c : Capture) : Option Nat := (List.range 64).find? (fun w => (tfind c.slots w).isNone)

/-- req_start and req_end of a request at slot t (R221). -/
def reqSpan (t pre post : Nat) : SI × SI := (floor16 (t - pre), floor16 (t + post) + 15)

/-- The ring that holds a reduction of region r. -/
def State.ringOf (s : State) (r red : Nat) : DramRing :=
  if red = 0 then (tfind s.data.lookback r).getD {} else s.data.reduction

/-- The delivered start d of one part (R222): the latest of req_start, the run's start boundary and the oldest frame held. -/
def State.deliveredStart (s : State) (r red : Nat) (reqStart runB : SI) : SI :=
  max (max reqStart runB) ((tfind (s.ringOf r red).gone r).getD 0)

/-- The sources of a part: those that the region's reduction has now, and those that the ring still holds segments of; the first one where there is none. -/
def State.partSources (s : State) (r k : Nat) : List Nat :=
  let mine := fun (id : Nat) => srcClass id = k && srcRegion id = r
  let ids := ((s.ringOf r k).segs.map (fun g => g.source)).foldl (fun l id => if mine id then ninsert l id else l) ((s.sourcesOf r).filter mine)
  if ids = [] then [k * 16777216 + r * 65536] else ids

/-- The parts of a window, by region and then reduction. -/
def State.windowParts (s : State) (regions red : Nat) (reqStart runB : SI) : List WPart :=
  (List.range 4).flatMap (fun r => if !bit regions r then [] else
    (List.range 4).filterMap (fun k => if !bit red k then none else
      let d := s.deliveredStart r k reqStart runB
      some { region := r, red := k, sources := s.partSources r k, start := d, pos := d }))

/-- The selvedges of one part's missing span (R222): with scope region for transitions, else one for each source of the part (R295). -/
def partSelvedges (p : WPart) (reqStart runB : SI) : List Rec :=
  let mk := fun cause a e => if a < e then
      (if p.red = 0 then [recSelvedge cause 1 p.region a (e - a)] else p.sources.map (fun id => recSelvedge cause 4 id a (e - a)))
    else []
  mk selRunStart reqStart (min runB p.start) ++ mk selOverwritten (max reqStart runB) p.start

/-- Windows in use. -/
def Capture.inUse (c : Capture) : Nat := c.slots.length

/-- The next window ID, from 1 and wrapping to 1 (R223). -/
def nextWindowId (n : Nat) : Nat := if n ≥ 4294967295 then 1 else n + 1

/-- The slot takes its window ID, its parts and state 2; SHORT_PRE and event 15 where the delivered pre falls short (R222, R241). -/
def State.openSlot (s : State) (k : Nat) (w : WSlot) (runB : SI) : State :=
  let id := nextWindowId s.cap.lastId
  let parts := s.windowParts w.regions w.red w.reqStart runB
  let latest := parts.foldl (fun a p => max a p.start) w.reqStart
  let short := w.exportJob.isNone && decide (w.t < latest + w.pre)
  let w := { w with state := 2, id := id, runB := runB, parts := parts, pos := 0, openOrder := s.cap.winSeq,
                    stopped := w.stopped || (s.cap.runState ≠ 1 && decide (s.cap.runE ≤ w.reqEnd) && w.exportJob.isNone),
                    reqEnd := if s.cap.runState ≠ 1 && w.exportJob.isNone then min w.reqEnd (s.cap.runE - 1) else w.reqEnd }
  let c := s.cap
  let slots := tput c.slots k w
  ({ s with cap := { c with
      slots := slots, lastId := id, winOpened := satInc 16 c.winOpened, winSeq := c.winSeq + 1, peak := max c.peak slots.length
      shortPre := if short then satInc 8 c.shortPre else c.shortPre } } : State).raiseIf short 15

/-- A request refused (R225): WINDOW_REFUSED in the policy's source, counted, event 14. -/
def State.refuseWindow (s : State) (policy : Nat) (r : TackRef) (reason : Nat) : State :=
  let s := s.place (winSource policy) (recRefused r policy reason)
  ({ s with cap := { s.cap with refused := satInc 8 s.cap.refused } } : State).raise 14

/-- The open window that a request joins (R226): of the same merging policy, the one opened most recently. -/
def Capture.joinable (c : Capture) (policy : Nat) (a : SI) : Option (Nat × WSlot) :=
  (c.slots.filter (fun e => decide (2 ≤ e.2.state) && e.2.merge && e.2.policy = policy && e.2.exportJob.isNone &&
      decide (e.2.reqStart ≤ a ∧ a ≤ e.2.reqEnd + 1) && decide (e.2.tacks.length < 64))).foldl
    (fun b e => match b with
      | none => some e
      | some x => if x.2.openOrder < e.2.openOrder then some e else some x) none

/-- A window requested on a tack, mark or retro-tack (R221, R225, R226). -/
def State.requestWindow (s : State) (policy : Nat) (r : TackRef) : State :=
  let p := (tfind s.cap.policies policy).getD {}
  if !p.valid then s.refuseWindow policy r 1
  else
    let (a, e) := reqSpan r.si p.pre p.post
    match if p.merge then s.cap.joinable policy a else none with
    | some (k, _) =>
      let limit := if s.cap.runState ≠ 1 then s.cap.runE - 1 else max a e
      let s := s.modSlot k (fun w => { w with
        reqEnd := max w.reqEnd (min e limit), tacks := w.tacks ++ [r], merged := true, stopped := w.stopped || decide (limit < e) })
      { s with cap := { s.cap with winJoined := satInc 16 s.cap.winJoined } }
    | none =>
      match s.cap.freeSlot with
      | none => s.refuseWindow policy r 0
      | some k => s.openSlot k { state := 2, policy := policy, merge := p.merge, regions := p.regions, red := p.red, pre := p.pre,
                                 post := p.post, t := r.si, reqStart := a, reqEnd := e, tacks := [r] } s.cap.runB

/-- A window slot reserved for a baste at slot t (R174); none where the policy is not VALID or no slot is free. -/
def State.reserveWindow (s : State) (policy : Nat) (t : SI) : State × Option Nat :=
  let p := (tfind s.cap.policies policy).getD {}
  match if p.valid then s.cap.freeSlot else none with
  | none => (s, none)
  | some k =>
    let (a, e) := reqSpan t p.pre p.post
    let w : WSlot := { state := 1, policy := policy, merge := p.merge, regions := p.regions, red := p.red, pre := p.pre, post := p.post,
                       t := t, reqStart := a, reqEnd := e, preopened := true }
    let slots := tput s.cap.slots k w
    ({ s with cap := { s.cap with slots := slots, peak := max s.cap.peak slots.length } }, some k)

/-- A reservation released (R174). -/
def State.releaseWindow (s : State) (slot : Option Nat) : State :=
  match slot with
  | none => s
  | some k => { s with cap := { s.cap with slots := tdel s.cap.slots k } }

/-- A reservation becomes the window of the tack r (R174). -/
def State.openReserved (s : State) (k : Nat) (r : TackRef) : State :=
  match s.cap.slot k with
  | none => s
  | some w => s.openSlot k { w with t := r.si, tacks := [r] } s.cap.runB

/-! ### Reading history (R223, R224) -/

/-- A record belongs to the span a..e of a window: by its SI, and a selvedge where it overlaps. -/
def Rec.within (r : Rec) (a e : SI) : Bool :=
  match r.span with
  | none => false
  | some (lo, _) =>
    if r.type = 0x30 then decide (lo ≤ e) && decide (a < lo + ((r.words.getD 2 0).toNat % 2 ^ 48))
    else decide (a ≤ lo ∧ lo ≤ e)

/-- The part of an item that lies in the span: FRAME records are cut to whole frames. -/
def Item.within (i : Item) (a e : SI) : Option Item :=
  match i with
  | .frame f =>
    let es := f.entries.filter (fun x => decide (a ≤ 16 * x.frame ∧ 16 * x.frame ≤ e))
    match es with
    | [] => none
    | x :: _ => some (.frame { f with base := if f.base < a then 16 * x.frame else f.base, entries := es })
  | .plain r => if r.within a e then some i else none

/-- A window segment taken from history: only the span's items, in the form in which its data was committed (R330); `cand` is what the free LZ4 encoder offers
for a segment that the span cuts. -/
def Seg.windowCut (g : Seg) (w : WSlot) (p : WPart) (cand : List Byte) : Seg :=
  let is := g.items.filterMap (fun i => i.within p.start w.reqEnd)
  let (form, coded) := if g.form = 0 then (0, []) else if is = g.items then (g.form, g.coded) else chooseForm g.form is cand
  { g with source := winSource w.policy, windowId := w.id, items := is, form := form, coded := coded, home := p.region, audit := false }

/-- Every bobbin of the source can take n more words, window segments that wait for it counted (R224). -/
def State.windowRoom (s : State) (policy n : Nat) : Bool :=
  (s.bobbinsOf (winSource policy)).all (fun i => match tfind s.bob.tab i with
    | none => true
    | some b => decide (n + ((b.queue.filter (fun q => srcClass q.seg.source = 4)).map (fun q => q.seg.len)).sum ≤ b.free) &&
        !s.ringStopped b)

/-- A window segment enters the router with its number and index (R275). -/
def State.emitPiece (s : State) (g : Seg) : State :=
  let idx := (tfind s.data.windowIdx g.windowId).getD 0
  let g := { g with seg := s.data.nextSeg, idx := idx }
  let s := { s with data := { s.data with nextSeg := s.data.nextSeg + 1, windowIdx := tput s.data.windowIdx g.windowId (idx + 1) } }
  (s.bobbinsOf g.source).foldl (fun s i => s.modBob i (fun b => { b with
    queue := b.queue ++ [({ seg := g, counted := false, since := s.time.si } : QItem)] })) s

/-- Window records enter the router as the segments that carry them. -/
def State.emitWindow (s : State) (g : Seg) : State := g.pieces.foldl State.emitPiece s

/-- The latest ANCHOR at or before slot x that the directory holds (R223). -/
def Data.anchorAt (d : Data) (x : SI) : Option Rec :=
  (d.anchors.foldl (fun (b : Option (SI × Rec)) e => if e.1 ≤ x then
    (match b with
     | none => some e
     | some y => if y.1 ≤ e.1 then some e else some y) else b) none).map (fun e => e.2)

/-- The run in which slot x lies, or where it lies in none the next run after it: its start and, where it has stopped, its end (R222). -/
def Capture.runOf (c : Capture) (x : SI) : Option (SI × Option SI) :=
  let past := c.pastRuns.map (fun e => (e.1, some e.2))
  let all := if c.runState = 0 then past else (c.runB, if c.runState = 2 then some c.runE else none) :: past
  match all.find? (fun e => decide (e.1 ≤ x) && !e.2.any (fun y => decide (y ≤ x))) with
  | some e => some e
  | none => (all.filter (fun e => decide (x < e.1))).foldl (fun a e => match a with
    | none => some e
    | some b => if e.1 < b.1 then some e else some b) none

/-- A window's job, where it has one, is at work (R236). -/
def State.exportRuns (s : State) (w : WSlot) : Bool :=
  match w.exportJob with
  | none => true
  | some j => s.cmd.jobs.any (fun x => x.id = j && x.state = .running)

/-- The first records of a window: WINDOW_OPEN, the ANCHOR and the selvedges of its parts (R222, R223). -/
def State.windowHead (s : State) (w : WSlot) : List Rec :=
  let first := (w.tacks.head?).getD { si := w.t, fine := 0, seq := 0, kind := 0, origin := 0, number := 0 }
  let latest := w.parts.foldl (fun a p => max a p.start) w.reqStart
  let earliest := w.parts.foldl (fun a p => min a p.start) latest
  recWindowOpen w first latest :: (s.data.anchorAt earliest).toList ++ w.parts.flatMap (fun p => partSelvedges p w.reqStart w.runB)

/-- Frames of the window's span from its earliest delivered slot to slot e (R236; DESIGN CHOICE, notes/assumptions/48.md: a frame that several parts deliver
counts once). -/
def WSlot.framesTo (w : WSlot) (e : SI) : Nat :=
  match w.parts with
  | [] => 0
  | p :: rest => (e + 1 - rest.foldl (fun a q => min a q.start) p.start) / 16

/-- Selvedge records among records. -/
def selvedgeCount (rs : List Rec) : Nat := (rs.filter (fun r => r.type = 0x30)).length

/-- The unread segments of a part in its ring that reach into the span. -/
def State.unreadHistory (s : State) (w : WSlot) (p : WPart) : List Seg :=
  (s.ringOf p.region p.red).segs.filter (fun g =>
    p.unread g && srcRegion g.source = p.region && srcClass g.source = p.red && (g.items.any (fun i => (i.within p.start w.reqEnd).isSome)))

/-- The next unread segment of a part (R223): each source in the order of commit, and among the sources the one whose next segment starts first. -/
def State.nextHistory (s : State) (w : WSlot) (p : WPart) : Option Seg :=
  let gs := s.unreadHistory w p
  (gs.filter (fun g => gs.all (fun x => x.source ≠ g.source || decide (g.seg ≤ x.seg)))).foldl
    (fun b g => match b with
      | none => some g
      | some x => if g.firstSi < x.firstSi then some g else some x) none

/-- A part changed by f. -/
def WSlot.modPart (w : WSlot) (k : Nat) (f : WPart → WPart) : WSlot :=
  { w with parts := w.parts.zipIdx.map (fun e => if e.2 = k then f e.1 else e.1) }

/-- Selvedges that a part owes for history lost under its pin (R219). -/
def WPart.lostRecs (p : WPart) : List Rec :=
  p.lost.map (fun e => if p.red = 0 then recSelvedge selOverwritten 1 p.region e.2.1 (e.2.2 - e.2.1)
    else recSelvedge selOverwritten 4 e.1 e.2.1 (e.2.2 - e.2.1))

/-- A selvedge of a part for a span that it does not deliver: of its region for transitions, else of the source (R295). -/
def WPart.selvedge (p : WPart) (cause source : Nat) (x : SI × SI) : Rec :=
  if p.red = 0 then recSelvedge cause 1 p.region x.1 (x.2 - x.1) else recSelvedge cause 4 source x.1 (x.2 - x.1)

/-- The slot by which every record of a part's span has been placed (R223, R302). -/
def State.placedBy (s : State) (w : WSlot) (p : WPart) : SI :=
  let second := fun x => (x / 1048576 + 2) * 1048576
  let base := ((w.reqEnd + 2097152) / 1048576 + 1) * 1048576
  if p.red = 2 then
    let span := s.ivls.foldl (fun a e => max a e.2.maxSpan) 0
    let log2 := (s.region p.region).cfg.statLog2
    max base (max (second (w.reqEnd + span)) (second ((w.reqEnd / 2 ^ (log2 + 4) + 1) * 2 ^ (log2 + 4))))
  else base

/-- Records of the part's span that have been placed and not yet committed: in open segments, or in the blocks on the way to them. -/
def State.partOpen (s : State) (w : WSlot) (p : WPart) : Bool :=
  s.data.sources.any (fun e => srcClass e.1 = p.red && srcRegion e.1 = p.region &&
    (e.2.opened.any (fun o => o.finish.items.any (fun i => (i.within p.start w.reqEnd).isSome)) || e.2.waiting.any (fun i => (i.within p.start w.reqEnd).isSome))) ||
  (p.red = 0 && s.blocks.any (fun e => e.1 / 16 = p.region &&
    (e.2.align.any (fun a => decide (a.time / 64 ≤ w.reqEnd)) || e.2.entries.any (fun x => decide (16 * x.frame ≤ w.reqEnd)))))

/-- Every record of the part has been committed, written to DRAM and read: placement has passed or the run's shut-down has ended, and
neither the ring, staging nor anything before it holds an unread record of the span. -/
def State.partDone (s : State) (w : WSlot) (p : WPart) : Bool :=
  (decide (s.placedBy w p ≤ s.time.si) || s.cap.runState = 0) && !s.partOpen w p && (s.unreadHistory w p).isEmpty && p.lost.isEmpty &&
    s.data.staging.all (fun g => g.inDram || srcClass g.seg.source ≠ p.red || srcRegion g.seg.source ≠ p.region ||
      decide (w.reqEnd < g.seg.firstSi)) &&
    (s.region p.region).closed.all (fun g => srcClass g.seg.source ≠ p.red)

/-- Selvedges among a window's first records that are still to be delivered. -/
def State.headSelvedges (s : State) (w : WSlot) : Nat := if w.opened then 0 else selvedgeCount (s.windowHead w)

/-- A window closed with WINDOW_CLOSE; its slot and pins are free (R223, R236). A cancelled window of which nothing has been delivered ends one
slot before its span (notes/assumptions/13.md). -/
def State.closeWindow (s : State) (k : Nat) (w : WSlot) (cancelled : Bool) : State :=
  let fin := if cancelled then (if w.pos = 0 then w.reqStart - 1 else w.pos + 15) else w.reqEnd
  let head := if w.opened then [] else s.windowHead w
  let rs := head ++ [recWindowClose w cancelled fin]
  let home := ((w.parts.head?).map (fun p => p.region)).getD 0
  let s := s.emitWindow { source := winSource w.policy, windowId := w.id, items := rs.map Item.plain, home := home }
  { s with cap := { s.cap with slots := tdel s.cap.slots k }, data := { s.data with windowIdx := tdel s.data.windowIdx w.id } }

/-- WINDOW_CLOSE: the window closes once every part is committed and read, and an export's job ends DONE (R223, R236). -/
def rowWindowClose (t : SI) (slot : Fin 64) (s : State) : State :=
  let s := s.moment t
  match s.cap.slot slot.val with
  | none => s
  | some w =>
    if w.state < 2 || !s.exportRuns w || !w.parts.all (s.partDone w) || !s.windowRoom w.policy 256 then s
    else
      let headCount := s.headSelvedges w
      let s := s.closeWindow slot.val w false
      match w.exportJob with
      | none => s
      | some j => (s.endJob j .done [w.id, w.selvedges + headCount, w.framesTo w.reqEnd])

end Sys2Proof.Machine
end

