-- ==== Sys2Proof/Machine/Link.lean ====
section
/-! DEFINITION. The Tiuth links (R180 to R186): sending, roles, link-doubt brackets (R197), remote bastes leaving the store (R194,
R195), and the chip's doubt (R502 to R504). -/

namespace Sys2Proof.Machine

/-! ### Ports -/

/-- Port n. -/
def State.port (s : State) (n : Nat) : Port := (tfind s.cas.ports n).getD {}

/-- Port n changed by f. -/
def State.modPort (s : State) (n : Nat) (f : Port → Port) : State :=
  { s with cas := { s.cas with ports := tmod s.cas.ports n {} f } }

/-- The link of the port is up (R204). -/
def Port.up (p : Port) : Bool := p.state = 2

/-- The upstream port, where one is configured (R187). -/
def Cascade.upPort (c : Cascade) : Option Nat := ((c.ports.filter (fun e => e.2.role = 1)).head?).map (fun e => e.1)

/-- Downstream ports. -/
def Cascade.downPorts (c : Cascade) : List Nat := (c.ports.filter (fun e => e.2.role = 2)).map (fun e => e.1)

/-- Downstream ports whose link is up. -/
def Cascade.upDownPorts (c : Cascade) : List Nat := (c.ports.filter (fun e => e.2.role = 2 && e.2.up)).map (fun e => e.1)

/-- Role of the unit: 0 standalone, 1 root, 2 child (R187, R202). -/
def Cascade.role (c : Cascade) : Nat :=
  if c.upPort.isSome then 2 else if c.ports.any (fun e => e.2.role = 2) then 1 else 0

/-- Service class of a message type (R184). -/
def msgClass (type : Nat) : Nat := if type = 1 || type = 2 || type = 7 then 1 else if type = 8 then 2 else 0

/-! ### Blocks on the link (R180, R182) -/

/-- One bit of a message into the CRC-16 of R182. -/
def crcBit (c : BitVec 16) (b : Bool) : BitVec 16 := if c.getLsbD 15 != b then (c <<< 1) ^^^ 0x1021#16 else c <<< 1

/-- The CRC-16 of some bytes, each from its highest bit: polynomial 0x1021, initial value 0xFFFF, not reflected (R182). -/
def crc16 (bytes : List Byte) : BitVec 16 :=
  bytes.foldl (fun c y => (List.range 8).foldl (fun c k => crcBit c (y.getLsbD (7 - k))) c) 0xFFFF#16

/-- Word 0 of a message (R182). -/
def CasMsg.word0 (m : CasMsg) (type : Nat) : Nat :=
  type % 16 + m.flags.toNat * 2 ^ 4 + m.origin.toNat * 2 ^ 8 + m.dir.val * 2 ^ 22 + m.linkSeq.toNat * 2 ^ 24 + m.a.toNat * 2 ^ 32

/-- The bytes that a message's CRC covers. -/
def CasMsg.bytes (m : CasMsg) (type : Nat) : List Byte :=
  leBytes 8 (CasMsg.word0 m type) ++ leBytes 8 m.b.toNat ++ leBytes 4 m.c.toNat ++ leBytes 2 m.d.toNat

/-- The three words of a message whose CRC field is `crc`. -/
def CasMsg.words (m : CasMsg) (type : Nat) (crc : BitVec 16) : List (BitVec 64) :=
  [BitVec.ofNat 64 (CasMsg.word0 m type), m.b, BitVec.ofNat 64 (m.c.toNat + m.d.toNat * 2 ^ 32 + crc.toNat * 2 ^ 48)]

/-- A message put on port n's link: three data blocks. -/
def Posted.message (n type : Nat) (m : CasMsg) : Posted := .tiuth n false (CasMsg.words m type (crc16 (CasMsg.bytes m type)))

/-- The copy of a message whose CRC has proved bad: its CRC inverted (R183). -/
def Posted.badCopy (n type : Nat) (m : CasMsg) : Posted := .tiuth n false (CasMsg.words m type (~~~(crc16 (CasMsg.bytes m type))))

/-- The IDLE that port n sends as things stand: block type 0x1E, ACK_SEQ, ACK_VALID, NAK, ROLE, UNIT_ID and DEPTH (R180). -/
def State.idleWord (s : State) (n : Nat) : BitVec 64 :=
  let p := s.port n
  BitVec.ofNat 64 (0x1E + p.rxSeq.toNat * 2 ^ 8 + b2n p.rxValid * 2 ^ 16 + b2n p.nak * 2 ^ 17 + p.role * 2 ^ 18 + s.cas.unitId.toNat * 2 ^ 20 +
    s.cas.depth * 2 ^ 34)

/-- Port n sends its IDLE. -/
def State.sendIdle (s : State) (n : Nat) : State :=
  let w := s.idleWord n
  (s.modPort n (fun p => { p with idlesTx := if p.idle = w then p.idlesTx + 1 else 1, idle := w, txRun := 0 })).post (.tiuth n true [w])

/-- Every port in use whose IDLE has changed sends it. IDLEs that only repeat the one before are not recorded (DESIGN CHOICE, notes/assumptions/47.md). -/
def State.announce (s : State) : State :=
  (s.cas.ports.map (fun e => e.1)).foldl (fun s n => if (s.port n).role ≠ 0 && (s.port n).idle ≠ s.idleWord n then s.sendIdle n else s) s

/-- A message that its receiver discards is answered with NAK (R183). -/
def State.refuseMessage (s : State) (n : Nat) : State := s.modPort n (fun p => { p with nak := true })

/-- A message with this LINK_SEQ, received with a good CRC: taken where it is next in order, else discarded, which CRC_ERR does not count (R204). The
port's next IDLE says which. After its link comes up a port starts with LINK_SEQ 0 and expects 0 (DESIGN CHOICE, notes/assumptions/57.md). Answers whether
it was taken. -/
def State.acceptSeq (s : State) (n : Nat) (seq : BitVec 8) : State × Bool :=
  let p := s.port n
  if !p.up then (s, false)
  else if seq ≠ (if p.rxValid then p.rxSeq + 1 else 0) then ((s.refuseMessage n).announce, false)
  else ((s.modPort n (fun p => { p with rxSeq := seq, rxValid := true, nak := false })).announce, true)

/-- A message received with a good CRC. -/
def State.accept (s : State) (n : Nat) (m : CasMsg) : State × Bool := s.acceptSeq n m.linkSeq

/-- The first queued message of the highest class. -/
def Port.first (p : Port) : Option OutMsg :=
  match p.queue.find? (fun m => m.cls = 0) with
  | some m => some m
  | none => match p.queue.find? (fun m => m.cls = 1) with
    | some m => some m
    | none => p.queue.head?

/-- The blocks of a message leave on port n; an IDLE follows every eighth message (R180). -/
def State.putBlocks (s : State) (n : Nat) (x : Posted) : State :=
  let s := (s.modPort n (fun p => { p with txRun := p.txRun + 1 })).post x
  if 8 ≤ (s.port n).txRun then s.sendIdle n else s

/-- A message leaves on port n. -/
def State.transmit (s : State) (n type : Nat) (m : CasMsg) : State := s.putBlocks n (Posted.message n type m)

/-- A TIME_TRANSFER request that leaves is stamped with t1 (R62, R184): a copy sent again carries the stamp of its own departure (DESIGN CHOICE,
notes/assumptions/58.md). -/
def State.stampSent (s : State) (type : Nat) (m : CasMsg) : State :=
  if type = 7 && m.flags = 0 then { s with cas := { s.cas with timeSent := s.time.stAt s.time.si } } else s

/-- Queued messages leave while fewer than 64 are unacknowledged (R183); each takes the next LINK_SEQ. -/
def State.sendQueued (s : State) (n fuel : Nat) : State :=
  match fuel with
  | 0 => s
  | k + 1 =>
    let p := s.port n
    match p.first with
    | none => s
    | some m =>
      if !p.up || 64 ≤ p.unacked.length then s
      else
        let m' : OutMsg := { m with msg := { m.msg with linkSeq := p.txSeq } }
        let s := s.modPort n (fun p => { p with
          queue := p.queue.erase m, unacked := p.unacked ++ [m'], txSeq := p.txSeq + 1, ackAt := if p.unacked = [] then s.time.si else p.ackAt })
        ((s.transmit n m'.type m'.msg).stampSent m'.type m'.msg).sendQueued n k

/-- A message for port n (R184, R185): discarded and counted while the link is down; a full queue takes the link down and is lost. -/
def State.enqueue (s : State) (n type : Nat) (m : CasMsg) : State :=
  let p := s.port n
  if !p.up then s.modPort n (fun p => { p with discard := satInc 8 p.discard })
  else if 4096 ≤ p.queue.length then
    (s.modPort n (fun p => { p with
      state := 5, fell := true, queue := [], discard := satAdd 8 p.discard (p.queue.length + 1) })).raise 52
  else
    let s := s.modPort n (fun p => { p with queue := p.queue ++ [{ type := type, msg := m, cls := msgClass type }] })
    s.sendQueued n 1

/-- A message sent down every downstream port; one whose link is down discards it (R185). -/
def State.sendDown (s : State) (type : Nat) (m : CasMsg) : State :=
  s.cas.downPorts.foldl (fun s n => s.enqueue n type { m with dir := 1 }) s

/-- A message that the root broadcasts on every downstream port whose link is up (R191). -/
def State.broadcast (s : State) (type : Nat) (m : CasMsg) : State :=
  s.cas.upDownPorts.foldl (fun s n => s.enqueue n type { m with dir := 1 }) s

/-- A message sent up. -/
def State.sendUp (s : State) (type : Nat) (m : CasMsg) : State :=
  match s.cas.upPort with
  | none => s
  | some n => s.enqueue n type { m with dir := 0 }

/-- A message of this unit's own: upward from a child, downward from the root (R191). -/
def State.originate (s : State) (type : Nat) (m : CasMsg) : State :=
  if s.cas.role = 2 then s.sendUp type m else s.broadcast type m

/-- A message body with this unit as ORIGIN and a 96-bit ST in B and C (R182). -/
def State.message (s : State) (flags a st d : Nat) : CasMsg :=
  { flags := BitVec.ofNat 4 flags, origin := s.cas.unitId, dir := 0, linkSeq := 0, a := BitVec.ofNat 32 a,
    b := BitVec.ofNat 64 st, c := BitVec.ofNat 32 (st / 2 ^ 64), d := BitVec.ofNat 16 d }

/-- The ST that a message carries (R182). -/
def CasMsg.st (m : CasMsg) : Nat := m.b.toNat + m.c.toNat * 2 ^ 64

/-- A broadcast message that arrived: forwarded under R191, and whether it is delivered to this unit. A message of this unit's own ID is
forwarded and never delivered (R188). -/
def State.forward (s : State) (type : Nat) (m : CasMsg) : State × Bool :=
  let mine := m.origin ≠ s.cas.unitId
  if m.dir = 0 then
    if s.cas.role = 2 then (s.sendUp type m, false) else (s.broadcast type m, mine)
  else (s.sendDown type m, mine)

/-! ### Doubt brackets of ports (R197) -/

/-- A cause joins or opens the port's link-doubt bracket: DOUBT_BEGIN in every active source, event 53 where it opens. -/
def State.openPort (s : State) (n cause : Nat) : State :=
  let old := (s.port n).linkDoubt
  let new := old ||| (1#32 <<< cause)
  if new = old then s
  else
    let s := s.modPort n (fun p => { p with linkDoubt := new })
    (s.placeActive (recDoubtBegin 5 n s.boundary new.toNat (old ≠ 0))).raiseIf (old = 0) 53

/-- A cause leaves the bracket: DOUBT_END and event 54 where it was the last. -/
def State.closePort (s : State) (n cause : Nat) : State :=
  let old := (s.port n).linkDoubt
  let new := old &&& ~~~(1#32 <<< cause)
  if new = old then s
  else
    let s := s.modPort n (fun p => { p with linkDoubt := new })
    if new = 0 then (s.placeActive (recDoubtEnd 5 n s.boundary)).raise 54 else s

/-! ### Remote bastes (R194, R195) -/

/-- A remote pending baste leaves the store by an unpick at slot `si` (fine 0): UNPICK record, pins and reservation released; reason 4 is
counted and raises event 143. -/
def State.unpickRemote (s : State) (r : RemoteBaste) (reason : Nat) (si : SI) : State :=
  let s := { s with cas := { s.cas with remote := s.cas.remote.filter (fun x => x.origin ≠ r.origin || x.number ≠ r.number) } }
  let s := s.placeProvisional (recUnpick si 0 0 reason r.number r.origin true)
  let s := (s.unpickPins (r.origin, r.number)).releaseWindow r.slot
  if reason = 4 then ({ s with cas := { s.cas with expired := satInc 16 s.cas.expired } } : State).raise 143 else s

/-- Every remote pending baste unpicked with reason 4 (R197). -/
def State.dropRemote (s : State) : State :=
  s.cas.remote.foldl (fun s r => s.unpickRemote r 4 s.boundary) s

/-- UNPICK messages with reason 4 for the bastes forwarded from port n (R195). The root's own stored copy of such a baste waits for its expiry (DESIGN
CHOICE, notes/assumptions/65.md). -/
def State.dropForwarded (s : State) (n : Nat) : State :=
  let lost := s.cas.forwarded.filter (fun e => e.port = n)
  let s := { s with cas := { s.cas with forwarded := s.cas.forwarded.filter (fun e => e.port ≠ n) } }
  lost.foldl (fun s e => s.originate 6 { (s.message 0 4 e.st e.number) with origin := BitVec.ofNat 14 e.origin }) s

/-- STATUS message of a subtype (R186). -/
def State.status (s : State) (sub a : Nat) : CasMsg := { (s.message 0 a 0 sub) with b := 0, c := 0 }

/-- The path to the root is lost (R197): bracket on the upstream port, ISOLATED down the subtree, remote bastes unpicked. -/
def State.isolate (s : State) (n cause : Nat) : State :=
  ((s.openPort n cause).sendDown 8 (s.status 3 0)).dropRemote

/-- The depth of the unit becomes d. At depth 4 no downstream link is brought up, and those ports show DEPTH, with event 51 where that is new; at another
depth they train (R187). -/
def State.setDepth (s : State) (d : Nat) : State :=
  let s : State := { s with cas := { s.cas with depth := d } }
  s.cas.downPorts.foldl (fun s n =>
    let p := s.port n
    if p.up || p.fell then s
    else if d = 4 then (s.modPort n (fun p => { p with state := 4, idles := 0 })).raiseIf (p.state ≠ 4) 51
    else if p.state = 4 then s.modPort n (fun p => { p with state := 1, idles := 0 })
    else s) s

/-- The state that port n shows when its link is down: off, refused for depth below a unit at depth 4, or training (R187, R204). -/
def State.downState (s : State) (n : Nat) : Nat :=
  if (s.port n).role = 0 then 0 else if (s.port n).role = 2 && s.cas.depth = 4 then 4 else 1

/-- A port's link has gone down (R181, R195, R197): counted, event 49, its messages lost, brackets opened; event 51 where it is now refused for depth. -/
def State.portDown (s : State) (n : Nat) : State :=
  let p := s.port n
  let new := s.downState n
  let s := ((s.modPort n (fun p => { p with
    state := new, fell := false, downCnt := satInc 8 p.downCnt, queue := [], unacked := [], idles := 0
    idlesTx := 0, sameRetry := 0, rxValid := false, nak := false, txSeq := 0, peer := 0
    discard := satAdd 8 p.discard p.queue.length })).raise 49).raiseIf (new = 4) 51
  if p.role = 1 then
    (s.setDepth 7).isolate n 0
  else (s.openPort n 0).dropForwarded n

/-! ### Chip doubt (R502 to R504) -/

/-- FAULT_N (R504, R562): low in doubt, while start-up has stopped, and from a supply collapse until READY. -/
def State.driveFault (s : State) : State :=
  let low := s.inDoubt || s.startup.stopped || s.startup.collapsed
  if low = s.safe.fault then s else ({ s with safe := { s.safe with fault := low } } : State).post (.pin 8 (!low))

/-- REFOUT and EPOCH_OUT stop or may resume as the reported state and doubt say (R59). An EPOCH_OUT pulse in progress completes. -/
def State.gateOutputs (s : State) : State :=
  let on := s.time.reported = 2 && !s.inDoubt
  if on then s
  else
    let was := s.time.refoutOn
    let s := { s with time := { s.time with outActive := false, refoutOn := false } }
    if was then s.post (.pin 10 false) else s

/-- The DOUBT message (R186, R196). -/
def State.sendDoubt (s : State) (begins : Bool) : State :=
  s.originate 9 (s.message (b2n begins) s.safe.causes.toNat ((s.timeFor s.boundary).st s.boundary) 0)

/-- At doubt entry, an UNPICK with reason 3 for each own baste already sent and still pending (R196). -/
def State.withdrawBastes (s : State) : State :=
  let sent := s.seq0.bastes.filter (fun b => b.sent)
  let s := { s with seq0 := { s.seq0 with bastes := s.seq0.bastes.map (fun b => { b with sent := false }) } }
  sent.foldl (fun s b => s.originate 6 (s.message 0 3 b.st b.number)) s

/-- Doubt cause k begins, its DOUBT_BEGIN at slot si (R503). -/
def State.beginCauseAt (s : State) (k : Nat) (si : SI) : State :=
  let old := s.safe.causes
  let new := old ||| (1#8 <<< k)
  if new = old then s
  else
    let s := { s with safe := { s.safe with
      causes := new, seen := s.safe.seen ||| (1#8 <<< k), doubtSi := if old = 0 then si else s.safe.doubtSi } }
    let s := s.placeActive (recDoubtBegin 0 0 si new.toNat (old ≠ 0))
    if old = 0 then ((((s.raise 0).quietPins.gateOutputs).driveFault).sendDoubt true).withdrawBastes else s.raise 2

/-- Doubt cause k begins at the present frame boundary. -/
def State.beginCause (s : State) (k : Nat) : State := s.beginCauseAt k s.boundary

/-- Doubt cause k ends, the last one with DOUBT_END at slot si (R503). -/
def State.endCauseAt (s : State) (k : Nat) (si : SI) : State :=
  let new := s.safe.causes &&& ~~~(1#8 <<< k)
  if new = s.safe.causes then s
  else
    let s := { s with safe := { s.safe with causes := new } }
    if new = 0 then ((((s.placeActive (recDoubtEnd 0 0 si)).raise 1).sendDoubt false).driveFault).forgetPulses else s

/-- Doubt cause k ends at the present frame boundary. -/
def State.endCause (s : State) (k : Nat) : State := s.endCauseAt k s.boundary

end Sys2Proof.Machine
end

