-- ==== Sys2Proof/Machine/Time.lean ====
section
/-! DEFINITION. The station-time unit (02_station_time.md): pulses, misses and losses of the reference, returns, slews and steps, the
distribution outputs, the synthesiser, time transfer, and what SET_REF, SET_EPOCH, SET_ST and SET_RETURN_POLICY do to it. -/

namespace Sys2Proof.Machine

/-- The station-time unit changed by f: event 32 and the outputs follow a change of the reported state (R59, R83). -/
def State.retime (s : State) (f : Time → Time) : State :=
  let s' : State := { s with time := f s.time }
  if s'.time.reported = s.time.reported then s' else (s'.gateOutputs).raise 32

/-- The alarm of U, raised again only after U has fallen below the threshold (R45). -/
def State.checkUnc (s : State) : State :=
  let u := s.time.u s.time.si
  let lim := s.time.policy.uncAlarm
  let above := lim ≠ 0 && decide (lim < u)
  let s' : State := { s with time := { s.time with alarmed := if above then true else s.time.alarmed && !(lim ≠ 0 && decide (u < lim)) } }
  s'.raiseIf (above && !s.time.alarmed) 46

/-! ### Slews and returns (R49 to R52) -/

/-- The offsets measured against a station time that has moved since are forgotten (DESIGN CHOICE, notes/assumptions/39.md). -/
def Time.freshOffsets (t : Time) : Time := { t with tt := { t.tt with offsets := [] } }

/-- The slew in progress is cut short at slot b: SLEW end record with the Δ not yet slewed, event 35. -/
def State.cutSlew (s : State) (b : SI) : State :=
  match s.time.slew with
  | none => s
  | some w =>
    let ps := s.time.toPs (s.time.remaining b)
    let s := { s with time := ({ s.time.rebase b with slew := none } : Time).freshOffsets }
    (s.placeActive (recSlew b (s.timeFor b).tgen 2 w.ppm ps)).raise 35

/-- The reference is lost at frame boundary b (R41, R43): ACQUIRE falls back to FREE, the traced states coast. -/
def State.loseReference (s : State) (b : SI) : State :=
  match s.time.state with
  | .free | .coast => { s with time := { s.time with pulses := 0 } }
  | st =>
    let u := s.time.u b
    let s := s.cutSlew b
    let s := s.retime (fun t => { t with
      state := if st = .acquire then .free else .coast
      pulses := 0
      pending := t.pending.filter (fun p => p.cause = 3)
      labelHeld := st = .returnStep && t.label.isSome
      uLoss := u
      lossSi := b
      growth := t.policy.holdover
      lossCnt := satInc 8 t.lossCnt })
    s.raise 36

/-- The reference returns with phase difference Δ (kept units), measured now (R43, R49, R51): a slew within the window, else a step at the
next anchor boundary. -/
def State.returnWith (s : State) (delta : Int) : State :=
  let b := s.boundary
  let st := s.time.state
  let u := s.time.u b
  let s := s.cutSlew b
  let ps := s.time.toPs delta
  let slews := decide (s.time.policy.slewWindow ≠ 0) && decide ((delta.natAbs : Int) ≤ s.time.ofPs s.time.policy.slewWindow)
  let base := fun (t : Time) => { t with phasePs := sat32 (t.toPsReg delta), pulses := 0, misses := 0, slips := [] }
  if slews then
    let s := s.retime (fun t => { (base t).rebase b with
      state := .returnSlew, pending := none, slew := some { delta := delta, ppm := t.policy.slewRate, startSi := b, began := b } })
    ((s.placeActive (recSlew b (s.timeFor b).tgen 0 s.time.policy.slewRate ps)).raise 37).raise 34
  else
    (s.retime (fun t => { (base t).rebase b with
      state := .returnStep
      pending := some { cause := 0, delta := delta }
      uLoss := u
      lossSi := b
      growth := if st = .coast then t.growth else t.policy.holdover })).raise 37

/-! ### EPOCH_IN (R39 to R42) -/

/-- The kept ST at the ball's active edge, less EPOCH_IN_DELAY_PS (R42). -/
def Time.pulseSt (t : Time) (x : SI) (fine : Nat) : Int := t.stFine x fine - t.ofPs t.ref.epochInDelay

/-- Positions of the run of slips that a slip at c cycles joins: those within ±TOL of it at the nominal spacing (R40). -/
def slipRun (nom tol c : Nat) (run : List Nat) : List Nat :=
  (run.zipIdx.takeWhile (fun e => decide (((c : Int) - e.1 - ((e.2 + 1) * nom : Nat)).natAbs ≤ tol))).map (fun e => e.1)

/-- The loop measures its bound, and what it has found takes effect at the next anchor boundary (R42, R45, R305, R566; DESIGN CHOICE,
notes/assumptions/20.md). -/
def State.loopAt (s : State) (l : LoopSet) : State :=
  ({ s with time := { s.time with loopDue := some l, bound := Config.dpllBound s.freeCtr } } : State).tick

/-- The reference as the pulse at slot `x` and fine code `fine` shows it: epochs since the last accepted pulse, and fine LSB between them; none where
no earlier pulse stands. -/
def Time.spacing (t : Time) (x : SI) (fine : Nat) : Option (Nat × Nat) :=
  t.lastPulse.bind (fun p => if p < 64 * x + fine then some (t.misses + 1, 64 * x + fine - p) else none)

/-- What the loop is set to already: what waits for the next anchor boundary, or the present rate. -/
def Time.loopNow (t : Time) : LoopSet := t.loopDue.getD { rate := t.map.rate, pull := t.tt.pull }

/-- What the loop finds at an accepted pulse (R42, R49): in LOCKED that ST is to meet an epoch boundary at the next pulse, in the states of a return
the rate that the reference implies, each but for the loop's error. -/
def Time.loopSet (t : Time) (fine : Nat) (e : Int) : LoopSet :=
  match t.spacing t.si fine with
  | none => t.loopNow
  | some (n, d) =>
    if t.state = .locked then { rate := t.map.rate, aim := some (64 * t.si + fine + d / n, e) } else { rate := impliedRate n d e }

/-- The loop at a pulse accepted at fine code `fine`; the spacing is read before the pulse is marked. -/
def State.loop (s : State) (fine : Nat) : State := s.loopAt (s.time.loopSet fine (s.time.loopError s.freeCtr))

/-- What the loop of a child finds after an exchange (R63; DESIGN CHOICE, notes/assumptions/20.md): in LOCKED the rate takes up 1/1024 of filtered_offset
for good, and for one anchor interval it also pulls ST by 1/16 of it, but for the loop's error; the pull of the interval before is taken back. -/
def Time.childSet (t : Time) (e : Int) : LoopSet :=
  let l := t.loopNow
  let f := if t.state = .locked then t.tt.filtered else 0
  let pull := (f / 16 + e) / 1048576
  { rate := ((l.rate : Int) - l.pull + f / 1073741824 + pull).toNat, pull := pull }

/-- The loop of a child after an exchange. -/
def State.childLoop (s : State) : State := s.loopAt (s.time.childSet (s.time.loopError s.freeCtr))

/-- A label compared with the number that ST assigns to the pulse (R53): a step by whole epochs where they differ. -/
def Time.compareLabel (t : Time) (v : Int) : Time :=
  match t.label with
  | none => t
  | some n =>
    let d := (n : Int) * (epochUnits : Int) - nearestEpoch v
    { t with label := none, labelHeld := false, labelStep := if d = 0 then t.labelStep else some { cause := 2, delta := d } }

/-- A label taken at an accepted pulse in FREE or ACQUIRE (R53): used at the step that ends ACQUIRE. -/
def Time.takeLabel (t : Time) (v : Int) : Time :=
  match t.label with
  | none => t
  | some n => { t with label := none, labelOfs := some ((n : Int) * (epochUnits : Int) - v) }

/-- The Δ of the step that ends ACQUIRE, from the ST at its fifth pulse (R43, R53). -/
def Time.lockDelta (t : Time) (v : Int) : Int := nearestEpoch (v + t.labelOfs.getD 0) - v

/-- An accepted pulse, by state (R43). `spaced` says that it follows the one before by NOMINAL_CYCLES ±1. While NOMINAL_CYCLES has never been set no
position can be expected of a further pulse, and the unit stays in FREE (DESIGN CHOICE, notes/assumptions/40.md). A label that outlived an abandoned
return step waits for a valid reference (R53). -/
def State.acceptPulse (s : State) (fine : Nat) (spaced : Bool) : State :=
  let x := s.time.si
  let v := s.time.pulseSt x fine
  let e := s.time.loopError s.freeCtr
  let implied := ((s.time.spacing x fine).map (fun (n, d) => impliedRate n d e)).getD s.time.map.rate
  let mark := fun (t : Time) => { t with lastPulse := some (64 * x + fine), misses := 0, slips := [] }
  let marked := fun (s : State) => { s with time := mark s.time }
  match s.time.state with
  | .free =>
    let s := { s with time := (mark s.time).takeLabel v }
    if s.time.refValid && s.time.epoch.nominal.isSome then s.retime (fun t => { t with state := .acquire, pulses := 1 }) else s
  | .acquire =>
    let t := (mark s.time).takeLabel v
    let n := if spaced then t.pulses + 1 else 1
    ({ s with time := { t with
      pulses := n
      bound := Config.dpllBound s.freeCtr
      pending := if 5 ≤ n then some { cause := 1, delta := t.lockDelta v, lock := some (x, implied) } else t.pending.filter (fun p => p.cause = 3) } } : State).tick
  | .locked | .returnSlew => let s := s.loop fine; { s with time := (mark s.time).compareLabel v }
  | .returnStep => marked (s.loop fine)
  | .coast =>
    let n := s.time.pulses + 1
    let s := { s with time := { (if s.time.labelHeld && !s.time.refValid then s.time else s.time.compareLabel v) with pulses := n } }
    if 2 ≤ n && s.time.refValid then (marked (s.loop fine)).returnWith (nearestEpoch v - v) else marked s

/-- The third slip of a run defines a new epoch phase (R40, R43). -/
def State.newPhase (s : State) (fine : Nat) : State :=
  let x := s.time.si
  let v := s.time.pulseSt x fine
  let mark := fun (t : Time) => { t with lastPulse := some (64 * x + fine), misses := 0, slips := [] }
  let again := fun (s : State) => (s.loopAt s.time.loopNow).returnWith (nearestEpoch v - v)
  match s.time.state with
  | .free => s
  | .acquire => { s with time := { mark s.time with pulses := 1, pending := s.time.pending.filter (fun p => p.cause = 3) } }
  | .coast => if s.time.refValid then again { s with time := mark s.time } else s
  | _ => again { s with time := mark s.time }

/-- EPOCH_IN_PULSE: an edge at slot t and fine code `fine`, `cycles` REFCLK cycles after the last accepted pulse. Edges in the other
direction and those of a unit with TIME_SRC 1 do nothing (R39, R63). Where no position is expected every active edge is accepted. `lost` says
that its pulse comes in the acknowledge phase of seam 1 (R492); in quiet mode it is merged and arrives (R493). -/
def execEpochInPulse (t : SI) (fine : Fin 64) (rising : Bool) (cycles : Nat) (lost : Bool) (s : State) : Host.Outcome State Fault Refusal :=
  let s := s.moment t
  let e := s.time.epoch
  if lost && !s.safe.quiet then .next (s.seamLost 1)
  else if rising = e.falling || s.time.ref.timeSrc then .next s
  else
    match e.nominal, s.time.state = .free || s.time.lastPulse.isNone with
    | some nom, false =>
      if ((cycles : Int) - ((s.time.misses + 1) * nom : Nat)).natAbs ≤ e.tol then
        .next ((s.acceptPulse fine.val (decide (((cycles : Int) - nom).natAbs ≤ 1))).checkUnc)
      else
        let v := s.time.pulseSt s.time.si fine.val
        let run := cycles :: slipRun nom e.tol cycles s.time.slips
        let s := { s with time := { s.time with
          slipCnt := satInc 8 s.time.slipCnt, slips := run, pulses := if s.time.state = DpllState.coast then 0 else s.time.pulses
          phasePs := sat32 (s.time.toPsReg (nearestEpoch v - v)) } }
        let s := s.raise 39
        .next (if 3 ≤ run.length then s.newPhase fine.val else s).checkUnc
    | _, _ => .next (s.acceptPulse fine.val false).checkUnc

/-- EPOCH_IN_MISS: an expected pulse has not arrived by the end of its window (R40); the third in a row is a loss (R41). -/
def execEpochInMiss (t : SI) (s : State) : Host.Outcome State Fault Refusal :=
  let s := s.moment t
  if s.time.ref.timeSrc || s.time.state = .free || s.time.lastPulse.isNone || s.time.epoch.nominal.isNone then .next s
  else
    let n := s.time.misses + 1
    let s := ({ s with time := { s.time with
      missCnt := satInc 8 s.time.missCnt, misses := n, pulses := if s.time.state = DpllState.coast then 0 else s.time.pulses } } : State).raise 38
    .next (if n = 3 then s.loseReference s.boundary else s).checkUnc

/-- REFCLK is no longer valid: the count of its cycles is broken, so no pulse is expected at any position (R41). -/
def State.loseClock (s : State) : State :=
  if s.time.refValid then
    let s := { s with time := { s.time with refValid := false, lastPulse := none, misses := 0, slips := [] } }
    if s.time.ref.timeSrc then s else s.loseReference s.boundary
  else s

/-- A measured frequency lies within ±100 ppm of REF_FREQ_HZ (R39). -/
def freqGood (ref hz : Nat) : Bool := ref ≠ 0 && hz ≠ 0 && decide (((hz : Int) - ref).natAbs * 10000 ≤ ref)

/-- SLEW_END: the remaining Δ has reached 0 (R43, R50): LOCKED, with a SLEW end record at the frame boundary. -/
def execSlewEnd (t : SI) (s : State) : Host.Outcome State Fault Refusal :=
  let s := s.moment t
  let b := s.boundary
  match s.time.slew with
  | none => .next s
  | some w =>
    if s.time.remaining b ≠ 0 then .next s
    else
      let s := s.retime (fun t => ({ t.rebase b with slew := none, state := .locked } : Time).freshOffsets)
      .next (((s.placeActive (recSlew b (s.timeFor b).tgen 2 w.ppm 0)).raise 35).checkUnc)

/-! ### Steps and anchors (R47, R48, R50) -/

/-- A step of ST at anchor boundary b (R48): TIMESTEP in every active source, a new TGEN, REFOUT stopped until it aligns again (R61). -/
def State.applyStep (s : State) (p : PendingStep) (b : SI) : State :=
  let delta := s.time.stepDelta p b
  let r := recTimestep b s.time.tgen (nextTgen s.time.tgen) p.cause ((delta + (stUnit / 2 : Nat)) / (stUnit : Int)) (s.time.toPs delta)
  let s := s.placeActive r
  let s := { s with data := { s.data with stepRecs := s.data.stepRecs.filter (fun (e : SI × Rec) => e.1 = b) ++ [(b, r)] } }
  let on := s.time.refoutOn
  let s := s.retime (fun t => t.stepped p b)
  (if on then s.post (.pin 10 false) else s).raise 33

/-- The steps that fall at anchor boundary b, in their order: the pending one, the label's, the parent's (R51, R53, R65); then what the loop applies
there. The offsets measured before a step are discarded (DESIGN CHOICE, notes/assumptions/39.md). -/
def State.anchorSteps (s : State) (b : SI) : State :=
  let steps := s.time.waiting
  let s := { s with time := { s.time with
    pending := none, labelStep := none
    tt := { s.time.tt with parentStep := none, offsets := if steps = [] then s.time.tt.offsets else [] } } }
  let s := steps.foldl (fun s p => s.applyStep p b) s
  { s with time := s.time.looped b }

/-- The ANCHOR of slot b with its run flags, in every active source and in the directory. -/
def State.putAnchor (s : State) (b : SI) (runStart runEnd : Bool) : State :=
  let r := recAnchor s.time b runStart runEnd
  let s := s.placeActive r
  { s with data := { s.data with anchors := (b, r) :: s.data.anchors.filter (fun e => e.1 ≠ b) } }

/-- The ANCHOR of slot b in the directory alone. -/
def State.noteAnchor (s : State) (b : SI) : State :=
  { s with data := { s.data with anchors := (b, recAnchor s.time b false true) :: s.data.anchors.filter (fun e => e.1 ≠ b) } }

/-- The SLEW record of a slew in progress at anchor boundary b (R50). -/
def State.slewAt (s : State) (b : SI) : State :=
  match s.time.slew with
  | none => s
  | some w => if w.began = b then s else s.placeActive (recSlew b s.time.tgen 1 w.ppm (s.time.toPs (s.time.remaining b)))

/-- The records of an anchor boundary: steps, the SLEW record of a slew in progress, and the ANCHOR, once for each boundary (R47, R48,
R50). At the boundary at which a run starts the ANCHOR carries RUN_START and comes first but for any TIMESTEP (R228). Those of the boundary at which a run stopped
are placed at the end of its shut-down (R229). -/
def State.anchorRecords (s : State) (b : SI) (runStart : Bool := false) : State :=
  if s.anchored b then
    if runStart then
      let s := (s.data.stepRecs.filter (fun e => e.1 = b)).foldl (fun s e => s.placeActive e.2) s
      (s.putAnchor b true false).slewAt b
    else s
  else if runStart then ((s.anchorSteps b).putAnchor b true false).slewAt b
  else
    let s := s.anchorSteps b
    if s.cap.runState = 2 && s.cap.runE = b then s.noteAnchor b else (s.slewAt b).putAnchor b false false

/-- The child's TIME_TRANSFER request at its anchor boundary (R62); t1 is taken as it leaves the port (R184). -/
def State.requestTime (s : State) : State :=
  match s.cas.upPort with
  | none => s
  | some n => if s.time.ref.timeSrc then s.enqueue n 7 { (s.message 0 0 0 0) with dir := 2 } else s

/-! ### Distribution outputs (R59 to R61) -/

/-- EPOCH_BOUNDARY: while LOCKED and not in doubt, EPOCH_OUT pulses and REFOUT starts or resumes at an aligned boundary. OUT_ACTIVE reads 1 while either
output is driven (DESIGN CHOICE, notes/assumptions/62.md). -/
def State.epochOut (s : State) : State :=
  if s.time.reported ≠ 2 || s.inDoubt then s
  else
    let r := s.time.ref
    let x := s.time.si
    let n := (nearestEpoch (s.time.stAt x) / (epochUnits : Int)).toNat
    let pulses := decide (r.epochOutW ≠ 0)
    let starts := !s.time.refoutOn && decide (r.refoutDiv ≠ 0) && decide (s.time.refHzOf ≠ 0) && n % s.time.refoutM = 0
    let s := { s with time := { s.time with
      outActive := pulses
      epochOutHigh := pulses || s.time.epochOutHigh
      epochOutUntil := if pulses then x + slotsOfNs r.rateKhz (100 * r.epochOutW) else s.time.epochOutUntil
      refoutOn := s.time.refoutOn || starts } }
    let s := if pulses then s.post (.pin 9 true) else s
    if starts then s.post (.pin 10 true) else s

/-- EPOCH_OUT_PULSE_END: the pulse ends after its full width (R59). -/
def execEpochOutPulseEnd (t : SI) (s : State) : Host.Outcome State Fault Refusal :=
  let s := s.moment t
  if s.time.epochOutHigh && decide (s.time.epochOutUntil ≤ s.time.si) then
    .next (({ s with time := { s.time with epochOutHigh := false } } : State).post (.pin 9 false))
  else .next s

/-! ### The synthesiser (R55 to R58) -/

/-- A gated span opens or closes for a sequencer (R136). -/
def Seq.gate (q : Seq) (b : SI) : Seq := { q with gated := q.gated ++ [(b, none)] }

/-- The open gated span of a sequencer ends at slot b. -/
def Seq.ungate (q : Seq) (b : SI) : Seq :=
  { q with gated := q.gated.map (fun e => if e.2 = none then (e.1, some b) else e) }

/-- The cells lose the clock at the next frame boundary: doubt from 1,024 slots before it (R56). -/
def State.loseSynth (s : State) : State :=
  match s.time.gatedFrom with
  | some _ => s
  | none =>
    let b := s.boundary
    let s := { s with
      time := { s.time with synLock := false, synLoss := satInc 8 s.time.synLoss, gatedFrom := some b }
      seq0 := s.seq0.gate b
      seq1 := s.seq1 }
    (s.beginCauseAt causeSynth (b - 1024)).raise 40

/-- The CLOCK_GATED selvedge of the gated span, up to slot b. -/
def State.gatedRecord (s : State) (a b : SI) : State :=
  let b := if s.cap.runState = 2 then min b s.cap.runE else b
  let a := max a s.cap.runB
  if a < b then s.placeActive (recSelvedge selGated 0 0 a (b - a)) else s

/-- The cells receive the clock again at the next frame boundary (R57). -/
def State.regainSynth (s : State) : State :=
  match s.time.gatedFrom with
  | none => s
  | some a =>
    let b := s.boundary
    let s := { s with time := { s.time with synLock := true, gatedFrom := none, gateEnd := b }, seq0 := s.seq0.ungate b }
    ((s.gatedRecord a b).endCauseAt causeSynth b).raise 41

/-! ### Time transfer (R62 to R66) -/

/-- The parent's answer to a request that arrived at fine code `fine`: a reply, whose t3 − t2 is a free value, and an info message (R62, R186). -/
def State.answerTime (s : State) (n fine : Nat) : State :=
  let st := stReport (s.time.stFine s.time.si fine)
  let d := s.time.tgen.toNat + 256 * s.time.reported
  let wait := leNat ((List.range 4).map (fun k => Config.otherByte k s.freeCtr))
  let reply := { (s.message 1 wait st d) with dir := 2 }
  let info : CasMsg := { (s.message 2 (s.time.u s.time.si) 0 d) with
    dir := 2, b := BitVec.ofNat 64 (s.time.refHzOf % 2 ^ 32 + toField 32 s.time.lastStepPs * 2 ^ 32), c := 0 }
  (s.tick.enqueue n 7 reply).enqueue n 7 info

/-- The mean of a list of offsets; 0 for none. -/
def meanOf (l : List Int) : Int := if l = [] then 0 else l.sum / l.length

/-- The latest four offsets lie within 50 ps of each other (R63). -/
def Time.offsetsAgree (t : Time) : Bool :=
  let x := t.tt.offsets.take 4
  decide (4 ≤ x.length) && x.all (fun a => x.all (fun b => decide (((a - b).natAbs : Int) ≤ t.ofPs 50)))

/-- A completed exchange steers the child's DPLL by the rules of R43 as R63 substitutes them. -/
def State.steer (s : State) : State :=
  let t := s.time
  let n := t.pulses + 1
  let delta := t.tt.filtered
  let s := { s with time := { t with pulses := n } }
  match t.state with
  | .free => s.retime (fun t => { t with state := .acquire, pulses := 1 })
  | .acquire => ({ s with time := { s.time with
      bound := Config.dpllBound s.freeCtr, pending := if t.offsetsAgree then some { cause := 1, delta := delta } else none } } : State).tick
  | .locked | .returnSlew | .returnStep => s.childLoop
  | .coast => if 2 ≤ n then s.childLoop.returnWith delta else s

/-- What one TIME_TRANSFER message does to a child (R62 to R65). A reply pairs the kept ST at which the request left with that of its own arrival;
both results are kept unrounded. The offsets of before two failed exchanges are discarded (DESIGN CHOICE, notes/assumptions/39.md). -/
def State.childTime (s : State) (m : TtMessage) : State :=
  match m with
  | .request .. => s
  | .reply _ fine t2 gap _ state =>
    let t := s.time
    let asym := t.ofPs t.ref.ttAsym
    let d := t.ofPs gap.toNat
    let t1 := s.cas.timeSent
    let t4 := t.stFine t.si fine.val
    let t2 := stKeep t2.toNat
    let delay := ((t4 - t1) - d + asym) / 2
    let ofs := ((t2 - t1) - (t4 - (t2 + d)) - asym) / 2
    let s := s.retime (fun t =>
      let l := (ofs :: t.tt.offsets).take 16
      { t with tt := { t.tt with offsets := l, delay := delay, filtered := meanOf l, parentState := state.val, failed := 0 } })
    s.steer
  | .info _ u hz step tgen state =>
    let b := s.boundary
    s.retime (fun t =>
      let stepped := match t.tt.parentTgen with
        | some g => g != tgen
        | none => false
      let t := { t with tt := { t.tt with
        parentU := u.toNat, parentHz := hz.toNat, parentState := state.val, parentTgen := some tgen
        parentStep := if stepped then some (t.ofPs step) else t.tt.parentStep } }
      if t.state = .free || t.state = .acquire then t.setRate b t.nominalRate else t)
  | .failed =>
    let n := s.time.tt.failed + 1
    let s := { s with time := { s.time with pulses := 0, tt := { s.time.tt with failed := n, offsets := if n = 2 then [] else s.time.tt.offsets } } }
    if n = 2 then (s.loseReference s.boundary).raise 45 else s

/-- What a TIME_TRANSFER that port n delivers does: a downstream port answers a request; a unit with TIME_SRC 1 uses what its upstream port brings. -/
def State.timeDelivered (s : State) (n : Nat) (m : TtMessage) : State :=
  match m with
  | .request _ fine => if (s.port n).role = 2 then s.answerTime n fine.val else s
  | m => if s.time.ref.timeSrc && s.cas.upPort = some n then (s.childTime m).checkUnc else s

/-- TIME_TRANSFER: taken in LINK_SEQ order as every message (R183), and not delivered where it names this unit as its ORIGIN (R188). An exchange that
fails is no message. -/
def execTimeTransfer (t : SI) (port : Fin 16) (m : TtMessage) (s : State) : Host.Outcome State Fault Refusal :=
  let s := s.moment t
  match m.header with
  | none => .next (s.timeDelivered port.val m)
  | some h =>
    let (s, ok) := s.acceptSeq port.val h.linkSeq
    if ok && h.origin ≠ s.cas.unitId then .next (s.timeDelivered port.val m) else .next s

/-! ### Commands (R52 to R54, R74 to R77) -/

/-- An instant p, in fine LSB, as it reads on slots of another length from boundary b on (R58). -/
def rescaled (b : SI) (old new p : Nat) : Nat := ((64 * b : Nat) - (((64 * b : Nat) : Int) - p) * new / old : Int).toNat

/-- The sample rate changes at boundary b: ST runs on, and the instants that the unit keeps in slots are those of slots of the new length (R42, R58). -/
def Time.newSlots (t : Time) (b : SI) (old new : Nat) : Time :=
  let u := t.u b
  let coasts := t.state = .coast || t.state = .returnStep
  let v := t.setRate b (t.map.rate * old / new)
  { v with
    lastPulse := t.lastPulse.map (rescaled b old new)
    loopDue := t.loopDue.map (fun l => { rate := l.rate * old / new, pull := l.pull * old / new, aim := l.aim.map (fun a => (rescaled b old new a.1, a.2)) })
    tt := { t.tt with pull := t.tt.pull * old / new }
    uLoss := if coasts then u else t.uLoss
    lossSi := if coasts then b else t.lossSi
    epochOutUntil := rescaled b old new (64 * t.epochOutUntil) / 64 }

/-- A change of the reference's settings at boundary b: a loss, and then a return once it is valid again (R52). -/
def State.resetReference (s : State) (b : SI) : State :=
  let s := s.loseReference b
  { s with time := { s.time with refValid := false, lastPulse := none, misses := 0, slips := [], pulses := 0 } }

/-- The nominal rate from boundary b on, in FREE and ACQUIRE (R566). -/
def State.nominal (s : State) (b : SI) : State :=
  if s.time.state = .free || s.time.state = .acquire then { s with time := s.time.setRate b s.time.nominalRate } else s

/-- SET_REF's settings (R74). -/
def refOf (p : List Byte) (old : RefCfg) : RefCfg :=
  { refFreq := pField p 0 4
    rateKhz := if pField p 4 4 = 0 then old.rateKhz else pField p 4 4
    synMode := pField p 8 1 = 1
    timeSrc := pField p 9 1 = 1
    refoutDiv := pField p 10 1
    epochOutW := pField p 11 1
    epochInDelay := pInt p 12 4
    ttAsym := pInt p 16 4 }

/-- SET_REF returns BAD_PARAM (R74). -/
def setRefBad (t : Time) (p : List Byte) : Bool :=
  let f := pField p 0 4
  let k := pField p 4 4
  let hold := match t.epoch.nominal with
    | some n => decide (f ≠ 0) && !epochLengthOk n f
    | none => false
  !(p.length = 32) || !(f = 0 || decide (5000000 ≤ f ∧ f ≤ 250000000)) || !(k = 0 || decide (3600000 ≤ k ∧ k ≤ 4500000)) ||
    decide (1 < pField p 8 1) || decide (1 < pField p 9 1) || decide (64 < pField p 10 1) || !pZero p 20 12 ||
    (pField p 8 1 = 1 && (f = 0 || pField p 9 1 = 1)) || hold

/-- SET_REF makes the synthesiser relock (R58). -/
def setRefRelocks (t : Time) (p : List Byte) : Bool :=
  decide ((refOf p t.ref).rateKhz ≠ t.ref.rateKhz) || (refOf p t.ref).synMode != t.ref.synMode

/-- SET_REF returns BAD_STATE while a run is active (R58). -/
def setRefBadState (s : State) (p : List Byte) : Bool :=
  let r := refOf p s.time.ref
  s.cap.runState = 1 && (decide (r.rateKhz ≠ s.time.ref.rateKhz) || (r.synMode && !s.time.ref.synMode))

/-- What SET_REF does to the station-time unit; the CAL_INTERP job of R58 is the command's own. A REFOUT that is driven stops where its frequency
changes, and starts again at an aligned boundary (DESIGN CHOICE, notes/assumptions/38.md). What a parent has sent, its frequency, TGEN, U and offsets, is
forgotten where TIME_SRC changes (DESIGN CHOICE, notes/assumptions/56.md). -/
def setRefTime (p : List Byte) (s : State) : State :=
  let b := s.boundary
  let old := s.time.ref
  let r := refOf p old
  let lost := decide (r.refFreq ≠ old.refFreq) || r.timeSrc != old.timeSrc
  let s := if lost then s.resetReference b else s
  let div := decide (r.refoutDiv ≠ old.refoutDiv) || decide (r.refFreq ≠ old.refFreq)
  let was := s.time.refoutOn
  let s := if r.rateKhz = old.rateKhz then s else { s with time := s.time.newSlots b old.rateKhz r.rateKhz }
  let s := s.retime (fun t => { t with
    ref := r
    refoutOn := t.refoutOn && !div
    tt := if r.timeSrc = old.timeSrc then t.tt else {} })
  let s := if was && div then s.post (.pin 10 false) else s
  s.nominal b

/-- SET_EPOCH returns BAD_PARAM (R75). NOMINAL_CYCLES 0 is out of range also while REF_FREQ_HZ is 0 (DESIGN CHOICE, notes/assumptions/40.md). -/
def setEpochBad (t : Time) (p : List Byte) : Bool :=
  let f := t.ref.refFreq
  !(p.length = 8) || decide (1 < pField p 4 1) || pField p 5 1 = 0 || !pZero p 6 2 || pField p 0 4 = 0 ||
    (decide (f ≠ 0) && !epochLengthOk (pField p 0 4) f)

/-- SET_EPOCH. -/
def setEpochTime (p : List Byte) (s : State) : State :=
  let b := s.boundary
  let old := s.time.epoch
  let e : EpochCfg := { nominal := some (pField p 0 4), falling := pField p 4 1 = 1, tol := pField p 5 1 }
  let s := if e.nominal ≠ old.nominal || e.falling != old.falling then s.resetReference b else s
  ({ s with time := { s.time with epoch := e } } : State).nominal b

/-- SET_ST returns BAD_PARAM (R76). -/
def setStBad (p : List Byte) : Bool :=
  !(p.length = 28) || decide (1 < pField p 0 1) || !pZero p 1 7 || !pZero p 13 3

/-- SET_ST returns BAD_STATE (R54, R66). -/
def setStBadState (t : Time) (p : List Byte) : Bool :=
  t.ref.timeSrc || (pField p 0 1 = 1 && t.state ≠ .free)

/-- SET_ST: a label for the next accepted pulse, or ST set at the next anchor boundary. -/
def setStTime (p : List Byte) (s : State) : State :=
  if pField p 0 1 = 0 then { s with time := { s.time with label := some (pField p 8 5), labelHeld := false } }
  else { s with time := { s.time with pending := some { cause := 3, target := some (pField p 16 12) } } }

/-- SET_RETURN_POLICY returns BAD_PARAM (R77). -/
def setReturnBad (p : List Byte) : Bool :=
  !(p.length = 16) || decide (1000000 < pField p 0 4) || !pIn p 4 1 1 100 || !pZero p 5 3

/-- SET_RETURN_POLICY: a return in progress finishes under the policy with which it began (R52); a coast grows at the new rate from now on. -/
def setReturnTime (p : List Byte) (s : State) : State :=
  let b := s.boundary
  let u := s.time.u b
  let c := s.time.state = .coast
  ({ s with time := { s.time with
    uLoss := if c then u else s.time.uLoss
    lossSi := if c then b else s.time.lossSi
    growth := if c then pField p 8 4 else s.time.growth
    policy := { slewWindow := pField p 0 4, slewRate := pField p 4 1, holdover := pField p 8 4, uncAlarm := pField p 12 4 } } } : State).checkUnc

end Sys2Proof.Machine
end

