-- ==== Sys2Proof/Machine/Cells.lean ====
section
/-! DEFINITION. Input cells (03_input_cells.md): lanes and their calibration, settle windows and channel doubt, monitors, deskew, and what
SET_THRESHOLD, SET_INPUT_MODE, SET_DESKEW, CAL_DESKEW and CAL_INTERP do to the cells. -/

namespace Sys2Proof.Machine

/-- Channel c. -/
def State.cell (s : State) (c : Nat) : Cell := (tfind s.cells c).getD {}

/-- Channel c changed by f. -/
def State.modCell (s : State) (c : Nat) (f : Cell → Cell) : State := { s with cells := tmod s.cells c {} f }

/-- Region of channel c (R16). -/
def chRegion (c : Nat) : Nat := c / 256

/-! ### The comparator (R84, R85, R87) -/

/-- The comparator's settings as they stand. -/
def Cell.comparator (x : Cell) : Comparator := { diff := x.diff, thresh := x.thresh, hyst := x.hyst }

/-- The settings that decide a sample of slot t: a change counts from its boundary. -/
def Cell.comparatorAt (x : Cell) (t : SI) : Comparator := if t < x.cmpAt then x.oldCmp else x.comparator

/-- The cell with settings g put in force from boundary b on. -/
def Cell.setComparator (x : Cell) (b : SI) (g : Comparator) : Cell :=
  { x with diff := g.diff, thresh := g.thresh, hyst := g.hyst, oldCmp := if x.cmpAt = b then x.oldCmp else x.comparator, cmpAt := b }

/-- 4095 times how far the comparator's input lies above its switching point, in nV: V_T in single-ended mode, V_D in differential mode (R84). -/
def Comparator.above (g : Comparator) (v : Int × Int) : Int :=
  if g.diff then 4095 * (v.1 - v.2) - ((g.thresh : Int) - 2048) * 5500000000
  else 4095 * (v.1 + 2000000000) - (g.thresh : Int) * 5500000000

/-- The first sample: the input against the switching point alone (R87). -/
def Comparator.first (g : Comparator) (v : Int × Int) : Bool := decide (0 < g.above v)

/-- The level after a sample: beyond half the hysteresis it follows the input, within it stays (R85). -/
def Comparator.sample (g : Comparator) (level : Bool) (v : Int × Int) : Bool :=
  let half : Int := 4095 * 500000 * (g.hyst : Nat)
  if half < g.above v then true else if g.above v < -half then false else level

/-- Enabled for an edge at raw slot t: a change counts from its boundary (R143). -/
def Cell.enabledFor (x : Cell) (t : SI) : Bool :=
  match x.enableLog.find? (fun e => decide (e.1 ≤ t)) with
  | some e => e.2
  | none => match x.enableLog.getLast? with
    | some e => !e.2
    | none => x.enable

/-- The log of enablings after one at boundary b; two at one boundary cancel each other. The sequencer lags by at most 75 frames, in which
at most one boundary each can be logged. -/
def enableLogged (l : List (SI × Bool)) (b : SI) (on : Bool) : List (SI × Bool) :=
  match l with
  | (a, _) :: rest => if a = b then rest else ((b, on) :: l).take 128
  | [] => [(b, on)]

/-! ### Channel doubt (R89, R296) -/

/-- The cause bits of channel doubt. -/
def ChDoubt.causes (d : ChDoubt) : Nat := b2n d.settling + 2 * b2n d.stuck + 4 * b2n d.oor + 8 * b2n d.deskew

/-- A record placed in the transitions source of a channel's block. -/
def State.placeCh (s : State) (c : Nat) (r : Rec) : State :=
  s.place (blockSource (s.region (chRegion c)).cfg (c / 16)) r

/-- Channel doubt of c becomes d at slot x: the bracket opens, gains a cause or closes. -/
def State.setDoubt (s : State) (c : Nat) (d : ChDoubt) (x : SI) : State :=
  let cell := s.cell c
  let old := cell.doubt.causes
  let new := d.causes
  let opens := cell.enable && !cell.doubtOpen && decide (new ≠ 0)
  let closes := cell.doubtOpen && decide (new = 0)
  let joins := cell.doubtOpen && decide (new ≠ 0) && decide (Nat.lor old new ≠ old)
  let s := s.modCell c (fun y => { y with doubt := d, doubtOpen := (y.doubtOpen || opens) && !closes })
  let s := if opens then s.modRegion (chRegion c) (fun g => { g with
      stats := match tfind g.stats (c % 256) with
        | some z => tput g.stats (c % 256) { z with doubt := true }
        | none => g.stats }) else s
  if opens then s.placeCh c (recDoubtBegin 3 c x new false)
  else if closes then s.placeCh c (recDoubtEnd 3 c x)
  else if joins then s.placeCh c (recDoubtBegin 3 c x new true)
  else s

/-- The bracket of a channel that is disabled in doubt closes at slot x, whatever causes remain (R89). Causes that remain are in the bracket that
enabling opens with its settle window. -/
def State.bracketDisable (s : State) (c : Nat) (x : SI) : State :=
  if (s.cell c).doubtOpen then (s.modCell c (fun y => { y with doubtOpen := false })).placeCh c (recDoubtEnd 3 c x) else s

/-! ### Settle windows (R88) -/

/-- The settle window in slots: 2 µs rounded up to whole frames. -/
def settleSlots (khz : Nat) : Nat := ceil16 (slotsOfNs khz 2000)

/-- The settle window of channel c opens or restarts at boundary b. -/
def State.openSettle (s : State) (c : Nat) (b : SI) : State :=
  let cell := s.cell c
  let s := s.modCell c (fun y => { y with
    settleFrom := if cell.doubt.settling then y.settleFrom else b
    settleUntil := some (b + settleSlots s.time.ref.rateKhz) })
  s.setDoubt c { cell.doubt with settling := true } b

/-- An edge at raw slot x carries SETTLE. -/
def Cell.settles (x : Cell) (t : SI) : Bool :=
  match x.settleUntil with
  | none => false
  | some u => decide (x.settleFrom ≤ t ∧ t < u)

/-- SETTLE_WINDOW_END: the window ends, and the bracket with it where no other cause holds it. -/
def execSettleWindowEnd (t : SI) (ch : Fin 1024) (s : State) : Host.Outcome State Fault Refusal :=
  let s := s.moment t
  let cell := s.cell ch.val
  match cell.settleUntil with
  | none => .next s
  | some u =>
    if s.time.si < u then .next s
    else .next ((s.modCell ch.val (fun y => { y with settleUntil := none })).setDoubt ch.val { cell.doubt with settling := false } u)

/-- DESKEW_DOUBT_END: 3 frames after a deskew change (R100). -/
def execDeskewDoubtEnd (t : SI) (ch : Fin 1024) (s : State) : Host.Outcome State Fault Refusal :=
  let s := s.moment t
  let cell := s.cell ch.val
  match cell.deskewUntil with
  | none => .next s
  | some u =>
    if s.time.si < u then .next s
    else .next ((s.modCell ch.val (fun y => { y with deskewUntil := none })).setDoubt ch.val { cell.doubt with deskew := false } u)

/-- INPUT_OUT_OF_RANGE (R92). -/
def execInputOutOfRange (t : SI) (ch : Fin 1024) (s : State) : Host.Outcome State Fault Refusal :=
  let s := s.moment t
  let cell := s.cell ch.val
  if !cell.enable || cell.doubt.oor then .next s
  else .next ((s.setDoubt ch.val { cell.doubt with oor := true } s.boundary).raise (regionEvent (chRegion ch.val) 2))

/-- OUT_OF_RANGE_END (R92). -/
def execOutOfRangeEnd (t : SI) (ch : Fin 1024) (s : State) : Host.Outcome State Fault Refusal :=
  let s := s.moment t
  let cell := s.cell ch.val
  if cell.doubt.oor then .next (s.setDoubt ch.val { cell.doubt with oor := false } s.boundary) else .next s

/-! ### The stuck monitor (R91) -/

/-- Channel c at the anchor boundary x: `dis` frames of the interval disagreed. -/
def State.checkStuck (s : State) (x : SI) (c dis : Nat) : State :=
  let cell := s.cell c
  let s := s.modCell c (fun y => { y with anchorEdges := 0 })
  if !cell.enable then s
  else if !cell.doubt.stuck && cell.anchorEdges = 0 && decide (16 ≤ dis) then
    (s.setDoubt c { cell.doubt with stuck := true } (x - 1048576)).raise (regionEvent (chRegion c) 1)
  else if cell.doubt.stuck && decide (0 < cell.anchorEdges) && decide (dis < 16) then
    s.setDoubt c { cell.doubt with stuck := false } x
  else s

/-- Every channel at the anchor boundary x. A channel that is not named disagreed in no frame. -/
def State.checkStuckAll (s : State) (x : SI) (dis : List (Fin 1024 × Nat)) : State :=
  (s.cells.map (fun e => e.1)).foldl (fun s c =>
    s.checkStuck x c (((dis.find? (fun d => d.1.val = c)).map (fun d => d.2)).getD 0)) s

/-! ### Lanes (R19, R93 to R95) -/

/-- A calibration pass meets every limit of R95; S1, S2 and σ1 come in 1/1024 raw unit. -/
def lanePassOk (p : LanePass) : Bool :=
  let d := p.s2 - p.s1
  decide (85 * d ≤ 6553600) && decide (6553600 ≤ 115 * d) &&
    decide (((64 * d : Nat) - (64 * p.s1 : Nat) : Int).natAbs ≤ 16 * d) &&
    decide (((p.s2 : Int) - 2 * p.s1).natAbs ≤ 2048) && decide (p.sigma ≤ 2048)

/-- A lane that passed, with the spans of the pass. A pass that is not listed measured S1 = 64 and S2 = 128 raw units
(notes/assumptions/17.md). -/
def Lane.accept (l : Lane) (p : Option LanePass) : Lane :=
  let s1 := (p.map (fun p => p.s1)).getD 65536
  { l with good := true, retired := false, s1 := s1, span := (p.map (fun p => p.s2)).getD 131072 - s1 }

/-- The fine code of a live edge that the lane measured as `raw`: gain × raw + offset with gain 64 ÷ (S2 − S1) and offset 64 − gain × S1, rounded,
halves up, and limited to 0 to 63 (R95). -/
def Lane.fineCode (l : Lane) (raw : Nat) : Nat :=
  (clampInt 0 63 ((2 * (64 * (1024 * (raw : Int) + l.span - l.s1)) + l.span) / (2 * l.span : Nat))).toNat

/-- A lane that failed. -/
def Lane.fail (l : Lane) : Lane := { l with good := false, retired := true }

/-- The lanes in service: good and not calibrating, two at most, the later ones of three (R19, R93). -/
def Cell.serving (x : Cell) : List Nat :=
  if x.parCal then []
  else
    let l := (List.range 3).filter (fun k => k ≠ x.calLane && (x.lanes.getD k {}).good)
    l.drop (l.length - 2)

/-- Good lanes. -/
def Cell.goodLanes (x : Cell) : Nat := (x.lanes.filter (fun l => l.good)).length

/-- The lane that serves an edge at raw slot t (R19): of those in service and free in the slot, the one whose latest edge is older; where
neither is older, or neither has served an edge, the lower-numbered one (DESIGN CHOICE, notes/assumptions/59.md). -/
def Cell.serve (x : Cell) (t : SI) : Option Nat :=
  ((x.serving.filter (fun k => (x.lanes.getD k {}).lastSlot ≠ some t)).foldl (fun (b : Option Nat) k =>
    match b with
    | none => some k
    | some j => if (x.lanes.getD k {}).lastEdge < (x.lanes.getD j {}).lastEdge then some k else some j) none)

/-- Lane k of the cell changed by f. -/
def Cell.modLane (x : Cell) (k : Nat) (f : Lane → Lane) : Cell :=
  { x with lanes := x.lanes.zipIdx.map (fun e => if e.2 = k then f e.1 else e.1) }

/-- The result of one lane's pass at an anchor boundary; a pass that is not listed succeeded (notes/assumptions/17.md). Answers the cell,
whether the lane passed, and whether it was newly retired. -/
def Cell.passLane (x : Cell) (c k : Nat) (ps : List LanePass) : Cell × Bool × Bool :=
  let p := ps.find? (fun p => p.ch.val = c && p.lane.val = k)
  let ok := match p with
    | none => true
    | some p => lanePassOk p
  (x.modLane k (fun l => if ok then l.accept p else l.fail), ok, !ok && !(x.lanes.getD k {}).retired)

/-- The passes of several lanes: how many passed, and how many lanes were newly retired. -/
def Cell.passLanes (x : Cell) (c : Nat) (ks : List Nat) (ps : List LanePass) : Cell × Nat × Nat :=
  ks.foldl (fun a k =>
    let (y, ok, bad) := a.1.passLane c k ps
    (y, a.2.1 + b2n ok, a.2.2 + b2n bad)) (x, 0, 0)

/-- The CAL_INTERP job that holds channel c, running or suspended (R102). -/
def State.calJob (s : State) (c : Nat) : Option Job :=
  s.cmd.jobs.find? (fun j => j.ctx.opcode = 0x0211 && (j.state = .running || (j.state = .suspended && !j.fromQueued)) &&
    decide (pField j.ctx.params 0 2 ≤ c ∧ c < pField j.ctx.params 0 2 + pField j.ctx.params 2 2))

/-- A cell outside every CAL_INTERP job at an anchor boundary (R93, R94). -/
def Cell.rotate (x : Cell) (c : Nat) (ps : List LanePass) : Cell × Nat × Nat :=
  if x.rotating && decide (x.calLane < 3) then
    let (y, n, bad) := x.passLanes c [x.calLane] ps
    if n = 1 then ({ y with calLane := (x.calLane + 1) % 3 }, n, bad)
    else ({ y with calLane := 3, rotating := false }, n, bad)
  else if x.goodLanes = 3 then ({ x with rotating := true, calLane := 0 }, 0, 0)
  else ({ x with rotating := false, calLane := 3 }, 0, 0)

/-- A cell in a CAL_INTERP job at an anchor boundary: `stage` counts the boundaries since the job began to run (R102). The pass that ends
here is judged, and the next lane begins; a cell whose parallel pass has ended waits for the job's end. `first` says that the job is start-up's own (R535). -/
def Cell.calStage (x : Cell) (c stage : Nat) (requalify first : Bool) (ps : List LanePass) : Cell × Nat × Nat :=
  let ended := if x.parCal then [0, 1, 2] else if x.calLane < 3 then [x.calLane] else []
  let (y, n, bad) := x.passLanes c ended ps
  let y := { y with parCal := false, calLane := 3, rotating := false, parDone := false }
  if x.parDone && stage ≠ 0 then (x, 0, 0)
  else if x.parCal then
    (if first && y.goodLanes = 3 then ({ y with rotating := true, calLane := 0, parDone := true }, n, bad) else ({ y with parDone := true }, n, bad))
  else if stage = 0 && x.goodLanes = 0 && requalify then ({ y with parCal := true, parDone := false }, n, bad)
  else if stage < 3 then
    (if requalify || (y.lanes.getD stage {}).good then ({ y with calLane := stage }, n, bad) else (y, n, bad))
  else (y, n, bad)

/-- One cell at anchor boundary b. A pass that the clock's absence cut into is not judged: it begins again at the first anchor boundary after the
clock has returned (R57). Answers the state with event 64 + 16r for a newly retired lane, and a job's pass counted (R113); the rotation's
pass that ends where the job begins is none of the job's. -/
def State.laneBoundary (s : State) (b : SI) (c : Nat) (ps : List LanePass) : State :=
  let x := s.cell c
  let spoiled := decide (b < s.time.gateEnd + 1048576) && (x.parCal || decide (x.calLane < 3))
  match s.calJob c with
  | none =>
    if spoiled || (x.goodLanes = 0 && x.calLane = 3) then s
    else
      let r := x.rotate c ps
      (s.modCell c (fun _ => r.1)).raiseIf (0 < r.2.2) (regionEvent (chRegion c) 0)
  | some j =>
    if j.state = .suspended || (spoiled && j.progress ≠ 0) then s
    else
      let x := if spoiled then { x with parCal := false, calLane := 3 } else x
      let r := x.calStage c j.progress (bit (pField j.ctx.params 4 1) 0) (!s.startup.ready) ps
      let s := (s.modCell c (fun _ => r.1)).modJob j.id (fun k => { k with result := [(k.result.head?).getD 0 + (if j.progress = 0 then 0 else r.2.1)] })
      s.raiseIf (decide (0 < r.2.2) && s.startup.ready) (regionEvent (chRegion c) 0)

/-- Every cell's lanes at anchor boundary b, then the stage of each running CAL_INTERP job. Lanes neither rotate nor are judged while the cells have no
clock (R57). -/
def State.lanesBoundary (s : State) (b : SI) (ps : List LanePass) : State :=
  if s.time.gatedFrom.any (fun a => decide (a ≤ b)) then s
  else
    let spoiled := decide (b < s.time.gateEnd + 1048576)
    let s := (List.range 1024).foldl (fun s c => s.laneBoundary b c ps) s
    { s with cmd := { s.cmd with jobs := s.cmd.jobs.map (fun j =>
        if j.ctx.opcode = 0x0211 && j.state = .running && (j.progress = 0 || !spoiled) then { j with progress := j.progress + 1 } else j) } }

/-- The passes in progress of a CAL_INTERP job are interrupted: each lane keeps its earlier values and status (R102). -/
def State.stopPasses (s : State) (j : Job) : State :=
  let a := pField j.ctx.params 0 2
  { s with cells := s.cells.map (fun e =>
      if decide (a ≤ e.1 ∧ e.1 < a + pField j.ctx.params 2 2) then (e.1, { e.2 with parCal := false, calLane := 3, rotating := false }) else e) }

/-- Result words of a CAL_INTERP job (R113): lanes passed, lanes retired or left retired, cells left with no good lane. -/
def State.calResult (s : State) (j : Job) : List Nat :=
  let a := pField j.ctx.params 0 2
  let cs := (List.range (pField j.ctx.params 2 2)).map (fun k => s.cell (a + k))
  [(j.result.head?).getD 0, (cs.map (fun x => (x.lanes.filter (fun l => l.retired)).length)).sum,
   (cs.filter (fun x => x.goodLanes = 0)).length]

/-- The parameters of a CAL_INTERP job that the device starts over every cell. -/
def calAllParams (flags : Nat) : List Byte := leBytes 2 0 ++ leBytes 2 1024 ++ leBytes 1 flags ++ [0, 0, 0]

/-- The CAL_INTERP job that the device starts (R58, R535). -/
def State.startCal (s : State) (flags : Nat) : State :=
  s.startJob { origin := firmware, opcode := 0x0211, params := calAllParams flags } (if (s.jobOf 0x0211).isSome then .queued else .running) 0

/-! ### Commands (R100, R109 to R115) -/

/-- The channels that a MODE command names, with the entry of each: `size` bytes an entry, from byte 8. -/
def modeEntries (p : List Byte) (size : Nat) : List (Nat × List Byte) :=
  let first := pField p 0 2
  (List.range (pField p 2 2)).map (fun k =>
    (first + k, pBytes p (8 + (if pField p 4 1 = 1 then k * size else 0)) size))

/-- FIRST, COUNT, MODE and the length of a MODE command are in order (R115). -/
def modeShape (p : List Byte) (size : Nat) : Bool :=
  let n := pField p 2 2
  decide (pField p 0 2 < 1024) && decide (1 ≤ n ∧ n ≤ 1024) && decide (pField p 0 2 + n ≤ 1024) && decide (pField p 4 1 ≤ 1) &&
    decide (p.length = 8 + (if pField p 4 1 = 1 then size * n else size))

/-- SET_THRESHOLD returns BAD_PARAM. -/
def setThresholdBad (p : List Byte) : Bool :=
  !modeShape p 2 || !(decide (pField p 5 1 ≤ 100) || pField p 5 1 = 255) || !pZero p 6 2 ||
    (modeEntries p 2).any (fun e => decide (4096 ≤ leNat e.2))

/-- SET_THRESHOLD: codes and hysteresis at the boundary, opening settle windows where something changes. -/
def setThreshold (p : List Byte) (s : State) : State :=
  let b := s.boundary
  let h := pField p 5 1
  (modeEntries p 2).foldl (fun s e =>
    let x := s.cell e.1
    let code := leNat e.2
    let hyst := if h = 255 then x.hyst else h
    if code = x.thresh && hyst = x.hyst then s
    else (s.modCell e.1 (fun y => y.setComparator b { diff := y.diff, thresh := code, hyst := hyst })).openSettle e.1 b) s

/-- SET_INPUT_MODE returns BAD_PARAM. -/
def setInputModeBad (p : List Byte) : Bool :=
  !modeShape p 1 || !pZero p 5 3 || (modeEntries p 1).any (fun e => decide (8 ≤ leNat e.2))

/-- One channel's input mode at boundary b. An enabled channel takes the level of its first sample (R87); where the outside has not yet given the
channel's input that level is a free value (notes/assumptions/25.md). Disabling a channel opens no settle window (DESIGN CHOICE, notes/assumptions/42.md). -/
def State.setMode (s : State) (b : SI) (c entry : Nat) : State :=
  let x := s.cell c
  let on := bit entry 0
  let changed := bit entry 1 != x.diff || bit entry 2 != x.term50
  let enables := on && !x.enable
  let disables := !on && x.enable
  let lvl := (x.input.map ({ x.comparator with diff := bit entry 1 } : Comparator).first).getD ((Config.otherByte c s.freeCtr).getLsbD 0)
  let s := if enables && x.input.isNone then s.tick else s
  let s := if disables then s.bracketDisable c b else s
  let s := s.modCell c (fun y => { y.setComparator b { y.comparator with diff := bit entry 1 } with
    term50 := bit entry 2, enable := on
    enableLog := if enables || disables then enableLogged y.enableLog b on else y.enableLog
    enabledAt := if enables || disables then b else y.enabledAt
    firstSample := if enables then true else y.firstSample
    level := if enables then lvl else y.level
    levelAtEnable := if enables then lvl else y.levelAtEnable
    lastTime := if enables then none else y.lastTime })
  if enables || changed then s.openSettle c b else s

/-- SET_INPUT_MODE on the cells: all named channels at one boundary. -/
def setInputCells (p : List Byte) (s : State) : State :=
  let b := s.boundary
  (modeEntries p 1).foldl (fun s e => s.setMode b e.1 (leNat e.2)) s

/-- SET_DESKEW returns BAD_PARAM. -/
def setDeskewBad (p : List Byte) : Bool :=
  !modeShape p 2 || !pZero p 5 3 ||
    (modeEntries p 2).any (fun e => decide (toSigned 16 (leNat e.2) < -2048) || decide (2047 < toSigned 16 (leNat e.2)))

/-- One channel's deskew at boundary b: the new value holds for raw slots at or above b, and the channel is in doubt for 3 frames. -/
def State.putDeskew (s : State) (b : SI) (c : Nat) (d : Int) : State :=
  let x := s.cell c
  if d = x.deskew then s
  else
    (s.modCell c (fun y => { y with
      oldDeskew := if y.deskewAt = b then y.oldDeskew else y.deskew
      deskewAt := b, deskew := d, deskewUntil := some (b + 48) })).setDoubt c { x.doubt with deskew := true } b

/-- SET_DESKEW. -/
def setDeskewCells (p : List Byte) (s : State) : State :=
  let b := s.boundary
  (modeEntries p 2).foldl (fun s e => s.putDeskew b e.1 (toSigned 16 (leNat e.2))) s

/-- CAL_DESKEW returns BAD_PARAM. SLOPE, REF_CH and TIMEOUT_MS are checked for SOURCE 1 only (DESIGN CHOICE, notes/assumptions/44.md). -/
def calDeskewBad (p : List Byte) : Bool :=
  let a := pField p 0 2
  let n := pField p 2 2
  let ext := pField p 4 1 = 1
  !(p.length = 16) || !decide (1 ≤ n ∧ n ≤ 1024) || decide (1024 < a + n) || decide (1 < pField p 4 1) || decide (1 < pField p 12 1) ||
    !pZero p 13 3 || !pIn p 8 2 16 4096 ||
    (ext && (decide (1 < pField p 5 1) || !decide (a ≤ pField p 6 2 ∧ pField p 6 2 < a + n) || !pIn p 10 2 1 60000))

/-! ### The measurement of CAL_DESKEW with SOURCE 1 (R101) -/

/-- Fine LSB within which an edge belongs to an occurrence: ±32 slots. -/
def deskewReach : Nat := 2048

/-- Two fine times lie within reach of each other. -/
def inReach (a b : FineTime) : Bool := decide (a ≤ b + deskewReach) && decide (b ≤ a + deskewReach)

/-- One occurrence more for channel c, `d` fine LSB before REF_CH's edge, as long as fewer than `edges` are collected. -/
def DeskewCal.collect (m : DeskewCal) (c edges : Nat) (d : Int) : DeskewCal :=
  { m with sums := tmod m.sums c (0, 0) (fun e => if e.1 < edges then (e.1 + 1, e.2 + d) else e) }

/-- An edge of REF_CH at time u: an occurrence, to which waiting edges of other channels are attributed: of each channel the
first within reach, and at most one to an occurrence (DESIGN CHOICE, notes/assumptions/60.md). -/
def DeskewCal.refEdge (m : DeskewCal) (ref edges : Nat) (u : FineTime) : DeskewCal :=
  let near := m.early.filter (fun e => inReach e.2 u)
  let first := near.foldl (fun (l : List (Nat × FineTime)) e => if l.any (fun x => x.1 = e.1) then l else l ++ [e]) []
  let m := first.foldl (fun m e => m.collect e.1 edges ((u : Int) - e.2)) (m.collect ref edges 0)
  { m with
    refs := (u, first.map (fun e => e.1)) :: m.refs.take 15
    early := m.early.filter (fun e => !first.contains e && decide (u ≤ e.2 + 2 * deskewReach)) }

/-- An edge of another channel at time u: attributed to the first occurrence within reach that has none of this channel, or kept for a later one. -/
def DeskewCal.otherEdge (m : DeskewCal) (c edges : Nat) (u : FineTime) : DeskewCal :=
  match m.refs.reverse.find? (fun r => inReach r.1 u && !r.2.contains c) with
  | some r =>
    { m.collect c edges ((r.1 : Int) - u) with refs := m.refs.map (fun x => if x = r then (x.1, c :: x.2) else x) }
  | none => { m with early := m.early.filter (fun e => decide (u ≤ e.2 + 2 * deskewReach)) ++ [(c, u)] }

/-- The running CAL_DESKEW job with SOURCE 1. -/
def State.deskewJob (s : State) : Option Job :=
  s.cmd.jobs.find? (fun j => j.ctx.opcode = 0x0210 && j.state = .running && pField j.ctx.params 4 1 = 1)

/-- What the job has measured so far. -/
def State.deskewCal (s : State) (job : Nat) : DeskewCal :=
  match s.cmd.deskew with
  | some m => if m.job = job then m else { job := job }
  | none => { job := job }

/-- A deskewed edge of channel c reaches the measurement. -/
def State.deskewEdge (s : State) (c : Nat) (u : FineTime) (level : Bool) : State :=
  match s.deskewJob with
  | none => s
  | some j =>
    let p := j.ctx.params
    let chosen := decide (pField p 0 2 ≤ c ∧ c < pField p 0 2 + pField p 2 2) && level = (pField p 5 1 = 0)
    if !chosen then s
    else
      let m := s.deskewCal j.id
      let m := if c = pField p 6 2 then m.refEdge c (pField p 8 2) u else m.otherEdge c (pField p 8 2) u
      { s with cmd := { s.cmd with deskew := some m } }

/-- What the measurement gives: per channel the new deskew, none for one that collected fewer than EDGES occurrences. REF_CH keeps its value.
The mean is rounded to a whole fine LSB, halves up (DESIGN CHOICE, notes/assumptions/60.md). -/
def State.deskewMeasured (s : State) (j : Job) : List (Nat × Option Int) :=
  let p := j.ctx.params
  let n := pField p 8 2
  let m := s.deskewCal j.id
  (List.range (pField p 2 2)).map (fun k =>
    let c := pField p 0 2 + k
    let e := (tfind m.sums c).getD (0, 0)
    (c, if e.1 < n then none else some ((s.cell c).deskew + (2 * e.2 + n) / (2 * n))))

/-- The job is over: every channel has its EDGES occurrences, or TIMEOUT_MS has passed since it began to run. -/
def State.deskewOver (s : State) (j : Job) : Bool :=
  (s.deskewMeasured j).all (fun e => e.2.isSome) ||
    decide (j.since + slotsOfNs s.time.ref.rateKhz (1000000 * pField j.ctx.params 10 2) ≤ s.time.si)

/-- What CAL_DESKEW found for channel c: a value in range, out of range, or timed out (R101). -/
def deskewFound (found : List (Nat × Option Int)) (c : Nat) : Option Int :=
  ((found.find? (fun e => e.1 = c)).map (fun e => e.2)).getD none

/-- A deskew value in range. -/
def deskewOk (d : Int) : Bool := decide (-2048 ≤ d) && decide (d ≤ 2047)

/-- A finished CAL_DESKEW (R101, R112): statuses, and with APPLY the new values at the present boundary. Answers the state, the result
words and the bytes written. -/
def State.endDeskew (s : State) (p : List Byte) (found : List (Nat × Option Int)) : State × List Nat × List Byte :=
  let a := pField p 0 2
  let cs := (List.range (pField p 2 2)).map (fun k => a + k)
  let value := deskewFound found
  let good := cs.filter (fun c => match value c with
    | some d => deskewOk d
    | none => false)
  let late := cs.filter (fun c => (value c).isNone)
  let s1 := cs.foldl (fun s c => s.modCell c (fun y => { y with calFail := !good.contains c })) s
  let words := [good.length, cs.length - good.length - late.length, late.length]
  if pField p 12 1 = 1 then
    let b := s.boundary
    (good.foldl (fun s c => s.putDeskew b c ((value c).getD 0)) s1, words,
      good.flatMap (fun c => leBytes 2 (toField 16 ((value c).getD 0))))
  else (s1, words, [])

/-- CAL_INTERP returns BAD_PARAM. -/
def calInterpBad (p : List Byte) : Bool :=
  !(p.length = 8) || !decide (1 ≤ pField p 2 2 ∧ pField p 2 2 ≤ 1024) || decide (1024 < pField p 0 2 + pField p 2 2) ||
    !pBits p 4 1 || !pZero p 5 3

end Sys2Proof.Machine
end

