-- ==== Sys2Proof/Machine/Taps.lean ====
section
/-! DEFINITION. What happens to a deskewed edge (01_architecture.md, 03_input_cells.md, 06_reductions_and_windows.md): the alignment buffer
and the burst SRAM, the state and statistics reductions, the interval units, and the region writer's time-driven rows. -/

namespace Sys2Proof.Machine

/-! ### Alignment buffer and burst SRAM (R20, R26, R99) -/

/-- Block b. -/
def State.block (s : State) (b : Nat) : Block := (tfind s.blocks b).getD {}

/-- Block b changed by f. -/
def State.modBlock (s : State) (b : Nat) (f : Block → Block) : State := { s with blocks := tmod s.blocks b {} f }

/-- The frame of an aligned edge. -/
def Aligned.frame (a : Aligned) : Nat := a.time / 1024

/-- The order of R20: frame, slot, cell. -/
def Aligned.before (a b : Aligned) : Bool :=
  decide (a.frame < b.frame) || (a.frame = b.frame && (decide (a.key < b.key) ||
    (a.key = b.key && decide (a.edge.cell ≤ b.edge.cell))))

/-- An edge set in its place. -/
def insertOrdered (l : List Aligned) (a : Aligned) : List Aligned :=
  match l with
  | [] => [a]
  | x :: rest => if x.before a then x :: insertOrdered rest a else a :: x :: rest

/-- The leading edge of the glitch whose trailing edge is `a`: the latest leading edge of its cell, within a slot of it. -/
def leadingOf (l : List Aligned) (a : Aligned) : Option Aligned :=
  ((l.filter (fun x => x.edge.gf && x.edge.cell = a.edge.cell)).foldl (fun (b : Option Aligned) x =>
    if b.any (fun y => decide (x.time < y.time)) then b else some x) none).filter (fun x => decide (((x.time : Int) - a.time).natAbs < 64))

/-- The trailing edge of a glitch set directly after its leading edge x. -/
def placeTrailing (l : List Aligned) (x a : Aligned) : List Aligned :=
  match l with
  | [] => [a]
  | y :: rest => if y = x then y :: { a with key := x.key } :: rest else y :: placeTrailing rest x a

/-- An edge entered into the alignment buffer (R20): the trailing edge of a glitch follows its leading edge where both lie in one frame. -/
def insertAligned (l : List Aligned) (a : Aligned) (trailing : Bool) : List Aligned :=
  match if trailing then (leadingOf l a).filter (fun x => x.frame = a.frame) else none with
  | some x => placeTrailing l x a
  | none => insertOrdered l a

/-- The aligned form of a deskewed edge. -/
def SeqEdge.aligned (e : SeqEdge) : Aligned :=
  { time := e.time
    key := e.time / 64 % 16
    edge := { cell := e.ch % 16, slot := e.time / 64 % 16, fine := e.time % 64, level := e.level, gf := e.glitch = 1,
              settle := e.settle, coarse := e.coarse } }

/-- A list of edges of one frame as frame entries of at most 255 edges (R20). -/
def chunkEntries (frame : Nat) (es : List Edge) (fuel : Nat) : List FrameEntry :=
  match fuel with
  | 0 => []
  | k + 1 => if es = [] then [] else { frame := frame, edges := es.take 255 } :: chunkEntries frame (es.drop 255) k

/-- Bytes of a frame entry in the burst SRAM (R30). -/
def FrameEntry.bytes (e : FrameEntry) : Nat := 4 + 2 * e.edges.length

/-- The burst SRAM in bytes. -/
def burstSize : Nat := 262144

/-- Bytes that a drain lane carries in one frame: 20 GB/s (R21). -/
def drainRate : Nat := 80

/-- Entries that have left the burst SRAM completely once n bytes remain in it. -/
def popEntries (es : List FrameEntry) (left : Nat) : List FrameEntry × List FrameEntry :=
  match es with
  | [] => ([], [])
  | e :: rest =>
    if left ≤ (rest.map FrameEntry.bytes).sum then
      let (out, keep) := popEntries rest left
      (e :: out, keep)
    else ([], e :: rest)

/-- The drain lane up to frame f. Answers the entries that reached the region writer. -/
def Block.drainTo (x : Block) (f : Nat) : Block × List FrameEntry :=
  let left := x.fill - drainRate * (f - x.drained)
  let (out, keep) := popEntries x.entries left
  ({ x with entries := keep, fill := left, drained := max f x.drained }, out)

/-- One frame's entries encoded at frame `now`: written whole, or discarded with every later frame until the encoder resumes (R26). -/
def Block.encode (x : Block) (now : Nat) (es : List FrameEntry) : Block × List FrameEntry :=
  let (y, out) := x.drainTo now
  let n := (es.map FrameEntry.bytes).sum
  match y.discardFrom, es with
  | some _, _ => (y, out)
  | none, [] => (y, out)
  | none, e :: _ =>
    if burstSize < y.fill + n then ({ y with discardFrom := some e.frame }, out)
    else ({ y with entries := y.entries ++ es, fill := y.fill + n, peak := max y.peak (y.fill + n) }, out)

/-- Frames of the alignment buffer that are complete at slot x (R99: 4 frames after their start) are encoded in order. -/
def Block.release (x : Block) (now : SI) (fuel : Nat) : Block × List FrameEntry :=
  match fuel with
  | 0 => (x, [])
  | k + 1 =>
    match x.align with
    | [] => (x, [])
    | a :: _ =>
      if now < 16 * (a.frame + 4) then (x, [])
      else
        let mine := x.align.filter (fun y => y.frame = a.frame)
        let rest := x.align.filter (fun y => y.frame ≠ a.frame)
        let (y, out) := ({ x with align := rest } : Block).encode (a.frame + 4)
          (chunkEntries a.frame (mine.map (fun y => y.edge)) (mine.length + 1))
        let (z, more) := y.release now k
        (z, out ++ more)

/-- Block b brought up to slot `now`: entries that have drained are placed in their source. At a frame boundary 16k the encoder has reached
frame k − 4. -/
def State.advanceBlock (s : State) (b : Nat) (now : SI) : State :=
  let x := s.block b
  let (y, out) := x.release now (x.align.length + 1)
  let (z, more) := y.drainTo (now / 16)
  let s := s.modBlock b (fun _ => { z with nextFrame := max z.nextFrame (now / 16 - 3) })
  (out ++ more).foldl (fun s e => s.placeEntry b e) s

/-- The next frame at which the block's encoder takes a frame from the alignment buffer or an entry leaves its burst SRAM (R21, R99). -/
def Block.nextEvent (x : Block) : Option Nat :=
  let enc := (x.align.head?).map (fun a => max (a.frame + 4) x.drained)
  let out := match x.entries with
    | [] => none
    | _ :: rest => some (x.drained + (x.fill - (rest.map FrameEntry.bytes).sum + drainRate - 1) / drainRate)
  match enc, out with
  | some a, some b => some (min a b)
  | some a, none => some a
  | none, b => b

/-- The state as block b's drain lane finds it at frame f, and the present slot again after it: what closes there closes in that frame (R21). -/
def State.blockAtFrame (s : State) (b f : Nat) : State :=
  let y := ({ s with time := { s.time with si := 16 * f } } : State).advanceBlock b (16 * f)
  { y with time := { y.time with si := s.time.si } }

/-- The block whose next event comes first, up to frame `now`: the lower-numbered one where two come in one frame. -/
def State.nextBlock (s : State) (now : Nat) : Option (Nat × Nat) :=
  s.blocks.foldl (fun (a : Option (Nat × Nat)) e => match e.2.nextEvent with
    | none => a
    | some f => if decide (now < f) || a.any (fun y => decide (y.2 ≤ f)) then a else some (e.1, f)) none

/-- Events of the blocks up to frame `now`, in the order of their frames. -/
def State.drainBlocks (s : State) (now fuel : Nat) : State :=
  match fuel with
  | 0 => s
  | k + 1 =>
    match s.nextBlock now with
    | none => s
    | some (b, f) => (s.blockAtFrame b f).drainBlocks now k

/-- Every block brought up to the present slot, the blocks' entries in the order in which their lanes carry them (R21), and waiting records placed. -/
def State.advanceBlocks (s : State) : State :=
  let s := s.drainBlocks (s.time.si / 16) (s.blocks.map (fun e => 2 * e.2.align.length + e.2.entries.length + 1)).sum
  ((s.blocks.map (fun e => e.1)).foldl (fun s b => s.advanceBlock b s.time.si) s).releaseAll

/-- Everything in the block's buffers placed at once, as at the end of a run. -/
def State.flushBlock (s : State) (b : Nat) : State :=
  let x := s.block b
  let (y, out) := x.release ((x.align.foldl (fun a e => max a e.time) 0) / 64 + 64) (x.align.length + 1)
  let s := s.modBlock b (fun _ => { y with entries := [], fill := 0 })
  (out ++ y.entries).foldl (fun s e => s.placeEntry b e) s

/-- The block ENVELOPE selvedge of a discard up to slot e (R26), counted. -/
def State.blockSelvedge (s : State) (b : Nat) (e : SI) : State :=
  match (s.block b).discardFrom with
  | none => s
  | some f =>
    let s := s.modBlock b (fun x => { x with discardFrom := none, ovfCnt := if 16 * f < e then satInc 8 x.ovfCnt else x.ovfCnt })
    if 16 * f < e then
      s.place (blockSource (s.region (b / 16)).cfg b) (recSelvedge selEnvelope 2 b (16 * f) (e - 16 * f))
    else s

/-- BURST_SRAM_RESUME: the encoder writes again at the frame boundary at which 64 KiB are free (R26). The frame that it takes up there is the first that
is not discarded. -/
def execBurstSramResume (t : SI) (block : Fin 64) (s : State) : Host.Outcome State Fault Refusal :=
  let s := s.moment t
  let b := s.boundary
  let s := s.advanceBlock block.val (b - 1)
  let x := s.block block.val
  if burstSize < (x.drainTo (b / 16)).1.fill + 65536 then .next s
  else .next (s.blockSelvedge block.val (16 * max (b / 16 - 4) x.nextFrame))

/-- BURST_SRAM_PARITY_ERROR: frames with an entry in the bad word are discarded with a POISON selvedge (R27). -/
def execBurstSramParityError (t : SI) (block : Fin 64) (firstFrame lastFrame : Nat) (s : State) : Host.Outcome State Fault Refusal :=
  let s := (s.moment t).advanceBlock block.val (s.moment t).time.si
  let bad := fun (e : FrameEntry) => decide (firstFrame ≤ e.frame ∧ e.frame ≤ lastFrame)
  if (s.block block.val).entries.any bad then
    let s := s.modBlock block.val (fun x => { x with entries := x.entries.filter (fun e => !bad e) })
    .next (s.place (blockSource (s.region (block.val / 16)).cfg block.val)
      (recSelvedge selPoison 2 block.val (16 * firstFrame) (16 * (lastFrame + 1 - firstFrame))))
  else .next s

/-! ### State reduction (R208 to R211) -/

/-- An edge's new level meets a slope: 0 rising, 1 falling, 2 both. -/
def slopeOk (slope : Nat) (level : Bool) : Bool := slope = 2 || (slope = 0 && level) || (slope = 1 && !level)

/-- Edges of a channel that samples may still need: those from `from_` on and the latest before. -/
def prunePast (l : List PastEdge) (from_ : FineTime) : List PastEdge :=
  let old := l.filter (fun e => decide (e.time < from_))
  old.drop (old.length - 1) ++ l.filter (fun e => decide (from_ ≤ e.time))

/-- The earliest time that a pending sample of the region looks at. -/
def Region.needs (g : Region) (now : FineTime) : FineTime :=
  g.samples.foldl (fun a x => min a ((x.time : Int) + x.cfg.ofs - x.cfg.setup).toNat) (now - 8192)

/-- State clock k at a clock edge (R210): a pending sample, or a skip beyond the fourth in the frame. Answers whether the frame's first
skip is this one. -/
def Region.clockEdge (g : Region) (k : Nat) (c : StateClock) (e : SeqEdge) : Region × Bool :=
  let f := e.time / 1024
  let n := match tfind g.frameClocks k with
    | some (h, n) => if h = f then n else 0
    | none => 0
  let g := { g with frameClocks := tput g.frameClocks k (f, n + 1) }
  if n < 4 then
    ({ g with samples := g.samples ++ [({ clock := k, cfg := c, time := e.time, settle := e.settle, coarse := e.coarse } : PendingSample)] }, false)
  else ({ g with stateSkip := satInc 16 g.stateSkip }, n = 4)

/-- The state clocks that sample edges of slot x (R216). -/
def Region.clocksFor (g : Region) (x : SI) : Tab StateClock := if x < g.clocksAt then g.oldClocks else g.cfg.clocks

/-- The state clocks of region r take an edge. -/
def State.clockEdges (s : State) (r : Nat) (e : SeqEdge) : State :=
  let k := e.ch % 256
  ((s.region r).clocksFor (e.time / 64)).foldl (fun s c =>
    if c.2.clk = k && slopeOk c.2.slope e.level then
      let (g, skip) := (s.region r).clockEdge c.1 c.2 e
      let s := s.modRegion r (fun _ => g)
      if skip then
        let once := onceAnchor s g.skipEvent
        let s := s.modRegion r (fun y => { y with skipEvent := some (s.time.si / 1048576) })
        (s.place (stateSource r c.1) (recSelvedge selEnvelope 4 (stateSource r c.1) (e.time / 1024 * 16) 16)).raiseIf once (regionEvent r 4)
      else s
    else s) s

/-- The state clocks of region r take the edges of slots below b, under the settings of their slots (R216). -/
def State.drainClocks (s : State) (r : Nat) (b : SI) : State :=
  let now := (s.region r).clockBuf.filter (fun e => decide (e.time / 64 < b))
  now.foldl (fun s e => s.clockEdges r e) (s.modRegion r (fun g => { g with clockBuf := g.clockBuf.filter (fun e => decide (b ≤ e.time / 64)) }))

/-- The state reduction takes an edge; its clocks wait for the frame boundary at or below which no command can take effect any more. -/
def State.stateEdge (s : State) (e : SeqEdge) : State :=
  let r := chRegion e.ch
  (s.modRegion r (fun g => { g with
    past := tmod g.past (e.ch % 256) [] (fun l => prunePast (l ++ [({ time := e.time, level := e.level, settle := e.settle, coarse := e.coarse, glitch := e.glitch } : PastEdge)]) (g.needs e.time))
    clockBuf := g.clockBuf ++ [e] })).drainClocks r s.boundary

/-- What a data channel shows to a sample (R209): value, setup and hold violation, SETTLE. -/
def dataBit (l : List PastEdge) (base : Bool) (p : Int) (setup hold : Nat) : Bool × Bool × Bool × Bool :=
  let upTo := l.filter (fun e => decide ((e.time : Int) ≤ p))
  let inSetup := l.filter (fun e => decide (p - setup ≤ (e.time : Int) ∧ (e.time : Int) ≤ p))
  let inHold := l.filter (fun e => decide (p < (e.time : Int) ∧ (e.time : Int) ≤ p + hold))
  (((upTo.getLast?).map (fun e => e.level)).getD base, !inSetup.isEmpty, !inHold.isEmpty, (inSetup ++ inHold).any (fun e => e.settle))

/-- The STATE record of a pending sample (R209, R211). -/
def State.sampleRec (s : State) (r : Nat) (x : PendingSample) : Rec × Bool :=
  let g := s.region r
  let chans := (List.range 256).filter (fun k => x.cfg.mask.getLsbD k)
  let p := (x.time : Int) + x.cfg.ofs
  let obs := chans.map (fun k =>
    let c := s.cell (256 * r + k)
    if c.enabledFor (p.toNat / 64) then dataBit ((tfind g.past k).getD []) c.levelAtEnable p x.cfg.setup x.cfg.hold else (false, false, false, false))
  let word := fun (bs : List Bool) => bs.zipIdx.foldl (fun a e => a + b2n e.1 * 2 ^ e.2) 0
  let su := word (obs.map (fun o => o.2.1))
  let ho := word (obs.map (fun o => o.2.2.1))
  let viol := decide (su ≠ 0) || decide (ho ≠ 0)
  (recState x.clock (x.time % 64) chans.length (x.time / 64) (x.settle || obs.any (fun o => o.2.2.2)) x.coarse viol
    (word (obs.map (fun o => o.1))) su ho, viol)

/-- A pending sample completes: STATE in the clock's source, VIOL counted and event 64 + 16r + 5 once an anchor interval. -/
def State.finishSample (s : State) (r : Nat) (x : PendingSample) : State :=
  let (rc, viol) := s.sampleRec r x
  let once := onceAnchor s (s.region r).violEvent
  let s := s.modRegion r (fun g => { g with
    samples := g.samples.erase x
    stateViol := if viol then satInc 16 g.stateViol else g.stateViol
    violEvent := if viol then some (s.time.si / 1048576) else g.violEvent })
  (s.place (stateSource r x.clock) rc).raiseIf (viol && once) (regionEvent r 5)

/-- The slot at which the frame of p + HOLD has left the alignment buffer, 4 frames after its start, and so passed the reduction (R99, R209). -/
def PendingSample.due (x : PendingSample) : SI := floor16 (((x.time : Int) + x.cfg.ofs + x.cfg.hold).toNat / 64) + 64

/-- STATE_SAMPLE_COMPLETE: the clock's oldest pending sample completes once its frame has passed. -/
def execStateSampleComplete (t : SI) (region : Fin 4) (clock : Fin 16) (s : State) : Host.Outcome State Fault Refusal :=
  let s := (s.moment t).drainClocks region.val (s.moment t).boundary
  match (s.region region.val).samples.find? (fun x => x.clock = clock.val) with
  | none => .next s
  | some x => if s.time.si < x.due then .next s else .next (s.finishSample region.val x)

/-! ### Statistics (R212 to R214) -/

/-- The least of a measured width and what was measured before. -/
def minWidth (a : Option Nat) (w : Nat) : Option Nat :=
  match a with
  | none => some w
  | some b => some (min b w)

/-- One edge counted. -/
def Stats.edge (x : Stats) (e : SeqEdge) : Stats :=
  let w := x.lastEdge.map (fun a => e.time - a)
  let x := match w with
    | none => x
    | some w => if e.level then { x with minLow := minWidth x.minLow w, maxLow := max x.maxLow w }
      else { x with minHigh := minWidth x.minHigh w, maxHigh := max x.maxHigh w }
  let rise := e.level && e.glitch = 0
  { x with
    edges := x.edges + 1
    glitches := x.glitches + b2n (e.glitch = 1)
    highTime := x.highTime + (if e.level then 0 else e.time - x.levelSince)
    firstRise := if rise && x.firstRise.isNone then some e.time else x.firstRise
    lastRise := if rise then e.time else x.lastRise
    rises := x.rises + b2n rise
    lastEdge := some e.time
    level := e.level
    levelSince := e.time
    settle := x.settle || e.settle
    coarse := x.coarse || e.coarse }

/-- The time at level 1 that is counted up to fine time u: none of it in a gated span (R214). -/
def Stats.high (x : Stats) (u : FineTime) (gatedFrom : Option SI) : Nat :=
  match gatedFrom with
  | none => if x.level then u - x.levelSince else 0
  | some a => if x.level then min u (64 * a) - x.levelSince else 0

/-- The gathering of a window ends at fine time x: the time at level 1 up to there, unless the cells are gated. -/
def Stats.stop (x : Stats) (u : FineTime) (gatedFrom : Option SI) : Stats :=
  { x with highTime := x.highTime + x.high u gatedFrom, gap := x.gap || gatedFrom.any (fun a => decide (64 * a < u)) }

/-- The window that follows, from fine time x. -/
def Stats.next (x : Stats) (t : FineTime) (doubt gated partial' : Bool) : Stats :=
  { start := t, lastEdge := x.lastEdge, level := x.level, levelSince := t, doubt := doubt, gap := gated, partial_ := partial' }

/-- Slots of a statistics window. -/
def statLen (log2 : Nat) : Nat := 2 ^ (log2 + 4)

/-- The slot at which the window in progress of a region ends. -/
def Region.statEnd (g : Region) : SI := (g.statStart / statLen g.cfg.statLog2 + 1) * statLen g.cfg.statLog2

/-- A masked and enabled channel's fresh statistics from slot b. -/
def State.freshStats (s : State) (r k : Nat) (b : SI) (partial' : Bool) : Stats :=
  let c := s.cell (256 * r + k)
  { start := 64 * b, level := c.level, levelSince := 64 * b, partial_ := partial', doubt := decide (c.doubt.causes ≠ 0), gap := s.time.gatedFrom.isSome }

/-- An edge counted in its channel's statistics, where they are gathered. -/
def countEdge (t : Tab Stats) (e : SeqEdge) : Tab Stats :=
  match tfind t (e.ch % 256) with
  | some x => tput t (e.ch % 256) (x.edge e)
  | none => t

/-- Buffered edges below fine time h are counted, those of a later window excepted; while an ended window waits, none. -/
def Region.countStats (g : Region) (h : FineTime) : Region :=
  let lim := if g.ended = [] then min h (64 * g.statEnd) else 0
  let now := g.statBuf.filter (fun e => decide (e.time < lim))
  { g with
    statBuf := g.statBuf.filter (fun e => decide (lim ≤ e.time))
    stats := now.foldl countEdge g.stats }

/-- The statistics of region r brought up to fine time h. -/
def State.advanceStats (s : State) (r : Nat) (h : FineTime) : State := s.modRegion r (fun g => g.countStats h)

/-- The fine time below which no further edge can come: deskew moves an edge by at most 32 slots. -/
def State.edgeHorizon (s : State) : FineTime := 64 * (s.time.si - 32)

/-- The statistics reduction takes an edge, which counts once no edge before it can come and its window has begun. -/
def State.statEdge (s : State) (e : SeqEdge) : State :=
  let h := s.edgeHorizon
  s.modRegion (chRegion e.ch) (fun g =>
    let late := g.ended.any (fun w => decide (e.time < 64 * w.fin) && (tfind w.stats (e.ch % 256)).isSome)
    if !late && (!g.cfg.statsOn || !g.cfg.chMask.getLsbD (e.ch % 256)) then g else ({ g with statBuf := g.statBuf ++ [e] } : Region).countStats h)

/-- The STATS record of channel k of region r for the window from slot a; it is a captured record of that window. -/
def statRec (r k log2 : Nat) (x : Stats) (a : SI) : Rec := recStats (256 * r + k) log2 x.level a x

/-- The channels that gather statistics in region r: masked and enabled. -/
def State.statChannels (s : State) (r : Nat) : List Nat :=
  let g := s.region r
  (List.range 256).filter (fun k => g.cfg.statsOn && g.cfg.chMask.getLsbD k && (s.cell (256 * r + k)).enable)

/-- A statistics window of region r ends at slot b with a record for each channel in `ks`, and the next begins there. -/
def State.endStats (s : State) (r : Nat) (ks : List Nat) (b : SI) (cut again : Bool) : State :=
  let g := s.region r
  let gated := s.time.gatedFrom.any (fun a => decide (a ≤ b))
  let reset := g.rst.any (fun w => decide (w.m < b))
  let recs := ks.filterMap (fun k => (tfind g.stats k).map (fun x =>
    let y := x.stop (64 * b) s.time.gatedFrom
    let y := { y with gap := y.gap || reset }
    statRec r k g.cfg.statLog2 { y with partial_ := y.partial_ || cut }
      (g.statStart / statLen g.cfg.statLog2 * statLen g.cfg.statLog2)))
  let s := s.modRegion r (fun g => { g with stats := ks.foldl (fun (t : Tab Stats) k =>
      match tfind t k with
      | none => t
      | some x => if again then tput t k (x.next (64 * b) (decide ((s.cell (256 * r + k)).doubt.causes ≠ 0)) gated cut) else tdel t k) g.stats })
  recs.foldl (fun s x => s.place (statSource r) x) s

/-- What the next window takes over from an ended one: the latest edge and the level of each channel that goes on. -/
def EndedStats.hand (w : EndedStats) (l : Tab Stats) : Tab Stats :=
  if w.carry then l.map (fun y => match (tfind w.stats y.1).filter (fun _ => y.2.start = 64 * w.fin) with
    | some x => (y.1, { y.2 with lastEdge := x.lastEdge, level := x.level })
    | none => y)
  else l

/-- The first ended window of region r gives its records (R212, R216). -/
def State.finishCut (s : State) (r : Nat) : State :=
  match (s.region r).ended with
  | [] => s
  | w :: rest =>
    let g := s.region r
    let mine := g.statBuf.filter (fun e => decide (e.time < 64 * w.fin))
    let w : EndedStats := { w with stats := mine.foldl countEdge w.stats }
    let reset := g.rst.any (fun x => decide (x.m < w.fin))
    let recs := w.stats.map (fun e =>
      let y := e.2.stop (64 * w.fin) s.time.gatedFrom
      statRec r e.1 w.log2 { y with gap := y.gap || reset, partial_ := y.partial_ || w.cut } (w.start / statLen w.log2 * statLen w.log2))
    let s := s.modRegion r (fun g => { g with
      statBuf := g.statBuf.filter (fun e => decide (64 * w.fin ≤ e.time))
      ended := rest.map (fun f => { f with stats := w.hand f.stats })
      stats := w.hand g.stats })
    recs.foldl (fun s x => s.place (statSource r) x) s

/-- The ended windows of region r that reach no further than slot x give their records. -/
def State.finishEnded (s : State) (r : Nat) (x : SI) : State :=
  ((s.region r).ended.filter (fun w => decide (w.fin ≤ x))).foldl (fun s _ => s.finishCut r) s

/-- The statistics of the channels `ks` of region r end at slot b, in the window in progress; with `again` the channels gather on (R216). -/
def State.cutStats (s : State) (r : Nat) (ks : List Nat) (b : SI) (cut again : Bool) : State :=
  let gated := s.time.gatedFrom.any (fun a => decide (a ≤ b))
  s.modRegion r (fun g =>
    let mine := g.stats.filter (fun e => ks.contains e.1)
    { g with
      ended := if g.statStart < b && mine ≠ [] then g.ended ++ [({ fin := b, log2 := g.cfg.statLog2, start := g.statStart, cut := cut, carry := again, stats := mine } : EndedStats)]
        else g.ended,
      stats := if again then g.stats.map (fun e => if ks.contains e.1 then
          (e.1, e.2.next (64 * b) (decide ((s.cell (256 * r + e.1)).doubt.causes ≠ 0)) gated cut) else e)
        else g.stats.filter (fun e => !ks.contains e.1) })

/-- The window in progress of region r ends complete at slot w, and the next begins. -/
def State.nextStats (s : State) (r : Nat) (w : SI) : State :=
  let s := (s.finishEnded r w).advanceStats r (64 * w)
  let s := s.endStats r ((s.region r).stats.map (fun e => e.1)) w false true
  let ks := s.statChannels r
  s.modRegion r (fun g => { g with statStart := w, stats := g.stats.filter (fun e => ks.contains e.1) })

/-- STATS_WINDOW_END: the window ends at its boundary with one record for each masked channel, once its last frame has left the alignment buffer (R99). -/
def execStatsWindowEnd (t : SI) (region : Fin 4) (s : State) : Host.Outcome State Fault Refusal :=
  let s := s.moment t
  let r := region.val
  let g := s.region r
  let w := g.statEnd
  if !g.cfg.statsOn || s.cap.runState = 0 || (s.cap.runState = 2 && decide (s.cap.runE < w)) || decide (s.time.si < w + 48) then .next s
  else .next (s.nextStats r w)

/-- What the state and statistics reductions have complete: samples whose frame has passed, and windows that have ended (R99, R302). -/
def State.completeReductions (s : State) : State :=
  (List.range 4).foldl (fun s r =>
    let s := s.drainClocks r s.boundary
    let s := (((s.region r).samples.filter (fun x => decide (x.due ≤ s.time.si))).foldl (fun s x => s.finishSample r x) s).finishEnded r (s.time.si - 48)
    let g := s.region r
    let last := if s.cap.runState = 2 then min s.cap.runE (s.time.si - 48) else s.time.si - 48
    if !g.cfg.statsOn || s.cap.runState = 0 then s
    else (List.range ((last - g.statStart) / statLen g.cfg.statLog2 + 1)).foldl (fun s _ =>
      if (s.region r).statEnd ≤ last then s.nextStats r (s.region r).statEnd else s) s) s

/-! ### Interval units (R103 to R108) -/

/-- One result: its endpoints and the frame in which it was decided. -/
structure IvlResult where
  start : IvlEdge
  stop : IvlEdge
  frame : Nat
  deriving DecidableEq, Repr

/-- MAX_SPAN in fine LSB. -/
def Ivl.span (u : Ivl) : Nat := 64 * u.maxSpan

/-- The earlier stop that still serves a start, in signed pairing. -/
def Ivl.earlier (u : Ivl) (s : IvlEdge) : Option IvlEdge :=
  (u.stops.getLast?).filter (fun e => decide (e.time ≤ s.time) && decide (s.time - e.time ≤ u.span))

/-- The last fine time at which a pending start can still get another outcome: MAX_SPAN after it, or in signed pairing as far after it as its
earlier stop lies before it, less one fine LSB, because at equal distance the earlier stop is chosen (R104, R105). -/
def Ivl.limit (u : Ivl) (s : IvlEdge) : Int :=
  match (if u.pairing then u.earlier s else none) with
  | some e => (2 * s.time : Int) - e.time - 1
  | none => ((s.time + u.span : Nat) : Int)

/-- Pending starts whose outcome is known at fine time h: too old and discarded, or paired with an earlier stop. -/
def Ivl.expire (u : Ivl) (h : FineTime) : Ivl × List IvlResult :=
  let old := u.starts.filter (fun s => decide (u.limit s < (h : Int)))
  let keep := u.starts.filter (fun s => decide ((h : Int) ≤ u.limit s))
  if u.pairing then
    let rs := old.filterMap (fun s => (u.earlier s).map (fun e => ({ start := s, stop := e, frame := (u.limit s + 1).toNat / 1024 } : IvlResult)))
    ({ u with starts := keep, timeout := satAdd 16 u.timeout (old.length - rs.length) }, rs)
  else ({ u with starts := keep, timeout := satAdd 16 u.timeout old.length }, [])

/-- One endpoint edge (R104, R105). -/
def Ivl.edge (u : Ivl) (e : IvlEdge) : Ivl × List IvlResult :=
  let (u, first) := u.expire e.time
  let f := e.time / 1024
  if e.isStart then
    if u.pairing then ({ u with starts := u.starts ++ [e] }, first)
    else ({ u with starts := [e], startLost := if u.starts = [] then u.startLost else satInc 16 u.startLost }, first)
  else if u.pairing then
    let rs := u.starts.map (fun s =>
      match u.earlier s with
      | some p => if s.time - p.time ≤ e.time - s.time then ({ start := s, stop := p, frame := f } : IvlResult) else { start := s, stop := e, frame := f }
      | none => { start := s, stop := e, frame := f })
    ({ u with starts := [], stops := [e] }, first ++ rs)
  else match u.starts with
    | s :: _ => ({ u with starts := [] }, first ++ [{ start := s, stop := e, frame := f }])
    | [] => ({ u with orderSkip := satInc 16 u.orderSkip }, first)

/-- Endpoint edges in the order of R103: time, a start before a stop. -/
def insertIvl (l : List IvlEdge) (e : IvlEdge) : List IvlEdge :=
  match l with
  | [] => [e]
  | x :: rest =>
    if x.time < e.time || (x.time = e.time && (x.isStart || !e.isStart)) then x :: insertIvl rest e else e :: x :: rest

/-- A run of edges in order. -/
def Ivl.edges (u : Ivl) (es : List IvlEdge) : Ivl × List IvlResult :=
  es.foldl (fun a e =>
    let (u, rs) := a.1.edge e
    (u, a.2 ++ rs)) (u, [])

/-- Interval unit n. -/
def State.ivl (s : State) (n : Nat) : Ivl := (tfind s.ivls n).getD {}

/-- Interval unit n changed by f. -/
def State.modIvl (s : State) (n : Nat) (f : Ivl → Ivl) : State := { s with ivls := tmod s.ivls n {} f }

/-- A result of unit n (R106 to R108): one in 2^k is reported; a full queue drops it with an ENVELOPE selvedge over the frame. The results
are records of the statistics reduction and need it enabled. The region writer empties the queue every frame (DESIGN CHOICE, notes/assumptions/43.md). -/
def State.ivlResult (s : State) (n : Nat) (x : IvlResult) : State :=
  let u := s.ivl n
  let r := chRegion u.startCh
  let reported := u.results % 2 ^ u.decim = 0
  let s := s.modIvl n (fun u => { u with results := u.results + 1 })
  if !reported || !(s.region r).cfg.statsOn then s
  else
    let q := if u.queueFrame = x.frame then u.queued else 0
    if 64 ≤ q then
      let known := s.ivls.any (fun e => chRegion e.2.startCh = r && e.2.dropFrames.contains x.frame)
      let s := s.modIvl n (fun u => { u with drop := satInc 16 u.drop, dropFrames := (x.frame :: u.dropFrames).take 4 })
      let s := s.raise (regionEvent r 3)
      if known then s else s.place (statSource r) (recSelvedge selEnvelope 4 (statSource r) (16 * x.frame) 16)
    else
      let d : Int := (x.stop.time : Int) - x.start.time
      let s := s.modIvl n (fun u => { u with queueFrame := x.frame, queued := q + 1 })
      s.place (statSource r) (recInterval n x.start.time d (d = 0) (x.start.settle || x.stop.settle) (x.start.coarse || x.stop.coarse))

/-- A unit as SET_INTERVAL leaves it. -/
def IvlSet.unit (g : IvlSet) (buf : List IvlEdge) (rest : List (SI × IvlSet)) : Ivl :=
  { enable := g.enable, pairing := g.pairing, startCh := g.startCh, stopCh := g.stopCh, startSlope := g.startSlope, stopSlope := g.stopSlope,
    decim := g.decim, maxSpan := g.maxSpan, buf := buf, next := rest }

/-- The settings of a unit. -/
def Ivl.settings (u : Ivl) : IvlSet :=
  { enable := u.enable, pairing := u.pairing, startCh := u.startCh, stopCh := u.stopCh, startSlope := u.startSlope, stopSlope := u.stopSlope,
    decim := u.decim, maxSpan := u.maxSpan }

/-- The settings that an edge at slot x falls under (R114). -/
def Ivl.settingsAt (u : Ivl) (x : SI) : IvlSet := (((u.next.filter (fun e => decide (e.1 ≤ x))).getLast?).map (fun e => e.2)).getD u.settings

/-- The unit as its registers show it: with the settings last given, and the counters at 0 where they have not taken effect yet (R114, R118). -/
def Ivl.shown (u : Ivl) : Ivl := ((u.next.getLast?).map (fun e => e.2.unit [] [])).getD u

/-- Unit n brought up to fine time h under its settings: buffered edges below it in order, then starts that have grown too old. -/
def State.advanceIvlOnce (s : State) (n : Nat) (h : FineTime) : State :=
  let u := s.ivl n
  let now := u.buf.filter (fun e => decide (e.time < h))
  let (v, rs) := ({ u with buf := u.buf.filter (fun e => decide (h ≤ e.time)) } : Ivl).edges now
  let (w, more) := v.expire h
  (rs ++ more).foldl (fun s x => s.ivlResult n x) (s.modIvl n (fun _ => w))

/-- Unit n, where it is enabled, brought up to fine time h under the settings it has. -/
def State.ivlTo (s : State) (n : Nat) (h : FineTime) : State := if (s.ivl n).enable then s.advanceIvlOnce n h else s

/-- Unit n brought up to fine time h: settings whose boundary lies at or below it take effect there, with the unit's edges from the boundary on. -/
def State.advanceIvl (s : State) (n : Nat) (h : FineTime) (fuel : Nat := 8) : State :=
  match fuel with
  | 0 => s.ivlTo n h
  | k + 1 =>
    match (s.ivl n).next with
    | [] => s.ivlTo n h
    | (b, g) :: rest =>
      if 64 * b ≤ h then ((s.ivlTo n (64 * b)).modIvl n (fun u => g.unit u.buf rest)).advanceIvl n h k else s.ivlTo n h

/-- Every unit brought up to the horizon. -/
def State.advanceIvls (s : State) : State :=
  (s.ivls.filter (fun e => e.2.enable || e.2.next ≠ [])).foldl (fun s e => s.advanceIvl e.1 s.edgeHorizon) s

/-- The units take an edge. -/
def State.ivlEdge (s : State) (e : SeqEdge) : State :=
  s.ivls.foldl (fun s x =>
    let g := x.2.settingsAt (e.time / 64)
    let a := g.enable && g.startCh = e.ch && slopeOk g.startSlope e.level
    let b := g.enable && g.stopCh = e.ch && slopeOk g.stopSlope e.level
    if a || b then s.modIvl x.1 (fun u => { u with
      buf := insertIvl u.buf { time := e.time, isStart := a, isStop := b, settle := e.settle, coarse := e.coarse } }) else s) s

/-- INTERVAL_TIMEOUT: pending starts of the unit older than MAX_SPAN are decided, once no edge of negative deskew can come below that time any more
(R103 to R105). -/
def execIntervalTimeout (t : SI) (unit : Fin 64) (s : State) : Host.Outcome State Fault Refusal :=
  let s := s.moment t
  .next (s.advanceIvl unit.val s.edgeHorizon)

/-- SET_INTERVAL returns BAD_PARAM (R114, R115). -/
def setIntervalBad (p : List Byte) : Bool :=
  let a := pField p 6 1
  let b := pField p 7 1
  !(p.length = 16) || decide (64 ≤ pField p 0 1) || !pBits p 1 2 || decide (1024 ≤ pField p 2 2) || decide (1024 ≤ pField p 4 2) ||
    decide (2 < a) || decide (2 < b) || decide (24 < pField p 8 1) || !pZero p 9 3 || !pIn p 12 4 1 16777216 ||
    (pField p 2 2 = pField p 4 2 && (a = b || a = 2 || b = 2))

/-- SET_INTERVAL: settings that count from the frame boundary on, with the pending start, the decimation count and the counters at 0. -/
def setInterval (p : List Byte) (s : State) : State :=
  let b := s.boundary
  let g : IvlSet := {
    enable := bit (pField p 1 1) 0, pairing := bit (pField p 1 1) 1, startCh := pField p 2 2, stopCh := pField p 4 2,
    startSlope := pField p 6 1, stopSlope := pField p 7 1, decim := pField p 8 1, maxSpan := pField p 12 4 }
  (s.advanceIvl (pField p 0 1) s.edgeHorizon).modIvl (pField p 0 1) (fun u => { u with next := u.next.filter (fun e => e.1 ≠ b) ++ [(b, g)] })

/-! ### The region writer's time-driven rows (R22, R28, R274, R312) -/

/-- The flush interval of an open segment is over. -/
def OpenSeg.due (o : OpenSeg) (x : SI) : Bool := decide (o.since + o.flush ≤ x)

/-- The sources whose flush intervals are over together with that of `source`, in the order in which one FRM cycle closes them (R21): those of its
region. -/
def State.flushDue (s : State) (source : Nat) : List Nat :=
  (s.data.sources.filter (fun e => e.2.opened.any (fun o => o.due s.time.si) &&
    (e.1 = source || decide (srcClass e.1 < 4) && decide (srcClass source < 4) && srcRegion e.1 = srcRegion source))).map (fun e => e.1)

/-- FLUSH_INTERVAL_EXPIRY: the flush interval has passed since the first record of the source's open segment was placed (R274). -/
def execFlushIntervalExpiry (t : SI) (source : Nat) (s : State) : Host.Outcome State Fault Refusal :=
  let s := (s.moment t).advanceBlocks
  match (s.data.source source).opened with
  | none => .next s
  | some o => if o.due s.time.si then .next ((s.flushDue source).foldl State.closeSource s) else .next s

/-- The self-verify decompressor decodes the segment to the engine's input (R312). -/
def Seg.verifies (g : Seg) : Bool := decodePayload true (g.form = 2) 0 g.coded = some g.plain

/-- SELF_VERIFY_COMPLETE: the oldest waiting segment of the region passes, or is committed uncompressed with RAW (R312). `ok` says that the hardware
worked without an error. -/
def execSelfVerifyComplete (t : SI) (region : Fin 4) (ok : Bool) (s : State) : Host.Outcome State Fault Refusal :=
  let s := s.moment t
  let r := region.val
  match (s.region r).closed.find? (fun c => c.waits) with
  | none => .next s
  | some c =>
    let ok := ok && c.seg.verifies
    let c' := if ok then { c with waits := false } else { c with waits := false, seg := { c.seg with form := 0, coded := [], raw := true } }
    let s := s.modRegion r (fun g => { g with
      closed := g.closed.map (fun x => if x = c then c' else x)
      mismatch := if ok then g.mismatch else satInc 16 g.mismatch })
    .next ((s.raiseIf (!ok) (regionEvent r 11)).commitRegion r)

/-- The region ENVELOPE selvedge of a staging discard up to slot e, in every source of the region (R28, R36). -/
def State.stagingSelvedge (s : State) (r : Nat) (e : SI) : State :=
  match (s.region r).discardFrom with
  | none => s
  | some x =>
    let s := s.modRegion r (fun g => { g with discardFrom := none, gaps := ((x, e) :: g.gaps).take 4 })
    let s := { s with data := { s.data with stgOvf := satInc 32 s.data.stgOvf } }
    s.placeIn (s.sourcesOf r) (recSelvedge selEnvelope 1 r x (e - x))

/-- STAGING_RESUME: the writer resumes at the frame boundary with 4 MiB of staging free (R28). -/
def execStagingResume (t : SI) (region : Fin 4) (s : State) : Host.Outcome State Fault Refusal :=
  let s := (s.moment t).advanceBlocks
  if stagingSize < s.data.fill + 4194304 then .next s
  else .next ((s.stagingSelvedge region.val s.boundary).commitRegion region.val)

/-- Slots of a load interval (R37). -/
def loadSlots : Nat := 4000000

/-- LOAD_INTERVAL_END: the load registers of a 4,000,000-slot interval (R37, R240, R334, R393, R425). The intervals are consecutive from slot 0 on;
before the present one is over nothing happens. -/
def execLoadIntervalEnd (t : SI) (s : State) : Host.Outcome State Fault Refusal :=
  let s := s.moment t
  let mb := unitsUp 16 1000000
  let last := mb s.data.trnBytes
  if s.time.si < s.data.loadFrom + loadSlots then .next s
  else .next { s with
    data := { s.data with
      loadFrom := s.data.loadFrom + loadSlots
      trnLastMb := last, trnMaxMb := max s.data.trnMaxMb last, trnBytes := 0
      lookback := s.data.lookback.map (fun e => (e.1, { e.2 with lastMb := mb e.2.loadBytes, loadBytes := 0 })) }
    regions := s.regions.map (fun e => (e.1, { e.2 with
      cmpInMb := mb e.2.cmpIn, cmpOutMb := mb e.2.cmpOut, cmpIn := 0, cmpOut := 0, hashMb := mb e.2.hashBytes, hashBytes := 0 }))
    pcie := { s.pcie with rdMb := mb s.pcie.rdBytes, wrMb := mb s.pcie.wrBytes, rdBytes := 0, wrBytes := 0 }
    dram := { s.dram with rdMb := mb s.dram.rdBytes, wrMb := mb s.dram.wrBytes, rdBytes := 0, wrBytes := 0 } }

end Sys2Proof.Machine
end

