-- ==== Sys2Proof/Machine/DecCore.lean ====
section
/-! DEFINITION. What all decoders share (R245 to R249): the pulse filter, levels at sample instants, the limit on sampling edges, messages
in the making, payloads and offers. -/

namespace Sys2Proof.Machine

/-! ### Edges (R245, R246) -/

/-- Level of input i at instant p: after its last edge at a time not above p. -/
def Engine.level (e : Engine) (i : Nat) (p : Int) : Bool :=
  match ((e.past ++ e.ready).filter (fun x => x.input = i && decide ((x.time : Int) ≤ p))).getLast? with
  | some x => x.level
  | none => e.base.getD i false

/-- Input i has an edge within GUARD of p. -/
def Engine.near (e : Engine) (i : Nat) (p : Int) : Bool :=
  e.guard ≠ 0 && (e.past ++ e.ready).any (fun x => x.input = i && decide (p - e.guard ≤ (x.time : Int) ∧ (x.time : Int) ≤ p + e.guard))

/-- Whether an input is in use. -/
def Engine.uses (e : Engine) (i : Nat) : Bool := ((e.inputs[i]?).getD none).isSome

/-- BODY fields. -/
def Engine.b (e : Engine) (ofs n : Nat) : Nat := pField e.body ofs n

/-- Fine LSB in d nanoseconds. -/
def fineNs (hz d : Nat) : Nat := 64 * hz * d / 1000000000

/-- The filter length in force: FILTER, or the I²C spike filter (R245, R255). -/
def Engine.filterLen (e : Engine) (hz : Nat) : Nat :=
  if e.protocol = 2 then
    if e.st.hs then fineNs hz 10
    else if e.filter ≠ 0 then e.filter
    else match e.b 0 1 with
      | 1 => fineNs hz 50
      | 2 => fineNs hz 50
      | 3 => fineNs hz 10
      | _ => 0
  else e.filter

/-- Raw edges are left after a pulse that ends at t has been removed. -/
def Engine.removePulse (e : Engine) (left : List DecEdge) (t : FineTime) : Engine :=
  { e with buf := left, filtered := satInc 8 e.filtered, removed := t :: e.removed }

/-- A glitch of which y is the leading edge and z the trailing one. -/
def glitchPair (y z : DecEdge) : Bool := y.glitch && !y.trail && z.trail

/-- The first raw edge is settled: a glitch that it begins or that follows it on the same input goes, then with its successor it makes a removed pulse, or it
passes (R245). -/
def Engine.filterStep (e : Engine) (f : Nat) : Engine :=
  match e.buf with
  | [] => e
  | x :: rest =>
    match rest.filter (fun y => y.input = x.input) with
    | [] => { e with buf := rest, ready := e.ready ++ [x] }
    | y :: more =>
      if glitchPair x y then e.removePulse (rest.erase y) y.time
      else match more.head?.filter (fun z => glitchPair y z) with
        | some z => e.removePulse (x :: (rest.erase y).erase z) z.time
        | none =>
          if y.time - x.time < f then e.removePulse (rest.erase y) y.time
          else { e with buf := rest, ready := e.ready ++ [x] }

/-- How long an edge waits for those that may remove it: FILTER, and a glitch that begins within it. -/
def Engine.wait (e : Engine) (hz : Nat) : Nat := e.filterLen hz + 64

/-- Raw edges whose partners must all be known by fine time h are settled. -/
def Engine.filterTo (e : Engine) (hz : Nat) (h : FineTime) (fuel : Nat) : Engine :=
  match fuel with
  | 0 => e
  | k + 1 =>
    match e.buf with
    | [] => e
    | x :: _ =>
      if x.time + e.wait hz < h then (e.filterStep (e.filterLen hz)).filterTo hz h k else e

/-- The flags of an edge go to what it is used for (R249): the message in progress, or what follows the payload gathered so far, be it the next
segment, a UART's next character or a lane's next bit. -/
def Engine.mark (e : Engine) (settle coarse : Bool) : Engine :=
  if e.protocol = 6 || (e.st.inMsg && (e.st.msg.pa.length = 64 || (e.protocol = 0 && e.st.idx ≠ 0))) then
    { e with st := { e.st with laterS := e.st.laterS || settle, laterC := e.st.laterC || coarse } }
  else if e.st.inMsg then
    { e with st := { e.st with msg := { e.st.msg with settle := e.st.msg.settle || settle, coarse := e.st.msg.coarse || coarse } } }
  else e

/-- The flags held for later join the message in progress. -/
def Engine.merge (e : Engine) : Engine :=
  { e with st := { e.st with
      msg := { e.st.msg with
        settle := e.st.msg.settle || e.st.laterS, coarse := e.st.msg.coarse || e.st.laterC
        err := if e.st.laterT then Nat.lor e.st.msg.err 1 else e.st.msg.err }
      laterS := false, laterC := false, laterT := false } }

/-- The flags of the edge that gave input i its level at instant p. -/
def Engine.flagsAt (e : Engine) (i : Nat) (p : Int) : Bool × Bool :=
  match ((e.past ++ e.ready).filter (fun x => x.input = i && decide ((x.time : Int) ≤ p))).getLast? with
  | some x => (x.settle, x.coarse)
  | none => (tfind e.baseMark i).getD (false, false)

/-- The levels of inputs at instant p are used for the message: the edges that gave them count for its flags (R249). -/
def Engine.useLevels (e : Engine) (is : List Nat) (p : Int) : Engine :=
  is.foldl (fun e i => e.mark (e.flagsAt i p).1 (e.flagsAt i p).2) e

/-- An edge is used for the message (R249). -/
def Engine.useEdge (e : Engine) (x : DecEdge) : Engine := e.mark x.settle x.coarse

/-- TIMING of a sample (R245): on the message in progress, or on its next segment where the payload is full. -/
def Engine.timing (e : Engine) (near : Bool) : Engine :=
  if !near then e
  else if e.st.msg.pa.length = 64 then { e with st := { e.st with laterT := true } }
  else { e with st := { e.st with msg := { e.st.msg with err := Nat.lor e.st.msg.err 1 } } }

/-- Inputs on whose edges a field can complete: strobes and clocks, and the lines of protocols whose messages end with an edge (R248). -/
def Engine.completes (e : Engine) (i : Nat) : Bool :=
  match e.protocol with
  | 1 => decide (i < 2)
  | 2 => decide (i < 2)
  | 4 => i = 0 || i = 4
  | 7 => decide (i < 2)
  | 5 => false
  | 6 => false
  | _ => i = 0

/-- The first settled edge becomes a past one; the base level follows the edges that are forgotten. CAN and a lane use every edge of their line; the other
protocols mark what they use (R249). -/
def Engine.take (e : Engine) (x : DecEdge) : Engine :=
  let all := e.past ++ [x]
  let old := all.filter (fun y => decide (y.time + 4096 < x.time))
  let e := if (e.protocol = 5 || e.protocol = 6) && x.input = 0 then e.useEdge x else e
  let keep := if e.st.inMsg then min e.st.start (x.time - 262144) else x.time - 262144
  { e with
    ready := e.ready.drop 1
    past := all.filter (fun y => decide (x.time ≤ y.time + 4096))
    base := old.foldl (fun (b : List Bool) y => b.set y.input y.level) e.base
    baseMark := old.foldl (fun b y => tput b y.input (y.settle, y.coarse)) e.baseMark
    removed := e.removed.filter (fun r => decide (keep ≤ r))
    st := { e.st with
      edgeT := x.time, edgeS := x.settle, edgeC := x.coarse
      flagged := if e.completes x.input && (x.settle || x.coarse) then (x.time, x.settle, x.coarse) :: e.st.flagged
        else e.st.flagged.filter (fun y => decide (keep ≤ y.1)) } }

/-- A sampling edge at fine time t: at most 4 in a frame are used (R246). Answers whether this one is. -/
def Engine.sampling (e : Engine) (t : FineTime) : Engine × Bool :=
  let f := t / 1024
  let n := if e.frameEdges.1 = f then e.frameEdges.2 else 0
  let e := { e with frameEdges := (f, n + 1) }
  if n < 4 then (e, true)
  else ({ e with skip := satInc 8 e.skip, skipFrames := if n = 4 then e.skipFrames ++ [f] else e.skipFrames }, false)

/-! ### Messages (R247, R248) -/

/-- The flags of the completing edge at t: those of the edge on which the field completes, and none where it completes at a computed sample point (R139, R248). -/
def Engine.doneFlags (e : Engine) (t : FineTime) : Bool × Bool :=
  if e.protocol = 0 && e.st.msg.kind = 0 then (false, false)
  else (((e.st.flagged.filter (fun x => x.1 = t)).head?).map (fun x => x.2)).getD (false, false)

/-- A field offered to MESSAGE terms. -/
def Engine.offer (e : Engine) (f v : Nat) (t : FineTime) : Engine :=
  { e with offers := e.offers ++ [{ field := f, value := v, time := t, settle := (e.doneFlags t).1, coarse := (e.doneFlags t).2 }] }

/-- The message in progress changed by f. -/
def Engine.modMsg (e : Engine) (f : Msg → Msg) : Engine := { e with st := { e.st with msg := f e.st.msg } }

/-- The decode state changed by f. -/
def Engine.modSt (e : Engine) (f : DecState → DecState) : Engine := { e with st := f e.st }

/-- An error bit set. -/
def Engine.err (e : Engine) (k : Nat) (c : Bool := true) : Engine :=
  if c then e.modMsg (fun m => { m with err := Nat.lor m.err (2 ^ k) }) else e

/-- A protocol field of the message in progress, without an offer. -/
def Engine.put (e : Engine) (f v : Nat) : Engine :=
  e.modMsg (fun m => { m with fields := m.fields.filter (fun x => x.1 ≠ f) ++ [(f, v)] })

/-- A protocol field complete at t. -/
def Engine.field (e : Engine) (f v : Nat) (t : FineTime) : Engine := (e.put f v).offer f v t

/-- A message begins at t with the edge that starts it; the engine is synchronised. -/
def Engine.begin (e : Engine) (t : FineTime) (settle coarse : Bool) : Engine :=
  { e with sync := 2 }.modSt (fun s => { s with
    inMsg := true, msg := { settle := settle, coarse := coarse }, aTimes := [], bTimes := [], offA := 0, offB := 0, segs := 0, start := t
    laterS := false, laterC := false, laterT := false, flagged := s.flagged.filter (fun x => decide (t ≤ x.1)) })

/-- Payload field j of a byte list. -/
def payloadField (bs : List Byte) (j : Nat) : Nat := leNat ((bs.drop (8 * j)).take 8)

/-- A byte of payload A complete at t; each eighth completes its field. -/
def Engine.pushA (e : Engine) (b : Byte) (t : FineTime) : Engine :=
  let e := (e.modMsg (fun m => { m with pa := m.pa ++ [b] })).modSt (fun s => { s with aTimes := s.aTimes ++ [t] })
  let n := e.st.msg.pa.length
  if n % 8 = 0 then (e.offer (16 + (n / 8 - 1)) (payloadField e.st.msg.pa (n / 8 - 1)) t).modSt (fun s => { s with offA := n / 8 }) else e

/-- A byte of payload B complete at t. -/
def Engine.pushB (e : Engine) (b : Byte) (t : FineTime) : Engine :=
  let e := (e.modMsg (fun m => { m with pb := m.pb ++ [b] })).modSt (fun s => { s with bTimes := s.bTimes ++ [t] })
  let n := e.st.msg.pb.length
  if n % 8 = 0 then (e.offer (24 + (n / 8 - 1)) (payloadField e.st.msg.pb (n / 8 - 1)) t).modSt (fun s => { s with offB := n / 8 }) else e

/-- Payload bytes that the message's fields hold: those within LEN, which a CAN frame's DLC gives before they come (R248, R258). -/
def Engine.payloadLen (e : Engine) (bs : List Byte) : Nat := if e.protocol = 5 && e.st.msg.kind = 0 then e.st.msg.len else bs.length

/-- The payload fields that are still to be offered when a message ends at t: at the instant of the last byte they hold, and not at all where that byte has
not come. -/
def Engine.offerRest (e : Engine) (base off : Nat) (bs : List Byte) (times : List FineTime) (t : FineTime) : Engine :=
  (List.range 8).foldl (fun e j =>
    if j < off then e
    else if bs.length < min (8 * j + 8) (e.payloadLen bs) && decide (8 * j < e.payloadLen bs) then e
    else if 8 * j < bs.length then e.offer (base + j) (payloadField bs j) ((times.getLast?).getD t)
    else e.offer (base + j) 0 t) e

/-- NPF: the highest protocol field that a protocol defines, less 3 (R285). -/
def protocolFields (protocol : Nat) : Nat := [1, 0, 5, 6, 3, 8, 2, 3].getD protocol 0

/-- The message or segment in progress ends at t: its fields are offered, and it waits for the region writer. The next segment starts after t, with the
flags of the edges that came since, or of the edge at t that both use. -/
def Engine.emit (e : Engine) (t : FineTime) (final : Bool) : Engine :=
  let e := if final && e.protocol ≠ 0 && e.protocol ≠ 6 then e.merge else e
  let hit := e.removed.any (fun r => decide (e.st.start ≤ r ∧ r ≤ t))
  let e := e.err 1 hit
  let seg := if final then (if e.st.segs = 0 then 0 else 3) else if e.st.segs = 0 then 1 else 2
  let e := e.modMsg (fun m => { m with time := t, seg := seg, npf := protocolFields e.protocol })
  let m := e.st.msg
  let e := (e.offerRest 16 e.st.offA m.pa e.st.aTimes t).offerRest 24 e.st.offB m.pb e.st.bTimes t
  let e := ((e.offer 0 m.kind t).offer 1 m.err t).offer 3 seg t
  let e := if e.protocol = 5 then e else e.offer 2 m.len t
  let e := { (e.offer 64 0 t) with fresh := e.fresh ++ [m] }
  let both := decide (e.st.edgeT = t)
  e.modSt (fun s =>
    if final then { s with inMsg := false, segs := s.segs + 1, aTimes := [], bTimes := [], offA := 0, offB := 0, msg := {} }
    else { s with
      segs := s.segs + 1, aTimes := [], bTimes := [], offA := 0, offB := 0, start := t + 1, laterS := false, laterC := false, laterT := false
      msg := { s.msg with pa := [], pb := [], err := b2n s.laterT, len := 0, settle := s.laterS || (both && s.edgeS), coarse := s.laterC || (both && s.edgeC) } })

/-- LEN set and the message or segment ended. -/
def Engine.close (e : Engine) (len : Nat) (t : FineTime) (final : Bool) : Engine :=
  (e.modMsg (fun m => { m with len := len })).emit t final

/-- A byte from bits in order of arrival; missing bits are 0. -/
def byteOf (bs : List Bool) (msbFirst : Bool) : Byte :=
  BitVec.ofNat 8 (bs.zipIdx.foldl (fun a x => a + b2n x.1 * 2 ^ (if msbFirst then 7 - x.2 else x.2)) 0)

/-- A number from bits, most significant first. -/
def natOf (bs : List Bool) : Nat := bs.foldl (fun a b => 2 * a + b2n b) 0

/-- The last instant of payload A. -/
def DecState.lastA (s : DecState) : FineTime := (s.aTimes.getLast?).getD s.start

end Sys2Proof.Machine
end

