-- ==== Sys2Proof/Machine/DecSerial.lean ====
section
/-! DEFINITION. The UART, SPI, I²C/SMBus, MDIO and JTAG decoders (R252 to R257). -/

namespace Sys2Proof.Machine

/-! ### UART (R252, R253) -/

/-- Half bit periods from the start edge, in fine LSB. -/
def Engine.uartHalf (e : Engine) (hz n : Nat) : Nat := n * 32 * hz / e.b 0 4
/-- The instant at which bit k is sampled. -/
def Engine.uartAt (e : Engine) (hz k : Nat) : FineTime := ((e.st.t0 + e.uartHalf hz (2 * k + 1) : Nat) + e.ofs).toNat
/-- DATA_BITS. -/
def Engine.uartBits (e : Engine) : Nat := e.b 4 1
/-- Index of the first stop bit. -/
def Engine.uartStop (e : Engine) : Nat := e.uartBits + 1 + (if e.b 5 1 = 0 then 0 else 1)
/-- The instant at which the stop bits after the first are sampled, in their middle: of two, or of one and a half (DEDUCED, notes/assumptions/49.md). -/
def Engine.uartLast (e : Engine) (hz : Nat) : FineTime :=
  ((e.st.t0 + (4 * e.uartStop + (if e.b 6 1 = 1 then 5 else 6)) * 16 * hz / e.b 0 4 : Nat) + e.ofs).toNat
/-- The line's logic level: inverted polarity where OPTS says so. -/
def Engine.uartLine (e : Engine) (v : Bool) : Bool := v != bit (e.b 7 1) 0
/-- Characters to a message. -/
def Engine.uartGroup (e : Engine) : Nat := max 1 (e.b 8 1)

/-- The parity bit that the data bits call for. -/
def uartParity (kind : Nat) (bs : List Bool) : Bool :=
  let ones := (bs.filter (fun b => b)).length
  match kind with
  | 1 => ones % 2 = 1
  | 2 => ones % 2 = 0
  | 3 => true
  | _ => false

/-- The next instant at which the decoder acts without an edge. -/
def Engine.uartPoint (e : Engine) (hz : Nat) : Option FineTime :=
  if e.st.phase = 1 then some (e.uartAt hz e.st.cnt)
  else if e.st.phase = 3 then some (e.uartLast hz)
  else if e.st.phase = 0 && 0 < e.st.idx then some (e.st.last + e.uartHalf hz (2 * e.b 9 1))
  else none

/-- NINTH as gathered so far. -/
def Engine.uartNinth (e : Engine) : Nat := ((e.st.msg.fields.find? (fun f => f.1 = 4)).map (fun f => f.2)).getD 0

/-- The message gathered so far ends at the centre of its last stop bit. -/
def Engine.uartEnd (e : Engine) (t : FineTime) : Engine :=
  ((e.offer 4 e.uartNinth t).close e.st.idx t true).modSt (fun s => { s with idx := 0 })

/-- The character is complete at t, the centre of its first stop bit, which samples as v. -/
def Engine.uartChar (e : Engine) (v : Bool) (t : FineTime) : Engine :=
  let data := e.st.bits.take e.uartBits
  let par := e.st.bits.drop e.uartBits
  let lsb := if bit (e.b 7 1) 1 then data.reverse else data
  let val := lsb.zipIdx.foldl (fun a x => a + b2n x.1 * 2 ^ x.2) 0
  let badPar := match par with
    | p :: _ => p != uartParity (e.b 5 1) data
    | [] => false
  let n := e.st.idx + 1
  let ninth := e.uartNinth + b2n (bit val 8) * 2 ^ (n - 1)
  let e := (e.merge.err 0 e.st.flag3).modSt (fun s => { s with phase := 0, idx := n, last := t })
  let e := (((e.pushA (BitVec.ofNat 8 val) t).put 4 ninth).err 2 (!v)).err 3 badPar
  if e.uartGroup ≤ n || !v || badPar then e.uartEnd t else e

/-- The character is a break: the characters gathered before it are a message of their own, and it lasts until the line rises. -/
def Engine.uartBreak (e : Engine) : Engine :=
  let settle := e.st.laterS
  let coarse := e.st.laterC
  let e := if e.st.idx = 0 then e else (e.uartEnd e.st.last).begin e.st.t0 settle coarse
  e.modSt (fun s => { s with phase := 2 })

/-- A start edge: a character begins. -/
def Engine.uartBegin (e : Engine) (x : DecEdge) : Engine :=
  let e := if e.st.idx = 0 then e.begin x.time x.settle x.coarse else e.mark x.settle x.coarse
  e.modSt (fun s => { s with phase := 1, cnt := 0, t0 := x.time, bits := [], flag3 := false })

/-- An edge of the line. A start edge before the last stop bit is sampled begins the next character, so the one before it is no break. -/
def Engine.uartEdge (e : Engine) (hz : Nat) (x : DecEdge) : Engine :=
  if x.input ≠ 0 then e
  else
    let v := e.uartLine x.level
    if e.st.phase = 0 && !v then e.uartBegin x
    else if e.st.phase = 3 && !v then (e.uartChar false (e.uartAt hz e.uartStop)).uartBegin x
    else
      let e := e.mark x.settle x.coarse
      if e.st.phase = 2 && v then
        (((e.modMsg (fun m => { m with kind := 1, err := b2n e.st.flag3 })).offer 4 0 x.time).close 0 x.time true).modSt (fun s => { s with phase := 0, idx := 0 })
      else e

/-- A sample point of a character, or the end of an idle line. `flag3` says that an edge was near a sample point of the character. Whether a character
of zeros is a break shows once all its stop bits have been sampled (R252). -/
def Engine.uartTick (e : Engine) (hz : Nat) (t : FineTime) : Engine :=
  if e.st.phase = 0 then e.uartEnd e.st.last
  else if e.st.phase = 3 then
    let e := if e.near 0 t then e.modSt (fun s => { s with flag3 := true }) else e
    if e.uartLine (e.level 0 t) then e.uartChar false (e.uartAt hz e.uartStop) else e.uartBreak
  else
    let k := e.st.cnt
    let v := e.uartLine (e.level 0 t)
    let e := if e.near 0 t then e.modSt (fun s => { s with flag3 := true }) else e
    if k = 0 then
      if v then e.modSt (fun s => { s with phase := 0, inMsg := s.inMsg && s.idx ≠ 0, laterS := false, laterC := false })
      else e.modSt (fun s => { s with cnt := 1 })
    else if k < e.uartStop then e.modSt (fun s => { s with cnt := k + 1, bits := s.bits ++ [v] })
    else if v || e.st.bits.any (fun b => b) then e.uartChar v t
    else if e.b 6 1 = 0 then e.uartBreak
    else e.modSt (fun s => { s with phase := 3 })

/-! ### SPI (R254) -/

/-- Data inputs of the lanes in use. -/
def Engine.spiLanes (e : Engine) : Nat := e.b 1 1
/-- Data is sampled on rising SCLK edges in modes 0 and 3. -/
def Engine.spiRising (e : Engine) : Bool := e.b 0 1 % 4 = 0 || e.b 0 1 % 4 = 3

/-- Bits of one sampling edge, in their order within a byte. -/
def Engine.spiBits (e : Engine) (p : Int) : List Bool :=
  let ls := (List.range e.spiLanes).map (fun k => e.level (2 + k) p)
  if bit (e.b 0 1) 3 then ls else ls.reverse

/-- An edge of SCLK or CS. -/
def Engine.spiEdge (e : Engine) (x : DecEdge) : Engine :=
  if x.input = 1 then
    if x.level = bit (e.b 0 1) 2 then (e.begin x.time x.settle x.coarse).modSt (fun s => { s with bits := [], bits2 := [], last := x.time })
    else if e.st.inMsg then
      let msb := !bit (e.b 0 1) 3
      let e := e.useEdge x
      let part := decide (e.st.bits ≠ [])
      let e := if part then
          let e := e.pushA (byteOf e.st.bits msb) e.st.last
          (if e.spiLanes = 1 then e.pushB (byteOf e.st.bits2 msb) e.st.last else e).err 2
        else e
      e.close e.st.msg.pa.length x.time true
    else e
  else if x.input = 0 && e.st.inMsg && x.level = e.spiRising then
    let (e, use) := e.sampling x.time
    if !use then e
    else
      let e := if e.st.bits = [] && e.st.msg.pa.length = 64 then e.close 64 e.st.lastA false else e
      let p := (x.time : Int) + e.ofs
      let one := e.spiLanes = 1
      let lanes := (List.range (if one then 2 else e.spiLanes)).map (fun k => 2 + k)
      let e := ((e.useEdge x).useLevels lanes p).err 0 (lanes.any (fun i => e.near i p))
      let e := e.modSt (fun s => { s with
        bits := s.bits ++ (if one then [e.level 2 p] else e.spiBits p)
        bits2 := if one then s.bits2 ++ [e.level 3 p] else []
        last := x.time })
      if e.st.bits.length < 8 then e
      else
        let msb := !bit (e.b 0 1) 3
        let e := e.pushA (byteOf e.st.bits msb) x.time
        let e := if one then e.pushB (byteOf e.st.bits2 msb) x.time else e
        e.modSt (fun s => { s with bits := [], bits2 := [] })
  else e

/-! ### I²C and SMBus (R255) -/

/-- The message ends at t: acknowledgement and PEC judged, the end fields offered. `idx` counts data bytes, `aux3` is 1 + the first data byte
not acknowledged, `aux` is 1 for a read. -/
def Engine.i2cEnd (e : Engine) (t : FineTime) (busError stop : Bool) : Engine :=
  let pecOn := bit (e.b 1 1) 1 && stop
  let data := e.st.msg.pa
  let last := (data.getLast?).getD 0
  let pecBad := pecOn && !data.isEmpty && crc8 (e.st.bytes.take (e.st.bytes.length - 1)) != last
  let n := e.st.aux3
  let nackBad := decide (n ≠ 0) && !(e.st.aux = 1 && n = e.st.idx)
  let e := ((e.err 4 busError).err 6 pecBad).err 3 nackBad
  let e := (e.field 7 (if n = 0 then 255 else n - 1) t).field 8 (if pecOn && !data.isEmpty then last.toNat else 0) t
  e.close data.length t true

/-- A segment of 64 data bytes ends (R247): its end fields are those of the transfer so far. -/
def Engine.i2cSplit (e : Engine) : Engine :=
  let t := e.st.lastA
  let n := e.st.aux3
  (((e.field 7 (if n = 0 then 255 else n - 1) t).field 8 0 t).err 3 (decide (n ≠ 0))).close 64 t false

/-- START or repeated START at t. -/
def Engine.i2cStart (e : Engine) (x : DecEdge) : Engine :=
  let rep := e.st.inMsg
  let e := if rep then (e.useEdge x).i2cEnd x.time (1 < e.st.bits.length) false else e
  let old := e.st.bytes
  ((e.begin x.time x.settle x.coarse).useLevels [0] x.time).modSt (fun s => { s with
    phase := 0, bits := [], idx := 0, aux := 0, aux3 := 0, flag := rep, flag2 := false, bytes := if rep then old else [] })

/-- The address is complete at t: its fields are offered, data bytes follow. -/
def Engine.i2cAddr (e : Engine) (addr : Nat) (ten : Bool) (t : FineTime) : Engine :=
  (((e.field 4 addr t).field 5 e.st.aux t).field 6 (b2n e.st.flag + 2 * b2n ten) t).modSt (fun s => { s with phase := 2 })

/-- An address byte v with its acknowledge bit at t (phase 0 first, 1 second of a 10-bit address). -/
def Engine.i2cAddrByte (e : Engine) (v : Nat) (nack : Bool) (t : FineTime) : Engine :=
  if e.st.phase = 1 then
    let hi := e.st.cnt
    ((e.err 2 nack).modSt (fun s => { s with aux2 := v })).i2cAddr (hi * 256 + v) true t
  else
    let e := e.modSt (fun s => { s with aux := v % 2 })
    if v / 8 = 1 then ((e.modMsg (fun m => { m with kind := 3 })).modSt (fun s => { s with hs := true })).i2cAddr (v / 2) false t
    else
      let e := e.err 2 nack
      if v / 8 = 0x1E then
        let hi := v / 2 % 4
        if v % 2 = 1 then e.i2cAddr (hi * 256 + e.st.aux2) true t
        else e.modSt (fun s => { s with phase := 1, cnt := hi })
      else
        let kind := if v = 0 then 2 else if bit (e.b 1 1) 2 && v = 0x19 then 1 else 0
        (e.modMsg (fun m => { m with kind := kind })).i2cAddr (v / 2) false t

/-- An edge of SCL or SDA. -/
def Engine.i2cEdge (e : Engine) (x : DecEdge) : Engine :=
  if x.input = 1 then
    if !e.level 0 x.time then e
    else if !x.level then e.i2cStart x
    else if e.st.inMsg then (((e.useEdge x).i2cEnd x.time (1 < e.st.bits.length) true).modSt (fun s => { s with hs := false, bits := [], bytes := [] }))
    else e.modSt (fun s => { s with hs := false })
  else if !x.level then e.modSt (fun s => { s with t0 := x.time })
  else if !e.st.inMsg then e.modSt (fun s => { s with t0 := 0 })
  else
    let (e, use) := (e.modSt (fun s => { s with t0 := 0 })).sampling x.time
    if !use then e
    else
      let p := (x.time : Int) + e.ofs
      let v := e.level 1 p
      let n := e.st.bits.length
      let e := if e.st.phase = 2 && n = 1 && e.st.msg.pa.length = 64 then e.i2cSplit else e
      let e := ((e.useEdge x).useLevels [1] p).timing (e.near 1 p)
      if n < 8 then
        let e := e.modSt (fun s => { s with bits := s.bits ++ [v] })
        if n = 7 then
          let w := byteOf e.st.bits true
          let e := e.modSt (fun s => { s with bytes := s.bytes ++ [w] })
          if e.st.phase = 2 then (e.pushA w x.time).modSt (fun s => { s with idx := s.idx + 1 }) else e
        else e
      else
        let w := (byteOf (e.st.bits.take 8) true).toNat
        let e := e.modSt (fun s => { s with bits := [] })
        if e.st.phase = 2 then (if v && e.st.aux3 = 0 then e.modSt (fun s => { s with aux3 := s.idx }) else e)
        else e.i2cAddrByte w v x.time

/-- The end of the time-out of an SCL held low since `t0` (R255). -/
def Engine.i2cPoint (e : Engine) (hz : Nat) : Option FineTime :=
  if bit (e.b 1 1) 0 && e.st.inMsg && e.st.t0 ≠ 0 then some (e.st.t0 + 64 * hz * e.b 2 1 / 1000) else none

/-- SCL has been low for TIMEOUT_MS: the message ends and a START is searched for (R255). -/
def Engine.i2cTimeout (e : Engine) (t : FineTime) : Engine :=
  let n := e.st.aux3
  let e := e.mark (e.doneFlags e.st.t0).1 (e.doneFlags e.st.t0).2
  let e := (e.err 5).err 3 (decide (n ≠ 0) && !(e.st.aux = 1 && n = e.st.idx))
  let e := (e.field 7 (if n = 0 then 255 else n - 1) t).field 8 0 t
  { e.close e.st.msg.pa.length t true with sync := 1, lostLock := true }.modSt (fun s => { s with hs := false, bits := [], bytes := [], t0 := 0 })

/-! ### MDIO (R256) -/

/-- Reads, by clause and opcode. -/
def mdioRead (c45 : Bool) (op : Nat) : Bool := if c45 then decide (2 ≤ op) else op = 2

/-- The last bit of a frame at t: turnaround, tracked address and the message. -/
def Engine.mdioEnd (e : Engine) (t : FineTime) : Engine :=
  let bs := e.st.bits
  let num := fun a n => natOf ((bs.drop a).take n)
  let c45 := num 0 2 = 0
  let op := num 2 2
  let key := num 4 5 * 32 + num 9 5
  let ta := num 14 2
  let data := num 16 16
  let track := bit (e.b 1 1) 0
  let known := (e.st.tracked.find? (fun x => x.1 = key)).map (fun x => x.2)
  let rd := mdioRead c45 op
  let reg := if c45 && op = 0 then data else known.getD 0
  let e := ((e.err 3 (rd && ta % 2 = 1)).err 4 (!rd && ta ≠ 2)).err 6 (c45 && op ≠ 0 && track && known.isNone)
  let next := if !(c45 && track) then none
    else if op = 0 then some data
    else if op = 2 then known.map (fun a => (a + 1) % 65536)
    else none
  let e := match next with
    | none => e
    | some a => e.modSt (fun s => { s with tracked := tput s.tracked key a })
  (((e.field 8 data t).field 9 (if c45 && track then reg else 0) t).close 2 t true).modSt (fun s => { s with bits := [], cnt := 0 })

/-- ST is 0b1x: the frame ends at its second bit (R256). -/
def Engine.mdioInvalid (e : Engine) (t : FineTime) : Engine := ((e.err 2).close 2 t true).modSt (fun s => { s with bits := [], cnt := 0 })

/-- An edge of MDC: `cnt` counts preamble ones, `bits` holds the frame's. A frame starts at a 0; a 1 after the preamble is one more one of it, or the first bit
of an invalid ST: the spec does not say which, and Config leaves it free (notes/assumptions/50.md). -/
def Engine.mdioEdge (e : Engine) (x : DecEdge) : Engine :=
  if x.input ≠ 0 || !x.level then e
  else
    let (e, use) := e.sampling x.time
    if !use then e
    else
      let p := (x.time : Int) + e.ofs
      let v := e.level 1 p
      if !e.st.inMsg then
        if v && !(decide (e.b 0 1 ≤ e.st.cnt) && Config.mdioStart e.st.cnt) then e.modSt (fun s => { s with cnt := s.cnt + 1 })
        else
          let short := decide (e.st.cnt < e.b 0 1)
          ((((e.begin x.time x.settle x.coarse).useLevels [1] p).err 5 short).err 0 (e.near 1 p)).modSt (fun s => { s with bits := [v] })
      else
        let e := (((e.useEdge x).useLevels [1] p).err 0 (e.near 1 p)).modSt (fun s => { s with bits := s.bits ++ [v] })
        let num := fun a n => natOf ((e.st.bits.drop a).take n)
        if (e.st.bits.head?).getD false then e.mdioInvalid x.time
        else match e.st.bits.length with
        | 2 => e.field 4 (b2n (!v)) x.time
        | 4 => e.field 5 (num 2 2) x.time
        | 9 => e.field 6 (num 4 5) x.time
        | 14 => e.field 7 (num 9 5) x.time
        | 32 => e.mdioEnd x.time
        | _ => e

/-! ### JTAG (R257) -/

/-- The TAP controller's next state, coded as DEC_STAT.TAP. -/
def tapNext (s : Nat) (tms : Bool) : Nat :=
  match s, tms with
  | 0, true => 0 | 0, false => 1
  | 1, true => 2 | 1, false => 1
  | 2, true => 9 | 2, false => 3
  | 3, true => 5 | 3, false => 4
  | 4, true => 5 | 4, false => 4
  | 5, true => 8 | 5, false => 6
  | 6, true => 7 | 6, false => 6
  | 7, true => 8 | 7, false => 4
  | 8, true => 2 | 8, false => 1
  | 9, true => 0 | 9, false => 10
  | 10, true => 12 | 10, false => 11
  | 11, true => 12 | 11, false => 11
  | 12, true => 15 | 12, false => 13
  | 13, true => 14 | 13, false => 13
  | 14, true => 15 | 14, false => 11
  | 15, true => 2 | 15, false => 1
  | _, _ => 0

/-- Bits that do not fill a byte are pushed at the instant of the last one. -/
def Engine.jtagFlush (e : Engine) : Engine :=
  if e.st.bits = [] then e
  else ((e.pushA (byteOf e.st.bits false) e.st.last).pushB (byteOf e.st.bits2 false) e.st.last).modSt (fun s => { s with bits := [], bits2 := [] })

/-- The segment in progress ends at t; `cnt` counts its bits, `idx` those of the scan. -/
def Engine.jtagClose (e : Engine) (t : FineTime) (final : Bool) : Engine :=
  let e := e.jtagFlush
  ((e.field 4 e.st.idx t).close e.st.cnt t final).modSt (fun s => { s with cnt := 0 })

/-- Test-Logic-Reset is entered at x from another known state (KIND 2), by the inputs `is` sampled at p; `near` says that a data input has an edge near its
sample. -/
def Engine.jtagReset (e : Engine) (x : DecEdge) (is : List Nat) (p : Int) (near : Bool) : Engine :=
  let e := e.modSt (fun s => { s with flag2 := false })
  (((((e.begin x.time x.settle x.coarse).useLevels is p).err 0 near).modMsg (fun m => { m with kind := 2 })).field 4 0 x.time).close 0 x.time true

/-- A scan begins in Capture-xR. `aux` holds the first 64 TDI bits of the scan, `aux2` those of the last IR scan, `flag2` its validity. -/
def Engine.jtagCapture (e : Engine) (x : DecEdge) (p : Int) (near dr : Bool) : Engine :=
  let e := ((((e.begin x.time x.settle x.coarse).useLevels [1] p).err 0 near).modMsg (fun m => { m with kind := b2n dr })).modSt (fun s => { s with
    idx := 0, cnt := 0, aux := 0, bits := [], bits2 := [] })
  let ir := e.st.aux2
  let ok := b2n e.st.flag2
  if dr then (e.field 5 ir x.time).field 6 ok x.time else (e.put 5 ir).put 6 ok

/-- One bit shifted. -/
def Engine.jtagShift (e : Engine) (x : DecEdge) (p : Int) (near : Bool) : Engine :=
  let e := if e.st.cnt = 512 then e.jtagClose e.st.lastA false else e
  let e := ((e.useEdge x).useLevels [1, 2, 3] p).err 0 near
  let i := e.level 2 p
  let o := e.level 3 p
  let e := e.modSt (fun s => { s with
    bits := s.bits ++ [i], bits2 := s.bits2 ++ [o], cnt := s.cnt + 1, idx := s.idx + 1, last := x.time
    aux := if s.idx < 64 then s.aux + b2n i * 2 ^ s.idx else s.aux })
  if e.st.bits.length = 8 then e.jtagFlush else e

/-- An edge of TCK or TRST_N. -/
def Engine.jtagEdge (e : Engine) (x : DecEdge) : Engine :=
  if x.input = 4 && e.uses 4 && !x.level then
    let e := if e.st.inMsg then ((e.useEdge x).err 2).jtagClose x.time true else e
    let e := if e.st.tapKnown && e.st.tap ≠ 0 then e.jtagReset x [] x.time false else e
    e.modSt (fun s => { s with tapKnown := true, tap := 0, goodRun := 0, flag2 := false })
  else if x.input = 0 && x.level && !(e.uses 4 && !e.level 4 x.time) then
    let (e, use) := e.sampling x.time
    if !use then e
    else
      let p := (x.time : Int) + e.ofs
      let tms := e.level 1 p
      let near := e.near 1 p || e.near 2 p || e.near 3 p
      let shifts := e.st.tapKnown && (e.st.tap = 4 || e.st.tap = 11)
      let e := if e.st.inMsg && !shifts then ((e.useEdge x).useLevels [1] p).err 0 near else e
      if !e.st.tapKnown then
        let n := if tms then e.st.goodRun + 1 else 0
        e.modSt (fun s => { s with goodRun := n, tapKnown := decide (5 ≤ n), tap := 0 })
      else
        let old := e.st.tap
        let new := tapNext old tms
        let e := if shifts then e.jtagShift x p near else e
        let e := e.modSt (fun s => { s with tap := new })
        match new with
        | 0 => if old = 0 then e else e.jtagReset x [1] p near
        | 3 => e.jtagCapture x p near true
        | 10 => e.jtagCapture x p near false
        | 8 => e.jtagClose x.time true
        | 15 => (e.jtagClose x.time true).modSt (fun s => { s with aux2 := s.aux, flag2 := true })
        | _ => e
  else e

end Sys2Proof.Machine
end

