-- ==== Sys2Proof/Machine/DecCan.lean ====
section
/-! DEFINITION. The CAN and CAN FD decoder (R258), after ISO 11898-1 (notes/assumptions/27.md). Times of bit boundaries are in 2^-16 fine LSB.
`phase`: 0 waiting for 11 recessive bits, 1 idle, 2 frame, 3 flag, 4 delimiter, 5 intermission. In a frame `idx` is 0 in the part with dynamic
stuffing, 1 in the CRC field of an FD frame, 2 after it; `cnt` counts equal bits, bits of the CRC field, or the position in the tail;
`bits` holds the frame without stuff bits, `bits2` with them; `aux` counts stuff bits; `hs` marks the data phase. -/

namespace Sys2Proof.Machine

/-- A bit period of `rate` in 2^-16 fine LSB. -/
def canPeriod (hz rate : Nat) : Nat := 4194304 * hz / rate
/-- The nominal bit period. -/
def Engine.canNom (e : Engine) (hz : Nat) : Nat := canPeriod hz (e.b 0 4)
/-- Sample point and SJW of the phase in force, in percent. -/
def Engine.canSp (e : Engine) : Nat := if e.st.hs then e.b 9 1 else e.b 8 1
def Engine.canSjw (e : Engine) : Nat := if e.st.hs then e.b 11 1 else e.b 10 1
/-- Recessive level of the line. -/
def Engine.canLine (e : Engine) (v : Bool) : Bool := v != bit (e.b 12 1) 0

/-- The next sample point. -/
def Engine.canPoint (e : Engine) : Option FineTime :=
  if e.st.phase < 2 then none else some ((e.st.boundary + (e.st.period * e.canSp / 100 : Nat)) / 65536).toNat

/-- A start of frame at t. -/
def Engine.canSof (e : Engine) (hz : Nat) (t : FineTime) (settle coarse : Bool) : Engine :=
  (e.begin t settle coarse).modSt (fun s => { s with
    phase := 2, idx := 0, bits := [], bits2 := [], cnt := 0, aux := 0, flag := true, flag2 := false, hs := false
    period := e.canNom hz, boundary := (t : Int) * 65536 })

/-- An edge: hard synchronisation at SOF, on the idle bus and in the third bit of the intermission, else resynchronisation by at most SJW (R258). -/
def Engine.canEdge (e : Engine) (hz : Nat) (x : DecEdge) : Engine :=
  if x.input ≠ 0 then e
  else if e.canLine x.level then e.modSt (fun s => { s with last := x.time })
  else match e.st.phase with
    | 0 => if 11 * e.canNom hz ≤ (x.time - e.st.last) * 65536 then e.canSof hz x.time x.settle x.coarse else e
    | 1 => e.canSof hz x.time x.settle x.coarse
    | p =>
      if p = 5 && e.st.cnt = 2 then e.canSof hz x.time x.settle x.coarse
      else if e.st.flag && e.st.flag2 then
        let lim : Int := ((e.st.period * e.canSjw / 100 : Nat) : Int)
        e.modSt (fun s => { s with boundary := s.boundary + clampInt (-lim) lim ((x.time : Int) * 65536 - s.boundary), flag2 := false })
      else e

/-- Back to the nominal bit time from a sample point at t. -/
def Engine.canSlow (e : Engine) (hz : Nat) (t : FineTime) : Engine :=
  if e.st.hs then
    let n := e.canNom hz
    e.modSt (fun s => { s with hs := false, period := n, boundary := (t : Int) * 65536 + ((n * (100 - e.b 8 1) / 100 : Nat) : Int) })
  else e

/-- On to the data bit time from the sample point of BRS at t. -/
def Engine.canFast (e : Engine) (hz : Nat) (t : FineTime) : Engine :=
  let n := canPeriod hz (e.b 4 4)
  e.modSt (fun s => { s with hs := true, period := n, boundary := (t : Int) * 65536 + ((n * (100 - e.b 9 1) / 100 : Nat) : Int) })

/-- An error flag (kind 2) or overload flag (kind 3) begins; `seen` says that a dominant bit of it has been sampled: the message then
starts with the edge of that bit, or with the bit, and has the flags of the edge and the bit's TIMING. -/
def Engine.canFlagStart (e : Engine) (t : FineTime) (kind : Nat) (seen : Bool) : Engine :=
  let start := if seen then max e.st.edgeT ((e.st.boundary - (e.st.period : Nat)) / 65536).toNat else t
  (((e.begin start (seen && e.st.edgeS) (seen && e.st.edgeC)).err 0 (seen && e.near 0 t)).modMsg (fun m => { m with kind := kind })).modSt (fun s => { s with phase := 3, cnt := 0, flag3 := seen })

/-- The frame ends with error k at the sample point t. -/
def Engine.canFail (e : Engine) (hz k : Nat) (seen : Bool) (t : FineTime) : Engine :=
  ((if e.st.inMsg then (e.err k).emit t true else e).canSlow hz t).canFlagStart t 2 seen

/-- The frame ends with error k at t, and its error flag comes after the ACK delimiter: the frame is followed in silence until then. -/
def Engine.canFailLate (e : Engine) (k : Nat) (t : FineTime) : Engine := if e.st.inMsg then (e.err k).emit t true else e

/-- Extended format; offset of the control field; CAN FD; index of the DLC; remote; data bytes on the bus. -/
def Engine.canExt (e : Engine) : Bool := e.st.bits.getD 13 false
def Engine.canOfs (e : Engine) : Nat := if e.canExt then 19 else 0
def Engine.canFd (e : Engine) : Bool := e.b 4 4 ≠ 0 && e.st.bits.getD (14 + e.canOfs) false
def Engine.canDlcAt (e : Engine) : Nat := if e.canFd then 18 + e.canOfs else if e.canExt then 35 else 15
def Engine.canRemote (e : Engine) : Bool := e.st.bits.getD (if e.canExt then 32 else 12) false && !e.canFd
def Engine.canNum (e : Engine) (a n : Nat) : Nat := natOf ((e.st.bits.drop a).take n)

/-- Data bytes that a DLC stands for (R258). -/
def canLen (fd : Bool) (dlc : Nat) : Nat :=
  if dlc ≤ 8 then dlc else if fd then [12, 16, 20, 24, 32, 48, 64].getD (dlc - 9) 64 else 8

/-- Bits before the CRC. -/
def Engine.canDataEnd (e : Engine) : Nat :=
  e.canDlcAt + 4 + (if e.canRemote then 0 else 8 * canLen e.canFd (e.canNum e.canDlcAt 4))

/-- Width of the CRC. -/
def Engine.canCrcWidth (e : Engine) : Nat := if !e.canFd then 15 else if canLen true (e.canNum e.canDlcAt 4) ≤ 16 then 17 else 21

/-- The stuff count field for n stuff bits: three Gray-coded bits and their even parity. -/
def canStuffCount (n : Nat) : List Bool :=
  let g := Nat.xor (n % 8) (n % 8 / 2)
  let bs := [bit g 2, bit g 1, bit g 0]
  bs ++ [bs.foldl xor false]

/-- A bit of the stuffed part, without stuffing, sampled at t: what it completes. `aux2` and `aux3` keep the instants of the bits 11 and 12. -/
def Engine.canField (e : Engine) (hz : Nat) (v : Bool) (t : FineTime) : Engine :=
  let n := e.st.bits.length
  let o := e.canOfs
  let d := e.canDlcAt
  let fd := e.canFd
  if n = 12 then e.modSt (fun s => { s with aux2 := t })
  else if n = 13 then e.modSt (fun s => { s with aux3 := t })
  else if n = 14 then
    if v then e.field 5 1 t
    else ((e.field 4 (e.canNum 1 11) e.st.aux2).field 7 (e.canNum 12 1) e.st.aux3).field 5 0 t
  else if n = 32 && e.canExt then e.field 4 (e.canNum 1 11 * 262144 + e.canNum 14 18) t
  else if n = 33 && e.canExt then e.field 7 (b2n v) t
  else if n = 15 + o then
    (e.field 6 (b2n fd) t).modMsg (fun m => { m with kind := b2n e.canRemote })
  else if fd && n = 16 + o then (if v then e.canFail hz 3 false t else e)
  else if fd && n = 17 + o then (if v then (e.field 8 1 t).canFast hz t else e.field 8 0 t)
  else if fd && n = 18 + o then e.field 9 (b2n v) t
  else if n = d + 4 then
    let dlc := e.canNum d 4
    let len := canLen fd dlc
    (((e.field 10 dlc t).offer 2 len t).modMsg (fun m => { m with len := len })).modSt (fun s =>
      if fd && len = 0 then { s with idx := 1, cnt := 0 } else s)
  else if d + 4 < n && n ≤ e.canDataEnd then
    let e := if (n - (d + 4)) % 8 = 0 then e.pushA (byteOf (e.st.bits.drop (n - 8)) true) t else e
    let k := e.st.msg.pa.length
    let e := if n = e.canDataEnd && k % 8 ≠ 0 then
        (e.offer (16 + k / 8) (payloadField e.st.msg.pa (k / 8)) t).modSt (fun s => { s with offA := k / 8 + 1 })
      else e
    if fd && n = e.canDataEnd then e.modSt (fun s => { s with idx := 1, cnt := 0 }) else e
  else if !fd && n = e.canDataEnd + 15 then
    let crc := e.canNum e.canDataEnd 15
    let e := e.field 11 crc t
    if crc = crcBits 15 0x4599 0 (e.st.bits.take e.canDataEnd) then e else e.canFailLate 4 t
  else e

/-- The stuffed part of a classical frame has ended, with the stuff bit that its last bits call for. -/
def Engine.canStuffedDone (e : Engine) : Bool :=
  e.st.phase = 2 && e.st.idx = 0 && !e.canFd && e.canDlcAt + 4 < e.st.bits.length
    && e.st.bits.length = e.canDataEnd + 15 && e.st.cnt ≠ 5

/-- A bit v of the stuffed part, `last` the one before it. -/
def Engine.canStuffed (e : Engine) (hz : Nat) (v last : Bool) (t : FineTime) : Engine :=
  let e' :=
    if e.st.cnt = 5 then
      if v = last then e.canFail hz 2 (!v) t
      else e.modSt (fun s => { s with cnt := 1, aux := s.aux + 1, bits2 := s.bits2 ++ [v] })
    else
      (e.modSt (fun s => { s with
        cnt := if v = last && s.bits ≠ [] then s.cnt + 1 else 1, bits := s.bits ++ [v], bits2 := s.bits2 ++ [v] })).canField hz v t
  if e'.canStuffedDone then e'.modSt (fun s => { s with idx := 2, cnt := 0 }) else e'

/-- A bit v of an FD frame's CRC field: a fixed stuff bit before every fourth, the stuff count, the CRC. -/
def Engine.canCrcBit (e : Engine) (hz : Nat) (v last : Bool) (t : FineTime) : Engine :=
  let w := e.canCrcWidth
  let k := e.st.cnt
  let base := e.canDataEnd
  if k % 5 = 0 then (if v = last then e.canFail hz 3 (!v) t else e.modSt (fun s => { s with cnt := k + 1 }))
  else
    let e := e.modSt (fun s => { s with cnt := k + 1, bits := s.bits ++ [v] })
    let got := (e.st.bits.drop base).take 4
    let e := if k = 4 && got != canStuffCount e.st.aux then e.canFailLate 6 t else e
    if e.st.bits.length = base + 4 + w then
      let crc := e.canNum (base + 4) w
      let want := if w = 17 then crcBits 17 0x1685B 0x10000 (e.st.bits2 ++ got) else crcBits 21 0x102899 0x100000 (e.st.bits2 ++ got)
      let e := if e.st.inMsg then e.field 11 crc t else e
      (if crc = want then e else e.canFailLate 4 t).modSt (fun s => { s with idx := 2, cnt := 0 })
    else e

/-- A bit v after the CRC: delimiter (0), ACK slot (1, 2), ACK delimiter (3, 4), end of frame (5 to 11). -/
def Engine.canTail (e : Engine) (hz : Nat) (v : Bool) (t : FineTime) : Engine :=
  let goto := fun (k : Nat) (e : Engine) => e.modSt (fun s => { s with cnt := k })
  let fd := e.canFd
  let live := e.st.inMsg
  match e.st.cnt with
  | 0 => if v then goto 1 (e.canSlow hz t) else e.canFail hz 3 true t
  | 1 => if !v || !live then goto 3 e else if fd then goto 2 e else e.canFail hz 5 false t
  | 2 => if v then e.canFail hz 5 false t else goto 3 e
  | 3 => if v then (if live then goto 5 e else e.canFlagStart t 2 false) else if fd then goto 4 e else e.canFail hz 3 true t
  | 4 => if v then (if live then goto 5 e else e.canFlagStart t 2 false) else e.canFail hz 3 true t
  | 11 =>
    let e := e.emit t true
    if v then e.modSt (fun s => { s with phase := 5, cnt := 0 }) else e.canFlagStart t 3 true
  | k => if v then goto (k + 1) e else e.canFail hz 3 true t

/-- A bit v of a frame. -/
def Engine.canBit (e : Engine) (hz : Nat) (v last : Bool) (t : FineTime) : Engine :=
  if e.st.idx = 0 then
    if e.st.bits = [] && v then e.modSt (fun s => { s with phase := 1, inMsg := false })
    else e.canStuffed hz v last t
  else if e.st.idx = 1 then e.canCrcBit hz v last t
  else e.canTail hz v t

/-- A bit v of an error or overload flag: six recessive bits are a passive flag; the first recessive bit after a dominant one begins the delimiter. -/
def Engine.canFlag (e : Engine) (v : Bool) : Engine :=
  if !v then e.modSt (fun s => { s with flag3 := true, cnt := 0 })
  else if e.st.flag3 then e.modSt (fun s => { s with phase := 4, cnt := 1 })
  else if e.st.cnt = 5 then e.modSt (fun s => { s with phase := 4, cnt := 0 })
  else e.modSt (fun s => { s with cnt := s.cnt + 1 })

/-- A bit v of a delimiter of eight recessive bits; a dominant last one starts an overload flag. -/
def Engine.canDelim (e : Engine) (hz : Nat) (v : Bool) (t : FineTime) : Engine :=
  if e.st.cnt = 7 then
    let e := e.emit t true
    if v then e.modSt (fun s => { s with phase := 5, cnt := 0 }) else e.canFlagStart t 3 true
  else if v then e.modSt (fun s => { s with cnt := s.cnt + 1 })
  else e.canFail hz 3 false t

/-- A bit v of the intermission: a dominant first or second bit is an overload flag; a dominant third one has begun a frame at its edge (canEdge). -/
def Engine.canInter (e : Engine) (v : Bool) (t : FineTime) : Engine :=
  if v then e.modSt (fun s => if s.cnt = 2 then { s with phase := 1 } else { s with cnt := s.cnt + 1 }) else e.canFlagStart t 3 true

/-- A sample point at t. -/
def Engine.canTick (e : Engine) (hz : Nat) (t : FineTime) : Engine :=
  let v := e.canLine (e.level 0 t)
  let last := e.st.flag
  let e := (if e.st.inMsg then e.err 0 (e.near 0 t) else e).modSt (fun s => { s with boundary := s.boundary + s.period, flag := v, flag2 := true })
  match e.st.phase with
  | 2 => e.canBit hz v last t
  | 3 => e.canFlag v
  | 4 => e.canDelim hz v t
  | _ => e.canInter v t

end Sys2Proof.Machine
end

