-- ==== Sys2Proof/Machine/DecLane.lean ====
section
/-! DEFINITION. The 8b/10b lane decoder (R259, R260) and the strobed parallel bus (R261). The lane's times are in 2^-16 fine LSB. -/

namespace Sys2Proof.Machine

/-! ### The 8b/10b code -/

/-- The six-bit part abcdei of D.x at running disparity -, a first. -/
def sixD : List Nat :=
  [0x27, 0x1D, 0x2D, 0x31, 0x35, 0x29, 0x19, 0x38, 0x39, 0x25, 0x15, 0x34, 0x0D, 0x2C, 0x1C, 0x17] ++
  [0x1B, 0x23, 0x13, 0x32, 0x0B, 0x2A, 0x1A, 0x3A, 0x33, 0x26, 0x16, 0x36, 0x0E, 0x2E, 0x1E, 0x2B]

/-- The four-bit part fghj of .y at running disparity -, and of a K28.y. -/
def fourD : List Nat := [0xB, 0x9, 0x5, 0xC, 0xD, 0xA, 0x6, 0xE]
def fourK : List Nat := [0xB, 0x6, 0xA, 0xC, 0xD, 0x5, 0x9, 0x7]

/-- Ones in the low n bits. -/
def onesIn (n v : Nat) : Nat := ((List.range n).filter (fun i => v.testBit i)).length

/-- A part of n bits at disparity rd: inverted at + where it is unbalanced or `alt` says that it alternates. -/
def partAt (n v : Nat) (rd alt : Bool) : Nat := if rd && (onesIn n v * 2 ≠ n || alt) then 2 ^ n - 1 - v else v

/-- Running disparity after a part of n bits. -/
def rdAfter (n v : Nat) (rd : Bool) : Bool := if onesIn n v * 2 = n then rd else decide (n < onesIn n v * 2)

/-- Ten bits of a symbol value, D or K, at running disparity rd (false is -); the first bit sent is the most significant. -/
def encode8b (val : Nat) (k rd : Bool) : Nat :=
  let x := val % 32
  let y := val / 32
  let six := if k && x = 28 then partAt 6 0x0F rd false else partAt 6 (sixD.getD x 0) rd (x = 7)
  let r := rdAfter 6 six rd
  let four :=
    if k && x = 28 then partAt 4 (fourK.getD y 0) r true
    else if y = 7 then
      let a7 := k || (!r && (x = 17 || x = 18 || x = 20)) || (r && (x = 11 || x = 13 || x = 14))
      partAt 4 (if a7 then 0x7 else 0xE) r false
    else partAt 4 (fourD.getD y 0) r (y = 3)
  six * 16 + four

/-- The valid K codes. -/
def kCodes : List Nat := [0x1C, 0x3C, 0x5C, 0x7C, 0x9C, 0xBC, 0xDC, 0xFC, 0xF7, 0xFB, 0xFD, 0xFE]

/-- The value and K flag that ten bits stand for at running disparity rd. -/
def decode8b (w : Nat) (rd : Bool) : Option (Nat × Bool) :=
  match kCodes.find? (fun v => encode8b v true rd = w) with
  | some v => some (v, true)
  | none => ((List.range 256).find? (fun v => encode8b v false rd = w)).map (fun v => (v, false))

/-! ### The lane (R259, R260) -/

/-- T0 in 2^-16 fine LSB. -/
def Engine.laneT0 (e : Engine) (hz : Nat) : Nat := 64 * hz * 65536 / (1000 * e.b 0 4)
/-- Round to the nearest integer. -/
def roundDiv (a : Int) (b : Nat) : Int := (2 * a + b) / (2 * b)
/-- FRAMING. -/
def Engine.framing (e : Engine) : Nat := e.b 4 1

/-- The instant of bit i = cnt - 16 after the boundary. -/
def Engine.laneAt (e : Engine) : FineTime :=
  ((e.st.boundary + ((2 * (e.st.cnt : Int) - 31) * e.st.period) / 2) / 65536 + e.ofs).toNat

/-- The next instant without an edge: a bit's sample or the twelfth bit period without an edge; whether it is the latter. -/
def Engine.lanePoint (e : Engine) : Option (FineTime × Bool) :=
  if !e.st.lock then none
  else
    let p := e.laneAt
    let q := e.st.last + 12 * e.st.period / 65536
    if p ≤ q then some (p, false) else some (q, true)

/-- One symbol into the message in progress, its bits' errors and its edges' flags with it. -/
def Engine.laneAdd (e : Engine) (y : LaneSym) : Engine :=
  let n := e.st.msg.pa.length
  let e := e.modMsg (fun m => { m with err := Nat.lor m.err y.errs, settle := m.settle || y.settle, coarse := m.coarse || y.coarse })
  let e := if n = 0 then e.field 4 (y.val + 256 * b2n y.k) y.fin else e
  let km := ((e.st.msg.fields.find? (fun f => f.1 = 5)).map (fun f => f.2)).getD 0
  (e.pushA (BitVec.ofNat 8 y.val) y.fin).put 5 (km + b2n y.k * 2 ^ n)

/-- The message in progress ends at t. -/
def Engine.laneEnd (e : Engine) (t : FineTime) : Engine :=
  if !e.st.inMsg then e
  else
    let km := ((e.st.msg.fields.find? (fun f => f.1 = 5)).map (fun f => f.2)).getD 0
    (e.offer 5 km t).close e.st.msg.pa.length t true

/-- FRAMING 2: the groups of a K symbol and the three after it may share symbols; `syms` holds the latest symbols, oldest first. A group
of the symbols ss is a message that ends at t; FIRST has been offered with its first symbol. -/
def Engine.laneGroup (e : Engine) (ss : List LaneSym) (extra : Nat) (t : FineTime) : Engine :=
  let e := e.begin (((ss.head?).map (fun y => y.start)).getD t) false false
  let e := ss.zipIdx.foldl (fun e x =>
    let y := x.1
    let km := ((e.st.msg.fields.find? (fun f => f.1 = 5)).map (fun f => f.2)).getD 0
    let e := e.modMsg (fun m => { m with err := Nat.lor m.err y.errs, settle := m.settle || y.settle, coarse := m.coarse || y.coarse })
    let e := if x.2 = 0 then e.put 4 (y.val + 256 * b2n y.k) else e
    (e.pushA (BitVec.ofNat 8 y.val) y.fin).put 5 (km + b2n y.k * 2 ^ x.2)) e
  (e.modMsg (fun m => { m with err := Nat.lor m.err extra })).laneEnd t

/-- FRAMING 2: the groups in progress, each from its K symbol on. -/
def DecState.openGroups (s : DecState) : List (List LaneSym) :=
  ((List.range s.syms.length).map (fun i => s.syms.drop i)).filter (fun g => ((g.head?).map (fun y => y.k)).getD false && decide (g.length < 4))

/-- Messages in progress end with the error bits `extra`: at t, or with their last symbol where no instant is given (R259, R260). -/
def Engine.laneBreak (e : Engine) (extra : Nat) (t : Option FineTime) : Engine :=
  if e.framing = 2 then
    let e := e.st.openGroups.foldl (fun e g => e.laneGroup g extra (t.getD (((g.getLast?).map (fun y => y.fin)).getD 0))) e
    e.modSt (fun s => { s with syms := [] })
  else if e.st.inMsg then (e.modMsg (fun m => { m with err := Nat.lor m.err extra })).laneEnd (t.getD e.st.lastA)
  else e

/-- A symbol goes to the framing in force (R260). -/
def Engine.laneSymbol (e : Engine) (y : LaneSym) : Engine :=
  match e.framing with
  | 0 =>
    if e.st.inMsg then
      let e := e.laneAdd y
      if (y.k && y.val = e.b 7 1) || e.st.msg.pa.length = 64 then e.laneEnd y.fin else e
    else if y.k && y.val = e.b 6 1 then (e.begin y.start false false).laneAdd y
    else e
  | 1 =>
    let e := if y.comma then e.laneEnd e.st.lastA else e
    let e := (if e.st.inMsg then e else e.begin y.start false false).laneAdd y
    if e.b 5 1 ≤ e.st.msg.pa.length then e.laneEnd y.fin else e
  | _ =>
    let ss := e.st.syms ++ [y]
    let ss := ss.drop (ss.length - 4)
    let e := e.modSt (fun s => { s with syms := ss, msg := { settle := y.settle, coarse := y.coarse } })
    let e := if y.k then e.offer 4 (y.val + 256) y.fin else e
    if ss.length = 4 && ((ss.head?).map (fun z => z.k)).getD false then e.laneGroup ss 0 y.fin else e

/-- Ten bits complete at t: the symbol, its code and disparity checks. `flag` is the running disparity. -/
def Engine.laneTen (e : Engine) (t : FineTime) : Engine :=
  let w := natOf e.st.bits
  let rd := e.st.flag
  let comma := w / 8 = 0x1F || w / 8 = 0x60
  let after := if onesIn 10 w = 5 then rd else decide (5 < onesIn 10 w)
  let (val, k, errs) := match decode8b w rd with
    | some v => (v.1, v.2, 0)
    | none => match decode8b w (!rd) with
      | some v => (v.1, v.2, 8)
      | none => ((Config.badSymbol w).toNat, false, 4)
  let ms := e.st.marks
  (e.modSt (fun s => { s with bits := [], flag := after })).laneSymbol
    { val := val, k := k, comma := comma, errs := errs + b2n (ms.any (fun m => m.near)), start := ((ms.head?).map (fun m => m.start)).getD t, fin := t
      settle := ms.any (fun m => m.settle), coarse := ms.any (fun m => m.coarse) }

/-- A bit sampled at t: comma alignment (R260). `bits2` holds the latest seven bits, `marks` what the latest ten carry, `phase` is 1 once aligned. -/
def Engine.laneBit (e : Engine) (t : FineTime) : Engine :=
  let v := e.level 0 t != bit (e.b 8 1) 0
  let mark : BitMark :=
    { start := (((t : Int) - e.ofs) - ((e.st.period / 131072 : Nat) : Int)).toNat, near := e.near 0 t, settle := e.st.laterS, coarse := e.st.laterC }
  let e := e.modSt (fun s => { s with
    cnt := s.cnt + 1, laterS := false, laterC := false, marks := (s.marks ++ [mark]).drop (s.marks.length - 9), bits := s.bits ++ [v], bits2 := (s.bits2 ++ [v]).drop (s.bits2.length - 6) })
  let w := natOf e.st.bits2
  let comma := e.st.bits2.length = 7 && (w = 0x1F || w = 0x60)
  let e :=
    if comma && !(e.st.phase = 1 && e.st.bits.length = 7) then
      let e := if e.st.phase = 1 then e.laneBreak 32 none else e
      e.modSt (fun s => { s with phase := 1, bits := s.bits2, flag := decide (w = 0x60) })
    else e
  if e.st.phase = 1 then (if e.st.bits.length = 10 then e.laneTen t else e)
  else e.modSt (fun s => { s with bits := [] })

/-- Lock is lost at t (R259). -/
def Engine.laneLose (e : Engine) (t : FineTime) : Engine :=
  { e.laneBreak 16 (some t) with sync := 1, lostLock := true }.modSt (fun s => { s with
    lock := false, goodRun := 0, recentBad := [], phase := 0, bits := [], bits2 := [], marks := [] })

/-- An edge of the lane: clock recovery, lock and its loss (R259). -/
def Engine.laneEdge (e : Engine) (hz : Nat) (x : DecEdge) : Engine :=
  if x.input ≠ 0 then e
  else
    let pos := (x.time : Int) * 65536
    if e.st.period = 0 then e.modSt (fun s => { s with period := e.laneT0 hz, boundary := pos, last := x.time })
    else
      let tt := e.st.period
      let n := roundDiv (pos - e.st.boundary) tt
      let er := pos - (e.st.boundary + n * tt)
      let t0 := e.laneT0 hz
      let next := clampInt ((t0 : Int) - t0 / 1000) ((t0 : Int) + t0 / 1000) ((tt : Int) + er / 1024)
      let good := decide (4 * er.natAbs ≤ tt)
      let bad := decide (3 * tt < 8 * er.natAbs)
      let e := e.modSt (fun s => { s with
        boundary := s.boundary + n * tt + er / 8, period := next.toNat, last := x.time, cnt := s.cnt - n.toNat
        goodRun := if good then s.goodRun + 1 else 0, recentBad := (bad :: s.recentBad).take 64 })
      if e.st.lock then (if 8 ≤ (e.st.recentBad.filter (fun b => b)).length then e.laneLose x.time else e)
      else if 64 ≤ e.st.goodRun then
        { e with sync := 2 }.modSt (fun s => { s with lock := true, cnt := 16, recentBad := [], phase := 0, bits := [], bits2 := [], marks := [], laterS := false, laterC := false })
      else e

/-- The lane's sample point, or the twelfth bit period without an edge. -/
def Engine.laneTick (e : Engine) (x : FineTime × Bool) : Engine := if x.2 then e.laneLose x.1 else e.laneBit x.1

/-! ### Strobed parallel bus (R261) -/

/-- WIDTH and the bytes of a word. -/
def Engine.parWidth (e : Engine) : Nat := e.b 0 1
def Engine.parBytes (e : Engine) : Nat := (e.parWidth + 7) / 8

/-- The bus at p. -/
def Engine.parBus (e : Engine) (p : Int) : Nat :=
  ((List.range e.parWidth).map (fun k => b2n (e.level (6 + k) p) * 2 ^ k)).sum
/-- The qualifiers at p. -/
def Engine.parQual (e : Engine) (p : Int) : Nat :=
  ((List.range 4).map (fun k => if e.uses (2 + k) then b2n (e.level (2 + k) p) * 2 ^ k else 0)).sum

/-- An edge of the bus or a qualifier near p. -/
def Engine.parNear (e : Engine) (p : Int) (quals : Bool) : Bool :=
  (List.range e.parWidth).any (fun k => e.near (6 + k) p) || (quals && (List.range 4).any (fun k => e.uses (2 + k) && e.near (2 + k) p))

/-- The segment in progress ends at t; `cnt` counts its words, `idx` those of the transaction. -/
def Engine.parClose (e : Engine) (t : FineTime) (final : Bool) : Engine :=
  ((e.field 6 e.st.cnt t).close e.st.msg.pa.length t final).modSt (fun s => { s with cnt := 0 })

/-- The bus and, with them, the qualifiers in use as inputs. -/
def Engine.parInputs (e : Engine) (quals : Bool) : List Nat :=
  (List.range e.parWidth).map (fun k => 6 + k) ++ (if quals then ((List.range 4).map (fun k => 2 + k)).filter e.uses else [])

/-- A sample by the edge x: the edges that it uses, and TIMING (R245, R249). -/
def Engine.parUse (e : Engine) (x : DecEdge) (p : Int) (quals : Bool) : Engine :=
  ((e.useEdge x).useLevels (e.parInputs quals) p).err 0 (e.parNear p quals)

/-- One word sampled by the strobe x; it belongs to each segment that takes bytes of it. -/
def Engine.parWord (e : Engine) (x : DecEdge) (p : Int) (quals : Bool) : Engine :=
  let t := x.time
  let v := e.parBus p
  let e := (List.range e.parBytes).foldl (fun e j =>
    let full := e.st.msg.pa.length = 64
    let e := if full then e.parClose (if j = 0 then e.st.lastA else t) false else e
    let e := if full || j = 0 then e.parUse x p quals else e
    e.pushA (BitVec.ofNat 8 (v / 256 ^ j)) t) e
  e.modSt (fun s => { s with cnt := s.cnt + 1, idx := s.idx + 1, last := t })

/-- An edge of a strobe or a qualifier. -/
def Engine.parEdge (e : Engine) (x : DecEdge) : Engine :=
  let addr := e.uses 1
  if x.input = 1 && addr && slopeOk (e.b 2 1) x.level then
    let (e, use) := e.sampling x.time
    if !use then e
    else
      let p := (x.time : Int) + e.ofs
      let e := if e.st.inMsg then (e.useEdge x).parClose e.st.last true else e
      let e := ((e.begin x.time x.settle x.coarse).parUse x p true).modSt (fun s => { s with idx := 0, cnt := 0, last := x.time })
      (e.field 4 (e.parBus p) x.time).field 5 (e.parQual p) x.time
  else if x.input = 0 && slopeOk (e.b 1 1) x.level then
    let (e, use) := e.sampling x.time
    if !use || (addr && !e.st.inMsg) then e
    else
      let p := (x.time : Int) + e.ofs
      if addr then
        let e := e.parWord x p false
        if e.b 4 1 ≠ 0 && e.b 4 1 ≤ e.st.idx then e.parClose x.time true else e
      else
        let e := (e.begin x.time x.settle x.coarse).modSt (fun s => { s with idx := 0, cnt := 0 })
        ((e.field 5 (e.parQual p) x.time).parWord x p true).parClose x.time true
  else if 2 ≤ x.input && x.input < 6 && e.st.inMsg then
    let q := e.b 3 1
    if bit q 2 && x.input = 2 + q % 4 then (if x.level = bit q 3 then (e.useEdge x).parClose e.st.last true else e) else (e.useEdge x).err 2
  else e

end Sys2Proof.Machine
end

