-- ==== Sys2Proof/Machine/Engines.lean ====
section
/-! DEFINITION. The decode engines at work (R243 to R251, R262 to R264): edges in order of deskewed time, the queue of messages, abandoned
messages, SET_DECODER, and the rows DECODER_MESSAGE_COMPLETE, CDR_LOCK_LOSS and SMBUS_TIMEOUT. -/

namespace Sys2Proof.Machine

/-- Engine n of the chip. -/
def State.engine (s : State) (n : Nat) : Engine := (tfind s.engines n).getD {}

/-- Engine n changed by f. -/
def State.modEngine (s : State) (n : Nat) (f : Engine → Engine) : State := { s with engines := tmod s.engines n {} f }

/-- An engine that decodes (R244, R251). -/
def Engine.works (e : Engine) : Bool := e.enable && !e.member && !e.inputOff

/-- Messages in progress: the one that the protocol gathers, or an 8b/10b lane's groups. -/
def Engine.inProgress (e : Engine) : Nat := if e.protocol = 6 && e.framing = 2 then e.st.openGroups.length else b2n e.st.inMsg

/-- SYNC as DEC_STAT shows it (R265). -/
def Engine.syncCode (e : Engine) : Nat :=
  if !e.enable || e.member then 0 else if e.inputOff then 1 else if e.inProgress ≠ 0 then 3 else if e.sync = 2 || (e.protocol = 4 && e.st.tapKnown) then 2 else 1

/-! ### Running an engine -/

/-- An edge handed to the protocol's decoder. -/
def Engine.onEdge (e : Engine) (hz : Nat) (x : DecEdge) : Engine :=
  match e.protocol with
  | 0 => e.uartEdge hz x
  | 1 => e.spiEdge x
  | 2 => e.i2cEdge x
  | 3 => e.mdioEdge x
  | 4 => e.jtagEdge x
  | 5 => e.canEdge hz x
  | 6 => e.laneEdge hz x
  | _ => e.parEdge x

/-- The next instant at which the engine acts without an edge. -/
def Engine.point (e : Engine) (hz : Nat) : Option FineTime :=
  match e.protocol with
  | 0 => e.uartPoint hz
  | 2 => e.i2cPoint hz
  | 5 => e.canPoint
  | 6 => e.lanePoint.map (fun x => x.1)
  | _ => none

/-- What the engine does at that instant. -/
def Engine.onPoint (e : Engine) (hz : Nat) (t : FineTime) : Engine :=
  match e.protocol with
  | 0 => e.uartTick hz t
  | 2 => e.i2cTimeout t
  | 5 => e.canTick hz t
  | 6 => match e.lanePoint with
    | some x => e.laneTick x
    | none => e
  | _ => e

/-- How far past an edge its decoding looks: SAMPLE_OFS and GUARD (R245). -/
def Engine.look (e : Engine) : Nat := e.ofs.toNat + e.guard

/-- Edges and instants in order of time, while they lie below fine time h, all that they look at included where `ahead` says so. -/
def Engine.run (e : Engine) (hz : Nat) (h : FineTime) (ahead : Bool) (fuel : Nat) : Engine :=
  match fuel with
  | 0 => e
  | k + 1 =>
    let p := e.point hz
    let guard := if ahead then e.guard else 0
    match e.ready with
    | x :: _ =>
      if p.all (fun q => decide (x.time ≤ q)) then
        (if x.time + (if ahead then e.look else 0) < h then ((e.take x).onEdge hz x).run hz h ahead k else e)
      else match p with
        | some q => if q + guard < h then (e.onPoint hz q).run hz h ahead k else e
        | none => e
    | [] => match p with
      | some q => if q + guard < h then (e.onPoint hz q).run hz h ahead k else e
      | none => e

/-- Steps that suffice for an engine's edges. -/
def Engine.fuel (e : Engine) : Nat := 4096 + 32 * e.ready.length

/-- The engine brought up to fine time h, below which all its edges are known. -/
def Engine.advance (e : Engine) (hz : Nat) (h : FineTime) : Engine :=
  let w := e.wait hz
  let e := e.filterTo hz h (e.buf.length + 1)
  e.run hz (h - w) true e.fuel

/-- Everything below slot b decoded, as far as edges are known: what is complete below b is complete (R251). -/
def Engine.finishAt (e : Engine) (hz : Nat) (b : SI) : Engine :=
  let e := e.filterTo hz (64 * b + e.wait hz) (e.buf.length + 1)
  e.run hz (64 * b) false e.fuel

/-- An edge among those not yet filtered, by time; the trailing edge of a glitch follows its leading edge (R98). -/
def insertDec (l : List DecEdge) (x : DecEdge) : List DecEdge :=
  match l with
  | [] => [x]
  | y :: rest =>
    if x.time < y.time && !(x.glitch && y.glitch && x.input = y.input && x.level != y.level && decide (y.time < x.time + 64)) then x :: l
    else y :: insertDec rest x

/-! ### Messages of an engine -/

/-- Region of engine n and its number in it. -/
def engRegion (n : Nat) : Nat := n / 16

/-- Whether an event that is raised at most once per anchor interval was raised for an engine of region r in this one. -/
def State.engineOnce (s : State) (r : Nat) (f : Engine → Option Nat) : Bool :=
  !s.engines.any (fun e => engRegion e.1 = r && f e.2 = some (s.time.si / 1048576))

/-- The boundary at which the sequencer was armed for the next slot that it evaluates (R124, R145). -/
def Seq.armedFrom (q : Seq) : SI := (q.rearm.filter (fun e => decide (e.1 ≤ q.next))).foldl (fun a e => max a e.1) q.from_

/-- A field offered to the live sequencer's MESSAGE terms (R127, R248), in the slot of its instant, or in the next one that is evaluated where
the end of the message alone shows that its payload is complete (DEDUCED, notes/assumptions/28.md). One from before the arming is history (R124). -/
def Seq.offered (q : Seq) (n : Nat) (o : Offer) : Seq :=
  if (q.armed || q.stopAt.isSome) && decide (64 * q.armedFrom ≤ o.time) then
    let t := if o.time < 64 * q.next then 64 * q.next + o.time % 64 else o.time
    { q with events := q.events ++ [({ kind := 0, src := n, time := t, fields := [(o.field, o.time, o.value, o.settle, o.coarse)] } : SeqEvent)] }
  else q

/-- The engine mask that holds for messages completing in slot x (R216). -/
def Region.engFor (g : Region) (x : SI) : BitVec 16 := if x < g.engAt then g.oldEng else g.cfg.engMask

/-- A complete message of engine n: counters, event 10, and the queue of 16, which drops what finds it full (R250). -/
def State.messageDone (s : State) (n : Nat) (m : Msg) : State :=
  let r := engRegion n
  let bad := decide (m.err ≠ 0)
  let once := bad && s.engineOnce r (fun e => e.errEvent)
  let s := s.modEngine n (fun e => { e with
    msgs := satInc 16 e.msgs, errMsgs := if bad then satInc 16 e.errMsgs else e.errMsgs, lastErr := m.err
    errEvent := if bad then some (s.time.si / 1048576) else e.errEvent })
  let s := s.raiseIf once (regionEvent r 10)
  if !(((s.region r).engFor (m.time / 64)).getLsbD (n % 16) && s.cap.inRun (m.time / 64)) then s
  else if (s.engine n).done.length < 16 then s.modEngine n (fun e => { e with done := e.done ++ [m] })
  else
    let f := m.time / 1024
    let known := (s.engine n).dropFrames.contains f
    let s := (s.modEngine n (fun e => { e with drop := satInc 8 e.drop, dropFrames := (f :: e.dropFrames).take 4 })).raise (regionEvent r 7)
    if known then s else s.place (msgSource r (n % 16)) (recSelvedge selEnvelope 4 (msgSource r (n % 16)) (16 * f) 16)

/-- A frame in which sampling edges were not used (R246). -/
def State.frameSkipped (s : State) (n f : Nat) : State :=
  let r := engRegion n
  let once := s.engineOnce r (fun e => e.skipEvent)
  let s := s.modEngine n (fun e => { e with skipEvent := some (s.time.si / 1048576) })
  let s := if (s.region r).cfg.engMask.getLsbD (n % 16) then
      s.place (msgSource r (n % 16)) (recSelvedge selEnvelope 4 (msgSource r (n % 16)) (16 * f) 16)
    else s
  s.raiseIf once (regionEvent r 9)

/-- An engine without its products. -/
def Engine.clear (e : Engine) : Engine := { e with offers := [], fresh := [], skipFrames := [], lostLock := false }

/-- What engine e has produced as engine n: offers, skipped frames, messages, loss of synchronisation. -/
def State.harvestOf (s : State) (n : Nat) (e : Engine) : State :=
  let s := { s with seq0 := e.offers.foldl (fun q o => q.offered n o) s.seq0 }
  let s := e.skipFrames.foldl (fun s f => s.frameSkipped n f) s
  let s := e.fresh.foldl (fun s m => s.messageDone n m) s
  s.raiseIf e.lostLock (regionEvent (engRegion n) 8)

/-- What an engine produced, taken from it. -/
def State.harvest (s : State) (n : Nat) : State := (s.modEngine n Engine.clear).harvestOf n (s.engine n)

/-- The fine time up to which engine n decodes, where a stopped run or a reset of its region bounds it (R251). -/
def State.engineLimit (s : State) (n : Nat) (h : FineTime) : FineTime :=
  let h := if s.cap.runState = 2 then min h (64 * s.cap.runE) else h
  match (s.region (engRegion n)).rst with
  | some w => min h (64 * w.m)
  | none => h

/-- Engine n brought up to fine time h, as far as it decodes. -/
def State.advanceEngine (s : State) (n : Nat) (h : FineTime) : State :=
  if (s.engine n).works then (s.modEngine n (fun e => e.advance s.time.hz (s.engineLimit n h))).harvest n else s

/-- An engine that something took the place of at a slot has decoded all below it; what it has in progress is abandoned (R251). -/
def State.finishCutEngine (s : State) (x : Nat × SI × Engine) : State :=
  let e := x.2.2.finishAt s.time.hz (s.engineLimit x.1 (64 * x.2.1) / 64)
  (s.harvestOf x.1 e).modEngine x.1 (fun y => { y with
    abandoned := satAdd 8 y.abandoned e.inProgress, filtered := satAdd 8 y.filtered e.filtered, skip := satAdd 8 y.skip e.skip })

/-- Those that `sel` chooses. -/
def State.finishCutEngines (s : State) (sel : Nat × SI × Engine → Bool) : State :=
  (s.cutEngines.filter sel).foldl State.finishCutEngine { s with cutEngines := s.cutEngines.filter (fun x => !sel x) }

/-- Every engine brought up to fine time h. -/
def State.advanceEnginesTo (s : State) (h : FineTime) : State :=
  let s := s.finishCutEngines (fun x => decide (64 * x.2.1 ≤ h))
  (s.engines.filter (fun e => e.2.works)).foldl (fun s e => s.advanceEngine e.1 h) s

/-- The slot up to which FRM cycles may run: the present one, less what an engine that a MESSAGE term names holds its fields back beyond the nominal lag,
so that a field is true in its own slot (R127; DEDUCED, notes/assumptions/28.md). Only the 50 ns spike filter of I²C holds them so long. -/
def State.fieldsBy (s : State) : SI :=
  let terms := s.seq0.active.terms.filter (fun e => e.2.kind = 5)
  let hold := ((s.engines.filter (fun e => e.2.works && terms.any (fun x => x.2.sel = e.1))).map (fun e =>
    (e.2.wait s.time.hz + e.2.look + 63) / 64 + 33)).foldl max 0
  s.time.si - (hold - 160)

/-- Every engine brought up to the horizon. -/
def State.advanceEngines (s : State) : State := s.advanceEnginesTo s.edgeHorizon

/-- The decode state at slot b: searching, with the addresses that MDIO tracks. INIT_TAP holds from enabling on and at the start of a run
(notes/assumptions/51.md). -/
def Engine.fresh' (e : Engine) (b : SI) : DecState :=
  { last := 64 * b, flag := e.protocol = 5, tap := 0, tapKnown := e.protocol = 4 && e.b 0 1 = 1, tracked := if e.protocol = 3 then e.st.tracked else [] }

/-- The levels of the inputs just before slot b, whose edges are forgotten. -/
def Engine.settleAt (e : Engine) (b : SI) : Engine :=
  { e with
    base := ((e.past ++ e.ready ++ e.buf).filter (fun x => decide (x.time < 64 * b))).foldl (fun (l : List Bool) x => l.set x.input x.level) e.base
    baseMark := ((e.past ++ e.ready ++ e.buf).filter (fun x => decide (x.time < 64 * b))).foldl (fun l x => tput l x.input (x.settle, x.coarse)) e.baseMark
    past := [], ready := e.ready.filter (fun x => decide (64 * b ≤ x.time)), buf := e.buf.filter (fun x => decide (64 * b ≤ x.time)) }

/-- The engine searches from slot b on. -/
def Engine.search (e : Engine) (b : SI) : Engine :=
  { e.settleAt b with
    removed := [], frameEdges := (0, 0), sync := 1, from_ := b, st := { e.fresh' b with tapKnown := false } }

/-- Engine n, all of whose edges below slot b are known, decodes them, abandons what is then in progress, and searches from b on; event 8 where it was
synchronised (R251, R267). -/
def State.abandon (s : State) (n : Nat) (b : SI) : State :=
  if !(s.engine n).works then s
  else
    let s := (s.modEngine n (fun e => e.finishAt s.time.hz b)).harvest n
    (s.modEngine n (fun e => { e.search b with abandoned := satAdd 8 e.abandoned e.inProgress })).raiseIf (1 < (s.engine n).syncCode)
      (regionEvent (engRegion n) 8)

/-- Something takes engine n's place at slot b, below which edges can still come: they go to the engine as it stands (R251). Event 8 where it was synchronised. -/
def State.cutEngine (s : State) (n : Nat) (b : SI) : State :=
  let e := s.engine n
  if !e.works then s
  else
    let old := { e with filtered := 0, skip := 0 }
    (({ s with cutEngines := s.cutEngines ++ [(n, b, old)] } : State).modEngine n (fun e => e.search b)).raiseIf (1 < e.syncCode) (regionEvent (engRegion n) 8)

/-- Every engine that `sel` chooses returns to searching at slot b. -/
def State.abandonIn (s : State) (sel : Nat → Bool) (b : SI) : State :=
  (s.engines.filter (fun e => sel e.1)).foldl (fun s e => s.abandon e.1 b) (s.finishCutEngines (fun x => sel x.1))

/-- Every engine that `sel` chooses loses synchronisation at slot b (R251, R267). -/
def State.desync (s : State) (sel : Nat → Bool) (b : SI) : State :=
  (s.engines.filter (fun e => sel e.1)).foldl (fun s e => s.cutEngine e.1 b) s

/-- The inputs of an engine that carry channel k of its region. -/
def Engine.inputsOf (e : Engine) (k : Nat) : List Nat :=
  (e.inputs.zipIdx.filter (fun x => x.1 = some k)).map (fun x => x.2)

/-- A deskewed edge as input i of an engine has it. -/
def SeqEdge.decEdge (x : SeqEdge) (i : Nat) : DecEdge :=
  { time := x.time, input := i, level := x.level, glitch := x.glitch ≠ 0, trail := x.glitch = 2, settle := x.settle, coarse := x.coarse }

/-- An engine takes an edge (R245). Before the slot from which it decodes, it only sets the engine's levels. -/
def Engine.feed (e : Engine) (x : SeqEdge) : Engine :=
  (e.inputsOf (x.ch % 256)).foldl (fun (e : Engine) i =>
    if x.time < 64 * e.from_ then { e with base := e.base.set i x.level, baseMark := tput e.baseMark i (x.settle, x.coarse) }
    else { e with buf := insertDec e.buf (x.decEdge i) }) e

/-- The engines of the edge's region take it, those that something has replaced from a later slot on included; an engine with an input off holds edges until it
decodes again. -/
def State.engineEdge (s : State) (x : SeqEdge) : State :=
  let r := chRegion x.ch
  { s with
    engines := s.engines.map (fun e => if engRegion e.1 = r && e.2.enable && !e.2.member then (e.1, e.2.feed x) else e)
    cutEngines := s.cutEngines.map (fun c => if engRegion c.1 = r && decide (x.time < 64 * c.2.1) then (c.1, c.2.1, c.2.2.feed x) else c) }

/-- An engine of the region whose used inputs changed between enabled and disabled at slot b (R251). -/
def State.inputSwitched (s : State) (n c : Nat) (b : SI) : State :=
  let e := s.engine n
  let off := e.inputs.any (fun i => match i with
    | some k => !(s.cell (256 * engRegion n + k)).enable
    | none => false)
  let t :=
    if off = e.inputOff then s
    else if off then (s.cutEngine n b).modEngine n (fun e => { e with inputOff := true })
    else s.modEngine n (fun e => { e.search b with inputOff := false })
  t.modEngine n (fun e => (e.inputsOf (c % 256)).foldl (fun (e : Engine) i => { e with
    base := e.base.set i (s.cell c).level, baseMark := tdel e.baseMark i, buf := e.buf.filter (fun x => x.input ≠ i || decide (64 * b ≤ x.time)) }) e)

/-- Channel c was enabled or disabled at slot b. -/
def State.decodersInput (s : State) (c : Nat) (b : SI) : State :=
  (s.engines.filter (fun e => e.2.enable && !e.2.member && engRegion e.1 = chRegion c && !(e.2.inputsOf (c % 256)).isEmpty)).foldl
    (fun s e => s.inputSwitched e.1 c b) s

/-! ### SET_DECODER (R262 to R264) -/

/-- The required inputs of a protocol (R263). -/
def requiredInputs (protocol : Nat) (body : List Byte) : List Nat :=
  match protocol with
  | 0 => [0]
  | 1 => [0, 1] ++ (List.range (max 2 (pField body 1 1))).map (fun k => 2 + k)
  | 2 => [0, 1]
  | 3 => [0, 1]
  | 4 => [0, 1, 2, 3]
  | 5 => [0]
  | 6 => [0]
  | _ => [0] ++ (List.range (pField body 0 1)).map (fun k => 6 + k)

/-- BODY out of range for its protocol (R263). -/
def decBodyBad (protocol gang : Nat) (y : List Byte) : Bool :=
  match protocol with
  | 0 => !pIn y 0 4 300 100000000 || !pIn y 4 1 5 9 || !pIn y 5 1 0 4 || !pIn y 6 1 0 2 || !pBits y 7 2 || !pIn y 8 1 0 64 || !pIn y 9 1 1 255 ||
      !pZero y 10 22
  | 1 => !pBits y 0 4 || !(pField y 1 1 = 1 || pField y 1 1 = 2 || pField y 1 1 = 4) || !pZero y 2 30
  | 2 => !pIn y 0 1 0 3 || !pBits y 1 3 || !pIn y 2 1 25 35 || !pZero y 3 29
  | 3 => !pIn y 0 1 0 32 || !pBits y 1 1 || !pZero y 2 30
  | 4 => !pIn y 0 1 0 1 || !pZero y 1 31
  | 5 => !pIn y 0 4 10000 1000000 || !(pField y 4 4 = 0 || pIn y 4 4 (pField y 0 4) 10000000) || !pIn y 8 1 50 95 || !pIn y 9 1 50 95 ||
      !pIn y 10 1 1 50 || !pIn y 11 1 1 50 || !pBits y 12 1 || !pZero y 13 19
  | 6 => !pIn y 0 4 100000 2000000 || !pIn y 4 1 0 2 || !pIn y 5 1 1 64 || !kCodes.contains (pField y 6 1) || !kCodes.contains (pField y 7 1) ||
      !pBits y 8 1 || !pZero y 9 23
  | _ => !pIn y 0 1 1 (match gang with | 2 => 26 | 4 => 58 | _ => 2) || !pIn y 1 1 0 2 || !pIn y 2 1 0 2 || !pBits y 3 4 || !pZero y 5 27

/-- Inputs of an engine or gang (R243, R244). -/
def inputCount (gang : Nat) : Nat := if gang = 1 then 8 else 16 * gang

/-- The INPUTS entries. -/
def decInputs (p : List Byte) : List Nat := (List.range 64).map (fun i => pField p (16 + 2 * i) 2)

/-- SET_DECODER returns BAD_PARAM (R264). -/
def setDecoderBad (p : List Byte) : Bool :=
  let g := pField p 3 1
  let proto := pField p 2 1
  let y := pBytes p 144 32
  let ins := decInputs p
  !(p.length = 176) || !pIn p 0 1 0 63 || !pBits p 1 1 || !pIn p 2 1 0 7 || !(g = 1 || ((g = 2 || g = 4) && proto = 7)) ||
    pField p 0 1 % g ≠ 0 || !pIn p 4 2 0 4095 || !pIn p 6 2 0 1023 || decide (pInt p 8 2 < -1024 ∨ 1023 < pInt p 8 2) || !pZero p 10 6 ||
    ins.any (fun v => bits v 14 8 ≠ 0) || (ins.drop (inputCount g)).any (fun v => v ≠ 0) || decBodyBad proto g y ||
    (requiredInputs proto y).any (fun i => !bit (ins.getD i 0) 15)

/-- The other engines of a gang led by engine n. -/
def gangMembers (n g : Nat) : List Nat := (List.range (g - 1)).map (fun j => n + 1 + j)

/-- SET_DECODER returns BAD_STATE (R264). -/
def setDecoderBadState (s : State) (p : List Byte) : Bool :=
  let n := pField p 0 1
  (s.engine n).member || (bit (pField p 1 1) 0 && (gangMembers n (pField p 3 1)).any (fun m => (s.engine m).enable && !(s.engine m).member))

/-- A member goes back to an engine of its own, disabled. -/
def Engine.leave (e : Engine) : Engine := { e with enable := false, member := false, lead := 0, st := {}, sync := 1, buf := [], ready := [], inputs := [], inCh := [] }

/-- SET_DECODER takes effect at the boundary C: what is in progress there is abandoned, and the new settings decode from there, edges of slots at or after C
that have come already included. -/
def setDecoder (p : List Byte) (s : State) : State :=
  let b := s.boundary
  let n := pField p 0 1
  let g := pField p 3 1
  let on := bit (pField p 1 1) 0
  let s := s.cutEngine n b
  let old := gangMembers n (if (s.engine n).enable then (s.engine n).gang else 1)
  let s := old.foldl (fun s m => s.modEngine m Engine.leave) s
  let ins := ((decInputs p).take (inputCount g)).map (fun v => if bit v 15 then some (v % 256) else none)
  let chan : Option Nat → List PastEdge := fun i => match i with
    | some k => ((tfind (s.region (engRegion n)).past k).getD []).filter (fun (x : PastEdge) => decide (64 * b ≤ x.time))
    | none => []
  let level := fun (i : Option Nat) => match (chan i).head?, i with
    | some x, _ => !x.level
    | none, some k => (s.cell (256 * engRegion n + k)).level
    | none, none => false
  let held := (ins.zipIdx.flatMap (fun i => (chan i.1).map (fun (x : PastEdge) =>
    SeqEdge.decEdge { ch := 0, time := x.time, level := x.level, glitch := x.glitch, settle := x.settle, coarse := x.coarse } i.2))).foldl insertDec []
  let s := s.modEngine n (fun e =>
    let e := { e with
      enable := on, protocol := pField p 2 1, gang := g, lead := if g = 1 then 0 else n % 16, filter := pField p 4 2
      guard := pField p 6 2, ofs := pInt p 8 2, inputs := ins
      inCh := ((decInputs p).take (inputCount g)).map (fun v => v % 256), body := pBytes p 144 32, buf := if on then held else [], ready := [], past := [], removed := []
      base := ins.map level, baseMark := []
      frameEdges := (0, 0), sync := 1, from_ := b, st := {}
      inputOff := on && ins.any (fun i => match i with | some k => !(s.cell (256 * engRegion n + k)).enable | none => false) }
    { e with st := e.fresh' b })
  if on then (gangMembers n g).foldl (fun s m => s.modEngine m (fun e => { e with enable := true, member := true, gang := g, lead := n % 16 })) s else s

/-! ### Rows -/

/-- Messages queued by the engines that `sel` chooses become MESSAGE records. -/
def State.drainMessages (s : State) (sel : Nat → Bool) : State :=
  (s.engines.filter (fun e => sel e.1 && e.2.done ≠ [])).foldl (fun s e =>
    e.2.done.foldl (fun s m => s.place (msgSource (engRegion e.1) (e.1 % 16)) (recMessage (e.1) m.npf m))
      (s.modEngine e.1 (fun x => { x with done := [] }))) s

/-- Engine n brought up to the end of the present slot, where the sender knows of no further edge. -/
def State.forceEngine (s : State) (n : Nat) : State := s.advanceEngine n (64 * s.time.si + 64 + ((s.engine n).wait s.time.hz + (s.engine n).guard))

/-- DECODER_MESSAGE_COMPLETE: the oldest queued message of the engine becomes its MESSAGE record (R215, R248). -/
def execDecoderMessageComplete (t : SI) (engine : Fin 64) (s : State) : Host.Outcome State Fault Refusal :=
  let n := engine.val
  let s := (s.moment t).advanceEngine n (s.moment t).edgeHorizon
  let s := if (s.engine n).done = [] then s.forceEngine n else s
  match (s.engine n).done with
  | [] => .next s
  | m :: rest =>
    .next ((s.modEngine n (fun e => { e with done := rest })).place (msgSource (engRegion n) (n % 16))
      (recMessage n m.npf m))

/-- CDR_LOCK_LOSS: the lane's edges and the time since the latest are judged up to the present slot (R259). -/
def execCdrLockLoss (t : SI) (engine : Fin 64) (s : State) : Host.Outcome State Fault Refusal :=
  let s := s.moment t
  if (s.engine engine.val).protocol = 6 then .next (s.forceEngine engine.val) else .next s

/-- SMBUS_TIMEOUT: SCL low for TIMEOUT_MS up to the present slot ends the message (R255). -/
def execSmbusTimeout (t : SI) (engine : Fin 64) (s : State) : Host.Outcome State Fault Refusal :=
  let s := s.moment t
  if (s.engine engine.val).protocol = 2 then .next (s.forceEngine engine.val) else .next s

end Sys2Proof.Machine
end

