-- ==== Sys2Proof/Machine/Terms.lean ====
section
/-! DEFINITION. Term units of the sequencers (R123 to R130): what each is in one slot, and what it keeps for the next. -/

namespace Sys2Proof.Machine

/-- What a term is in a slot: true or false, the instant it contributes, the marks of the edge that supplies it. -/
structure TermVal where
  on : Bool := false
  at_ : Nat := 0
  settle : Bool := false
  coarse : Bool := false
  deriving DecidableEq, Repr

/-- One slot as the term units see it: its edges in order of time and its other occurrences, ST, whether the clock is gated, on which channels pulses being
measured are abandoned, levels at the end of the slot, which channels are out of service, and whether there are TRIG_IN pins (R152). -/
structure SlotView where
  x : SI
  edges : List SeqEdge
  events : List SeqEvent
  st : Nat
  gated : Bool
  cut : Nat → Bool
  level : Nat → Bool
  down : Nat → Bool
  pins : Bool

/-- Edges of channel c in the slot. -/
def SlotView.ofCh (v : SlotView) (c : Nat) : List SeqEdge := if v.gated || v.down c then [] else v.edges.filter (fun e => e.ch = c)

/-- A term true at the instant of an edge. -/
def atEdge (e : SeqEdge) : TermVal := { on := true, at_ := e.time % 64, settle := e.settle, coarse := e.coarse }

/-- The first of some edges as a term's instant. -/
def firstEdge (es : List SeqEdge) : TermVal :=
  match es with
  | [] => {}
  | e :: _ => atEdge e

/-- A comparison of COUNTER and TIMER terms (R130). -/
def compareMode (mode a b : Nat) : Bool := if mode = 0 then decide (b ≤ a) else if mode = 1 then a = b else decide (a < b)

/-! ### PATTERN (R125) -/

/-- Masked channels of a pattern. -/
def Term.masked (u : Term) : List Nat :=
  (List.range 4).flatMap (fun r =>
    let m := u.masks.getD r 0
    if m = 0 then [] else ((List.range 256).filter (fun k => m.getLsbD k)).map (fun k => 256 * r + k))

/-- The pattern matches on these levels. -/
def Term.matchesOn (u : Term) (level : Nat → Bool) : Bool :=
  u.masked.all (fun c => level c = (u.values.getD (c / 256) 0).getLsbD (c % 256))

/-- A term true at the latest of some edges, with the marks of every edge at that instant (R125, R132). -/
def atLast (es : List SeqEdge) : TermVal :=
  if es = [] then { on := true }
  else
    let t := es.foldl (fun m e => max m e.time) 0
    let ts := es.filter (fun e => e.time = t)
    { on := true, at_ := t % 64, settle := ts.any (fun e => e.settle), coarse := ts.any (fun e => e.coarse) }

/-- PATTERN: whether it is true, given whether the pattern matched at the end of the slot before. -/
def patternVal (v : SlotView) (u : Term) (before : Bool) : TermVal :=
  let cs := u.masked
  if v.gated || cs.any v.down || cs = [] then {}
  else
    let now := u.matchesOn v.level
    let e := atLast (v.edges.filter (fun e => cs.contains e.ch))
    match u.mode with
    | 0 => if !now then {} else if before then { on := true } else e
    | 1 => if now && !before then e else {}
    | _ => if before && !now then e else {}

/-! ### PULSE_WIDTH (R126) -/

/-- The instant at which MODE 2 is true for a pulse. -/
def Term.late (u : Term) (p : Pulse) : FineTime := p.lead + u.b.toNat + 1

/-- MODE 2 for a pulse that is open in slot x. Its occurrence has no trailing edge; it takes the marks of the leading one (DESIGN CHOICE,
notes/assumptions/45.md). -/
def lateVal (u : Term) (p : Pulse) (x : SI) : TermVal :=
  let i := u.late p
  if u.mode = 2 && i / 64 = x then { on := true, at_ := i % 64, settle := p.settle, coarse := p.coarse } else {}

/-- One edge of the measured channel. -/
def pulseStep (u : Term) (x : SI) (from_ : SI) (a : Option Pulse × TermVal) (e : SeqEdge) : Option Pulse × TermVal :=
  if e.level = (u.field = 0) then
    (if 64 * from_ ≤ e.time then some { lead := e.time, settle := e.settle, coarse := e.coarse } else none, a.2)
  else match a.1 with
    | none => a
    | some p =>
      let w := e.time - p.lead
      let inside := decide (u.a.toNat ≤ w ∧ w ≤ u.b.toNat)
      let val := match u.mode with
        | 0 => if inside then atEdge e else {}
        | 1 => if inside then {} else atEdge e
        | _ => if u.late p ≤ e.time then lateVal u p x else {}
      (none, if a.2.on then a.2 else val)

/-- PULSE_WIDTH in a slot: its value and the pulse still open at its end. -/
def pulseVal (v : SlotView) (u : Term) (from_ : SI) (old : Option Pulse) : TermVal × Option Pulse :=
  if v.cut u.sel || v.down u.sel then ({}, none)
  else
    let (p, val) := (v.ofCh u.sel).foldl (pulseStep u v.x from_) (old, {})
    if val.on then (val, p)
    else match p with
      | none => (val, p)
      | some q => (lateVal u q v.x, p)

/-! ### MESSAGE, TRIG_IN, CASCADE (R127 to R129) -/

/-- A MESSAGE term on one offered field. -/
def messageHit (u : Term) (f : Nat × FineTime × Nat × Bool × Bool) : Bool :=
  match u.mode with
  | 0 => f.1 = u.field && Nat.land f.2.2.1 u.b.toNat = u.a.toNat
  | 1 => f.1 = u.field && decide (u.a.toNat ≤ f.2.2.1 ∧ f.2.2.1 ≤ u.b.toNat)
  | _ => f.1 = 64

/-- MESSAGE. -/
def messageVal (v : SlotView) (u : Term) : TermVal :=
  if v.gated then {}
  else match (v.events.filter (fun e => e.kind = 0 && e.src = u.sel)).flatMap (fun e => (e.fields.filter (messageHit u)).map (fun f => (e, f))) with
    | [] => {}
    | (e, f) :: _ => { on := true, at_ := e.time % 64, settle := f.2.2.2.1, coarse := f.2.2.2.2 }

/-- Key of a TRIG_IN pin among the levels. -/
def pinKey (n : Nat) : Nat := 4096 + n

/-- TRIG_IN. -/
def trigInVal (v : SlotView) (u : Term) : TermVal :=
  if !v.pins then {}
  else if 3 ≤ u.mode then { on := v.level (pinKey u.sel) = (u.mode = 3) }
  else if v.gated then {}
  else match v.events.find? (fun e => e.kind = 1 && e.src = u.sel && slopeOk u.mode e.level) with
    | none => {}
    | some e => { on := true, at_ := e.time % 64 }

/-- CASCADE. -/
def cascadeVal (v : SlotView) (u : Term) : TermVal :=
  { on := v.events.any (fun e => match u.mode with
      | 0 => e.kind = 2
      | 1 => e.kind = 2 && e.src = u.sel
      | 2 => e.kind = 3
      | _ => e.kind = 4) }

/-! ### All kinds -/

/-- Value of ST_REACHED. -/
def Term.stValue (u : Term) : Nat := u.a.toNat + u.b.toNat % 2 ^ 32 * 2 ^ 64

/-- A term that is not a PULSE_WIDTH. -/
def Seq.plainVal (q : Seq) (v : SlotView) (k : Nat) (u : Term) : TermVal :=
  match u.kind with
  | 1 => patternVal v u ((tfind q.matched k).getD false)
  | 2 => firstEdge ((v.ofCh u.sel).filter (fun e => slopeOk u.mode e.level))
  | 3 => firstEdge ((v.ofCh u.sel).filter (fun e => e.glitch = 2 && (u.mode = 0 || e.level = (u.mode = 2))))
  | 5 => messageVal v u
  | 6 => trigInVal v u
  | 7 => cascadeVal v u
  | 8 => { on := compareMode u.mode ((tfind q.counters u.sel).getD 0) (u.a.toNat % 2 ^ 48) }
  | 9 => { on := compareMode u.mode ((tfind q.timers u.sel).getD 0) (u.a.toNat % 2 ^ 48) }
  | 10 => { on := decide (u.stValue ≤ v.st) }
  | _ => {}

/-- All terms of the active image in a slot, and the sequencer with its pulses and matches brought up to the slot's end. -/
def Seq.allTerms (q : Seq) (v : SlotView) : Tab TermVal × Seq :=
  q.active.terms.foldl (fun a e =>
    let k := e.1
    let u := e.2
    let q := a.2
    if u.kind = 4 then
      let (val, p) := pulseVal v u q.from_ (tfind q.pulses k)
      (tput a.1 k val, { q with pulses := match p with
        | some p => tput q.pulses k p
        | none => tdel q.pulses k })
    else
      let q' := if u.kind = 1 then { q with matched := tput q.matched k (u.matchesOn v.level) } else q
      (tput a.1 k (q.plainVal v k u), q')) ([], q)

/-- The value of term k. -/
def termOf (vals : Tab TermVal) (k : Nat) : TermVal := (tfind vals k).getD {}

/-- R143 forces the term false in this slot. -/
def SlotView.forces (v : SlotView) (u : Term) : Bool :=
  match u.kind with
  | 1 => v.gated || u.masked.any v.down
  | 2 => v.gated || v.down u.sel
  | 3 => v.gated || v.down u.sel
  | 4 => v.gated || v.down u.sel
  | 5 => v.gated
  | 6 => v.gated && decide (u.mode < 3)
  | _ => false

/-! ### Branches (R131, R132) -/

/-- A term byte of a branch as it stands: value after INVERT. An inverted true term contributes instant 0. -/
def branchTerm (vals : Tab TermVal) (b : Nat) : TermVal :=
  let u := termOf vals (b % 64)
  if bit b 6 then { on := !u.on } else u

/-- A branch's condition: true or not, completion instant and the marks of its completing edges. -/
def Branch.eval (b : Branch) (vals : Tab TermVal) : TermVal :=
  let us := (b.terms.filter (fun t => bit t 7)).map (branchTerm vals)
  if us = [] then { on := true }
  else if bit b.ctrl 1 then
    let ts := us.filter (fun u => u.on)
    match ts with
    | [] => {}
    | t :: rest =>
      let c := rest.foldl (fun m u => min m u.at_) t.at_
      let es := ts.filter (fun u => u.at_ = c)
      { on := true, at_ := c, settle := es.any (fun u => u.settle), coarse := es.any (fun u => u.coarse) }
  else if us.all (fun u => u.on) then
    let c := us.foldl (fun m u => max m u.at_) 0
    let es := us.filter (fun u => u.at_ = c)
    { on := true, at_ := c, settle := es.any (fun u => u.settle), coarse := es.any (fun u => u.coarse) }
  else {}

/-- The valid branch taken in a slot: the first whose condition is true. -/
def Seq.choose (q : Seq) (vals : Tab TermVal) : Option (Nat × Branch × TermVal) :=
  ((((tfind q.active.stitches q.stitch).getD []).zipIdx.map (fun e => (e.2, e.1, e.1.eval vals))).find? (fun e => bit e.2.1.ctrl 0 && e.2.2.on))

/-! ### Counters and timers (R134, R135) -/

/-- The end of the 48-bit range. -/
def max48 : Nat := 2 ^ 48 - 1

/-- Counters after a slot, with the action byte of the branch taken. -/
def Seq.countersNext (q : Seq) (vals : Tab TermVal) (op : Nat) : Tab Nat :=
  (List.range 8).foldl (fun t k =>
    let old := (tfind q.counters k).getD 0
    let reset := op / 8 % 4 = 2 && op % 8 = k
    let inc := op / 8 % 4 = 1 && op % 8 = k
    let src := (tfind q.active.counters k).getD 0
    let hit := bit src 7 && (termOf vals (src % 64)).on
    let v := if reset then 0 else min max48 (old + b2n inc + b2n hit)
    if v = 0 then tdel t k else tput t k v) q.counters

/-- Timers after a slot, with the action byte of the branch taken: running ones have counted the slot. -/
def Seq.timersNext (q : Seq) (op : Nat) : Seq :=
  let k := op % 8
  let q := if op / 8 % 4 = 1 then { q with timers := tput q.timers k 0, timersOn := ninsert q.timersOn k } else q
  let q := { q with timers := q.timersOn.foldl (fun t k => tmod t k 0 (fun n => min max48 (n + 1))) q.timers }
  if op / 8 % 4 = 2 then { q with timersOn := q.timersOn.erase k } else q

end Sys2Proof.Machine
end

