-- ==== Sys2Proof/Machine/Seq.lean ====
section
/-! DEFINITION. The sequencers at work (R131 to R147, R168 to R174): tacks, marks, bastes and their ends, the actions of a branch, one slot's
evaluation, FRM cycles with the catch-up buffer, arming and disarming, and the stop of a run. -/

namespace Sys2Proof.Machine

/-- Sequencer k. -/
def State.sq (s : State) (k : Nat) : Seq := if k = 0 then s.seq0 else s.seq1

/-- Sequencer k changed by f. -/
def State.modSeq (s : State) (k : Nat) (f : Seq → Seq) : State :=
  if k = 0 then { s with seq0 := f s.seq0 } else { s with seq1 := f s.seq1 }

/-- The sequencer evaluates slots: armed, or shutting down (R146). -/
def Seq.evaluates (q : Seq) : Bool := q.armed || q.stopAt.isSome

/-- TGEN of an ANCHOR record. -/
def Rec.anchorGen (r : Rec) : Nat := ((r.words.head?).getD 0).toNat / 2 ^ 32 % 256

/-- ST of slot x for sequencer k: reconstructed from archived anchors for a replay (R152). -/
def State.stOf (s : State) (k : Nat) (x : SI) : Nat :=
  if k = 0 then stReport (s.time.stFine x 0)
  else match s.replay.anchor with
    | none => Config.replaySt x % 2 ^ 96
    | some (si, st, rate) => stReport (stKeep st + ((2 ^ 64 * rate : Nat) : Int) * ((x : Int) - si))

/-! ### Records of a sequencer -/

/-- A record of sequencer k: every active source for the live one, special source 2 for the replay (R139, R173, R328). -/
def State.seqPlace (s : State) (k : Nat) (r : Rec) : State :=
  if k = 0 then (if r.provisional then s.placeProvisional r else s.placeActive r)
  else
    let shown := (s.bob.routesAt s.time.si (specialSource 2)).any (fun b => ((tfind s.bob.tab b).getD {}).provisional)
    if r.provisional && !shown then s else s.place (specialSource 2) r

/-- A TACK record placed: SEQ_LAST registers, and event 128 + 16q for kinds 0 and 1 (R165, R167). -/
def State.placeTack (s : State) (k : Nat) (x : TackRef × Rec) (stitch branch : Nat) : State :=
  let s := s.seqPlace k x.2
  let s := s.modSeq k (fun q => { q with lastStitch := stitch, lastBranch := branch, lastKind := x.1.kind, lastFine := x.1.fine, lastSi := x.1.si })
  let s := if k = 1 && x.1.kind < 2 then { s with replay := { s.replay with tacks := s.replay.tacks + 1 } } else s
  s.raiseIf (x.1.kind < 2) (128 + 16 * k)

/-- The next tack number of sequencer k (R139). -/
def State.nextTack (s : State) (k : Nat) : State × Nat :=
  let n := ((s.sq k).tackNo + 1) % 2 ^ 32
  (s.modSeq k (fun q => { q with tackNo := n }), n)

/-- A slot lies in a selvedge span of the replay's input. -/
def Replay.inSpan (r : Replay) (x : SI) : Bool :=
  r.spans.any (fun e => decide (e.2.2.1 ≤ x ∧ x < e.2.2.2)) || r.skipped.any (fun e => decide (e.2 ≤ x))

/-- The scope of a selvedge takes in channel c. -/
def scopeHas (scope id c : Nat) : Bool :=
  match scope with
  | 0 => true
  | 1 => c / 256 = id
  | 2 => c / 16 = id
  | 3 => c = id
  | _ => srcClass id = 0 && srcRegion id = c / 256

/-- A selvedge span of the replay's input on channel c. -/
def Replay.cuts (r : Replay) (x c : Nat) : Bool :=
  r.spans.any (fun e => decide (e.2.2.1 ≤ x ∧ x < e.2.2.2) && scopeHas e.1 e.2.1 c) || r.skipped.any (fun e => decide (e.2 ≤ x) && scopeHas 4 e.1 c)

/-- A tack time inside a selvedge span of a replay (R152). -/
def State.gapAt (s : State) (k : Nat) (x : SI) : Bool := k = 1 && s.replay.inSpan x

/-- Messages about own fires leave on the cascade: SEND_FIRE and no doubt (R144, R191). -/
def State.sends (s : State) (k : Nat) : Bool := k = 0 && s.cas.sendFire && !s.inDoubt

/-- ST that a message about a tack carries. -/
def State.tackSt (s : State) (x : SI) (c : Nat) : Nat := stReport (s.time.stFine x c)

/-- COASTING flag of a message. -/
def State.coastFlag (s : State) : Nat := 2 * b2n s.time.coasting

/-! ### Bastes (R168 to R174) -/

/-- A pending baste leaves the store. -/
def State.dropBaste (s : State) (k : Nat) (b : PendingBaste) : State :=
  s.modSeq k (fun q => { q with bastes := q.bastes.filter (fun x => x.number ≠ b.number) })

/-- A baste unpicked (R171): its hold-off closes, its pulses and reservation are withdrawn, event 138 is raised (R205), UNPICK goes out where
the BASTE did. -/
def State.unpickBaste (s : State) (k : Nat) (b : PendingBaste) (si : SI) (fine reason : Nat) : State :=
  let s := s.dropBaste k b
  let s := s.seqPlace k (recUnpick si fine k reason b.number s.cas.unitId.toNat false)
  let s := s.modSeq k (fun q => if q.holdBaste = some b.number then { q with holdFrom := none, holdBaste := none } else q)
  if k = 1 then s
  else
    let s := ((s.unpickPins (localKey b.number)).releaseWindow b.slot).raise 138
    if b.sent && s.sends 0 then s.originate 6 (s.message 0 reason b.st b.number) else s

/-- Pins in sewn mode that take live tacks (R175). -/
def sewnLive (_ : Nat) (x : TrigOut) : Bool := bit x.source srcLive && !x.basted

/-- A baste sewn at an instant (R170): SEW and TACK records, the sewn pins, event 137 (R205), SEW on the cascade, its
window. -/
def State.sewBaste (s : State) (k : Nat) (b : PendingBaste) (si : SI) (fine : Nat) : State :=
  let s := s.dropBaste k b
  let (s, n) := s.nextTack k
  let unit := s.cas.unitId.toNat
  let ref : TackRef := { si := b.si, fine := b.fine, seq := k, kind := 0, origin := unit, number := n }
  let s := s.seqPlace k (recSew si fine k b.number unit n false)
  let s := s.placeTack k (ref, recTack ref b.window false (s.gapAt k b.si) b.settle b.coarse false b.stitch b.branch 0) b.stitch b.branch
  if k = 1 then s
  else
    let s := ((s.resolvePins (localKey b.number)).pulse sewnLive (64 * b.si + b.fine) s.cycleEnd none).raise 137
    let s := if b.sent && s.sends 0 then s.originate 5 (s.message s.coastFlag n b.st b.number) else s
    if !b.window then s
    else match b.slot with
      | some w => s.openReserved w ref
      | none => s.requestWindow b.wpol ref

/-- The end of a baste's confirm window (R169). -/
def PendingBaste.ends (b : PendingBaste) : FineTime := 64 * (b.si + b.deadline) + b.fine

/-- One pending baste in slot x (R169, R171): a gap in its window, a counting occurrence of its confirm term, or the window's end. -/
def State.resolveBaste (s : State) (k : Nat) (v : SlotView) (vals : Tab TermVal) (b : PendingBaste) : State :=
  let term := b.confirm % 64
  let hold := bit b.confirm 6
  let u := (tfind (s.sq k).active.terms term).getD {}
  let t := 64 * b.si + b.fine
  let val := termOf vals term
  let at_ := 64 * v.x + val.at_
  let ends := b.ends
  if v.forces u then s.unpickBaste k b v.x 0 2
  else if val.on && decide (t < at_ ∧ at_ ≤ ends) then
    (if hold then s.unpickBaste k b v.x val.at_ 0 else s.sewBaste k b v.x val.at_)
  else if ends / 64 ≤ v.x then
    (if hold then s.sewBaste k b (ends / 64) (ends % 64) else s.unpickBaste k b (ends / 64) (ends % 64) 0)
  else s

/-- A baste into a list by ascending number. -/
def insertBaste (b : PendingBaste) (l : List PendingBaste) : List PendingBaste :=
  match l with
  | [] => [b]
  | x :: rest => if b.number < x.number then b :: l else x :: insertBaste b rest

/-- Pending bastes by ascending number (R172). -/
def Seq.byNumber (q : Seq) : List PendingBaste := q.bastes.foldr insertBaste []

/-- All pending bastes in slot x, in ascending baste number (R172). -/
def State.resolveBastes (s : State) (k : Nat) (v : SlotView) (vals : Tab TermVal) : State :=
  (s.sq k).byNumber.foldl (fun s b => s.resolveBaste k v vals b) s

/-- Every pending baste unpicked at slot b (R146, R147, R171). -/
def State.unpickAll (s : State) (k : Nat) (b : SI) (reason : Nat) : State :=
  (s.sq k).byNumber.foldl (fun s x => s.unpickBaste k x b 0 reason) s

/-! ### Fires (R133, R138 to R142) -/

/-- A fire at a tack time lies inside the hold-off (R140). -/
def Seq.held' (q : Seq) (t : FineTime) : Bool :=
  match q.holdFrom with
  | none => false
  | some h => decide (t < h + 64 * q.active.holdoff)

/-- A suppressed fire (R141). -/
def State.suppress (s : State) (k : Nat) (x : SI) (c branch reason : Nat) (baste : Bool) : State :=
  let q := s.sq k
  let s := s.modSeq k (fun q => if reason = 0 then { q with suppHold := satInc 16 q.suppHold } else { q with suppFull := satInc 16 q.suppFull })
  let s := s.raise (129 + 16 * k)
  if q.active.suppRec then s.seqPlace k (recSuppressed x c k q.stitch branch reason baste) else s

/-- WINDOW and the window policy of a branch. -/
def Branch.window (b : Branch) : Bool := bit b.misc 0
def Branch.wpol (b : Branch) : Nat := b.misc / 4 % 16

/-- A branch tack (R138, R139). -/
def State.fireTack (s : State) (k : Nat) (x : SI) (val : TermVal) (j : Nat) (b : Branch) : State :=
  let c := val.at_
  let st := (s.sq k).stitch
  let (s, n) := s.nextTack k
  let s := s.modSeq k (fun q => { q with holdFrom := some (64 * x + c), holdBaste := none })
  let ref : TackRef := { si := x, fine := c, seq := k, kind := 0, origin := s.cas.unitId.toNat, number := n }
  let s := s.placeTack k (ref, recTack ref b.window false (s.gapAt k x) val.settle val.coarse false st j 0) st j
  if k = 1 then s
  else
    let s := s.pulse (fun _ p => bit p.source srcLive) (64 * x + c) s.cycleEnd none
    let s := if s.sends 0 then s.originate 3 (s.message s.coastFlag n (s.tackSt x c) 0) else s
    if b.window then s.requestWindow b.wpol ref else s

/-- A mark: a TACK record of kind 2 (R133, R139). -/
def State.fireMark (s : State) (k : Nat) (x : SI) (val : TermVal) (j : Nat) (b : Branch) : State :=
  let st := (s.sq k).stitch
  let ref : TackRef := { si := x, fine := val.at_, seq := k, kind := 2, origin := s.cas.unitId.toNat, number := 0 }
  let s := s.placeTack k (ref, recTack ref b.window false (s.gapAt k x) val.settle val.coarse false st j b.markCode) st j
  if k = 0 && b.window then s.requestWindow b.wpol ref else s

/-- A baste (R168, R174, R175), with event 136 (R205). -/
def State.fireBaste (s : State) (k : Nat) (x : SI) (val : TermVal) (j : Nat) (b : Branch) : State :=
  let c := val.at_
  let st := (s.sq k).stitch
  let n := ((s.sq k).basteNo + 1) % 65536
  let (s, slot) := if k = 0 && b.window then s.reserveWindow b.wpol x else (s, none)
  let unit := s.cas.unitId.toNat
  let s := s.seqPlace k (recBaste x c k st j n unit b.deadline slot.isSome false val.settle val.coarse)
  let send := s.sends k
  let p : PendingBaste := {
    number := n, si := x, fine := c, stitch := st, branch := j, settle := val.settle, coarse := val.coarse
    confirm := b.confirm, deadline := b.deadline, window := b.window, wpol := b.wpol, slot := slot, sent := send, st := s.tackSt x c }
  let s := s.modSeq k (fun q => { q with basteNo := n, bastes := q.bastes ++ [p], holdFrom := some (64 * x + c), holdBaste := some n })
  if k = 1 then s
  else
    let s := (s.pulse (fun _ p => bit p.source srcLive && p.basted) (64 * x + c) s.cycleEnd (some (localKey n))).raise 136
    if send then s.originate 4 (s.message s.coastFlag ((b.deadline + 1023) / 1024) p.st n) else s

/-- The fire of a taken branch, or its suppression. -/
def State.fire (s : State) (k : Nat) (x : SI) (val : TermVal) (j : Nat) (b : Branch) : State :=
  let q := s.sq k
  let t := 64 * x + val.at_
  match b.fire with
  | 1 => if q.held' t then s.suppress k x val.at_ j 0 false else s.fireTack k x val j b
  | 2 =>
    if q.held' t then s.suppress k x val.at_ j 0 true
    else if 16 ≤ q.bastes.length then s.suppress k x val.at_ j 1 true
    else s.fireBaste k x val j b
  | 3 => s.fireMark k x val j b
  | _ => s

/-! ### The stop of a run (R147, R229) -/

/-- The live sequencer is disarmed at boundary b (R146): slots below b are still evaluated; a halt ends, with its doubt (R137). -/
def State.disarmAt (s : State) (b : SI) : State :=
  let q := s.seq0
  if q.halted then
    (({ s with seq0 := { q with armed := false, halted := false, uneval := 0, held := 0, stopAt := none, rearm := [] } } : State).endCauseAt causeLag b).raise 132
  else if q.armed then
    let s := ({ s with seq0 := { q with armed := false, stopAt := some b } } : State).raise 132
    if q.uneval ≠ 0 then s.endCauseAt causeLag b else s
  else s

/-- Nothing of a slot at or above e belongs to the run: edges that deskew has moved there leave the buffers (R229). -/
def State.cutEdgesAt (s : State) (e : SI) : State :=
  { s with
    blocks := s.blocks.map (fun x => (x.1, { x.2 with align := x.2.align.filter (fun a => decide (a.time / 64 < e)) }))
    regions := s.regions.map (fun x => (x.1, { x.2 with
      samples := x.2.samples.filter (fun a => decide (a.time / 64 < e))
      clockBuf := x.2.clockBuf.filter (fun a => decide (a.time / 64 < e))
      past := x.2.past.map (fun l => (l.1, l.2.filter (fun a => decide (a.time / 64 < e)))) }))
    ivls := s.ivls.map (fun x => (x.1, { x.2 with buf := x.2.buf.filter (fun a => decide (a.time / 64 < e)) })) }

/-- No record of a slot at or above e has been placed in a source of the run when it stops there (R229). -/
def State.retractAt (s : State) (e : SI) : State :=
  let keep := fun (i : Item) => match i with
    | .frame _ => true
    | .plain r => r.span.all (fun p => decide (p.1 < e))
  { s with data := { s.data with sources := s.data.sources.map (fun x =>
      if srcClass x.1 < 4 then (x.1, { x.2 with opened := x.2.opened.map (fun o => { o with items := o.items.filter keep }), waiting := x.2.waiting.filter keep }) else x) } }

/-- The run stops at boundary e (R229): windows that reach it are limited. -/
def State.stopRunAt (s : State) (e : SI) : State :=
  let s := ((s.disarmAt e).cutEdgesAt e).retractAt e
  { s with cap := { s.cap with
      runState := 2, runE := e, endAnchor := some (recAnchor (s.timeFor e) e false true)
      slots := s.cap.slots.map (fun w => (w.1, if e ≤ w.2.reqEnd then { w.2 with reqEnd := e - 1, stopped := true } else w.2)) } }

/-- A branch's STOP_RUN action in slot x (R147, R152). The live one ends evaluation and stops the run at the boundary that ends the cycle; deferred
START_RUN and ARM are cancelled there (R440, R445). Taken in a slot below E of a run that is already stopping it does only the latter: E stands, and
the slots below E are evaluated (DESIGN CHOICE, notes/assumptions/63.md). -/
def State.stopAction (s : State) (k : Nat) (x : SI) : State :=
  if k = 1 then ({ s with seq1 := { s.seq1 with stopAt := some (floor16 x + 16) } } : State).raise 146
  else
    let e := s.cycleEnd
    let running := decide (s.cap.runState = 1)
    let arm := s.cmd.deferredArm
    let start := s.cmd.deferredStart
    let s := { s with cmd := { s.cmd with deferredArm := none, deferredStart := none } }
    let s := if running then (s.stopRunAt e).modSeq 0 (fun q => { q with next := max q.next e }) else s
    let s := (s.cancelAt arm e).cancelAt start e
    if running then s.change { kind := 6 } 0x0521 stOk (List.replicate 8 0) e else s

/-! ### One slot (R131, R133 to R135, R143) -/

/-- The level at which a channel is enabled holds until an edge of it that comes after. -/
def enableLevel (es : List SeqEdge) (t : Tab Bool) (e : SeqEvent) : Tab Bool :=
  if e.kind = 5 && !es.any (fun x => x.ch = e.src && decide (e.time ≤ x.time)) then tput t e.src e.level else t

/-- Occurrences up to slot x taken from the buffers; levels brought to the end of x. Answers those of x itself. -/
def Seq.absorb (q : Seq) (x : SI) : Seq × List SeqEdge × List SeqEvent :=
  let es := q.edges.filter (fun e => decide (e.time / 64 ≤ x))
  let vs := q.events.filter (fun e => decide (e.time / 64 ≤ x))
  let lv := es.foldl (fun t e => tput t e.ch e.level) q.levels
  let lv := vs.foldl (fun t e => if e.kind = 1 then tput t (pinKey e.src) e.level else enableLevel es t e) lv
  ({ q with
      levels := lv, edges := q.edges.filter (fun e => decide (x < e.time / 64)), events := q.events.filter (fun e => decide (x < e.time / 64)) },
    es.filter (fun e => e.time / 64 = x), vs.filter (fun e => e.time / 64 = x))

/-- A slot inside a span of the sequencer's list. -/
def Seq.inSpan (q : Seq) (x : SI) : Bool :=
  q.gated.any (fun e => decide (e.1 ≤ x) && (match e.2 with | none => true | some b => decide (x < b)))

/-- Channel c is out of service at slot x (R143): disabled, or its region in a reset. -/
def State.channelDown (s : State) (c : Nat) (x : SI) : Bool :=
  let g := s.region (chRegion c)
  !(s.cell c).enabledFor x
    || (match g.rst with | some w => decide (w.m ≤ x) | none => false)
    || (match g.resetSpan with | some (a, b) => decide (a ≤ x ∧ x < b) | none => false)

/-- Level of a channel or pin for sequencer k where no occurrence has been absorbed. The level of a replayed channel before its first edge is a
free value. -/
def State.baseLevel (s : State) (k c : Nat) : Bool :=
  if 4096 ≤ c then
    match s.seq0.events.find? (fun e => e.kind = 1 && e.src = c - 4096) with
    | some e => !e.level
    | none => s.pins.inLevels.getLsbD (c - 4096)
  else if k = 0 then (s.cell c).levelAtEnable
  else (Config.otherByte c 0).getLsbD 0

/-- A slot as sequencer k sees it; the replay's spans are selvedges, in which only pulses are abandoned (R152). -/
def State.view (s : State) (k : Nat) (x : SI) (q : Seq) (es : List SeqEdge) (vs : List SeqEvent) : SlotView :=
  let span := k = 0 && q.inSpan x
  {
    x := x, edges := es, events := if k = 0 then vs else vs.filter (fun e => e.kind = 0), st := s.stOf k x
    gated := span, cut := fun c => if k = 0 then span else s.replay.cuts x c
    level := fun c => (tfind q.levels c).getD (if k = 1 && 4096 ≤ c then false else s.baseLevel k c)
    down := fun c => k = 0 && s.channelDown c x
    pins := k = 0 }

/-- The actions of a taken branch after its fire (R133). -/
def State.branchActions (s : State) (k : Nat) (x : SI) (val : TermVal) (b : Branch) : State :=
  let s := if k = 0 && b.drive ≠ 0 then
      s.pulse (fun n p => bit b.drive n && bit p.source srcDrive) (64 * x + val.at_) s.cycleEnd none
    else s
  s.modSeq k (fun q => { q with stitch := b.next % 16, transCnt := satInc 32 q.transCnt, cycleTrans := q.cycleTrans + 1 })

/-- A forced tack f (slot, FLAGS, WPOL) in its place among the records of sequencer 0 (R139, R162, R172): it takes the next tack number there, and
its FIRE and window follow. -/
def State.placeForced (s : State) (f : SI × Nat × Nat) : State :=
  let (s, n) := s.nextTack 0
  let ref : TackRef := { si := f.1, fine := 0, seq := 0, kind := 1, origin := s.cas.unitId.toNat, number := n }
  let s := s.placeTack 0 (ref, recTack ref (bit f.2.1 0) true false false false false 0 0 0) 0 0
  let s := if bit f.2.1 1 && s.sends 0 then s.originate 3 (s.message (1 + s.coastFlag) n (s.tackSt f.1 0) 0) else s
  if bit f.2.1 0 then s.requestWindow f.2.2 ref else s

/-- Forced tacks whose slot has been evaluated take their place (R172). -/
def State.flushForced (s : State) (k : Nat) (upto : SI) : State :=
  if k = 1 then s
  else
    let now := s.seq0.forced.filter (fun f => decide (f.1 ≤ upto))
    let s := { s with seq0 := { s.seq0 with forced := s.seq0.forced.filter (fun f => decide (upto < f.1)) } }
    now.foldl (fun s f => s.placeForced f) s

/-- The program put in force by an arming at boundary b (R145). The pattern matches at the end of the slot before it are judged from the levels. -/
def Seq.start (q : Seq) (b : SI) (image : Option (Program × Nat)) : Seq :=
  let q := match image with
    | none => q
    | some (p, id) => { q with active := p, activeId := id }
  { q with
    armed := true, halted := false, stitch := q.active.startStitch, stitchAt := q.active.startStitch, from_ := b, next := b, stopAt := none, uneval := 0
    counters := [], timers := [], timersOn := [], holdFrom := none, holdBaste := none, basteNo := 0, tackNo := 0
    matched := [], pulses := [], rearm := [] }

/-- Matches of the PATTERN terms at the end of the slot before the first one evaluated (R124). -/
def State.startMatches (s : State) (k : Nat) : State :=
  let q := s.sq k
  let level := fun c => (tfind q.levels c).getD (s.baseLevel k c)
  s.modSeq k (fun q => { q with matched := q.active.terms.foldl (fun t e => if e.2.kind = 1 then tput t e.1 (e.2.matchesOn level) else t) [] })

/-- An ARM with RESTART takes effect at its boundary (R143, R145); a frame left unevaluated stays so (R137). -/
def State.restartAt (s : State) (k : Nat) (e : SI × Option (Program × Nat)) : State :=
  (s.unpickAll k e.1 1).modSeq k (fun q => { q.start e.1 e.2 with armed := q.armed, stopAt := q.stopAt, uneval := q.uneval, rearm := q.rearm.drop 1 })

/-- The ARMs with RESTART whose boundary is at or below slot x take effect in order, each after the forced tacks of the slots below it. -/
def State.restarts (s : State) (k : Nat) (x : SI) : State :=
  ((s.sq k).rearm.filter (fun e => decide (e.1 ≤ x))).foldl (fun s e => (s.flushForced k (e.1 - 1)).restartAt k e) s

/-- At the first slot after an arming, every edge of the slots before has arrived: the levels at their end and the matches are judged here (R124). -/
def State.firstSlot (s : State) (k : Nat) (x : SI) : State :=
  if x ≠ (s.sq k).from_ then s
  else (if x = 0 then s else s.modSeq k (fun q => (q.absorb (x - 1)).1)).startMatches k

/-- The submitted data of a replay has no edge inside a selvedge span (R152). -/
def State.cutEdges (s : State) (k : Nat) (x : SI) : State :=
  if k = 0 then s
  else s.modSeq k (fun q => { q with edges := q.edges.filter (fun e => decide (x < e.time / 64) || !s.replay.cuts (e.time / 64) e.ch) })

/-- A baste of slot x itself: its confirm window begins just after its tack time (R169, R171). -/
def State.resolveNew (s : State) (k : Nat) (v : SlotView) (vals : Tab TermVal) : State :=
  ((s.sq k).bastes.filter (fun b => b.si = v.x)).foldl (fun s b => s.resolveBaste k v vals b) s

/-- The next slot of sequencer k is evaluated. -/
def State.evalSlot (s : State) (k : Nat) : State :=
  let x := (s.sq k).next
  let s := ((s.restarts k x).cutEdges k x).firstSlot k x
  let (q, es, vs) := (s.sq k).absorb x
  let v := s.view k x q es vs
  let (vals, q) := q.allTerms v
  let s := (s.modSeq k (fun _ => { q with stitchAt := q.stitch })).resolveBastes k v vals
  let s := match (s.sq k).choose vals with
    | none => s.modSeq k (fun q => { (q.timersNext 0) with counters := q.countersNext vals 0, next := x + 1 })
    | some (j, b, val) =>
      let s := (s.fire k x val j b).resolveNew k v vals
      let s := s.branchActions k x val b
      let s := s.modSeq k (fun q => { (q.timersNext b.tmrOp) with counters := q.countersNext vals b.ctrOp, next := x + 1 })
      if bit b.misc 1 then s.stopAction k x else s
  s.flushForced k x

/-! ### FRM cycles (R136, R137) -/

/-- The slot at which evaluation must end: the disarming boundary, the first unevaluated slot. -/
def Seq.limit (q : Seq) : Option SI :=
  match q.stopAt, q.uneval with
  | none, 0 => none
  | some b, 0 => some b
  | none, u => some u
  | some b, u => some (min b u)

/-- The next slot may be evaluated at all. -/
def Seq.more (q : Seq) : Bool :=
  q.evaluates && !q.halted && (match q.limit with | none => true | some b => decide (q.next < b))

/-- The FRM cycle in which the next slot can be evaluated: eleven frames after its own, and not in a cycle that is used up. -/
def Seq.cycle (q : Seq) : Nat :=
  max (q.next / 16 + 11) (if 32 ≤ q.cycleSlots || 4 ≤ q.cycleTrans then q.cycleFrame + 1 else q.cycleFrame)

/-- A frame finds the catch-up buffer full at the start of cycle c: it and all later ones stay unevaluated, and the chip enters doubt (R137). -/
def State.overflow (s : State) (c : Nat) : State :=
  let q := s.seq0
  if q.uneval = 0 && q.stopAt.isNone && decide (q.next / 16 + 75 ≤ c) then
    let u := 16 * (q.next / 16 + 64)
    ({ s with seq0 := { q with uneval := u } } : State).beginCauseAt causeLag u
  else s

/-- The sequencer halts once the held frames are evaluated (R137, R171). -/
def State.haltAtEnd (s : State) : State :=
  let q := s.seq0
  if q.uneval ≠ 0 && q.stopAt.isNone && !q.halted && decide (q.uneval ≤ q.next) then
    let s := (s.unpickAll 0 q.uneval 2).restarts 0 s.boundary
    let s := s.flushForced 0 s.boundary
    ({ s with seq0 := { s.seq0 with halted := true, held := 0 } } : State).raise 130
  else s

/-- Frames held beyond the nominal lag at the end of cycle c: those that have arrived and lie below the end of evaluation. -/
def Seq.heldFrames (q : Seq) (c : Nat) : Nat :=
  let arrived := match q.limit with
    | none => c - 10
    | some e => min (c - 10) ((e + 15) / 16)
  min 64 (arrived - q.next / 16)

/-- Cycle c evaluates no further slot: the frames that have arrived are done, or the cycle is used up (R136). -/
def Seq.cycleOver (q : Seq) (c : Nat) : Bool := decide (16 * c ≤ q.next + 160) || decide (32 ≤ q.cycleSlots) || decide (4 ≤ q.cycleTrans)

/-- SEQ_LAG at the end of a cycle (R137, R164). -/
def Seq.noteLag (q : Seq) : Seq :=
  if q.cycleOver q.cycleFrame then
    let h := q.heldFrames q.cycleFrame
    { q with held := h, lagMax := max q.lagMax h }
  else q

/-- One slot of the live sequencer in its cycle, where that cycle has begun by slot `now`. -/
def State.liveSlot (s : State) (now : SI) : State × Bool :=
  if !s.seq0.more then (s, false)
  else
    let c := s.seq0.cycle
    if now / 16 < c then (s, false)
    else
      let s := if c ≠ s.seq0.cycleFrame then
          ({ s with
            seq0 := { s.seq0 with cycleFrame := c, cycleSlots := 0, cycleTrans := 0 }
            time := { s.time with si := max s.time.si (16 * c) } } : State).overflow c
        else s
      let s := s.evalSlot 0
      let s := { s with seq0 := ({ s.seq0 with cycleSlots := s.seq0.cycleSlots + 1 } : Seq).noteLag }
      (s.haltAtEnd, true)

/-- Up to n slots of the live sequencer. -/
def State.liveSlots (s : State) (now : SI) (n : Nat) : State :=
  match n with
  | 0 => s
  | m + 1 =>
    match s.liveSlot now with
    | (t, true) => t.liveSlots now m
    | (t, false) => t

/-! ### Feeding the sequencer -/

/-- An edge into a list in order of time. -/
def insertByTime (l : List SeqEdge) (e : SeqEdge) : List SeqEdge :=
  match l with
  | [] => [e]
  | x :: rest => if e.time < x.time then e :: l else x :: insertByTime rest e

/-- The trailing edge of a glitch directly after its leading edge (R98). -/
def insertTrailing (l : List SeqEdge) (e : SeqEdge) : List SeqEdge :=
  match l with
  | [] => [e]
  | x :: rest => if x.ch = e.ch && x.glitch = 1 && x.time < e.time + 64 && !(rest.any (fun y => y.ch = e.ch)) then x :: e :: rest else x :: insertTrailing rest e

/-- An edge into a list of edges in order of occurrence. -/
def insertSeq (l : List SeqEdge) (e : SeqEdge) : List SeqEdge := if e.glitch = 2 then insertTrailing l e else insertByTime l e

/-- Occurrences older than 64 slots leave an idle sequencer's buffers for its levels (R124). -/
def Seq.prune (q : Seq) (now : SI) : Seq :=
  if q.evaluates || now < 64 then q
  else
    let (q', _, _) := q.absorb (now - 64)
    q'

/-- The live sequencer takes an edge. -/
def State.seqEdge (s : State) (e : SeqEdge) : State :=
  { s with seq0 := { (s.seq0.prune s.time.si) with edges := insertSeq (s.seq0.prune s.time.si).edges e } }

/-- A CASCADE occurrence of a message that crosses into FRM at the present boundary (R129). -/
def State.seqCascade (s : State) (kind src : Nat) : State :=
  if !s.seq0.evaluates then s
  else { s with seq0 := { s.seq0 with events := s.seq0.events ++ [({ kind := kind, src := src, time := 64 * (s.boundary - 176) } : SeqEvent)] } }

/-- TRIG_IN_EDGE: an edge of a pin, without deskew (R128). -/
def execTrigInEdge (t : SI) (pin : Fin 8) (level : Bool) (fine : Fin 64) (s : State) : Host.Outcome State Fault Refusal :=
  let s := s.moment t
  let q := s.seq0.prune s.time.si
  let lv := if level then s.pins.inLevels ||| (1#8 <<< pin.val) else s.pins.inLevels &&& ~~~(1#8 <<< pin.val)
  .next { s with
    seq0 := { q with events := q.events ++ [({ kind := 1, src := pin.val, time := 64 * t + fine.val, level := level } : SeqEvent)] }
    pins := { s.pins with inLevels := lv } }

end Sys2Proof.Machine
end

