-- ==== Sys2Proof/Machine/Program.lean ====
section
/-! DEFINITION. Sequencer programs (R153 to R159) and the sequencer's commands: LOAD_PATTERN, ARM, DISARM, FORCE_TACK, SET_TRIGOUT (R145, R146, R160
to R163), and the row DISARM_SHUTDOWN_END. -/

namespace Sys2Proof.Machine

/-! ### LOAD_PATTERN (R153 to R159) -/

/-- A section: TYPE, INDEX and body. -/
abbrev Section := Nat × Nat × List Byte

/-- n sections from the bytes, and nothing after them. -/
def parseSections (bs : List Byte) (n : Nat) : Option (List Section) :=
  match n with
  | 0 => if bs = [] then some [] else none
  | k + 1 =>
    let len := pField bs 2 2
    if bs.length < 4 + len then none
    else (parseSections (bs.drop (4 + len)) k).map (fun r => (pField bs 0 1, pField bs 1 1, pBytes bs 4 len) :: r)

/-- A branch entry's reserved bits are 0 (R157). -/
def branchShape (y : List Byte) : Bool :=
  pBits y 0 2 && pBits y 1 4 && pBits y 8 5 && pBits y 9 5 && pBits y 11 6 && pBits y 12 7 && pZero y 13 3

/-- A section is well formed: type, index, length and reserved bits (R154 to R157). -/
def sectionShape (x : Section) : Bool :=
  let y := x.2.2
  match x.1 with
  | 1 => x.2.1 = 0 && y.length = 16 && pBits y 1 1 && pZero y 2 2 && pZero y 8 8
  | 2 => decide (x.2.1 < 64) && y.length = 24 && pZero y 5 3
  | 3 => decide (x.2.1 < 64) && y.length = 68 && pIn y 0 1 0 3 && pZero y 1 3
  | 4 => decide (x.2.1 < 16) && y.length = 96 && (pRecords y 0 24 4).all branchShape
  | 5 => decide (x.2.1 < 8) && y.length = 8 && !bit (pField y 0 1) 6 && pZero y 1 7
  | _ => false

/-- A branch from its 24 bytes. -/
def branchOf (y : List Byte) : Branch :=
  { ctrl := pField y 0 1, next := pField y 1 1, terms := (List.range 4).map (fun i => pField y (2 + i) 1), fire := pField y 6 1
    markCode := pField y 7 1, ctrOp := pField y 8 1, tmrOp := pField y 9 1, drive := pField y 10 1, misc := pField y 11 1
    confirm := pField y 12 1, deadline := pField y 16 8 }

/-- A section applied to an image (R154). -/
def Program.apply (g : Program) (x : Section) : Program :=
  let y := x.2.2
  match x.1 with
  | 1 => { g with startStitch := pField y 0 1, suppRec := bit (pField y 1 1) 0, holdoff := pField y 4 4 }
  | 2 => { g with terms := tmod g.terms x.2.1 {} (fun u => { u with
      kind := pField y 0 1, mode := pField y 1 1, sel := pField y 2 2, field := pField y 4 1
      a := BitVec.ofNat 64 (pField y 8 8), b := BitVec.ofNat 64 (pField y 16 8) }) }
  | 3 =>
    let r := pField y 0 1
    { g with terms := tmod g.terms x.2.1 {} (fun u => { u with
      masks := u.masks.set r (pMask y 4), values := u.values.set r (pMask y 36), given := Nat.lor u.given (2 ^ r) }) }
  | 4 => { g with stitches := tput g.stitches x.2.1 ((pRecords y 0 24 4).map branchOf) }
  | _ => { g with counters := tput g.counters x.2.1 (pField y 0 1) }

/-- A term's fields lie in range, and what its kind and MODE do not use is 0 (R156, R158). -/
def Term.valid (u : Term) : Bool :=
  let z := decide (u.field = 0 ∧ u.a = 0 ∧ u.b = 0)
  (u.kind = 1 || u.given = 0) &&
  match u.kind with
  | 0 => u.mode = 0 && u.sel = 0 && z
  | 1 => decide (u.mode ≤ 2) && u.sel = 0 && z && u.masked ≠ []
  | 2 => decide (u.mode ≤ 2 ∧ u.sel < 1024) && z
  | 3 => decide (u.mode ≤ 2 ∧ u.sel < 1024) && z
  | 4 => decide (u.mode ≤ 2 ∧ u.sel < 1024 ∧ u.field ≤ 1 ∧ u.a.toNat ≤ u.b.toNat ∧ u.b.toNat ≤ 2 ^ 40) && (u.mode ≠ 2 || u.a = 0)
  | 5 => decide (u.mode ≤ 2 ∧ u.sel < 64 ∧ u.field < 32) && (u.mode ≠ 2 || z)
  | 6 => decide (u.mode ≤ 4 ∧ u.sel < 8) && z
  | 7 => decide (u.mode ≤ 3) && (if u.mode = 1 then decide (u.sel < 16384) else u.sel = 0) && z
  | 8 => decide (u.mode ≤ 2 ∧ u.sel < 8 ∧ u.field = 0 ∧ u.a.toNat < 2 ^ 48 ∧ u.b = 0)
  | 9 => decide (u.mode ≤ 2 ∧ u.sel < 8 ∧ u.field = 0 ∧ u.a.toNat < 2 ^ 48 ∧ u.b = 0)
  | 10 => decide (u.mode = 0 ∧ u.sel = 0 ∧ u.field = 0 ∧ u.b.toNat < 2 ^ 32)
  | _ => false

/-- A branch passes COMMIT (R158). -/
def Branch.valid (b : Branch) : Bool :=
  !bit b.ctrl 0 ||
    (decide (b.fire ≤ 3) && !(b.window && b.fire = 0) && (b.fire ≠ 2 || decide (1 ≤ b.deadline ∧ b.deadline ≤ 2 ^ 40)) &&
      b.ctrOp / 8 % 4 ≠ 3 && b.tmrOp / 8 % 4 ≠ 3)

/-- The image passes COMMIT. -/
def Program.valid (g : Program) : Bool :=
  decide (g.startStitch ≤ 15) && g.terms.all (fun e => e.2.valid) && g.stitches.all (fun e => e.2.all Branch.valid)

/-- Bytes of a branch entry. -/
def Branch.bytes (b : Branch) : List Byte :=
  leBytes 1 b.ctrl ++ leBytes 1 b.next ++ b.terms.flatMap (leBytes 1) ++ leBytes 1 b.fire ++ leBytes 1 b.markCode ++ leBytes 1 b.ctrOp ++
    leBytes 1 b.tmrOp ++ leBytes 1 b.drive ++ leBytes 1 b.misc ++ leBytes 1 b.confirm ++ leBytes 3 0 ++ leBytes 8 b.deadline

/-- The canonical image (R158). -/
def Program.canonical (g : Program) : List Byte :=
  let term := fun k => (tfind g.terms k).getD {}
  leBytes 1 g.startStitch ++ leBytes 1 (b2n g.suppRec) ++ leBytes 2 0 ++ leBytes 4 g.holdoff ++ leBytes 8 0 ++
    (List.range 64).flatMap (fun k =>
      let u := term k
      leBytes 1 u.kind ++ leBytes 1 u.mode ++ leBytes 2 u.sel ++ leBytes 1 u.field ++ leBytes 3 0 ++ leBytes 8 u.a.toNat ++ leBytes 8 u.b.toNat) ++
    (List.range 64).flatMap (fun k => (List.range 4).flatMap (fun r =>
      let u := term k
      if bit u.given r then leBytes 4 r ++ leBytes 32 (u.masks.getD r 0).toNat ++ leBytes 32 (u.values.getD r 0).toNat else leBytes 68 0)) ++
    (List.range 16).flatMap (fun k => match tfind g.stitches k with
      | some bs => bs.flatMap Branch.bytes
      | none => leBytes 96 0) ++
    (List.range 8).flatMap (fun k => leBytes 1 ((tfind g.counters k).getD 0) ++ leBytes 7 0)

/-- The image ID (R158). -/
def Program.imageId (g : Program) : Nat :=
  let v := leNat ((sha256 g.canonical).take 4)
  if v = 0 then 1 else v

/-- The image after LOAD_PATTERN's sections, where the parameters are well formed and COMMIT, if asked for, succeeds. -/
def loadImage (s : State) (p : List Byte) : Option (Program × List Section) :=
  let flags := pField p 1 1
  if p.length < 8 || !pIn p 0 1 0 1 || !pBits p 1 2 || !pIn p 2 2 0 256 || !pZero p 4 4 then none
  else match parseSections (p.drop 8) (pField p 2 2) with
    | none => none
    | some xs =>
      if !xs.all sectionShape then none
      else
        let g := xs.foldl Program.apply (if bit flags 0 then {} else (s.sq (pField p 0 1)).pending)
        if bit flags 1 && !g.valid then none else some (g, xs)

/-- LOAD_PATTERN returns BAD_PARAM (R159). -/
def loadPatternBad (s : State) (p : List Byte) : Bool := (loadImage s p).isNone

/-- LOAD_PATTERN returns BAD_STATE: sequencer 1 while a REPLAY job is RUNNING or SUSPENDED (R152). -/
def loadPatternBadState (s : State) (p : List Byte) : Bool :=
  pField p 0 1 = 1 && s.cmd.jobs.any (fun j => j.ctx.opcode = 0x0810 && (j.state = .running || j.state = .suspended))

/-- LOAD_PATTERN: the pending image, and the result words. -/
def loadPattern (c : Ctx) (s : State) : State :=
  let p := c.params
  match loadImage s p with
  | none => s
  | some (g, xs) =>
    let flags := pField p 1 1
    let k := pField p 0 1
    let commit := bit flags 1
    let touched := bit flags 0 || xs ≠ []
    let old := s.sq k
    let ok := commit || (old.pendingOk && !touched)
    let id := if commit then g.imageId else if ok then old.pendingId else 0
    (s.modSeq k (fun q => { q with pending := g, pendingOk := ok, pendingId := id })).finish c [xs.length, id]

/-! ### ARM and DISARM (R145, R146, R160, R161, R189) -/

/-- ARM returns BAD_PARAM. -/
def armBad (p : List Byte) : Bool := !(p.length = 8) || !pIn p 0 1 0 0 || !pBits p 1 2 || !pZero p 2 2

/-- The image that an ARM would use carries this ID. -/
def Seq.armId (q : Seq) (load : Bool) : Nat := if load then q.pendingId else q.activeId

/-- Arming cannot be done (R160). -/
def armBlocked (s : State) (load restart : Bool) (id : Nat) : Bool :=
  let q := s.seq0
  s.cap.runState ≠ 1 || (q.armed && !restart) || q.halted || (load && !q.pendingOk) || (id ≠ 0 && id ≠ q.armId load)

/-- A child refuses its own host's ARM and DISARM while LOCAL_ARM is clear (R190). -/
def childRefuses (s : State) (c : Ctx) : Bool := s.cas.role = 2 && !s.cas.localArm && c.origin.kind ≠ 1

/-- ARM returns BAD_STATE. -/
def armBadState (s : State) (c : Ctx) : Bool :=
  let f := pField c.params 1 1
  childRefuses s c || (s.seq0.stopAt.isNone && armBlocked s (bit f 0) (bit f 1) (pField c.params 4 4))

/-- ARM returns BUSY: an ARM is already deferred (R439). -/
def armBusy (s : State) : Bool := s.seq0.stopAt.isSome && s.cmd.deferredArm.isSome

/-- The live sequencer is armed at boundary b (R143, R145). With RESTART while armed, slots below b are still evaluated first. -/
def State.armAt (s : State) (b : SI) (load : Bool) : State :=
  let q := s.seq0
  let image := if load then some (q.pending, q.pendingId) else none
  if q.armed then ({ s with seq0 := { q with rearm := q.rearm ++ [(b, image)], activeId := q.armId load } } : State).raise 131
  else
    let (q', _, _) := q.absorb (b - 1)
    let q' := { (q'.start b image) with cycleFrame := b / 16, cycleSlots := 0, cycleTrans := 0, held := 0 }
    ({ s with seq0 := q' } : State).raise 131

/-- ARM's effect at boundary b: result word 0 is the active image ID. -/
def State.armBy (s : State) (c : Ctx) (b : SI) : State :=
  let s := s.armAt b (bit (pField c.params 1 1) 0)
  s.finishAt c b [s.seq0.activeId]

/-- ARM's effect at the present boundary. -/
def armEffect (c : Ctx) (s : State) : State := s.armBy c s.boundary

/-- An ARM that is due during a shut-down completes with DEFERRED (R146). -/
def armDefers (s : State) : Bool := s.seq0.stopAt.isSome

/-- The deferred ARM is held. -/
def armHold (c : Ctx) (s : State) : State := { s with cmd := { s.cmd with deferredArm := some c } }

/-- DISARM returns BAD_PARAM. -/
def disarmBad (p : List Byte) : Bool := !(p.length = 8) || !pIn p 0 1 0 0 || !pZero p 1 7

/-- DISARM's effect; it cancels a deferred ARM. -/
def disarmEffect (c : Ctx) (s : State) : State :=
  let d := s.cmd.deferredArm
  let s := ({ s with cmd := { s.cmd with deferredArm := none } } : State).disarmAt s.boundary
  (s.cancelDeferred d).finish c []

/-- 50 µs of ST at the nominal epoch length, in reported units (R189). -/
def State.st50us (s : State) : Nat := (s.time.ofPs 50000000 / (stUnit : Int)).toNat

/-- A root's ARM or DISARM takes the later of its request and 50 µs from now (R189). -/
def rootAdapt (s : State) (p : Packet) : Packet × Bool :=
  if s.cas.role ≠ 1 then (p, false)
  else
    let least := s.time.st s.boundary + s.st50us
    let due := max p.atSt.toNat least
    ({ p with atSt := BitVec.ofNat 96 due }, p.atSt ≠ 0 && decide (p.atSt.toNat < due))

/-- ARM (type 1) or DISARM (type 2) sent down by the root. -/
def rootAnnounce (type : Nat) (p : Packet) (s : State) : State :=
  if s.cas.role ≠ 1 then s
  else
    let n := (s.cas.cmdNumber + 1) % 65536
    let s := { s with cas := { s.cas with cmdNumber := n } }
    s.sendDown type (s.message 0 (if type = 1 then pField p.params 1 1 else 0) p.atSt.toNat n)

/-- The shut-down of a DISARM has nothing left to evaluate. -/
def Seq.drained (q : Seq) : Bool := q.stopAt.isSome && !q.more

/-- The shut-down ends: an ARM with RESTART whose slot was never evaluated has taken effect (R121, R145), pending bastes are unpicked, forced tacks
recorded (R146). -/
def State.endShutdown (s : State) : State :=
  let q := s.seq0
  match q.stopAt with
  | none => s
  | some b =>
    let s := if q.uneval ≠ 0 && q.uneval < b then s.unpickAll 0 q.uneval 2 else s
    let s := ((s.restarts 0 b).unpickAll 0 b 1).flushForced 0 s.boundary
    { s with seq0 := { s.seq0 with stopAt := none, uneval := 0, next := max s.seq0.next b, held := 0, rearm := [] } }

/-- ARM_RESULT of a cascade command that has failed on this child (R190); event 59. -/
def State.armFailed (s : State) (number status : Nat) : State :=
  (s.sendUp 8 (s.status 2 (status + number * 65536))).raise 59

/-- A deferred ARM of context c ends without effect: its final entry, and ARM_RESULT where the cascade's master sent it. -/
def State.armEnds (s : State) (c : Ctx) (status : Nat) : State :=
  let s := s.complete c status 0 []
  if c.origin.kind = 1 then s.armFailed c.casNo status else s

/-- The deferred ARM takes effect at the boundary that ends the present FRM cycle (R146), or fails as R160 says; event 133. -/
def State.releaseArm (s : State) : State :=
  match s.cmd.deferredArm with
  | none => s
  | some c =>
    let s := ({ s with cmd := { s.cmd with deferredArm := none } } : State).unreserve 2
    let f := pField c.params 1 1
    if s.inDoubt then s.armEnds c stDoubt
    else if childRefuses s c || armBlocked s (bit f 0) (bit f 1) (pField c.params 4 4) then s.armEnds c stBadState
    else ((s.armBy c s.cycleEnd).raiseIf (c.origin.kind = 1) 58).raise 133

/-- DISARM_SHUTDOWN_END. -/
def rowDisarmShutdownEnd (t : SI) (s : State) : State :=
  let s := s.moment t
  if s.seq0.drained then s.endShutdown.releaseArm else s

/-! ### FORCE_TACK (R162) -/

/-- FORCE_TACK returns BAD_PARAM. -/
def forceTackBad (p : List Byte) : Bool := !(p.length = 8) || !pIn p 0 1 0 0 || !pBits p 1 2 || !pIn p 2 1 0 15 || !pZero p 3 5

/-- A forced tack at the present boundary (R143, R150): its pulses are decided at once; its record waits for the evaluation of its slot, so that a
branch tack of the slot, and any of a lower one that is still to be evaluated, comes first (R172, R301). -/
def forceTack (p : List Byte) (s : State) : State :=
  let b := s.boundary
  let f := (b, pField p 1 1, pField p 2 1)
  let waits := s.seq0.evaluates && !s.seq0.halted && decide (s.seq0.next ≤ b) && (match s.seq0.limit with | none => true | some e => decide (s.seq0.next < e))
  let s := s.pulse (fun _ x => bit x.source srcForced) (64 * b) b none
  if waits then { s with seq0 := { s.seq0 with forced := s.seq0.forced ++ [f] } } else s.placeForced f

/-! ### SET_TRIGOUT (R163, R177) -/

/-- An applied entry is out of range. -/
def trigoutEntryBad (y : List Byte) : Bool :=
  let m := pField y 1 1
  !pBits y 0 4 || !pBits y 1 3 || !pIn y 2 1 1 255 || (bit m 0 && decide (pField y 2 1 < 3)) || !pZero y 3 1 ||
    (if bit m 1 then !pIn y 4 4 64 1000000 else pField y 4 4 ≠ 0)

/-- SET_TRIGOUT returns BAD_PARAM. -/
def setTrigoutBad (p : List Byte) : Bool :=
  !(p.length = 72) || !pZero p 1 7 || ((pRecords p 8 8 8).zipIdx.any (fun e => bit (pField p 0 1) e.2 && trigoutEntryBad e.1))

/-- One pin's new settings: a pulse in progress ends at the new inactive level. -/
def State.setPin (s : State) (n : Nat) (y : List Byte) : State :=
  let old := s.out n
  let m := pField y 1 1
  let new := { old with source := pField y 0 1, basted := bit m 0, align := bit m 1, polarity := bit m 2, width := pField y 2 1, delayNs := pField y 4 4 }
  if new = old then s
  else
    let before := old.level
    let s := s.modOut n (fun _ => { new with active := false, cancelUntil := min old.cancelUntil s.time.si })
    if before = new.polarity then s else s.post (.pin n new.polarity)

/-- SET_TRIGOUT's effect. -/
def setTrigout (p : List Byte) (s : State) : State :=
  (pRecords p 8 8 8).zipIdx.foldl (fun s e => if bit (pField p 0 1) e.2 then s.setPin e.2 e.1 else s) s

end Sys2Proof.Machine
end

