-- ==== Sys2Proof/Machine/Edges.lean ====
section
/-! DEFINITION. EDGE_DETECTED (R17 to R19, R97 to R100): a cell's edge, its fine code and deskewed time, handed to every tap; and
ANCHOR_BOUNDARY (R47). -/

namespace Sys2Proof.Machine

/-! ### The cell's own part -/

/-- The lane that serves an edge at raw slot t and measures it as `raw`. Answers the cell, the fine code reported and COARSE (R19, R95). -/
def Cell.take (x : Cell) (t : SI) (raw : Nat) : Cell × Nat × Bool :=
  match x.serve t with
  | some k =>
    let fine := (x.lanes.getD k {}).fineCode raw
    (x.modLane k (fun l => { l with lastEdge := 64 * t + fine, lastSlot := some t }), fine, false)
  | none => ({ x with coarseCnt := satInc 8 x.coarseCnt }, 0, true)

/-- The deskewed time of a raw time (R99); a new value holds from its boundary on (R100). -/
def Cell.deskewed (x : Cell) (t : SI) (fine : Nat) : FineTime :=
  (((64 * t + fine : Nat) : Int) + (if t < x.deskewAt then x.oldDeskew else x.deskew)).toNat

/-- A time that is not later than the channel's latest reported edge moves one fine LSB behind it and carries SETTLE (R100). -/
def crowd (x : Cell) (t : SI) (u : FineTime) (last : Option FineTime) : FineTime × Bool :=
  match last with
  | some l => if x.deskewAt ≤ t && u ≤ l then (l + 1, true) else (u, false)
  | none => (u, false)

/-- One edge of channel c at raw slot t. -/
def Cell.single (x : Cell) (c : Nat) (t : SI) (level : Bool) (fine : Nat) : Cell × List SeqEdge :=
  let (y, f, coarse) := x.take t fine
  let (u, moved) := crowd x t (x.deskewed t f) x.lastTime
  ({ y with level := level, lastTime := some u },
   [{ ch := c, time := u, level := level, settle := x.settles t || moved, coarse := coarse }])

/-- A glitch of channel c in raw slot t: two edges, or none where no lane sees it (R98). -/
def Cell.glitch (x : Cell) (c : Nat) (t : SI) (fine fine2 : Nat) : Cell × List SeqEdge :=
  match x.serve t with
  | none => (x, [])
  | some _ =>
    let (y, f, _) := x.take t fine
    let (u, moved) := crowd x t (x.deskewed t f) x.lastTime
    let (z, f2, coarse) := y.take t fine2
    let (v, moved2) := if moved then crowd x t (x.deskewed t f2) (some u) else (x.deskewed t f2, false)
    ({ z with lastTime := some (max u v) },
     [{ ch := c, time := u, level := !x.level, glitch := 1, settle := x.settles t || moved },
      { ch := c, time := v, level := x.level, glitch := 2, settle := x.settles t || moved2, coarse := coarse }])

/-- What the cell reports for a slot that it leaves at `level`; an odd number of changes gives one edge, an even one a glitch. -/
def Cell.detect (x : Cell) (c : Nat) (t : SI) (level glitch : Bool) (fine fine2 : Nat) : Cell × List SeqEdge :=
  if level != x.level then x.single c t level fine
  else if glitch then x.glitch c t fine fine2
  else (x, [])

/-! ### The level of a channel before its first edge (R87) -/

/-- The level of channel c at its latest enabling, for a sequencer that has not met an edge of it since. -/
def Seq.fixLevel (q : Seq) (c : Nat) (level : Bool) : Seq :=
  if q.events.any (fun e => e.kind = 5 && e.src = c) then
    { q with events := q.events.map (fun e => if e.kind = 5 && e.src = c then { e with level := level } else e) }
  else if (tfind q.levels c).isSome then { q with levels := tput q.levels c level }
  else q

/-- The level that a channel had from its enabling on has become known. -/
def State.fixLevel (s : State) (c : Nat) (level : Bool) : State :=
  let k := c % 256
  let s := s.modCell c (fun y => { y with level := level, levelAtEnable := level, firstSample := false })
  let s := s.modRegion (chRegion c) (fun g => { g with stats := g.stats.map (fun e => if e.1 = k then (e.1, { e.2 with level := level }) else e) })
  { s with
    seq0 := s.seq0.fixLevel c level
    engines := s.engines.map (fun e =>
      if engRegion e.1 = chRegion c then (e.1, { e.2 with base := (e.2.inputsOf k).foldl (fun l i => l.set i level) e.2.base }) else e) }

/-! ### The taps (R17, R18) -/

/-- The region's reset has this time in the span that it discards (R497). -/
def Region.discards (g : Region) (u : FineTime) : Bool :=
  match g.rst with
  | some w => decide (64 * w.m ≤ u)
  | none => false

/-- An edge before the run's first slot only sets the level at which the run begins. -/
def State.beforeRun (s : State) (e : SeqEdge) : State :=
  let s := s.modCell e.ch (fun y => { y with levelAtEnable := e.level })
  let s := s.modRegion (chRegion e.ch) (fun g => { g with stats := g.stats.map (fun x => if x.1 = e.ch % 256 then (x.1, { x.2 with level := e.level }) else x) })
  s.engineEdge e

/-- An edge that no run takes is kept while a START_RUN of the present slot could begin at or before its slot (R207, R228). -/
def State.keepEarly (s : State) (e : SeqEdge) : State :=
  { s with cap := { s.cap with early := (s.cap.early ++ [e]).filter (fun x => decide (s.time.si ≤ x.time / 64)) } }

/-- A deskewed edge reaches every tap of the run. -/
def State.tapEdge (s : State) (e : SeqEdge) : State :=
  if s.cap.runState = 1 && decide (e.time / 64 < s.cap.runB) then s.beforeRun e
  else if !s.cap.inRun (e.time / 64) || s.cap.flushed then s.keepEarly e
  else
    let b := e.ch / 16
    let s := s.advanceBlocks.advanceBlock b s.time.si
    let s := s.modBlock b (fun x => { x with align := insertAligned x.align e.aligned (e.glitch = 2) })
    let s := s.statEdge e
    let s := (if (s.region (chRegion e.ch)).discards e.time then s else s.stateEdge e).engineEdge e
    (s.ivlEdge e).seqEdge e

/-- Edges of channel c reported at raw slot t. -/
def State.edges (s : State) (c : Nat) (t : SI) (level glitch : Bool) (fine fine2 : Nat) : State :=
  let (y, es) := (s.cell c).detect c t level glitch fine fine2
  let s := s.modCell c (fun _ => { y with anchorEdges := y.anchorEdges + es.length })
  let s := es.foldl (fun s e => s.deskewEdge e.ch e.time e.level) s
  ((es.foldl State.tapEdge s).advanceIvls).advanceEngines

/-- The cells receive no clock at raw slot t (R29, R56). -/
def Time.gatedAt (x : Time) (t : SI) : Bool :=
  match x.gatedFrom with
  | some b => decide (b ≤ t)
  | none => false

/-- A sample of an enabled channel whose first sample has not been taken: at the enabling slot it is the first, which sets the level without an edge,
by the switching point alone; later the level before it is that of the input at enabling, or, where none was given, the one that the change shows (R87). -/
def State.earlySample (s : State) (c : Nat) (t : SI) (v : CellInput) : State :=
  let x := s.cell c
  let g := x.comparatorAt t
  let now := g.sample x.level (v.vp, v.vn)
  if t = x.enabledAt then s.fixLevel c (g.first (v.vp, v.vn))
  else if x.input.isSome then (s.fixLevel c x.level).edges c t now v.glitch v.raw v.raw2
  else (s.fixLevel c (if v.glitch then now else !now)).edges c t now v.glitch v.raw v.raw2

/-- The input of channel `ch` as its cell samples it in raw slot t (R84 to R87, R95, R98). The level that the comparator then reports decides
whether there is an edge. A channel that is to be enabled later takes its first level from the latest input before. -/
def rowEdgeDetected (t : SI) (ch : Fin 1024) (v : CellInput) (s : State) : State :=
  let s := s.moment t
  let x := s.cell ch.val
  let seen := fun (s : State) => s.modCell ch.val (fun y => { y with input := some (v.vp, v.vn) })
  if !x.enabledFor t then
    seen (if x.enable && x.firstSample then s.modCell ch.val (fun y => { y with
      level := y.comparator.first (v.vp, v.vn), levelAtEnable := y.comparator.first (v.vp, v.vn) }) else s)
  else if s.time.gatedAt t then seen s
  else if x.firstSample then seen (s.earlySample ch.val t v)
  else seen (s.edges ch.val t ((x.comparatorAt t).sample x.level (v.vp, v.vn)) v.glitch v.raw v.raw2)

/-- EDGE_DETECTED. -/
def execEdgeDetected (t : SI) (ch : Fin 1024) (balls : Int × Int) (glitch : Bool) (raw raw2 : Nat) (s : State) : Host.Outcome State Fault Refusal :=
  .next (rowEdgeDetected t ch { vp := balls.1, vn := balls.2, glitch := glitch, raw := raw, raw2 := raw2 } s)

/-! ### SET_INPUT_MODE on everything behind the cells -/

/-- Statistics of channel c, which has been enabled or disabled at slot b: time at level 1 counts while it is enabled, and no
pulse is measured across the time in which it was not. -/
def State.switchStats (s : State) (c : Nat) (b : SI) (on : Bool) : State :=
  let r := chRegion c
  let k := c % 256
  let s := s.advanceStats r (64 * b)
  if s.cap.runState ≠ 1 then s
  else match tfind (s.region r).stats k with
    | some x =>
      let y := if on then { x with level := (s.cell c).level, levelSince := 64 * b, lastEdge := none }
        else { x with highTime := x.highTime + x.high (64 * b) s.time.gatedFrom, level := false, levelSince := 64 * b }
      s.modRegion r (fun g => { g with stats := tput g.stats k y })
    | none =>
      if on && (s.region r).cfg.statsOn && (s.region r).cfg.chMask.getLsbD k then
        s.modRegion r (fun g => { g with stats := tput g.stats k (s.freshStats r k b false) })
      else s

/-- Channel c has been enabled at boundary b: the sequencer takes its level from there, at once or when it evaluates that slot (R87, R143). -/
def Seq.enabled (q : Seq) (c : Nat) (b : SI) (level : Bool) : Seq :=
  if q.evaluates then { q with events := q.events ++ [({ kind := 5, src := c, time := 64 * b, level := level } : SeqEvent)] }
  else { q with levels := tdel q.levels c, edges := q.edges.filter (fun e => e.ch ≠ c) }

/-- Channel c has been enabled or disabled at boundary b: the sequencer starts from its first sample, and its decoders follow (R87, R251). -/
def State.switched (s : State) (b : SI) (was : Bool) (c : Nat) : State :=
  let on := (s.cell c).enable
  if on = was then s
  else
    let s := if on then { s with seq0 := s.seq0.enabled c b (s.cell c).level } else s
    let s := if on then s.modRegion (chRegion c) (fun g => { g with past := tdel g.past (c % 256) }) else s
    (s.decodersInput c b).switchStats c b on

/-- SET_INPUT_MODE: cells, sequencer and decoders. -/
def setInputMode (p : List Byte) (s : State) : State :=
  let was := (modeEntries p 1).map (fun e => (e.1, (s.cell e.1).enable))
  was.foldl (fun s e => s.switched s.boundary e.2 e.1) (setInputCells p s)

/-! ### ANCHOR_BOUNDARY (R47) -/

/-- What happens at anchor boundary x: what the reductions have complete is placed (R302), then its records, the child's time request, and the checks that fall there (R45, R62, R91, R93). -/
def State.anchorActions (s : State) (x : SI) (passes : List LanePass) (disagree : List (Fin 1024 × Nat)) : State :=
  let s := ((((s.advanceBlocks).advanceIvls).advanceEngines).drainMessages (fun _ => true)).completeReductions
  let s := ((s.anchorRecords x).requestTime).checkUnc
  (s.checkStuckAll x disagree).lanesBoundary x passes

/-- ANCHOR_BOUNDARY: at each SI that is a multiple of 2^20. -/
def rowAnchorBoundary (t : SI) (passes : List LanePass) (disagree : List (Fin 1024 × Nat)) (s : State) : State :=
  let s := s.moment t
  if t % 1048576 ≠ 0 || !s.time.running then s
  else (s.anchorActions t passes disagree)

/-! ### The synthesiser (R55 to R58) and the epoch boundary (R59, R61) -/

/-- The gated span from a ends at slot b for the statistics: time at level 1 counts up to a and again from b, and no pulse
that reaches into the span is measured (R214; notes/assumptions/37.md). -/
def Stats.ungate (x : Stats) (a b : SI) : Stats :=
  { x with highTime := x.highTime + x.high (64 * b) (some a), levelSince := max x.levelSince (64 * b), lastEdge := none, gap := true }

/-- The statistics of every region after a gated span. -/
def State.ungateStats (s : State) (a b : SI) : State :=
  { s with regions := s.regions.map (fun e =>
      let g := e.2.countStats (64 * a)
      (e.1, { g with
        stats := g.stats.map (fun x => (x.1, x.2.ungate a b))
        ended := g.ended.map (fun w => { w with stats := w.stats.map (fun x => (x.1, if a < w.fin then x.2.ungate a (min b w.fin) else x.2)) }) })) }

/-- The synthesiser has lost lock: the cells are gated from the next frame boundary, and decoders search from there (R56, R251). -/
def State.gateCells (s : State) : State :=
  let b := s.boundary
  if s.time.gatedFrom.isSome then s else (s.loseSynth).desync (fun _ => true) b

/-- The cells receive the clock again at the next frame boundary (R57). -/
def State.ungateCells (s : State) : State :=
  match s.time.gatedFrom with
  | none => s
  | some a => ((s.advanceBlocks).ungateStats a s.boundary).regainSynth

/-- SYNTHESISER_LOCK_LOSS. Before the first lock there is no clock to lose (R538). -/
def execSynthesiserLockLoss (t : SI) (s : State) : Host.Outcome State Fault Refusal :=
  let s := s.moment t
  if s.time.running then .next s.gateCells else .next s

/-- REFCLK is lost: the synthesiser of a reference-coherent unit loses lock with it (R55). -/
def State.loseStation (s : State) : State :=
  let s := s.loseClock
  if s.time.ref.synMode && s.time.running then s.gateCells else s

/-- REFCLK_ABSENT: no REFCLK edge for 1 µs (R41). -/
def execRefclkAbsent (t : SI) (s : State) : Host.Outcome State Fault Refusal :=
  let s := s.moment t
  .next (({ s with time := { s.time with refHz := 0 } } : State).loseStation).checkUnc

/-- REF_FREQ_MEASUREMENT: the REFCLK frequency over the latest 10 µs (R39, R41, R82). -/
def execRefFreqMeasurement (t : SI) (hz : Nat) (s : State) : Host.Outcome State Fault Refusal :=
  let s := s.moment t
  let s := { s with time := { s.time with refHz := min hz 4294967295 } }
  if freqGood s.time.ref.refFreq hz then
    .next ({ s with time := { s.time with refValid := true } } : State).checkUnc
  else .next s.loseStation.checkUnc

/-- SYNTHESISER_RELOCK: 100 µs of continuous lock have passed. At a first lock that came late, every lane is calibrated (R538). -/
def execSynthesiserRelock (t : SI) (s : State) : Host.Outcome State Fault Refusal :=
  let s := (s.moment t).ungateCells
  if s.startup.lateLock && s.time.synLock then
    .next (({ s with startup := { s.startup with lateLock := false } } : State).startCal 1)
  else .next s

/-- SET_REF: its settings, and a relock of the synthesiser with new lane calibration where the rate or SYN_MODE changes (R58). -/
def setRef (p : List Byte) (s : State) : State :=
  let relocks := setRefRelocks s.time p
  let s := setRefTime p s
  if relocks then (s.gateCells).startCal 0 else s

/-- EPOCH_BOUNDARY: an epoch boundary of ST lies at this slot: EPOCH_OUT, and the housekeeping trigger of TRIG 3. -/
def execEpochBoundary (t : SI) (s : State) : Host.Outcome State Fault Refusal := .next ((s.moment t).epochOut).epochHk

end Sys2Proof.Machine
end

