-- ==== Sys2Proof/Machine/Regions.lean ====
section
/-! DEFINITION. Region resets (R496 to R499): RESET_REGION, the region watchdog, and the three stages of a reset. -/

namespace Sys2Proof.Machine

/-- A region reset takes effect at M (R497, step 1). -/
def State.beginReset (s : State) (r : Nat) (m : SI) (defaults : Bool) : State :=
  (s.modRegion r (fun g => { g with
    rst := some { m := m, defaults := defaults }, rstState := 1, resets := satInc 8 g.resets })).raise (regionEvent r 13)

/-- The selvedge of source id starts no later than slot x (R498). -/
def RegionReset.lose (w : RegionReset) (id : Nat) (x : SI) : RegionReset := { w with lostFrom := tmod w.lostFrom id x (min x) }

/-- The reset of region r, changed by f. -/
def State.modReset (s : State) (r : Nat) (f : RegionReset → RegionReset) : State :=
  s.modRegion r (fun g => { g with rst := g.rst.map f })

/-- Frames below slot m that wait in block b's burst SRAM reach the writer (notes/assumptions/29.md). -/
def State.flushBelow (s : State) (b : Nat) (m : SI) : State :=
  let now := (s.block b).entries.filter (fun e => decide (16 * e.frame < m))
  let keep := (s.block b).entries.filter (fun e => decide (m ≤ 16 * e.frame))
  now.foldl (fun s e => s.placeEntry b e)
    (s.modBlock b (fun x => { x with entries := keep, fill := min x.fill (keep.map FrameEntry.bytes).sum }))

/-- A pending sample whose hold window ends below slot m (R497). -/
def PendingSample.before (x : PendingSample) (m : SI) : Bool := decide (((x.time : Int) + x.cfg.ofs + x.cfg.hold) < ((64 * m : Nat) : Int))

/-- The writer's intake ends 16 frames after M: what lies below M is placed, and every open segment closes (R497, step 1). -/
def State.endIntake (s : State) (r : Nat) (m : SI) : State :=
  let s := s.advanceBlocks
  let s := ((s.blocks.map (fun e => e.1)).filter (fun b => b / 16 = r)).foldl (fun s b => s.flushBelow b m) s
  let s := (s.abandonIn (fun n => engRegion n = r) m).drainMessages (fun n => engRegion n = r)
  let s := s.drainClocks r m
  let s := ((s.region r).samples.filter (fun x => x.before m)).foldl (fun s x => s.finishSample r x) s
  let s := (s.region r).samples.foldl (fun s x => s.modReset r (fun w => w.lose (stateSource r x.clock) (floor16 (x.time / 64)))) s
  let s := (s.closeRegion r).modReset r (fun w => { w with intake := false })
  s.modRegion r (fun g => { g with samples := [], past := [], clockBuf := [], frameClocks := [], cmpBucket := 0 })

/-- REGION_INTAKE_END. -/
def execRegionIntakeEnd (t : SI) (region : Fin 4) (s : State) : Host.Outcome State Fault Refusal :=
  let s := s.moment t
  match (s.region region.val).rst with
  | none => .next s
  | some w => if w.intake && decide (w.m + 256 ≤ s.time.si) then .next (s.endIntake region.val w.m) else .next s

/-- Segments of region r whose write did not finish are lost (R497, step 2). -/
def State.loseSegments (s : State) (r : Nat) (gs : List Seg) : State :=
  let ids := gs.map (fun g => g.seg)
  let s := gs.foldl (fun s g => match g.slots with
    | some (lo, _) => s.modReset r (fun w => w.lose g.source (floor16 lo))
    | none => s) s
  let s := { s with data := { s.data with staging := s.data.staging.filter (fun g => !ids.contains g.seg.seg) } }
  let s := (s.bob.tab.filter (fun (e : Nat × Bobbin) => e.2.queue.any (fun q => q.gap.isNone && ids.contains q.seg.seg))).foldl (fun s e => s.modBob e.1 (fun b =>
    { b with queue := b.queue.filter (fun q => q.gap.isSome || !ids.contains q.seg.seg) })) s
  (s.modReset r (fun w => { w with discarded := w.discarded + gs.length })).modRegion r (fun g => { g with discarded := satAdd 8 g.discarded gs.length })

/-- REGION_WRITE_DRAIN_END: the writes have finished, or 10 µs have passed and those named have not; `dropped` read replies were dropped. -/
def rowRegionWriteDrainEnd (t : SI) (region : Fin 4) (unfinished : List Nat) (dropped : Nat) (s : State) : State :=
  let s := s.moment t
  let r := region.val
  match (s.region r).rst with
  | none => s
  | some w =>
    let late := decide (w.m + 40000 ≤ s.time.si)
    if w.intake || (s.region r).rstState ≠ 1 || (unfinished ≠ [] && !late) then s
    else
      let staged := (s.data.staging.filter (fun g => unfinished.contains g.seg.seg && !g.inDram && decide (srcClass g.seg.source < 4) &&
        srcRegion g.seg.source = r)).map (fun g => g.seg)
      let waiting := (s.region r).closed.map (fun c => c.seg)
      let s := (s.modRegion r (fun g => { g with closed := [] })).loseSegments r (staged ++ waiting)
      ((s.modReset r (fun w => { w with dropped := w.dropped + dropped })).modRegion r (fun g => { g with
        rstState := 2, dropped := satAdd 8 g.dropped dropped }))

/-- RUN_START and RUN_END of an ANCHOR. -/
def Rec.runBits (r : Rec) : Bool × Bool :=
  let h := ((r.words.head?).getD 0).toNat
  (r.type = 0x10 && bit h 20, r.type = 0x10 && bit h 21)

/-- The records of a reset span that ends before slot n, in the order of R497 and R498: RUN_START anchors, TIMESTEP and SLEW, the ANCHOR of n,
the selvedge, the records held, and a RUN_END anchor last. Answers the frames of the longest selvedge. -/
def State.closeSpan (s : State) (r : Nat) (n : SI) (anchor : Bool) : State × Nat :=
  match (s.region r).rst with
  | none => (s, 0)
  | some w =>
    let s := s.modRegion r (fun g => { g with rst := none })
    if w.cut then (s, w.longest) else
    let put := fun (s : State) (sel : Rec → Bool) => (w.held.filter (fun (e : Nat × Rec) => sel e.2)).foldl (fun (s : State) (e : Nat × Rec) => s.place e.1 e.2) s
    let time := fun (x : Rec) => x.type = 0x11 || x.type = 0x12
    let s := put s (fun x => x.runBits.1)
    let s := put s time
    let srcs := if s.cap.runState = 0 then [] else s.sourcesOf r
    let a := recAnchor s.time n false false
    let s := if anchor then { s with data := { s.data with resumed := some (n, a) } }.placeIn srcs a else s
    let from_ := fun id => max s.cap.runB (min w.m ((tfind w.lostFrom id).getD w.m))
    let s := srcs.foldl (fun s id => if from_ id < n then s.place id (recSelvedge selReset 1 r (from_ id) (n - from_ id)) else s) s
    let s := put s (fun x => !time x && !x.runBits.1 && !x.runBits.2)
    (put s (fun x => x.runBits.2), srcs.foldl (fun a id => max a ((n - from_ id) / 16)) 0)

/-- The region's decoders, state reduction and statistics from slot n on (R251, R497, R499). -/
def State.resumeRegion (s : State) (r : Nat) (n : SI) : State :=
  let s := s.modRegion r (fun g => { g with
    past := (List.range 256).filterMap (fun k => match tfind s.cells (256 * r + k) with
      | some c => if c.enable then some (k, [({ time := 0, level := c.level, settle := false } : PastEdge)]) else none
      | none => none)
    stats := g.stats.map (fun e => (e.1, { e.2 with gap := true })) })
  { s with engines := s.engines.map (fun e => if engRegion e.1 = r && e.2.works then
      (e.1, e.2.search n) else e) }

/-- The reset values of a region's own settings (R497, FLAGS.DEFAULTS): reductions, decoders, and the compression modes of its sources. -/
def State.defaultRegion (s : State) (r : Nat) : State :=
  let s := s.modRegion r (fun g => { g with cfg := {}, stats := [], statBuf := [], ended := [], clockBuf := [] })
  { s with
    engines := s.engines.filter (fun e => engRegion e.1 ≠ r)
    data := { s.data with sources := s.data.sources.map (fun e =>
      if decide (srcClass e.1 < 4) && srcRegion e.1 = r then (e.1, { e.2 with mode := 0 }) else e) } }

/-- Re-initialisation ends at frame boundary n (R497, step 4). -/
def State.endReset (s : State) (r : Nat) (n : SI) (w : RegionReset) : State :=
  let s := if n % 1048576 = 0 && s.time.running then s.anchorRecords n else s
  let e := if s.cap.runState = 2 then min n s.cap.runE else n
  let s := if w.defaults then s.defaultRegion r else s
  let (s, longest) := s.closeSpan r e (e = n && s.cap.runState ≠ 2 || e < s.cap.runE)
  let s := s.modRegion r (fun g => { g with rst := none, rstState := 0, gaps := ((w.m, n) :: g.gaps).take 4, resetSpan := some (w.m, n) })
  let s := (s.resumeRegion r n).raise (regionEvent r 14)
  match tfind s.safe.rstCtx r with
  | none => s
  | some c =>
    let s := { s with safe := { s.safe with rstCtx := tdel s.safe.rstCtx r } }
    s.complete c c.okStatus 0 [longest, w.discarded, w.dropped]

/-- REGION_REINIT_END. -/
def rowRegionReinitEnd (t : SI) (region : Fin 4) (s : State) : State :=
  let s := s.moment t
  match (s.region region.val).rst with
  | none => s
  | some w => if (s.region region.val).rstState = 2 then (s.endReset region.val s.boundary w) else s

/-- REGION_WATCHDOG: the writer has made no progress for 100 µs with input; the region is reset with a record of origin 3 (R496). -/
def rowRegionWatchdog (t : SI) (region : Fin 4) (s : State) : State :=
  let s := s.moment t
  if (s.region region.val).rst.isSome then s
  else
    let s := (s.raise (regionEvent region.val 15)).beginReset region.val s.boundary false
    (s.change firmware 0x0010 stOk (leBytes 1 region.val ++ leBytes 7 0) s.boundary)

/-- RESET_REGION returns BAD_PARAM (R508). -/
def resetRegionBad (p : List Byte) : Bool := !(p.length = 8) || !pIn p 0 1 0 3 || !pBits p 1 1 || !pZero p 2 6

/-- RESET_REGION's effect at M: its record now, its final entry at N (R497). -/
def resetRegionEffect (c : Ctx) (s : State) : State :=
  let r := pField c.params 0 1
  let s := s.beginReset r s.boundary (bit (pField c.params 1 1) 0)
  let s := s.change c.origin c.opcode c.okStatus c.params s.boundary
  { s with safe := { s.safe with rstCtx := tput s.safe.rstCtx r c } }

/-- A region that the reset state of R435's step 8 refuses. -/
def State.regionBusy (s : State) (r : Nat) : Bool := (s.region r).rst.isSome

end Sys2Proof.Machine
end

