-- ==== Sys2Proof/Machine/Run.lean ====
section
/-! DEFINITION. Runs (R228 to R230), and SET_REDUCTION, SET_LOOKBACK, SET_WINDOW_POLICY, EXPORT_WINDOW, START_RUN and STOP_RUN (R216, R233 to
R238). -/

namespace Sys2Proof.Machine

/-! ### The start of a run (R228) -/

/-- A region at the start of a run: statistics, state samples and buffers start afresh. -/
def State.freshRegion (s : State) (r : Nat) (b : SI) : State :=
  s.modRegion r (fun g => { g with
    samples := [], past := [], frameClocks := [], statBuf := [], ended := [], clockBuf := []
    rst := g.rst.map (fun w => { w with cut := false, lostFrom := [], held := [] }), statStart := b, stats := (s.statChannels r).map (fun k =>
      (k, s.freshStats r k b (b % statLen g.cfg.statLog2 ≠ 0))) })

/-- A block at the start of a run. -/
def Block.fresh (x : Block) (b : SI) : Block :=
  { x with align := [], entries := [], fill := 0, drained := b / 16, discardFrom := none }

/-- An interval unit at the start of a run: no pending start, and decimation from its first result. -/
def Ivl.fresh (u : Ivl) : Ivl := { u with buf := [], starts := [], stops := [], results := 0, queued := 0, dropFrames := [] }

/-- An engine at the start of a run: it searches from slot b as after enabling, from the levels that its inputs have. -/
def State.freshEngine (s : State) (n : Nat) (b : SI) : State :=
  if (s.engine n).works then
    s.modEngine n (fun e => { e.search b with
      st := e.fresh' b
      baseMark := []
      base := e.inputs.map (fun i => match i with
        | some k => (s.cell (256 * engRegion n + k)).level
        | none => false) })
  else s

/-- The edges of slots from b on that were processed before the run began: each channel's level before its first one, then the edges (R207, R228). -/
def State.takeEarly (s : State) (b : SI) : State :=
  let es := s.cap.early.filter (fun e => decide (b ≤ e.time / 64))
  let s := { s with cap := { s.cap with early := [] } }
  let s := es.foldr (fun e s => s.beforeRun { e with time := 64 * b - 1, level := !e.level }) s
  es.foldl State.tapEdge s

/-- A run begins at boundary b. -/
def State.startRun (s : State) (b : SI) (runId : Nat) : State :=
  let s : State := { s with
    cap := { s.cap with runState := 1, runId := runId, runB := b, flushed := false, ending := false, endAnchor := none }
    cells := s.cells.map (fun (e : Nat × Cell) => (e.1, { e.2 with levelAtEnable := e.2.level }))
    blocks := s.blocks.map (fun e => (e.1, e.2.fresh b))
    cutEngines := []
    ivls := s.ivls.map (fun e => (e.1, e.2.fresh))
    seq0 := { s.seq0 with levels := s.seq0.levels.filter (fun e => decide (4096 ≤ e.1)), edges := [] } }
  let s := (List.range 4).foldl (fun s r => if (tfind s.regions r).isSome then s.freshRegion r b else s) s
  let s := (s.engines.map (fun e => e.1)).foldl (fun s n => s.freshEngine n b) s
  let s := if b % 1048576 = 0 then s.anchorRecords b true else s.putAnchor b true false
  (s.takeEarly b).raise 12

/-- START_RUN returns BAD_PARAM. -/
def startRunBad (p : List Byte) : Bool := !(p.length = 8) || !pZero p 4 4

/-- START_RUN returns BAD_STATE (R238). -/
def startRunBadState (s : State) : Bool := s.cap.runState = 1 || !s.dram.trained

/-- START_RUN in effect at the present boundary. -/
def startRunEffect (c : Ctx) (s : State) : State := (s.startRun s.boundary (pField c.params 0 4)).finish c []

/-- START_RUN is held while the run shuts down (R230). -/
def startRunHold (c : Ctx) (s : State) : State := { s with cmd := { s.cmd with deferredStart := some c } }

/-! ### The stop of a run (R229) -/

/-- STOP_RUN in effect: the run stops; deferred START_RUN and ARM are cancelled (R439, R440). -/
def stopRunEffect (c : Ctx) (s : State) : State :=
  let arm := s.cmd.deferredArm
  let start := s.cmd.deferredStart
  let s := { s with cmd := { s.cmd with deferredArm := none, deferredStart := none } }
  let s := if s.cap.runState = 1 then s.stopRunAt s.boundary else s
  ((s.cancelDeferred arm).cancelDeferred start).finish c []

/-- Statistics windows of region r up to slot e: complete ones, and the one in progress cut short. -/
def State.endAllStats (s : State) (r : Nat) (e : SI) : State :=
  let s := s.finishEnded r e
  if !(s.region r).cfg.statsOn then s
  else
    let g := s.region r
    let n := (e - g.statStart) / statLen g.cfg.statLog2 + 1
    let s := (List.range n).foldl (fun s _ => if (s.region r).statEnd ≤ e then s.nextStats r (s.region r).statEnd else s) s
    let s := s.advanceStats r (64 * e)
    let s := if (s.region r).statStart < e then s.endStats r ((s.region r).stats.map (fun x => x.1)) e true false else s
    s.modRegion r (fun g => { g with stats := [], statBuf := [] })

/-- The pending starts of a unit at a run's end: one that an earlier stop serves gives its result, since no later stop comes; the others are dropped and
not counted in TIMEOUT (DESIGN CHOICE, notes/assumptions/61.md). -/
def Ivl.finish (u : Ivl) : Ivl × List IvlResult :=
  if u.pairing then
    ({ u with starts := [] }, u.starts.filterMap (fun s => (u.earlier s).map (fun e => ({ start := s, stop := e, frame := s.time / 1024 } : IvlResult))))
  else ({ u with starts := [] }, [])

/-- Interval unit n up to slot e. -/
def State.endIvl (s : State) (n : Nat) (e : SI) : State :=
  let s := s.advanceIvl n (64 * e)
  let (u, rs) := (s.ivl n).finish
  rs.foldl (fun s x => s.ivlResult n x) (s.modIvl n (fun _ => { u with buf := [] }))

/-- A region in a reset at the run's end: its selvedge ends at E − 1, and the reset goes on (R499). The run's last records are placed in its sources then, not
at N (DESIGN CHOICE, notes/assumptions/68.md). -/
def State.cutReset (s : State) (r : Nat) (e : SI) : State :=
  match (s.region r).rst with
  | none => s
  | some w =>
    let (s, longest) := s.closeSpan r e false
    s.modRegion r (fun g => { g with rst := some { w with held := [], cut := true, longest := longest } })

/-- The ANCHOR of E with RUN_END. -/
def Rec.asRunEnd (r : Rec) : Rec :=
  match r.words with
  | [] => r
  | h :: rest => { r with words := (h ||| 0x200000#64) :: rest }

/-- The last records of every active source: at an anchor boundary any TIMESTEP of E and its ANCHOR, which the directory then holds with RUN_END (R229). -/
def State.placeEnd (s : State) (e : SI) : State :=
  let s := { s with cap := { s.cap with ending := true } }
  if e % 1048576 ≠ 0 then s.placeActive (s.cap.endAnchor.getD (recAnchor s.time e false true))
  else
    let s := s.anchorRecords e
    let s := (s.data.stepRecs.filter (fun x => x.1 = e)).foldl (fun s x => s.placeActive x.2) s
    match (s.data.anchors.find? (fun x => x.1 = e)).map (fun x => x.2.asRunEnd) with
    | none => s
    | some r => ({ s with data := { s.data with anchors := s.data.anchors.map (fun x => if x.1 = e then (e, r) else x) } } : State).placeActive r

/-- Everything of slots below e is placed, then the RUN_END ANCHOR, and every segment is closed. -/
def State.flushRun (s : State) (e : SI) : State :=
  let s := s.advanceBlocks
  let bs := s.blocks.map (fun x => x.1)
  let s := bs.foldl (fun s b => (s.flushBlock b).blockSelvedge b e) s
  let s := (s.abandonIn (fun _ => true) e).drainMessages (fun _ => true)
  let s := (List.range 4).foldl (fun s r =>
    let s := s.drainClocks r e
    (s.region r).samples.foldl (fun s x => s.finishSample r x) s) s
  let s := (List.range 4).foldl (fun s r => s.endAllStats r e) s
  let s := ((s.ivls.filter (fun u => u.2.enable)).map (fun u => u.1)).foldl (fun s n => s.endIvl n e) s
  let s := match s.time.gatedFrom with
    | some a => s.gatedRecord a e
    | none => s
  let s := (List.range 4).foldl (fun s r => (s.stagingSelvedge r e).cutReset r e) s
  let s := s.placeEnd e
  let s := (List.range 4).foldl (fun s r => s.closeRegion r) s
  { s with cap := { s.cap with flushed := true } }

/-- Every region writer has committed its segments, and staging has written them to DRAM. -/
def State.runDrained (s : State) : Bool :=
  (List.range 4).all (fun r => (s.region r).closed = []) && s.data.staging.all (fun g => g.inDram || decide (4 ≤ srcClass g.seg.source))

/-- The deferred START_RUN takes effect at the present boundary, with the outcome of R435's steps there (R230, R439). -/
def State.releaseStart (s : State) : State :=
  match s.cmd.deferredStart with
  | none => s
  | some c =>
    let s := ({ s with cmd := { s.cmd with deferredStart := none } } : State).unreserve 2
    if s.inDoubt then s.complete c stDoubt 0 []
    else if startRunBadState s then s.complete c stBadState 0 []
    else startRunEffect c s

/-- The final SIGNATURE of every active stream at the end of a run's shut-down (R322). -/
def State.signAll (s : State) : State :=
  ((s.streams.filter (fun e => e.2.active && !e.2.closing)).map (fun e => e.1)).foldl (fun s n => s.sign n) s

/-- The run is IDLE (R229). -/
def State.endRun (s : State) : State :=
  let s := s.signAll
  (({ s with
    cap := { s.cap with runState := 0, flushed := false, pastRuns := (s.cap.runB, s.cap.runE) :: s.cap.pastRuns }
    dram := { s.dram with idleSince := s.time.si } } : State).raise 13).releaseStart

/-- RUN_SHUTDOWN_END: what lies below E is placed once the sequencer's shut-down has ended and the alignment buffers have passed E; the run
ends once all of it is in DRAM. -/
def rowRunShutdownEnd (t : SI) (s : State) : State :=
  let s := s.moment t
  if s.cap.runState ≠ 2 || s.seq0.stopAt.isSome || decide (s.time.si < s.cap.runE + 64) then s
  else
    let s := if s.cap.flushed then s else s.flushRun s.cap.runE
    if s.runDrained then s.endRun else s

/-! ### SET_REDUCTION (R216, R233) -/

/-- The regions that a REGION field names. -/
def redRegions (p : List Byte) : List Nat := if pField p 0 1 = 255 then List.range 4 else [pField p 0 1]

/-- Bits set in a mask. -/
def popCount (m : BitVec 256) : Nat := ((List.range 256).filter (fun k => m.getLsbD k)).length

/-- Bytes of a body. -/
def redBody (red : Nat) : Nat := if red = 1 then 48 else if red = 2 then 40 else 8

/-- SET_REDUCTION returns BAD_PARAM (R233, R238). -/
def setReductionBad (p : List Byte) : Bool :=
  let red := pField p 1 1
  let on := bit (pField p 2 1) 0
  !(decide (pField p 0 1 < 4) || pField p 0 1 = 255) || !pIn p 1 1 0 3 || !pBits p 2 1 || !pIn p 3 1 0 (if red = 1 then 15 else 0) || !pZero p 4 4 ||
    !(p.length = 8 + redBody red) ||
    (match red with
     | 0 => !on || !pIn p 8 1 0 4 || !pZero p 9 7
     | 1 => on && (!pIn p 9 1 0 2 || !pIn p 10 2 0 1024 || !pIn p 12 2 0 1024 || !decide (-1024 ≤ pInt p 14 2 ∧ pInt p 14 2 ≤ 1023) ||
         !pZero p 16 8 || decide (64 < popCount (pMask p 24)))
     | 2 => on && (!pIn p 8 1 12 24 || !pZero p 9 7)
     | _ => on && !pZero p 10 6)

/-- SET_REDUCTION returns BAD_STATE. -/
def setReductionBadState (s : State) (p : List Byte) : Bool := pField p 1 1 = 0 && s.cap.runState = 1

/-- State clock k of region r redefined or disabled at slot b. -/
def State.setClock (s : State) (r k : Nat) (c : Option StateClock) (b : SI) : State :=
  (s.drainClocks r b).modRegion r (fun g => { g with
    oldClocks := if g.clocksAt = b then g.oldClocks else g.cfg.clocks
    clocksAt := b
    cfg := { g.cfg with clocks := match c with
      | some x => tput g.cfg.clocks k x
      | none => tdel g.cfg.clocks k } })

/-- Statistics of region r set at slot b: what a change ends gives PARTIAL records, what it begins starts PARTIAL (R216). -/
def State.setStats (s : State) (r : Nat) (on : Bool) (log2 : Nat) (mask : BitVec 256) (b : SI) : State :=
  let s := (s.finishEnded r (s.time.si - 48)).advanceStats r (64 * (s.time.si - 48))
  let g := s.region r
  let running := s.cap.runState = 1
  let log2 := if on then log2 else g.cfg.statLog2
  let mask := if on then mask else g.cfg.chMask
  let set := fun (s : State) => s.modRegion r (fun g => { g with cfg := { g.cfg with statsOn := on, statLog2 := log2, chMask := mask } })
  if !running then set s
  else
    let resized := on && g.cfg.statsOn && log2 ≠ g.cfg.statLog2
    let old := g.stats.map (fun e => e.1)
    let full := g.cfg.statsOn && decide (g.statEnd ≤ b)
    let s := if full then (s.cutStats r old g.statEnd false true).modRegion r (fun x => { x with statStart := g.statEnd }) else s
    let gone := old.filter (fun k => !on || !mask.getLsbD k)
    let s := (if resized then s.cutStats r (old.filter (fun k => !gone.contains k)) b true true else s).cutStats r gone b true false
    let s := set s
    let s := s.modRegion r (fun g => { g with
      statStart := if resized || !(s.region r).cfg.statsOn || old = [] then b else g.statStart
      stats := g.stats.filter (fun e => !gone.contains e.1) })
    let added := (s.statChannels r).filter (fun k => (tfind (s.region r).stats k).isNone)
    s.modRegion r (fun g => { g with stats := added.foldl (fun t k => tput t k (s.freshStats r k b true)) g.stats })

/-- SET_REDUCTION at boundary b. -/
def setReduction (p : List Byte) (s : State) : State :=
  let b := s.boundary
  let on := bit (pField p 2 1) 0
  (redRegions p).foldl (fun s r =>
    match pField p 1 1 with
    | 0 => s.modRegion r (fun g => { g with cfg := { g.cfg with trnGroupsLog2 := pField p 8 1 } })
    | 1 =>
      let c : StateClock := { clk := pField p 8 1, slope := pField p 9 1, setup := pField p 10 2, hold := pField p 12 2, ofs := pInt p 14 2, mask := pMask p 24 }
      s.setClock r (pField p 3 1) (if on then some c else none) b
    | 2 => s.setStats r on (pField p 8 1) (pMask p 16) b
    | _ => s.modRegion r (fun g => { g with
        oldEng := if g.engAt = b then g.oldEng else g.cfg.engMask
        engAt := b
        cfg := { g.cfg with engMask := if on then BitVec.ofNat 16 (pField p 8 2) else 0 } })) s

/-! ### SET_LOOKBACK, SET_WINDOW_POLICY (R234, R235) -/

/-- SET_LOOKBACK returns BAD_PARAM. -/
def setLookbackBad (s : State) (p : List Byte) : Bool :=
  let shares := (List.range 4).map (fun r => pField p (8 + r) 1)
  !(p.length = 24) || !pIn p 0 4 1 1024 || !pIn p 4 4 1 1024 || shares.any (fun x => decide (x < 1) || decide (61 < x)) || shares.sum ≠ 64 ||
    !pIn p 12 1 0 75 || !pZero p 13 11 || decide (s.dram.free < pField p 0 4 + pField p 4 4)

/-- SET_LOOKBACK returns BAD_STATE. -/
def setLookbackBadState (s : State) : Bool := s.cap.runState ≠ 0 || s.cap.slots.any (fun w => decide (2 ≤ w.2.state))

/-- A ring whose content is discarded at slot b. -/
def DramRing.discard (x : DramRing) (b : SI) : DramRing := { x with segs := [], gone := (List.range 4).map (fun r => (r, b)) }

/-- Both rings lose their content (R234). -/
def State.discardRings (s : State) (b : SI) : State :=
  { s with data := { s.data with
      lookback := (List.range 4).map (fun r => (r, ((tfind s.data.lookback r).getD {}).discard b))
      reduction := s.data.reduction.discard b } }

/-- SET_LOOKBACK: a change discards the content of both rings. -/
def setLookback (p : List Byte) (s : State) : State :=
  let c := { s.cap with lbGib := pField p 0 4, redGib := pField p 4 4, share := (List.range 4).map (fun r => pField p (8 + r) 1), pinLimit := pField p 12 1 }
  let changed := c ≠ s.cap
  let s := { s with cap := c }
  if changed then s.discardRings s.boundary else s

/-- SET_WINDOW_POLICY returns BAD_PARAM. -/
def setWindowPolicyBad (p : List Byte) : Bool :=
  !(p.length = 24) || !pIn p 0 1 0 15 || !pBits p 1 2 || !pBits p 2 4 || !pBits p 3 4 || !pZero p 4 4 || !pIn p 8 8 0 (2 ^ 40) || !pIn p 16 8 0 (2 ^ 40)

/-- SET_WINDOW_POLICY. -/
def setWindowPolicy (p : List Byte) (s : State) : State :=
  let f := pField p 1 1
  { s with cap := { s.cap with policies := tput s.cap.policies (pField p 0 1) ({
      valid := bit f 0, merge := bit f 1, regions := pField p 2 1, red := pField p 3 1, pre := pField p 8 8, post := pField p 16 8 } : WPolicy) } }

/-! ### EXPORT_WINDOW (R236) -/

/-- EXPORT_WINDOW returns BAD_PARAM. -/
def exportWindowBad (p : List Byte) : Bool :=
  !(p.length = 32) || decide (pField p 8 8 < pField p 0 8) || !pIn p 16 1 0 15 || !pBits p 17 4 || !pBits p 18 4 || !pZero p 19 13

/-- The window of job j opens in slot k. An end beyond the stop of its run is limited to that stop; slots that lie in no run are covered by
RUN_START. -/
def State.openExport (s : State) (k j : Nat) (p : List Byte) : State :=
  let a := floor16 (pField p 0 8)
  let e := floor16 (pField p 8 8) + 15
  let (b, limit) := match s.cap.runOf a with
    | none => (e + 1, none)
    | some (b, stop) => (b, stop)
  let cut := limit.any (fun y => decide (y ≤ e))
  s.openSlot k { state := 2, policy := pField p 16 1, regions := pField p 17 1, red := pField p 18 1, exportJob := some j, t := pField p 0 8,
                 post := pField p 8 8 - pField p 0 8, reqStart := a,
                 reqEnd := if cut then limit.getD 0 - 1 else e, stopped := cut } b

/-- EXPORT_WINDOW: a job that runs at once where a slot is free and no other export waits. -/
def exportWindowEffect (c : Ctx) (s : State) : State :=
  let waits := s.cmd.jobs.any (fun j => j.ctx.opcode = 0x0510 && j.state = .queued)
  match if waits then none else s.cap.freeSlot with
  | none => s.startJob c .queued 0
  | some k =>
    let id := s.cmd.nextJob
    (s.startJob c .running 0).openExport k id c.params

/-- A queued EXPORT_WINDOW takes a free slot. -/
def State.dequeueExport (s : State) (j : Job) : State :=
  match s.cap.freeSlot with
  | none => s
  | some k => (s.modJob j.id (fun x => { x with state := .running })).openExport k j.id j.ctx.params

/-- The slot of export job j. -/
def State.exportSlot (s : State) (j : Nat) : Option (Nat × WSlot) := s.cap.slots.find? (fun w => w.2.exportJob = some j)

/-- Result words of an export (R236). -/
def exportWords (w : WSlot) : List Nat := [w.id, w.selvedges, w.frames]

/-- A cancelled export closes its window with CANCELLED; answers its result words, the selvedges of the window's head among them. -/
def State.cancelExport (s : State) (j : Nat) : State × List Nat :=
  match s.exportSlot j with
  | none => (s, [])
  | some (k, w) => (s.closeWindow k w true, exportWords { w with selvedges := w.selvedges + s.headSelvedges w })

end Sys2Proof.Machine
end

