-- ==== Sys2Proof/Machine/Cascade.lean ====
section
/-! DEFINITION. The cascade (05_baste_and_cascade.md): link control, messages received, retro-tacks, remote bastes, cascade commands, discovery, and
SET_UNIT, SET_PORT_ROLE and CASCADE_DISCOVER. -/

namespace Sys2Proof.Machine

/-! ### Link control (R180, R181, R183) -/

/-- Unacknowledged messages are sent again from the first (R183); 16 retransmissions of one message take the link down (R181). -/
def State.retransmit (s : State) (n : Nat) : State :=
  let p := s.port n
  if p.unacked = [] then s
  else if 15 ≤ p.sameRetry then s.modPort n (fun p => { p with ackAt := s.time.si, retry := satInc 8 p.retry, sameRetry := 16, state := 5, fell := true })
  else
    let s := s.modPort n (fun p => { p with ackAt := s.time.si, retry := satInc 8 p.retry, sameRetry := p.sameRetry + 1 })
    p.unacked.foldl (fun s m => (s.transmit n m.type m.msg).stampSent m.type m.msg) s

/-- Messages up to the acknowledged LINK_SEQ leave the sender's store. -/
def ackedUpTo (l : List OutMsg) (seq : BitVec 8) : List OutMsg :=
  if l.any (fun m => m.msg.linkSeq = seq) then (l.dropWhile (fun m => m.msg.linkSeq ≠ seq)).drop 1 else l

/-- What an IDLE acknowledges on a link that is up. -/
def State.takeAck (s : State) (n : Nat) (w : IdleBlock) : State :=
  let p := s.port n
  let left := if w.ackValid then ackedUpTo p.unacked w.ackSeq else p.unacked
  let acks := decide (left.length < p.unacked.length)
  let s := s.modPort n (fun p => { p with
    unacked := left, sameRetry := if acks then 0 else p.sameRetry, ackAt := if acks then s.time.si else p.ackAt })
  let s := if w.nak then s.retransmit n else s
  s.sendQueued n 64

/-- The link of port n is up (R181, R187, R197). -/
def State.linkUp (s : State) (n : Nat) (w : IdleBlock) : State :=
  let p := s.port n
  let was := p.linkDoubt
  let s := (s.modPort n (fun p => { p with state := 2, peer := w.unitId, fell := false, txSeq := 0, rxValid := false, nak := false, sameRetry := 0 })).raise 48
  if p.role = 1 then
    let s := ((s.setDepth (w.depth.val + 1)).closePort n 0).closePort n 1
    if was ≠ 0 then s.sendDown 8 (s.status 4 0) else s
  else (s.closePort n 0).closePort n 1

/-- A training port shows state k, with its event where it is new. -/
def State.trainState (s : State) (n k ev : Nat) : State :=
  let new := (s.port n).state ≠ k
  (s.modPort n (fun p => { p with state := k, idles := 0 })).raiseIf new ev

/-- The depth that the downstream end announces, as this end of the link knows it. -/
def State.linkDepth (s : State) (n : Nat) (w : IdleBlock) : Nat := if (s.port n).role = 1 then w.depth.val else s.cas.depth

/-- An IDLE received on a port whose link is not up. The port answers each with its own (DESIGN CHOICE, notes/assumptions/47.md); the link is up after 16 in
each direction. -/
def State.trainIdle (s : State) (n : Nat) (w : IdleBlock) : State :=
  let p := s.port n
  let d := s.linkDepth n w
  if w.role.val = 0 || w.role.val = 3 || p.role + w.role.val ≠ 3 then s.trainState n 3 50
  else if d = 7 then s.modPort n (fun p => { p with state := 1, idles := 0, peerDepth := w.depth.val })
  else if 3 < d then s.trainState n 4 51
  else
    let s := s.modPort n (fun p => { p with state := 1, idles := p.idles + 1, peerRole := w.role.val, peerDepth := w.depth.val })
    let s := s.sendIdle n
    if decide (16 ≤ (s.port n).idles) && decide (16 ≤ (s.port n).idlesTx) then s.linkUp n w else s

/-- IDLE: the control block keeps the link's state (R180). -/
def execIdle (t : SI) (port : Fin 16) (w : IdleBlock) (s : State) : Host.Outcome State Fault Refusal :=
  let s := s.moment t
  let n := port.val
  let p := s.port n
  if p.role = 0 || !p.blockLock || p.fell then .next s
  else if p.up then
    let s := s.modPort n (fun p => { p with peer := w.unitId, peerDepth := w.depth.val })
    let s := if p.role = 1 && decide (w.depth.val ≤ 3) then s.setDepth (w.depth.val + 1) else s
    .next (s.takeAck n w).announce
  else .next (s.trainIdle n w).announce

/-- BLOCK_LOCK_ACHIEVED. -/
def execBlockLockAchieved (t : SI) (port : Fin 16) (s : State) : Host.Outcome State Fault Refusal :=
  let s := s.moment t
  if (s.port port.val).role = 0 then .next s
  else .next (s.modPort port.val (fun p => { p with blockLock := true, lockLostAt := none }))

/-- BLOCK_LOCK_LOSS: the 1 µs that takes the link down begins. -/
def execBlockLockLoss (t : SI) (port : Fin 16) (s : State) : Host.Outcome State Fault Refusal :=
  let s := s.moment t
  if (s.port port.val).blockLock then
    .next (s.modPort port.val (fun p => { p with blockLock := false, lockLostAt := some s.time.si, idles := 0 }))
  else .next s

/-- The cause of R181 holds. -/
def State.linkFalls (s : State) (n : Nat) (cause : LinkDownCause) : Bool :=
  let p := s.port n
  match cause with
  | .blockLock => p.up && p.lockLostAt.any (fun x => decide (x + slotsOfNs s.time.ref.rateKhz 1000 ≤ s.time.si))
  | .retransmission => p.fell
  | .queueOverflow => p.fell
  | .roleChange => p.up

/-- CASCADE_LINK_DOWN. -/
def execCascadeLinkDown (t : SI) (port : Fin 16) (cause : LinkDownCause) (s : State) : Host.Outcome State Fault Refusal :=
  let s := s.moment t
  if s.linkFalls port.val cause then .next (s.portDown port.val).announce else .next s

/-- RETRANSMIT_TIMEOUT: 2 µs without an acknowledgement (R183). -/
def execRetransmitTimeout (t : SI) (port : Fin 16) (s : State) : Host.Outcome State Fault Refusal :=
  let s := s.moment t
  let p := s.port port.val
  if p.up && decide (p.ackAt + slotsOfNs s.time.ref.rateKhz 2000 ≤ s.time.si) then .next (s.retransmit port.val) else .next s

/-- The ports on which a message that arrives is forwarded. -/
def State.routes (s : State) (m : CasMsg) : List Nat :=
  if m.dir.val = 0 then (if s.cas.role = 2 then s.cas.upPort.toList else s.cas.downPorts) else if m.dir.val = 1 then s.cas.downPorts else []

/-- The copy that a cut-through has begun goes out with its CRC inverted, where the port could begin it at once. It takes no LINK_SEQ: the good copy
that follows has the same (DEDUCED, notes/assumptions/47.md). -/
def State.spoilCopy (s : State) (type : Nat) (m : CasMsg) : State :=
  (s.routes m).foldl (fun s n =>
    let p := s.port n
    if p.up && p.queue = [] && decide (p.unacked.length < 64) then
      s.putBlocks n (Posted.badCopy n type { m with linkSeq := p.txSeq, dir := if p.role = 1 then 0 else 1 })
    else s) s

/-- BAD_CRC_MESSAGE: discarded, counted and answered with NAK; `cut` is the message that a cut-through had begun to forward (R183, R204). -/
def execBadCrcMessage (t : SI) (port : Fin 16) (cut : Option (Fin 16 × CasMsg)) (s : State) : Host.Outcome State Fault Refusal :=
  let s := s.moment t
  if !(s.port port.val).up then .next s
  else
    let s := (s.modPort port.val (fun p => { p with crcErr := satInc 8 p.crcErr })).refuseMessage port.val
    .next (match cut with
      | none => s
      | some (type, m) => s.spoilCopy type.val m).announce

/-! ### Retro-tacks (R192, R193) -/

/-- SI, reported ST and rate of an ANCHOR record. -/
def Rec.anchorMap (r : Rec) : SI × Nat × Nat :=
  let w := fun k => (r.words.getD k 0).toNat
  (w 1, w 2 + w 3 % 2 ^ 32 * 2 ^ 64, w 4)

/-- The fine time of a reported ST by an anchor: rounded to a fine LSB, halves up (R192). -/
def fineTimeOf (a : SI × Nat × Nat) (st : Nat) : Int :=
  let d := toSigned 96 (st + 2 ^ 96 - a.2.1) * 4294967296
  64 * (a.1 : Int) + (2 * 64 * d + a.2.2) / (2 * (a.2.2 : Int))

/-- A reported ST lies before slot x on the map of anchor a, unrounded (R192). -/
def liesBefore (a : SI × Nat × Nat) (st : Nat) (x : SI) : Bool :=
  decide (toSigned 96 (st + 2 ^ 96 - a.2.1) * 4294967296 < ((x : Int) - a.1) * a.2.2)

/-- The anchors of the present generation, latest first, and the latest of the one before. -/
def State.anchorsNow (s : State) : List (SI × Rec) × Option (SI × Rec) :=
  let mine := s.data.anchors.takeWhile (fun e => e.2.anchorGen = s.time.tgen.toNat)
  (mine, (s.data.anchors.drop mine.length).head?)

/-- The receiver's fine time of a tack ST (R192). -/
def State.retroTime (s : State) (st : Nat) : FineTime :=
  let (mine, before) := s.anchorsNow
  match mine.head? with
  | none => (fineTimeOf (s.time.map.si0, stReport s.time.map.st0, s.time.map.rate / 2 ^ 64) st).toNat
  | some a =>
    let x := (fineTimeOf a.2.anchorMap st).toNat
    let first := ((mine.getLast?).map (fun e => e.1)).getD 0
    match before with
    | some b => if liesBefore a.2.anchorMap st first then (fineTimeOf b.2.anchorMap st).toNat else x
    | none => x

/-- A delivery that finds no active run (R192). -/
def State.retroNoRun (s : State) : State :=
  ({ s with cas := { s.cas with retroNoRun := satInc 16 s.cas.retroNoRun } } : State).raise 62

/-- A retro-tack of a FIRE or, with `sew`, of a SEW whose baste holds window slot `slot` (R193). -/
def State.retroTack (s : State) (m : CasMsg) (forced sew : Bool) (slot : Option Nat) : State :=
  let u := s.retroTime (CasMsg.st m)
  let ref : TackRef := { si := u / 64, fine := u % 64, seq := 0, kind := 3, origin := m.origin.toNat, number := m.a.toNat }
  let coasting := m.flags.getLsbD 1 || s.time.coastingAt (u / 64)
  let s := s.placeActive (recTack ref s.cas.retroWin forced false false false coasting 0 0 0)
  let s := s.modSeq 0 (fun q => { q with lastStitch := 0, lastBranch := 0, lastKind := 3, lastFine := u % 64, lastSi := u / 64 })
  let s := s.pulse (fun _ p => bit p.source srcRetro && !(sew && p.basted)) u s.boundary none
  let s := if !s.cas.retroWin then s.releaseWindow slot
    else match slot with
      | some w => s.openReserved w ref
      | none => s.requestWindow s.cas.retroWpol ref
  s.raise 139

/-- A FIRE or SEW is delivered: counted, event 55, and a CASCADE occurrence (R129, R193). -/
def State.fireDelivered (s : State) (m : CasMsg) : State :=
  (({ s with cas := { s.cas with fireRx := satInc 16 s.cas.fireRx } } : State).raise 55).seqCascade 2 m.origin.toNat

/-- FIRE. -/
def execFire (t : SI) (port : Fin 16) (m : CasMsg) (s : State) : Host.Outcome State Fault Refusal :=
  let (s, ok) := (s.moment t).accept port.val m
  if !ok then .next s
  else
    let (s, mine) := s.forward 3 m
    if !mine then .next s
    else
      let s := s.fireDelivered m
      if s.cap.runState ≠ 1 then .next s.retroNoRun else .next (s.retroTack m (m.flags.getLsbD 0) false none)

/-! ### Remote bastes (R194, R195) -/

/-- A baste that arrived from below is tracked with its port (R195). -/
def State.track (s : State) (port : Nat) (m : CasMsg) : State :=
  if m.dir ≠ 0 || 256 ≤ s.cas.forwarded.length then s
  else { s with cas := { s.cas with forwarded := s.cas.forwarded ++ [{ origin := m.origin.toNat, number := m.d.toNat, port := port, st := CasMsg.st m }] } }

/-- A baste is resolved and no longer tracked. -/
def State.untrack (s : State) (m : CasMsg) : State :=
  { s with cas := { s.cas with forwarded := s.cas.forwarded.filter (fun e => e.origin ≠ m.origin.toNat || e.number ≠ m.d.toNat) } }

/-- The stored remote baste of a message's key. -/
def State.remoteOf (s : State) (m : CasMsg) : Option RemoteBaste :=
  s.cas.remote.find? (fun r => r.origin = m.origin.toNat && r.number = m.d.toNat)

/-- A BASTE is delivered (R175, R194). -/
def State.basteDelivered (s : State) (m : CasMsg) : State :=
  let u := s.retroTime (CasMsg.st m)
  let s := s.seqCascade 3 m.origin.toNat
  let s := s.pulse (fun _ p => bit p.source srcRetro && p.basted) u s.boundary (some (m.origin.toNat, m.d.toNat))
  let record := fun (slot : Option Nat) =>
    recBaste (u / 64) (u % 64) 0 0 0 m.d.toNat m.origin.toNat (1024 * m.a.toNat) slot.isSome true false false
  if 256 ≤ s.cas.remote.length then
    (({ s with cas := { s.cas with storeFull := satInc 16 s.cas.storeFull } } : State).raise 142).placeProvisional (record none)
  else
    let asks := s.cas.preopen && s.cas.retroWin && s.cap.runState = 1
    let (s, slot) := if asks then s.reserveWindow s.cas.retroWpol (u / 64) else (s, none)
    let r : RemoteBaste := { origin := m.origin.toNat, number := m.d.toNat, st := CasMsg.st m, tgen := s.time.tgen, a := m.a.toNat, si := u / 64, fine := u % 64, slot := slot }
    let s := { s with cas := { s.cas with remote := s.cas.remote.filter (fun (x : RemoteBaste) => x.origin ≠ r.origin || x.number ≠ r.number) ++ [r] } }
    s.placeProvisional (record slot)

/-- BASTE_MESSAGE. -/
def execBasteMessage (t : SI) (port : Fin 16) (m : CasMsg) (s : State) : Host.Outcome State Fault Refusal :=
  let (s, ok) := (s.moment t).accept port.val m
  if !ok then .next s
  else
    let (s, mine) := (s.track port.val m).forward 4 m
    if mine then .next (s.basteDelivered m) else .next s

/-- A SEW is delivered: SEW record and retro-tack. -/
def State.sewDelivered (s : State) (m : CasMsg) : State :=
  let slot := (s.remoteOf m).bind (fun r => r.slot)
  let s := { s with cas := { s.cas with remote := s.cas.remote.filter (fun (x : RemoteBaste) => x.origin ≠ m.origin.toNat || x.number ≠ m.d.toNat) } }
  let s := (s.fireDelivered m).resolvePins (m.origin.toNat, m.d.toNat)
  let s := s.placeProvisional (recSew s.boundary 0 0 m.d.toNat m.origin.toNat m.a.toNat true)
  if s.cap.runState ≠ 1 then (s.releaseWindow slot).retroNoRun else s.retroTack m false true slot

/-- SEW_MESSAGE. -/
def execSewMessage (t : SI) (port : Fin 16) (m : CasMsg) (s : State) : Host.Outcome State Fault Refusal :=
  let (s, ok) := (s.moment t).accept port.val m
  if !ok then .next s
  else
    let (s, mine) := (s.untrack m).forward 5 m
    if mine then .next (s.sewDelivered m) else .next s

/-- An UNPICK is delivered: the record is placed whether or not the baste is stored. -/
def State.unpickDelivered (s : State) (m : CasMsg) : State :=
  let reason := m.a.toNat % 8
  match s.remoteOf m with
  | some r => s.unpickRemote r reason s.boundary
  | none => (s.placeProvisional (recUnpick s.boundary 0 0 reason m.d.toNat m.origin.toNat true)).unpickPins (m.origin.toNat, m.d.toNat)

/-- UNPICK_MESSAGE. -/
def execUnpickMessage (t : SI) (port : Fin 16) (m : CasMsg) (s : State) : Host.Outcome State Fault Refusal :=
  let (s, ok) := (s.moment t).accept port.val m
  if !ok then .next s
  else
    let (s, mine) := (s.untrack m).forward 6 m
    if mine then .next (s.unpickDelivered m) else .next s

/-- The unit's latest ANCHOR: of an anchor boundary, of a run's start or end, or the one that resumed a region's sources (R287). -/
def State.latestAnchor (s : State) : Option Rec :=
  (s.data.anchors.head?.map (fun e => e.2)).toList ++ (s.data.resumed.map (fun e => e.2)).toList ++ s.cap.endAnchor.toList
    |>.foldl (fun (a : Option Rec) r => if a.any (fun x => decide (r.anchorMap.1 ≤ x.anchorMap.1)) then a else some r) none

/-- The RATE of the latest ANCHOR, in 2^-88 epoch per slot, by which durations in slots become ST (R287, R567); nominal before the first. -/
def State.anchorRate (s : State) : Nat := ((s.latestAnchor).map (fun r => r.anchorMap.2.2)).getD (s.time.nominalRate / 2 ^ 64)

/-- The reported ST at which a remote baste expires (R195): its tack ST, A × 1,024 slots and 1 ms. -/
def State.expiry (s : State) (r : RemoteBaste) : Nat :=
  r.st + r.a * 1024 * s.anchorRate / 2 ^ 32 + (s.time.ofPs 1000000000 / (stUnit : Int)).toNat

/-- REMOTE_BASTE_EXPIRY. -/
def execRemoteBasteExpiry (t : SI) (origin : BitVec 14) (number : BitVec 16) (s : State) : Host.Outcome State Fault Refusal :=
  let s := s.moment t
  match s.cas.remote.find? (fun r => r.origin = origin.toNat && r.number = number.toNat) with
  | none => .next s
  | some r => if s.expiry r ≤ s.stNow s.boundary then .next (s.unpickRemote r 4 s.boundary) else .next s

/-- DOUBT_MESSAGE (R196). -/
def execDoubtMessage (t : SI) (port : Fin 16) (m : CasMsg) (s : State) : Host.Outcome State Fault Refusal :=
  let (s, ok) := (s.moment t).accept port.val m
  if !ok then .next s
  else
    let (s, mine) := s.forward 9 m
    let u := m.origin.toNat
    if !mine then .next s
    else if m.flags.getLsbD 0 then
      .next ((({ s with cas := { s.cas with doubtUnits := ninsert s.cas.doubtUnits u } } : State).raise 56).seqCascade 4 u)
    else .next ((({ s with cas := { s.cas with doubtUnits := s.cas.doubtUnits.filter (fun x => x ≠ u) } } : State).raise 57).seqCascade 4 u)

/-! ### Cascade ARM and DISARM (R189, R190) -/

/-- Parameters of an ARM or DISARM that the cascade's master sent, as the opcode's parameter area lays them out (R445). -/
def casParams (c : CasCmd) : List Byte :=
  leBytes 1 0 ++ leBytes 1 (if c.arm then b2n c.load + 2 * b2n c.restart else 0) ++ leBytes 6 0

/-- The context of a cascade command. -/
def casCtx (c : CasCmd) : Ctx :=
  { origin := { kind := 1, id := c.master }, opcode := if c.arm then 0x0310 else 0x0311, params := casParams c, casNo := c.number }

/-- A cascade command arrives at a child: forwarded, then held for its due ST, or refused (R190). -/
def State.holdCascade (s : State) (c : CasCmd) : State :=
  if c.due ≤ s.stNow (s.boundary - 16) && decide (16 ≤ s.boundary) then s.armFailed c.number stLate
  else if 8 ≤ s.cas.commands.length then s.armFailed c.number stBusy
  else if !s.log.canReserve 1 then
    ({ s with log := { s.log with logFull := satInc 16 s.log.logFull } } : State).raise 6 |>.armFailed c.number stLogFull
  else ({ s with cas := { s.cas with commands := s.cas.commands ++ [c] } } : State).reserve 1

/-- ARM or DISARM received on the upstream port. -/
def State.cascadeCommand (s : State) (port type : Nat) (m : CasMsg) (arm : Bool) : State :=
  let (s, ok) := s.accept port m
  if !ok || (s.port port).role ≠ 1 then s
  else
    let s := s.sendDown type m
    if m.origin = s.cas.unitId then s
    else s.holdCascade { arm := arm, load := m.a.getLsbD 0, restart := m.a.getLsbD 1, due := CasMsg.st m, number := m.d.toNat, master := m.origin.toNat }

/-- ARM_MESSAGE. -/
def execArmMessage (t : SI) (port : Fin 16) (m : CasMsg) (s : State) : Host.Outcome State Fault Refusal :=
  .next ((s.moment t).cascadeCommand port.val 1 m true)

/-- DISARM_MESSAGE. -/
def execDisarmMessage (t : SI) (port : Fin 16) (m : CasMsg) (s : State) : Host.Outcome State Fault Refusal :=
  .next ((s.moment t).cascadeCommand port.val 2 m false)

/-- A cascade command applied at the present boundary (R190). -/
def State.applyCascade (s : State) (c : CasCmd) : State :=
  let x := casCtx c
  if !c.arm then (disarmEffect x s).raise 58
  else if s.inDoubt then s.armFailed c.number stDoubt
  else if armDefers s then
    (if s.cmd.deferredArm.isSome then s.armFailed c.number stBusy else armHold x (s.reserve 2))
  else if armBlocked s c.load c.restart 0 then s.armFailed c.number stBadState
  else (armEffect x s).raise 58

/-- CASCADE_COMMAND_DUE: the first held command whose due ST has come. -/
def rowCascadeCommandDue (t : SI) (s : State) : State :=
  let s := s.moment t
  match s.cas.commands.find? (fun c => decide (c.due ≤ s.stNow s.boundary)) with
  | none => s
  | some c => ((({ s with cas := { s.cas with commands := s.cas.commands.erase c } } : State).unreserve 1).applyCascade c)

/-- ARM_RESULT: forwarded up, or counted at the root (R190). -/
def execArmResult (t : SI) (port : Fin 16) (m : CasMsg) (s : State) : Host.Outcome State Fault Refusal :=
  let (s, ok) := (s.moment t).accept port.val m
  if !ok then .next s
  else if s.cas.role = 2 then .next (s.sendUp 8 m)
  else if m.origin = s.cas.unitId then .next s
  else .next (({ s with cas := { s.cas with armFail := satInc 16 s.cas.armFail, lastFailUnit := m.origin } } : State).raise 60)

/-! ### Link doubt (R197) -/

/-- ISOLATED, from the upstream port. -/
def execIsolated (t : SI) (port : Fin 16) (m : CasMsg) (s : State) : Host.Outcome State Fault Refusal :=
  let (s, ok) := (s.moment t).accept port.val m
  if !ok || (s.port port.val).role ≠ 1 then .next s
  else if m.origin = s.cas.unitId then .next (s.sendDown 8 m)
  else .next (s.isolate port.val 1)

/-- REJOINED, from the upstream port. -/
def execRejoined (t : SI) (port : Fin 16) (m : CasMsg) (s : State) : Host.Outcome State Fault Refusal :=
  let (s, ok) := (s.moment t).accept port.val m
  if !ok || (s.port port.val).role ≠ 1 then .next s
  else if m.origin = s.cas.unitId then .next (s.sendDown 8 m)
  else .next ((s.closePort port.val 1).sendDown 8 (s.status 4 0))

/-! ### Discovery (R188, R201) -/

/-- This unit's discovery entry; the parent fills in its port number. -/
def State.discoverEntry (s : State) (parent portNo : Nat) : List Byte :=
  leBytes 2 s.cas.unitId.toNat ++ leBytes 2 parent ++ leBytes 1 s.cas.depth ++ leBytes 1 portNo ++
    leBytes 1 (2 * b2n s.inDoubt + 4 * b2n (s.cap.runState = 1) + 8 * b2n s.seq0.armed) ++ leBytes 1 s.time.reported ++
    leBytes 4 (s.time.u s.time.si) ++ leBytes 4 s.sec.fwVersion.toNat

/-- REPORT of an entry (R186). -/
def State.reportMsg (s : State) (e : List Byte) : CasMsg :=
  { (s.status 1 (leNat (e.drop 12))) with b := BitVec.ofNat 64 (leNat (e.take 8)), c := BitVec.ofNat 32 (leNat ((e.drop 8).take 4)) }

/-- The entry that a REPORT carries. -/
def CasMsg.entry (m : CasMsg) : List Byte := leBytes 8 m.b.toNat ++ leBytes 4 m.c.toNat ++ leBytes 4 m.a.toNat

/-- DISCOVER, from the upstream port: forwarded down, and answered with one REPORT. -/
def execDiscover (t : SI) (port : Fin 16) (m : CasMsg) (s : State) : Host.Outcome State Fault Refusal :=
  let (s, ok) := (s.moment t).accept port.val m
  if !ok || (s.port port.val).role ≠ 1 then .next s
  else
    let s := s.sendDown 8 m
    if m.origin = s.cas.unitId then .next s
    else .next (s.sendUp 8 (s.reportMsg (s.discoverEntry (s.port port.val).peer.toNat 0)))

/-- TIMEOUT_MS of a discovery job has passed (R201). -/
def State.discoverOver (s : State) (j : Job) : Bool :=
  decide (j.since + slotsOfNs s.time.ref.rateKhz (1000000 * pField j.ctx.params 12 2) ≤ s.time.si)

/-- The discovery job that entries go to, at work or suspended. -/
def State.discovery (s : State) : Option Job :=
  s.cmd.jobs.find? (fun j => j.ctx.opcode = 0x0410 && (j.state = .running || j.state = .suspended) && !s.discoverOver j)

/-- A discovery job may end: at its timeout, or, where the outside says that every REPORT has arrived, once each downstream port whose link is up has
brought one (DEDUCED, notes/assumptions/47.md). -/
def State.discoverEnds (s : State) (j : Job) : Bool := s.discoverOver j || s.cas.upDownPorts.all (fun n => s.cas.discoverPorts.contains n)

/-- One discovery entry at the root: duplicates marked, written where the buffer has room. -/
def State.discoverWrite (s : State) (j : Job) (e : List Byte) : State :=
  let id := leNat (e.take 2)
  let dup := s.cas.discoverIds.contains id
  let e := if dup then e.set 6 ((e.getD 6 0) ||| 1) else e
  let room := decide (16 * (s.cas.discoverWritten + 1) ≤ pField j.ctx.params 8 4)
  let n := s.cas.discoverWritten
  let s := { s with cas := { s.cas with
    discoverIds := s.cas.discoverIds ++ [id], discoverWritten := if room then n + 1 else n
    discoverDup := if dup then s.cas.discoverDup + 1 else s.cas.discoverDup
    discoverDepth := max s.cas.discoverDepth (leNat ((e.drop 4).take 1)), dupId := s.cas.dupId || dup } }
  let s := s.raiseIf dup 61
  if room then s.postBytes (.hostWrite (pField j.ctx.params 0 8 + 16 * n) e) e.length else s

/-- A REPORT of this unit's own child carries the port it arrived on. -/
def State.fillPort (s : State) (port : Nat) (e : List Byte) : List Byte :=
  if leNat ((e.drop 2).take 2) = s.cas.unitId.toNat then e.set 5 (BitVec.ofNat 8 port) else e

/-- An entry reaches the root's discovery; a suspended one takes it when it is resumed (R443; DESIGN CHOICE, notes/assumptions/67.md). -/
def State.discoverTake (s : State) (j : Job) (port : Nat) (e : List Byte) : State :=
  if j.state = .suspended then { s with cas := { s.cas with discoverHeld := s.cas.discoverHeld ++ [(port, e)] } }
  else ({ s with cas := { s.cas with discoverPorts := ninsert s.cas.discoverPorts port } } : State).discoverWrite j e

/-- The entries that waited while the discovery was suspended. -/
def State.discoverResume (s : State) (j : Job) : State :=
  s.cas.discoverHeld.foldl (fun s e => s.discoverTake j e.1 e.2) { s with cas := { s.cas with discoverHeld := [] } }

/-- REPORT: forwarded up with the port of an own child filled in, or written by the root. -/
def execReport (t : SI) (port : Fin 16) (m : CasMsg) (s : State) : Host.Outcome State Fault Refusal :=
  let (s, ok) := (s.moment t).accept port.val m
  if !ok then .next s
  else
    let e := s.fillPort port.val (CasMsg.entry m)
    if s.cas.role = 2 then
      .next (s.sendUp 8 { m with b := BitVec.ofNat 64 (leNat (e.take 8)) })
    else if m.origin = s.cas.unitId then .next s
    else match s.discovery with
      | none => .next s
      | some j => .next (s.discoverTake j port.val e)

/-- CASCADE_DISCOVER returns BAD_PARAM. -/
def cascadeDiscoverBad (p : List Byte) : Bool :=
  !(p.length = 16) || pField p 0 8 % 4096 ≠ 0 || pField p 8 4 % 16 ≠ 0 || decide (pField p 8 4 < 16) || !pIn p 12 2 1 10000 || !pZero p 14 2

/-- CASCADE_DISCOVER returns BAD_STATE. -/
def cascadeDiscoverBadState (s : State) : Bool := s.cas.role ≠ 1 || (s.jobOf 0x0410).isSome

/-- CASCADE_DISCOVER: the root's own entry, then DISCOVER down the tree. -/
def cascadeDiscoverEffect (c : Ctx) (s : State) : State :=
  let id := s.cmd.nextJob
  let s := s.startJob c .running 0
  let n := s.cas.discoveries + 1
  let s := { s with cas := { s.cas with discoveries := n, discoverIds := [], discoverWritten := 0, discoverDup := 0, discoverDepth := 0, discoverPorts := [], discoverHeld := [], dupId := false } }
  let s := match s.job id with
    | none => s
    | some j => s.discoverWrite j (s.discoverEntry s.cas.unitId.toNat 0)
  s.sendDown 8 (s.status 0 n)

/-- Result words of a discovery (R201). -/
def Cascade.discoverWords (c : Cascade) : List Nat := [c.discoverIds.length, c.discoverWritten, c.discoverDup, c.discoverDepth]

/-! ### SET_UNIT, SET_PORT_ROLE (R200, R201) -/

/-- SET_UNIT returns BAD_PARAM. -/
def setUnitBad (p : List Byte) : Bool :=
  !(p.length = 8) || decide (16384 ≤ pField p 0 2) || !pBits p 2 4 || !pBits p 3 4 || !pZero p 4 4

/-- SET_UNIT returns BAD_STATE. -/
def setUnitBadState (s : State) (p : List Byte) : Bool := s.cap.runState = 1 && pField p 0 2 ≠ s.cas.unitId.toNat

/-- SET_UNIT. A new unit ID is announced in the next IDLE of every port in use (R200). -/
def setUnit (p : List Byte) (s : State) : State :=
  let f := pField p 2 1
  ({ s with cas := { s.cas with
      unitId := BitVec.ofNat 14 (pField p 0 2), localArm := bit f 0, sendFire := bit f 1, retroWin := bit f 2, preopen := bit f 3
      retroWpol := pField p 3 1 } } : State).announce

/-- The role that ROLES gives port n. -/
def roleOf (p : List Byte) (n : Nat) : Nat := pField p 0 4 / 4 ^ n % 4

/-- SET_PORT_ROLE returns BAD_PARAM. -/
def setPortRoleBad (p : List Byte) : Bool :=
  !(p.length = 8) || !pZero p 4 4 || (List.range 16).any (fun n => roleOf p n = 3) ||
    decide (1 < ((List.range 16).filter (fun n => roleOf p n = 1)).length)

/-- SET_PORT_ROLE returns BAD_STATE. -/
def setPortRoleBadState (s : State) (p : List Byte) : Bool :=
  s.cap.runState = 1 && (List.range 16).any (fun n => (s.port n).up && decide (roleOf p n ≠ (s.port n).role))

/-- Port n takes a role: a change takes its link down, and the port retrains or is powered down. Powered down, it leaves its link-doubt bracket without a
DOUBT_END (DESIGN CHOICE, notes/assumptions/66.md). -/
def State.setRole (s : State) (n r : Nat) : State :=
  if (s.port n).role = r then s
  else
    let s := if (s.port n).up || (s.port n).fell then s.portDown n else s
    s.modPort n (fun p => if r = 0 then { p with role := 0, state := 0, blockLock := false, lockLostAt := none, idles := 0, idlesTx := 0, idle := 0, linkDoubt := 0 }
      else { p with role := r, state := 1, idles := 0, idlesTx := 0 })

/-- SET_PORT_ROLE. A unit with an upstream port has an unknown depth until its link is up (R187). -/
def setPortRole (p : List Byte) (s : State) : State :=
  let was := s.cas.upPort
  let s := (List.range 16).foldl (fun s n => s.setRole n (roleOf p n)) s
  (match s.cas.upPort with
    | none => s.setDepth 0
    | some n => s.setDepth (if was = some n then s.cas.depth else 7)).announce

end Sys2Proof.Machine
end

