-- ==== Sys2Proof/Machine/BobCmd.lean ====
section
/-! DEFINITION. Host writes of bobbin pointers (R340, R353, R354), queue resets, and CREATE_BOBBIN, DESTROY_BOBBIN, ROUTE, REWIND (R351, R357 to
R361), SET_COMPRESSION and SET_SIGNING (R330, R331, R333). -/

namespace Sys2Proof.Machine

/-! ### Host writes of pointers -/

/-- The host can write BAR0: READY, link up, not in D3hot, not frozen (R406, R414, R420). -/
def State.barWrites (s : State) : Bool := s.startup.ready && s.pcie.linkUp && !s.pcie.d3hot && !s.pcie.frozen

/-- A REL write applied or discarded (R340). -/
def Bobbin.setRel (b : Bobbin) (v : Nat) : Bobbin :=
  let d := b.dist v b.rel
  if v < b.m2 ∧ d ≤ b.used then
    { b.trim v with
      rd := if b.dist b.rd b.rel < d then v else b.rd
      markValid := b.markValid && decide (d ≤ b.dist b.mark b.rel) }
  else b.flag flagPtrErr

/-- An RD write applied or discarded (R340). -/
def Bobbin.setRd (b : Bobbin) (v : Nat) : Bobbin :=
  let d := b.dist v b.rel
  if v < b.m2 ∧ d ≤ b.used then { b with rd := v, markValid := b.markValid && decide (b.dist b.mark b.rel ≤ d) }
  else b.flag flagPtrErr

/-- A MARK write applied or discarded (R340): it must be the first word of a delivered segment. -/
def Bobbin.setMark (b : Bobbin) (v : Nat) : Bobbin :=
  if v < b.m2 ∧ b.dist v b.rel ≤ b.dist b.rd b.rel ∧ b.ring.any (fun e => e.1 = v) = true then { b with mark := v, markValid := true }
  else b.flag flagPtrErr

/-- Pointer `which`, 0 RD, 1 REL, 2 MARK, written with v. -/
def Bobbin.setPointer (b : Bobbin) (which v : Nat) : Bobbin :=
  match which with
  | 0 => b.setRd v
  | 1 => b.setRel v
  | _ => b.setMark v

/-! ### Queue resets (R353, R381, R418) -/

/-- The segments between REL and WR owed again from the start of the ring; what is no longer held becomes gaps. With `held`, under R418: not
counted, and lost with HOST_STOPPED or HOST_CONTAINED. -/
def State.requeue (s : State) (b : Bobbin) (held : Bool) : List QItem :=
  b.ring.foldl (fun q e =>
    let item : QItem := { seg := e.2, owed := true, ready := false, counted := !held, kept := e.2.stream.isSome, again := true,
                          hostStopped := held, contained := held && s.pcie.frozen, since := s.time.si }
    if s.copyHeld e.2 then q ++ [item]
    else addGap q e.2 (if held then item.lostCause true else selBacklog) item.contained) []

/-- A bobbin's pointers at 0 and its ring owed again. -/
def State.emptied (s : State) (b : Bobbin) (held : Bool) : Bobbin :=
  b.notes { b with
    queue := s.requeue b held ++ b.queue, wr := 0, rd := 0, rel := 0, mark := 0, markValid := false, ring := [], dup := none, rewinding := none }

/-- A REWIND that a queue reset ends: nothing more is rewritten. -/
def State.endRewind (s : State) (b : Bobbin) : State :=
  match b.rewinding with
  | none => s
  | some (_, c, _) => s.complete c c.okStatus 0 [0]

/-- The queue reset of bobbin i (R353). -/
def State.queueReset (s : State) (i : Nat) : State :=
  match tfind s.bob.tab i with
  | none => s
  | some b => (s.modBob i (fun b => (s.emptied b false).flag flagReset)).endRewind b

/-- The duplicate of bobbin b's pointer write has not come within 2 µs (R353). -/
def State.dupLate (s : State) (b : Bobbin) : Bool :=
  match b.dup with
  | none => false
  | some (_, _, at_) => decide (at_ + slotsOfNs s.time.ref.rateKhz 2000 < s.time.si)

/-- A held bobbin is re-attached (R418); event 208 with the last one. -/
def State.reattach (s : State) (i : Nat) : State :=
  let s := s.modBob i (fun b => { b with held := false })
  s.raiseIf (!s.bob.tab.any (fun e => e.2.held)) 208

/-- A host write of a pointer register of bobbin i (R340, R351, R353, R418). -/
def State.pointerWrite (s : State) (i which v : Nat) : State :=
  match tfind s.bob.tab i with
  | none => s
  | some b =>
    if !s.barWrites then s
    else if b.held then (if which = 1 ∧ v = 0 then s.reattach i else s.modBob i (fun b => b.flag flagPtrErr))
    else if b.rewinding.isSome then s.modBob i (fun b => b.flag flagPtrErr)
    else if b.skc256 then
      match b.dup with
      | some (w, _, _) =>
        if w ≠ which || s.dupLate b then s.queueReset i else s.modBob i (fun b => { b with dup := some (which, v, s.time.si) })
      | none => s.modBob i (fun b => { b with dup := some (which, v, s.time.si) })
    else s.modBob i (fun b => b.setPointer which v)

/-- BOB_RD_WRITE. -/
def rowBobRdWrite (t : SI) (b : Fin 262144) (v : Word) (s : State) : State :=
  ((s.moment t).pointerWrite b.val 0 v.toNat)

/-- BOB_REL_WRITE. -/
def rowBobRelWrite (t : SI) (b : Fin 262144) (v : Word) (s : State) : State :=
  ((s.moment t).pointerWrite b.val 1 v.toNat)

/-- BOB_MARK_WRITE. -/
def execBobMarkWrite (t : SI) (b : Fin 262144) (v : Word) (s : State) : Host.Outcome State Fault Refusal :=
  .next ((s.moment t).pointerWrite b.val 2 v.toNat)

/-- A host write of BOB_DUP of bobbin i: the duplicate agrees and the pointer is applied, or the queue is reset; discarded without SKC256 (R353,
R354). -/
def State.duplicateWrite (s : State) (i v : Nat) : State :=
  match tfind s.bob.tab i with
  | none => s
  | some x =>
    if !s.barWrites || !x.skc256 then s
    else
      let s := s.modBob i (fun y => { y with dupVal := v % 2 ^ 28 })
      match x.dup with
      | none => s
      | some (which, w, _) =>
        if s.dupLate x || w ≠ v then s.queueReset i
        else if x.rewinding.isSome then s.modBob i (fun y => ({ y with dup := none } : Bobbin).flag flagPtrErr)
        else s.modBob i (fun y => ({ y with dup := none } : Bobbin).setPointer which w)

/-- BOB_DUP_WRITE. -/
def rowBobDupWrite (t : SI) (b : Fin 262144) (v : Word) (s : State) : State :=
  ((s.moment t).duplicateWrite b.val v.toNat)

/-- DUPLICATE_TIMEOUT. -/
def rowDuplicateTimeout (t : SI) (b : Fin 262144) (s : State) : State :=
  let s := s.moment t
  match tfind s.bob.tab b.val with
  | none => s
  | some x =>
    match x.dup with
    | none => s
    | some (_, _, at_) =>
      if at_ + slotsOfNs s.time.ref.rateKhz 2000 ≤ s.time.si then (s.queueReset b.val) else s

/-- CONTEXT_PARITY_ERROR: a cached context is reloaded from DRAM, which loses nothing; a bobbin without one in the cache is not affected (R342). -/
def rowContextParityError (t : SI) (b : Fin 262144) (s : State) : State :=
  let s := s.moment t
  if s.bob.cached.contains b.val then s.modBob b.val (fun x => x.flag flagCtx) else s

/-! ### CREATE_BOBBIN, DESTROY_BOBBIN -/

/-- CREATE_BOBBIN returns BAD_PARAM. -/
def createBobbinBad (p : List Byte) : Bool :=
  !(p.length = 32) || !pIn p 0 4 0 262143 || !pIn p 4 1 0 1 || !pIn p 5 1 12 30 || !pBits p 6 3 || !pIn p 7 1 1 15 || !pZero p 28 4 ||
    (if pField p 4 1 = 0 then pField p 8 8 % 4096 ≠ 0 else pField p 8 8 ≠ 0) || pField p 16 8 % 16 ≠ 0

/-- A ring of `size` bytes at `ofs` lies in the area apart from every other (R338). -/
def Bobbins.fits (x : Bobbins) (ofs size : Nat) : Bool :=
  ofs % 8 = 0 && decide (ofs + size ≤ bobbinArea) && x.area.all (fun a => decide (ofs + size ≤ a.2.1 ∨ a.2.1 + a.2.2 ≤ ofs))

/-- Where a ring of `size` bytes goes: the device's own choice where it fits, else the lowest place that does. -/
def Bobbins.place (x : Bobbins) (size ctr : Nat) : Option Nat :=
  (Config.ringOffset ctr :: 0 :: x.area.map (fun a => a.2.1 + a.2.2)).find? (fun o => x.fits o size)

/-- A LOC 1 ring cannot be placed. -/
def State.noRoom (s : State) (p : List Byte) : Bool :=
  pField p 4 1 = 1 && (!s.dram.trained || (s.bob.place (2 ^ pField p 5 1) s.freeCtr).isNone)

/-- CREATE_BOBBIN returns BAD_STATE. -/
def createBobbinBadState (s : State) (p : List Byte) : Bool := (tfind s.bob.tab (pField p 0 4)).isSome || s.noRoom p

/-- The writeback block of a bobbin whose EXISTS has just been set (R341). -/
def State.created (s : State) (i : Nat) (b : Bobbin) : State :=
  if b.wbAddr = 0 || s.pcie.blocked then s
  else
    let b := { b with wbCount := 1 }
    let s := s.postBytes (.writeback i b.wbAddr b.writeback) 16
    { s with bob := { s.bob with tab := tput s.bob.tab i b } }

/-- CREATE_BOBBIN. -/
def createBobbinEffect (c : Ctx) (s : State) : State :=
  let p := c.params
  let i := pField p 0 4
  let f := pField p 6 1
  let loc1 := decide (pField p 4 1 = 1)
  let ofs := (s.bob.place (2 ^ pField p 5 1) s.freeCtr).getD 0
  let addr := if loc1 then s.dram.reserved + ofs else pField p 8 8
  let b : Bobbin :=
    { loc1 := loc1, sizeLog2 := pField p 5 1, provisional := bit f 0, skc256 := bit f 1, notifyTack := bit f 2, weight := pField p 7 1,
      notify4k := pField p 26 2, ringAddr := addr, wbAddr := pField p 16 8, spillMib := pField p 24 2 }
  let s := if loc1 then s.tick else s
  let s := { s with bob := { s.bob.use i with
    tab := tput s.bob.tab i b
    area := if loc1 then (i, ofs, 2 ^ pField p 5 1) :: s.bob.area else s.bob.area } }
  (s.created i b).finish c (if loc1 then [addr % 2 ^ 32] else [])

/-- DESTROY_BOBBIN returns BAD_PARAM. -/
def destroyBobbinBad (p : List Byte) : Bool := !(p.length = 8) || !pIn p 0 4 0 262143 || !pBits p 4 1 || !pZero p 5 3

/-- DESTROY_BOBBIN returns BAD_STATE. -/
def destroyBobbinBadState (s : State) (p : List Byte) : Bool :=
  let i := pField p 0 4
  match tfind s.bob.tab i with
  | none => true
  | some b => s.bob.routes.any (fun e => e.2.contains i) || s.bob.ending.any (fun e => e.2.1 = i && (decide (s.time.si < e.2.2) || b.queue.any (fun q =>
      q.seg.source = e.1))) || b.stream.isSome || b.rewinding.isSome || (b.owing && !bit (pField p 4 1) 0)

/-- The last writeback block of a bobbin: its EXISTS has fallen, and BOB_STAT reads 0 (R341, R358). -/
def State.gone (s : State) (i : Nat) : State :=
  match tfind s.bob.tab i with
  | none => s
  | some b => if b.wbAddr = 0 || s.pcie.blocked then s else s.postBytes (.writeback i b.wbAddr (({ b with wbCount := b.wbCount + 1 } : Bobbin).wbBlock 0)) 16

/-- DESTROY_BOBBIN. -/
def destroyBobbinEffect (c : Ctx) (s : State) : State :=
  let i := pField c.params 0 4
  let s := s.gone i
  (({ s with bob := { s.bob with
    tab := tdel s.bob.tab i, area := s.bob.area.filter (fun a => a.1 ≠ i), cached := s.bob.cached.filter (fun k => k ≠ i) } } : State).retire).finish c []

/-! ### ROUTE -/

/-- The bobbin and route that a ROUTE names do not exist. -/
def routeMissing (s : State) (p : List Byte) : Bool :=
  let i := pField p 4 4
  match pField p 8 1 with
  | 0 => (tfind s.bob.tab i).isNone
  | 1 => (tfind s.bob.tab i).isNone || !((tfind s.bob.routes (pField p 0 4)).getD []).contains i
  | _ => false

/-- ROUTE returns BAD_PARAM. -/
def routeBad (s : State) (p : List Byte) : Bool :=
  !(p.length = 16) || !srcValid (pField p 0 4) || !pIn p 8 1 0 2 || !(pField p 9 1 = 0 || pIn p 9 1 12 24) || !pZero p 10 6 ||
    (pField p 8 1 ≠ 2 && !pIn p 4 4 0 262143) || routeMissing s p

/-- A ninth bobbin for a source. -/
def routeBusy (s : State) (p : List Byte) : Bool :=
  let l := (tfind s.bob.routes (pField p 0 4)).getD []
  pField p 8 1 = 0 && !l.contains (pField p 4 4) && decide (8 ≤ l.length)

/-- The routing table once source id has the bobbins l' in place of l from boundary c on; a removed route i still delivers what is committed before c (R344). -/
def Bobbins.reroute (x : Bobbins) (si c : SI) (id i : Nat) (l l' : List Nat) : Bobbins :=
  { x with
    routes := if l' = [] then tdel x.routes id else tput x.routes id l'
    oldRoutes := if l' = l || (tfind x.oldRoutes id).any (fun e => decide (si < e.1)) then x.oldRoutes else tput x.oldRoutes id (c, l)
    ending := (x.ending.filter (fun e => e.1 ≠ id || e.2.1 ≠ i)) ++ (if l.contains i && !l'.contains i then [(id, i, c)] else []) }

/-- ROUTE, in effect from boundary C on (R344). -/
def route (p : List Byte) (s : State) : State :=
  let id := pField p 0 4
  let i := pField p 4 4
  let l := (tfind s.bob.routes id).getD []
  let l' := match pField p 8 1 with
    | 0 => ninsert l i
    | 1 => l.filter (fun x => x ≠ i)
    | _ => l
  let s := if pField p 8 1 = 2 then s else { s with bob := s.bob.reroute s.time.si s.boundary id i l l' }
  if pField p 9 1 = 0 then s else s.modSource id (fun x => { x with
    flushLog2 := pField p 9 1, oldFlush := if s.time.si < x.flushFrom then x.oldFlush else x.flushLog2, flushFrom := s.boundary })

/-! ### REWIND (R351, R360) -/

/-- REWIND returns BAD_PARAM. -/
def rewindBad (p : List Byte) : Bool := !(p.length = 8) || !pIn p 0 4 0 262143 || !pBits p 4 1 || !pZero p 5 3

/-- The segments from MARK up to WR, with their places. -/
def Bobbin.fromMark (b : Bobbin) : List (Nat × Seg) := b.ring.filter (fun e => decide (b.dist b.mark b.rel ≤ b.dist e.1 b.rel))

/-- The REWIND writes segments again. -/
def rewrites (b : Bobbin) (p : List Byte) : Bool := bit (pField p 4 1) 0 && !b.loc1

/-- REWIND returns BAD_STATE. -/
def rewindBadState (s : State) (p : List Byte) : Bool :=
  match tfind s.bob.tab (pField p 0 4) with
  | none => true
  | some b => !b.markValid || b.rewinding.isSome || (rewrites b p && b.fromMark.any (fun e => !s.copyHeld e.2))

/-- REWIND: RD goes back to MARK; with RESTORE on a host ring the command ends once the rewrite is done. -/
def rewindEffect (c : Ctx) (s : State) : State :=
  let i := pField c.params 0 4
  match tfind s.bob.tab i with
  | none => s.finish c [0]
  | some b =>
    if rewrites b c.params then
      let segs := b.fromMark
      let s := s.modBob i (fun b => { b with rd := b.mark, rewinding := some (segs.map (fun e => e.2), c, b.mark) })
      s.change c.origin c.opcode c.okStatus c.params s.boundary
    else (s.modBob i (fun b => { b with rd := b.mark })).finish c [0]

/-- REWIND_COMPLETE: every segment of the span has been written again at its place; it waits while delivery to the ring is stopped (R423). -/
def rowRewindComplete (t : SI) (b : Fin 262144) (s : State) : State :=
  let s := s.moment t
  match tfind s.bob.tab b.val with
  | none => s
  | some x =>
    match x.rewinding with
    | none => s
    | some (segs, c, from_) =>
      if s.ringStopped x then s
      else
        let (_, s) := segs.foldl (fun (q : Nat × State) g => ((q.1 + g.len) % x.m2, q.2.postBytes (.segment b.val q.1 g []) g.size)) (from_, s)
        let s := s.modBob b.val (fun y => { y with rewinding := none })
        (s.complete c c.okStatus 0 [(segs.map Seg.size).sum])

/-! ### SET_COMPRESSION (R330) -/

/-- SET_COMPRESSION returns BAD_PARAM. -/
def setCompressionBad (p : List Byte) : Bool := !(p.length = 16) || !pIn p 8 1 0 2 || !pZero p 9 7

/-- Every source of classes 0 to 3. -/
def codedSources : List Nat :=
  (List.range 4).flatMap (fun r => (List.range 16).map (trnSource r) ++ (List.range 16).map (stateSource r) ++ [statSource r] ++
    (List.range 16).map (msgSource r))

/-- The sources that match SOURCE under MASK. -/
def matching (p : List Byte) : List Nat :=
  codedSources.filter (fun id => Nat.land id (pField p 4 4) = Nat.land (pField p 0 4) (pField p 4 4))

/-- SET_COMPRESSION would change a region in a reset. -/
def setCompressionResetting (s : State) (p : List Byte) : Bool := (matching p).any (fun id => s.regionBusy (srcRegion id))

/-- SET_COMPRESSION: segments that open from the frame boundary on take the new mode (R330). -/
def setCompressionEffect (c : Ctx) (s : State) : State :=
  let ids := matching c.params
  (ids.foldl (fun s id => s.modSource id (fun x =>
    { x with mode := pField c.params 8 1, oldMode := (x.fresh s.time.si).mode, modeFrom := s.boundary })) s).finish c [ids.length]

/-! ### SET_SIGNING (R331, R333, R440) -/

/-- The bobbin of a create does not exist or is bound to another stream. -/
def signingTaken (s : State) (p : List Byte) : Bool :=
  pField p 2 1 = 0 && (match tfind s.bob.tab (pField p 4 4) with
    | none => true
    | some b => b.stream.any (fun m => m ≠ pField p 0 2))

/-- SET_SIGNING returns BAD_PARAM. -/
def setSigningBad (s : State) (p : List Byte) : Bool :=
  !(p.length = 16) || !pIn p 0 2 0 4095 || !pIn p 2 1 0 2 || !pZero p 3 1 || !pIn p 4 4 0 262143 || !pZero p 12 4 ||
    (pField p 2 1 ≠ 2 && (!pIn p 8 2 1 65535 || !pIn p 10 2 1 65535)) || signingTaken s p

/-- SET_SIGNING returns BAD_STATE. -/
def setSigningBadState (s : State) (p : List Byte) : Bool :=
  let x := s.stream (pField p 0 2)
  match pField p 2 1 with
  | 0 => (x.active && !x.closing) || !s.canSign || signingTaken s p
  | _ => !x.active

/-- A create while the stream closes is deferred. -/
def setSigningDefers (s : State) (p : List Byte) : Bool := pField p 2 1 = 0 && (s.stream (pField p 0 2)).closing

/-- A create is already deferred. -/
def setSigningBusy (s : State) (p : List Byte) : Bool := setSigningDefers s p && (s.stream (pField p 0 2)).deferred.isSome

/-- The create waits for the close to end. -/
def setSigningHold (c : Ctx) (s : State) : State := s.modStream (pField c.params 0 2) (fun x => { x with deferred := some c })

/-- SET_SIGNING: create, change of cadence, or close; a close of a closing stream only cancels a deferred create. -/
def setSigningEffect (c : Ctx) (s : State) : State :=
  let n := pField c.params 0 2
  match pField c.params 2 1 with
  | 0 => s.createStream c
  | 1 => (s.modStream n (fun x => { x with sigSegs := pField c.params 8 2, sigMs := pField c.params 10 2 })).finish c []
  | _ =>
    let x := s.stream n
    if x.closing then ((s.modStream n (fun x => { x with deferred := none })).cancelDeferred x.deferred).finish c []
    else s.closeStream c

end Sys2Proof.Machine
end

