-- ==== Sys2Proof/Machine/Requests.lean ====
section
/-! DEFINITION. Non-posted requests and their tags (R409, R410, R413). -/

namespace Sys2Proof.Machine

/-- The completion timeout in ns that a Completion Timeout Value selects (R409). -/
def timeoutNs (code : Nat) : Nat :=
  match code with
  | 1 => 50000
  | 2 => 5000000
  | 5 => 20000000
  | _ => 50000000

/-- A tag that no request may use. -/
def Tags.taken (x : Tags) (k : Nat) : Bool := (tfind x.outstanding k).isSome || (tfind x.quarantined k).isSome

/-- A tag for a new request, other than the one with which it failed before: none while 512 are outstanding, or every tag is taken (R396, R410, R411). -/
def Tags.free (x : Tags) (failed : Option Nat := none) : Option Nat :=
  if 512 ≤ x.outstanding.length then none else (List.range 1024).find? (fun k => !x.taken k && failed ≠ some k)

/-- A read of a command ring. -/
def Request.fetches (q : Request) : Bool :=
  match q.use with
  | .header _ | .params _ _ => true
  | .replay _ _ => false

/-- Max Read Request Size in bytes (R396). -/
def Tags.maxRead (x : Tags) : Nat := 128 * 2 ^ min 5 x.readSizeCode

/-- Bytes of one request that begins at address a with n bytes to read: it crosses no 4 KiB boundary. -/
def Tags.chunk (x : Tags) (a n : Nat) : Nat := min n (min x.maxRead (4096 - a % 4096))

/-- A read is issued, or waits until requests can leave and a tag is free; one of a command ring waits during a firmware swap (R423). -/
def State.issue (s : State) (q : Request) : State :=
  let wait := { s with tags := { s.tags with reissue := s.tags.reissue ++ [q] } }
  if s.pcie.blocked || (s.safe.swapping && q.fetches) then wait
  else match s.tags.free q.failedTag with
    | none => wait
    | some k =>
      let q := { q with timeoutNs := timeoutNs s.tags.timeoutCode, issuedAt := s.time.si }
      ({ s with tags := { s.tags with outstanding := tput s.tags.outstanding k q } } : State).post (.hostRead k q.addr q.len)

/-- Waiting reads are issued in order, as far as they can be. -/
def State.issueWaiting (s : State) : State :=
  s.tags.reissue.foldl (fun s q => s.issue q) { s with tags := { s.tags with reissue := [] } }

/-- DMA_QUIESCED and event 203: Bus Master Enable is 0 and no read is outstanding (R413). -/
def State.quiesce (s : State) : State :=
  if !s.pcie.bme && s.tags.outstanding = [] && !s.pcie.quiesced then
    ({ s with pcie := { s.pcie with quiesced := true } } : State).raise 203
  else s

end Sys2Proof.Machine
end

