-- ==== Sys2Proof/Machine/Replay.lean ====
section
/-! DEFINITION. The REPLAY job (R325 to R333) and SLOT_EVALUATION. -/

namespace Sys2Proof.Machine

/-! ### REPLAY -/

/-- REPLAY returns BAD_PARAM. -/
def replayBad (p : List Byte) : Bool :=
  !(p.length = 32) || pField p 0 8 % 8 ≠ 0 || pField p 8 8 % 8 ≠ 0 || decide (pField p 8 8 < 96) || !pBits p 16 2 || !pIn p 17 1 1 8 || !pZero p 18 2 ||
    !pZero p 24 8

/-- REPLAY returns BAD_STATE: one is active, LOAD of an uncommitted image, or the image does not carry IMAGE_ID. -/
def replayBadState (s : State) (p : List Byte) : Bool :=
  let load := bit (pField p 16 1) 1
  let id := if load then s.seq1.pendingId else s.seq1.activeId
  (s.jobOf 0x0810).isSome || (load && !s.seq1.pendingOk) || (pField p 20 4 ≠ 0 && pField p 20 4 ≠ id)

/-- The replay job is RUNNING. -/
def State.replaying (s : State) : Bool := s.runningOf 0x0810

/-- The job may take more of the buffer: no more than RATE_GBPS GB/s since it started (R325). -/
def Replay.rateOk (r : Replay) (khz : Nat) (si : SI) : Bool := decide (r.fetched * khz ≤ r.rate * 1000000 * (si - r.since))

/-- The next part of the buffer is read, one request at a time. -/
def State.replayFetch (s : State) : State :=
  let r := s.replay
  let mine := fun (q : Request) => match q.use with
    | .replay _ _ => true
    | _ => false
  let busy := s.tags.outstanding.any (fun e => mine e.2) || s.tags.reissue.any mine
  if !s.replaying || busy || !r.rateOk s.time.ref.rateKhz s.time.si || r.ended || r.failed || decide (r.bufLen ≤ r.fetched) then s
  else s.issue { use := .replay (r.job.getD 0) r.fetched, addr := r.bufAddr + r.fetched, len := s.tags.chunk (r.bufAddr + r.fetched) (r.bufLen - r.fetched) }

/-- REPLAY accepted: the job runs, sequencer 1 takes its image and stays disarmed until the first segment. -/
def replayEffect (c : Ctx) (s : State) : State :=
  let p := c.params
  let id := s.cmd.nextJob
  let s := s.startJob c .running 0
  let q := s.seq1
  let q := if bit (pField p 16 1) 1 then { q with active := q.pending, activeId := q.pendingId } else q
  let fresh : Replay :=
    { job := some id, bufAddr := pField p 0 8, bufLen := pField p 8 8, abortOnFail := bit (pField p 16 1) 0, rate := pField p 17 1, since := s.time.si }
  ({ s with
    replay := fresh
    seq1 := { q with armed := false, halted := false, stopAt := none, edges := [], events := [], levels := [], bastes := [], forced := [] } } : State).replayFetch

/-! ### The checks of R325 -/

/-- A submitted segment read apart. -/
structure InSeg where
  flags : Nat
  len : Nat
  source : Nat
  uncomp : Nat
  first : Nat
  tail : Nat
  payload : List Byte
  hem : List Byte

/-- The fields of a whole segment. -/
def readSeg (bs : List Byte) : InSeg :=
  let len := pField bs 6 2
  { flags := pField bs 5 1, len := len, source := pField bs 8 4, uncomp := pField bs 12 4, first := pField bs 16 8, tail := pField bs 30 1
    payload := pBytes bs 32 (8 * len - 96), hem := pBytes bs (8 * len - 64) 64 }

/-- Check 1 on the first 32 bytes, with `room` bytes left in the buffer. -/
def headBad (bs : List Byte) (room : Nat) : Bool :=
  decide (room < 96) || pField bs 0 4 ≠ 0x47534B53 || pField bs 4 1 ≠ 1 || !pIn bs 6 2 12 8192 || decide (room < 8 * pField bs 6 2)

/-- Check 2: the hem and reserved bytes. -/
def hemBad (bs : List Byte) (g : InSeg) : Bool := pField g.hem 56 4 ≠ 0x4D484B53 || pField g.hem 60 4 ≠ 0 || pField bs 31 1 ≠ 0

/-- The records of a payload; none where one does not end with the payload. A LEN of 0 ends the usable data (R278); in a decoded payload it is a
failure (R309), as `strict` says. -/
def splitRecs (fuel : Nat) (strict : Bool) (bs : List Byte) : Option (List Rec) :=
  match fuel with
  | 0 => none
  | k + 1 =>
    if bs.length = 0 then some []
    else
      let len := 8 * pField bs 1 1
      if len = 0 then (if strict then none else some [])
      else if bs.length < len then none
      else (splitRecs k strict (bs.drop len)).map (fun rest =>
        ({ words := (bytesToWords (bs.take len) len).map w64 } : Rec) :: rest)

/-- Check 3: the payload decoded (R309, R310). -/
def decodeSeg (g : InSeg) : Option (List Byte) :=
  if bit g.flags 2 && (bit g.flags 0 || bit g.flags 1) then none
  else match decodePayload (bit g.flags 0) (bit g.flags 1) g.tail g.payload with
    | none => none
    | some bs => if bs.length = g.uncomp then some bs else none

/-- The first check from 2 to 6 that a segment fails, and its records (R325). `work` counts the decoded bytes awaiting evaluation. -/
def checkSeg (bs : List Byte) (prevFirst : Option Nat) (work : Nat) : Nat × List Rec :=
  let g := readSeg bs
  if hemBad bs g then (2, [])
  else match decodeSeg g with
    | none => (3, [])
    | some pl =>
      match splitRecs (pl.length + 1) (bit g.flags 0) pl with
      | none => (if bit g.flags 0 then 3 else 4, [])
      | some rs =>
        if (crc32c pl).toNat ≠ pField g.hem 4 4 || rs.length ≠ pField g.hem 0 4 || rs.any (fun r => bit ((r.words.getD 0 0).toNat) 16) then (4, [])
        else if prevFirst.any (fun f => decide (g.first < f)) then (5, [])
        else if 268435456 < work + g.uncomp then (6, [])
        else (0, rs)

/-! ### Accepting and rejecting -/

/-- Decoded bytes that await evaluation. -/
def Replay.work (r : Replay) : Nat := (r.input.map (fun g => g.bytes)).sum

/-- FIRST_SI of the previous accepted segment. -/
def Replay.prev (r : Replay) : Option Nat := if r.acc = 0 then none else some r.prevFirst

/-- A record that the replay sequencer consumes (R152): FRAME, MESSAGE, ANCHOR, TIMESTEP and, in transitions, message and window sources, SELVEDGE. -/
def consumed (source : Nat) (r : Rec) : Bool :=
  r.type = 1 || r.type = 4 || r.type = 0x10 || r.type = 0x11 || (r.type = 0x30 && (srcClass source = 0 || srcClass source = 3 || srcClass source = 4))

/-- A segment is accepted: its source's skipped span ends before it, and the first one arms sequencer 1 (R152, R326, R327). -/
def State.replayAccept (s : State) (g : InSeg) (rs : List Rec) : State :=
  let r := s.replay
  let spans := (r.skipped.filter (fun e => e.1 = g.source && decide (e.2 < g.first))).map (fun e => (4, e.1, e.2, g.first))
  let seg : ReplaySeg :=
    { source := g.source, first := g.first, last := pField g.hem 16 8, bytes := g.uncomp, ofs := r.offset, items := (rs.filter (consumed g.source)).map Item.plain }
  let s : State := { s with replay := { r with
    acc := r.acc + 1, prevFirst := g.first, upto := max r.upto g.first, last := max r.last (max g.first seg.last), input := r.input ++ [seg]
    spans := r.spans ++ spans, skipped := r.skipped.filter (fun e => e.1 ≠ g.source) } }
  if r.acc ≠ 0 then s
  else s.modSeq 1 (fun q => { (q.start g.first none) with armed := true })

/-- A segment is rejected with a check code (R325, R326). `first` is its FIRST_SI where its header stands. -/
def State.replayReject (s : State) (code : Nat) (source first : Nat) (at_ : Nat) : State :=
  let r := s.replay
  let fatal := code = 1 || code = 6 || code = 7 || r.abortOnFail
  let next := if s.seq1.armed then s.seq1.next else first
  let known := code = 2 || code = 3 || code = 4 || code = 6
  let skips := !fatal && (srcClass source = 0 || srcClass source = 3)
  { s with replay := { r with
      rej := if code = 7 then r.rej else r.rej + 1
      lastCheck := code, fail := at_, firstRej := if r.firstRej = 0 || code = 7 then code else r.firstRej
      failed := fatal, upto := if fatal && known && r.acc ≠ 0 then max r.upto first else r.upto
      skipped := if skips then r.skipped ++ [(source, max first next)] else r.skipped } }

/-- The segments that the bytes read complete, in turn (R325). -/
def State.replayParse (s : State) (fuel : Nat) : State :=
  match fuel with
  | 0 => s
  | k + 1 =>
    let r := s.replay
    if !s.replaying || r.ended || r.failed then s
    else
      let room := r.bufLen - r.offset
      if room = 0 then { s with replay := { r with ended := true, upto := if r.acc = 0 then r.upto else r.last + 1 } }
      else if r.got.length < min room 32 then s
      else if headBad r.got room then s.replayReject 1 0 r.prevFirst r.offset
      else
        let n := 8 * pField r.got 6 2
        if r.got.length < n then s
        else
          let bs := r.got.take n
          let g := readSeg bs
          let (code, rs) := checkSeg bs r.prev r.work
          let s := if code = 0 then s.replayAccept g rs else s.replayReject code g.source g.first r.offset
          let s : State := { s with replay := { s.replay with offset := r.offset + n, got := r.got.drop n } }
          s.replayParse k

/-- The job goes on with the bytes it has, and with its reads. -/
def State.replayGo (s : State) : State := (s.replayParse (s.replay.got.length / 96 + 2)).replayFetch

/-- Bytes of the job's buffer from `ofs` have come back; those that an ended job had asked for serve nobody. -/
def State.replayData (s : State) (job ofs : Nat) (data : List Byte) : State :=
  if s.replay.job ≠ some job || ofs ≠ s.replay.fetched then s
  else
    let got := s.replay.got ++ data
    let s : State := { s with replay := { s.replay with got := got, fetched := ofs + data.length } }
    s.replayGo

/-- A buffer read of the job has failed twice (R411). -/
def State.replayReadFailed (s : State) (job : Nat) : State :=
  if s.replay.job ≠ some job || s.replay.failed || s.replay.ended then s else s.replayReject 7 0 s.replay.prevFirst s.replay.offset

/-- Skipped spans that an accepted segment of their source, waiting in the work area, already closes (R326). -/
def Replay.closeSkipped (r : Replay) (source : Nat) : Replay :=
  r.skipped.foldl (fun r e =>
    match (r.input.filter (fun g => g.source = source && decide (e.2 < g.first))).map (fun g => g.first) with
    | x :: rest => if e.1 = source then { r with spans := r.spans ++ [(4, e.1, e.2, rest.foldl min x)], skipped := r.skipped.erase e } else r
    | [] => r) r

/-- The work area returns poisoned data: the segment that would be read next is rejected with code 4 (R380), at its offset in the buffer (R336). -/
def State.replayPoison (s : State) : State :=
  match s.replay.input.find? (fun g => !g.loaded) with
  | none => s
  | some g =>
    let r := s.replay
    let s := ({ s with replay := { r with acc := r.acc - 1, input := r.input.erase g } } : State).replayReject 4 g.source g.first g.ofs
    { s with replay := s.replay.closeSkipped g.source }

/-! ### Evaluation -/

/-- The edges of a FRAME record as the sequencer takes them: the second edge of a glitch follows one with GF. -/
def frameEdges (block frame : Nat) (gf : Bool) (us : List Nat) (n : Nat) : List SeqEdge :=
  match n, us with
  | 0, _ => []
  | _, [] => []
  | n + 1, u :: rest =>
    ({ ch := 16 * block + u / 4096, time := 64 * (16 * frame + u / 256 % 16) + u / 4 % 64, level := bit u 1,
       glitch := if gf then 2 else b2n (bit u 0) } : SeqEdge) :: frameEdges block frame (bit u 0) rest n

/-- The frame entries of a FRAME record, from its units. -/
def unitsEdges (block prev n : Nat) (us : List Nat) : List SeqEdge :=
  match n, us with
  | n + 1, lo :: hi :: rest =>
    let v := lo + 65536 * hi
    let frame := prev + v / 256
    frameEdges block frame false rest (v % 256) ++ unitsEdges block frame n (rest.drop (v % 256))
  | _, _ => []

/-- Marks set on edges in order (R281). -/
def setMarks (ms : List Nat) (es : List SeqEdge) : List SeqEdge :=
  es.zipIdx.map (fun e =>
    let m := ms.getD (e.2 / 32) 0 / 4 ^ (e.2 % 32)
    { e.1 with settle := bit m 0, coarse := bit m 1 })

/-- The edges of a FRAME record (R280, R281). -/
def Rec.frameEdges (r : Rec) : List SeqEdge :=
  let w := fun i => (r.words.getD i 0).toNat
  let n := bits (w 0) 47 38
  let edges := bits (w 0) 57 48
  let marks := if bit (w 0) 20 then (edges + 31) / 32 else 0
  let body := (r.words.drop 2).map BitVec.toNat
  let us := (body.take (body.length - marks)).flatMap (fun x => [x % 65536, x / 65536 % 65536, x / 4294967296 % 65536, x / 281474976710656])
  setMarks (body.drop (body.length - marks)) (unitsEdges (bits (w 0) 37 32) (w 1 / 16) n us)

/-- The fields of a MESSAGE record, all offered at its instant (R127, R152, R247). -/
def Rec.messageEvent (r : Rec) : SeqEvent :=
  let w := fun i => (r.words.getD i 0).toNat
  let t := 64 * w 1 + bits (w 0) 37 32
  let npf := bits (w 2) 51 48
  let na := (bits (w 0) 50 44 + 7) / 8
  let nb := (bits (w 0) 57 51 + 7) / 8
  let settle := bit (w 0) 18
  let coarse := bit (w 0) 19
  let f := fun (k v : Nat) => (k, t, v, settle, coarse)
  { kind := 0, src := bits (w 0) 43 38, time := t
    fields := [f 0 (bits (w 2) 7 0), f 1 (bits (w 2) 31 16), f 2 (bits (w 2) 47 32), f 3 (bits (w 2) 9 8)]
      ++ (List.range 12).map (fun i => f (4 + i) (if i < npf then w (3 + i) else 0))
      ++ (List.range 8).map (fun j => f (16 + j) (if j < na then w (3 + npf + j) else 0))
      ++ (List.range 8).map (fun j => f (24 + j) (if j < nb then w (3 + npf + na + j) else 0)) ++ [f 64 0] }

/-- One consumed record reaches the sequencer's inputs. -/
def State.replayLoad (s : State) (r : Rec) : State :=
  let w := fun i => (r.words.getD i 0).toNat
  match r.type with
  | 1 => s.modSeq 1 (fun q => { q with edges := r.frameEdges.foldl insertSeq q.edges })
  | 4 => s.modSeq 1 (fun q => { q with events := q.events ++ [r.messageEvent] })
  | 0x30 => { s with replay := { s.replay with
      spans := s.replay.spans ++ [(bits (w 0) 42 40, w 3 % 2 ^ 32, w 1, w 1 + w 2 % 2 ^ 48)] } }
  | _ => { s with replay := { s.replay with anchors := s.replay.anchors ++ [(w 1, r)] } }

/-- Segments whose first slot has come are read from the work area; those below the slot leave it. -/
def State.replayTake (s : State) (x : SI) : State :=
  let due := s.replay.input.filter (fun g => !g.loaded && decide (g.first ≤ x))
  let s : State := { s with replay := { s.replay with
    input := (s.replay.input.map (fun g => if g.first ≤ x then { g with loaded := true } else g)).filter (fun g => decide (x ≤ g.last)) } }
  due.foldl (fun s g => g.items.foldl (fun s i => s.replayLoad i.record) s) s

/-- ST reconstructed after an ANCHOR or TIMESTEP record (R287, R288). -/
def State.replayAnchor (s : State) (x : SI) (r : Rec) : State :=
  let w := fun i => (r.words.getD i 0).toNat
  let a := if r.type = 0x10 then some (x, w 2 + w 3 % 2 ^ 32 * 2 ^ 64, w 4)
    else s.replay.anchor.map (fun o =>
      (x, toField 96 ((s.stOf 1 x : Int) + toSigned 96 (w 2 + w 3 % 2 ^ 32 * 2 ^ 64)), o.2.2))
  { s with replay := { s.replay with anchor := a } }

/-- ANCHOR and TIMESTEP records up to slot x are consumed: each is copied to the output (R328). -/
def State.replayTimes (s : State) (x : SI) : State :=
  let due := s.replay.anchors.filter (fun e => decide (e.1 ≤ x))
  let s : State := { s with replay := { s.replay with anchors := s.replay.anchors.filter (fun e => decide (x < e.1)) } }
  due.foldl (fun s e => (s.replayAnchor e.1 e.2).place (specialSource 2) { e.2 with span := some (e.1, e.1) }) s

/-- One slot of the replay sequencer, where it can be evaluated. -/
def State.replaySlot (s : State) : State × Bool :=
  let x := s.seq1.next
  if !s.replaying || !s.seq1.more || decide (s.replay.upto ≤ x) then (s, false)
  else
    let s := ((s.replayTake x).replayTimes x).evalSlot 1
    ({ s with replay := { s.replay with pos := x } }, true)

/-- Up to n slots of the replay sequencer. -/
def State.replaySlots (s : State) (n : Nat) : State :=
  match n with
  | 0 => s
  | m + 1 =>
    match s.replaySlot with
    | (t, true) => t.replaySlots m
    | (t, false) => t

/-- SLOT_EVALUATION: up to `slots` slots of a sequencer: the live one as its cycles allow, the replay one as its input allows. Its job's reads go on here where its rate held them back or it was suspended. -/
def rowSlotEvaluation (t : SI) (q : Fin 2) (slots : Nat) (s : State) : State :=
  let s := s.moment t
  if q.val = 0 then (s.advanceEngines.liveSlots s.fieldsBy slots) else s.replayGo.replaySlots slots

/-! ### The end of the job -/

/-- The slot at which a replay's evaluation stands. -/
def State.replayAt (s : State) : SI := s.seq1.next

/-- A STOP_RUN action has ended the evaluation. -/
def State.replayStopped (s : State) : Bool := s.seq1.stopAt.any (fun b => decide (b ≤ s.seq1.next))

/-- Every slot that the accepted input allows has been evaluated. -/
def State.replayEvaluated (s : State) : Bool := !s.seq1.armed || decide (s.replay.upto ≤ s.seq1.next)

/-- The job's work has ended: DONE or FAILED (R152, R326, R327). -/
def State.replayOutcome (s : State) : Option JobState :=
  if s.replayStopped then some .done
  else if s.replay.failed && s.replayEvaluated then some .failed
  else if s.replay.ended && s.replayEvaluated then some .done
  else none

/-- Result words (R329). -/
def Replay.words (r : Replay) : List Nat := [r.acc, r.rej, r.tacks, r.firstRej]

/-- The sequencer stops: pending bastes are unpicked with reason 1 at the first unevaluated slot (R329). -/
def State.replayStop (s : State) : State :=
  let s := s.unpickAll 1 s.replayAt 1
  s.modSeq 1 (fun q => { q with armed := false, stopAt := none, edges := [], events := [] })

end Sys2Proof.Machine
end

