-- ==== Sys2Proof/Machine/Dram.lean ====
section
/-! DEFINITION. The DRAM controller (R363 to R394): reads and their errors, rank retirement and migration,
refresh, self-refresh, scrubbing, and SET_DRAM_MAP, TRAIN, MIGRATE_RANK and SCRUB. -/

namespace Sys2Proof.Machine

/-! ### Ranks -/

/-- Physical rank k of channel c changed by f. -/
def State.modRank (s : State) (c k : Nat) (f : Rank → Rank) : State :=
  { s with dram := { s.dram with ranks := tmod s.dram.ranks (4 * c + k) {} f } }

/-- The spare rank of channel c, where it has one. -/
def Dram.spare (d : Dram) (c : Nat) : Option Nat := (List.range 4).find? (fun k => (d.rank c k).state = 2)

/-- An active MIGRATE_RANK job names channel c. -/
def State.migratesOn (s : State) (c : Nat) : Bool := s.cmd.jobs.any (fun j => j.ctx.opcode = 0x0911 && pField j.ctx.params 0 1 = c)

/-- Channel c has a free spare (R382, R383). -/
def State.freeSpare (s : State) (c : Nat) : Bool := (s.dram.spare c).isSome && !s.migratesOn c

/-- A migration is in progress. -/
def State.migrating (s : State) : Bool := s.dram.mig.isSome

/-- MiB in a rank. -/
def Dram.rankMib (d : Dram) : Nat := if d.dense then 65536 else 32768

/-- The copy of job j starts (R383): the source is migrated from, event 163; a rank that is not yet retired retires with event 162. -/
def State.startCopy (s : State) (j c k : Nat) : State :=
  match s.dram.spare c with
  | none => s
  | some sp =>
    let s := s.dramWake
    let fresh := (s.dram.rank c k).state ≠ 4
    let s := s.modRank c k (fun r => { r with state := 3 })
    let m : Migration := { job := j, channel := c, source := k, spare := sp }
    let s : State := { s with dram := { s.dram with
      mig := some m, migLost := 0, migChannel := c, migSource := k, migSpare := sp, migPos := 0 } }
    (s.raiseIf fresh 162).raise 163

/-- A MIGRATE_RANK job accepted: RUNNING where no other migration is active. -/
def State.startMigration (s : State) (c : Ctx) : State :=
  let id := s.cmd.nextJob
  if s.migrating || (s.jobOf 0x0911).isSome then s.startJob c .queued 0
  else (s.startJob c .running 0).startCopy id (pField c.params 0 1) (pField c.params 1 1)

/-- A rank that stays in service as DEGRADED, event 165. -/
def State.degrade (s : State) (c k : Nat) : State := (s.modRank c k (fun r => { r with state := 5 })).raise 165

/-- Result words of a migration (R389). -/
def State.migrationWords (s : State) (m : Migration) : List Nat := [m.pos, m.lost, (s.dram.rank m.channel m.source).state]

/-- The copy has ended: the spare serves the logical rank and the source is retired (R383). -/
def State.endCopy (s : State) (m : Migration) : State :=
  let logical := (s.dram.rank m.channel m.source).logical
  let s := s.modRank m.channel m.spare (fun r => { r with state := 1, logical := logical })
  let s := s.modRank m.channel m.source (fun r => { r with state := 4 })
  let s : State := { s with dram := { s.dram with mig := none, idleSince := s.time.si } }
  (s.endJob m.job .done (s.migrationWords m)).raise 164

/-- The spare fails during the copy (R385). -/
def State.spareFails (s : State) (m : Migration) : State :=
  let s := s.modRank m.channel m.spare (fun r => { r with state := 4 })
  let s := s.degrade m.channel m.source
  let s : State := { s with dram := { s.dram with mig := none, idleSince := s.time.si } }
  s.endJob m.job .failed (s.migrationWords m)

/-- A migration that is cancelled before its copy began leaves a rank that is already retired without a spare: its logical rank is UNBACKED (R384). -/
def State.dropQueuedCopy (s : State) (c k : Nat) : State :=
  if (s.dram.rank c k).state = 4 then
    let logical := (s.dram.rank c k).logical
    let s := s.modRank c k (fun r => { r with state := 6 })
    ({ s with dram := { s.dram with unbacked := ninsert s.dram.unbacked (4 * c + logical) } } : State).raise 166
  else s

/-- A cancelled copy: the spare is free again and the logical rank UNBACKED (R384). -/
def State.cancelCopy (s : State) (m : Migration) : State × List Nat :=
  let logical := (s.dram.rank m.channel m.source).logical
  let s := s.modRank m.channel m.spare (fun r => { r with state := 2 })
  let s := s.modRank m.channel m.source (fun r => { r with state := 6 })
  let s : State := { s with dram := { s.dram with mig := none, unbacked := ninsert s.dram.unbacked (4 * m.channel + logical), idleSince := s.time.si } }
  (s.raise 166, s.migrationWords m)

/-- Address of 64-byte access j, of 16,384, of the block at MiB `pos` of logical rank l of channel c (R368, R383). -/
def Dram.blockAddr (d : Dram) (c l pos j : Nat) : Nat :=
  let base := l * 2 ^ (21 + d.rw) + pos * 4194304
  match d.map with
  | 0 | 1 => base + 256 * j + 64 * c
  | 2 =>
    let k := Nat.log2 d.logRanks
    pos * 2 ^ (22 + k) + j / 2 * 2 ^ (9 + k) + l * 512 + j % 2 * 256 + 64 * c
  | _ => base + j / 256 * 65536 + c * 16384 + j % 256 * 64

/-- Bytes read and written as internal traffic (R393). -/
def Dram.counted (d : Dram) (rd wr : Nat) : Dram := { d with rdBytes := d.rdBytes + rd, wrBytes := d.wrBytes + wr }

/-- The accesses `js` of a block: each is read from the source and written to the spare (R370, R383). -/
def Dram.copyAccesses (d : Dram) (m : Migration) (now : SI) (js : List Nat) : Dram :=
  js.foldl (fun x j =>
    let a := d.blockAddr m.channel (d.rank m.channel m.source).logical m.pos j
    (x.useBank a m.source now (decide (j < 16383))).useBank a m.spare now (decide (j < 16383))) d

/-- The copy of one block by internal traffic (R383, R393). -/
def Dram.copyBlock (d : Dram) (m : Migration) (now : SI) : Dram := (d.copyAccesses m now (List.range 16384)).counted 1048576 1048576

/-- One block copied. -/
def State.copyBlock (s : State) (m : Migration) : State := { s with dram := s.dram.copyBlock m s.time.si }

/-- One word of a block that the copy finds uncorrectable: it takes the migration marker on the spare, and the read counts as an uncorrectable one of the source
(R379, R383, R385). -/
def State.loseWord (s : State) (m : Migration) (j : Nat) : State :=
  let a := s.dram.blockAddr m.channel (s.dram.rank m.channel m.source).logical m.pos (j % 16384)
  (({ s with dram := { (s.dram.mark a 2) with ueAddr := a } } : State).modRank m.channel m.source (fun r => { r with ue := satInc 8 r.ue })).raise 161

/-- MIGRATION_BLOCK_COPIED: the copy pointer moves on, the words `lost` of the block took the migration marker; or the spare failed (R383, R385). -/
def rowMigrationBlockCopied (t : SI) (lost : List Nat) (spareBad : Bool) (s : State) : State :=
  let s := s.moment t
  match s.dram.mig with
  | none => s
  | some m =>
    if !s.cmd.jobs.any (fun j => j.id = m.job && j.state = .running) then s
    else if spareBad then (s.spareFails m)
    else
      let s := lost.foldl (fun s j => s.loseWord m j) (s.copyBlock m)
      let m := { m with pos := m.pos + 1, lost := m.lost + lost.length }
      let s : State := { s with dram := { s.dram with mig := some m, migLost := satAdd 16 s.dram.migLost lost.length, migPos := m.pos } }
      if s.dram.rankMib ≤ m.pos then (s.endCopy m) else s

/-! ### Reads (R374, R378 to R382) -/

/-- The latency target of a port in ns; none for internal traffic (R372). -/
def portTarget (port : Nat) : Option Nat :=
  match port with
  | 0 | 1 | 2 | 3 | 8 => some 4000
  | 4 => some 20000
  | 5 => some 40000
  | 6 => some 100000
  | 7 => some 1000
  | 9 => some 2000
  | _ => none

/-! ### The next access of a channel (R371 to R373) -/

/-- CHP_STG_FILL.FILL is 768 or more: the region writer ports take urgency 3 (R372). -/
def State.stagingUrgent (s : State) : Bool := decide (768 ≤ unitsUp 11 65536 s.data.fill)

/-- The urgency of a port whose oldest outstanding request is `age` ns old (R372). -/
def State.urgency (s : State) (port age : Nat) : Nat :=
  if port < 4 && s.stagingUrgent then 3
  else match portTarget port with
    | none => 0
    | some x => if 100 * age < 50 * x then 0 else if 100 * age < 75 * x then 1 else if 100 * age < 90 * x then 2 else 3

/-- The age of a port's oldest request. -/
def portAge (reqs : List DramReq) (port : Fin 11) : Nat := ((reqs.filter (fun q => q.port = port)).map DramReq.ageNs).foldl max 0

/-- The port order of R373. -/
def portOrder (port : Nat) : Nat := ([7, 8, 9, 0, 1, 2, 3, 4, 5, 6, 10] : List Nat).findIdx (fun p => p = port)

/-- Writes to bank k, with what waits oldest first, that must be issued before its in-order mode ends: those that arrived before the latest read which found a
write to its own row pending (R371). -/
def Dram.orderedBy (d : Dram) (all : List DramReq) (k : Nat) : Nat :=
  let here := all.filter (fun q => d.bankOf q.addr = k)
  let row := fun (q : DramReq) => (d.split q.addr).row
  (List.range here.length).foldl (fun a i => match here[i]? with
    | some r =>
      let before := (here.take i).filter (fun w => w.write)
      if !r.write && before.any (fun w => row w = row r) then max a before.length else a
    | none => a) ((tfind d.ordered k).getD 0)

/-- Once access q is issued, its bank stays in in-order mode for the writes that remain (R371). -/
def Dram.issued (d : Dram) (all : List DramReq) (q : DramReq) : Dram :=
  let k := d.bankOf q.addr
  let n := d.orderedBy all k - b2n q.write
  { d with ordered := if n = 0 then tdel d.ordered k else tput d.ordered k n }

/-- Access q of those that wait at its channel is issued. -/
def State.issueAccess (s : State) (mine : List DramReq) (q : DramReq) : State := { s with dram := s.dram.issued mine q }

/-- An access before which `older` wait at its channel may not be issued yet (R371): its bank is in in-order mode and another access of the bank is older, or it
writes and an older read wants the same 64 bytes. -/
def Dram.held (d : Dram) (older : List DramReq) (q : DramReq) (all : List DramReq) : Bool :=
  (d.orderedBy all (d.bankOf q.addr) ≠ 0 && older.any (fun x => d.bankOf x.addr = d.bankOf q.addr)) ||
    (q.write && older.any (fun x => !x.write && x.addr / 64 = q.addr / 64))

/-- What decides between two accesses that may be issued, the smaller first: urgency of the port, by its oldest request at any channel, page hit, read or write,
port (R372, R373). -/
def State.accessKey (s : State) (all mine : List DramReq) (q : DramReq) : Nat :=
  let miss := b2n (((tfind s.dram.banks (s.dram.bankOf q.addr)).getD {}).row ≠ some (s.dram.split q.addr).row)
  let busy := decide (48 ≤ (mine.filter (fun r => r.write)).length)
  (((3 - s.urgency q.port.val (portAge all q.port)) * 2 + miss) * 2 + b2n (q.write && !busy)) * 11 + portOrder q.port.val

/-- The access that the controller chooses next among those of a channel, oldest first, of all that wait (R373), with how many of its channel are older. -/
def State.nextAccess (s : State) (all mine : List DramReq) : Option (DramReq × Nat) :=
  let free := mine.zipIdx.filter (fun x => !s.dram.held (mine.take x.2) x.1 mine)
  (free.foldl (fun (best : Option (DramReq × Nat)) x => match best with
    | none => some x
    | some b => if s.accessKey all mine x.1 < s.accessKey all mine b.1 then some x else some b) none)

/-- A request of a port took `ns` (R374, R394). -/
def State.portLatency (s : State) (port ns : Nat) : State :=
  let s : State := { s with dram := { s.dram with maxNs := tmod s.dram.maxNs port 0 (fun x => max x (min ns 65535)) } }
  if (portTarget port).any (fun x => decide (x < ns)) then
    let s' : State := { s with dram := { s.dram with
      miss := tmod s.dram.miss port 0 (satInc 16), missEvent := some (s.time.si / 1048576) } }
    s'.raiseIf (onceAnchor s s.dram.missEvent) 173
  else s

/-- A corrected read of physical rank k of channel c: counted, and the corrected data written back (R378). -/
def State.corrected (s : State) (c k : Nat) : State :=
  let n := satInc 32 (s.dram.rank c k).ce
  (({ s with dram := { s.dram with wrBytes := s.dram.wrBytes + 64 } } : State).modRank c k (fun r => { r with ce := n })).raiseIf (s.dram.ceThresh ≠ 0 && n = s.dram.ceThresh) 160

/-- An uncorrectable read at byte address a is recorded: its words, its address, the rank's counter, event 161 (R382). -/
def State.countUncorrectable (s : State) (c k a : Nat) : State :=
  (({ s with dram := { (s.dram.mark a 1) with ueAddr := a } } : State).modRank c k (fun r => { r with ue := satInc 8 r.ue })).raise 161

/-- An uncorrectable read of physical rank k of channel c at byte address a (R382, R385). -/
def State.uncorrectable (s : State) (c k a : Nat) : State :=
  let s := s.countUncorrectable c k a
  match (s.dram.rank c k).state with
  | 1 =>
    if s.freeSpare c then
      let s := (s.modRank c k (fun r => { r with state := 4 })).raise 162
      s.startMigration { origin := firmware, opcode := 0x0911, params := leBytes 1 c ++ leBytes 1 k ++ leBytes 2 4000 ++ leBytes 4 0 }
    else s.degrade c k
  | 2 => match s.dram.mig with
    | some m => if m.channel = c ∧ m.spare = k then s.spareFails m else s
    | none => s
  | _ => s

/-- What a read finds: errors counted, ranks retired, and a poisoned delivery reported (R378 to R382). -/
def State.readFound (s : State) (kind : ReadKind) (c k a : Nat) : State :=
  match kind with
  | .clean => s
  | .corrected => s.corrected c k
  | .uncorrectable => s.uncorrectable c k a
  | .poisonMarker | .migrationMarker => s

/-- The entry whose second copy stands at place n: the channel bits [7:6] and [15:14] of the address differ. -/
def secondOf (n : Nat) : Nat := Nat.xor n 257

/-- A poisoned read of a context or log entry (R381): the first copy is written again from the second; where the second is poisoned too, the context's
bobbin undergoes a queue reset, or the entry is lost. Context and entry n stand at place n of the first half of their area, the second copy at place n XOR 257 of
the second half, which every address map puts on another channel (R368; DESIGN CHOICE, notes/assumptions/73.md: the spec does not give the places). -/
def State.bothCopies (s : State) (port a : Nat) : State :=
  let ofs := a - s.dram.reserved
  if port = 7 ∧ ofsContexts ≤ ofs ∧ ofs < ofsContexts + 2 ^ 24 ∨ port = 8 ∧ ofsLog ≤ ofs ∧ ofs < ofsLog + 2 ^ 25 then { s with dram := s.dram.unmark a }
  else if port = 7 ∧ ofsContexts + 2 ^ 24 ≤ ofs ∧ ofs < ofsLog then (s.queueReset (secondOf ((ofs - ofsContexts - 2 ^ 24) / 64))).raise 171
  else if port = 8 ∧ ofsLog + 2 ^ 25 ≤ ofs ∧ ofs < ofsRemainder then
    let n := secondOf ((ofs - ofsLog - 2 ^ 25) / 64)
    ({ s with log := { s.log with entries := s.log.entries.map (fun e =>
      if e.sequence % 2 ^ 40 % logSize = n then { e with lost := true } else e) } } : State).raise 171
  else s

/-- A word that a running SCRUB job reads in its range, as internal traffic, counts in its result words: MiB scrubbed, corrected, uncorrectable (R386, R390). -/
def State.scrubbed (s : State) (a : Nat) (kind : ReadKind) : State :=
  match s.jobOf 0x0912 with
  | none => s
  | some j =>
    let start := pField j.ctx.params 0 8
    let w := fun k => j.result.getD k 0
    if j.state ≠ .running || decide (a < start) || decide (start + pField j.ctx.params 8 8 ≤ a) then s
    else s.modJob j.id (fun x => { x with
      result := [max (w 0) ((a / 64 * 64 + 64 - start) / 1048576), w 1 + b2n (kind = .corrected), w 2 + b2n (kind = .uncorrectable)] })

/-- ns that n slots take. -/
def nsOfSlots (khz n : Nat) : Nat := n * 1000000 / (if khz = 0 then 1 else khz)

/-- The data of a read goes back to its port: its latency, and what a poisoned delivery brings (R374, R380, R381). -/
def State.returnRead (s : State) (r : DramReturn) : State :=
  let s := s.portLatency r.port (r.ns + nsOfSlots s.time.ref.rateKhz (s.time.si - r.at_))
  if !poisonedKind r.kind then s
  else
    let s := s.poisonRead
    if r.port = 6 then s.replayPoison else s.bothCopies r.port r.addr

/-- A read has been issued, `r.ahead` older reads of its port being still to be issued: data goes back to each port in the order of its requests (R371). -/
def State.readReturns (s : State) (r : DramReturn) : State :=
  let later := fun (e : DramReturn) => e.port = r.port && decide (r.ahead < e.ahead)
  let n := (s.dram.returns.takeWhile (fun e => !later e)).length
  let next := s.dram.returns.map (fun e => if later e then { e with ahead := e.ahead - 1 } else e)
  let all := next.take n ++ [r] ++ next.drop n
  let s : State := { s with dram := { s.dram with returns := all.filter (fun e => e.ahead ≠ 0) } }
  (all.filter (fun e => e.ahead = 0)).foldl State.returnRead s

/-- A 64-byte access is made: a read finds what the ECC finds there (R374, R378 to R382). `ahead` are the older reads of its port that still wait. -/
def State.accessDone (s : State) (q : DramReq) (ahead : Nat) (more : Bool) (kind : ReadKind) : State :=
  let s : State := { s with dram := s.dram.touch q.addr s.time.si more q.write }
  if q.write then
    let s := s.portLatency q.port.val q.ageNs
    if s.dram.inBobbins q.addr then s else { s with dram := s.dram.unmark q.addr }
  else
    let kind := s.dram.found q.addr kind
    let s := s.readFound kind (s.dram.split q.addr).ch (s.dram.serving q.addr) q.addr
    let s := if q.port.val = 10 then s.scrubbed q.addr kind else s
    s.readReturns { port := q.port.val, addr := q.addr, kind := kind, ns := q.ageNs, at_ := s.time.si, ahead := ahead }

/-! ### Refresh (R370, R375) -/

/-- The rows that a test picks closed. -/
def Dram.closeRowsOf (d : Dram) (p : Nat → Bool) : Dram := { d with banks := d.banks.map (fun e => if p e.1 then (e.1, { e.2 with row := none }) else e) }

/-- Every bank's row closed. -/
def Dram.closeRows (d : Dram) : Dram := d.closeRowsOf (fun _ => true)

/-- tREFI in ns (R375). -/
def Dram.trefi (d : Dram) : Nat := if d.warm then 1950 else 3900

/-- Intervals of tREFI that have ended. -/
def State.refreshDue (s : State) : Nat := (s.time.si - s.dram.refFrom) / slotsOfNs s.time.ref.rateKhz s.dram.trefi

/-- One refresh: outside runs of all banks of every rank, which ends the interval's refresh; during a run of the next bank index, the fourth of which ends it
(R375). Refresh closes the rows of its banks (R370). -/
def State.refreshOne (s : State) : State :=
  let d := s.dram
  if s.cap.runState = 0 then { s with dram := { d.closeRows with refreshes := d.refreshes + 1, refDone := d.refDone + 1, refBank := 0 } }
  else
    let last := decide (3 ≤ d.refBank)
    { s with dram := { (d.closeRowsOf (fun k => k % 4 = d.refBank)) with
      refreshes := d.refreshes + b2n last, refDone := d.refDone + b2n last, refBank := if last then 0 else d.refBank + 1 } }

/-- n intervals' refresh at once. -/
def State.refreshMany (s : State) (n : Nat) : State :=
  if n = 0 then s
  else { s with dram := { s.dram.closeRows with refreshes := s.dram.refreshes + n, refDone := s.dram.refDone + n, refBank := 0 } }

/-- Before an access is made, the refresh that may not be postponed any longer: all that is due, or, while a port has urgency 3, what is due beyond 4 intervals
(R375). -/
def State.catchUp (s : State) (all : List DramReq) : State :=
  let urgent := all.any (fun q => s.urgency q.port.val (portAge all q.port) = 3)
  s.refreshMany (s.refreshDue - (if urgent then 4 else 0) - s.dram.refDone)

/-- DRAM_READ_COMPLETE: of the accesses that wait at the channel, oldest first, the controller makes the next one (R371, R373). -/
def rowDramReadComplete (t : SI) (reqs : List DramReq) (channel : Fin 4) (kind : ReadKind) (s : State) : State :=
  let s := s.moment t
  let all := reqs.filter (fun q => s.dram.accessible q.addr)
  let mine := all.filter (fun q => (s.dram.split q.addr).ch = channel.val)
  if !s.dram.trained || mine = [] then s
  else
    let s := s.dramWake.catchUp all
    match s.nextAccess all mine with
    | none => s
    | some (q, _) =>
      let older := all.takeWhile (fun x => x ≠ q)
      let ahead := (older.filter (fun x => !x.write && x.port = q.port)).length
      let more := decide (1 < (mine.filter (fun x => s.dram.bankOf x.addr = s.dram.bankOf q.addr)).length)
      (s.issueAccess mine q).accessDone q ahead more kind

/-- PATROL_SCRUB: one word read and corrected as internal traffic; it pauses in self-refresh (R377, R386). The channel and the physical rank are those
that serve the address (R368, R382): a row that names others does nothing. -/
def rowPatrolScrub (t : SI) (addr : Nat) (channel rank : Fin 4) (kind : ReadKind) (s : State) : State :=
  let s := s.moment t
  let d := s.dram
  if !d.trained || d.patrolHours = 0 || d.selfRefresh || decide (d.capacity ≤ addr) ||
      (d.split addr).ch ≠ channel.val || d.serving addr ≠ rank.val then s
  else
    let s : State := { s with dram := { (d.touch addr s.time.si false false) with patrolled := d.patrolled + 1, idleSince := d.idleSince } }
    s.readFound (d.found addr kind) channel.val rank.val addr

/-! ### Refresh, self-refresh, temperature (R370, R375 to R377) -/

/-- No port has a request outstanding as far as the state shows one: staging is written, nothing owed is to be read back, no replay reads (R375, R377). -/
def State.portsIdle (s : State) : Bool :=
  s.data.staging.all (fun g => g.inDram) && !s.replaying &&
    s.bob.tab.all (fun e => e.2.queue.all (fun q => !q.isOwed || q.ready || s.ringStopped e.2))

/-- A refresh may be issued (R375): its interval is due, or, while idle, at most 4 intervals ahead. -/
def State.refreshOk (s : State) : Bool := decide (s.dram.refDone < s.refreshDue) || (s.portsIdle && decide (s.dram.refDone < s.refreshDue + 4))

/-- REFRESH_INTERVAL: a refresh command (R370, R375). -/
def execRefreshInterval (t : SI) (s : State) : Host.Outcome State Fault Refusal :=
  let s := s.moment t
  if !s.dram.trained || s.dram.selfRefresh || !s.refreshOk then .next s else .next s.refreshOne

/-- ROW_IDLE_CLOSE: a row without an access for 2 µs is closed (R370), except under PAGE 1, which keeps every row open. -/
def execRowIdleClose (t : SI) (bank : Nat) (s : State) : Host.Outcome State Fault Refusal :=
  let s := s.moment t
  if (tfind s.dram.banks bank).all (fun b => decide (s.time.si < b.last + slotsOfNs s.time.ref.rateKhz 2000)) || s.dram.page = 1 then .next s
  else .next { s with dram := { s.dram with banks := tmod s.dram.banks bank {} (fun b => { b with row := none }) } }

/-- DIMM_TEMPERATURE_READ: WARM above 85 °C, HOT above 95 °C, events 167 and 168 on entry (R375, R376). -/
def execDimmTemperatureRead (t : SI) (celsius : List Int) (s : State) : Host.Outcome State Fault Refusal :=
  let s := s.moment t
  let warm := celsius.any (fun c => decide (85 < c))
  let hot := celsius.any (fun c => decide (95 < c))
  let was := s.dram
  let s : State := { s with dram := { was with
    warm := warm, hot := hot, refFrom := if warm = was.warm then was.refFrom else s.time.si, refDone := if warm = was.warm then was.refDone else 0 } }
  .next ((s.raiseIf (warm && !was.warm) 167).raiseIf (hot && !was.hot) 168)

/-- The controller may enter self-refresh (R377). -/
def State.dramIdle (s : State) : Bool :=
  let d := s.dram
  d.trained && !d.selfRefresh && d.srIdleUs ≠ 0 && s.cap.runState = 0 && !s.runningOf 0x0911 && !s.runningOf 0x0912 &&
    s.portsIdle && decide (d.idleSince + slotsOfNs s.time.ref.rateKhz (1000 * d.srIdleUs) ≤ s.time.si)

/-- SELF_REFRESH_ENTRY. -/
def execSelfRefreshEntry (t : SI) (s : State) : Host.Outcome State Fault Refusal :=
  let s := s.moment t
  if s.dramIdle then .next (({ s with dram := { s.dram.closeRows with selfRefresh := true } } : State).raise 169) else .next s

/-- SELF_REFRESH_EXIT: a request of some port comes (R377). -/
def execSelfRefreshExit (t : SI) (s : State) : Host.Outcome State Fault Refusal :=
  let s := s.moment t
  .next s.dramWake

/-- DQS_COMPENSATION, every 64 ms outside self-refresh. -/
def execDqsCompensation (t : SI) (s : State) : Host.Outcome State Fault Refusal :=
  let s := s.moment t
  if !s.dram.trained || s.dram.selfRefresh then .next s else .next { s with dram := { s.dram with dqs := s.dram.dqs + 1 } }

/-! ### SET_DRAM_MAP (R387, R391) -/

/-- What forbids TRAIN and a change of MAP. -/
def State.dramBusy (s : State) : Bool :=
  s.cap.runState ≠ 0 || s.cap.slots.any (fun w => decide (2 ≤ w.2.state)) || s.bob.tab.any (fun e => e.2.loc1) ||
    s.cmd.jobs.any (fun j => j.ctx.opcode = 0x0810 || j.ctx.opcode = 0x0510 || j.ctx.opcode = 0x0911 || j.ctx.opcode = 0x0912)

/-- SET_DRAM_MAP changes the map. -/
def mapChanges (s : State) (p : List Byte) : Bool := pField p 0 1 ≠ 255 && pField p 0 1 ≠ s.dram.map

/-- SET_DRAM_MAP returns BAD_PARAM. -/
def setDramMapBad (p : List Byte) : Bool :=
  !(p.length = 16) || !(pIn p 0 1 0 3 || pField p 0 1 = 255) || !(pIn p 1 1 0 2 || pField p 1 1 = 255) ||
    !(pIn p 4 4 0 10000 || pField p 4 4 = 4294967295) || !pZero p 8 8

/-- SET_DRAM_MAP returns BAD_STATE. -/
def setDramMapBadState (s : State) (p : List Byte) : Bool :=
  (mapChanges s p && s.dramBusy) ||
    (pField p 0 1 = 2 && !(s.dram.logRanks = 1 || s.dram.logRanks = 2 || s.dram.logRanks = 4))

/-- SET_DRAM_MAP. A change of map discards the content of both rings. -/
def setDramMap (p : List Byte) (s : State) : State :=
  let changed := mapChanges s p
  let d := s.dram
  let s : State := { s with dram := { d with
    map := if pField p 0 1 = 255 then d.map else pField p 0 1
    page := if pField p 1 1 = 255 then d.page else pField p 1 1
    ceThresh := pField p 2 1, patrolHours := pField p 3 1
    srIdleUs := if pField p 4 4 = 4294967295 then d.srIdleUs else pField p 4 4 } }
  if changed then s.discardRings s.boundary else s

/-! ### TRAIN (R364, R366, R388, R449) -/

/-- TRAIN returns BAD_PARAM: 6400 MT/s is refused at 2 DIMMs per channel. -/
def trainBad (s : State) (p : List Byte) : Bool :=
  !(p.length = 8) || !pBits p 0 1 || !pIn p 1 1 0 3 || !pZero p 4 4 || (pField p 1 1 = 3 && s.dram.dpc2)

/-- TRAIN returns BAD_STATE. -/
def trainBadState (s : State) : Bool := s.dramBusy || decide (7168 < s.log.entries.length)

/-- Training begins: all DRAM content is discarded, and the unreleased log entries are carried in the on-chip log. -/
def State.beginTraining (s : State) : State :=
  let s := s.discardRings s.boundary
  { s with
    dram := { s.dram with
      training := true, trained := false, selfRefresh := false, mig := none, unbacked := [], markers := [], mem := [], banks := [], ranks := [], ordered := [],
      returns := [], refBank := 0 }
    data := { s.data with special := {}, anchors := [] }
    log := { s.log with onchipOnly := true, carried := s.log.carried || !s.log.onchipOnly } }

/-- TRAIN accepted: it runs at once unless another TRAIN is active. -/
def trainEffect (c : Ctx) (s : State) : State :=
  if (s.jobOf 0x0910).isSome then s.startJob c .queued 0 else (s.startJob c .running 0).beginTraining

/-- Physical ranks of a channel that serve, the spare left out, under an exclusion mask. -/
def servingRanks (f : DimmFindings) (spare : Bool) (out c : Nat) : List Nat :=
  (List.range (f.physRanks.val - b2n spare)).filter (fun k => !bit out (4 * c + k))

/-- The ranks excluded, coded as EXCLUDE: named or failed, and installed. -/
def excludedRanks (f : DimmFindings) (exclude : Nat) : Nat :=
  let m := Nat.lor exclude f.failed.toNat
  (List.range 16).foldl (fun a i => if bit m i && decide (i % 4 < f.physRanks.val) then a + 2 ^ i else a) 0

/-- DIMMs outside the limits of R363, as far as their arrangement shows it: more than two ranks on a DIMM, or none. Three ranks on two DIMMs are DIMMs that differ
(R364). -/
def outsideLimits (f : DimmFindings) : Bool :=
  f.physRanks.val = 0 || (!f.twoPerChannel && decide (2 < f.physRanks.val)) || (f.twoPerChannel && decide (f.physRanks.val < 2))

/-- The failure code of a training; none where it ends DONE. -/
def trainFailure (f : DimmFindings) (p : List Byte) : Option Nat :=
  let out := excludedRanks f (pField p 2 2)
  let counts := (List.range 4).map (fun c => (servingRanks f (bit (pField p 0 1) 0) out c).length)
  if f.unsupported || outsideLimits f || (pField p 1 1 = 3 && f.twoPerChannel) then some 1
  else if f.differ || (f.twoPerChannel && f.physRanks.val = 3) then some 2
  else if f.spdUnreadable then some 3
  else if counts.any (fun n => n = 0) then some 4
  else if counts.any (fun n => n ≠ counts.getD 0 0) then some 5
  else none

/-- The data rate in MT/s. -/
def trainSpeed (f : DimmFindings) (p : List Byte) : Nat :=
  match pField p 1 1 with
  | 0 => if f.twoPerChannel then 5600 else 6400
  | 1 => 4800
  | 2 => 5600
  | _ => 6400

/-- The state of every installed rank after training (R366). -/
def trainedRanks (f : DimmFindings) (spare : Bool) (out : Nat) : Tab Rank :=
  (List.range 4).flatMap (fun c => (List.range f.physRanks.val).map (fun k =>
    let st := if bit out (4 * c + k) then 4 else if spare && k + 1 = f.physRanks.val then 2 else 1
    (4 * c + k, ({ state := st, logical := if st = 1 then ((servingRanks f spare out c).findIdx (fun x => x = k)) else 0 } : Rank))))

/-- Log entries go to the DRAM log again, those carried with them (R448). -/
def Log.toDram (l : Log) : Log := { l with onchipOnly := false, carried := false }

/-- Training has ended DONE (R234, R366 to R369, R387). -/
def State.trained (s : State) (f : DimmFindings) (p : List Byte) : State :=
  let spare := bit (pField p 0 1) 0
  let out := excludedRanks f (pField p 2 2)
  let l := (servingRanks f spare out 0).length
  let gib := 4 * l * (if f.dense then 64 else 32)
  let free := gib - 17
  let s : State := { s with
    dram := { s.dram with
      trained := true, training := false, map := 0, speed := trainSpeed f p, usable := gib, free := free, logRanks := l,
      physRanks := f.physRanks.val, dense := f.dense, spares := spare, dpc2 := f.twoPerChannel, patrolHours := 24, ceThresh := 16,
      srIdleUs := 10, ranks := trainedRanks f spare out, banks := [], idleSince := s.time.si, refFrom := s.time.si, refDone := 0 }
    cap := { s.cap with lbGib := 3 * free / 4, redGib := free / 8, share := [16, 16, 16, 16], pinLimit := 50 }
    log := s.log.toDram }
  s

/-- TRAIN's job ends with what training found: its outcome and result words. -/
def State.endTraining (s : State) (j : Job) (f : DimmFindings) : State :=
  let p := j.ctx.params
  let spare := bit (pField p 0 1) 0
  let out := excludedRanks f (pField p 2 2)
  match trainFailure f p with
  | some code =>
    let s : State := { s with dram := { s.dram with training := false, usable := 0, free := 0 } }
    s.endJob j.id .failed [code, trainSpeed f p, 0, out]
  | none =>
    let s := s.trained f p
    s.endJob j.id .done [s.dram.usable, s.dram.speed, s.dram.logRanks + 8 * b2n spare, out]

/-! ### MIGRATE_RANK and SCRUB (R389 to R391) -/

/-- MIGRATE_RANK returns BAD_PARAM. -/
def migrateRankBad (p : List Byte) : Bool := !(p.length = 8) || !pIn p 0 1 0 3 || !pIn p 1 1 0 3 || !pIn p 2 2 100 20000 || !pZero p 4 4

/-- MIGRATE_RANK returns BAD_STATE. -/
def migrateRankBadState (s : State) (p : List Byte) : Bool :=
  let st := (s.dram.rank (pField p 0 1) (pField p 1 1)).state
  !s.dram.trained || !(st = 1 || st = 5) || !s.freeSpare (pField p 0 1)

/-- MIGRATE_RANK accepted. -/
def migrateRankEffect (c : Ctx) (s : State) : State := s.startMigration c

/-- SCRUB returns BAD_PARAM. -/
def scrubBad (s : State) (p : List Byte) : Bool :=
  !(p.length = 24) || pField p 0 8 % 1048576 ≠ 0 || pField p 8 8 % 1048576 ≠ 0 || !pIn p 16 2 100 20000 || !pZero p 18 6 ||
    decide (s.dram.usable * 1073741824 < pField p 0 8 + pField p 8 8)

/-- SCRUB returns BAD_STATE: before training, beside another SCRUB, or during a migration (R385, R391). -/
def scrubBadState (s : State) : Bool := !s.dram.trained || (s.jobOf 0x0912).isSome || s.migrating

/-- SCRUB accepted: its result words count from 0. -/
def scrubEffect (c : Ctx) (s : State) : State :=
  let id := s.cmd.nextJob
  (s.dramWake.startJob c .running 0).modJob id (fun j => { j with result := [0, 0, 0] })

/-- The SCRUB job's reads of words that no access of its own has shown: each is corrected or treated as uncorrectable, and counted (R386). -/
def State.scrubFinds (s : State) (found : List (Nat × ReadKind)) : State :=
  found.foldl (fun s e =>
    let kind := s.dram.found e.1 e.2
    ((s.readFound kind (s.dram.split e.1).ch (s.dram.serving e.1) e.1).scrubbed e.1 kind)) s

/-- The job has read its whole range: its result words (R390). -/
def State.scrubWords (s : State) (j : Job) : List Nat :=
  let r := ((s.jobOf 0x0912).map (fun x => x.result)).getD []
  [pField j.ctx.params 8 8 / 1048576, r.getD 1 0, r.getD 2 0]

end Sys2Proof.Machine
end

