-- ==== Sys2Proof/Machine/Backlog.lean ====
section
/-! DEFINITION. The window reader and the backlog reader (R223, R224, R348, R370, R377 to R380): segments read back from DRAM, with what the reads find. -/

namespace Sys2Proof.Machine

/-! ### A segment read from its ring -/

/-- What reading the accesses of a segment finds, `r` being what the ECC finds and at which access: a marker or an UNBACKED rank anywhere in it comes first
(R379, R380, R384). -/
def Dram.foundIn (d : Dram) (as : List Nat) (r : SegRead) : ReadKind :=
  let marks := as.map (fun a => d.found a .clean)
  if marks.any (fun k => k = .migrationMarker) then .migrationMarker
  else if marks.any (fun k => k = .poisonMarker) then .poisonMarker
  else r.kind

/-- A segment is read: self-refresh ends, its banks are accessed, and an error that the ECC finds is corrected or retires its rank (R370, R377, R378, R382). -/
def State.readSegment (s : State) (g : Seg) (r : SegRead) : State × ReadKind :=
  let as := s.segAccesses g
  let s := s.dramWake
  let kind := s.dram.foundIn as r
  let s : State := { s with dram := { (s.dram.touchAll as s.time.si false) with rdBytes := s.dram.rdBytes + g.size, idleSince := s.time.si } }
  match as[r.word]? with
  | none => (s, kind)
  | some a => (if kind = r.kind then s.readFound kind (s.dram.split a).ch (s.dram.serving a) a else s, kind)

/-- The entry of segment g in the ring directory. DESIGN CHOICE (notes/assumptions/72.md): 16 bytes, by the segment's number. -/
def State.dirEntry (s : State) (g : Seg) : Nat := s.dram.reserved + ofsDirectory + 16 * (g.seg % 2 ^ 24)

/-- The span that the ring directory gives segment g: its frames, or, where its entry is poisoned, from the end of the entry before it to the start of the entry
after it (R380). -/
def State.dirSpan (s : State) (g : Seg) : Option (SI × SI) :=
  let own := g.slots.map (fun p => (floor16 p.1, floor16 p.2 + 16))
  if s.dram.found (s.dirEntry g) .clean = .clean then own
  else
    let l := (s.ringFor g.source).segs
    let before := (l.takeWhile (fun y => y.seg ≠ g.seg)).getLast?
    let after := (l.dropWhile (fun y => y.seg ≠ g.seg)).drop 1 |>.head?
    own.map (fun p => ((((before.bind Seg.slots).map (fun x => floor16 x.2 + 16)).getD p.1), (((after.bind Seg.slots).map (fun x => floor16 x.1)).getD p.2)))

/-! ### The rows -/

/-- WINDOW_SEGMENT_READ: one part of an open window takes its next history segment, after the window's first records. A bobbin without
room pauses the window (R224); a poisoned read gives a selvedge in the part instead (R380). -/
def rowWindowSegmentRead (t : SI) (slot : Fin 64) (part : Fin 16) (read : SegRead) (s : State) : State :=
  let s := s.moment t
  match s.cap.slot slot.val with
  | none => s
  | some w =>
    if w.state < 2 || !s.exportRuns w then s
    else match w.parts[part.val]? with
      | none => s
      | some p =>
        let head := if w.opened then [] else s.windowHead w
        let headSeg : Seg := { source := winSource w.policy, windowId := w.id, items := head.map Item.plain, home := p.region }
        let found := s.nextHistory w p
        let kind := match found with
          | some g => s.dram.foundIn (s.segAccesses g) read
          | none => .clean
        let lost := p.lostRecs
        let marred := match found with
          | some g =>
            if kind = .clean || kind = .corrected then []
            else p.newlyMarred (if kind = .migrationMarker then selMigration else selPoison) g.source
              ((s.dirSpan g).getD (floor16 p.start, floor16 p.start + 16))
          | none => []
        let gone := lost ++ marred.map (fun e => p.selvedge e.1 e.2.1 e.2.2)
        let goneSeg : Seg := { headSeg with items := gone.map Item.plain }
        let body : Seg := match found with
          | none => { headSeg with items := [] }
          | some g => if kind = .clean || kind = .corrected then g.windowCut w p (Config.lz4Block s.freeCtr) else { headSeg with items := [] }
        let words := (if w.opened then 0 else headSeg.pieceWords) + (if gone = [] then 0 else goneSeg.pieceWords) +
          (if body.items = [] then 0 else body.pieceWords)
        if words = 0 then s
        else if !s.windowRoom w.policy words then (s.modSlot slot.val (fun x => { x with state := 3 }))
        else
          let s := match found with
            | some g => (s.readSegment g read).1
            | none => s
          let s := if w.opened then s else s.emitWindow headSeg
          let s := if gone = [] then s else s.emitWindow goneSeg
          let s := if body.items = [] then s.tick else (s.emitWindow body).tick
          let s := if found.isSome && poisonedKind kind then s.poisonRead else s
          let at_ := match found with
            | some g => max w.pos (floor16 (min g.lastSi w.reqEnd))
            | none => w.pos
          (s.modSlot slot.val (fun x => ({ x with
            state := 2, opened := true, pos := at_
            selvedges := x.selvedges + selvedgeCount head + selvedgeCount gone + selvedgeCount body.recs
            frames := if found.isSome then max x.frames (w.framesTo (at_ + 15)) else x.frames } : WSlot).modPart part.val (fun q => { q with
              lost := [], told := q.told ++ q.lost, marred := q.marred ++ marred
              pos := (match found with
                | some g => g.lastSi + 1
                | none => q.pos)
              read := (match found with
                | some g => tput q.read g.source (g.seg + 1)
                | none => q.read) })))

/-- BACKLOG_SEGMENT_READ: the first owed segment of bobbin b that is not yet read comes back from its backlog, is found overwritten, or
is poisoned (R348, R380). -/
def execBacklogSegmentRead (t : SI) (b : Fin 262144) (read : SegRead) (s : State) : Host.Outcome State Fault Refusal :=
  let s := s.moment t
  match tfind s.bob.tab b.val with
  | none => .next s
  | some x =>
    match x.queue.find? (fun q => q.isOwed && !q.ready) with
    | none => .next s
    | some q =>
      if !s.held q then .next (s.modBob b.val (fun y => (y.loseItem q (q.lostCause (s.ringStopped y))).recover (s.ringStopped y)))
      else
        let (s, kind) := s.readSegment q.seg read
        match kind with
        | .clean | .corrected =>
          .next (s.modBob b.val (fun y => { y with queue := y.queue.map (fun z => if z = q then { z with ready := true } else z) }))
        | .uncorrectable | .poisonMarker => .next (s.poisonRead.modBob b.val (fun y => (y.loseItem q selPoison).recover (s.ringStopped y)))
        | .migrationMarker => .next (s.poisonRead.modBob b.val (fun y => (y.loseItem q selMigration).recover (s.ringStopped y)))

end Sys2Proof.Machine
end

