-- ==== Sys2Proof/Machine/Security.lean ====
section
/-! DEFINITION. The security unit (14_security.md): roles and AUTH, the ESK and attestation, zeroization, firmware images and their update. -/

namespace Sys2Proof.Machine

/-! ### Keys and signatures -/

/-- The 64 bytes of a public key: X then Y, big-endian (R461). -/
def keyBytes (k : BitVec 512) : List Byte := beBytes 64 k.toNat

/-- A public key from its 64 bytes. -/
def keyOf (bs : List Byte) : BitVec 512 := BitVec.ofNat 512 (leNat bs.reverse)

/-- A big-endian number. -/
def beNat (bs : List Byte) : Nat := leNat bs.reverse

/-- Secret n (1 DIK, 2 FIK, 3 ESK) is stored, wrapped; a store overwrites the blob before it (R459, R461, R477). -/
def Sec.wrap (x : Sec) (n : Nat) (secret : BitVec 256) : Sec :=
  match x.wrapKey with
  | none => x
  | some k => { x with blobs := tput x.blobs n (kwpWrap k secret) }

/-- The public key of a role is stored, with its CMAC under the wrapping key (R461). -/
def Sec.putRoleKey (x : Sec) (role : Nat) (key : BitVec 512) : Sec :=
  { x with
    roleKeys := tput x.roleKeys role key
    keyMacs := match x.wrapKey with
      | none => x.keyMacs
      | some k => tput x.keyMacs role (keyCmac k key) }

/-- The public key of a role is cleared. -/
def Sec.dropRoleKey (x : Sec) (role : Nat) : Sec := { x with roleKeys := tdel x.roleKeys role, keyMacs := tdel x.keyMacs role }

/-- Ring n is bound to role r (R438). -/
def State.bind (s : State) (n r : Nat) : State := s.modRing n (fun x => { x with role := r })

/-- Every ring that f picks is unbound (R438). -/
def State.unbind (s : State) (f : Ring → Bool) : State :=
  { s with cmd := { s.cmd with rings := s.cmd.rings.map (fun e => (e.1, if f e.2 then { e.2 with role := 0 } else e.2)) } }

/-! ### AUTH (R465 to R469) -/

/-- The 40-byte message A of R465. -/
def authMessage (ring role : Nat) (challenge : BitVec 128) (boot id : Nat) : List Byte :=
  leBytes 4 0x55414B53 ++ leBytes 1 ring ++ leBytes 1 role ++ leBytes 2 0 ++ leBytes 8 Config.serial.toNat ++ leBytes 16 challenge.toNat ++
    leBytes 4 boot ++ leBytes 4 id

/-- The public key held for a role. -/
def State.roleKey (s : State) (role : Nat) : Option (BitVec 512) := tfind s.sec.roleKeys role

/-- AUTH returns BAD_PARAM: fields out of range, bytes that the OP does not use, an invalid point (R469). -/
def authBad (p : List Byte) : Bool :=
  let op := pField p 0 1
  let role := pField p 1 1
  !(p.length = 136) || decide (5 < op) || !pZero p 2 2 ||
  match op with
  | 0 => !pZero p 1 135
  | 1 => !(1 ≤ role && role ≤ 3) || !pZero p 72 64
  | 2 => !(1 ≤ role && role ≤ 3) || !ecValid (pBytes p 72 64)
  | 3 => !(1 ≤ role && role ≤ 3) || !pZero p 4 68 || !ecValid (pBytes p 72 64)
  | 4 => !(1 ≤ role && role ≤ 3) || !pZero p 4 132
  | _ => !pZero p 1 135

/-- No secret can exist now: a zeroization runs, TAMPER_N is asserted or the service port is open (R481). -/
def Sec.barred (x : Sec) : Bool := x.zero.isSome || x.tamper || x.svcOpen

/-- AUTH is refused with BAD_STATE (R464, R481); outside the error state an unbinding never is (R469). -/
def authBadState (s : State) (p : List Byte) : Bool := s.sec.error || (s.sec.barred && pField p 0 1 ≠ 5)

/-- The outcome of an accepted AUTH that does not go on (R466 to R469): no key for the role, a Crypto Officer key already held, a lockout, or OP 3 or 4
from a ring not bound to Crypto Officer. -/
def authOutcome (s : State) (c : Ctx) : Option Nat :=
  let op := pField c.params 0 1
  if (op = 1 && (s.roleKey (pField c.params 1 1)).isNone) || (op = 2 && (s.roleKey 2).isSome) then some stBadState
  else if (op = 1 || op = 2) && s.sec.lockoutUntil.isSome then some stBusy
  else if (op = 3 || op = 4) && (s.ring c.home).role ≠ 2 then some stNotAuth
  else none

/-- A failed response (R468): the eighth in a row and each later one begin a lockout of 10 s, doubled up to 640 s. -/
def State.authFail (s : State) : State :=
  let n := satInc 8 s.sec.authFails
  let s := ({ s with sec := { s.sec with authFails := n, authFailCnt := satInc 8 s.sec.authFailCnt } } : State).raise 226
  if n < 8 then s
  else
    let ns := min 640 (10 * 2 ^ s.sec.lockoutLevel) * 1000000000
    ({ s with sec := { s.sec with
      lockoutLevel := min 6 (s.sec.lockoutLevel + 1), lockoutUntil := some (s.time.si + slotsOfNs s.time.ref.rateKhz ns) } } : State).raise 227

/-- A role is bound by AUTH: the count of failures starts again (R468), event 225. -/
def State.authBind (s : State) (ring role : Nat) : State :=
  (({ s with sec := { s.sec with authFails := 0, lockoutLevel := 0 } } : State).bind ring role).raise 225

/-- An accepted AUTH that ends with status st, with its CHANGE record (R469). -/
def State.authEnd (s : State) (c : Ctx) (st : Nat) : State :=
  (s.change c.origin c.opcode st c.params s.boundary).completeLogged c st 0 []

/-- An accepted AUTH that ends with NOT_AUTHORIZED. -/
def State.authReject (s : State) (c : Ctx) : State := s.authEnd c stNotAuth

/-- OP 1 or 2: the response to the ring's challenge is judged under `key`; the challenge is used up (R465). -/
def State.respond (s : State) (c : Ctx) (role : Nat) (key : BitVec 512) : State :=
  let p := c.params
  let id := pField p 4 4
  if (role = 3 || pField p 1 1 = 3) && !s.sec.svcEn then s.authReject c
  else match tfind s.sec.challenges c.ring with
    | none => (s.authFail).authReject c
    | some ch =>
      if ch.id ≠ id then (s.authFail).authReject c
      else
        let s : State := { s with sec := { s.sec with challenges := tdel s.sec.challenges c.ring } }
        if ecdsaVerify (keyBytes key) (authMessage c.ring role ch.bits s.log.boot id) (pBytes p 8 32) (pBytes p 40 32) then
          let s := if pField p 0 1 = 2 then { s with sec := s.sec.putRoleKey 2 key } else s
          (s.authBind c.home role).finish c []
        else (s.authFail).authReject c

/-- The operations of AUTH. -/
def State.authRun (s : State) (c : Ctx) : State :=
  let p := c.params
  let role := pField p 1 1
  match pField p 0 1 with
  | 0 =>
    let (bs, s) := s.random 16
    let b : BitVec 128 := BitVec.ofNat 128 (leNat bs)
    let id := s.sec.nextChallenge
    let s : State := { s with sec := { s.sec with
      challenges := tput s.sec.challenges c.ring { id := id, bits := b, until_ := s.time.si + slotsOfNs s.time.ref.rateKhz 10000000000 }
      nextChallenge := (id + 1) % 4294967296 } }
    s.finish c ((List.range 4).map (fun k => bits b.toNat (32 * k + 31) (32 * k)) ++ [id])
  | 1 => s.respond c role ((s.roleKey role).getD 0)
  | 2 => s.respond c 2 (keyOf (pBytes p 72 64))
  | 3 => ({ s with sec := s.sec.putRoleKey role (keyOf (pBytes p 72 64)) } : State).finish c []
  | 4 => ({ s with sec := s.sec.dropRoleKey role } : State).finish c []
  | _ => (s.bind c.home 0).finish c []

/-- AUTH. Every accepted one makes a record, whatever its outcome (R469). -/
def authEffect (c : Ctx) (s : State) : State :=
  match authOutcome s c with
  | some st => s.authEnd c st
  | none => s.authRun c

/-- AUTH_CHALLENGE_EXPIRY: the ring's challenge is gone once 10 s have passed since it was issued (R465). -/
def execAuthChallengeExpiry (t : SI) (ring : Fin 16) (s : State) : Host.Outcome State Fault Refusal :=
  let s := s.moment t
  if (tfind s.sec.challenges ring.val).any (fun c => decide (c.until_ ≤ s.time.si)) then
    .next { s with sec := { s.sec with challenges := tdel s.sec.challenges ring.val } }
  else .next s

/-- AUTH_LOCKOUT_END: the lockout is over once its time has passed (R468). -/
def execAuthLockoutEnd (t : SI) (s : State) : Host.Outcome State Fault Refusal :=
  let s := s.moment t
  if s.sec.lockoutUntil.any (fun u => decide (u ≤ s.time.si)) then .next { s with sec := { s.sec with lockoutUntil := none } } else .next s

/-! ### The evidence signing key (R477, R479) -/

/-- The bytes of an ESK certificate that are signed. -/
def EskCert.body (x : EskCert) : List Byte :=
  leBytes 4 0x43454B53 ++ leBytes 4 x.id ++ leBytes 8 Config.serial.toNat ++ leBytes 1 x.identity ++ leBytes 1 x.fikOrigin ++ leBytes 2 0 ++
    leBytes 4 x.boot ++ leBytes 12 x.st ++ leBytes 1 x.tgen.toNat ++ leBytes 3 0 ++ keyBytes x.key ++ sha256 (keyBytes x.idKey)

/-- An ESK certificate, 200 bytes. -/
def EskCert.bytes (x : EskCert) : List Byte := x.body ++ beBytes 64 x.sig.toNat

/-- ROTATE_ESK returns BAD_STATE. -/
def rotateBadState (s : State) : Bool := s.sec.error || s.sec.identity = 0 || s.sec.barred

/-- ROTATE_ESK returns BAD_PARAM. -/
def rotateBad (p : List Byte) : Bool := !(p.length = 8) || !pZero p 0 8

/-- The certificate of a new ESK, signed by the identity key (R479). -/
def State.certify (s : State) (id : Nat) (key : BitVec 512) : EskCert × State :=
  let t := s.timeFor s.boundary
  let cert : EskCert :=
    { id := id, identity := s.sec.identity, fikOrigin := s.sec.fikOrigin, boot := s.log.boot, st := t.st s.boundary, tgen := t.tgen, key := key
      idKey := s.sec.identityKey, sig := 0 }
  let (sg, s) := s.signature s.sec.identitySecret cert.body
  ({ cert with sig := keyOf sg }, s)

/-- The old private key is kept where a stream's signature under it waits for a hash (R483). -/
def State.retireKey (s : State) (id : Nat) (secret : BitVec 256) : State :=
  ({ s with sec := { s.sec with retiring := tput s.sec.retiring id secret } } : State).dropRetired

/-- ROTATE_ESK: final signatures under the old key, then the new key, stored wrapped over the old one, with its certificate (R324, R477). -/
def rotateEffect (c : Ctx) (s : State) : State :=
  let s := ((s.streams.filter (fun e => e.2.active)).map (fun e => e.1)).foldl (fun s n => s.sign n) s
  let s := s.retireKey s.sec.eskId (s.sec.signingKey s.sec.eskId)
  let id := s.sec.lastEskId + 1
  let (secret, s) := s.newKey
  let key := ecPublic secret
  let (cert, s) := s.certify id key
  let s : State := { s with sec := { (s.sec.wrap 3 secret) with
    esk := true, eskId := id, eskKey := key, lastEskId := id, certs := (cert :: s.sec.certs).take 16 } }
  (s.raise 229).finish c [id]

/-! ### GET_ATTESTATION (R478) -/

/-- The digest of the role keys in the report: 64 zero bytes for each key absent. -/
def State.roleDigest (s : State) : List Byte :=
  sha256 ([1, 2, 3].flatMap (fun r => match s.roleKey r with
    | some k => keyBytes k
    | none => List.replicate 64 0))

/-- The word of flags in the report. -/
def State.reportFlags (s : State) : Nat :=
  b2n s.sec.error + 2 * b2n s.sec.tamperLatched + 4 * b2n s.sec.svcEn + 8 * b2n (s.roleKey 2).isSome + 16 * b2n (s.roleKey 1).isSome +
    32 * b2n (s.roleKey 3).isSome + 64 * b2n s.inDoubt

/-- Bytes 0 to 167 of the report. -/
def State.report (s : State) (nonce : List Byte) : List Byte :=
  let x := s.sec
  leBytes 4 0x54414B53 ++ leBytes 2 1 ++ leBytes 1 x.identity ++ leBytes 1 x.fikOrigin ++ leBytes 8 Config.serial.toNat ++ nonce ++
    leBytes 4 s.log.boot ++ leBytes 2 Config.stepping.toNat ++ leBytes 1 (b2n Config.gradeE) ++ leBytes 1 (b2n x.fwSlotB) ++
    leBytes 4 x.fwVersion.toNat ++ leBytes 1 x.fwSvn ++ leBytes 1 x.fwFloor ++ leBytes 2 x.zeroizeLife ++ digestBytes x.fwDigest ++
    digestBytes Config.romDigest ++ leBytes 4 x.eskId ++ leBytes 4 s.reportFlags ++ s.roleDigest ++ leBytes 12 ((s.timeFor s.boundary).st s.boundary) ++
    leBytes 1 (s.timeFor s.boundary).tgen.toNat ++ leBytes 3 0

/-- The certificate of ESK_ID n, 0 being the current one. -/
def Sec.cert (x : Sec) (n : Nat) : Option EskCert := x.certs.find? (fun e => e.id = if n = 0 then x.eskId else n)

/-- The bytes that GET_ATTESTATION needs. -/
def State.attestLength (s : State) (p : List Byte) : Nat :=
  match pField p 0 1 with
  | 0 => 232
  | 1 => Config.certLength s.sec.identity
  | _ => 200

/-- GET_ATTESTATION returns BAD_PARAM. -/
def attestBad (s : State) (p : List Byte) : Bool :=
  !(p.length = 40) || !pIn p 0 1 0 2 || !pZero p 1 3 || pField p 8 8 % 64 ≠ 0 || !pZero p 20 4
    || (pField p 0 1 = 2 && (s.sec.cert (pField p 4 4)).isNone) || decide (pField p 16 4 < s.attestLength p)

/-- With a buffer that is too short, word 0 tells the length needed. -/
def attestWords (s : State) (p : List Byte) : List Nat :=
  if p.length = 40 && pIn p 0 1 0 2 && decide (pField p 16 4 < s.attestLength p) then [s.attestLength p] else []

/-- GET_ATTESTATION returns BAD_STATE. -/
def attestBadState (s : State) (p : List Byte) : Bool := s.sec.identity = 0 || (s.sec.error && pField p 0 1 = 0) || s.sec.zero.isSome

/-- GET_ATTESTATION writes its output to the host buffer. -/
def attestEffect (c : Ctx) (s : State) : State :=
  let p := c.params
  let (out, s) := match pField p 0 1 with
    | 0 =>
      let m := s.report (pBytes p 24 16)
      let (sg, s) := s.signature s.sec.identitySecret m
      (m ++ sg, s)
    | 1 => ((List.range (Config.certLength s.sec.identity)).map (Config.otherByte s.freeCtr), s)
    | _ => ((((s.sec.cert (pField p 4 4)).map EskCert.bytes).getD []), s)
  (s.postBytes (.hostWrite (pField p 8 8) out) out.length).answer c [out.length]

/-! ### Zeroization (R480 to R482) -/

/-- The parameter area that a zeroization uses. -/
def zeroizeParams : List Byte := leBytes 4 0x5A45524F ++ leBytes 4 0

/-- Steps 1 to 3 of R481: secrets cleared, rings unbound, and one CHANGE record, which is the last segment of every stream. A trigger during
a zeroization makes its own record; the first trigger's cause stands (notes/assumptions/31.md). -/
def State.zeroize (s : State) (cause : Nat) (origin : Origin) (reply : Option Ctx) (openPort : Bool) : State :=
  let z : Zeroization := match s.sec.zero with
    | some z => { z with openPort := z.openPort || openPort, reply := z.reply.or reply }
    | none => { cause := cause, reply := reply, openPort := openPort }
  let life := if s.sec.zero.isSome then s.sec.zeroizeLife else satInc 16 s.sec.zeroizeLife
  let s := ({ s with sec := { s.sec with challenges := [], drbg := none, retiring := [], zero := some z, zeroizeLife := life, fikDue := false } } : State).raise 230
  let s := (s.unbind (fun _ => true)).change origin 0x0B20 stOk zeroizeParams s.boundary
  let num := s.data.nextSeg
  let s : State := { s with streams := s.streams.map (fun e =>
    (e.1, if e.2.active then { e.2 with closing := true, closeSeg := some num, finalSeg := none, noFinal := true } else e.2)) }
  s.closeAt (specialSource 1) none

/-- ZEROIZE returns BAD_PARAM. -/
def zeroizeBad (p : List Byte) : Bool := !(p.length = 8) || pField p 0 4 ≠ 0x5A45524F || !pZero p 4 4

/-- ZEROIZE: its final entry follows step 4. -/
def zeroizeEffect (c : Ctx) (s : State) : State := s.zeroize 1 c.origin (some c) false

/-- TAMPER_N has been low for 1 µs. -/
def State.tamperZeroize (s : State) : State :=
  (({ s with sec := { s.sec with tamperLatched := true, tamperCnt := satInc 8 s.sec.tamperCnt } } : State).raise 232).zeroize 2 { kind := 5 } none false

/-- TAMPER_N_ASSERT. Before the self-tests of start-up have passed it is acted on when they do (R562); in the error state as ever (R464). -/
def execTamperNAssert (t : SI) (s : State) : Host.Outcome State Fault Refusal :=
  let s := s.moment t
  let s' : State := { s with sec := { s.sec with tamper := true } }
  if s.sec.tamper then .next s
  else if 4 ≤ s.startup.step then .next s'.tamperZeroize
  else .next s'

/-- TAMPER_N_RELEASE: a new FIK may be generated. -/
def execTamperNRelease (t : SI) (s : State) : Host.Outcome State Fault Refusal :=
  let s := s.moment t
  .next { s with sec := { s.sec with tamper := false } }

/-- SVC_EN_ASSERT: Service may be bound, and the service TAP offers SVC_UNLOCK. -/
def execSvcEnAssert (t : SI) (s : State) : Host.Outcome State Fault Refusal :=
  let s := s.moment t
  .next (({ s with sec := { s.sec with svcEn := true } } : State).raise 233)

/-- SVC_EN_DEASSERT: Service bindings are lost and the service port closes (R466, R481). -/
def execSvcEnDeassert (t : SI) (s : State) : Host.Outcome State Fault Refusal :=
  let s := s.moment t
  let z := s.sec.zero.map (fun z => { z with openPort := false })
  .next ((({ s with sec := { s.sec with svcEn := false, svcOpen := false, zero := z } } : State).unbind (fun r => r.role = 3)).raise 228)

/-- SVC_UNLOCK passes Update-DR with v in its data register. -/
def execSvcUnlock (t : SI) (v : Word) (s : State) : Host.Outcome State Fault Refusal :=
  let s := s.moment t
  if s.sec.svcEn && v = 0x53564355 && !s.sec.svcOpen then .next (s.zeroize 3 { kind := 4 } none true) else .next s

/-- Step 4 of R481 has ended: the wrapped keys and the role keys are erased, SEC_ZCAUSE is written. -/
def State.erase (s : State) (z : Zeroization) : State :=
  ({ s with sec := { s.sec with
    identity := 0, fikOrigin := 0, identityKey := 0, esk := false, eskId := 0, eskKey := 0, blobs := [], roleKeys := [], keyMacs := [], zero := none, fikDue := true
    zcause := z.cause, zboot := s.log.boot } } : State).raise 231

/-- ZEROIZATION_ERASE_COMPLETE. The service port opens only now (step 5). -/
def rowZeroizationEraseComplete (t : SI) (s : State) : State :=
  let s := s.moment t
  match s.sec.zero with
  | none => s
  | some z =>
    let s := s.erase z
    let s := match z.reply with
      | none => s
      | some c => s.complete c stOk 0 []
    if z.openPort && s.sec.svcEn then (({ s with sec := { s.sec with svcOpen := true } } : State).raise 234) else s

/-- FIK_GENERATED: a new field identity key, once the erase has ended, TAMPER_N is high and the service port closed (step 6). -/
def execFikGenerated (t : SI) (s : State) : Host.Outcome State Fault Refusal :=
  let s := s.moment t
  if !s.sec.fikDue || s.sec.barred then .next s
  else
    let (secret, s) := s.newKey
    .next (({ s with sec := { (s.sec.wrap 2 secret) with
      identity := 2, fikOrigin := s.sec.zcause, identityKey := ecPublic secret, fikDue := false } } : State).raise 238)

/-! ### Firmware images (R471, R473 to R475) -/

/-- Bytes of a chunk list at offset o, in steps of 64. -/
def chunkAt (d : List (Nat × List Byte)) (o : Nat) : Option (List Byte) :=
  (d.find? (fun e => decide (e.1 ≤ o ∧ o < e.1 + e.2.length))).map (fun e => (e.2.drop (o - e.1)).take 64)

/-- What the written slot holds: a byte never written reads as erased flash (notes/assumptions/31.md). -/
def Update.flash (u : Update) : List Byte :=
  ((List.range ((u.length + 63) / 64)).flatMap (fun k => (chunkAt u.data (64 * k)).getD (List.replicate 64 0xFF))).take u.length

/-- The written image, or none where a byte is missing; the latest chunk written at an offset counts. -/
def Update.image (u : Update) : Option (List Byte) :=
  let parts := (List.range ((u.length + 63) / 64)).map (fun k => chunkAt u.data (64 * k))
  if parts.any (fun x => x.isNone) then none else some ((parts.flatMap (fun x => x.getD [])).take u.length)

/-- SVN of an image. -/
def imageSvn (m : List Byte) : Nat := pField m 6 1
/-- FW_VERSION of an image. -/
def imageVersion (m : List Byte) : Nat := pField m 8 4

/-- The failure code of R475 for an image: 0 where it is acceptable under R471. A malformed header counts as a bad signature, a body that does not match
BODY_DIGEST as a digest mismatch (notes/assumptions/31.md). -/
def imageFault (key : BitVec 512) (m : List Byte) (floor : Nat) : Nat :=
  if pField m 0 4 ≠ 0x57464B53 || pField m 4 2 ≠ 1 || !pZero m 7 1 || decide (64 < imageSvn m) then 2
  else if !ecdsaVerify (keyBytes key) (m.take 192) (pBytes m 192 32) (pBytes m 224 32) then 2
  else if sha256 (pBytes m 256 (pField m 12 4)) ≠ pBytes m 16 32 || m.length ≠ 256 + pField m 12 4 then 1
  else if imageSvn m < floor then 3
  else if Config.stepping.toNat < pField m 48 2 then 4
  else 0

/-- The same for an image that must also match the IMAGE_DIGEST of its update. -/
def imageCode (key : BitVec 512) (m : List Byte) (digest : BitVec 256) (floor : Nat) : Nat :=
  if digestNat (sha256 m) ≠ digest then 1 else imageFault key m floor

/-- The state of a slot: 0 invalid, 1 valid, 2 being written, 3 failed (R485). -/
def Sec.setSlot (x : Sec) (slotB : Bool) (v : Nat) : Sec := if slotB then { x with slotB := v } else { x with slotA := v }

/-- What a slot of the boot flash holds. -/
def Sec.image (x : Sec) (slotB : Bool) : List Byte := if slotB then x.imageB else x.imageA

/-- A slot of the boot flash written. -/
def Sec.setImage (x : Sec) (slotB : Bool) (m : List Byte) : Sec := if slotB then { x with imageB := m } else { x with imageA := m }

/-- UPDATE_FIRMWARE names a job that is not the update in progress. -/
def updateOther (s : State) (p : List Byte) : Bool := pField p 0 1 ≠ 0 && s.sec.update.all (fun u => u.job ≠ pField p 4 4)

/-- UPDATE_FIRMWARE returns BAD_PARAM. -/
def updateBad (s : State) (p : List Byte) : Bool :=
  let n := pField p 12 4
  let known := s.cmd.jobs.any (fun j => j.id = pField p 4 4) || s.cmd.ended.any (fun j => j.id = pField p 4 4)
  decide (p.length < 48) || !pZero p 2 2 ||
  match pField p 0 1 with
  | 0 => !(p.length = 48) || !pBits p 1 2 || (bit (pField p 1 1) 1 && !bit (pField p 1 1) 0) || decide (8388608 < n)
  | 1 => !(p.length = 48 + n) || pField p 8 4 % 64 ≠ 0 || n % 64 ≠ 0 || !pIn p 12 4 64 4032 || !known
    || s.sec.update.any (fun u => u.job = pField p 4 4 && decide (u.length < pField p 8 4 + n))
  | 2 => !(p.length = 48) || !known
  | _ => true

/-- DATA and FINISH from a ring other than that of BEGIN. -/
def updateDenied (s : State) (c : Ctx) : Bool :=
  pField c.params 0 1 ≠ 0 && s.sec.update.any (fun u => u.job = pField c.params 4 4 && u.ring ≠ c.ring)

/-- UPDATE_FIRMWARE returns BAD_STATE. -/
def updateBadState (s : State) (p : List Byte) : Bool :=
  if pField p 0 1 = 0 then s.sec.error || s.sec.update.isSome
  else updateOther s p || s.sec.update.any (fun u => u.finished) || (s.job (pField p 4 4)).all (fun j => j.state ≠ .running)

/-- BEGIN: the job is created and the inactive slot is erased. -/
def updateBegin (c : Ctx) (s : State) : State :=
  let p := c.params
  let id := s.cmd.nextJob
  let slotB := !s.sec.fwSlotB
  let s := s.startJob c .running 0
  let u : Update :=
    { job := id, ring := c.ring, slotB := slotB, length := pField p 12 4, digest := BitVec.ofNat 256 (pField p 16 32),
      activate := bit (pField p 1 1) 0, raiseFloor := bit (pField p 1 1) 1 }
  { s with sec := { ((s.sec.setSlot slotB 2).setImage slotB []) with update := some u } }

/-- UPDATE_FIRMWARE: DATA and FINISH make no CHANGE record. -/
def updateEffect (c : Ctx) (s : State) : State :=
  let p := c.params
  match pField p 0 1 with
  | 0 => updateBegin c s
  | 1 => ({ s with sec := { s.sec with
      update := s.sec.update.map (fun u => { u with data := (pField p 8 4, p.drop 48) :: u.data }) } } : State).answer c []
  | _ => ({ s with sec := { s.sec with update := s.sec.update.map (fun u => { u with finished := true }) } } : State).answer c []

/-- The result words of R475. -/
def Update.words (u : Update) (code : Nat) : List Nat := [b2n u.slotB, imageVersion (u.image.getD []), code]

/-- The update ends without success: the written slot is INVALID, the selector unchanged. -/
def State.failUpdate (s : State) (u : Update) (st : JobState) (code : Nat) : State :=
  ({ s with sec := { ((s.sec.setSlot u.slotB 0).setImage u.slotB u.flash) with update := none } } : State).endJob u.job st (u.words code)

/-- The image is being loaded for the swap (R500): rings are not fetched, and packets fetched and not yet examined complete with
BUSY. -/
def State.beginSwap (s : State) : State :=
  let waiting := s.cmd.rings.flatMap (fun e => e.2.fetched.map (fun f => packetCtx f.opcode f.packet e.1))
  let s : State := { s with
    safe := { s.safe with swapping := true }
    cmd := { s.cmd with rings := s.cmd.rings.map (fun e => (e.1, { e.2 with fetched := [] })) } }
  waiting.foldl (fun s c => (s.modRing c.home (fun r => { r with unreplied := r.unreplied + 1 })).swapRefuse c) s

/-- The swap begins once the checked image waits and no TRAIN job runs (R500). -/
def State.maybeSwap (s : State) : State :=
  if s.sec.update.any (fun u => u.checked) && !s.safe.swapping && !s.runningOf 0x0910 then s.beginSwap else s

/-- Jobs that the device suspended go on (R444, R506). -/
def State.resumeJobs (s : State) : State :=
  let found := s.cmd.jobs.filter (fun j => j.bySwap && j.ctx.opcode = 0x0410)
  let s : State := { s with cmd := { s.cmd with jobs := s.cmd.jobs.map (fun j =>
      if j.bySwap then { j with state := .running, bySwap := false } else j) } }
  found.foldl (fun s j => s.discoverResume { j with state := .running }) s

/-- The swap ends without the new image: the old one and the selector stand (R474). -/
def State.revertSwap (s : State) (u : Update) (code : Nat) : State :=
  let s : State := { s with safe := { s.safe with swapping := false }, sec := { s.sec with preferB := s.sec.fwSlotB } }
  (s.resumeJobs).failUpdate u .failed code

/-- A running firmware update ends FAILED with code 8 (R464). -/
def State.updateBarred (s : State) : State :=
  match s.sec.update with
  | none => s
  | some u => if s.safe.swapping then s.revertSwap u 8 else s.failUpdate u .failed 8

/-- A conditional test has failed: the security unit enters its error state (R463, R464). -/
def State.securityError (s : State) (code : Nat) : State :=
  if s.sec.error then s
  else (({ s with sec := { s.sec with error := true, errCode := code } } : State).raise 224).updateBarred

/-- The signature or the SVN of an image failed its check (R463): ERR_CODE names ECDSA, or for an SVN a value that the table does not give. -/
def State.imageRejected (s : State) (code : Nat) : State :=
  if code = 2 then s.securityError 2 else if code = 3 then s.securityError Config.svnErrCode.toNat else s

/-- The checks that follow FINISH: without ACTIVATE the job ends with them. -/
def State.checkUpdate (s : State) (u : Update) (flashOk : Bool) : State :=
  let code := if s.sec.error then 8 else if !flashOk then 5 else match u.image with
    | none => 7
    | some m => imageCode s.sec.romKey m u.digest s.sec.fwFloor
  if code ≠ 0 then (s.failUpdate u .failed code).imageRejected code
  else
    let s : State := { s with sec := { ((s.sec.setSlot u.slotB 1).setImage u.slotB u.flash) with preferB := u.slotB } }
    if u.activate then
      ({ s with sec := { s.sec with update := some { u with checked := true } } } : State).maybeSwap
    else ({ s with sec := { s.sec with update := none } } : State).endJob u.job .done (u.words 0)

/-- The control core runs the new image. -/
def State.swapped (s : State) (u : Update) : State :=
  let m := u.image.getD []
  let raises := u.raiseFloor && decide (s.sec.fwFloor < imageSvn m)
  let s : State := { s with
    safe := { s.safe with swapping := false }
    sec := { s.sec with
      fwSlotB := u.slotB, fwVersion := BitVec.ofNat 32 (imageVersion m), fwSvn := imageSvn m, fwDigest := digestNat (sha256 m)
      fwFloor := if raises then imageSvn m else s.sec.fwFloor, update := none } }
  (((s.raise 236).raiseIf raises 237).resumeJobs).endJob u.job .done (u.words 0)

end Sys2Proof.Machine
end

