-- ==== Sys2Proof/Machine/Jobs.lean ====
section
/-! DEFINITION. Job control (R441 to R444, R453): suspend points, cancelling, the end of each kind of job, and JOB_SUSPEND, JOB_RESUME,
JOB_CANCEL and JOB_STATUS. -/

namespace Sys2Proof.Machine

/-! ### Result words -/

/-- The result words of job j as they stand (R443, R453). -/
def State.liveWords (s : State) (j : Job) : List Nat :=
  match j.ctx.opcode with
  | 0x0211 => s.calResult j
  | 0x0410 => s.cas.discoverWords
  | 0x0510 => match s.exportSlot j.id with
    | some (_, w) => exportWords w
    | none => j.result
  | 0x0810 => s.replay.words
  | 0x0911 => match s.dram.mig with
    | some m => if m.job = j.id then s.migrationWords m else j.result
    | none => j.result
  | 0x0A10 => s.hk.calWords
  | 0x0B10 => match s.sec.update with
    | some u => u.words 0
    | none => j.result
  | 0x0912 => s.scrubWords j
  | _ => j.result

/-! ### Suspend and cancel -/

/-- The effect of job j's cancel on its own function, and its result words (R443). A firmware update's job ends in the same operation. -/
def State.cancelWork (s : State) (j : Job) : State × List Nat :=
  match j.ctx.opcode with
  | 0x0211 => (s.stopPasses j, s.calResult j)
  | 0x0410 => (s, s.cas.discoverWords)
  | 0x0510 => s.cancelExport j.id
  | 0x0810 => (s.replayStop, s.replay.words)
  | 0x0910 => ({ s with dram := { s.dram with training := false, trained := false, usable := 0, free := 0 } }, [])
  | 0x0911 => match s.dram.mig with
    | some m => if m.job = j.id then s.cancelCopy m else (s, [])
    | none => (s, [])
  | 0x0912 => (s, s.scrubWords j)
  | 0x0A10 => (s, s.hk.calWords)
  | _ => (s, j.result)

/-- A running migration or scrub stops: the time that self-refresh waits for begins anew (R377). -/
def State.dramPauses (s : State) (j : Job) : State :=
  if j.state = .running && (j.ctx.opcode = 0x0911 || j.ctx.opcode = 0x0912) then { s with dram := { s.dram with idleSince := s.time.si } } else s

/-- Job j is cancelled at a suspend point, or at once from QUEUED or SUSPENDED (R441). -/
def State.cancelJob (s : State) (j : Job) : State :=
  let begun := j.state ≠ .queued && !j.fromQueued
  if j.ctx.opcode = 0x0B10 then
    match s.sec.update with
    | some u => s.failUpdate u .cancelled 0
    | none => s.endJob j.id .cancelled []
  else
    let s := if !begun && j.ctx.opcode = 0x0911 then s.dropQueuedCopy (pField j.ctx.params 0 1) (pField j.ctx.params 1 1) else s
    let (s, ws) := if begun then s.cancelWork j else (s, [])
    let s := s.dramPauses j
    let s := s.endJob j.id .cancelled ws
    let s := if j.ctx.opcode = 0x0A10 && begun then s.endHkCal else s
    if j.ctx.opcode = 0x0910 then s.maybeSwap else s

/-- The function of job j stops where it stands: a calibration pass that has begun starts again (R102). -/
def State.suspendWork (s : State) (j : Job) : State :=
  let s := s.dramPauses j
  if j.ctx.opcode = 0x0211 && j.state = .running then (s.stopPasses j).modJob j.id (fun x => { x with progress := x.progress - 1 }) else s

/-- Job j becomes SUSPENDED; the commands that asked for it complete with OK (R444, R453). -/
def State.suspendJob (s : State) (j : Job) : State :=
  let s := (s.suspendWork j).modJob j.id (fun x => { x with state := .suspended, fromQueued := j.state = .queued, suspendReq := [] })
  j.suspendReq.foldl (fun s c => (s.unreserve 1).finish c []) s

/-- The device itself suspends job j for the firmware swap (R444). -/
def State.suspendBySwap (s : State) (j : Job) : State :=
  ((s.suspendWork j).modJob j.id (fun x => { x with state := .suspended, bySwap := true })).complete j.ctx stSuspended j.id []

/-- Job j has suspend points: TRAIN has none, a firmware update none from FINISH on (R443, R475). -/
def State.suspendable (s : State) (j : Job) : Bool :=
  j.ctx.opcode ≠ 0x0910 && !(j.ctx.opcode = 0x0B10 && s.sec.update.any (fun u => u.finished))

/-- A running job reaches a suspend point: a cancel comes first, SOFT_RESET's included (R501), then a suspend, then the swap. -/
def State.atSuspendPoint (s : State) (j : Job) : State :=
  let train := j.ctx.opcode = 0x0910
  if (train && j.cancelReq ≠ []) || (s.suspendable j && (j.cancelReq ≠ [] || s.safe.softBegun)) then s.cancelJob j
  else if !s.suspendable j then s
  else if j.suspendReq ≠ [] then s.suspendJob j
  else if s.safe.swapping then s.suspendBySwap j
  else s

/-- JOB_SUSPEND_POINT, as a row. The suspend points of a CAL_INTERP job are anchor boundaries (R102). -/
def rowJobSuspendPoint (t : SI) (job : Nat) (s : State) : State :=
  let s := s.moment t
  match s.job job with
  | none => s
  | some j => if j.state = .running && (j.ctx.opcode ≠ 0x0211 || t % 1048576 = 0) then s.atSuspendPoint j else s

/-! ### JOB_DEQUEUE -/

/-- Another job of j's opcode runs or is suspended, or waits ahead of it. -/
def State.blocksStart (s : State) (j : Job) : Bool :=
  s.cmd.jobs.any (fun x => x.ctx.opcode = j.ctx.opcode && x.id ≠ j.id && (x.state = .running || (x.state = .suspended && !x.fromQueued)))
    || (s.cmd.jobs.find? (fun x => x.ctx.opcode = j.ctx.opcode && x.state = .queued)).any (fun x => x.id ≠ j.id)

/-- A queued job starts once what it waits for is free (R441). Exports wait for a slot only (R236). -/
def State.startQueued (s : State) (j : Job) : State :=
  let run := s.modJob j.id (fun x => { x with state := .running, since := s.time.si })
  match j.ctx.opcode with
  | 0x0510 => if (s.cmd.jobs.find? (fun x => x.ctx.opcode = 0x0510 && x.state = .queued)).any (fun x => x.id ≠ j.id) then s else s.dequeueExport j
  | 0x0910 => if s.blocksStart j then s else run.beginTraining
  | 0x0911 => if s.blocksStart j || s.migrating then s else run.startCopy j.id (pField j.ctx.params 0 1) (pField j.ctx.params 1 1)
  | 0x0A10 => if s.blocksStart j then s else { run with hk := run.hk.beginCal }
  | _ => if s.blocksStart j then s else run

/-- JOB_DEQUEUE. -/
def rowJobDequeue (t : SI) (job : Nat) (s : State) : State :=
  let s := s.moment t
  match s.job job with
  | none => s
  | some j => if j.state = .queued then (s.startQueued j) else s

/-! ### JOB_END -/

/-- Every selected cell of a CAL_INTERP job has ended its passes (R102). -/
def State.calEnded (s : State) (j : Job) : Bool :=
  let requalify := bit (pField j.ctx.params 4 1) 0
  decide (4 ≤ j.progress) || (decide (0 < j.progress) && (List.range (pField j.ctx.params 2 2)).all (fun k =>
    let x := s.cell (pField j.ctx.params 0 2 + k)
    x.parDone || (!requalify && x.goodLanes = 0)))

/-- CAL_DESKEW has ended: with APPLY the new values take effect, and at least one makes a second CHANGE record, with the submitting ring's origin
(R112). -/
def State.endCalDeskew (s : State) (j : Job) (found : List (Nat × Option Int)) : State :=
  let (s, ws, bytes) := s.endDeskew j.ctx.params found
  let s := if s.cmd.deskew.any (fun m => m.job = j.id) then { s with cmd := { s.cmd with deskew := none } } else s
  let s := s.endJob j.id .done ws
  if bytes = [] then s else s.change { kind := 0, id := j.ctx.ring } 0x0203 stOk bytes s.boundary

/-- Every good slice of an HK_CAL job has been calibrated for all pairs (R529). -/
def Hk.calEnded (h : Hk) : Bool := h.good.all (fun k => (List.range 30).all (fun p => h.calDone.contains (30 * k + p)))

/-- The work of running job j ends, where the state of its function lets it. Migrations and exports end with their own rows. -/
def State.workEnds (s : State) (j : Job) (work : JobWork) : State :=
  match j.ctx.opcode, work with
  | 0x0210, .deskew found =>
    if pField j.ctx.params 4 1 = 1 then (if s.deskewOver j then s.endCalDeskew j (s.deskewMeasured j) else s)
    else s.endCalDeskew j (found.map (fun e => (e.1.val, e.2)))
  | 0x0211, .words _ _ => if s.calEnded j then s.endJob j.id .done (s.calResult j) else s
  | 0x0410, .words _ _ => if s.discoverEnds j then s.endJob j.id .done s.cas.discoverWords else s
  | 0x0810, .words _ _ => match s.replayOutcome with
    | some st => (s.replayStop).endJob j.id st s.replay.words
    | none => s
  | 0x0910, .train f => (s.endTraining j f).maybeSwap
  | 0x0912, .scrub found =>
    let s := s.scrubFinds found
    ({ s with dram := { s.dram with idleSince := s.time.si } } : State).endJob j.id .done (s.scrubWords j)
  | 0x0A10, .words _ _ => if s.hk.calEnded then (s.endJob j.id .done s.hk.calWords).endHkCal else s
  | 0x0B10, .words ok _ => match s.sec.update with
    | some u => if u.finished && !u.checked then s.checkUpdate u ok else s
    | none => s
  | _, _ => s

/-- JOB_END, as a row. -/
def rowJobEnd (t : SI) (job : Nat) (work : JobWork) (s : State) : State :=
  let s := s.moment t
  match s.job job with
  | none => s
  | some j => if j.state = .running then s.workEnds j work else s

/-! ### The commands (R453) -/

/-- The job that a job command names, active or recently ended. -/
def State.namedJob (s : State) (p : List Byte) : Option Job :=
  (s.job (pField p 0 4)).or (s.cmd.ended.find? (fun j => j.id = pField p 0 4))

/-- A job command returns BAD_PARAM. -/
def jobBad (s : State) (p : List Byte) : Bool := !(p.length = 8) || !pZero p 4 4 || (s.namedJob p).isNone

/-- A job is controlled from its own ring or from a Crypto Officer ring (R442). -/
def jobDenied (s : State) (c : Ctx) : Bool :=
  (s.namedJob c.params).any (fun j => (s.ring c.home).role ≠ 2 && (j.ctx.origin.kind = 3 || j.ctx.ring ≠ c.ring))

/-- JOB_SUSPEND returns BAD_STATE: of TRAIN, and of an ended job. -/
def jobSuspendBadState (s : State) (p : List Byte) : Bool :=
  (s.job (pField p 0 4)).isNone || (s.job (pField p 0 4)).any (fun j => j.ctx.opcode = 0x0910)

/-- JOB_SUSPEND: at once for a job that does not run, else at its next suspend point. -/
def jobSuspendEffect (c : Ctx) (s : State) : State :=
  match s.job (pField c.params 0 4) with
  | none => s
  | some j =>
    match j.state with
    | .queued => (s.suspendJob j).finish c []
    | .suspended => (s.modJob j.id (fun x => { x with bySwap := false })).finish c []
    | _ => (s.reserve 1).modJob j.id (fun x => { x with suspendReq := x.suspendReq ++ [c] })

/-- JOB_RESUME returns BAD_STATE: the job is neither SUSPENDED nor about to be. -/
def jobResumeBadState (s : State) (p : List Byte) : Bool :=
  (s.job (pField p 0 4)).all (fun j => j.state ≠ .suspended && j.suspendReq = [])

/-- JOB_RESUME returns BUSY: the device itself suspended the job (R444). -/
def jobResumeBusy (s : State) (p : List Byte) : Bool := (s.job (pField p 0 4)).any (fun j => j.bySwap)

/-- JOB_RESUME: the job goes on, or a pending JOB_SUSPEND is withdrawn. -/
def jobResumeEffect (c : Ctx) (s : State) : State :=
  match s.job (pField c.params 0 4) with
  | none => s
  | some j =>
    let next := if j.state ≠ .suspended then j.state else if j.fromQueued then .queued else .running
    let s := s.modJob j.id (fun x => { x with state := next, fromQueued := false, suspendReq := [] })
    let s := if j.ctx.opcode = 0x0410 && next = .running then s.discoverResume { j with state := .running } else s
    let s := j.suspendReq.foldl (fun s r => (s.unreserve 1).complete r stCancelled 0 []) s
    s.finish c []

/-- JOB_CANCEL returns BAD_STATE: the job has ended. -/
def jobCancelBadState (s : State) (p : List Byte) : Bool := (s.job (pField p 0 4)).isNone

/-- JOB_CANCEL: at once for a job that does not run, else at its next suspend point; a pending JOB_SUSPEND completes with JOB_CANCELLED. -/
def jobCancelEffect (c : Ctx) (s : State) : State :=
  match s.job (pField c.params 0 4) with
  | none => s
  | some j =>
    let s := j.suspendReq.foldl (fun s r => (s.unreserve 1).complete r stCancelled 0 []) s
    let s := (s.reserve 1).modJob j.id (fun x => { x with suspendReq := [], cancelReq := x.cancelReq ++ [c] })
    match s.job j.id with
    | none => s
    | some j => if j.state = .running then s else s.cancelJob j

/-- Progress in thousandths: what a job in progress reports is a free value (notes/assumptions/32.md). -/
def State.jobProgress (s : State) (j : Job) : Nat :=
  match j.state with
  | .queued => 0
  | .done => 1000
  | _ => min 1000 (Config.jobCount s.freeCtr)

/-- JOB_STATUS. -/
def jobStatusEffect (c : Ctx) (s : State) : State :=
  match s.namedJob c.params with
  | none => s
  | some j =>
    let ring := if j.ctx.origin.kind = 3 then 255 else j.ctx.ring
    let ws := if j.state.active then s.liveWords j else j.result
    s.tick.answer c ([j.state.code + ring * 256 + j.ctx.opcode * 65536, s.jobProgress j] ++ (List.range 3).map (fun k => ws.getD k 0))

end Sys2Proof.Machine
end

