-- ==== Sys2Proof/Machine/Soft.lean ====
section
/-! DEFINITION. Seams, SOFT_RESET, the monitors that begin and end doubt, configuration parity, the control-core watchdog and the retry of
audit log writes (15_seams_resets_failsafe.md). -/

namespace Sys2Proof.Machine

/-! ### Seams (R487, R490, R492, R494) -/

/-- An essential seam (R487). -/
def seamEssential (n : Nat) : Bool := n = 2 || n = 3 || n = 4 || n = 5 || n = 8 || n = 9

/-- A seam with one instance in each region (R487). -/
def seamPerRegion (n : Nat) : Bool := n = 2 || n = 3

/-- Seam n. -/
def State.seam (s : State) (n : Nat) : Seam := (tfind s.safe.seams n).getD {}

/-- Seam n changed by f. -/
def State.modSeam (s : State) (n : Nat) (f : Seam → Seam) : State := { s with safe := { s.safe with seams := tmod s.safe.seams n {} f } }

/-- The region that a flag of seam n shows. -/
def Seam.flag (m : Seam) (n r : Nat) : Seam := if seamPerRegion n then { m with region := r } else m

/-- Cause [3] ends once every essential seam is settled with its clocks running (R502). -/
def State.checkSeams (s : State) : State :=
  let bad := s.safe.seams.any (fun e => seamEssential e.1 && (e.2.unsettled || e.2.stopped))
  if bad then s
  else ({ s with safe := { s.safe with seams := s.safe.seams.map (fun e => (e.1, { e.2 with badFor1ms := false })) } } : State).endCause causeSeam

/-- SEAM_UNSETTLED: 16 cycles of disagreeing samples; with `agree` the first cycle in which two samples agree again, which clears the
flag (R490). Seam 0 has no unsettled state (R487). -/
def execSeamUnsettled (t : SI) (seam : Fin 13) (region : Fin 4) (agree : Bool) (s : State) : Host.Outcome State Fault Refusal :=
  let s := s.moment t
  let n := seam.val
  if n = 0 || (s.seam n).unsettled != agree then .next s
  else if agree then .next (s.modSeam n (fun m => { m with unsettled := false })).checkSeams
  else .next ((s.modSeam n (fun m => ({ m with unsettled := true, unsettledAt := s.time.si, unsettledCnt := satInc 16 m.unsettledCnt } : Seam).flag n region.val)).raise 9)

/-- An essential seam that has been unsettled or stopped for 1 ms is a doubt cause (R490, R494). -/
def State.seamDoubt (s : State) (n : Nat) : State := (s.modSeam n (fun m => { m with badFor1ms := true })).beginCause causeSeam

/-- 1 ms has passed since slot x. -/
def State.msSince (s : State) (x : SI) : Bool := decide (x + slotsOfNs s.time.ref.rateKhz 1000000 ≤ s.time.si)

/-- SEAM_UNSETTLED_TIMEOUT: an essential seam has been unsettled for 1 ms (R490). -/
def execSeamUnsettledTimeout (t : SI) (seam : Fin 13) (s : State) : Host.Outcome State Fault Refusal :=
  let s := s.moment t
  let m := s.seam seam.val
  if seamEssential seam.val && m.unsettled && s.msSince m.unsettledAt then .next (s.seamDoubt seam.val) else .next s

/-- SEAM_CLOCK_STOPPED. What the seam holds stays as it is. -/
def execSeamClockStopped (t : SI) (seam : Fin 13) (region : Fin 4) (s : State) : Host.Outcome State Fault Refusal :=
  let s := s.moment t
  .next (s.modSeam seam.val (fun m => ({ m with stopped := true, stoppedAt := if m.stopped then m.stoppedAt else s.time.si } : Seam).flag seam.val region.val))

/-- SEAM_CLOCK_STOP_TIMEOUT: a clock of an essential seam has been stopped for 1 ms (R494). -/
def execSeamClockStopTimeout (t : SI) (seam : Fin 13) (s : State) : Host.Outcome State Fault Refusal :=
  let s := s.moment t
  let m := s.seam seam.val
  if seamEssential seam.val && m.stopped && s.msSince m.stoppedAt then .next (s.seamDoubt seam.val) else .next s

/-- SEAM_CLOCK_RESUMED: the clock has run for 1 µs. -/
def execSeamClockResumed (t : SI) (seam : Fin 13) (s : State) : Host.Outcome State Fault Refusal :=
  .next (((s.moment t).modSeam seam.val (fun m => { m with stopped := false })).checkSeams)

/-- SEAM_OVERRUN_DISCARD: the verify-complete pulse of the region's oldest waiting segment was lost at seam 3; 8 frames after its closing the
writer discards it, and a selvedge covers it (R492). In quiet mode no pulse is lost (R493). -/
def execSeamOverrunDiscard (t : SI) (region : Fin 4) (s : State) : Host.Outcome State Fault Refusal :=
  let s := s.moment t
  let r := region.val
  match (s.region r).closed.find? (fun c => c.waits) with
  | none => .next s
  | some c =>
    if s.safe.quiet || (s.region r).rstState ≠ 0 || decide (s.time.si < c.closedAt + 128) then .next s
    else
      let a := floor16 c.seg.firstSi
      let n := floor16 c.seg.lastSi + 16 - a
      let s := (s.seamLost 3).modSeam 3 (fun m => m.flag 3 r)
      let s := s.modRegion r (fun g => { g with closed := g.closed.filter (fun x => x ≠ c) })
      .next ((s.place c.seg.source (recSelvedge selSeam 4 c.seg.source a n)).commitRegion r)

/-! ### Temperature and supply monitors (R502, R510) -/

/-- 1 ms and 10 µs in slots at the programmed rate. -/
def State.msSlots (s : State) (n : Nat) : Nat := slotsOfNs s.time.ref.rateKhz (1000000 * n)

/-- TEMPERATURE_CHECK: the eight diodes in °C. -/
def execTemperatureCheck (t : SI) (celsius : List Int) (s : State) : Host.Outcome State Fault Refusal :=
  let s := s.moment t
  let hot := (List.range 8).filter (fun k => decide ((s.safe.tempLimit : Int) < celsius.getD k 0))
  let cool := (List.range 8).all (fun k => decide (celsius.getD k 0 < (s.safe.tempLimit : Int) - 5))
  let since := if cool then s.safe.coolSince.or (some s.time.si) else none
  let s : State := { s with safe := { s.safe with
    monTemp := hot.foldl (fun m k => m ||| (1#8 <<< k)) 0, coolSince := since } }
  if hot ≠ [] then .next (s.beginCause causeTemp)
  else if since.any (fun x => decide (x + s.msSlots 1 ≤ s.time.si)) then .next (s.endCause causeTemp)
  else .next s

/-- The nominal voltage of monitor point k in µV (R544). -/
def railNominal (k : Nat) : Nat :=
  if k < 4 then 750000 else if k < 6 then 1000000 else if k < 8 then 1800000 else if k < 12 then 1100000 else 900000

/-- Rail k at v µV lies outside nominal ± tol %. -/
def railBad (tol k v : Nat) : Bool := decide (railNominal k * tol < ((v : Int) - railNominal k).natAbs * 100)

/-- SUPPLY_CHECK: the sixteen rails in µV. -/
def execSupplyCheck (t : SI) (microvolts : List Nat) (s : State) : Host.Outcome State Fault Refusal :=
  let s := s.moment t
  let bad := (List.range 16).filter (fun k => railBad s.safe.supplyTol k (microvolts.getD k (railNominal k)))
  let since := bad.map (fun k => (k, (tfind s.safe.supplyBad k).getD s.time.si))
  let good := if bad = [] then s.safe.supplyGoodSince.or (some s.time.si) else none
  let s : State := { s with safe := { s.safe with
    monSupply := bad.foldl (fun m k => m ||| (1#16 <<< k)) 0, supplyBad := since, supplyGoodSince := good } }
  if since.any (fun e => decide (e.2 + slotsOfNs s.time.ref.rateKhz 10000 ≤ s.time.si)) then .next (s.beginCause causeSupply)
  else if good.any (fun x => decide (x + s.msSlots 1 ≤ s.time.si)) then .next (s.endCause causeSupply)
  else .next s

/-- SET_FAILSAFE_POLICY returns BAD_PARAM (R510). -/
def failsafeBad (p : List Byte) : Bool :=
  !(p.length = 8) || !pBits p 0 1 || !pIn p 1 1 60 (if Config.gradeE then 110 else 105) || !pIn p 2 1 3 8 || !pZero p 3 5

/-- SET_FAILSAFE_POLICY. -/
def setFailsafe (p : List Byte) (s : State) : State :=
  { s with
    pcie := { s.pcie with retain := bit (pField p 0 1) 0 }
    safe := { s.safe with tempLimit := pField p 1 1, supplyTol := pField p 2 1 } }

/-! ### Configuration parity (R507) and the control-core watchdog (R506) -/

/-- CONFIG_PARITY_CHECK: `found` says that a parity error was found, `copyBad` that the ECC-protected copy fails its check too. -/
def execConfigParityCheck (t : SI) (found copyBad : Bool) (s : State) : Host.Outcome State Fault Refusal :=
  let s := s.moment t
  if found then .next (({ s with safe := { s.safe with copyBad := s.safe.copyBad || copyBad } } : State).beginCause causeParity) else .next s

/-- CONFIG_PARITY_REPAIR: the storage is rewritten with `values` from the copy; without a good copy the cause stays until SOFT_RESET. -/
def execConfigParityRepair (t : SI) (values : List Byte) (s : State) : Host.Outcome State Fault Refusal :=
  let s := s.moment t
  if !s.safe.causes.getLsbD causeParity || s.safe.copyBad then .next s
  else
    let s := s.change firmware 0 stOk values s.boundary
    let s : State := { s with safe := { s.safe with cfgPar := satInc 8 s.safe.cfgPar } }
    .next ((s.raise 10).endCause causeParity)

/-- A command that a restart of the core finds not completed: INTERNAL_ERROR, with no effect (R506). -/
def State.lose (s : State) (c : Ctx) (reserved : Nat) : State := (s.unreserve reserved).complete c stInternal 0 []

/-- Fetched packets, deferred commands and waiting job commands end with INTERNAL_ERROR at a restart of the core. -/
def State.losePackets (s : State) : State :=
  let waiting := s.cmd.rings.flatMap (fun e => e.2.fetched.map (fun f => packetCtx f.opcode f.packet e.1))
  let deferred := s.cmd.deferredArm.toList ++ s.cmd.deferredStart.toList ++ (s.streams.filterMap (fun e => e.2.deferred))
  let controls := s.cmd.jobs.flatMap (fun j => j.suspendReq ++ j.cancelReq)
  let s : State := { s with
    streams := s.streams.map (fun e => (e.1, { e.2 with deferred := none }))
    cmd := { s.cmd with
      rings := s.cmd.rings.map (fun e => (e.1, { e.2 with fetched := [], unreplied := e.2.unreplied + e.2.fetched.length }))
      deferredArm := none, deferredStart := none
      jobs := s.cmd.jobs.map (fun j => { j with suspendReq := [], cancelReq := [] }) } }
  let s := waiting.foldl (fun s c => s.lose c 0) s
  controls.foldl (fun s c => s.lose c 1) (deferred.foldl (fun s c => s.lose c 2) s)

/-- Jobs at a restart: those that run are suspended; TRAIN ends FAILED with code 6 (R506). -/
def State.restartJobs (s : State) : State :=
  let s := s.cmd.jobs.foldl (fun s j => if j.state = .running && j.ctx.opcode ≠ 0x0910 then
    (s.suspendWork j).modJob j.id (fun x => { x with state := .suspended, bySwap := true }) else s) s
  match s.cmd.jobs.find? (fun j => j.ctx.opcode = 0x0910 && j.state = .running) with
  | none => s
  | some j => ({ s with dram := { s.dram with training := false, trained := false, usable := 0, free := 0 } } : State).endJob j.id .failed [6]

/-- CONTROL_CORE_WATCHDOG: the core has not served its watchdog for 100 ms. During a swap the device goes back to the old image (R474,
R500). A second expiry within 1 s of a restart keeps the cause until SOFT_RESET. -/
def rowControlCoreWatchdog (t : SI) (s : State) : State :=
  let s := s.moment t
  let again := s.safe.lastRestart.any (fun x => decide (s.time.si ≤ x + s.msSlots 1000))
  let s := if s.safe.swapping then (match s.sec.update with
    | some u => s.revertSwap u 6
    | none => s) else s
  let s : State := { s with safe := { s.safe with coreDown := true, stuckCore := s.safe.stuckCore || again } }
  (((s.losePackets).restartJobs).beginCause causeCore)

/-- CORE_RESTART_COMPLETE, as a row. -/
def rowCoreRestartComplete (t : SI) (s : State) : State :=
  let s := s.moment t
  if !s.safe.coreDown then s
  else
    let s : State := { s with safe := { s.safe with
      coreDown := false, restarts := satInc 8 s.safe.restarts, lastRestart := some s.time.si } }
    let s := ((s.change firmware 0 stOk [] s.boundary).raise 3).resumeJobs
    if s.safe.stuckCore then s else s.endCause causeCore

/-! ### The retry of audit log writes (R449, R505) -/

/-- Held records written: to the on-chip log, and to the DRAM log where it has room. -/
def Log.flush (l : Log) : Log :=
  l.held.foldl (fun l e => let l := (l.keep e).putOnchip e; { l with held := l.held.drop 1 }) { l with unwritable := false }

/-- LOG_RETRY: whether the on-chip log passes its parity check, and whether at least one DRAM copy takes its writes. A first failure makes
the log unwritable (notes/assumptions/33.md). -/
def execLogRetry (t : SI) (onChipOk dramOk : Bool) (s : State) : Host.Outcome State Fault Refusal :=
  let s := s.moment t
  let bad := s.log.onchipBad || !onChipOk
  if bad || !dramOk then
    .next (({ s with log := { s.log with unwritable := true, onchipBad := bad } } : State).beginCause causeLog)
  else .next ((({ s with log := s.log.flush } : State).postEnds).endCause causeLog)

/-! ### SOFT_RESET (R501, R509) -/

/-- SOFT_RESET returns BAD_PARAM. -/
def softResetBad (p : List Byte) : Bool := !(p.length = 8) || pField p 0 4 ≠ 0x54464F53 || !pZero p 4 4

/-- SOFT_RESET returns BAD_STATE. -/
def softResetBadState (s : State) : Bool := s.safe.softReset.isSome

/-- The TRIG_OUT pins at their reset values: a pulse in progress ends at once. -/
def State.resetPins (s : State) : State :=
  let downs := (s.pins.out.filter (fun e => e.2.level)).map (fun e => Posted.pin e.1 false)
  { s with
    pins := { s.pins with out := [] }
    obs := { s.obs with posted := downs.reverse ++ s.obs.posted } }

/-- What a SOFT_RESET does when it begins: the run stops, windows close with CANCELLED, the scheduler is emptied, jobs that do not run are
cancelled, and the TRIG_OUT pins and the housekeeping sequence are reset. -/
def State.beginSoft (s : State) : State :=
  let b := s.boundary
  let arm := s.cmd.deferredArm
  let start := s.cmd.deferredStart
  let s : State := { s with
    sched := { s.sched with entries := [] }
    cmd := { s.cmd with deferredArm := none, deferredStart := none }
    hk := s.hk.disable
    safe := { s.safe with softBegun := true, softAt := b } }
  let s := if s.cap.runState = 1 then s.stopRunAt b else s.disarmAt b
  let s := (s.cancelDeferred arm).cancelDeferred start
  let s := (s.cap.slots.filter (fun w => decide (2 ≤ w.2.state) && w.2.exportJob.isNone)).foldl (fun s w => s.closeWindow w.1 w.2 true) s
  let s := s.resetPins
  (s.cmd.jobs.filter (fun j => j.state ≠ .running && j.ctx.opcode ≠ 0x0910)).foldl (fun s j => s.cancelJob j) s

/-- A SOFT_RESET that waits begins once no region reset is in progress (R499). -/
def State.maybeSoft (s : State) : State :=
  if s.safe.softReset.isSome && !s.safe.softBegun && s.regions.all (fun e => e.2.rst.isNone) then s.beginSoft else s

/-- SOFT_RESET accepted: quiet mode begins (R493). -/
def softResetEffect (c : Ctx) (s : State) : State :=
  ({ s with safe := { s.safe with softReset := some c, quiet := true } } : State).maybeSoft

/-- A cell's own settings at reset values (R116). -/
def Cell.defaults (x : Cell) (b : SI) : Cell :=
  { x with
    oldDeskew := if x.deskewAt = b then x.oldDeskew else x.deskew, deskewAt := b, deskew := 0, deskewUntil := none, hyst := 0, thresh := 1489
    calFail := false, settleUntil := none, doubt := {} }

/-- Input cells at reset values: every channel disabled, then its settings. -/
def State.resetCells (s : State) : State :=
  let b := s.boundary
  let s := (s.cells.map (fun e => e.1)).foldl (fun s c => s.setMode b c 0) s
  { s with cells := s.cells.map (fun (e : Nat × Cell) => (e.1, e.2.defaults b)) }

/-- A sequencer with the empty program, disarmed (R122); what it has counted stays. -/
def Seq.empty (q : Seq) : Seq :=
  { q with
    pending := {}, active := {}, pendingOk := false, pendingId := 0, activeId := 0, armed := false, halted := false, stitch := 0, stitchAt := 0
    counters := [], timers := [], timersOn := [], holdFrom := none, holdBaste := none, edges := [], events := [], matched := [], pulses := []
    forced := [], rearm := [], held := 0 }

/-- The configuration that SOFT_RESET returns to its reset values. -/
def State.resetConfig (s : State) : State :=
  let s := s.resetCells
  let h := s.hk
  { s with
    ivls := []
    engines := []
    regions := s.regions.map (fun (e : Nat × Region) => (e.1, { e.2 with cfg := {}, stats := [], statBuf := [], ended := [], clockBuf := [], samples := [], oldClocks := [], oldEng := 0 }))
    data := { s.data with sources := s.data.sources.map (fun (e : Nat × Source) => (e.1, { e.2 with mode := 0 })) }
    cap := { s.cap with policies := [] }
    seq0 := s.seq0.empty
    seq1 := s.seq1.empty
    cas := { s.cas with localArm := false, sendFire := false, retroWin := false, preopen := false, retroWpol := 0 }
    hk := { h with
      enabled := false, entries := [], trig := 0, mains := 0, mainsPerEpoch := 0, calPeriod := 60, intervalUs := 0, seqCount := 0, entry := 0
      integ := 0, last := [], corrOfs := [], corrGain := [], mainsNs := 20000000 } }

/-- The result of the self-tests that SOFT_RESET reruns (R462, R464). -/
def State.selfTested (s : State) (failed : Nat) : State :=
  let s' : State := { s with sec := { s.sec with error := failed ≠ 0, errCode := failed, selftestOk := failed = 0 } }
  s'.raiseIf (failed ≠ 0) 224

/-- The seams that SOFT_RESET resets (R487, R495) are settled. -/
def State.resetSeams (s : State) : State :=
  { s with safe := { s.safe with seams := s.safe.seams.map (fun e =>
      (e.1, if e.1 = 1 || e.1 = 8 || e.1 = 9 || e.1 = 12 then { e.2 with unsettled := false } else e.2)) } }

/-- The on-chip log rebuilt from the DRAM log. -/
def Log.rebuild (l : Log) : Log :=
  { l with onchipBad := false, onchip := if l.onchipOnly then l.onchip else (l.entries.reverse).take onchipSize }

/-- SOFT_RESET ends: configuration reset, self-tests rerun, doubt causes [4], [5] and [6] cleared. `failedTest` is the ERR_CODE of the
first test that failed, 0 where all pass. Its CHANGE record carries the boundary at which it took effect (R445). -/
def State.endSoft (s : State) (c : Ctx) (failedTest : Nat) : State :=
  let s := if failedTest ≠ 0 then s.updateBarred else s
  let s := (s.cmd.jobs.filter (fun j => j.ctx.opcode ≠ 0x0910)).foldl (fun s j => s.cancelJob j) s
  let s := ((s.resetConfig).selfTested failedTest).resetSeams
  let s : State := { s with
    log := s.log.rebuild
    safe := { s.safe with softReset := none, softBegun := false, quiet := false, copyBad := false, stuckCore := false } }
  let s := (((s.endCause causeParity).endCause causeLag).endCause causeCore).checkSeams
  (s.raise 11).finishAt c s.safe.softAt [s.safe.causes.toNat, failedTest]

/-- SOFT_RESET_COMPLETE, as a row: once the run's shut-down has ended. -/
def rowSoftResetComplete (t : SI) (failedTest : Nat) (s : State) : State :=
  let s := s.moment t
  match s.safe.softReset with
  | none => s
  | some c => if s.safe.softBegun && s.cap.runState = 0 && s.seq0.stopAt.isNone then s.endSoft c failedTest else s

end Sys2Proof.Machine
end

