-- ==== Sys2Proof/Machine/Regs.lean ====
section
/-! DEFINITION. The registers of BAR0 as a host read finds them, in the map of each chapter's register tables: their values, what a read
clears (R5, R10), what it latches (R8, R165), and the Skosta directory (R404, R405). -/

namespace Sys2Proof.Machine

/-- A register value from its fields: value, lowest bit, width. Reserved bits read 0 (R7). -/
def regOf (fs : List (Nat × Nat × Nat)) : Nat := (fs.map (fun f => f.1 % 2 ^ f.2.2 * 2 ^ f.2.1)).sum

/-- One flag at bit k. -/
def rb (b : Bool) (k : Nat) : Nat × Nat × Nat := (b2n b, k, 1)

/-- The low and high words of a 64-bit value. -/
def loWord (n : Nat) : Nat := n % 2 ^ 32
/-- Bits [63:32]. -/
def hiWord (n : Nat) : Nat := n / 2 ^ 32 % 2 ^ 32

/-! ### The Skosta directory (R404, R405) -/

/-- A directory entry: TYPE, LEN and the value, padded to a multiple of 4. -/
def dirEntry (type : Nat) (v : List Byte) : List Byte :=
  leBytes 2 type ++ leBytes 2 v.length ++ v ++ List.replicate ((4 - v.length % 4) % 4) 0

/-- A BLOCK entry of VERSION 1. -/
def dirBlock (id ofs count parent stride : Nat) : List Byte :=
  dirEntry 1 (leBytes 2 id ++ leBytes 2 1 ++ leBytes 4 ofs ++ leBytes 2 count ++ leBytes 2 parent ++ leBytes 4 stride)

/-- The entries: the BLOCK entries in the order of R405, LIMITS, and the end. A COUNT beyond 16 bits is stored modulo 2^16 (notes/assumptions/34.md). -/
def dirEntries : List Byte :=
  [dirBlock 0x1 0x10000 1 0 0, dirBlock 0x2 0x20000 4 0 0x10000, dirBlock 0x3 0x2000 16 2 0x20, dirBlock 0x4 0x60000 1 0 0,
   dirBlock 0x5 0x70000 2 0 0x1000, dirBlock 0x6 0x80000 1 0 0, dirBlock 0x7 0x90000 1 0 0, dirBlock 0x8 0xA0000 1 0 0,
   dirBlock 0x9 0xB0000 1 0 0, dirBlock 0xA 0xC0000 1 0 0, dirBlock 0xB 0xD0000 1 0 0, dirBlock 0xC 0xE0000 1 0 0,
   dirBlock 0xD 0xF0000 1 0 0, dirBlock 0xE 0x100000 262144 0 32,
   dirEntry 2 ([1024, 262144, 4096, 64, 256, 32, 16, 2048, 768].flatMap (leBytes 4)), leBytes 2 0xFFFF ++ leBytes 2 0].flatten

/-- The 64 bytes of the header (R404, R406). -/
def State.dirHeader (s : State) : List Byte :=
  let v := s.sec.fwVerified
  let step := if s.startup.ready then 8 else min 7 s.startup.step
  leBytes 4 0x52444B53 ++ leBytes 2 1 ++ leBytes 2 64 ++ leBytes 4 (if v then 64 + dirEntries.length else 64)
    ++ [BitVec.ofNat 8 (regOf [rb s.startup.ready 0, rb v 1, rb s.dram.trained 2, (step, 4, 4)]), BitVec.ofNat 8 (b2n Config.gradeE)]
    ++ leBytes 2 Config.stepping.toNat ++ leBytes 4 (if v then s.sec.fwVersion.toNat else 0) ++ leBytes 1 (b2n s.sec.fwSlotB) ++ leBytes 3 0
    ++ leBytes 8 Config.serial.toNat ++ leBytes 2 (if v then 15 else 0) ++ List.replicate 30 0

/-- The directory's bytes that are in use; the rest of its 64 KiB reads 0. -/
def State.directory (s : State) : List Byte := s.dirHeader ++ (if s.sec.fwVerified then dirEntries else [])

/-! ### Blocks of registers -/

/-- CHP space (R35 to R37, R512). -/
def State.chpReg (s : State) (o : Nat) : Nat :=
  let x := s.safe
  match o with
  | 0x0 => regOf [rb s.inDoubt 31, (x.seen.toNat, 16, 8), (x.causes.toNat, 0, 8)]
  | 0x4 => loWord x.doubtSi
  | 0x8 => hiWord x.doubtSi
  | 0xC => regOf [(x.tempLimit, 24, 8), (x.supplyTol, 16, 8), rb s.pcie.retain 0]
  | 0x10 => regOf [(x.monSupply.toNat, 8, 16), (x.monTemp.toNat, 0, 8)]
  | 0x14 => regOf [(x.restarts, 24, 8), (x.cfgPar, 16, 8), (x.swapBusy, 8, 8)]
  | 0x100 => regOf [(unitsUp 11 65536 (max s.data.stgPeak s.data.fill), 16, 11), (unitsUp 11 65536 s.data.fill, 0, 11)]
  | 0x104 => s.data.stgOvf
  | 0x108 => regOf [(s.data.trnMaxMb, 16, 16), (s.data.trnLastMb, 0, 16)]
  | _ => 0

/-- RGN_CELL_CFG (R116). -/
def Cell.cfgReg (x : Cell) : Nat := regOf [(toField 12 x.deskew, 20, 12), (x.hyst, 12, 7), (x.thresh, 0, 12)]

/-- RGN_CELL_STAT (R117). -/
def Cell.statReg (x : Cell) : Nat :=
  let ok := fun (k : Nat) => (x.lanes.getD k {}).good
  regOf [(x.coarseCnt, 24, 8), rb x.parCal 13, rb x.calFail 12, rb x.settleUntil.isSome 11, rb (x.doubt.oor && x.enable) 10, rb x.doubt.stuck 9,
    rb x.doubtOpen 8, (if x.parCal then 3 else x.calLane, 6, 2), rb (ok 2) 5, rb (ok 1) 4, rb (ok 0) 3, rb x.term50 2, rb x.diff 1, rb x.enable 0]

/-- RGN_BLK_SRAM (R38). -/
def Block.sramReg (x : Block) : Nat :=
  regOf [(x.ovfCnt, 24, 8), (unitsUp 9 1024 (max x.peak x.fill), 9, 9), (unitsUp 9 1024 x.fill, 0, 9)]

/-- The engine registers (R265). -/
def Engine.reg (e : Engine) (o : Nat) : Nat :=
  match o with
  | 0x0 => regOf [rb e.enable 31, (e.protocol, 28, 3), (e.gang / 2, 26, 2), rb e.member 25, (e.lead, 16, 4), (e.filter, 0, 12)]
  | 0x4 => regOf [(toField 16 e.ofs, 16, 16), (e.guard, 0, 10)]
  | 0x8 => regOf [(e.syncCode, 30, 2), rb e.inputOff 29, rb e.st.lock 28, rb (e.protocol = 2 && e.st.hs) 27, (e.st.tap, 23, 4), (e.lastErr, 0, 16)]
  | 0xC => regOf [(e.msgs, 16, 16), (e.errMsgs, 0, 16)]
  | 0x10 => regOf [(e.drop, 24, 8), (e.skip, 16, 8), (e.abandoned, 8, 8), (e.filtered, 0, 8)]
  | 0x14 => if e.st.lock then (e.st.period + 63) / 64 else 0
  | _ => 0

/-- DEC_INMAP j (R266): an input that is not in use shows the channel last set for it. -/
def Engine.inmap (e : Engine) (j : Nat) : Nat :=
  regOf [rb (e.uses (2 * j + 1)) 31, (e.inCh.getD (2 * j + 1) 0, 16, 8), rb (e.uses (2 * j)) 15, (e.inCh.getD (2 * j) 0, 0, 8)]

/-- RGN space of region r (R38, R116, R117, R265, R266, R334, R513). -/
def State.rgnReg (s : State) (r o : Nat) : Nat :=
  let g := s.region r
  if 0x400 ≤ o ∧ o < 0x440 then (s.block (16 * r + (o - 0x400) / 4)).sramReg
  else if 0xC00 ≤ o ∧ o < 0x1000 then (s.cell (256 * r + (o - 0xC00) / 4)).cfgReg
  else if 0x1000 ≤ o ∧ o < 0x1400 then (s.cell (256 * r + (o - 0x1000) / 4)).statReg
  else if 0x2000 ≤ o ∧ o < 0x2200 then (s.engine (16 * r + (o - 0x2000) / 0x20)).reg ((o - 0x2000) % 0x20)
  else if 0x2400 ≤ o ∧ o < 0x2C00 then (s.engine (16 * r + (o - 0x2400) / 0x80)).inmap ((o - 0x2400) % 0x80 / 4)
  else match o with
    | 0x3000 => regOf [(g.bypass, 16, 16), (g.mismatch, 0, 16)]
    | 0x3004 => regOf [(g.cmpInMb, 16, 16), (g.cmpOutMb, 0, 16)]
    | 0x3008 => regOf [(g.hashDeferred, 16, 16), (g.hashMb, 0, 16)]
    | 0x3010 => regOf [(g.rstState, 30, 2), (g.resets, 16, 8), (g.discarded, 8, 8), (g.dropped, 0, 8)]
    | _ => 0

/-- TIM space (R80 to R82). -/
def State.timReg (s : State) (o : Nat) : Nat :=
  let t := s.time
  let src := t.ref.timeSrc
  match o with
  | 0x00 => regOf [(t.tgen.toNat, 24, 8), rb (decide (1 < t.refoutM)) 21, rb ((t.outActive && t.ref.epochOutW ≠ 0) || t.refoutOn) 20, rb src 19, rb t.ref.synMode 18,
      rb t.synLock 17, rb t.coasting 16, (if src then t.tt.parentState else 0, 8, 3), (t.reported, 0, 3)]
  | 0x04 => t.u t.si
  | 0x08 => loWord t.snap.si
  | 0x0C => hiWord t.snap.si
  | 0x10 => loWord t.snap.st
  | 0x14 => hiWord t.snap.st
  | 0x18 => t.snap.st / 2 ^ 64
  | 0x1C => regOf [(t.snap.tgen, 24, 8), rb t.snap.coasting 16, (t.snap.state, 0, 3)]
  | 0x20 => toField 32 t.phasePs
  | 0x24 => t.refHz
  | 0x28 => regOf [(t.stepCnt, 24, 8), (t.lossCnt, 16, 8), (t.slipCnt, 8, 8), (t.missCnt, 0, 8)]
  | 0x2C => regOf [rb t.synLock 31, (t.synLoss, 23, 8), (t.ref.rateKhz, 0, 23)]
  | 0x30 => regOf [(s.sched.failCnt, 24, 8), (s.sched.lateCnt, 16, 8), (s.sched.entries.length, 0, 9)]
  | 0x34 => if src then toField 32 (sat32 (t.toPsReg t.tt.delay)) else 0
  | 0x38 => if src then toField 32 (sat32 (t.toPsReg t.tt.filtered)) else 0
  | _ => 0

/-- SEQ space of sequencer k (R164, R165). A counter or timer at the latest evaluated slot is shown with that slot's own changes in it (DESIGN CHOICE,
notes/assumptions/64.md). -/
def State.seqReg (s : State) (k o : Nat) : Nat :=
  let q := s.sq k
  if 0x40 ≤ o ∧ o < 0x80 then
    let v := (tfind q.counters ((o - 0x40) / 8)).getD 0
    if o % 8 = 0 then loWord v else hiWord v
  else if 0x80 ≤ o ∧ o < 0xC0 then
    let v := (tfind q.timers ((o - 0x80) / 8)).getD 0
    if o % 8 = 0 then loWord v else hiWord v
  else match o with
    | 0x00 => regOf [rb q.armed 31, rb q.halted 30, rb (k = 0 && s.cmd.deferredArm.isSome) 29, rb q.pendingOk 28, (q.stitchAt, 20, 4),
        (q.bastes.length, 15, 5)]
    | 0x04 => if k = 0 then regOf [(max q.lagMax q.held, 16, 7), (q.held, 0, 7)] else 0
    | 0x08 => q.activeId
    | 0x0C => if q.pendingOk then q.pendingId else 0
    | 0x10 => q.tackNo
    | 0x14 => regOf [(q.suppHold, 16, 16), (q.suppFull, 0, 16)]
    | 0x18 => q.transCnt
    | 0x1C => regOf [(q.lastStitch, 16, 4), (q.lastBranch, 14, 2), (q.lastKind, 12, 2), (q.lastFine, 0, 6)]
    | 0x20 => loWord q.lastSi
    | 0x24 => hiWord q.lastSi
    | 0x28 => loWord q.uneval
    | 0x2C => hiWord q.uneval
    | _ => 0

/-- The TRIG_OUT registers (R166), from offset 0x07_2000. -/
def State.pinReg (s : State) (o : Nat) : Nat :=
  let x := (tfind s.pins.out (o / 8)).getD {}
  if o < 0x40 then
    if o % 8 = 0 then regOf [(x.source, 28, 4), rb x.basted 27, rb x.align 26, rb x.polarity 25, (x.width, 16, 8)]
    else regOf [(x.delayNs, 0, 20)]
  else if o = 0x40 then
    let lv := fun (n : Nat) => let y := (tfind s.pins.out n).getD {}; if decide (s.time.si < y.cancelUntil) then !y.polarity else y.active != y.polarity
    regOf ([(s.pins.late, 24, 8), (s.pins.merged, 16, 8)] ++ (List.range 8).map (fun n => rb (lv n) n))
  else 0

/-- CAS space (R202 to R204). -/
def State.casReg (s : State) (o : Nat) : Nat :=
  let c := s.cas
  match o with
  | 0x00 => regOf [(c.unitId.toNat, 18, 14), (c.role, 16, 2), (c.depth, 13, 3), rb c.localArm 12, rb c.sendFire 11, rb c.retroWin 10,
      rb c.preopen 9, rb c.dupId 8, rb (c.ports.any (fun e => e.2.linkDoubt ≠ 0)) 7, rb c.upPort.isSome 4, (c.upPort.getD 0, 0, 4)]
  | 0x04 => regOf [(c.retroWpol, 0, 4)]
  | 0x08 => regOf ((List.range 16).map (fun n => ((s.port n).role, 2 * n, 2)))
  | 0x0C => regOf ((List.range 16).map (fun n => rb (s.port n).up n))
  | 0x10 => regOf [(c.doubtUnits.length, 17, 15), (c.remote.length, 8, 9)]
  | 0x14 => regOf [(c.fireRx, 16, 16), (c.retroNoRun, 0, 16)]
  | 0x18 => regOf [(c.expired, 16, 16), (c.storeFull, 0, 16)]
  | 0x1C => regOf [(c.lastFailUnit.toNat, 18, 14), (c.armFail, 0, 16)]
  | 0x20 => regOf [(s.pins.withheld, 24, 8), (s.pins.cancels, 16, 8), (s.pins.ambig, 8, 8), (s.pins.discarded, 0, 8)]
  | _ =>
    let p := s.port ((o - 0x100) / 8)
    if 0x100 ≤ o ∧ o < 0x180 then
      if o % 8 = 0 then regOf [(p.state, 29, 3), (if p.up then p.peer.toNat else 0, 14, 14), (p.role, 12, 2)]
      else regOf [(p.crcErr, 24, 8), (p.retry, 16, 8), (p.discard, 8, 8), (p.downCnt, 0, 8)]
    else 0

/-- MEM space (R392 to R394). -/
def State.memReg (s : State) (o : Nat) : Nat :=
  let d := s.dram
  let is := fun (st : JobState) => d.mig.any (fun m => (s.job m.job).any (fun j => j.state = st))
  match o with
  | 0x00 => regOf [rb d.trained 31, rb d.training 30, (d.map, 28, 2), (d.page, 26, 2), rb d.selfRefresh 25, rb d.hot 24, rb d.warm 23,
      rb d.mig.isSome 22, rb (d.ranks.any (fun e => e.2.state = 5)) 21, rb (d.unbacked ≠ []) 20, (d.speed, 0, 16)]
  | 0x04 => regOf [(d.usable, 21, 11), (d.free, 10, 11), (d.logRanks, 7, 3), (d.physRanks, 4, 3), rb d.dense 2, rb d.spares 1, rb d.dpc2 0]
  | 0x08 => regOf [(d.patrolHours, 24, 8), (d.ceThresh, 16, 8), (d.srIdleUs, 0, 16)]
  | 0x0C => regOf [rb (is .running) 31, rb (is .suspended) 30, (d.migChannel, 28, 2), (d.migSource, 26, 2), (d.migSpare, 24, 2), (d.migLost, 0, 16)]
  | 0x10 => d.migPos
  | 0x14 => regOf [(d.rdMb, 16, 16), (d.wrMb, 0, 16)]
  | 0x18 => loWord d.ueAddr
  | 0x1C => hiWord d.ueAddr
  | _ =>
    if 0x100 ≤ o ∧ o < 0x200 then
      let x := (tfind d.ranks ((o - 0x100) / 16)).getD {}
      match o % 16 with
      | 0x0 => regOf [(x.state, 29, 3), (x.logical, 27, 2), (x.ue, 0, 8)]
      | 0x4 => x.ce
      | _ => 0
    else if 0x200 ≤ o ∧ o < 0x22C then
      let p := (o - 0x200) / 4
      regOf [((tfind d.miss p).getD 0, 16, 16), ((tfind d.maxNs p).getD 0, 0, 16)]
    else 0

/-- HST space (R424, R425). -/
def State.hstReg (s : State) (o : Nat) : Nat :=
  let p := s.pcie
  match o with
  | 0x00 => regOf [(if p.linkUp then p.speed else 0, 28, 4), (if p.linkUp then p.width else 0, 23, 5), rb p.linkUp 22, rb (p.linkUp && p.flit) 21,
      rb p.d3hot 20, rb p.bme 19, rb p.quiesced 18, rb p.frozen 17, rb p.retain 16, rb p.msixEn 15, rb p.fnMask 14, rb p.winRange 13]
  | 0x04 => regOf [(p.cto, 16, 16), (p.lateCpl, 0, 16)]
  | 0x08 => regOf [(p.cntLinkDown, 24, 8), (p.cntHotReset, 16, 8), (p.cntFlr, 8, 8), (p.cntFreeze, 0, 8)]
  | 0x0C => regOf [(p.badCpl, 16, 16), (p.barErr, 0, 16)]
  | 0x10 => regOf [(s.tags.quarantined.length, 16, 16), (s.tags.outstanding.length, 0, 10)]
  | 0x14 => regOf [(min 262143 (s.bob.tab.filter (fun e => e.2.held)).length, 0, 18)]
  | 0x18 => regOf [(p.rdMb, 16, 16), (p.wrMb, 0, 16)]
  | 0x20 => loWord p.winBase
  | 0x24 => hiWord p.winBase
  | _ => if 0x100 ≤ o ∧ o < 0x160 then regOf ((List.range 32).map (fun k => rb (s.events.raised.contains (8 * (o - 0x100) + k)) k)) else 0

/-- A ring's state as CMD_RING_STAT shows it (R456). -/
def State.ringState (s : State) (n : Nat) : Nat :=
  let r := s.ring n
  if !r.enable then 0 else if r.stopped then 3 else if s.pcie.blocked || s.safe.swapping then 2 else 1

/-- The registers of ring n (R456). -/
def State.ringReg (s : State) (n o : Nat) : Nat :=
  let r := s.ring n
  match o with
  | 0x00 => loWord r.sqBase
  | 0x04 => hiWord r.sqBase
  | 0x08 => loWord r.cqBase
  | 0x0C => hiWord r.cqBase
  | 0x10 => regOf [rb r.enable 31, (r.bound, 29, 2), (r.cqLog2, 16, 5), (r.sqLog2, 8, 5)]
  | 0x14 => r.sqTail
  | 0x18 => r.sqHead
  | 0x1C => r.cqTail
  | 0x20 => r.cqHead
  | 0x24 => regOf [(s.ringState n, 30, 2), (r.stopCause, 28, 2), (min 8 (r.fetched.length + r.unreplied), 8, 4), rb r.cfgErr 3, rb r.ptrErr 2,
      rb r.heldFlag 1]
  | 0x28 => regOf [(r.accepted, 16, 16), (r.refused, 0, 16)]
  | _ => 0

/-- CMD space (R456, R457). -/
def State.cmdReg (s : State) (o : Nat) : Nat :=
  let l := s.log
  let n := fun (st : JobState) => (s.cmd.jobs.filter (fun j => j.state = st)).length
  if o < 0x400 then s.ringReg (o / 0x40) (o % 0x40)
  else match o with
    | 0x400 => regOf [rb l.onchipOnly 31, rb l.unwritable 30, (l.free, 0, 20)]
    | 0x404 => regOf [(l.logFull, 16, 16), (l.lost, 0, 16)]
    | 0x408 => loWord l.next
    | 0x40C => hiWord l.next
    | 0x410 => loWord l.release
    | 0x414 => hiWord l.release
    | 0x418 => regOf [(n .suspended, 12, 6), (n .queued, 6, 6), (n .running, 0, 6)]
    | 0x41C => regOf [(s.cmd.hold.length, 0, 10)]
    | _ => 0

/-- SEC space (R484, R485). -/
def State.secReg (s : State) (o : Nat) : Nat :=
  let x := s.sec
  let held := fun (k : Nat) => (tfind x.roleKeys k).isSome
  match o with
  | 0x00 => regOf [rb x.error 31, rb x.selftestOk 30, rb x.tamperLatched 29, rb x.tamper 28, rb x.svcEn 27, rb x.svcOpen 26, (x.identity, 24, 2),
      (x.fikOrigin, 22, 2), rb x.esk 21, rb (held 2) 20, rb (held 1) 19, rb (held 3) 18, rb x.zero.isSome 17, (x.errCode, 8, 8),
      (min 255 x.authFails, 0, 8)]
  | 0x04 => if x.esk then x.eskId else 0
  | 0x08 => regOf [(x.fwSvn, 24, 8), (x.fwFloor, 16, 8), rb x.fwSlotB 8, (x.slotB, 2, 2), (x.slotA, 0, 2)]
  | 0x0C => regOf [(x.zeroizeLife, 16, 16), (x.authFailCnt, 8, 8), (x.tamperCnt, 0, 8)]
  | 0x10 => match x.lockoutUntil with
    | none => 0
    | some u => unitsUp 32 s.time.hz ((u - s.time.si) * 1000)
  | 0x14 => regOf [(x.zcause, 29, 3), (x.zboot, 0, 24)]
  | _ => 0

/-- HKA space (R531, R532). -/
def State.hkaReg (s : State) (o : Nat) : Nat :=
  let h := s.hk
  let good := fun (k : Nat) => (h.slice k).good
  if 0x100 ≤ o ∧ o < 0x140 then
    let e := h.entries.getD ((o - 0x100) / 4) {}
    regOf [(e.readings, 24, 8), (e.integ, 20, 3), (e.gain, 16, 3), (e.cell, 12, 4), (e.input, 0, 7)]
  else if 0x140 ≤ o ∧ o < 0x180 then
    let x := (tfind h.last ((o - 0x140) / 4)).getD {}
    regOf [rb x.valid 31, rb x.overrange 30, (toField 24 x.value, 0, 24)]
  else if 0x400 ≤ o ∧ o < 0x700 then
    let i := (o - 0x400) / 8
    if o % 8 = 0 then toField 32 ((tfind h.corrOfs i).getD 0) else (tfind h.corrGain i).getD 16777216
  else match o with
    | 0x00 => regOf [rb h.enabled 31, rb h.running 30, rb h.powered 29, rb h.pending 28, rb h.calJob 27, rb (good 2) 26, rb (good 1) 25,
        rb (good 0) 24, (h.calSlice, 22, 2), (h.entry, 16, 4), (h.entries.length - 1, 12, 4), (h.mains, 10, 2), (h.trig, 8, 2)]
    | 0x04 => regOf [(h.overrun, 16, 16), (h.overrange, 8, 8), (h.rotations, 0, 8)]
    | 0x08 => h.seqCount
    | 0x0C => h.mainsNs
    | 0x10 => h.intervalUs
    | 0x14 => regOf [(h.mainsPerEpoch, 16, 16), (h.calPeriod, 0, 16)]
    | _ => 0

/-- SEAM space (R514). -/
def State.seamReg (s : State) (o : Nat) : Nat :=
  let n := (o - 0x100) / 8
  let m := s.seam n
  if o = 0 then regOf ([rb s.safe.quiet 31] ++ (List.range 4).map (fun r => rb ((s.region r).rstState ≠ 0) r))
  else if 0x100 ≤ o ∧ o < 0x168 then
    if o % 8 = 0 then regOf [rb m.unsettled 31, rb m.stopped 30, rb m.overrun 29, rb (seamEssential n) 28, (m.region, 26, 2)]
    else regOf [(m.lost, 16, 16), (m.unsettledCnt, 0, 16)]
  else 0

/-- Bytes of partition r that open windows pin (R219, R240). -/
def State.pinned (s : State) (r : Nat) : Nat :=
  ((((tfind s.data.lookback r).getD {}).segs.filter (fun g => s.cap.slots.any (fun e => e.2.pins g))).map Seg.size).sum

/-- The registers of region r in CAP space (R240). -/
def State.capRegion (s : State) (r o : Nat) : Nat :=
  let lb := (tfind s.data.lookback r).getD {}
  let g := s.region r
  let depth := if lb.lastMb = 0 then 65535 else min 65535 (s.cap.partition r / (lb.lastMb * 1000000))
  match o with
  | 0x00 => loWord (lb.oldest r)
  | 0x04 => hiWord (lb.oldest r)
  | 0x08 => loWord (s.data.reduction.oldest r)
  | 0x0C => hiWord (s.data.reduction.oldest r)
  | 0x10 => regOf [(depth, 16, 16), (lb.lastMb, 0, 16)]
  | 0x14 => regOf [(lb.broken, 24, 8), (unitsUp 20 1048576 (s.pinned r), 0, 20)]
  | 0x18 => regOf [(g.stateSkip, 16, 16), (g.stateViol, 0, 16)]
  | _ => regOf [(g.cfg.engMask.toNat, 16, 16), (g.cfg.trnGroupsLog2, 8, 3), (g.cfg.statLog2, 0, 5)]

/-- The window registers (R241). -/
def State.windowReg (s : State) (o : Nat) : Nat :=
  let c := s.cap
  if 0x200 ≤ o ∧ o < 0x400 then
    let p := (tfind c.policies ((o - 0x200) / 0x20)).getD {}
    match o % 0x20 with
    | 0x00 => regOf [(p.red, 12, 4), (p.regions, 8, 4), rb p.merge 1, rb p.valid 0]
    | 0x04 => loWord p.pre
    | 0x08 => p.pre / 2 ^ 32 % 512
    | 0x0C => loWord p.post
    | 0x10 => p.post / 2 ^ 32 % 512
    | _ => 0
  else match tfind c.slots ((o - 0x400) / 0x10) with
    | none => 0
    | some w =>
      match o % 0x10 with
      | 0x0 => regOf [(w.state, 30, 2), (w.policy, 26, 4), rb w.exportJob.isSome 25,
          (if w.exportJob.isSome then 0 else if w.state = 1 then 1 else w.tacks.length, 0, 7)]
      | 0x4 => w.id
      | 0x8 => loWord w.pos
      | _ => hiWord w.pos

/-- The interval unit registers (R118). -/
def Ivl.reg (u : Ivl) (o : Nat) : Nat :=
  match o with
  | 0x0 => regOf [rb u.enable 31, rb u.pairing 30, (u.startSlope, 28, 2), (u.stopSlope, 26, 2), (u.decim, 21, 5), (u.stopCh, 10, 10), (u.startCh, 0, 10)]
  | 0x4 => regOf [(u.maxSpan, 0, 25)]
  | 0x8 => regOf [(u.orderSkip, 16, 16), (u.startLost, 0, 16)]
  | _ => regOf [(u.timeout, 16, 16), (u.drop, 0, 16)]

/-- The state of the replay job as CAP_RPL_STAT shows it (R336). -/
def State.replayState (s : State) : Nat :=
  match s.replay.job.bind s.job with
  | none => 0
  | some j => if j.state = .running then 1 else if j.state = .suspended then 2 else 0

/-- CAP space (R118, R239 to R241, R335, R336). -/
def State.capReg (s : State) (o : Nat) : Nat :=
  let c := s.cap
  let sh := fun (k : Nat) => c.share.getD k 0
  if 0x40 ≤ o ∧ o < 0xC0 then s.capRegion ((o - 0x40) / 0x20) ((o - 0x40) % 0x20)
  else if 0x200 ≤ o ∧ o < 0x800 then s.windowReg o
  else if 0x800 ≤ o ∧ o < 0xC00 then (s.ivl ((o - 0x800) / 16)).shown.reg (o % 16)
  else if 0x4000 ≤ o ∧ o < 0xC000 then
    let x := s.stream ((o - 0x4000) / 8)
    if o % 8 = 0 then regOf [rb x.active 31, rb x.closing 30, (x.bobbin, 0, 18)] else regOf [(x.sigSegs, 16, 16), (x.sigMs, 0, 16)]
  else match o with
    | 0x00 => regOf [rb s.cmd.deferredStart.isSome 2, (c.runState, 0, 2)]
    | 0x04 => c.runId
    | 0x08 => loWord c.runB
    | 0x0C => hiWord c.runB
    | 0x10 => loWord c.runE
    | 0x14 => hiWord c.runE
    | 0x20 => regOf [(c.lbGib, 20, 12), (c.redGib, 8, 12), (c.pinLimit, 0, 7)]
    | 0x24 => regOf [(sh 3, 24, 8), (sh 2, 16, 8), (sh 1, 8, 8), (sh 0, 0, 8)]
    | 0x100 => regOf [(c.refused, 24, 8), (c.shortPre, 16, 8), (max c.peak c.inUse, 8, 7), (c.inUse, 0, 7)]
    | 0x104 => c.lastId
    | 0x108 => regOf [(c.winOpened, 16, 16), (c.winJoined, 0, 16)]
    | 0xC00 => regOf [(s.replayState, 30, 2), (s.replay.lastCheck, 26, 4)]
    | 0xC04 => s.replay.acc
    | 0xC08 => s.replay.rej
    | 0xC0C => loWord s.replay.pos
    | 0xC10 => hiWord s.replay.pos
    | 0xC14 => loWord s.replay.fail
    | 0xC18 => hiWord s.replay.fail
    | _ => 0

/-- The doorbell entry of bobbin b (R354); of one that does not exist, 0. -/
def State.bobReg (s : State) (i o : Nat) : Nat :=
  match tfind s.bob.tab i with
  | none => 0
  | some b =>
    match o with
    | 0x00 => b.wr
    | 0x04 => b.rd
    | 0x08 => b.rel
    | 0x0C => b.mark
    | 0x10 => if b.skc256 then b.dupVal else 0
    | 0x14 => b.stat.toNat
    | 0x18 => regOf [(b.drops, 24, 8), (unitsUp 20 65536 (b.owedNow (s.ringStopped b)), 0, 20)]
    | _ => regOf [(b.sizeLog2, 24, 5), rb b.loc1 23, rb b.provisional 22, rb b.skc256 21, rb b.notifyTack 20, (b.weight, 16, 4), (b.notify4k, 0, 16)]

/-! ### The whole of BAR0 -/

/-- The live content of the register at BAR0 offset o, a multiple of 4. Unmapped offsets read 0 (R401). -/
def State.regLive (s : State) (o : Nat) : Nat :=
  let k := o % 0x10000
  if o < 0x10000 then leNat ((s.directory.drop o).take 4)
  else if 0x100000 ≤ o then (if o < 0x900000 then s.bobReg ((o - 0x100000) / 32) (o % 32) else 0)
  else match o / 0x10000 with
    | 1 => s.chpReg k
    | 6 => s.timReg k
    | 7 => if k < 0x2000 then s.seqReg (k / 0x1000) (k % 0x1000) else s.pinReg (k - 0x2000)
    | 8 => s.casReg k
    | 9 => s.memReg k
    | 10 => s.hstReg k
    | 11 => s.cmdReg k
    | 12 => s.secReg k
    | 13 => s.hkaReg k
    | 14 => s.seamReg k
    | 15 => s.capReg k
    | n => s.rgnReg (n - 2) k

/-! ### Latched high words (R8) -/

/-- A low-word register whose read latches its high word (R8). -/
def isLow (o : Nat) : Bool :=
  let k : Nat := o % 0x10000
  let q : Nat := k % 0x1000
  match o / 0x10000 with
  | 1 => k == 0x4
  | 7 => decide (k < 0x2000) && (q == 0x20 || q == 0x28 || (decide (0x40 ≤ q ∧ q < 0xC0) && q % 8 == 0))
  | 9 => k == 0x18
  | 10 => k == 0x20
  | 11 => k == 0x408 || k == 0x410 || (decide (k < 0x400) && (k % 0x40 == 0 || k % 0x40 == 0x08))
  | 15 => k == 0x08 || k == 0x10 || (decide (0x40 ≤ k ∧ k < 0xC0) && (k % 0x20 == 0 || k % 0x20 == 0x08)) ||
      (decide (0x200 ≤ k ∧ k < 0x400) && (k % 0x20 == 0x04 || k % 0x20 == 0x0C)) ||
      (decide (0x400 ≤ k ∧ k < 0x800) && k % 0x10 == 0x08) || k == 0xC0C || k == 0xC14
  | _ => false

/-- The registers that a read at offset o latches: the high word, and SEQ_LAST_INFO with SEQ_LAST_SI_LO (R165). -/
def latchedBy (o : Nat) : List Nat :=
  if isLow o then (if o / 0x10000 = 7 ∧ o % 0x1000 = 0x20 then [o + 4, o - 4] else [o + 4]) else []

/-- The register at offset o returns a latched value. -/
def isLatched (o : Nat) : Bool :=
  (decide (4 ≤ o) && isLow (o - 4)) || (o / 0x10000 = 7 && decide (o % 0x10000 < 0x2000) && o % 0x1000 = 0x1C)

/-- What a read at offset o returns: the latched value of a high word, 0 before any low-word read, else the live value. -/
def State.regRead (s : State) (o : Nat) : Nat := if isLatched o then ((tfind s.obs.latches o).getD 0).toNat else s.regLive o

/-! ### What a read clears (R5, R10) -/

/-- What stays of an RC field [hi:lo] of which the occurrences at the moment of the read, as w gives them in its place, are part (R10). -/
def kept (w live hi lo : Nat) : Nat := min live (bits w hi lo)

/-- The RC fields of BAR0 offset o cleared, but for the occurrences w of the moment of the read (R10); the highest value since the read starts from the
present one. -/
def State.regClear (s : State) (o w : Nat) : State :=
  let k := o % 0x10000
  if 0x100000 ≤ o then
    if o < 0x900000 ∧ o % 32 = 0x18 then
      { s with bob := { s.bob with tab := s.bob.tab.map (fun (e : Nat × Bobbin) =>
          if e.1 = (o - 0x100000) / 32 then (e.1, { e.2 with drops := kept w e.2.drops 31 24 }) else e) } }
    else s
  else match o / 0x10000 with
    | 1 => match k with
      | 0x14 => { s with safe := { s.safe with restarts := kept w s.safe.restarts 31 24, cfgPar := kept w s.safe.cfgPar 23 16, swapBusy := kept w s.safe.swapBusy 15 8 } }
      | 0x100 => { s with data := { s.data with stgPeak := s.data.fill } }
      | 0x104 => { s with data := { s.data with stgOvf := kept w s.data.stgOvf 31 0 } }
      | 0x108 => { s with data := { s.data with trnMaxMb := 0 } }
      | _ => s
    | 6 => match k with
      | 0x28 => { s with time := { s.time with stepCnt := kept w s.time.stepCnt 31 24, lossCnt := kept w s.time.lossCnt 23 16, slipCnt := kept w s.time.slipCnt 15 8, missCnt := kept w s.time.missCnt 7 0 } }
      | 0x2C => { s with time := { s.time with synLoss := kept w s.time.synLoss 30 23 } }
      | 0x30 => { s with sched := { s.sched with failCnt := kept w s.sched.failCnt 31 24, lateCnt := kept w s.sched.lateCnt 23 16 } }
      | _ => s
    | 7 =>
      if 0x2000 ≤ k then (if k = 0x2040 then { s with pins := { s.pins with late := kept w s.pins.late 31 24, merged := kept w s.pins.merged 23 16 } } else s)
      else s.modSeq (k / 0x1000) (fun q => match k % 0x1000 with
        | 0x04 => { q with lagMax := q.held }
        | 0x14 => { q with suppHold := kept w q.suppHold 31 16, suppFull := kept w q.suppFull 15 0 }
        | 0x18 => { q with transCnt := kept w q.transCnt 31 0 }
        | _ => q)
    | 8 =>
      if 0x100 ≤ k ∧ k < 0x180 ∧ k % 8 = 4 then s.modPort ((k - 0x100) / 8) (fun p => { p with crcErr := kept w p.crcErr 31 24, retry := kept w p.retry 23 16, discard := kept w p.discard 15 8, downCnt := kept w p.downCnt 7 0 })
      else match k with
        | 0x14 => { s with cas := { s.cas with fireRx := kept w s.cas.fireRx 31 16, retroNoRun := kept w s.cas.retroNoRun 15 0 } }
        | 0x18 => { s with cas := { s.cas with expired := kept w s.cas.expired 31 16, storeFull := kept w s.cas.storeFull 15 0 } }
        | 0x1C => { s with cas := { s.cas with armFail := kept w s.cas.armFail 15 0 } }
        | 0x20 => { s with pins := { s.pins with withheld := kept w s.pins.withheld 31 24, cancels := kept w s.pins.cancels 23 16, ambig := kept w s.pins.ambig 15 8, discarded := kept w s.pins.discarded 7 0 } }
        | _ => s
    | 9 =>
      if k = 0x0C then { s with dram := { s.dram with migLost := kept w s.dram.migLost 15 0 } }
      else if 0x100 ≤ k ∧ k < 0x200 then
        let f := fun (e : Nat × Rank) => if e.1 ≠ (k - 0x100) / 16 then e else
          if k % 16 = 0 then (e.1, { e.2 with ue := kept w e.2.ue 7 0 }) else if k % 16 = 4 then (e.1, { e.2 with ce := kept w e.2.ce 31 0 }) else e
        { s with dram := { s.dram with ranks := s.dram.ranks.map f } }
      else if 0x200 ≤ k ∧ k < 0x22C then
        { s with dram := { s.dram with miss := tput s.dram.miss ((k - 0x200) / 4) (kept w ((tfind s.dram.miss ((k - 0x200) / 4)).getD 0) 31 16), maxNs := tdel s.dram.maxNs ((k - 0x200) / 4) } }
      else s
    | 10 => match k with
      | 0x04 => { s with pcie := { s.pcie with cto := kept w s.pcie.cto 31 16, lateCpl := kept w s.pcie.lateCpl 15 0 } }
      | 0x08 => { s with pcie := { s.pcie with cntLinkDown := kept w s.pcie.cntLinkDown 31 24, cntHotReset := kept w s.pcie.cntHotReset 23 16, cntFlr := kept w s.pcie.cntFlr 15 8, cntFreeze := kept w s.pcie.cntFreeze 7 0 } }
      | 0x0C => { s with pcie := { s.pcie with badCpl := kept w s.pcie.badCpl 31 16, barErr := kept w s.pcie.barErr 15 0 } }
      | _ => s
    | 11 =>
      if k < 0x400 ∧ k % 0x40 = 0x28 then s.modRing (k / 0x40) (fun r => { r with accepted := kept w r.accepted 31 16, refused := kept w r.refused 15 0 })
      else if k = 0x404 then { s with log := { s.log with logFull := kept w s.log.logFull 31 16, lost := kept w s.log.lost 15 0 } }
      else s
    | 12 => if k = 0x0C then { s with sec := { s.sec with authFailCnt := kept w s.sec.authFailCnt 15 8, tamperCnt := kept w s.sec.tamperCnt 7 0 } } else s
    | 13 => if k = 0x04 then { s with hk := { s.hk with overrun := kept w s.hk.overrun 31 16, overrange := kept w s.hk.overrange 15 8, rotations := kept w s.hk.rotations 7 0 } } else s
    | 14 => if 0x100 ≤ k ∧ k < 0x168 ∧ k % 8 = 4 then s.modSeam ((k - 0x100) / 8) (fun m => { m with lost := kept w m.lost 31 16, unsettledCnt := kept w m.unsettledCnt 15 0 }) else s
    | 15 =>
      if 0x40 ≤ k ∧ k < 0xC0 then
        let r := (k - 0x40) / 0x20
        match (k - 0x40) % 0x20 with
        | 0x14 => { s with data := { s.data with lookback := tmod s.data.lookback r {} (fun x => { x with broken := kept w x.broken 31 24 }) } }
        | 0x18 => s.modRegion r (fun g => { g with stateSkip := kept w g.stateSkip 31 16, stateViol := kept w g.stateViol 15 0 })
        | _ => s
      else if 0x800 ≤ k ∧ k < 0xC00 then
        match k % 16 with
        | 0x8 => s.modIvl ((k - 0x800) / 16) (fun u => { u with orderSkip := kept w u.orderSkip 31 16, startLost := kept w u.startLost 15 0 })
        | 0xC => s.modIvl ((k - 0x800) / 16) (fun u => { u with timeout := kept w u.timeout 31 16, drop := kept w u.drop 15 0 })
        | _ => s
      else match k with
        | 0x100 => { s with cap := { s.cap with refused := kept w s.cap.refused 31 24, shortPre := kept w s.cap.shortPre 23 16, peak := s.cap.inUse } }
        | 0x108 => { s with cap := { s.cap with winOpened := kept w s.cap.winOpened 31 16, winJoined := kept w s.cap.winJoined 15 0 } }
        | _ => s
    | n =>
      let r := n - 2
      if n < 2 ∨ 5 < n then s
      else if 0x400 ≤ k ∧ k < 0x440 then s.modBlock (16 * r + (k - 0x400) / 4) (fun x => { x with ovfCnt := kept w x.ovfCnt 31 24, peak := x.fill })
      else if 0x1000 ≤ k ∧ k < 0x1400 then s.modCell (256 * r + (k - 0x1000) / 4) (fun x => { x with coarseCnt := kept w x.coarseCnt 31 24 })
      else if 0x2000 ≤ k ∧ k < 0x2200 then
        match (k - 0x2000) % 0x20 with
        | 0x0C => s.modEngine (16 * r + (k - 0x2000) / 0x20) (fun e => { e with msgs := kept w e.msgs 31 16, errMsgs := kept w e.errMsgs 15 0 })
        | 0x10 => s.modEngine (16 * r + (k - 0x2000) / 0x20) (fun e => { e with drop := kept w e.drop 31 24, skip := kept w e.skip 23 16, abandoned := kept w e.abandoned 15 8, filtered := kept w e.filtered 7 0 })
        | _ => s
      else match k with
        | 0x3000 => s.modRegion r (fun g => { g with bypass := kept w g.bypass 31 16, mismatch := kept w g.mismatch 15 0 })
        | 0x3008 => s.modRegion r (fun g => { g with hashDeferred := kept w g.hashDeferred 31 16 })
        | 0x3010 => s.modRegion r (fun g => { g with resets := kept w g.resets 23 16, discarded := kept w g.discarded 15 8, dropped := kept w g.dropped 7 0 })
        | _ => s

/-! ### Host reads (R5, R8, R10, R80, R401) -/

/-- The frame boundary at or before the present slot captured into the snapshot registers (R80). -/
def State.snapshot (s : State) : State :=
  let t := s.time
  { s with time := { t with snap := if floor16 t.si = t.si then (s.timeFor t.si).viewAt t.si else t.view } }

/-- BAR0 answers: configuration space is up, the link is up and the function is in D0 (R399, R414). -/
def State.barAnswers (s : State) : Bool := s.pcie.configUp && s.pcie.linkUp && !s.pcie.d3hot

/-- The block whose RGN_BLK_SRAM lies at BAR0 offset o. -/
def sramAt (o : Nat) : Option Nat :=
  if 0x20000 ≤ o ∧ o < 0x60000 ∧ 0x400 ≤ o % 0x10000 ∧ o % 0x10000 < 0x440 then some (16 * (o / 0x10000 - 2) + (o % 0x10000 - 0x400) / 4) else none

/-- RGN_BLK_SRAM shows the burst SRAM as it is now: what has drained has left it (R38). -/
def State.sramNow (s : State) (o : Nat) : State :=
  match sramAt o with
  | some b => s.advanceBlock b s.time.si
  | none => s

/-- A host read answers v. -/
def State.answerRead (s : State) (v : Word) : State := { s with obs := { s.obs with readData := v, readPoisoned := false } }

/-- A read returns the value without the occurrences w of its own moment (R10): what the register shows, less what the clear leaves of them. -/
def State.readValue (s : State) (o w : Nat) : Nat := s.regRead o - ((s.regClear o w).regLive o - (s.regClear o 0).regLive o)

/-- A DW read of BAR0 at byte offset o: its answer, what it latches and what it clears, w being what occurs at the same moment. Before READY only the
directory answers other than 0, and a read has no other effect (R406). -/
def State.hostRead (s : State) (o : Nat) (w : Nat := 0) : State :=
  let o := o / 4 * 4
  if !s.barAnswers then s
  else if o < 0x10000 ∨ s.startup.ready = true then
    let s := (if o = 0x60008 then s.snapshot else s).sramNow o
    let v := w32 (s.readValue o w)
    let ls := (latchedBy o).foldl (fun t h => tput t h (w32 (s.regLive h))) s.obs.latches
    ({ s with obs := { s.obs with readData := v, readPoisoned := false, latches := ls } } : State).regClear o w
  else s.answerRead 0

/-! ### BAR4, the expansion ROM and configuration space (R398, R400, R404, R407, R421) -/

/-- One DW of an MSI-X table entry. -/
def MsixEntry.reg (e : MsixEntry) (k : Nat) : Nat :=
  match k with
  | 0 => loWord e.addr.toNat
  | 1 => hiWord e.addr.toNat
  | 2 => e.data.toNat
  | _ => b2n e.masked

/-- The content of BAR4 at offset o, a multiple of 4: the table, the Pending Bit Array, the event map; other offsets read 0 (R407). -/
def State.msixReg (s : State) (o : Nat) : Nat :=
  if o < 0x8000 then ((tfind s.events.table (o / 16)).getD {}).reg (o % 16 / 4)
  else if o < 0x8100 then regOf ((List.range 32).map (fun k => rb (s.events.pba.contains (8 * (o - 0x8000) + k)) k))
  else if 0xC000 ≤ o ∧ o < 0xCC00 then
    let m := (tfind s.events.map ((o - 0xC000) / 4)).getD {}
    regOf [rb m.enable 31, rb m.wake 30, (m.vector, 0, 11)]
  else 0

/-- Low bits of the size of a BAR's DW, and its type bits: 16 MiB, 1 GiB prefetchable and 64 KiB, each of 64 bits (R400). -/
def barLow (n : Nat) : Nat × Nat :=
  match n with
  | 0 => (24, 0x4)
  | 2 => (30, 0xC)
  | 4 => (16, 0x4)
  | _ => (0, 0)

/-- DW n of the BARs as last written, the bits below the size apart (R400). -/
def Pcie.barReg (p : Pcie) (n : Nat) : Nat :=
  let v := ((tfind p.bars n).getD 0).toNat
  v / 2 ^ (barLow n).1 * 2 ^ (barLow n).1 + (barLow n).2

/-- The Expansion ROM BAR: 64 KiB, with its enable bit (R400, R404). -/
def Pcie.romReg (p : Pcie) : Nat := p.romBar.toNat / 65536 * 65536 + p.romBar.toNat % 2

/-- Extended capability IDs of R398 by the PCI Express specification: AER, Device Serial Number, Secondary PCI Express, Data Link Feature, Physical Layer
16.0 GT/s, Lane Margining, Physical Layer 32.0 and 64.0 GT/s, FLIT Logging, Vendor-Specific (PRESUMED, notes/assumptions/35.md). -/
def extCapIds : List Nat := [0x0001, 0x0003, 0x0019, 0x0025, 0x0026, 0x0027, 0x002A, 0x0031, 0x0032, 0x000B]

/-- Bits of a configuration register that the rules give, in `mask`; the others are free (notes/assumptions/35.md). -/
def withOpen (key mask v : Nat) : Nat := Nat.lor (Nat.land v mask) (Nat.land (Config.configOther key).toNat (Nat.xor mask 0xFFFFFFFF))

/-- A configuration register as a host read finds it (R396, R398, R400, R408, R409, R414, R421). -/
def State.configRegister (s : State) (r : ConfigReg) : Nat :=
  let p := s.pcie
  match r with
  | .deviceVendor => 0x1024 * 65536 + Config.vendorId.toNat
  | .command => withOpen 1 0x5 (4 * b2n p.bme)
  | .classRevision => 0x118000 * 256 + Config.revision.toNat
  | .subsystem => Config.subsystem.toNat
  | .interruptPin => withOpen 2 0xFF00 0
  | .bar n => p.barReg n.val
  | .romBar => p.romReg
  | .pmCapabilities => withOpen 3 0xFE0000FF (regOf [(0x01, 0, 8), (0x08, 27, 5)])
  | .pmControlStatus => withOpen 4 0x810B (regOf [(if p.d3hot then 3 else 0, 0, 2), (1, 3, 1), rb p.pmeEn 8, rb p.pmeStatus 15])
  | .pcieCapability => withOpen 5 0xFF 0x10
  | .deviceCapabilities => withOpen 6 0x10000007 (regOf [(2, 0, 3), (1, 28, 1)])
  | .deviceControl => withOpen 7 0x70E0 (regOf [(p.payloadCode, 5, 3), (s.tags.readSizeCode, 12, 3)])
  | .linkCapabilities => withOpen 8 0xFFF (regOf [(6, 0, 4), (16, 4, 6), (2, 10, 2)])
  | .linkStatus => withOpen 9 0x03FF0103 (regOf [(p.aspm, 0, 2), rb p.clockPm 8, (p.speed, 16, 4), (p.width, 20, 6)])
  | .deviceCapabilities2 => withOpen 10 0x333DF (regOf [(3, 0, 4), (1, 16, 1), (1, 17, 1)])
  | .deviceControl2 => withOpen 11 0xF s.tags.timeoutCode
  | .msixControl => withOpen 12 0xC7FF00FF (regOf [(0x11, 0, 8), (2047, 16, 11), rb p.fnMask 30, rb p.msixEn 31])
  | .msixTable => 0x0000 + 4
  | .msixPba => 0x8000 + 4
  | .extCapability n => withOpen (16 + n.val) 0xFFFF (extCapIds.getD n.val 0)
  | .aerUncorrectableStatus => p.aerStatus.toNat
  | .aerUncorrectableSeverity => p.aerSeverity.toNat
  | .aerControl => withOpen 13 0x1E0 (regOf [(1, 5, 1), rb p.ecrcGen 6, (1, 7, 1), rb p.ecrcCheck 8])
  | .l1SubstatesCapability => withOpen 14 0x1F 0x1A
  | .l1SubstatesControl => withOpen 15 0xF p.l1Sub
  | .serialLow => loWord Config.serial.toNat
  | .serialHigh => hiWord Config.serial.toNat
  | .vsecHeader => regOf [(1, 0, 16), (1, 16, 4), (0x10, 20, 12)]
  | .vsecContain => regOf [rb p.frozen 31, (p.cause, 16, 8), (p.refused, 8, 8), (p.freezes, 0, 8)]

/-- Configuration requests are answered: configuration space is up, no reset retry, and the link is up (R399). -/
def State.configAnswers (s : State) : Bool := s.pcie.configUp && !s.pcie.retryStatus && s.pcie.linkUp

/-- A configuration request has its effect f, or is answered with Request Retry Status: before configuration space is up, and after a reset (R399). -/
def State.onConfig (s : State) (f : State → State) : State :=
  if s.configAnswers then f s else if s.pcie.linkUp then s.post .retryStatus else s

/-- A read of several DWs answers them. -/
def State.answerWords (s : State) (ws : List Word) : State :=
  { s.answerRead (ws.headD 0) with obs := { (s.answerRead (ws.headD 0)).obs with readMore := ws.tail } }

/-- A read of two registers is two reads, the lower one first (R401). -/
def State.hostReadTwo (s : State) (o w wHigh : Nat) : State :=
  if !s.barAnswers then s
  else
    let a := s.hostRead o w
    let b := a.hostRead (o + 4) wHigh
    { b with obs := { b.obs with readData := a.obs.readData, readMore := [b.obs.readData] } }

/-- DWs of the directory from offset o on. -/
def State.directoryWords (s : State) (o n : Nat) : List Word := (List.range n).map (fun k => w32 (s.regLive (o / 4 * 4 + 4 * k)))

/-- A read of BAR0, BAR4, the expansion ROM or configuration space, w being what occurs at the same moment (R5, R10). The directory answers at the
ROM while its BAR is enabled (R404). -/
def State.hostReadAt (s : State) (x : ReadAddr) (w : Nat) : State :=
  match x with
  | .bar0 o => s.hostRead o w
  | .bar4 o => if s.barAnswers then s.answerRead (w32 (s.msixReg (o / 4 * 4))) else s
  | .rom o => if s.barAnswers && s.pcie.romBar.getLsbD 0 then s.answerRead (w32 (if o < 0x10000 then s.regLive (o / 4 * 4) else 0)) else s
  | .config r => s.onConfig (fun s => s.answerRead (w32 (s.configRegister r)))
  | .two o wHigh => s.hostReadTwo o w wHigh.toNat
  | .directory o n atRom => if s.barAnswers && (!atRom || s.pcie.romBar.getLsbD 0) then s.answerWords (s.directoryWords o n) else s

/-- RC_FIELD_READ. -/
def execRcFieldRead (t : SI) (what : HostRead) (s : State) : Host.Outcome State Fault Refusal :=
  .next ((s.moment t).hostReadAt what.reg what.raced.toNat)

/-- LOW_WORD_READ. -/
def execLowWordRead (t : SI) (off : Nat) (s : State) : Host.Outcome State Fault Refusal := .next ((s.moment t).hostRead off)

/-- TIM_SNAP_SI_LO_READ. -/
def execTimSnapSiLoRead (t : SI) (s : State) : Host.Outcome State Fault Refusal := .next ((s.moment t).hostRead 0x60008)

end Sys2Proof.Machine
end

