-- ==== Sys2Proof/Machine/Specs.lean ====
section
/-! DEFINITION. The opcodes of R437, one OpSpec each, the commands NOP, GET_INFO, SCHEDULE, UNSCHEDULE and READ_LOG (R78, R79, R451, R452,
R454), and the examination of waiting packets. -/

namespace Sys2Proof.Machine

/-! ### What several opcodes share -/

/-- No further job can be active (R442). -/
def noSlot : State → Ctx → Bool := fun s _ => s.jobsFull

/-- A job's two log entries (R449). -/
def jobEntries : List Byte → Nat := fun _ => 2

/-- A channel of the range FIRST, COUNT lies in a region that is in a reset. -/
def rangeResetting (s : State) (p : List Byte) : Bool :=
  let a := pField p 0 2
  let n := pField p 2 2
  (List.range 4).any (fun r => s.regionBusy r && decide (a < 256 * (r + 1) ∧ 256 * r < a + n))

/-! ### NOP, GET_INFO, READ_LOG -/

/-- GET_INFO returns BAD_PARAM. -/
def getInfoBad (p : List Byte) : Bool := !(p.length = 8) || !pIn p 0 1 0 2 || !pZero p 1 7

/-- The result words of GET_INFO for ring r. -/
def State.info (s : State) (select r : Nat) : List Nat :=
  match select with
  | 0 => [s.sec.fwVersion.toNat, Config.stepping.toNat + 65536 * b2n Config.gradeE, loWord Config.serial.toNat, hiWord Config.serial.toNat,
      s.log.boot]
  | 1 => [r, (s.ring r).bound, s.cmd.jobs.length, s.sched.entries.length, s.cas.unitId.toNat]
  | _ => [loWord s.log.next, hiWord s.log.next, loWord s.log.release, hiWord s.log.release, s.log.free]

/-- GET_INFO. -/
def getInfoEffect (c : Ctx) (s : State) : State := s.answer c (s.info (pField c.params 0 1) c.home)

/-- READ_LOG releases entries. -/
def logReleases (p : List Byte) : Bool := bit (pField p 20 1) 0

/-- READ_LOG returns BAD_PARAM. -/
def readLogBad (s : State) (p : List Byte) : Bool :=
  let f := pField p 0 8
  !(p.length = 24) || !pBits p 20 1 || !pZero p 21 3 || !pIn p 16 4 1 65536 || pField p 8 8 % 64 ≠ 0 || decide (f < s.log.release) ||
    f / 2 ^ 40 ≠ s.log.boot || (logReleases p && decide (s.log.next < f))

/-- READ_LOG with RELEASE from a ring not bound to Crypto Officer. -/
def readLogDenied (s : State) (c : Ctx) : Bool := logReleases c.params && (s.ring c.home).role ≠ 2

/-- A log entry as R448 lays it out; of a lost one only its SEQUENCE and LOST are copied (R454). -/
def LogEntry.bytes (e : LogEntry) : List Byte :=
  if e.lost then leBytes 8 0 ++ leBytes 8 e.sequence ++ leBytes 44 0 ++ [1, 0, 0, 0]
  else
    let b := wordBytes e.body.words
    b ++ leBytes 4 (crc32c b).toNat ++ [BitVec.ofNat 8 (2 * b2n e.onchip), 0, 0, 0]

/-- Entries below `f` released. -/
def Log.releaseTo (l : Log) (f : Nat) : Log := { l with release := max l.release f, entries := l.entries.filter (fun e => decide (f ≤ e.sequence)) }

/-- READ_LOG: release, then the copy to the host's buffer. Without RELEASE it makes no record. -/
def readLogEffect (c : Ctx) (s : State) : State :=
  let p := c.params
  let f := pField p 0 8
  let rel := logReleases p
  let s := if rel then { s with log := s.log.releaseTo f } else s
  let es := (s.log.entries.filter (fun e => decide (f ≤ e.sequence))).take (pField p 16 4)
  let next := match es.getLast? with
    | some e => e.sequence + 1
    | none => f
  let s := (s.postBytes (.hostWrite (pField p 8 8) (es.flatMap LogEntry.bytes)) (64 * es.length))
  let s := if rel then s.change c.origin c.opcode c.okStatus c.params s.boundary else s
  (if rel then s.completeLogged c c.okStatus 0 else s.complete c c.okStatus 0) [es.length, loWord next, hiWord next, (es.filter (fun e => e.lost)).length, s.log.free]

/-! ### One OpSpec for each row of R437 -/

/-- NOP. -/
def opNop : OpSpec :=
  { opcode := 0x0001, service := true, doubtOk := inDoubtYes, bad := fun _ c => decide (4096 < c.params.length), effect := simply (fun _ s => s) }

/-- GET_INFO. -/
def opGetInfo : OpSpec :=
  { opcode := 0x0002, service := true, unbound := true, doubtOk := inDoubtYes, sched := false, query := true, bad := fun _ c => getInfoBad c.params
    effect := getInfoEffect }

/-- RESET_REGION. -/
def opResetRegion : OpSpec :=
  { opcode := 0x0010, doubtOk := inDoubtYes, bad := fun _ c => resetRegionBad c.params, resetting := fun s p => s.regionBusy (pField p 0 1)
    effect := resetRegionEffect }

/-- SOFT_RESET. -/
def opSoftReset : OpSpec :=
  { opcode := 0x0011, user := false, doubtOk := inDoubtYes, logExempt := true, bad := fun _ c => softResetBad c.params
    badState := fun s _ => softResetBadState s, effect := softResetEffect }

/-- SET_FAILSAFE_POLICY. -/
def opSetFailsafe : OpSpec :=
  { opcode := 0x0020, user := false, doubtOk := inDoubtYes, bad := fun _ c => failsafeBad c.params, effect := simply setFailsafe }

/-- SET_REF; in doubt only a change of SYN_MODE from 1 to 0 (R58). -/
def opSetRef : OpSpec :=
  { opcode := 0x0101, doubtOk := fun s p => s.time.ref.synMode && pField p 8 1 = 0, bad := fun s c => setRefBad s.time c.params
    badState := fun s c => setRefBadState s c.params, effect := simply setRef }

/-- SET_EPOCH. -/
def opSetEpoch : OpSpec := { opcode := 0x0102, bad := fun s c => setEpochBad s.time c.params, effect := simply setEpochTime }

/-- SET_ST. -/
def opSetSt : OpSpec :=
  { opcode := 0x0103, bad := fun _ c => setStBad c.params, badState := fun s c => setStBadState s.time c.params, effect := simply setStTime }

/-- SET_RETURN_POLICY. -/
def opSetReturn : OpSpec := { opcode := 0x0104, bad := fun _ c => setReturnBad c.params, effect := simply setReturnTime }

/-- SET_THRESHOLD. -/
def opSetThreshold : OpSpec :=
  { opcode := 0x0201, bad := fun _ c => setThresholdBad c.params, resetting := rangeResetting, effect := simply setThreshold }

/-- SET_INPUT_MODE. -/
def opSetInputMode : OpSpec :=
  { opcode := 0x0202, bad := fun _ c => setInputModeBad c.params, resetting := rangeResetting, effect := simply setInputMode }

/-- SET_DESKEW. -/
def opSetDeskew : OpSpec :=
  { opcode := 0x0203, bad := fun _ c => setDeskewBad c.params, resetting := rangeResetting, effect := simply setDeskewCells }

/-- CAL_DESKEW; with APPLY it makes a third record (R449). -/
def opCalDeskew : OpSpec :=
  { opcode := 0x0210, reserve := fun p => if pField p 12 1 = 1 then 3 else 2, bad := fun _ c => calDeskewBad c.params, resetting := rangeResetting
    badState := fun s c => (pField c.params 4 1 = 0 && s.cap.runState = 1) || (s.jobOf 0x0210).isSome, busy := noSlot
    effect := fun c s => s.startJob c .running (if pField c.params 12 1 = 1 then 1 else 0) }

/-- CAL_INTERP. -/
def opCalInterp : OpSpec :=
  { opcode := 0x0211, service := true, doubtOk := inDoubtYes, reserve := jobEntries, bad := fun _ c => calInterpBad c.params
    resetting := rangeResetting, badState := fun s _ => (s.jobOf 0x0211).isSome, busy := noSlot, effect := fun c s => s.startJob c .running 0 }

/-- SET_INTERVAL. -/
def opSetInterval : OpSpec := { opcode := 0x0220, bad := fun _ c => setIntervalBad c.params, effect := simply setInterval }

/-- LOAD_PATTERN. -/
def opLoadPattern : OpSpec :=
  { opcode := 0x0301, bad := fun s c => loadPatternBad s c.params, badState := fun s c => loadPatternBadState s c.params, effect := loadPattern }

/-- ARM; it can be deferred, and then makes two records (R449). -/
def opArm : OpSpec :=
  { opcode := 0x0310, reserve := jobEntries, bad := fun _ c => armBad c.params, badState := armBadState, busy := fun s _ => armBusy s
    defers := fun s _ => armDefers s, hold := armHold, adapt := rootAdapt, announce := rootAnnounce 1, effect := armEffect }

/-- DISARM. -/
def opDisarm : OpSpec :=
  { opcode := 0x0311, doubtOk := inDoubtYes, bad := fun _ c => disarmBad c.params, badState := childRefuses, adapt := rootAdapt
    announce := rootAnnounce 2, effect := disarmEffect }

/-- FORCE_TACK. -/
def opForceTack : OpSpec :=
  { opcode := 0x0312, bad := fun _ c => forceTackBad c.params, badState := fun s _ => s.cap.runState ≠ 1, effect := simply forceTack }

/-- SET_TRIGOUT. -/
def opSetTrigout : OpSpec := { opcode := 0x0320, bad := fun _ c => setTrigoutBad c.params, effect := simply setTrigout }

/-- SET_UNIT. -/
def opSetUnit : OpSpec :=
  { opcode := 0x0401, bad := fun _ c => setUnitBad c.params, badState := fun s c => setUnitBadState s c.params, effect := simply setUnit }

/-- SET_PORT_ROLE. -/
def opSetPortRole : OpSpec :=
  { opcode := 0x0402, bad := fun _ c => setPortRoleBad c.params, badState := fun s c => setPortRoleBadState s c.params, effect := simply setPortRole }

/-- CASCADE_DISCOVER. -/
def opCascadeDiscover : OpSpec :=
  { opcode := 0x0410, reserve := jobEntries, bad := fun _ c => cascadeDiscoverBad c.params, badState := fun s _ => cascadeDiscoverBadState s
    busy := noSlot, effect := cascadeDiscoverEffect }

/-- SET_REDUCTION. -/
def opSetReduction : OpSpec :=
  { opcode := 0x0501, bad := fun _ c => setReductionBad c.params, resetting := fun s p => (redRegions p).any s.regionBusy
    badState := fun s c => setReductionBadState s c.params, effect := simply setReduction }

/-- SET_LOOKBACK. -/
def opSetLookback : OpSpec :=
  { opcode := 0x0502, bad := fun s c => setLookbackBad s c.params, badState := fun s _ => setLookbackBadState s, effect := simply setLookback }

/-- SET_WINDOW_POLICY. -/
def opSetWindowPolicy : OpSpec := { opcode := 0x0503, bad := fun _ c => setWindowPolicyBad c.params, effect := simply setWindowPolicy }

/-- EXPORT_WINDOW. -/
def opExportWindow : OpSpec :=
  { opcode := 0x0510, reserve := jobEntries, bad := fun _ c => exportWindowBad c.params, busy := noSlot, effect := exportWindowEffect }

/-- START_RUN; it can be deferred (R230). -/
def opStartRun : OpSpec :=
  { opcode := 0x0520, reserve := jobEntries, bad := fun _ c => startRunBad c.params, badState := fun s _ => startRunBadState s
    busy := fun s _ => s.cap.runState = 2 && s.cmd.deferredStart.isSome, defers := fun s _ => s.cap.runState = 2, hold := startRunHold
    effect := startRunEffect }

/-- STOP_RUN. -/
def opStopRun : OpSpec :=
  { opcode := 0x0521, doubtOk := inDoubtYes, bad := fun _ c => !(c.params.length = 8) || !pZero c.params 0 8, effect := stopRunEffect }

/-- SET_DECODER. -/
def opSetDecoder : OpSpec :=
  { opcode := 0x0601, bad := fun _ c => setDecoderBad c.params, resetting := fun s p => s.regionBusy (pField p 0 1 / 16)
    badState := fun s c => setDecoderBadState s c.params, effect := simply setDecoder }

/-- CREATE_BOBBIN. -/
def opCreateBobbin : OpSpec :=
  { opcode := 0x0701, bad := fun _ c => createBobbinBad c.params, badState := fun s c => createBobbinBadState s c.params, effect := createBobbinEffect }

/-- DESTROY_BOBBIN. -/
def opDestroyBobbin : OpSpec :=
  { opcode := 0x0702, bad := fun _ c => destroyBobbinBad c.params, badState := fun s c => destroyBobbinBadState s c.params
    effect := destroyBobbinEffect }

/-- ROUTE. -/
def opRoute : OpSpec :=
  { opcode := 0x0703, bad := fun s c => routeBad s c.params, busy := fun s c => routeBusy s c.params, effect := simply route }

/-- REWIND. -/
def opRewind : OpSpec :=
  { opcode := 0x0704, doubtOk := inDoubtYes, bad := fun _ c => rewindBad c.params, badState := fun s c => rewindBadState s c.params, effect := rewindEffect }

/-- SET_COMPRESSION. -/
def opSetCompression : OpSpec :=
  { opcode := 0x0801, bad := fun _ c => setCompressionBad c.params, resetting := setCompressionResetting, effect := setCompressionEffect }

/-- SET_SIGNING; a create during a close is deferred (R440). -/
def opSetSigning : OpSpec :=
  { opcode := 0x0802, user := false, reserve := jobEntries, bad := fun s c => setSigningBad s c.params, badState := fun s c => setSigningBadState s c.params
    busy := fun s c => setSigningBusy s c.params, defers := setSigningDefers, hold := setSigningHold, effect := setSigningEffect }

/-- REPLAY. -/
def opReplay : OpSpec :=
  { opcode := 0x0810, reserve := jobEntries, bad := fun _ c => replayBad c.params, badState := fun s c => replayBadState s c.params, busy := noSlot
    effect := replayEffect }

/-- SET_DRAM_MAP. -/
def opSetDramMap : OpSpec :=
  { opcode := 0x0901, bad := fun _ c => setDramMapBad c.params, badState := fun s c => setDramMapBadState s c.params, effect := simply setDramMap }

/-- TRAIN. -/
def opTrain : OpSpec :=
  { opcode := 0x0910, service := true, reserve := jobEntries, bad := fun s c => trainBad s c.params, badState := fun s _ => trainBadState s
    busy := noSlot, effect := trainEffect }

/-- MIGRATE_RANK. -/
def opMigrateRank : OpSpec :=
  { opcode := 0x0911, service := true, doubtOk := inDoubtYes, reserve := jobEntries, bad := fun _ c => migrateRankBad c.params
    badState := fun s c => migrateRankBadState s c.params, busy := noSlot, effect := migrateRankEffect }

/-- SCRUB. -/
def opScrub : OpSpec :=
  { opcode := 0x0912, service := true, doubtOk := inDoubtYes, reserve := jobEntries, bad := fun s c => scrubBad s c.params
    badState := fun s _ => scrubBadState s, busy := noSlot, effect := scrubEffect }

/-- SET_HK_SEQ. -/
def opSetHkSeq : OpSpec :=
  { opcode := 0x0A01, doubtOk := inDoubtYes, bad := fun _ c => setHkSeqBad c.params, badState := fun s c => setHkSeqBadState s c.params
    effect := simply setHkSeq }

/-- HK_CAL. -/
def opHkCal : OpSpec :=
  { opcode := 0x0A10, service := true, doubtOk := inDoubtYes, reserve := jobEntries, bad := fun _ c => hkCalBad c.params
    badState := fun s _ => hkCalBadState s, busy := noSlot, effect := hkCalEffect }

/-- GET_ATTESTATION. -/
def opGetAttestation : OpSpec :=
  { opcode := 0x0B01, service := true, doubtOk := inDoubtYes, sched := false, query := true, bad := fun s c => attestBad s c.params, words := attestWords
    badState := fun s c => attestBadState s c.params, effect := attestEffect }

/-- ROTATE_ESK. -/
def opRotateEsk : OpSpec :=
  { opcode := 0x0B02, user := false, bad := fun _ c => rotateBad c.params, badState := fun s _ => rotateBadState s, effect := rotateEffect }

/-- AUTH. -/
def opAuth : OpSpec :=
  { opcode := 0x0B03, service := true, unbound := true, doubtOk := inDoubtYes, sched := false, bad := fun _ c => authBad c.params
    badState := fun s c => authBadState s c.params, effect := authEffect }

/-- UPDATE_FIRMWARE: only BEGIN makes records and takes a job slot. -/
def opUpdateFirmware : OpSpec :=
  { opcode := 0x0B10, user := false, doubtOk := inDoubtYes, sched := false, reserve := fun p => if pField p 0 1 = 0 then 2 else 0
    bad := fun s c => updateBad s c.params, denied := updateDenied, badState := fun s c => updateBadState s c.params
    busy := fun s c => pField c.params 0 1 = 0 && s.jobsFull, effect := updateEffect }

/-- ZEROIZE. -/
def opZeroize : OpSpec :=
  { opcode := 0x0B20, service := true, doubtOk := inDoubtYes, sched := false, logExempt := true, bad := fun _ c => zeroizeBad c.params
    effect := zeroizeEffect }

/-- JOB_SUSPEND. -/
def opJobSuspend : OpSpec :=
  { opcode := 0x0C01, service := true, doubtOk := inDoubtYes, sched := false, bad := fun s c => jobBad s c.params, denied := jobDenied
    badState := fun s c => jobSuspendBadState s c.params, effect := jobSuspendEffect }

/-- JOB_RESUME. -/
def opJobResume : OpSpec :=
  { opcode := 0x0C02, service := true, doubtOk := inDoubtYes, sched := false, bad := fun s c => jobBad s c.params, denied := jobDenied
    badState := fun s c => jobResumeBadState s c.params, busy := fun s c => jobResumeBusy s c.params, effect := jobResumeEffect }

/-- JOB_CANCEL. -/
def opJobCancel : OpSpec :=
  { opcode := 0x0C03, service := true, doubtOk := inDoubtYes, sched := false, bad := fun s c => jobBad s c.params, denied := jobDenied
    badState := fun s c => jobCancelBadState s c.params, effect := jobCancelEffect }

/-- JOB_STATUS, which any ring with a role may ask of any job. -/
def opJobStatus : OpSpec :=
  { opcode := 0x0C04, service := true, doubtOk := inDoubtYes, sched := false, query := true, bad := fun s c => jobBad s c.params, effect := jobStatusEffect }

/-- READ_LOG: a change only with RELEASE. -/
def opReadLog : OpSpec :=
  { opcode := 0x0D01, service := true, doubtOk := inDoubtYes, sched := false, reserve := fun p => b2n (logReleases p)
    bad := fun s c => readLogBad s c.params, denied := readLogDenied, effect := readLogEffect }

/-! ### SCHEDULE and UNSCHEDULE (R78, R79) -/

/-- The opcodes that can stand in a scheduler entry (R70). -/
def scheduled : List OpSpec :=
  [opNop, opResetRegion, opSoftReset, opSetFailsafe, opSetRef, opSetEpoch, opSetSt, opSetReturn, opSetThreshold, opSetInputMode, opSetDeskew,
   opCalDeskew, opCalInterp, opSetInterval, opLoadPattern, opArm, opDisarm, opForceTack, opSetTrigout, opSetUnit, opSetPortRole] ++
  [opCascadeDiscover, opSetReduction, opSetLookback, opSetWindowPolicy, opExportWindow, opStartRun, opStopRun, opSetDecoder, opCreateBobbin,
   opDestroyBobbin, opRoute, opRewind, opSetCompression, opSetSigning, opReplay, opSetDramMap, opTrain, opMigrateRank, opScrub, opSetHkSeq,
   opHkCal, opRotateEsk]

/-- The OpSpec of a schedulable opcode. -/
def schedSpec (op : Nat) : Option OpSpec := scheduled.find? (fun o => o.opcode = op)

/-- A packet header (R430) read from 64 bytes, with its parameters. -/
def readPacket (ring : Fin 16) (hdr params : List Byte) : Packet :=
  { ring := ring, tag := BitVec.ofNat 16 (pField hdr 2 2), flags := BitVec.ofNat 16 (pField hdr 6 2), atSt := BitVec.ofNat 96 (pField hdr 8 12)
    reservedSet := pField hdr 20 44 ≠ 0, params := params }

/-- The embedded command of a SCHEDULE from ring r: its opcode and packet. -/
def embedded (ring : Nat) (p : List Byte) : Nat × Packet := (pField p 32 2, readPacket (Fin.ofNat 16 ring) (pBytes p 32 64) (p.drop 96))

/-- The context in which the embedded command is checked. -/
def embeddedCtx (c : Ctx) : Ctx := { c with opcode := pField c.params 32 2, params := c.params.drop 96, reply := none }

/-- The embedded header and SCHEDULE's own fields are out of range (R78). -/
def scheduleShape (p : List Byte) : Bool :=
  decide (p.length < 96) || decide (4096 < p.length) || pField p 0 12 = 0 || (pField p 12 4 ≠ 1 && decide (pField p 16 12 < 2 ^ 46)) || !pZero p 28 4 ||
    pField p 36 2 ≠ p.length - 96 || decide (1 < pField p 38 2) || pField p 40 12 ≠ 0 || pField p 52 44 ≠ 0

/-- SCHEDULE returns BAD_PARAM: of an embedded opcode that R70 excludes or R437 does not hold too, and where the embedded parameters are
malformed (R67). -/
def scheduleBad (s : State) (c : Ctx) : Bool :=
  scheduleShape c.params || (match schedSpec (pField c.params 32 2) with
    | none => true
    | some o => o.bad s (embeddedCtx c))

/-- The ring's role may not submit the embedded command (R67). -/
def scheduleDenied (s : State) (c : Ctx) : Bool :=
  match schedSpec (pField c.params 32 2) with
  | none => false
  | some o => !o.permits (s.ring c.home).role || o.denied s (embeddedCtx c)

/-- SCHEDULE: the new entry. One with COUNT 1 posts its completion under the embedded TAG (notes/assumptions/9.md). -/
def scheduleEffect (c : Ctx) (s : State) : State :=
  match s.sched.free with
  | none => s
  | some k =>
    let p := c.params
    let (op, q) := embedded c.ring p
    let e : SchedEntry := { due := pField p 0 12, accepted := s.time.si, order := s.sched.nextOrder, packet := q, opcode := op, reply := some (c.home, q.tag)
                            repeats := pField p 12 4 ≠ 1, first := pField p 0 12, count := pField p 12 4, period := pField p 16 12 }
    let s := { s with sched := { s.sched with entries := tput s.sched.entries k e, nextOrder := s.sched.nextOrder + 1 } }
    let s := s.finish c [k]
    match schedSpec op with
    | some o => if s.entryDue e s.boundary then s.executeEntry o k e true s.boundary else s
    | none => s

/-- SCHEDULE. -/
def opSchedule : OpSpec :=
  { opcode := 0x0110, sched := false, bad := scheduleBad, denied := scheduleDenied, busy := fun s _ => s.sched.free.isNone, effect := scheduleEffect }

/-- The entries that an UNSCHEDULE names. The TAG of an entry that SCHEDULE made is the embedded header's (DESIGN CHOICE, notes/assumptions/41.md). -/
def unscheduled (s : State) (p : List Byte) : List (Nat × SchedEntry) :=
  s.sched.entries.filter (fun e => match pField p 0 1 with
    | 0 => e.1 = pField p 4 2
    | 1 => e.2.packet.ring.val = pField p 1 1 && e.2.packet.tag.toNat = pField p 2 2
    | _ => true)

/-- UNSCHEDULE returns BAD_PARAM. -/
def unscheduleBad (s : State) (p : List Byte) : Bool :=
  !(p.length = 8) || !pIn p 0 1 0 2 || !pZero p 6 2 || (pField p 0 1 = 1 && !pIn p 1 1 0 15) || (pField p 0 1 = 0 && !pIn p 4 2 0 255) ||
    (pField p 0 1 ≠ 2 && unscheduled s p = [])

/-- An entry's due frame boundary has begun: the latest frame boundary's ST, as it was at that boundary (R80), has reached it. -/
def State.begun (s : State) (e : SchedEntry) : Bool := decide (e.due ≤ s.time.view.st)

/-- UNSCHEDULE returns BAD_STATE. -/
def unscheduleBadState (s : State) (p : List Byte) : Bool := pField p 0 1 ≠ 2 && (unscheduled s p).any (fun e => s.begun e.2)

/-- UNSCHEDULE: one CHANGE record for the command, whatever number of entries leave (DESIGN CHOICE, notes/assumptions/41.md). The entries leave; each one-shot entry's completion is posted with JOB_CANCELLED (R71). SELECT 2 leaves an entry whose due boundary has
begun and removes the others (DESIGN CHOICE, notes/assumptions/41.md). -/
def unscheduleEffect (c : Ctx) (s : State) : State :=
  let es := (unscheduled s c.params).filter (fun e => !s.begun e.2)
  let s := { s with sched := { s.sched with entries := s.sched.entries.filter (fun e => !es.any (fun x => x.1 = e.1)) } }
  let s := es.foldl (fun s e => match e.2.reply with
    | some (ring, tag) => if e.2.repeats then s else s.postEntry { ring := ring, tag := tag, status := stCancelled, opcode := e.2.opcode }
    | none => s) s
  s.finish c [es.length]

/-- UNSCHEDULE. -/
def opUnschedule : OpSpec :=
  { opcode := 0x0111, doubtOk := inDoubtYes, sched := false, bad := fun s c => unscheduleBad s c.params
    badState := fun s c => unscheduleBadState s c.params, effect := unscheduleEffect }

/-- Every OpSpec of R437. -/
def opSpecs : List OpSpec :=
  scheduled ++ [opGetInfo, opSchedule, opUnschedule, opGetAttestation, opAuth, opUpdateFirmware, opZeroize, opJobSuspend, opJobResume, opJobCancel,
    opJobStatus, opReadLog]

/-- The OpSpec of an opcode. -/
def opSpecOf (op : Nat) : Option OpSpec := opSpecs.find? (fun o => o.opcode = op)

/-! ### Examination of fetched packets (R434) -/

/-- A fetched packet of ring n examined: an opcode outside R437 is refused with BAD_OPCODE after the reserved bits (R435). -/
def State.submitAny (s : State) (f : Fetched) (n : Nat) : State :=
  match opSpecOf f.opcode with
  | some o => s.submit o f.packet n
  | none =>
    let c := packetCtx f.opcode f.packet n
    (s.modRing n (fun r => { r with unreplied := r.unreplied + 1 })).refuse c
      (if f.packet.reservedSet || decide (1 < f.packet.flags.toNat) then stBadParam else stBadOpcode)

/-- The first packet that waits on ring n can now be examined. -/
def State.canExamine (s : State) (n : Nat) : Bool :=
  !s.coreBusy && (match (s.ring n).fetched with
    | [] => false
    | f :: _ => !(bit f.packet.flags.toNat 0 && decide (0 < (s.ring n).unreplied)))

/-- One packet of ring n, where one can be examined. -/
def State.examineOne (s : State) (n : Nat) : State :=
  if s.canExamine n then
    match (s.ring n).fetched with
    | [] => s
    | f :: rest => (s.modRing n (fun r => { r with fetched := rest })).submitAny f n
  else s

/-- The rings with packets to examine: 0 to 15, then what is left of rings that were reset. -/
def State.ringNumbers (s : State) : List Nat := List.range 16 ++ (s.cmd.rings.map (fun e => e.1)).filter (fun n => decide (16 ≤ n))

/-- Turns of the control core over the rings in ascending order, one packet per ring per turn. -/
def State.examine (s : State) (turns : Nat) : State :=
  match turns with
  | 0 => s
  | k + 1 => (s.ringNumbers.foldl State.examineOne s).examine k

/-- A packet that arrives from outside R437's opcodes' own rows. -/
def State.receiveAny (s : State) (f : Fetched) : State :=
  match opSpecOf f.opcode with
  | some o => s.receive o f.packet
  | none =>
    let p := f.packet
    if !s.ringLive p.ring.val then s
    else if s.safe.swapping then
      (s.modRing p.ring.val (fun r => { r with unreplied := r.unreplied + 1 })).swapRefuse (packetCtx f.opcode p)
    else if s.mustWait p then s.modRing p.ring.val (fun r => { r with fetched := r.fetched ++ [f] })
    else s.submitAny f p.ring.val

end Sys2Proof.Machine
end

