-- ==== Sys2Proof/Machine/Rings.lean ====
section
/-! DEFINITION. Command rings: the fetch of packets (R412, R427 to R433), completions of the reads that the device issues (R409 to R413), and
scheduler entries that fall due (R67 to R73). -/

namespace Sys2Proof.Machine

/-! ### Fetching -/

/-- A read of ring n. -/
def Request.ofRing (q : Request) (n : Nat) : Bool :=
  match q.use with
  | .header r => r = n
  | .params r _ => r = n
  | .replay _ _ => false

/-- A read of ring n is outstanding, or waits to be issued. -/
def State.ringReads (s : State) (n : Nat) : Bool := s.tags.outstanding.any (fun e => e.2.ofRing n) || s.tags.reissue.any (fun q => q.ofRing n)

/-- Ring n may fetch (R412, R432 to R434): live, fewer than 8 packets fetched, no entry of its own in the hold store, delivery not
stopped, the core running and not being swapped. -/
def State.mayFetch (s : State) (n : Nat) : Bool :=
  let r := s.ring n
  s.ringLive n && !s.safe.swapping && !s.safe.coreDown && !s.pcie.blocked && !r.fetching && !s.cmd.hold.any (fun e => e.ring = n)
    && decide (r.fetched.length + r.unreplied < 8) && r.sqTail ≠ r.sqHead

/-- Ring n reads the header of its next packet, where there is one to read. -/
def State.fetchRing (s : State) (n : Nat) : State :=
  if s.mayFetch n then
    let r := s.ring n
    (s.modRing n (fun r => { r with fetching := true })).issue { use := .header n, addr := r.sqBase + 64 * (r.sqHead % r.sqSize), len := 64 }
  else s

/-- The core takes what it can from the rings, and the rings fetch what they can. -/
def State.pump (s : State) : State :=
  let waiting := (s.cmd.rings.map (fun e => e.2.fetched.length)).sum
  (List.range 16).foldl State.fetchRing (s.examine (waiting + 1))

/-- Ring n stops with a cause (R433). -/
def State.stopRing (s : State) (n cause : Nat) : State :=
  (s.modRing n (fun r => { r with stopped := true, stopCause := cause, fetching := false })).raise (16 + n)

/-- Slots of a packet with n parameter bytes (R429). -/
def packetSlots (n : Nat) : Nat := 1 + (n + 63) / 64

/-- PARAM_LEN of a header. -/
def paramLen (hdr : List Byte) : Nat := pField hdr 4 2

/-- A whole packet has been read: SQ_HEAD moves past it, and it is examined or waits. -/
def State.packetFetched (s : State) (n : Nat) (got : List Byte) : State :=
  let k := packetSlots (paramLen got)
  let s := s.modRing n (fun r => { r with fetching := false, sqHead := (r.sqHead + k) % (2 * r.sqSize) })
  s.receiveAny { opcode := pField got 0 2, packet := readPacket (Fin.ofNat 16 n) (got.take 64) (got.drop 64) }

/-- The next read of the packet of which `got` holds the header and the parameters read so far. -/
def State.fetchParams (s : State) (n : Nat) (got : List Byte) : State :=
  let r := s.ring n
  let done := got.length - 64
  let left := paramLen got - done
  if left = 0 then s.packetFetched n got
  else
    let pos := (64 * (r.sqHead + 1) + done) % (64 * r.sqSize)
    let addr := r.sqBase + pos
    s.issue { use := .params n got, addr := addr, len := s.tags.chunk addr (min left (64 * r.sqSize - pos)) }

/-- A header has been read: a PARAM_LEN above 4,096 stops the ring, and a packet that SQ_TAIL does not cover waits for the next write of it. -/
def State.headerFetched (s : State) (n : Nat) (hdr : List Byte) : State :=
  let r := s.ring n
  if 4096 < paramLen hdr then s.stopRing n 2
  else if modDist (2 * r.sqSize) r.sqTail r.sqHead < packetSlots (paramLen hdr) then s
  else s.fetchParams n hdr

/-! ### Completions (R409 to R411, R413) -/

/-- The data of a read has come back. -/
def State.readDone (s : State) (q : Request) (data : List Byte) : State :=
  let s : State := { s with pcie := { s.pcie with rdBytes := s.pcie.rdBytes + data.length } }
  match q.use with
  | .header n => if n < 16 then s.headerFetched n data else s
  | .params n got => if n < 16 then s.fetchParams n (got ++ data) else s
  | .replay job ofs => s.replayData job ofs data

/-- The read is for nobody any more: its ring was disabled or reset. -/
def Request.orphan (q : Request) : Bool :=
  match q.use with
  | .header n => decide (16 ≤ n)
  | .params n _ => decide (16 ≤ n)
  | .replay _ _ => false

/-- A read under tag k has failed: once more with a new tag, then the ring stops or the replay fails (R411). -/
def State.readFailed (s : State) (q : Request) (k : Nat) : State :=
  if q.orphan then s
  else if !q.retried then s.issue { q with retried := true, failedTag := some k }
  else match q.use with
    | .header n => s.stopRing n 1
    | .params n _ => s.stopRing n 1
    | .replay job _ => s.replayReadFailed job

/-- Reads that end now are issued again and do not count as failed (R413, R420). -/
def State.discards (s : State) : Bool := !s.pcie.bme || s.pcie.frozen

/-- A read whose completion is discarded is issued again later. -/
def State.readAgain (s : State) (q : Request) : State :=
  if q.orphan then s else { s with tags := { s.tags with reissue := s.tags.reissue ++ [q] } }

/-- Tag k is no longer outstanding. -/
def State.dropTag (s : State) (k : Nat) : State := { s with tags := { s.tags with outstanding := tdel s.tags.outstanding k } }

/-- An error is recorded in AER Uncorrectable Error Status, bits as PCI Express numbers them (notes/assumptions/35.md). -/
def State.aer (s : State) (b : Nat) : State := { s with pcie := { s.pcie with aerStatus := s.pcie.aerStatus ||| (1#32 <<< b) } }

/-- A completion whose data is never used (R410). -/
def State.lateCompletion (s : State) : State :=
  (({ s with pcie := { s.pcie with lateCpl := satInc 16 s.pcie.lateCpl } } : State).aer 16).raise 200

/-- A completion that reports failure (R411). -/
def State.badCompletion (s : State) : State := ({ s with pcie := { s.pcie with badCpl := satInc 16 s.pcie.badCpl } } : State).raise 201

/-- COMPLETION_RECEIVED. A successful completion brings all the bytes that were asked for; another count is no completion of this read. -/
def execCompletionReceived (t : SI) (tag : Fin 1024) (st : CplStatus) (data : List Byte) (s : State) : Host.Outcome State Fault Refusal :=
  let s := s.moment t
  match tfind s.tags.outstanding tag.val with
  | none => .next s.lateCompletion
  | some q =>
    let s' := s.dropTag tag.val
    if s.discards then .next (s'.readAgain q).quiesce
    else if st = .success then (if data.length = q.len then .next ((s'.readDone q data).issueWaiting).pump else .next s)
    else .next (((s'.badCompletion).readFailed q tag.val).issueWaiting).pump

/-- Slots for which tag k stays quarantined: twice the timeout in force when its request was issued (R410). -/
def State.quarantine (s : State) (q : Request) : SI := slotsOfNs s.time.ref.rateKhz (2 * q.timeoutNs)

/-- The read has been outstanding for the timeout in force when it was issued (R409). -/
def State.timedOut (s : State) (q : Request) : Bool := decide (q.issuedAt + slotsOfNs s.time.ref.rateKhz q.timeoutNs ≤ s.time.si)

/-- COMPLETION_TIMEOUT: nothing before the timeout of that request has passed. -/
def execCompletionTimeout (t : SI) (tag : Fin 1024) (s : State) : Host.Outcome State Fault Refusal :=
  let s := s.moment t
  match tfind s.tags.outstanding tag.val with
  | none => .next s
  | some q =>
    if !s.timedOut q then .next s
    else
    let s' := s.dropTag tag.val
    let s' : State := { s' with
      tags := { s'.tags with quarantined := tput s'.tags.quarantined tag.val (s.time.si + s.quarantine q) }
      pcie := { s'.pcie with cto := satInc 16 s'.pcie.cto } }
    let s' := (s'.aer 14).raise 199
    if s.discards then .next (s'.readAgain q).quiesce else .next ((s'.readFailed q tag.val).issueWaiting).pump

/-- TAG_QUARANTINE_END: the tag is free again once its time has come. -/
def execTagQuarantineEnd (t : SI) (tag : Fin 1024) (s : State) : Host.Outcome State Fault Refusal :=
  let s := s.moment t
  match tfind s.tags.quarantined tag.val with
  | none => .next s
  | some u =>
    if s.time.si < u then .next s
    else .next (({ s with tags := { s.tags with quarantined := tdel s.tags.quarantined tag.val } } : State).issueWaiting).pump

/-! ### Commands that lose their ring (R427, R450) -/

/-- The context without its reply where ring p is lost. -/
def Ctx.strip (p : Nat → Bool) (c : Ctx) : Ctx := { c with reply := c.reply.filter (fun r => !p r.1) }

/-- The command's entries will be discarded where ring p is lost; packets of its ring still wait for its end (R434). -/
def Ctx.lose (p : Nat → Bool) (c : Ctx) : Ctx := { c with lost := c.lost || c.reply.any (fun r => p r.1) }

/-- The completion entries of accepted commands, jobs, deferred commands and scheduler entries of the rings that p picks are discarded
(R444, R450). -/
def State.stripAccepted (s : State) (p : Nat → Bool) : State :=
  let f := Ctx.lose p
  { s with
    cmd := { s.cmd with
      jobs := s.cmd.jobs.map (fun (j : Job) => { j with ctx := j.ctx.strip p, suspendReq := j.suspendReq.map f, cancelReq := j.cancelReq.map f })
      deferredArm := s.cmd.deferredArm.map f
      deferredStart := s.cmd.deferredStart.map f }
    log := { s.log with ends := s.log.ends.map (fun e => { e with ctx := f e.ctx }) }
    streams := s.streams.map (fun (e : Nat × Stream) => (e.1, { e.2 with deferred := e.2.deferred.map f }))
    sched := { s.sched with entries := s.sched.entries.map (fun (e : Nat × SchedEntry) =>
      (e.1, { e.2 with reply := e.2.reply.filter (fun r => !p r.1) })) } }

/-- The context with its reply at the ring that f gives for its own. -/
def Ctx.rehome (f : Nat → Nat) (c : Ctx) : Ctx := { c with reply := c.reply.map (fun r => (f r.1, r.2)) }

/-- Every command in progress answers at the ring that f gives for its own. -/
def State.rehome (s : State) (f : Nat → Nat) : State :=
  let g := Ctx.rehome f
  { s with
    cmd := { s.cmd with
      jobs := s.cmd.jobs.map (fun (j : Job) => { j with ctx := g j.ctx, suspendReq := j.suspendReq.map g, cancelReq := j.cancelReq.map g })
      deferredArm := s.cmd.deferredArm.map g
      deferredStart := s.cmd.deferredStart.map g }
    log := { s.log with ends := s.log.ends.map (fun e => { e with ctx := g e.ctx }) }
    streams := s.streams.map (fun (e : Nat × Stream) => (e.1, { e.2 with deferred := e.2.deferred.map g }))
    sched := { s.sched with entries := s.sched.entries.map (fun (e : Nat × SchedEntry) =>
      (e.1, { e.2 with reply := e.2.reply.map (fun r => (f r.1, r.2)) })) }
    safe := { s.safe with softReset := s.safe.softReset.map g, rstCtx := s.safe.rstCtx.map (fun e => (e.1, g e.2)) }
    sec := { s.sec with zero := s.sec.zero.map (fun z => { z with reply := z.reply.map g }) }
    bob := { s.bob with tab := s.bob.tab.map (fun (e : Nat × Bobbin) =>
      (e.1, { e.2 with rewinding := e.2.rewinding.map (fun r => (r.1, g r.2.1, r.2.2)) })) } }

/-- Packets of the ring wait unexamined, or await their final entries. -/
def Ring.pending (r : Ring) : Bool := r.fetched ≠ [] || decide (0 < r.unreplied)

/-- What is left of a ring that was reset or is enabled anew: its packets, the role under which they are carried out, no registers and no CQ. -/
def Ring.remains (r : Ring) : Ring := { role := r.role, fetched := r.fetched, unreplied := r.unreplied }

/-- The rings that p picks are reset: their packets in progress complete, and the entries are discarded (R417). What is left of ring n is kept under a
number above 15, from which no entry is written and no register is read. -/
def State.cutRings (s : State) (p : Nat → Bool) : State :=
  let kept := s.cmd.rings.filter (fun e => decide (e.1 < 16) || e.2.pending)
  let base := 16 * (1 + (kept.foldl (fun m e => max m e.1) 0) / 16)
  let cut := fun (n : Nat) => decide (n < 16) && p n
  let left := (kept.filter (fun e => cut e.1 && e.2.pending)).map (fun e => (base + e.1, e.2.remains))
  let s := s.rehome (fun n => if cut n then base + n else n)
  { s with cmd := { s.cmd with
    rings := kept.filter (fun e => !cut e.1) ++ left
    hold := s.cmd.hold.filter (fun e => !cut e.ring) } }

/-- The reads of the rings that p picks end unused: those not yet issued are dropped, those outstanding serve nobody. -/
def State.dropFetches (s : State) (p : Nat → Bool) : State :=
  let mine := fun (q : Request) => (List.range 16).any (fun n => p n && q.ofRing n)
  { s with tags := { s.tags with
    reissue := s.tags.reissue.filter (fun q => !mine q)
    outstanding := s.tags.outstanding.map (fun (e : Nat × Request) => (e.1, if mine e.2 then { e.2 with use := ReadUse.header 16 } else e.2)) } }

/-! ### Ring registers (R427, R428, R456) -/

/-- The host can write the ring registers. -/
def State.onRing (s : State) (n : Nat) (f : Ring → Ring) : State := if s.barWrites then s.modRing n f else s

/-- A discarded write of a ring register. -/
def Ring.wrong (r : Ring) : Ring := { r with ptrErr := true }

/-- The sizes of a RING_CFG value are in range. -/
def ringSizesOk (v : Nat) : Bool := decide (7 ≤ bits v 20 16 ∧ bits v 20 16 ≤ 17) && decide (7 ≤ bits v 12 8 ∧ bits v 12 8 ≤ 16)

/-- The sizes of a RING_CFG value. -/
def Ring.sized (r : Ring) (v : Nat) : Ring := { r with cqLog2 := bits v 20 16, sqLog2 := bits v 12 8 }

/-- Ring n starts: pointers at 0, no role bound; packets of its earlier life are carried out, and their entries have no consumer. -/
def State.startRing (s : State) (n v : Nat) : State :=
  let r := s.ring n
  ((s.cutRings (fun k => k = n)).dropFetches (fun k => k = n)).modRing n (fun _ =>
    { r.sized v with
      enable := true, role := 0, sqTail := 0, sqHead := 0, cqTail := 0, cqHead := 0, stopped := false, stopCause := 0, fetched := []
      fetching := false, unreplied := 0 })

/-- Ring n ends: fetching stops, and entries that wait for space, or answer accepted commands, are discarded. -/
def State.endRing (s : State) (n : Nat) : State :=
  let s := ((s.stripAccepted (fun k => k = n)).dropFetches (fun k => k = n)).modRing n (fun r =>
    { r with enable := false, stopped := false, stopCause := 0, fetching := false })
  { s with cmd := { s.cmd with hold := s.cmd.hold.filter (fun e => e.ring ≠ n) } }

/-- CMD_RING_CFG of ring n written with v (R427). -/
def State.cfgRing (s : State) (n v : Nat) : State :=
  if !s.barWrites then s
  else
    match (s.ring n).enable, bit v 31 with
    | true, true => s.modRing n Ring.wrong
    | true, false => s.endRing n
    | false, false => s.modRing n (fun r => r.sized v)
    | false, true => if ringSizesOk v then s.startRing n v else s.modRing n (fun r => { r with cfgErr := true })

/-- RING_ENABLE: a write of CMD_RING_CFG with ENABLE 1. -/
def execRingEnable (t : SI) (r : Fin 16) (v : Word) (s : State) : Host.Outcome State Fault Refusal :=
  .next (((s.moment t).cfgRing r.val (v.toNat % 2 ^ 31 + 2 ^ 31)).pump)

/-- RING_DISABLE: a write of CMD_RING_CFG with ENABLE 0. -/
def execRingDisable (t : SI) (r : Fin 16) (v : Word) (s : State) : Host.Outcome State Fault Refusal :=
  .next (((s.moment t).cfgRing r.val (v.toNat % 2 ^ 31)).pump)

/-- A valid SQ_TAIL (R428). -/
def Ring.tailOk (r : Ring) (v : Nat) : Bool :=
  let m := 2 * r.sqSize
  decide (v < m) && decide (modDist m v r.sqHead ≤ r.sqSize) &&
    decide (modDist m v r.sqTail + modDist m r.sqTail r.sqHead ≤ r.sqSize)

/-- A valid CQ_HEAD (R428). -/
def Ring.headOk (r : Ring) (v : Nat) : Bool :=
  let m := 2 * r.cqSize
  decide (v < m) && decide (modDist m r.cqTail v ≤ r.cqUsed)

/-- SQ_TAIL of ring n written: a packet that it covers can be fetched, and one left half covered is looked at again. -/
def State.writeTail (s : State) (n v : Nat) : State :=
  let idle := !s.ringReads n
  s.onRing n (fun r => if r.tailOk v then { r with sqTail := v, fetching := r.fetching && !idle } else r.wrong)

/-- SQ_TAIL_WRITE. -/
def execSqTailWrite (t : SI) (r : Fin 16) (v : Word) (s : State) : Host.Outcome State Fault Refusal :=
  .next (((s.moment t).writeTail r.val (v.toNat % 2 ^ 17)).pump)

/-- CQ_HEAD_WRITE: waiting entries are written in order as space appears (R432). -/
def execCqHeadWrite (t : SI) (r : Fin 16) (v : Word) (s : State) : Host.Outcome State Fault Refusal :=
  .next ((((s.moment t).onRing r.val (fun x =>
    if x.headOk (v.toNat % 2 ^ 18) then { x with cqHead := v.toNat % 2 ^ 18 } else x.wrong)).drainHold).pump)

/-- Another register of ring n written, at offset o: the bases while ENABLE is 0, the W1C bits of CMD_RING_STAT. -/
def State.writeRingReg (s : State) (n o v : Nat) : State :=
  let base := fun (f : Ring → Ring) => s.onRing n (fun r => if r.enable then r.wrong else f r)
  match o with
  | 0x00 => base (fun r => { r with sqBase := r.sqBase / 2 ^ 32 * 2 ^ 32 + v / 4096 * 4096 })
  | 0x04 => base (fun r => { r with sqBase := r.sqBase % 2 ^ 32 + v * 2 ^ 32 })
  | 0x08 => base (fun r => { r with cqBase := r.cqBase / 2 ^ 32 * 2 ^ 32 + v / 4096 * 4096 })
  | 0x0C => base (fun r => { r with cqBase := r.cqBase % 2 ^ 32 + v * 2 ^ 32 })
  | 0x10 => s.cfgRing n v
  | 0x14 => s.writeTail n (v % 2 ^ 17)
  | 0x20 => (s.onRing n (fun x => if x.headOk (v % 2 ^ 18) then { x with cqHead := v % 2 ^ 18 } else x.wrong)).drainHold
  | 0x24 => s.onRing n (fun r =>
      { r with cfgErr := r.cfgErr && !bit v 3, ptrErr := r.ptrErr && !bit v 2, heldFlag := r.heldFlag && !bit v 1 })
  | _ => s

/-! ### The scheduler (R67 to R73) -/

/-- The opcodes of kind F: their scheduled effects proceed in hardware (R69, R500). -/
def frameExact (op : Nat) : Bool := [0x0001, 0x0201, 0x0203, 0x0310, 0x0311, 0x0312, 0x0320, 0x0520, 0x0521].contains op

/-- Entry e can execute at boundary b: its time has come, its preparation has ended, and while the core is being swapped or restarted it
needs no core (R73). -/
def State.entryReady (s : State) (e : SchedEntry) (b : SI) : Bool :=
  s.entryDue e b && decide (e.accepted + prepSlots ≤ b) && (!(s.safe.swapping || s.safe.coreDown) || frameExact e.opcode)

/-- No entry accepted before e is ready too: entries due at one boundary execute in the order in which they were accepted (R69). -/
def State.entryFirst (s : State) (e : SchedEntry) (b : SI) : Bool :=
  s.sched.entries.all (fun x => decide (e.order ≤ x.2.order) || !s.entryReady x.2 b)

/-- SCHEDULER_ENTRY_DUE: late where the entry was already due at the boundary before. -/
def execSchedulerEntryDue (t : SI) (entry : Fin 256) (s : State) : Host.Outcome State Fault Refusal :=
  let s := s.moment t
  let b := s.boundary
  match tfind s.sched.entries entry.val with
  | none => .next s
  | some e =>
    match schedSpec e.opcode with
    | none => .next s
    | some o => if s.entryReady e b && s.entryFirst e b then .next (s.executeEntry o entry.val e (decide (16 ≤ b) && s.entryDue e (b - 16)) b).pump else .next s

end Sys2Proof.Machine
end

