-- ==== Sys2Proof/Machine/Host.lean ====
section
/-! DEFINITION. The PCI Express endpoint (12_host_interface.md): stopping and resuming delivery, power states, resets, containment, the BAR2 window,
and host writes of registers, of the MSI-X structure and of configuration space. -/

namespace Sys2Proof.Machine

/-- What the end of a stopping condition sets going again (R408, R412): messages, held entries, waiting reads, ring fetches. -/
def State.resumeHost (s : State) : State := (((s.flushMsix).drainHold).issueWaiting).pump

/-! ### Bus Master Enable and power states (R413, R414) -/

/-- Bus Master Enable becomes 0. -/
def State.clearBme (s : State) : State := if s.pcie.bme then (({ s with pcie := { s.pcie with bme := false } } : State).raise 202).quiesce else s

/-- Bus Master Enable becomes 1. -/
def State.setBme (s : State) : State := if s.pcie.bme then s else ({ s with pcie := { s.pcie with bme := true, quiesced := false } } : State).resumeHost

/-- BUS_MASTER_ENABLE_CLEAR. -/
def execBusMasterEnableClear (t : SI) (s : State) : Host.Outcome State Fault Refusal :=
  let s := s.moment t
  .next (s.onConfig State.clearBme)

/-- BUS_MASTER_ENABLE_SET. -/
def execBusMasterEnableSet (t : SI) (s : State) : Host.Outcome State Fault Refusal :=
  let s := s.moment t
  .next (s.onConfig State.setBme)

/-- Software lets the reference clock go in L1: clock power management, or L1.1 under PCI power management (notes/assumptions/35.md). -/
def Pcie.withdrawsClock (p : Pcie) : Bool := p.clockPm || bit p.l1Sub 1

/-- The reference clock goes: CLKREQ_N is released. -/
def State.withdrawClock (s : State) : State :=
  if s.pcie.withdrawsClock && s.pcie.linkUp then ({ s with pcie := { s.pcie with clkreq := false } } : State).post (.pin 12 true) else s

/-- The reference clock is asked for again. -/
def State.requestClock (s : State) : State :=
  if s.pcie.clkreq then s else ({ s with pcie := { s.pcie with clkreq := true } } : State).post (.pin 12 false)

/-- The function enters D3hot, and the link L1. -/
def State.enterD3 (s : State) : State :=
  if s.pcie.d3hot then s else (({ s with pcie := { s.pcie with d3hot := true } } : State).withdrawClock).raise 204

/-- The function returns to D0. -/
def State.leaveD3 (s : State) : State :=
  if s.pcie.d3hot then ((({ s with pcie := { s.pcie with d3hot := false } } : State).requestClock).raise 205).resumeHost else s

/-- D3HOT_ENTRY. -/
def execD3hotEntry (t : SI) (s : State) : Host.Outcome State Fault Refusal :=
  let s := s.moment t
  .next (s.onConfig State.enterD3)

/-- D0_ENTRY. -/
def execD0Entry (t : SI) (s : State) : Host.Outcome State Fault Refusal :=
  let s := s.moment t
  .next (s.onConfig State.leaveD3)

/-! ### The link (R412) -/

/-- The link goes down. -/
def State.loseLink (s : State) : State :=
  if !s.pcie.linkUp then s
  else ({ s with pcie := { s.pcie with linkUp := false, cntLinkDown := satInc 8 s.pcie.cntLinkDown } } : State).raise 193

/-- PCIE_LINK_DOWN. -/
def execPcieLinkDown (t : SI) (s : State) : Host.Outcome State Fault Refusal := .next (s.moment t).loseLink

/-- PCIE_LINK_UP: speed 1 to 6 as HST_STAT codes it; on a link that is up, a change of rate or width (events 192 and 194). WAKE_N is released when the
link trains (R414). -/
def execPcieLinkUp (t : SI) (speed : Fin 7) (width : Fin 32) (flit : Bool) (s : State) : Host.Outcome State Fault Refusal :=
  let s := s.moment t
  let p := s.pcie
  let s' : State := { s with pcie := { p with linkUp := true, speed := speed.val, width := width.val, flit := flit, wakeN := false } }
  if speed.val = 0 then .next s
  else if p.linkUp then .next (s'.raiseIf (p.speed ≠ speed.val || p.width ≠ width.val) 194)
  else .next ((if p.wakeN then s'.post (.pin 11 false) else s').raise 192).resumeHost

/-! ### Hot resets and FLR (R417 to R419) -/

/-- The endpoint after a reset of its host-facing state: configuration space at its defaults but for the AER status; HST registers and the count
of freezes stay. -/
def Pcie.hostReset (p : Pcie) : Pcie :=
  { p with
    bme := false, msixEn := false, fnMask := false, pmeEn := false, pmeStatus := false, winBase := 0, dbLo := 0, d3hot := false, frozen := false
    cause := 0, refused := 0, quiesced := false, retryStatus := true, bars := [], romBar := 0, payloadCode := 0, aspm := 0, clockPm := false, l1Sub := 0
    clkreq := true }

/-- Reads of rings serve nobody any more, reads of a replay buffer are issued again later; quarantines run on. -/
def Tags.hostReset (x : Tags) : Tags :=
  let mine := fun (q : Request) => !q.fetches
  { x with
    outstanding := [], reissue := ((x.outstanding.map (fun e => e.2)).filter mine) ++ x.reissue.filter mine, timeoutCode := 0, readSizeCode := 2 }

/-- Every LOC 0 bobbin becomes held (R418). -/
def State.holdBobbins (s : State) : State :=
  { s with bob := { s.bob with tab := s.bob.tab.map (fun (e : Nat × Bobbin) =>
      if e.2.loc1 then e else (e.1, { s.emptied e.2 true with held := true })) } }

/-- The run stops where RETAIN_ON_LINK_RESET is clear (R419). -/
def State.stopUnretained (s : State) : State :=
  if s.pcie.retain || s.cap.runState = 0 then s else stopRunEffect { origin := firmware, opcode := 0x0521, params := leBytes 8 0 } s

/-- A reset of host-facing state that event source n reports. -/
def State.hostReset (s : State) (n : Nat) : State :=
  let was := s.pcie
  let s := (s.requestClock).cutRings (fun _ => true)
  let s : State := { s with pcie := s.pcie.hostReset, tags := s.tags.hostReset, events := {} }
  let s := (s.holdBobbins).raise n
  (((s.raiseIf was.d3hot 205).raiseIf was.bme 202).quiesce).stopUnretained

/-- FUNCTION_LEVEL_RESET. -/
def execFunctionLevelReset (t : SI) (s : State) : Host.Outcome State Fault Refusal :=
  let s := s.moment t
  .next (s.onConfig (fun s => ({ s with pcie := { s.pcie with cntFlr := satInc 8 s.pcie.cntFlr } } : State).hostReset 196))

/-- HOT_RESET: with `linkDown`, a link-down reset, which takes the link down. -/
def execHotReset (t : SI) (linkDown : Bool) (s : State) : Host.Outcome State Fault Refusal :=
  let s := s.moment t
  let n := if linkDown then s.pcie.cntHotReset else satInc 8 s.pcie.cntHotReset
  if !s.pcie.configUp then .next s
  else
    let s := ({ s with pcie := { s.pcie with cntHotReset := n } } : State).hostReset 195
    if linkDown then .next s.loseLink else .next s

/-! ### Containment (R420 to R422) -/

/-- FATAL_ERROR_FREEZE: an error freezes the endpoint where the severity register classes it as fatal; Completion Timeout and Unexpected Completion never freeze, and during a reset the error is
ignored (R423). -/
def execFatalErrorFreeze (t : SI) (cause : Fin 32) (s : State) : Host.Outcome State Fault Refusal :=
  let s := s.moment t
  if cause.val = 14 ∨ cause.val = 16 ∨ s.pcie.configUp = false ∨ s.pcie.retryStatus = true then .next s
  else
    let s := s.aer cause.val
    if s.pcie.frozen || !s.pcie.aerSeverity.getLsbD cause.val then .next s
    else
      .next (({ s with pcie := { s.pcie with
        frozen := true, cause := cause.val, freezes := satInc 8 s.pcie.freezes, cntFreeze := satInc 8 s.pcie.cntFreeze } } : State).raise 197)

/-- RELEASE written with 1 (R422). -/
def State.release (s : State) : State :=
  if !s.pcie.frozen then s
  else if s.pcie.linkUp && !s.pcie.aerStatus.getLsbD s.pcie.cause then
    (({ s with pcie := { s.pcie with frozen := false } } : State).raise 198).resumeHost
  else { s with pcie := { s.pcie with refused := satInc 8 s.pcie.refused } }

/-- CONTAINMENT_RELEASE: VSEC_CONTAIN.RELEASE written with 1. -/
def execContainmentRelease (t : SI) (s : State) : Host.Outcome State Fault Refusal := .next (s.moment t).release

/-! ### The BAR2 window (R402, R403) -/

/-- The window does not show DRAM address a: at or above R, or in the contexts, the audit log and the remainder of the reserved area. -/
def State.outOfWindow (s : State) (a : Nat) : Bool :=
  decide (s.dram.capacity ≤ a) || (decide (17 ≤ s.dram.usable) && decide (s.dram.reserved + ofsContexts ≤ a))

/-- The context of bobbin i, 64 bytes (R342): the head of the owed list and the layout of credit and flags are free values (notes/assumptions/71.md). -/
def State.contextImage (s : State) (i : Nat) (b : Bobbin) : List Byte :=
  let ofs := ((s.bob.area.find? (fun x => x.1 = i)).map (fun x => x.2.1)).getD 0
  leBytes 8 (if b.loc1 then ofs else b.ringAddr) ++ leBytes 8 b.wbAddr ++ leBytes 4 b.wr ++ leBytes 4 b.rd ++ leBytes 4 b.rel ++ leBytes 4 b.mark ++
    leBytes 4 (s.bobReg i 0x1C) ++ leBytes 2 b.spillMib ++ leBytes 2 (b.stream.getD 0xFFFF) ++ leBytes 8 b.owedBytes ++
    (List.range 16).map (fun k => Config.otherByte s.freeCtr (48 + k))

/-- Byte o of the area of the contexts, where it belongs to one of a bobbin: two copies, the second where log entry 73 says (R342, R367, R381). -/
def State.contextByte (s : State) (o : Nat) : Option Byte :=
  let n := o % 2 ^ 24 / 64
  let i := if o < 2 ^ 24 then n else secondOf n
  if 2 ^ 25 ≤ o then none else (tfind s.bob.tab i).map (fun b => (s.contextImage i b).getD (o % 64) 0)

/-- Byte a of DRAM: what a LOC 1 ring or a bobbin's context holds, else a free value (notes/assumptions/10.md). -/
def State.dramByte (s : State) (a : Nat) : Byte :=
  let base := s.dram.reserved + ofsContexts
  if base ≤ a ∧ (s.contextByte (a - base)).isSome then (s.contextByte (a - base)).getD 0
  else if s.bob.area.any (fun x => decide (s.dram.reserved + x.2.1 ≤ a ∧ a < s.dram.reserved + x.2.1 + x.2.2)) then Memory.read s.dram.mem a
  else Config.dramByte a s.freeCtr

/-- The four bytes at a. -/
def State.dramWord (s : State) (a : Nat) : Word := w32 (leNat [s.dramByte a, s.dramByte (a + 1), s.dramByte (a + 2), s.dramByte (a + 3)])

/-- What a read of the DW at a finds: a marked word is poisoned (R379, R402). -/
def State.windowKind (s : State) (a : Nat) (kind : ReadKind) : ReadKind :=
  if s.dram.isUnbacked a then .migrationMarker
  else match tfind s.dram.markers (a / 8 * 8) with
    | none => kind
    | some m => if m = 2 then .migrationMarker else .poisonMarker

/-- A BAR2 read answers v. -/
def State.windowAnswer (s : State) (v : Word) (poisoned : Bool) : State :=
  { s with obs := { s.obs with readData := v, readPoisoned := poisoned } }

/-- BAR2_READ: the DW at window offset x, a read of the controller's port 9; `kind` is what the ECC finds there (R370, R377, R378, R380, R382). -/
def execBar2Read (t : SI) (x : Fin 1073741824) (kind : ReadKind) (s : State) : Host.Outcome State Fault Refusal :=
  let s := s.moment t
  let a := s.pcie.winBase + x.val
  if !s.barAnswers then .next s
  else if !s.startup.ready then .next (s.windowAnswer 0 false)
  else if s.outOfWindow a then
    .next ((({ s with pcie := { s.pcie with winRange := true } } : State).windowAnswer 0 false).raise 207)
  else
    let kind := s.windowKind a kind
    let v := s.dramWord a
    let s := s.dramWake
    let s : State := { s with dram := s.dram.touch a s.time.si false false }
    let s := s.readFound kind (s.dram.split a).ch (s.dram.serving a) a
    let s := if poisonedKind kind then s.poisonRead else s
    .next ((s.windowAnswer v (poisonedKind kind)).tick)

/-- The window moves to `hi` and the low half written before; bits [20:0] are ignored. -/
def State.moveWindow (s : State) (hi : Nat) : State :=
  if s.barWrites then { s with pcie := { s.pcie with winBase := (hi * 2 ^ 32 + s.pcie.dbLo.toNat) / 2097152 * 2097152 } } else s

/-- HST_WIN_DB_HI_WRITE. -/
def execHstWinDbHiWrite (t : SI) (v : Word) (s : State) : Host.Outcome State Fault Refusal := .next ((s.moment t).moveWindow v.toNat)

/-! ### The MSI-X structure (R407, R408) -/

/-- BAR4 takes writes: it answers, also before READY and in containment. -/
def State.msixWrites (s : State) : Bool := s.pcie.configUp && s.pcie.linkUp && !s.pcie.d3hot

/-- One DW of an MSI-X table entry. -/
def MsixEntry.write (e : MsixEntry) (k : Nat) (v : Word) : MsixEntry :=
  match k with
  | 0 => { e with addr := BitVec.ofNat 64 (e.addr.toNat / 2 ^ 32 * 2 ^ 32 + v.toNat) }
  | 1 => { e with addr := BitVec.ofNat 64 (e.addr.toNat % 2 ^ 32 + v.toNat * 2 ^ 32) }
  | 2 => { e with data := v }
  | _ => { e with masked := v.getLsbD 0 }

/-- A DW write of BAR4 at offset o: the table or the event map; other offsets discard it. -/
def State.writeMsix (s : State) (o : Nat) (v : Word) : State :=
  if !s.msixWrites then s
  else if o < 0x8000 then
    ({ s with events := { s.events with table := tmod s.events.table (o / 16) {} (fun e => e.write (o % 16 / 4) v) } } : State).flushMsix
  else if 0xC000 ≤ o ∧ o < 0xCC00 then
    let m : EvMap := { enable := v.getLsbD 31, wake := v.getLsbD 30, vector := v.toNat % 2048 }
    { s with events := { s.events with map := tput s.events.map ((o - 0xC000) / 4) m } }
  else s

/-- MSIX_VECTOR_UNMASK: a vector or the function is unmasked, or MSI-X enabled; messages whose pending bits are set leave. -/
def execMsixVectorUnmask (t : SI) (what : MsixUnmask) (s : State) : Host.Outcome State Fault Refusal :=
  let s := s.moment t
  match what with
  | .vector v =>
    if s.msixWrites then
      .next ({ s with events := { s.events with table := tmod s.events.table v.val {} (fun e => { e with masked := false }) } } : State).flushMsix
    else .next s
  | .function => .next (s.onConfig (fun s => ({ s with pcie := { s.pcie with fnMask := false } } : State).flushMsix))
  | .enable => .next (s.onConfig (fun s => ({ s with pcie := { s.pcie with msixEn := true } } : State).flushMsix))

/-! ### REGISTER_WRITE (R5 to R9, R401) -/

/-- The register at BAR0 offset o has a field that the host can write. -/
def hostWritable (o : Nat) : Bool :=
  let k : Nat := o % 0x10000
  if 0x100000 ≤ o ∧ o < 0x900000 then decide (4 ≤ o % 32 ∧ o % 32 ≤ 0x14)
  else match o / 0x10000 with
    | 1 => k == 0
    | 10 => k == 0 || k == 0x28 || k == 0x2C || decide (0x100 ≤ k ∧ k < 0x160)
    | 11 => decide (k < 0x400) && (decide (k % 0x40 ≤ 0x14) || k % 0x40 == 0x20 || k % 0x40 == 0x24)
    | 12 => k == 0
    | 14 => decide (0x100 ≤ k ∧ k < 0x168) && k % 8 == 0
    | _ => false

/-- A BAR access that is discarded and counted (R401, R402). -/
def State.barError (s : State) : State := { s with pcie := { s.pcie with barErr := satInc 16 s.pcie.barErr } }

/-- The W1C flags of BOB_STAT (R354): those written as 1 are cleared. -/
def State.clearBobStat (s : State) (b v : Nat) : State := s.modBob b (fun x => { x with flags := x.flags &&& ~~~(BitVec.ofNat 9 v) })

/-- A doorbell register of bobbin b written at offset o of its entry (R354). -/
def State.writeBob (s : State) (b o : Nat) (v : Word) : State :=
  match o with
  | 0x04 => s.pointerWrite b 0 v.toNat
  | 0x08 => s.pointerWrite b 1 v.toNat
  | 0x0C => s.pointerWrite b 2 v.toNat
  | 0x10 => s.duplicateWrite b v.toNat
  | _ => s.clearBobStat b v.toNat

/-- A whole DW write of BAR0 at offset o. -/
def State.writeBar0 (s : State) (o : Nat) (v : Word) : State :=
  let k := o % 0x10000
  if 0x100000 ≤ o then s.writeBob ((o - 0x100000) / 32) (o % 32) v
  else match o / 0x10000 with
    | 1 => { s with safe := { s.safe with seen := s.safe.seen &&& ~~~(BitVec.ofNat 8 (v.toNat / 65536)) } }
    | 10 =>
      if k = 0 then { s with pcie := { s.pcie with winRange := s.pcie.winRange && !v.getLsbD 13 } }
      else if k = 0x28 then { s with pcie := { s.pcie with dbLo := v } }
      else if k = 0x2C then s.moveWindow v.toNat
      else
        let left := s.events.raised.filter (fun n => !(decide (n / 32 = (k - 0x100) / 4) && v.getLsbD (n % 32)))
        { s with events := { s.events with raised := left } }
    | 11 => s.writeRingReg (k / 0x40) (k % 0x40) v.toNat
    | 12 => { s with sec := { s.sec with tamperLatched := s.sec.tamperLatched && !v.getLsbD 29 } }
    | _ => s.modSeam ((k - 0x100) / 8) (fun m => { m with overrun := m.overrun && !v.getLsbD 29 })

/-- The register at BAR0 offset o holds W1C bits: status, doubt causes, events, tamper, overruns, bobbin flags (R5). -/
def clearsByOne (o : Nat) : Bool :=
  if 0x100000 ≤ o then o % 32 = 0x14
  else o / 0x10000 = 1 || o / 0x10000 = 12 || o / 0x10000 = 14 || (o / 0x10000 = 10 && o % 0x10000 ≠ 0x28 && o % 0x10000 ≠ 0x2C) ||
    (o / 0x10000 = 11 && o % 0x40 = 0x24)

/-- A write of BAR0 at byte offset o: whole only as one aligned DW with all byte enables. A W1C bit that the device sets at the same moment, as `raced` says,
remains set (R9). -/
def State.hostWrite (s : State) (o : Nat) (v : Word) (whole : Bool) (raced : Word := 0) : State :=
  if !s.barWrites || !hostWritable (o / 4 * 4) then s
  else if whole && o % 4 = 0 then s.writeBar0 o (if clearsByOne o then v &&& ~~~raced else v)
  else s.barError

/-- A write of a configuration register (R396, R400, R408, R409, R413, R414, R420 to R422); registers without a writable field discard it. W1C bits of
`raced` remain set (R9). -/
def State.writeConfig (s : State) (r : ConfigReg) (v raced : Word) : State :=
  match r with
  | .command => if v.getLsbD 2 then s.setBme else s.clearBme
  | .bar n => { s with pcie := { s.pcie with bars := tput s.pcie.bars n.val v } }
  | .romBar => { s with pcie := { s.pcie with romBar := v } }
  | .aerUncorrectableSeverity => { s with pcie := { s.pcie with aerSeverity := v } }
  | .vsecContain => if v.getLsbD 30 then s.release else s
  | .aerControl => { s with pcie := { s.pcie with ecrcGen := v.getLsbD 6, ecrcCheck := v.getLsbD 8 } }
  | .linkStatus => { s with pcie := { s.pcie with aspm := v.toNat % 4, clockPm := v.getLsbD 8 } }
  | .l1SubstatesControl => { s with pcie := { s.pcie with l1Sub := Nat.land v.toNat 0xA } }
  | .deviceVendor | .classRevision | .subsystem | .interruptPin | .pmCapabilities | .pcieCapability | .deviceCapabilities | .linkCapabilities
  | .l1SubstatesCapability | .deviceCapabilities2 | .msixTable | .msixPba | .extCapability _ | .serialLow | .serialHigh | .vsecHeader => s
  | .deviceControl =>
    { s with tags := { s.tags with readSizeCode := bits v.toNat 14 12 }, pcie := { s.pcie with payloadCode := bits v.toNat 7 5 } }
  | .deviceControl2 => { s with tags := { s.tags with timeoutCode := v.toNat % 16 } }
  | .pmControlStatus =>
    let s : State := { s with pcie := { s.pcie with pmeEn := v.getLsbD 8, pmeStatus := s.pcie.pmeStatus && !(v &&& ~~~raced).getLsbD 15 } }
    if v.toNat % 4 = 3 then s.enterD3 else if v.toNat % 4 = 0 then s.leaveD3 else s
  | .aerUncorrectableStatus => { s with pcie := { s.pcie with aerStatus := s.pcie.aerStatus &&& ~~~(v &&& ~~~raced) } }
  | .msixControl => ({ s with pcie := { s.pcie with msixEn := v.getLsbD 31, fnMask := v.getLsbD 30 } } : State).flushMsix

/-- REGISTER_WRITE. A write of BAR4 or of configuration space that is not whole is discarded (notes/assumptions/35.md). -/
def execRegisterWrite (t : SI) (reg : RegAddr) (v : Word) (form : WriteForm) (s : State) : Host.Outcome State Fault Refusal :=
  let s := s.moment t
  match reg with
  | .bar0 o => .next (s.hostWrite o v form.whole form.raced).pump
  | .bar2 _ => if s.barAnswers then .next s.barError else .next s
  | .bar4 o => if form.whole then .next (s.writeMsix (o / 4 * 4) v) else .next s
  | .config r => .next (s.onConfig (fun s => if form.whole then s.writeConfig r v form.raced else s))

end Sys2Proof.Machine
end

