-- ==== Sys2Proof/Machine/Startup.lean ====
section
/-! DEFINITION. Fundamental reset (R416) and start-up: the steps of R534, their failures (R538), and supply collapse (R562). -/

namespace Sys2Proof.Machine

/-! ### Fundamental reset -/

/-- An image slot after a reset: one that was being written holds no whole image. -/
def slotAfterReset (v : Nat) : Nat := if v = 2 then 0 else v

/-- What an update has programmed so far. -/
def Sec.flashed (x : Sec) : List Byte := (x.update.map Update.flash).getD []

/-- What the secure store, the fuses and the boot flash keep (R461, R472, R481, R483), and the levels of the pins. -/
def Sec.kept (x : Sec) : Sec :=
  { tamper := x.tamper, svcEn := x.svcEn, identity := x.identity, fikOrigin := x.fikOrigin, identityKey := x.identityKey
    eskId := x.eskId, esk := x.esk, eskKey := x.eskKey, lastEskId := x.lastEskId, certs := x.certs, blobs := x.blobs, roleKeys := x.roleKeys
    keyMacs := x.keyMacs, romKey := x.romKey, imageA := if x.slotA = 2 then x.flashed else x.imageA, imageB := if x.slotB = 2 then x.flashed else x.imageB
    zeroizeLife := x.zeroizeLife, zcause := x.zcause, zboot := x.zboot
    zero := x.zero.map (fun z => { cause := z.cause }), fikDue := x.fikDue
    fwFloor := x.fwFloor, slotA := slotAfterReset x.slotA, slotB := slotAfterReset x.slotB, preferB := x.preferB }

/-- The boot number counts fundamental resets in 24 bits (R446). -/
def nextBoot (n : Nat) : Nat := (n + 1) % 2 ^ 24

/-- The outputs that a reset ends: TRIG_OUT pins, EPOCH_OUT, REFOUT, WAKE_N (R148, R59, R414). -/
def State.dropOutputs (s : State) : State :=
  let s := s.resetPins
  let s := if s.time.epochOutHigh then s.post (.pin 9 false) else s
  let s := if s.time.refoutOn then s.post (.pin 10 false) else s
  if s.pcie.wakeN then s.post (.pin 11 false) else s

/-- The whole device is reset (R416): a capture ends at once. The queue of commands, the model's own counter and what the outside has
seen stay. -/
def State.fundamental (s : State) : State :=
  let s := s.dropOutputs
  let boot := nextBoot s.log.boot
  ({ State.reset with
    pending := s.pending
    freeCtr := s.freeCtr
    obs := { posted := s.obs.posted }
    pins := { inLevels := s.pins.inLevels }
    log := { boot := boot, release := boot * 2 ^ 40 }
    safe := { fault := s.safe.fault }
    sec := s.sec.kept } : State)

/-- FUNDAMENTAL_RESET: power-on or PERST_N asserted. FAULT_N is released (R504). -/
def execFundamentalReset (t : SI) (s : State) : Host.Outcome State Fault Refusal := .next ((s.moment t).fundamental).driveFault

/-- PERST_N_RELEASE: start-up goes on to step 2, unless a supply still holds the device in reset. -/
def execPerstNRelease (t : SI) (s : State) : Host.Outcome State Fault Refusal :=
  let s := s.moment t
  if s.startup.step = 1 ∧ s.startup.collapsed = false then .next { s with startup := { s.startup with step := 2 } } else .next s

/-- SUPPLY_COLLAPSE: a fundamental reset, held; FAULT_N is asserted until READY (R562). -/
def execSupplyCollapse (t : SI) (s : State) : Host.Outcome State Fault Refusal :=
  let s := (s.moment t).fundamental
  .next ({ s with startup := { s.startup with collapsed := true } } : State).driveFault

/-- SUPPLY_RECOVERED: start-up runs from step 2 without a PERST_N cycle. -/
def execSupplyRecovered (t : SI) (s : State) : Host.Outcome State Fault Refusal :=
  let s := s.moment t
  if s.startup.step = 1 ∧ s.startup.collapsed = true then .next { s with startup := { s.startup with step := 2 } } else .next s

/-! ### Steps 2 to 4 -/

/-- CONFIG_SPACE_UP: step 2 ends; after a hot reset or an FLR, Request Retry Status ends (R399). -/
def execConfigSpaceUp (t : SI) (s : State) : Host.Outcome State Fault Refusal :=
  let s := s.moment t
  if s.startup.step = 2 then
    .next { s with startup := { s.startup with step := 3 }, pcie := { s.pcie with configUp := true, retryStatus := false } }
  else if s.pcie.configUp then .next { s with pcie := { s.pcie with retryStatus := false } }
  else .next s

/-- Start-up stops, with FAULT_N asserted. -/
def State.stopStartup (s : State) : State := ({ s with startup := { s.startup with stopped := true } } : State).driveFault

/-- The tests of step 3 have passed: the wrapping key is derived (R459, R462), an unfinished erase is finished, and TAMPER_N low is acted on (R483, R562). -/
def State.securityUp (s : State) : State :=
  let s : State := { s with startup := { s.startup with step := 4 }, sec := { s.sec with selftestOk := true, wrapKey := some Config.pufKey } }
  let s := match s.sec.zero with
    | some z => s.erase z
    | none => s
  if s.sec.tamper then s.tamperZeroize else s

/-- SELF_TESTS_COMPLETE: `failedTest` is 0 where all pass (R462). After step 3 a failure is that of a conditional test: of a generated key pair, or of the
entropy source (R463; DESIGN CHOICE, notes/assumptions/75.md). -/
def execSelfTestsComplete (t : SI) (failedTest : Fin 8) (s : State) : Host.Outcome State Fault Refusal :=
  let s := s.moment t
  if s.startup.stopped = true then .next s
  else if 3 < s.startup.step then .next (if failedTest.val = 0 then s else s.securityError failedTest.val)
  else if s.startup.step ≠ 3 then .next s
  else if failedTest.val = 0 then .next s.securityUp
  else .next s.stopStartup

/-- The image that begins a slot: its header, and the body of which the header tells the length. -/
def imageIn (flash : List Byte) : List Byte := flash.take (256 + pField flash 12 4)

/-- The image of a slot is acceptable (R471). -/
def Sec.acceptable (x : Sec) (slotB : Bool) : Bool := imageFault x.romKey (imageIn (x.image slotB)) x.fwFloor = 0

/-- What the board has written into the slots from outside the device. -/
def Sec.reflash (x : Sec) (f : BootFlash) : Sec := { x with imageA := f.slotA.getD x.imageA, imageB := f.slotB.getD x.imageB }

/-- The ROM runs the image of a slot; `other` says that it found the preferred slot unacceptable. -/
def Sec.boot (x : Sec) (slotB other : Bool) : Sec :=
  let m := imageIn (x.image slotB)
  let y := x.setSlot slotB 1
  { (if other then y.setSlot (!slotB) 3 else y) with
    fwVerified := true, fwVersion := BitVec.ofNat 32 (imageVersion m), fwSvn := imageSvn m, fwDigest := digestNat (sha256 m), fwSlotB := slotB
    failedSlot := other }

/-- FIRMWARE_SELECTED: the ROM examines the preferred slot and then the other, and runs the first acceptable image (R472). -/
def execFirmwareSelected (t : SI) (flash : BootFlash) (s : State) : Host.Outcome State Fault Refusal :=
  let s := s.moment t
  if s.startup.step ≠ 4 ∨ s.startup.stopped = true then .next s
  else
    let x := s.sec.reflash flash
    let runs := fun (y : Sec) => ({ s with startup := { s.startup with step := 5 }, sec := y } : State)
    if x.acceptable x.preferB then .next (runs (x.boot x.preferB false))
    else if x.acceptable (!x.preferB) then .next (runs (x.boot (!x.preferB) true))
    else .next ({ s with sec := { x with slotA := 3, slotB := 3, failedSlot := true } } : State).stopStartup

/-! ### Steps 5 to 7 -/

/-- Step 6: the device starts TRAIN with FLAGS 0, SPEED 0 and EXCLUDE 0. -/
def State.startTraining (s : State) : State :=
  let s : State := { s with startup := { s.startup with step := 6, trainJob := some s.cmd.nextJob } }
  (s.startJob { origin := firmware, opcode := 0x0910, params := leBytes 8 0 } .running 0).beginTraining

/-- INITIAL_SYNTH_LOCK: SI starts at 0 (R11, R536). -/
def execInitialSynthLock (t : SI) (s : State) : Host.Outcome State Fault Refusal :=
  let s := s.moment t
  if s.startup.step ≠ 5 then .next s
  else .next ({ s with time := { s.time with running := true, si := 0, synLock := true } } : State).startTraining

/-- INITIAL_LOCK_TIMEOUT: start-up goes on with SI counting on the backup frame clock, in doubt with cause [0] (R538). -/
def execInitialLockTimeout (t : SI) (s : State) : Host.Outcome State Fault Refusal :=
  let s := s.moment t
  if s.startup.step ≠ 5 then .next s
  else
    let s : State := { s with
      time := { s.time with running := true, si := 0, gatedFrom := some 0 }
      startup := { s.startup with backup := true, lateLock := true }
      seq0 := s.seq0.gate 0 }
    .next (s.beginCauseAt causeSynth 0).startTraining

/-- Job n has ended. -/
def State.jobOver (s : State) (n : Option Nat) : Bool :=
  match n with
  | none => true
  | some k => (s.job k).isNone

/-- Step 7 begins once TRAIN has ended, done or failed: the initial calibration, which a device on its backup clock skips (R535, R538). -/
def State.startupGoesOn (s : State) : State :=
  if s.startup.step ≠ 6 || !s.jobOver s.startup.trainJob then s
  else if s.startup.backup then { s with startup := { s.startup with step := 7 } }
  else ({ s with startup := { s.startup with step := 7, calJob := some s.cmd.nextJob } } : State).startCal 1

/-! ### Step 8 -/

/-- Regions with a retired lane. -/
def State.retiredRegions (s : State) : List Nat :=
  (List.range 4).filter (fun r => s.cells.any (fun e => chRegion e.1 = r && e.2.lanes.any (fun l => l.retired)))

/-- READY_SET: READY, seams leave quiet mode, the device starts HK_CAL, and the events that start-up kept back are raised. -/
def execReadySet (t : SI) (s : State) : Host.Outcome State Fault Refusal :=
  let s := s.moment t
  if s.startup.step ≠ 7 || s.startup.ready || !s.jobOver s.startup.calJob then .next s
  else
    let s : State := { s with
      startup := { s.startup with step := 8, ready := true, collapsed := false }
      safe := { s.safe with quiet := false } }
    let s := (s.raiseAll (s.retiredRegions.map (fun r => regionEvent r 0))).raiseIf s.sec.failedSlot 235
    .next (hkCalEffect { origin := firmware, opcode := 0x0A10, params := leBytes 8 0 } s.driveFault).pump

end Sys2Proof.Machine
end

