-- ==== Sys2Proof/Machine/Finish.lean ====
section
/-! DEFINITION. The rows that end by letting the core go on: every packet, and every event that can free a ring, a job or start-up. -/

namespace Sys2Proof.Machine

/-! ### Events after which waiting packets can be examined and rings fetched -/

/-- After an event: start-up may go on, a waiting SOFT_RESET may begin, then the rings. -/
def State.goOn (s : State) : State := ((s.startupGoesOn).maybeSoft).pump

/-- BOB_RD_WRITE. -/
def execBobRdWrite (t : SI) (b : Fin 262144) (v : Word) (s : State) : Host.Outcome State Fault Refusal :=
  .next (rowBobRdWrite t b v s).goOn

/-- BOB_REL_WRITE. -/
def execBobRelWrite (t : SI) (b : Fin 262144) (v : Word) (s : State) : Host.Outcome State Fault Refusal :=
  .next (rowBobRelWrite t b v s).goOn

/-- BOB_DUP_WRITE. -/
def execBobDupWrite (t : SI) (b : Fin 262144) (v : Word) (s : State) : Host.Outcome State Fault Refusal :=
  .next (rowBobDupWrite t b v s).goOn

/-- DUPLICATE_TIMEOUT. -/
def execDuplicateTimeout (t : SI) (b : Fin 262144) (s : State) : Host.Outcome State Fault Refusal :=
  .next (rowDuplicateTimeout t b s).goOn

/-- CONTEXT_PARITY_ERROR. -/
def execContextParityError (t : SI) (b : Fin 262144) (s : State) : Host.Outcome State Fault Refusal :=
  .next (rowContextParityError t b s).goOn

/-- REWIND_COMPLETE. -/
def execRewindComplete (t : SI) (b : Fin 262144) (s : State) : Host.Outcome State Fault Refusal :=
  .next (rowRewindComplete t b s).goOn

/-- SEGMENT_DELIVERED. -/
def execSegmentDelivered (t : SI) (b : Fin 262144) (badWords : List Nat) (s : State) : Host.Outcome State Fault Refusal :=
  .next (rowSegmentDelivered t b badWords s).goOn

/-- SEGMENT_HASH_COMPLETE. -/
def execSegmentHashComplete (t : SI) (stream : Fin 4096) (s : State) : Host.Outcome State Fault Refusal :=
  .next (rowSegmentHashComplete t stream s).goOn

/-- DISARM_SHUTDOWN_END. -/
def execDisarmShutdownEnd (t : SI) (s : State) : Host.Outcome State Fault Refusal :=
  .next (rowDisarmShutdownEnd t s).goOn

/-- RUN_SHUTDOWN_END. -/
def execRunShutdownEnd (t : SI) (s : State) : Host.Outcome State Fault Refusal :=
  .next (rowRunShutdownEnd t s).goOn

/-- REGION_REINIT_END. -/
def execRegionReinitEnd (t : SI) (region : Fin 4) (s : State) : Host.Outcome State Fault Refusal :=
  .next (rowRegionReinitEnd t region s).goOn

/-- REGION_WATCHDOG. -/
def execRegionWatchdog (t : SI) (region : Fin 4) (s : State) : Host.Outcome State Fault Refusal :=
  .next (rowRegionWatchdog t region s).goOn

/-- REGION_WRITE_DRAIN_END. -/
def execRegionWriteDrainEnd (t : SI) (region : Fin 4) (unfinished : List Nat) (dropped : Nat) (s : State) : Host.Outcome State Fault Refusal :=
  .next (rowRegionWriteDrainEnd t region unfinished dropped s).goOn

/-- ZEROIZATION_ERASE_COMPLETE. -/
def execZeroizationEraseComplete (t : SI) (s : State) : Host.Outcome State Fault Refusal :=
  .next (rowZeroizationEraseComplete t s).goOn

/-- SLOT_EVALUATION. -/
def execSlotEvaluation (t : SI) (q : Fin 2) (slots : Nat) (s : State) : Host.Outcome State Fault Refusal :=
  .next (rowSlotEvaluation t q slots s).goOn

/-- MIGRATION_BLOCK_COPIED. -/
def execMigrationBlockCopied (t : SI) (lost : List Nat) (spareBad : Bool) (s : State) : Host.Outcome State Fault Refusal :=
  .next (rowMigrationBlockCopied t lost spareBad s).goOn

/-- DRAM_READ_COMPLETE: what waits at the channel is `before`, oldest first, and after it a read of 64 bytes at addr for the port. -/
def execDramReadComplete (t : SI) (port : Fin 11) (addr : Nat) (channel : Fin 4) (before : List DramReq) (kind : ReadKind) (ageNs : Nat) (s : State) :
    Host.Outcome State Fault Refusal :=
  .next (rowDramReadComplete t (before ++ [{ port := port, write := false, addr := addr, ageNs := ageNs }]) channel kind s).goOn

/-- PATROL_SCRUB. -/
def execPatrolScrub (t : SI) (addr : Nat) (channel rank : Fin 4) (kind : ReadKind) (s : State) : Host.Outcome State Fault Refusal :=
  .next (rowPatrolScrub t addr channel rank kind s).goOn

/-- WINDOW_CLOSE. -/
def execWindowClose (t : SI) (slot : Fin 64) (s : State) : Host.Outcome State Fault Refusal :=
  .next (rowWindowClose t slot s).goOn

/-- WINDOW_SEGMENT_READ. -/
def execWindowSegmentRead (t : SI) (slot : Fin 64) (part : Fin 16) (read : SegRead) (s : State) : Host.Outcome State Fault Refusal :=
  .next (rowWindowSegmentRead t slot part read s).goOn

/-- CASCADE_COMMAND_DUE. -/
def execCascadeCommandDue (t : SI) (s : State) : Host.Outcome State Fault Refusal :=
  .next (rowCascadeCommandDue t s).goOn

/-- JOB_DEQUEUE. -/
def execJobDequeue (t : SI) (job : Nat) (s : State) : Host.Outcome State Fault Refusal :=
  .next (rowJobDequeue t job s).goOn

/-- JOB_SUSPEND_POINT. -/
def execJobSuspendPoint (t : SI) (job : Nat) (s : State) : Host.Outcome State Fault Refusal :=
  .next (rowJobSuspendPoint t job s).goOn

/-- JOB_END. -/
def execJobEnd (t : SI) (job : Nat) (work : JobWork) (s : State) : Host.Outcome State Fault Refusal :=
  .next (rowJobEnd t job work s).goOn

/-- ANCHOR_BOUNDARY. -/
def execAnchorBoundary (t : SI) (passes : List LanePass) (disagree : List (Fin 1024 × Nat)) (s : State) : Host.Outcome State Fault Refusal :=
  .next (rowAnchorBoundary t passes disagree s).goOn

/-- CONTROL_CORE_WATCHDOG. -/
def execControlCoreWatchdog (t : SI) (s : State) : Host.Outcome State Fault Refusal :=
  .next (rowControlCoreWatchdog t s).goOn

/-- CORE_RESTART_COMPLETE. -/
def execCoreRestartComplete (t : SI) (s : State) : Host.Outcome State Fault Refusal :=
  .next (rowCoreRestartComplete t s).goOn

/-- SOFT_RESET_COMPLETE. -/
def execSoftResetComplete (t : SI) (failedTest : Fin 8) (s : State) : Host.Outcome State Fault Refusal :=
  .next (rowSoftResetComplete t failedTest.val s).goOn

/-- FIRMWARE_SWAP_POINT: the core begins to run the new image, or the old one where the new one does not start (R474). -/
def execFirmwareSwapPoint (t : SI) (startOk : Bool) (s : State) : Host.Outcome State Fault Refusal :=
  let s := s.moment t
  match s.sec.update with
  | none => .next s
  | some u =>
    if !s.safe.swapping then .next s
    else if startOk then .next ((s.swapped u).issueWaiting).goOn
    else .next ((s.revertSwap u 6).issueWaiting).goOn

/-! ### Packets (R434 to R437) -/

/-- A packet of opcode o arrives, as fetched from its ring. -/
def State.packetIn (s : State) (t : SI) (o : OpSpec) (p : Packet) : State := ((s.moment t).receive o p).goOn

/-- NOP. -/
def execNop (t : SI) (p : Packet) (s : State) : Host.Outcome State Fault Refusal := .next (s.packetIn t opNop p)

/-- GET_INFO. -/
def execGetInfo (t : SI) (p : Packet) (s : State) : Host.Outcome State Fault Refusal := .next (s.packetIn t opGetInfo p)

/-- RESET_REGION. -/
def execResetRegion (t : SI) (p : Packet) (s : State) : Host.Outcome State Fault Refusal := .next (s.packetIn t opResetRegion p)

/-- SOFT_RESET. -/
def execSoftReset (t : SI) (p : Packet) (s : State) : Host.Outcome State Fault Refusal := .next (s.packetIn t opSoftReset p)

/-- SET_FAILSAFE_POLICY. -/
def execSetFailsafePolicy (t : SI) (p : Packet) (s : State) : Host.Outcome State Fault Refusal := .next (s.packetIn t opSetFailsafe p)

/-- SET_REF. -/
def execSetRef (t : SI) (p : Packet) (s : State) : Host.Outcome State Fault Refusal := .next (s.packetIn t opSetRef p)

/-- SET_EPOCH. -/
def execSetEpoch (t : SI) (p : Packet) (s : State) : Host.Outcome State Fault Refusal := .next (s.packetIn t opSetEpoch p)

/-- SET_ST. -/
def execSetSt (t : SI) (p : Packet) (s : State) : Host.Outcome State Fault Refusal := .next (s.packetIn t opSetSt p)

/-- SET_RETURN_POLICY. -/
def execSetReturnPolicy (t : SI) (p : Packet) (s : State) : Host.Outcome State Fault Refusal := .next (s.packetIn t opSetReturn p)

/-- SCHEDULE. -/
def execSchedule (t : SI) (p : Packet) (s : State) : Host.Outcome State Fault Refusal := .next (s.packetIn t opSchedule p)

/-- UNSCHEDULE. -/
def execUnschedule (t : SI) (p : Packet) (s : State) : Host.Outcome State Fault Refusal := .next (s.packetIn t opUnschedule p)

/-- SET_THRESHOLD. -/
def execSetThreshold (t : SI) (p : Packet) (s : State) : Host.Outcome State Fault Refusal := .next (s.packetIn t opSetThreshold p)

/-- SET_INPUT_MODE. -/
def execSetInputMode (t : SI) (p : Packet) (s : State) : Host.Outcome State Fault Refusal := .next (s.packetIn t opSetInputMode p)

/-- SET_DESKEW. -/
def execSetDeskew (t : SI) (p : Packet) (s : State) : Host.Outcome State Fault Refusal := .next (s.packetIn t opSetDeskew p)

/-- CAL_DESKEW. -/
def execCalDeskew (t : SI) (p : Packet) (s : State) : Host.Outcome State Fault Refusal := .next (s.packetIn t opCalDeskew p)

/-- CAL_INTERP. -/
def execCalInterp (t : SI) (p : Packet) (s : State) : Host.Outcome State Fault Refusal := .next (s.packetIn t opCalInterp p)

/-- SET_INTERVAL. -/
def execSetInterval (t : SI) (p : Packet) (s : State) : Host.Outcome State Fault Refusal := .next (s.packetIn t opSetInterval p)

/-- LOAD_PATTERN. -/
def execLoadPattern (t : SI) (p : Packet) (s : State) : Host.Outcome State Fault Refusal := .next (s.packetIn t opLoadPattern p)

/-- ARM. -/
def execArm (t : SI) (p : Packet) (s : State) : Host.Outcome State Fault Refusal := .next (s.packetIn t opArm p)

/-- DISARM. -/
def execDisarm (t : SI) (p : Packet) (s : State) : Host.Outcome State Fault Refusal := .next (s.packetIn t opDisarm p)

/-- FORCE_TACK. -/
def execForceTack (t : SI) (p : Packet) (s : State) : Host.Outcome State Fault Refusal := .next (s.packetIn t opForceTack p)

/-- SET_TRIGOUT. -/
def execSetTrigout (t : SI) (p : Packet) (s : State) : Host.Outcome State Fault Refusal := .next (s.packetIn t opSetTrigout p)

/-- SET_UNIT. -/
def execSetUnit (t : SI) (p : Packet) (s : State) : Host.Outcome State Fault Refusal := .next (s.packetIn t opSetUnit p)

/-- SET_PORT_ROLE. -/
def execSetPortRole (t : SI) (p : Packet) (s : State) : Host.Outcome State Fault Refusal := .next (s.packetIn t opSetPortRole p)

/-- CASCADE_DISCOVER. -/
def execCascadeDiscover (t : SI) (p : Packet) (s : State) : Host.Outcome State Fault Refusal := .next (s.packetIn t opCascadeDiscover p)

/-- SET_REDUCTION. -/
def execSetReduction (t : SI) (p : Packet) (s : State) : Host.Outcome State Fault Refusal := .next (s.packetIn t opSetReduction p)

/-- SET_LOOKBACK. -/
def execSetLookback (t : SI) (p : Packet) (s : State) : Host.Outcome State Fault Refusal := .next (s.packetIn t opSetLookback p)

/-- SET_WINDOW_POLICY. -/
def execSetWindowPolicy (t : SI) (p : Packet) (s : State) : Host.Outcome State Fault Refusal := .next (s.packetIn t opSetWindowPolicy p)

/-- EXPORT_WINDOW. -/
def execExportWindow (t : SI) (p : Packet) (s : State) : Host.Outcome State Fault Refusal := .next (s.packetIn t opExportWindow p)

/-- START_RUN. -/
def execStartRun (t : SI) (p : Packet) (s : State) : Host.Outcome State Fault Refusal := .next (s.packetIn t opStartRun p)

/-- STOP_RUN. -/
def execStopRun (t : SI) (p : Packet) (s : State) : Host.Outcome State Fault Refusal := .next (s.packetIn t opStopRun p)

/-- SET_DECODER. -/
def execSetDecoder (t : SI) (p : Packet) (s : State) : Host.Outcome State Fault Refusal := .next (s.packetIn t opSetDecoder p)

/-- CREATE_BOBBIN. -/
def execCreateBobbin (t : SI) (p : Packet) (s : State) : Host.Outcome State Fault Refusal := .next (s.packetIn t opCreateBobbin p)

/-- DESTROY_BOBBIN. -/
def execDestroyBobbin (t : SI) (p : Packet) (s : State) : Host.Outcome State Fault Refusal := .next (s.packetIn t opDestroyBobbin p)

/-- ROUTE. -/
def execRoute (t : SI) (p : Packet) (s : State) : Host.Outcome State Fault Refusal := .next (s.packetIn t opRoute p)

/-- REWIND. -/
def execRewind (t : SI) (p : Packet) (s : State) : Host.Outcome State Fault Refusal := .next (s.packetIn t opRewind p)

/-- SET_COMPRESSION. -/
def execSetCompression (t : SI) (p : Packet) (s : State) : Host.Outcome State Fault Refusal := .next (s.packetIn t opSetCompression p)

/-- SET_SIGNING. -/
def execSetSigning (t : SI) (p : Packet) (s : State) : Host.Outcome State Fault Refusal := .next (s.packetIn t opSetSigning p)

/-- REPLAY. -/
def execReplay (t : SI) (p : Packet) (s : State) : Host.Outcome State Fault Refusal := .next (s.packetIn t opReplay p)

/-- SET_DRAM_MAP. -/
def execSetDramMap (t : SI) (p : Packet) (s : State) : Host.Outcome State Fault Refusal := .next (s.packetIn t opSetDramMap p)

/-- TRAIN. -/
def execTrain (t : SI) (p : Packet) (s : State) : Host.Outcome State Fault Refusal := .next (s.packetIn t opTrain p)

/-- MIGRATE_RANK. -/
def execMigrateRank (t : SI) (p : Packet) (s : State) : Host.Outcome State Fault Refusal := .next (s.packetIn t opMigrateRank p)

/-- SCRUB. -/
def execScrub (t : SI) (p : Packet) (s : State) : Host.Outcome State Fault Refusal := .next (s.packetIn t opScrub p)

/-- SET_HK_SEQ. -/
def execSetHkSeq (t : SI) (p : Packet) (s : State) : Host.Outcome State Fault Refusal := .next (s.packetIn t opSetHkSeq p)

/-- HK_CAL. -/
def execHkCal (t : SI) (p : Packet) (s : State) : Host.Outcome State Fault Refusal := .next (s.packetIn t opHkCal p)

/-- GET_ATTESTATION. -/
def execGetAttestation (t : SI) (p : Packet) (s : State) : Host.Outcome State Fault Refusal := .next (s.packetIn t opGetAttestation p)

/-- ROTATE_ESK. -/
def execRotateEsk (t : SI) (p : Packet) (s : State) : Host.Outcome State Fault Refusal := .next (s.packetIn t opRotateEsk p)

/-- AUTH. -/
def execAuth (t : SI) (p : Packet) (s : State) : Host.Outcome State Fault Refusal := .next (s.packetIn t opAuth p)

/-- UPDATE_FIRMWARE. -/
def execUpdateFirmware (t : SI) (p : Packet) (s : State) : Host.Outcome State Fault Refusal := .next (s.packetIn t opUpdateFirmware p)

/-- ZEROIZE. -/
def execZeroize (t : SI) (p : Packet) (s : State) : Host.Outcome State Fault Refusal := .next (s.packetIn t opZeroize p)

/-- JOB_SUSPEND. -/
def execJobSuspend (t : SI) (p : Packet) (s : State) : Host.Outcome State Fault Refusal := .next (s.packetIn t opJobSuspend p)

/-- JOB_RESUME. -/
def execJobResume (t : SI) (p : Packet) (s : State) : Host.Outcome State Fault Refusal := .next (s.packetIn t opJobResume p)

/-- JOB_CANCEL. -/
def execJobCancel (t : SI) (p : Packet) (s : State) : Host.Outcome State Fault Refusal := .next (s.packetIn t opJobCancel p)

/-- JOB_STATUS. -/
def execJobStatus (t : SI) (p : Packet) (s : State) : Host.Outcome State Fault Refusal := .next (s.packetIn t opJobStatus p)

/-- READ_LOG. -/
def execReadLog (t : SI) (p : Packet) (s : State) : Host.Outcome State Fault Refusal := .next (s.packetIn t opReadLog p)

end Sys2Proof.Machine
end

