-- ==== Sys2Proof/Machine/Dispatch.lean ====
section
/-! DEFINITION. One arm per command: a direct call of its meaning, or its rejection by name. -/

namespace Sys2Proof.Machine

/-- What a command does to everything but the queue. -/
def exec (i : Instr) (s : State) : Host.Outcome State Fault Refusal :=
  match i with
  | .registerWrite t reg v form => Sys2Proof.Machine.execRegisterWrite t reg v form s
  | .rcFieldRead t what => Sys2Proof.Machine.execRcFieldRead t what s
  | .lowWordRead t off => Sys2Proof.Machine.execLowWordRead t off s
  | .timSnapSiLoRead t => Sys2Proof.Machine.execTimSnapSiLoRead t s
  | .bobRdWrite t b v => Sys2Proof.Machine.execBobRdWrite t b v s
  | .bobRelWrite t b v => Sys2Proof.Machine.execBobRelWrite t b v s
  | .bobMarkWrite t b v => Sys2Proof.Machine.execBobMarkWrite t b v s
  | .bobDupWrite t b v => Sys2Proof.Machine.execBobDupWrite t b v s
  | .ringEnable t r v => Sys2Proof.Machine.execRingEnable t r v s
  | .ringDisable t r v => Sys2Proof.Machine.execRingDisable t r v s
  | .sqTailWrite t r v => Sys2Proof.Machine.execSqTailWrite t r v s
  | .cqHeadWrite t r v => Sys2Proof.Machine.execCqHeadWrite t r v s
  | .hstWinDbHiWrite t v => Sys2Proof.Machine.execHstWinDbHiWrite t v s
  | .containmentRelease t => Sys2Proof.Machine.execContainmentRelease t s
  | .msixVectorUnmask t what => Sys2Proof.Machine.execMsixVectorUnmask t what s
  | .bar2Read t x kind => Sys2Proof.Machine.execBar2Read t x kind s
  | .busMasterEnableClear t => Sys2Proof.Machine.execBusMasterEnableClear t s
  | .busMasterEnableSet t => Sys2Proof.Machine.execBusMasterEnableSet t s
  | .d3hotEntry t => Sys2Proof.Machine.execD3hotEntry t s
  | .d0Entry t => Sys2Proof.Machine.execD0Entry t s
  | .functionLevelReset t => Sys2Proof.Machine.execFunctionLevelReset t s
  | .hotReset t linkDown => Sys2Proof.Machine.execHotReset t linkDown s
  | .fundamentalReset t => Sys2Proof.Machine.execFundamentalReset t s
  | .pcieLinkDown t => Sys2Proof.Machine.execPcieLinkDown t s
  | .pcieLinkUp t speed width flit => Sys2Proof.Machine.execPcieLinkUp t speed width flit s
  | .fatalErrorFreeze t cause => Sys2Proof.Machine.execFatalErrorFreeze t cause s
  | .completionReceived t tag st data => Sys2Proof.Machine.execCompletionReceived t tag st data s
  | .completionTimeout t tag => Sys2Proof.Machine.execCompletionTimeout t tag s
  | .tagQuarantineEnd t tag => Sys2Proof.Machine.execTagQuarantineEnd t tag s
  | .nop t p => Sys2Proof.Machine.execNop t p s
  | .getInfo t p => Sys2Proof.Machine.execGetInfo t p s
  | .resetRegion t p => Sys2Proof.Machine.execResetRegion t p s
  | .softReset t p => Sys2Proof.Machine.execSoftReset t p s
  | .setFailsafePolicy t p => Sys2Proof.Machine.execSetFailsafePolicy t p s
  | .setRef t p => Sys2Proof.Machine.execSetRef t p s
  | .setEpoch t p => Sys2Proof.Machine.execSetEpoch t p s
  | .setSt t p => Sys2Proof.Machine.execSetSt t p s
  | .setReturnPolicy t p => Sys2Proof.Machine.execSetReturnPolicy t p s
  | .schedule t p => Sys2Proof.Machine.execSchedule t p s
  | .unschedule t p => Sys2Proof.Machine.execUnschedule t p s
  | .setThreshold t p => Sys2Proof.Machine.execSetThreshold t p s
  | .setInputMode t p => Sys2Proof.Machine.execSetInputMode t p s
  | .setDeskew t p => Sys2Proof.Machine.execSetDeskew t p s
  | .calDeskew t p => Sys2Proof.Machine.execCalDeskew t p s
  | .calInterp t p => Sys2Proof.Machine.execCalInterp t p s
  | .setInterval t p => Sys2Proof.Machine.execSetInterval t p s
  | .loadPattern t p => Sys2Proof.Machine.execLoadPattern t p s
  | .arm t p => Sys2Proof.Machine.execArm t p s
  | .disarm t p => Sys2Proof.Machine.execDisarm t p s
  | .forceTack t p => Sys2Proof.Machine.execForceTack t p s
  | .setTrigout t p => Sys2Proof.Machine.execSetTrigout t p s
  | .setUnit t p => Sys2Proof.Machine.execSetUnit t p s
  | .setPortRole t p => Sys2Proof.Machine.execSetPortRole t p s
  | .cascadeDiscover t p => Sys2Proof.Machine.execCascadeDiscover t p s
  | .setReduction t p => Sys2Proof.Machine.execSetReduction t p s
  | .setLookback t p => Sys2Proof.Machine.execSetLookback t p s
  | .setWindowPolicy t p => Sys2Proof.Machine.execSetWindowPolicy t p s
  | .exportWindow t p => Sys2Proof.Machine.execExportWindow t p s
  | .startRun t p => Sys2Proof.Machine.execStartRun t p s
  | .stopRun t p => Sys2Proof.Machine.execStopRun t p s
  | .setDecoder t p => Sys2Proof.Machine.execSetDecoder t p s
  | .createBobbin t p => Sys2Proof.Machine.execCreateBobbin t p s
  | .destroyBobbin t p => Sys2Proof.Machine.execDestroyBobbin t p s
  | .route t p => Sys2Proof.Machine.execRoute t p s
  | .rewind t p => Sys2Proof.Machine.execRewind t p s
  | .setCompression t p => Sys2Proof.Machine.execSetCompression t p s
  | .setSigning t p => Sys2Proof.Machine.execSetSigning t p s
  | .replay t p => Sys2Proof.Machine.execReplay t p s
  | .setDramMap t p => Sys2Proof.Machine.execSetDramMap t p s
  | .train t p => Sys2Proof.Machine.execTrain t p s
  | .migrateRank t p => Sys2Proof.Machine.execMigrateRank t p s
  | .scrub t p => Sys2Proof.Machine.execScrub t p s
  | .setHkSeq t p => Sys2Proof.Machine.execSetHkSeq t p s
  | .hkCal t p => Sys2Proof.Machine.execHkCal t p s
  | .getAttestation t p => Sys2Proof.Machine.execGetAttestation t p s
  | .rotateEsk t p => Sys2Proof.Machine.execRotateEsk t p s
  | .auth t p => Sys2Proof.Machine.execAuth t p s
  | .updateFirmware t p => Sys2Proof.Machine.execUpdateFirmware t p s
  | .zeroize t p => Sys2Proof.Machine.execZeroize t p s
  | .jobSuspend t p => Sys2Proof.Machine.execJobSuspend t p s
  | .jobResume t p => Sys2Proof.Machine.execJobResume t p s
  | .jobCancel t p => Sys2Proof.Machine.execJobCancel t p s
  | .jobStatus t p => Sys2Proof.Machine.execJobStatus t p s
  | .readLog t p => Sys2Proof.Machine.execReadLog t p s
  | .jobDequeue t job => Sys2Proof.Machine.execJobDequeue t job s
  | .jobSuspendPoint t job => Sys2Proof.Machine.execJobSuspendPoint t job s
  | .jobEnd t job work => Sys2Proof.Machine.execJobEnd t job work s
  | .epochInPulse t fine rising cycles lost => Sys2Proof.Machine.execEpochInPulse t fine rising cycles lost s
  | .slewEnd t => Sys2Proof.Machine.execSlewEnd t s
  | .epochInMiss t => Sys2Proof.Machine.execEpochInMiss t s
  | .refclkAbsent t => Sys2Proof.Machine.execRefclkAbsent t s
  | .refFreqMeasurement t hz => Sys2Proof.Machine.execRefFreqMeasurement t hz s
  | .anchorBoundary t passes disagree => Sys2Proof.Machine.execAnchorBoundary t passes disagree s
  | .epochBoundary t => Sys2Proof.Machine.execEpochBoundary t s
  | .epochOutPulseEnd t => Sys2Proof.Machine.execEpochOutPulseEnd t s
  | .synthesiserLockLoss t => Sys2Proof.Machine.execSynthesiserLockLoss t s
  | .synthesiserRelock t => Sys2Proof.Machine.execSynthesiserRelock t s
  | .timeTransfer t port m => Sys2Proof.Machine.execTimeTransfer t port m s
  | .schedulerEntryDue t entry => Sys2Proof.Machine.execSchedulerEntryDue t entry s
  | .edgeDetected t ch balls glitch raw raw2 => Sys2Proof.Machine.execEdgeDetected t ch balls glitch raw raw2 s
  | .intervalTimeout t unit => Sys2Proof.Machine.execIntervalTimeout t unit s
  | .settleWindowEnd t ch => Sys2Proof.Machine.execSettleWindowEnd t ch s
  | .inputOutOfRange t ch => Sys2Proof.Machine.execInputOutOfRange t ch s
  | .outOfRangeEnd t ch => Sys2Proof.Machine.execOutOfRangeEnd t ch s
  | .deskewDoubtEnd t ch => Sys2Proof.Machine.execDeskewDoubtEnd t ch s
  | .burstSramResume t block => Sys2Proof.Machine.execBurstSramResume t block s
  | .burstSramParityError t block firstFrame lastFrame => Sys2Proof.Machine.execBurstSramParityError t block firstFrame lastFrame s
  | .flushIntervalExpiry t source => Sys2Proof.Machine.execFlushIntervalExpiry t source s
  | .selfVerifyComplete t region ok => Sys2Proof.Machine.execSelfVerifyComplete t region ok s
  | .stagingResume t region => Sys2Proof.Machine.execStagingResume t region s
  | .stagingDramWriteComplete t seg => Sys2Proof.Machine.execStagingDramWriteComplete t seg s
  | .loadIntervalEnd t => Sys2Proof.Machine.execLoadIntervalEnd t s
  | .slotEvaluation t q slots => Sys2Proof.Machine.execSlotEvaluation t q slots s
  | .disarmShutdownEnd t => Sys2Proof.Machine.execDisarmShutdownEnd t s
  | .trigInEdge t pin level fine => Sys2Proof.Machine.execTrigInEdge t pin level fine s
  | .trigOutAssert t pin => Sys2Proof.Machine.execTrigOutAssert t pin s
  | .trigOutPulseEnd t pin => Sys2Proof.Machine.execTrigOutPulseEnd t pin s
  | .cancelPattern t pin => Sys2Proof.Machine.execCancelPattern t pin s
  | .idle t port w => Sys2Proof.Machine.execIdle t port w s
  | .cascadeLinkDown t port cause => Sys2Proof.Machine.execCascadeLinkDown t port cause s
  | .retransmitTimeout t port => Sys2Proof.Machine.execRetransmitTimeout t port s
  | .armMessage t port m => Sys2Proof.Machine.execArmMessage t port m s
  | .disarmMessage t port m => Sys2Proof.Machine.execDisarmMessage t port m s
  | .cascadeCommandDue t => Sys2Proof.Machine.execCascadeCommandDue t s
  | .fire t port m => Sys2Proof.Machine.execFire t port m s
  | .basteMessage t port m => Sys2Proof.Machine.execBasteMessage t port m s
  | .sewMessage t port m => Sys2Proof.Machine.execSewMessage t port m s
  | .unpickMessage t port m => Sys2Proof.Machine.execUnpickMessage t port m s
  | .discover t port m => Sys2Proof.Machine.execDiscover t port m s
  | .report t port m => Sys2Proof.Machine.execReport t port m s
  | .armResult t port m => Sys2Proof.Machine.execArmResult t port m s
  | .isolated t port m => Sys2Proof.Machine.execIsolated t port m s
  | .rejoined t port m => Sys2Proof.Machine.execRejoined t port m s
  | .doubtMessage t port m => Sys2Proof.Machine.execDoubtMessage t port m s
  | .remoteBasteExpiry t origin number => Sys2Proof.Machine.execRemoteBasteExpiry t origin number s
  | .stateSampleComplete t region clock => Sys2Proof.Machine.execStateSampleComplete t region clock s
  | .statsWindowEnd t region => Sys2Proof.Machine.execStatsWindowEnd t region s
  | .windowSegmentRead t slot part kind => Sys2Proof.Machine.execWindowSegmentRead t slot part kind s
  | .windowClose t slot => Sys2Proof.Machine.execWindowClose t slot s
  | .runShutdownEnd t => Sys2Proof.Machine.execRunShutdownEnd t s
  | .decoderMessageComplete t engine => Sys2Proof.Machine.execDecoderMessageComplete t engine s
  | .cdrLockLoss t engine => Sys2Proof.Machine.execCdrLockLoss t engine s
  | .smbusTimeout t engine => Sys2Proof.Machine.execSmbusTimeout t engine s
  | .segmentHashComplete t stream => Sys2Proof.Machine.execSegmentHashComplete t stream s
  | .signatureIntervalExpiry t stream => Sys2Proof.Machine.execSignatureIntervalExpiry t stream s
  | .segmentDelivered t b badWords => Sys2Proof.Machine.execSegmentDelivered t b badWords s
  | .oweTimeout t b seg => Sys2Proof.Machine.execOweTimeout t b seg s
  | .backlogSegmentRead t b kind => Sys2Proof.Machine.execBacklogSegmentRead t b kind s
  | .rewindComplete t b => Sys2Proof.Machine.execRewindComplete t b s
  | .duplicateTimeout t b => Sys2Proof.Machine.execDuplicateTimeout t b s
  | .contextParityError t b => Sys2Proof.Machine.execContextParityError t b s
  | .dramReadComplete t port addr channel before kind ageNs => Sys2Proof.Machine.execDramReadComplete t port addr channel before kind ageNs s
  | .migrationBlockCopied t lost spareBad => Sys2Proof.Machine.execMigrationBlockCopied t lost spareBad s
  | .refreshInterval t => Sys2Proof.Machine.execRefreshInterval t s
  | .dimmTemperatureRead t celsius => Sys2Proof.Machine.execDimmTemperatureRead t celsius s
  | .selfRefreshEntry t => Sys2Proof.Machine.execSelfRefreshEntry t s
  | .selfRefreshExit t => Sys2Proof.Machine.execSelfRefreshExit t s
  | .dqsCompensation t => Sys2Proof.Machine.execDqsCompensation t s
  | .rowIdleClose t bank => Sys2Proof.Machine.execRowIdleClose t bank s
  | .patrolScrub t addr channel rank kind => Sys2Proof.Machine.execPatrolScrub t addr channel rank kind s
  | .logRetry t onChipOk dramOk => Sys2Proof.Machine.execLogRetry t onChipOk dramOk s
  | .tamperNAssert t => Sys2Proof.Machine.execTamperNAssert t s
  | .tamperNRelease t => Sys2Proof.Machine.execTamperNRelease t s
  | .svcEnAssert t => Sys2Proof.Machine.execSvcEnAssert t s
  | .svcEnDeassert t => Sys2Proof.Machine.execSvcEnDeassert t s
  | .svcUnlock t v => Sys2Proof.Machine.execSvcUnlock t v s
  | .zeroizationEraseComplete t => Sys2Proof.Machine.execZeroizationEraseComplete t s
  | .fikGenerated t => Sys2Proof.Machine.execFikGenerated t s
  | .authChallengeExpiry t ring => Sys2Proof.Machine.execAuthChallengeExpiry t ring s
  | .authLockoutEnd t => Sys2Proof.Machine.execAuthLockoutEnd t s
  | .firmwareSwapPoint t startOk => Sys2Proof.Machine.execFirmwareSwapPoint t startOk s
  | .seamUnsettled t seam region agree => Sys2Proof.Machine.execSeamUnsettled t seam region agree s
  | .seamUnsettledTimeout t seam => Sys2Proof.Machine.execSeamUnsettledTimeout t seam s
  | .seamOverrunDiscard t region => Sys2Proof.Machine.execSeamOverrunDiscard t region s
  | .seamClockStopped t seam region => Sys2Proof.Machine.execSeamClockStopped t seam region s
  | .seamClockStopTimeout t seam => Sys2Proof.Machine.execSeamClockStopTimeout t seam s
  | .seamClockResumed t seam => Sys2Proof.Machine.execSeamClockResumed t seam s
  | .regionWatchdog t region => Sys2Proof.Machine.execRegionWatchdog t region s
  | .regionIntakeEnd t region => Sys2Proof.Machine.execRegionIntakeEnd t region s
  | .regionWriteDrainEnd t region unfinished dropped => Sys2Proof.Machine.execRegionWriteDrainEnd t region unfinished dropped s
  | .regionReinitEnd t region => Sys2Proof.Machine.execRegionReinitEnd t region s
  | .temperatureCheck t celsius => Sys2Proof.Machine.execTemperatureCheck t celsius s
  | .supplyCheck t microvolts => Sys2Proof.Machine.execSupplyCheck t microvolts s
  | .configParityCheck t found copyBad => Sys2Proof.Machine.execConfigParityCheck t found copyBad s
  | .configParityRepair t values => Sys2Proof.Machine.execConfigParityRepair t values s
  | .controlCoreWatchdog t => Sys2Proof.Machine.execControlCoreWatchdog t s
  | .coreRestartComplete t => Sys2Proof.Machine.execCoreRestartComplete t s
  | .softResetComplete t failedTest => Sys2Proof.Machine.execSoftResetComplete t failedTest s
  | .hkReading t slice raw lost => Sys2Proof.Machine.execHkReading t slice raw lost s
  | .hkIntervalTrigger t => Sys2Proof.Machine.execHkIntervalTrigger t s
  | .hkWake t => Sys2Proof.Machine.execHkWake t s
  | .hkCalPass t slice gain integ zero fullScale => Sys2Proof.Machine.execHkCalPass t slice gain integ zero fullScale s
  | .configSpaceUp t => Sys2Proof.Machine.execConfigSpaceUp t s
  | .selfTestsComplete t failedTest => Sys2Proof.Machine.execSelfTestsComplete t failedTest s
  | .firmwareSelected t img => Sys2Proof.Machine.execFirmwareSelected t img s
  | .initialSynthLock t => Sys2Proof.Machine.execInitialSynthLock t s
  | .initialLockTimeout t => Sys2Proof.Machine.execInitialLockTimeout t s
  | .readySet t => Sys2Proof.Machine.execReadySet t s
  | .supplyCollapse t => Sys2Proof.Machine.execSupplyCollapse t s
  | .supplyRecovered t => Sys2Proof.Machine.execSupplyRecovered t s
  | .perstNRelease t => Sys2Proof.Machine.execPerstNRelease t s
  | .blockLockAchieved t port => Sys2Proof.Machine.execBlockLockAchieved t port s
  | .blockLockLoss t port => Sys2Proof.Machine.execBlockLockLoss t port s
  | .badCrcMessage t port cutThrough => Sys2Proof.Machine.execBadCrcMessage t port cutThrough s

end Sys2Proof.Machine
end

