-- ==== Sys2Proof/Safety.lean ====
section
/-! DEFINITION. What the statements call a safe state, and when a packet is accepted: the invariant that every step keeps, and the
conditions of R427, R434 and R435 on the state and the packet alone. -/

namespace Sys2Proof.Safety

open Sys2Proof.Machine

/-- The DRAM bytes that the model keeps are in canonical form. -/
def memoryCanonical (s : State) : Prop := Memory.wf s.dram.mem = true

/-- Command c, carried out on s, answers a next state of which P holds. -/
def completes (c : Instr) (s : State) (P : State → Prop) : Prop := ∃ s', exec c s = .next s' ∧ P s'

/-- Command c, carried out on s, answers a next state that differs from s in time only. -/
def doesNothing (c : Instr) (t : SI) (s : State) : Prop := exec c s = .next (s.moment t)

/-- The core runs and nothing waits for it: READY, no SOFT_RESET, no restart and no swap in progress, and no fetched packet of any ring
waits to be examined. -/
structure quiet (s : State) : Prop where
  ready : s.startup.ready = true
  step : s.startup.step = 8
  soft : s.safe.softReset = none
  up : s.safe.coreDown = false
  swap : s.safe.swapping = false
  waiting : s.cmd.rings.all (fun e => e.2.fetched.isEmpty) = true

/-- The state in which a packet that arrives at slot t is examined: one more packet of its ring has not been answered. -/
def entered (s : State) (t : SI) (p : Packet) : State :=
  (s.moment t).modRing p.ring.val (fun r => { r with unreplied := r.unreplied + 1 })

/-- The state in which an accepted packet takes effect: counted in ACCEPTED (R435). -/
def taken (s : State) (t : SI) (p : Packet) : State :=
  (entered s t p).modRing p.ring.val (fun r => { r with accepted := satInc 16 r.accepted })

/-- A packet of the row o arrives at slot t on a ring that takes packets, FENCE does not hold it back, and it passes every check of R435
without AT_ST, so that it takes effect at once. -/
structure accepted (s : State) (t : SI) (o : OpSpec) (p : Packet) : Prop where
  quiet : quiet s
  enabled : (s.ring p.ring.val).enable = true
  running : (s.ring p.ring.val).stopped = false
  fence : bit p.flags.toNat 0 = true → (s.ring p.ring.val).unreplied = 0
  early : o.early (entered s t p) (s.ring p.ring.val).role (packetCtx o.opcode p) p = none
  now : p.atSt = 0
  here : o.adapt (entered s t p) p = (p, false)
  late : o.late (entered s t p) (packetCtx o.opcode p) = none
  atOnce : o.defers (taken s t p) p.params = false

/-- The LINK_SEQ that follows the last message the port took (R183); the first one after the link comes up is the model's choice, 0
(notes/assumptions/57.md). -/
def nextSeq (s : State) (port : Nat) : BitVec 8 := if (s.port port).rxValid then (s.port port).rxSeq + 1 else 0

/-- The link of the port is up and message m is the next of its LINK_SEQ order, so that the port takes it (R183). -/
def takesMessage (s : State) (port : Nat) (m : CasMsg) : Prop := (s.port port).state = 2 ∧ m.linkSeq = nextSeq s port

/-- A broadcast message m that the unit takes is delivered to it (R188, R191): another unit's, and not on its way up through a child. -/
def delivers (s : State) (m : CasMsg) : Prop := m.origin ≠ s.cas.unitId ∧ ¬(m.dir = 0 ∧ s.cas.role = 2)

/-- A command of kind J has become a job (R441, R442): the next job ID, with the command's opcode and parameters, in state st. -/
def jobStarted (s s' : State) (opcode : Nat) (params : List Byte) (st : JobState) : Prop :=
  s'.cmd.nextJob = nextJobId s.cmd.nextJob ∧
    ∃ j ∈ s'.cmd.jobs, j.id = s.cmd.nextJob ∧ j.ctx.opcode = opcode ∧ j.ctx.params = params ∧ j.state = st

end Sys2Proof.Safety
end

