-- ==== Sys2Proof/Safety/Frames.lean ====
section
/-! DEFINITION. What the statements say of everything that a command leaves unchanged: the frame of a command that ends in answers, records and
ring fetches, and of one that only places records and raises events. -/

namespace Sys2Proof.Safety

open Sys2Proof.Machine

/-- s' is x but for what placing records and raising events changes: the writers' open and closed segments, staging, the bobbins' queues, the
recorded and pending events, the outward log, the contexts that are cached, and CLKREQ_N with a wake. Every register setting, every other part of the state and all DRAM
bytes are as in x. -/
structure onlyPlaces (x s' : State) : Prop where
  rest : s' = { x with
    freeCtr := s'.freeCtr
    obs := { x.obs with posted := s'.obs.posted }
    data := { x.data with
      sources := s'.data.sources, nextSeg := s'.data.nextSeg, staging := s'.data.staging, stgPeak := s'.data.stgPeak, trnBytes := s'.data.trnBytes }
    regions := s'.regions
    bob := { x.bob with tab := s'.bob.tab, cached := s'.bob.cached }
    events := { x.events with raised := s'.events.raised, pba := s'.events.pba }
    pcie := { x.pcie with wrBytes := s'.pcie.wrBytes, pmeStatus := s'.pcie.pmeStatus, wakeN := s'.pcie.wakeN, clkreq := s'.pcie.clkreq } }
  cfg : ∀ r, (s'.region r).cfg = (x.region r).cfg
  raised : ∀ n, n ∈ x.events.raised → n ∈ s'.events.raised
  posted : ∃ l, s'.obs.posted = l ++ x.obs.posted

/-- s' is x but for what answering commands changes: what onlyPlaces leaves open, the audit log, the rings and jobs, and the reads under way. -/
structure onlyAnswers (x s' : State) : Prop where
  rest : s' = { x with
    freeCtr := s'.freeCtr
    obs := { x.obs with posted := s'.obs.posted }
    data := { x.data with
      sources := s'.data.sources, nextSeg := s'.data.nextSeg, staging := s'.data.staging, stgPeak := s'.data.stgPeak, trnBytes := s'.data.trnBytes }
    regions := s'.regions
    bob := { x.bob with tab := s'.bob.tab, cached := s'.bob.cached }
    events := { x.events with raised := s'.events.raised, pba := s'.events.pba }
    pcie := { x.pcie with wrBytes := s'.pcie.wrBytes, pmeStatus := s'.pcie.pmeStatus, wakeN := s'.pcie.wakeN, clkreq := s'.pcie.clkreq }
    log := s'.log
    cmd := s'.cmd
    tags := s'.tags }
  cfg : ∀ r, (s'.region r).cfg = (x.region r).cfg
  raised : ∀ n, n ∈ x.events.raised → n ∈ s'.events.raised
  posted : ∃ l, s'.obs.posted = l ++ x.obs.posted

/-- Command c, carried out on s, answers a next state that differs from x only in answers, records and ring fetches. -/
def answers (c : Instr) (s x : State) : Prop := completes c s (onlyAnswers x)

/-- Command c, carried out on s, answers a next state that differs from x only in records placed and events raised. -/
def places (c : Instr) (s x : State) : Prop := completes c s (onlyPlaces x)

/-- What beginning or ending a doubt cause changes besides the records it places: the causes, FAULT_N, the pins, the time outputs, the cascade's ports and the
marks of the sequencer's own bastes (R196, R502 to R504). -/
def onlyDoubt (x s' : State) : Prop :=
  onlyPlaces { x with safe := s'.safe, pins := s'.pins, time := s'.time, cas := s'.cas, seq0 := s'.seq0 } s' ∧
    s'.time = { x.time with outActive := s'.time.outActive, refoutOn := s'.time.refoutOn } ∧
    s'.cas = { x.cas with ports := s'.cas.ports } ∧ s'.seq0 = { x.seq0 with bastes := s'.seq0.bastes }

/-- Doubt cause k begins between x and s' (R502 to R504): nothing happens where it holds already; the first cause raises event 0 and drives FAULT_N, a further one
raises event 2. -/
def causeBegins (k : Nat) (x s' : State) : Prop :=
  if x.safe.causes.getLsbD k then s' = x
  else onlyDoubt x s' ∧ s'.safe = { x.safe with
      causes := x.safe.causes ||| (1#8 <<< k), seen := x.safe.seen ||| (1#8 <<< k)
      doubtSi := if x.safe.causes = 0 then x.boundary else x.safe.doubtSi, fault := if x.safe.causes = 0 then true else x.safe.fault } ∧
    (if x.safe.causes = 0 then 0 ∈ s'.events.raised else 2 ∈ s'.events.raised)

/-- Doubt cause k ends between x and s' (R502 to R504): nothing happens where it does not hold; the last one raises event 1 and releases FAULT_N unless start-up
holds it. -/
def causeEnds (k : Nat) (x s' : State) : Prop :=
  if x.safe.causes.getLsbD k then
    let left := x.safe.causes &&& ~~~(1#8 <<< k)
    onlyDoubt x s' ∧ s'.safe = { x.safe with
      causes := left, fault := if left = 0 then x.startup.stopped || x.startup.collapsed else x.safe.fault } ∧
    (left = 0 → 1 ∈ s'.events.raised)
  else s' = x

/-- Packet p, of opcode op, has been answered on the way from s to s' with status st and result words of which W holds (R431): the entry is among what was
written out, or waits in the hold store behind what waited there before. -/
def replied (s s' : State) (p : Packet) (op st : Nat) (W : List Nat → Prop) : Prop :=
  ∃ (e : CplEntry) (l : List Posted) (h : List CplEntry), s'.obs.posted = l ++ s.obs.posted ∧ s'.cmd.hold = s.cmd.hold ++ h ∧
    (e ∈ h ∨ ∃ addr phase, Posted.completion e addr (e.bytes phase) ∈ l) ∧ e.ring = p.ring.val ∧ e.tag = p.tag ∧ e.opcode = op ∧ e.status = st ∧ W e.result

/-- The final entry of packet p, of opcode op, with status st and result words of which W holds, is given as `replied` says; while the log is unwritable and the
on-chip log fails too, it waits behind what waits there for the command's record (R447; notes/assumptions/33.md). -/
def ends (s s' : State) (p : Packet) (op st : Nat) (W : List Nat → Prop) : Prop :=
  if s.log.unwritable && s.log.onchipBad then
    ∃ l, s'.log.ends = s.log.ends ++ l ∧ ∃ e ∈ l, e.ctx.reply = some (p.ring.val, p.tag) ∧ e.ctx.opcode = op ∧ e.status = st ∧ W e.result
  else replied s s' p op st W

/-- The 64 bytes `sg` are the r and s of an ECDSA signature with SHA-256 over m under private key d, for some number of this message (R323, R460, R478,
R479); or they are zeros, where no number that the generator gave served (notes/assumptions/11.md). -/
def signed (d : BitVec 256) (m sg : List Byte) : Prop :=
  (∃ k r v, ecdsaPair d k m = some (r, v) ∧ sg = beBytes 32 r ++ beBytes 32 v) ∨ sg = List.replicate 64 0

/-- One row of R437: the opcode, whether a ring with no role, a User, a Crypto Officer or a Service ring may submit it, what happens in doubt (0 refused, 1 permitted,
2 only as R58 says), and whether it may carry an AT_ST. -/
structure OpcodeRow where
  opcode : Nat
  any : Bool
  user : Bool
  crypto : Bool
  service : Bool
  doubt : Nat
  sched : Bool
  deriving DecidableEq, Repr

/-- The table of R437. -/
def opcodeRows : List OpcodeRow :=
  [{ opcode := 0x0001, any := false, user := true, crypto := true, service := true, doubt := 1, sched := true },
   { opcode := 0x0002, any := true, user := true, crypto := true, service := true, doubt := 1, sched := false },
   { opcode := 0x0010, any := false, user := true, crypto := true, service := false, doubt := 1, sched := true },
   { opcode := 0x0011, any := false, user := false, crypto := true, service := false, doubt := 1, sched := true },
   { opcode := 0x0020, any := false, user := false, crypto := true, service := false, doubt := 1, sched := true },
   { opcode := 0x0101, any := false, user := true, crypto := true, service := false, doubt := 2, sched := true },
   { opcode := 0x0102, any := false, user := true, crypto := true, service := false, doubt := 0, sched := true },
   { opcode := 0x0103, any := false, user := true, crypto := true, service := false, doubt := 0, sched := true },
   { opcode := 0x0104, any := false, user := true, crypto := true, service := false, doubt := 0, sched := true },
   { opcode := 0x0110, any := false, user := true, crypto := true, service := false, doubt := 0, sched := false },
   { opcode := 0x0111, any := false, user := true, crypto := true, service := false, doubt := 1, sched := false },
   { opcode := 0x0201, any := false, user := true, crypto := true, service := false, doubt := 0, sched := true },
   { opcode := 0x0202, any := false, user := true, crypto := true, service := false, doubt := 0, sched := true },
   { opcode := 0x0203, any := false, user := true, crypto := true, service := false, doubt := 0, sched := true }] ++
  [{ opcode := 0x0210, any := false, user := true, crypto := true, service := false, doubt := 0, sched := true },
   { opcode := 0x0211, any := false, user := true, crypto := true, service := true, doubt := 1, sched := true },
   { opcode := 0x0220, any := false, user := true, crypto := true, service := false, doubt := 0, sched := true },
   { opcode := 0x0301, any := false, user := true, crypto := true, service := false, doubt := 0, sched := true },
   { opcode := 0x0310, any := false, user := true, crypto := true, service := false, doubt := 0, sched := true },
   { opcode := 0x0311, any := false, user := true, crypto := true, service := false, doubt := 1, sched := true },
   { opcode := 0x0312, any := false, user := true, crypto := true, service := false, doubt := 0, sched := true },
   { opcode := 0x0320, any := false, user := true, crypto := true, service := false, doubt := 0, sched := true },
   { opcode := 0x0401, any := false, user := true, crypto := true, service := false, doubt := 0, sched := true },
   { opcode := 0x0402, any := false, user := true, crypto := true, service := false, doubt := 0, sched := true },
   { opcode := 0x0410, any := false, user := true, crypto := true, service := false, doubt := 0, sched := true },
   { opcode := 0x0501, any := false, user := true, crypto := true, service := false, doubt := 0, sched := true },
   { opcode := 0x0502, any := false, user := true, crypto := true, service := false, doubt := 0, sched := true },
   { opcode := 0x0503, any := false, user := true, crypto := true, service := false, doubt := 0, sched := true }] ++
  [{ opcode := 0x0510, any := false, user := true, crypto := true, service := false, doubt := 0, sched := true },
   { opcode := 0x0520, any := false, user := true, crypto := true, service := false, doubt := 0, sched := true },
   { opcode := 0x0521, any := false, user := true, crypto := true, service := false, doubt := 1, sched := true },
   { opcode := 0x0601, any := false, user := true, crypto := true, service := false, doubt := 0, sched := true },
   { opcode := 0x0701, any := false, user := true, crypto := true, service := false, doubt := 0, sched := true },
   { opcode := 0x0702, any := false, user := true, crypto := true, service := false, doubt := 0, sched := true },
   { opcode := 0x0703, any := false, user := true, crypto := true, service := false, doubt := 0, sched := true },
   { opcode := 0x0704, any := false, user := true, crypto := true, service := false, doubt := 1, sched := true },
   { opcode := 0x0801, any := false, user := true, crypto := true, service := false, doubt := 0, sched := true },
   { opcode := 0x0802, any := false, user := false, crypto := true, service := false, doubt := 0, sched := true },
   { opcode := 0x0810, any := false, user := true, crypto := true, service := false, doubt := 0, sched := true },
   { opcode := 0x0901, any := false, user := true, crypto := true, service := false, doubt := 0, sched := true },
   { opcode := 0x0910, any := false, user := true, crypto := true, service := true, doubt := 0, sched := true },
   { opcode := 0x0911, any := false, user := true, crypto := true, service := true, doubt := 1, sched := true }] ++
  [{ opcode := 0x0912, any := false, user := true, crypto := true, service := true, doubt := 1, sched := true },
   { opcode := 0x0A01, any := false, user := true, crypto := true, service := false, doubt := 1, sched := true },
   { opcode := 0x0A10, any := false, user := true, crypto := true, service := true, doubt := 1, sched := true },
   { opcode := 0x0B01, any := false, user := true, crypto := true, service := true, doubt := 1, sched := false },
   { opcode := 0x0B02, any := false, user := false, crypto := true, service := false, doubt := 0, sched := true },
   { opcode := 0x0B03, any := true, user := true, crypto := true, service := true, doubt := 1, sched := false },
   { opcode := 0x0B10, any := false, user := false, crypto := true, service := false, doubt := 1, sched := false },
   { opcode := 0x0B20, any := false, user := true, crypto := true, service := true, doubt := 1, sched := false },
   { opcode := 0x0C01, any := false, user := true, crypto := true, service := true, doubt := 1, sched := false },
   { opcode := 0x0C02, any := false, user := true, crypto := true, service := true, doubt := 1, sched := false },
   { opcode := 0x0C03, any := false, user := true, crypto := true, service := true, doubt := 1, sched := false },
   { opcode := 0x0C04, any := false, user := true, crypto := true, service := true, doubt := 1, sched := false },
   { opcode := 0x0D01, any := false, user := true, crypto := true, service := true, doubt := 1, sched := false }]

/-- The row's opcodes permit the ring's role (R438). -/
def OpcodeRow.permits (x : OpcodeRow) (role : Nat) : Prop :=
  (role = 0 ∧ x.any = true) ∨ (role = 1 ∧ x.user = true) ∨ (role = 2 ∧ x.crypto = true) ∨ (role = 3 ∧ x.service = true)

/-- The command that a packet with this opcode is. -/
def packetCommand (op : Nat) (t : SI) (p : Packet) : Option Instr :=
  match op with
  | 0x0001 => some (.nop t p)
  | 0x0002 => some (.getInfo t p)
  | 0x0010 => some (.resetRegion t p)
  | 0x0011 => some (.softReset t p)
  | 0x0020 => some (.setFailsafePolicy t p)
  | 0x0101 => some (.setRef t p)
  | 0x0102 => some (.setEpoch t p)
  | 0x0103 => some (.setSt t p)
  | 0x0104 => some (.setReturnPolicy t p)
  | 0x0110 => some (.schedule t p)
  | 0x0111 => some (.unschedule t p)
  | 0x0201 => some (.setThreshold t p)
  | 0x0202 => some (.setInputMode t p)
  | 0x0203 => some (.setDeskew t p)
  | 0x0210 => some (.calDeskew t p)
  | 0x0211 => some (.calInterp t p)
  | 0x0220 => some (.setInterval t p)
  | 0x0301 => some (.loadPattern t p)
  | 0x0310 => some (.arm t p)
  | 0x0311 => some (.disarm t p)
  | 0x0312 => some (.forceTack t p)
  | 0x0320 => some (.setTrigout t p)
  | 0x0401 => some (.setUnit t p)
  | 0x0402 => some (.setPortRole t p)
  | 0x0410 => some (.cascadeDiscover t p)
  | 0x0501 => some (.setReduction t p)
  | 0x0502 => some (.setLookback t p)
  | 0x0503 => some (.setWindowPolicy t p)
  | 0x0510 => some (.exportWindow t p)
  | 0x0520 => some (.startRun t p)
  | 0x0521 => some (.stopRun t p)
  | 0x0601 => some (.setDecoder t p)
  | 0x0701 => some (.createBobbin t p)
  | 0x0702 => some (.destroyBobbin t p)
  | 0x0703 => some (.route t p)
  | 0x0704 => some (.rewind t p)
  | 0x0801 => some (.setCompression t p)
  | 0x0802 => some (.setSigning t p)
  | 0x0810 => some (.replay t p)
  | 0x0901 => some (.setDramMap t p)
  | 0x0910 => some (.train t p)
  | 0x0911 => some (.migrateRank t p)
  | 0x0912 => some (.scrub t p)
  | 0x0A01 => some (.setHkSeq t p)
  | 0x0A10 => some (.hkCal t p)
  | 0x0B01 => some (.getAttestation t p)
  | 0x0B02 => some (.rotateEsk t p)
  | 0x0B03 => some (.auth t p)
  | 0x0B10 => some (.updateFirmware t p)
  | 0x0B20 => some (.zeroize t p)
  | 0x0C01 => some (.jobSuspend t p)
  | 0x0C02 => some (.jobResume t p)
  | 0x0C03 => some (.jobCancel t p)
  | 0x0C04 => some (.jobStatus t p)
  | 0x0D01 => some (.readLog t p)
  | _ => none

end Sys2Proof.Safety
end

