-- ==== Sys2Proof/Certificates/Slice0/Obligations.lean ====
section
/-! DEFINITION. The statements for the provers: what the block and each command do, from the rules of the spec. A statement names in its docstring the rules it
rests on; where a clause rests on a choice of the model it names the log entry. The packet commands' statements take `accepted`, the conditions of R427, R434 and R435
on the state and the packet alone. -/

open Sys2Proof Sys2Proof.Machine Sys2Proof.Safety

/-! ### The block as a whole -/

/-- One step runs the command at the front of the queue on the state that holds the queue's rest. -/
def Obligations.StepRunsFrontCommand : Prop :=
  ∀ (s : State) (c : Instr) (rest : List Instr), step { s with pending := c :: rest } = exec c { s with pending := rest }

/-- Every step answers a next state, whatever the state and whatever command is at the front: no rule of the spec stops the block. It takes one command from the front
of the queue and leaves the others in their order, and with none waiting it idles: the model's queue (notes/assumptions/1.md, notes/assumptions/3.md). -/
def Obligations.StepsTakeOneCommand : Prop :=
  (∀ s : State, s.pending = [] → step s = .next s) ∧
  (∀ s : State, ∃ s', step s = .next s') ∧
  (∀ (s s' : State) (c : Instr) (rest : List Instr), s.pending = c :: rest → step s = .next s' → s'.pending = rest)

/-- The DRAM bytes that the model keeps stay in canonical form: addresses rising, no entry equal to what an unlisted address reads as (notes/assumptions/10.md). -/
def Obligations.DramBytesStayCanonical : Prop :=
  ∀ s s' : State, memoryCanonical s → step s = .next s' → memoryCanonical s'

/-- R11: SI never decreases, whatever the command and the state; while the sample clock runs, a command that happens at a later slot t finds SI at t; SI is 0 again only after a fundamental reset (power-on, PERST_N, a collapsed supply)
and at the end of start-up step 5, where the sample clock starts and SI starts at 0 (R534, R536, R538). -/
def Obligations.SlotIndexNeverDecreases : Prop :=
  (∀ (s s' : State) (c : Instr) (rest : List Instr), s.pending = c :: rest →
    (∀ t, c ≠ .fundamentalReset t) → (∀ t, c ≠ .supplyCollapse t) →
    (∀ t, c ≠ .initialSynthLock t ∨ s.startup.step ≠ 5) → (∀ t, c ≠ .initialLockTimeout t ∨ s.startup.step ≠ 5) →
    step s = .next s' → s.time.si ≤ s'.time.si) ∧
  (∀ (s : State) (t : SI), s.time.running = true → s.time.si ≤ t → (s.moment t).time.si = t) ∧
  (∀ (s : State) (t : SI), completes (.fundamentalReset t) s (fun s' => s'.time.si = 0 ∧ s'.time.running = false ∧ s'.startup.step = 1)) ∧
  (∀ (s : State) (t : SI), completes (.supplyCollapse t) s (fun s' => s'.time.si = 0 ∧ s'.time.running = false ∧ s'.startup.step = 1)) ∧
  (∀ (s : State) (t : SI), s.startup.step = 5 →
    completes (.initialSynthLock t) s (fun s' => s'.time.si = 0 ∧ s'.time.running = true ∧ s'.startup.step = 6) ∧
    completes (.initialLockTimeout t) s (fun s' => s'.time.si = 0 ∧ s'.time.running = true ∧ s'.startup.step = 6 ∧ s'.safe.causes = s.safe.causes ||| 1))

/-- What the spec's register tables give for reset: the sequencers, counters and modes at 0, threshold code 1489, MAX_SPAN 4,096, PIN_LIMIT_PCT 50,
shares of 16, CE_THRESH 16, PATROL_HOURS 24, RETAIN 1, quiet seams, an unarmed and empty device. -/
def Obligations.ResetLeavesRegisterDefaults : Prop :=
  let s := State.reset
  memoryCanonical s ∧ s.pending = [] ∧ s.startup.ready = false ∧ s.time.si = 0 ∧ s.time.tgen = 0 ∧ s.time.state = .free ∧
  (∀ ch, (s.cell ch).thresh = 1489 ∧ (s.cell ch).deskew = 0 ∧ (s.cell ch).hyst = 0 ∧ (s.cell ch).enable = false ∧ (s.cell ch).calLane = 3) ∧
  (∀ n, (s.ivl n).maxSpan = 4096 ∧ (s.ivl n).enable = false) ∧
  s.cap.pinLimit = 50 ∧ s.cap.share = [16, 16, 16, 16] ∧ s.cap.runState = 0 ∧ s.seq0.armed = false ∧ s.seq1.armed = false ∧
  s.dram.ceThresh = 16 ∧ s.dram.patrolHours = 24 ∧ s.dram.srIdleUs = 10 ∧ s.dram.trained = false ∧
  s.pcie.retain = true ∧ s.pcie.bme = false ∧ s.pcie.msixEn = false ∧ s.log.onchipOnly = true ∧ s.safe.quiet = true ∧ s.safe.causes = 0 ∧
  s.safe.supplyTol = 5 ∧ s.hk.mainsNs = 20000000 ∧ s.hk.calPeriod = 60 ∧ s.hk.calSlice = 3 ∧ s.bob.tab = [] ∧ s.cmd.rings = []

/-! ### Host accesses to registers -/

/-- R5, R6, R9, R10, R398, R399, R401, R402, R407: a write of a register with no host-writable field is discarded; one of a host-writable register that is not a single aligned DW with
all byte enables, and every BAR2 write, is discarded and counted in BAR_ERR. In a W1C field each bit written as 1 is cleared and the others stay, as does one that is set at the same
moment; the read of an RC field returns the counters and clears them, but for what is counted at the same moment, which it neither returns nor clears. Nothing else changes but what
the rings were about to fetch. The IDs of configuration space and the MSI-X structure of BAR4 read as the rules give them. The operand `raced`, which names what occurs at the moment
of the access, is the model's (notes/assumptions/53.md). A read of two DWs answers the lower register, and one further DW. R399: while configuration requests are not answered, one is
met with Request Retry Status where the link is up. -/
def Obligations.RegisterAccesses : Prop :=
  (∀ (s : State) (t : SI) (o : Nat) (v raced : Word) (whole : Bool),
    (o < 0x10000 ∨ (0x20000 ≤ o ∧ o < 0xA0000) ∨ (0xD0000 ≤ o ∧ o < 0xE0000) ∨ (0xF0000 ≤ o ∧ o < 0x100000) ∨ 0x900000 ≤ o →
      exec (.registerWrite t (.bar0 o) v ⟨whole, raced⟩) s = .next (s.moment t).pump) ∧
    (s.barWrites = false → exec (.registerWrite t (.bar0 o) v ⟨whole, raced⟩) s = .next (s.moment t).pump) ∧
    (s.barWrites = true → hostWritable (o / 4 * 4) = true → (whole = false ∨ o % 4 ≠ 0) →
      exec (.registerWrite t (.bar0 o) v ⟨whole, raced⟩) s =
        .next ({ (s.moment t) with pcie := { s.pcie with barErr := satInc 16 s.pcie.barErr } } : State).pump) ∧
    (s.barAnswers = true → exec (.registerWrite t (.bar2 o) v ⟨whole, raced⟩) s =
      .next { (s.moment t) with pcie := { s.pcie with barErr := satInc 16 s.pcie.barErr } })) ∧
  (∀ (s : State) (t : SI) (v raced : Word), s.barWrites = true →
    let clears := fun (k : Nat) => v.getLsbD k && !raced.getLsbD k
    exec (.registerWrite t (.bar0 0x10000) v ⟨true, raced⟩) s =
      .next ({ (s.moment t) with safe := { s.safe with seen := s.safe.seen &&& ~~~(BitVec.ofNat 8 ((v &&& ~~~raced).toNat / 65536)) } } : State).pump ∧
    exec (.registerWrite t (.bar0 0xA0000) v ⟨true, raced⟩) s =
      .next ({ (s.moment t) with pcie := { s.pcie with winRange := s.pcie.winRange && !clears 13 } } : State).pump ∧
    exec (.registerWrite t (.bar0 0xC0000) v ⟨true, raced⟩) s =
      .next ({ (s.moment t) with sec := { s.sec with tamperLatched := s.sec.tamperLatched && !clears 29 } } : State).pump ∧
    (∀ k, k < 24 → exec (.registerWrite t (.bar0 (0xA0100 + 4 * k)) v ⟨true, raced⟩) s =
      .next ({ (s.moment t) with events := { s.events with
        raised := s.events.raised.filter (fun n => !(decide (n / 32 = k) && clears (n % 32))) } } : State).pump)) ∧
  (∀ (s : State) (t : SI), s.pcie.configUp = true → s.pcie.linkUp = true → s.pcie.d3hot = false → s.startup.ready = true →
    exec (.rcFieldRead t ⟨.bar0 0xA0004, 0⟩) s = .next { (s.moment t) with
      obs := { s.obs with readData := w32 (s.pcie.cto % 65536 * 65536 + s.pcie.lateCpl % 65536), readPoisoned := false }
      pcie := { s.pcie with cto := 0, lateCpl := 0 } } ∧
    exec (.rcFieldRead t ⟨.bar0 0xA0008, 0⟩) s = .next { (s.moment t) with
      obs := { s.obs with
        readData := w32 (s.pcie.cntLinkDown % 256 * 16777216 + s.pcie.cntHotReset % 256 * 65536 + s.pcie.cntFlr % 256 * 256 + s.pcie.cntFreeze % 256)
        readPoisoned := false }
      pcie := { s.pcie with cntLinkDown := 0, cntHotReset := 0, cntFlr := 0, cntFreeze := 0 } } ∧
    exec (.rcFieldRead t ⟨.bar0 0xA000C, 0⟩) s = .next { (s.moment t) with
      obs := { s.obs with readData := w32 (s.pcie.badCpl % 65536 * 65536 + s.pcie.barErr % 65536), readPoisoned := false }
      pcie := { s.pcie with badCpl := 0, barErr := 0 } } ∧
    (∀ h l : Nat, h ≤ s.pcie.cto → l ≤ s.pcie.lateCpl → s.pcie.cto < 65536 → s.pcie.lateCpl < 65536 →
      exec (.rcFieldRead t ⟨.bar0 0xA0004, (w32 (65536 * h + l))⟩) s = .next { (s.moment t) with
        obs := { s.obs with readData := w32 ((s.pcie.cto - h) * 65536 + (s.pcie.lateCpl - l)), readPoisoned := false }
        pcie := { s.pcie with cto := h, lateCpl := l } })) ∧
  (∀ (s : State) (t : SI) (raced : Word),
    let reads := fun (a : ReadAddr) (v : Nat) => exec (.rcFieldRead t ⟨a, raced⟩) s = .next { (s.moment t) with
      obs := { s.obs with readData := w32 v, readPoisoned := false } }
    (s.configAnswers = true → reads (.config .deviceVendor) (0x1024 * 65536 + Config.vendorId.toNat) ∧
      reads (.config .classRevision) (0x11800000 + Config.revision.toNat) ∧
      reads (.config .subsystem) Config.subsystem.toNat ∧ reads (.config .aerUncorrectableStatus) s.pcie.aerStatus.toNat) ∧
    (s.configAnswers = false → s.pcie.linkUp = false → ∀ x, exec (.rcFieldRead t ⟨.config x, raced⟩) s = .next (s.moment t)) ∧
    (s.configAnswers = false → s.pcie.linkUp = true → ∀ x, exec (.rcFieldRead t ⟨.config x, raced⟩) s = .next ((s.moment t).post .retryStatus)) ∧
    (s.barAnswers = true → ∀ (o : Nat) (racedHigh : Word), o % 8 = 0 → completes (.rcFieldRead t ⟨.two o racedHigh, raced⟩) s (fun s' => ∃ a : State,
      exec (.rcFieldRead t ⟨.bar0 o, raced⟩) s = .next a ∧ s'.obs.readData = a.obs.readData ∧ s'.obs.readMore.length = 1)) ∧
    (s.pcie.configUp = true → s.pcie.linkUp = true → s.pcie.d3hot = false →
      (∀ v, v < 2048 → reads (.bar4 (16 * v + 12)) (b2n ((tfind s.events.table v).getD {}).masked)) ∧
      (∀ n, n < 768 → reads (.bar4 (0xC000 + 4 * n)) (b2n ((tfind s.events.map n).getD {}).enable * 2 ^ 31 +
        b2n ((tfind s.events.map n).getD {}).wake * 2 ^ 30 + ((tfind s.events.map n).getD {}).vector % 2048))))

/-- R8: the read of the low word of a 64-bit register latches its high word at the same instant; a read of the high word returns the latched value,
whatever has changed since, and leaves it latched; with no low-word read before, it returns 0. -/
def Obligations.HighWordsAreLatched : Prop :=
  (∀ (s : State) (t : SI) (o : Nat), o % 4 = 0 → isLow o = true →
    s.pcie.configUp = true → s.pcie.linkUp = true → s.pcie.d3hot = false → s.startup.ready = true →
    completes (.lowWordRead t o) s (fun s' => s'.obs.readData = w32 ((s.moment t).regLive o) ∧
      tfind s'.obs.latches (o + 4) = some (w32 ((s.moment t).regLive (o + 4))))) ∧
  (∀ (s : State) (t : SI) (o : Nat), o % 4 = 0 → isLow o = true →
    s.pcie.configUp = true → s.pcie.linkUp = true → s.pcie.d3hot = false → s.startup.ready = true → ∀ raced,
    completes (.rcFieldRead t ⟨.bar0 (o + 4), raced⟩) s (fun s' => s'.obs.readData = (tfind s.obs.latches (o + 4)).getD 0 ∧ s'.obs.latches = s.obs.latches)) ∧
  State.reset.obs.latches = [] ∧
  isLow 0x10004 = true ∧ isLow 0xA0020 = true ∧ isLow 0xB0408 = true ∧ isLow 0xB0410 = true ∧ isLow 0x90018 = true ∧ isLow 0xB0000 = true ∧
  isLow 0xB0008 = true

/-! ### Command rings (13_command_interface.md) -/

/-- R427: ENABLE written as 1 with sizes in range on a disabled ring starts it with every pointer at 0 and no role bound; with a field out of range the
write is discarded and sets CFG_ERR; on an enabled ring it is discarded and sets PTR_ERR. ENABLE written as 0 stops fetching and unbinds the ring.
R428: on a ring enabled or not, SQ_TAIL' is taken exactly when both distances hold, CQ_HEAD' exactly when it does not pass what was written; any other write is discarded and
sets PTR_ERR. Distances are modulo twice the ring's size. -/
def Obligations.CommandRings : Prop :=
  (∀ (s : State) (t : SI) (r : Fin 16) (v : Word), quiet s → s.barWrites = true →
    ((s.ring r.val).enable = false → ringSizesOk (v.toNat % 2 ^ 31) = true → completes (.ringEnable t r v) s (fun s' =>
      let x := s'.ring r.val
      x.enable = true ∧ x.role = 0 ∧ x.sqTail = 0 ∧ x.sqHead = 0 ∧ x.cqTail = 0 ∧ x.cqHead = 0 ∧ x.stopped = false ∧
        x.cqLog2 = bits v.toNat 20 16 ∧ x.sqLog2 = bits v.toNat 12 8 ∧ x.sqBase = (s.ring r.val).sqBase ∧ x.cqBase = (s.ring r.val).cqBase)) ∧
    ((s.ring r.val).enable = false → ringSizesOk (v.toNat % 2 ^ 31) = false →
      answers (.ringEnable t r v) s (s.moment t) ∧ completes (.ringEnable t r v) s (fun s' => ∃ b,
        s'.ring r.val = { (s.ring r.val) with cfgErr := true, fetching := b })) ∧
    ((s.ring r.val).enable = true →
      answers (.ringEnable t r v) s (s.moment t) ∧ completes (.ringEnable t r v) s (fun s' => ∃ b,
        s'.ring r.val = { (s.ring r.val) with ptrErr := true, fetching := b })) ∧
    ((s.ring r.val).enable = true → completes (.ringDisable t r v) s (fun s' =>
      let x := s'.ring r.val
      x.enable = false ∧ x.bound = 0 ∧ x.fetching = false ∧ s'.mayFetch r.val = false ∧ x.sqBase = (s.ring r.val).sqBase ∧
        x.cqBase = (s.ring r.val).cqBase ∧ s'.cmd.jobs.length = s.cmd.jobs.length))) ∧
  (∀ (s : State) (t : SI) (r : Fin 16) (v : Word), quiet s → s.barWrites = true →
    let x := s.ring r.val
    let n := 2 ^ x.sqLog2
    let m := 2 ^ x.cqLog2
    let tail := v.toNat % 2 ^ 17
    let head := v.toNat % 2 ^ 18
    let dist := fun (w a b : Nat) => ((a : Int) - (b : Int)) % (w : Int)
    ((tail < 2 * n ∧ dist (2 * n) tail x.sqHead ≤ n ∧ dist (2 * n) tail x.sqTail ≤ n - dist (2 * n) x.sqTail x.sqHead) →
      completes (.sqTailWrite t r v) s (fun s' => ∃ b, s'.ring r.val = { x with sqTail := tail, fetching := b })) ∧
    (¬(tail < 2 * n ∧ dist (2 * n) tail x.sqHead ≤ n ∧ dist (2 * n) tail x.sqTail ≤ n - dist (2 * n) x.sqTail x.sqHead) →
      completes (.sqTailWrite t r v) s (fun s' => ∃ b, s'.ring r.val = { x with ptrErr := true, fetching := b })) ∧
    answers (.sqTailWrite t r v) s (s.moment t) ∧
    ((head < 2 * m ∧ dist (2 * m) x.cqTail head ≤ dist (2 * m) x.cqTail x.cqHead) →
      completes (.cqHeadWrite t r v) s (fun s' => (s'.ring r.val).cqHead = head ∧ (s'.ring r.val).ptrErr = x.ptrErr)) ∧
    (¬(head < 2 * m ∧ dist (2 * m) x.cqTail head ≤ dist (2 * m) x.cqTail x.cqHead) →
      completes (.cqHeadWrite t r v) s (fun s' => (s'.ring r.val).cqHead = x.cqHead ∧ (s'.ring r.val).ptrErr = true)) ∧
    answers (.cqHeadWrite t r v) s (s.moment t))

/-! ### The PCIe endpoint (12_host_interface.md) -/

/-- R402, R403, R406: HST_WIN_DB_LO alone moves nothing; the write of HST_WIN_DB_HI moves the window to the 2 MiB below the two halves. A BAR2 read
answers DRAM at the window base plus x; outside the usable range, 0 with WIN_RANGE and event 207; before READY, 0; a word that carries a marker or is
uncorrectable comes poisoned; every BAR2 write is discarded and counted in BAR_ERR. R370, R377, R378, R380, R382: the read accesses its bank and wakes the DRAM from self-refresh; a
corrected word counts in its rank's CE_CNT, an uncorrectable one in UE_CNT with event 161 and is marked, and a poisoned answer raises event 172 at most once per anchor interval. A
clean read of a woken DRAM changes nothing else but the count that numbers free values. -/
def Obligations.WindowShowsDram : Prop :=
  ∀ (s : State) (t : SI) (v : Word) (x : Fin 1073741824),
    let a := s.pcie.winBase + x.val
    let outside := s.dram.usable * 2 ^ 30 ≤ a ∨ (17 ≤ s.dram.usable ∧ s.dram.reserved + 0x430000000 ≤ a)
    let marked := s.dram.isUnbacked a || (tfind s.dram.markers (a / 8 * 8)).isSome
    (s.barWrites = true → exec (.registerWrite t (.bar0 0xA0028) v ⟨true, 0⟩) s = .next ({ (s.moment t) with pcie := { s.pcie with dbLo := v } } : State).pump) ∧
    (s.barWrites = true → exec (.hstWinDbHiWrite t v) s =
      .next { (s.moment t) with pcie := { s.pcie with winBase := (v.toNat * 2 ^ 32 + s.pcie.dbLo.toNat) / 2 ^ 21 * 2 ^ 21 } }) ∧
    (s.barWrites = false → exec (.hstWinDbHiWrite t v) s = .next (s.moment t)) ∧
    (s.barAnswers = true → ∀ (o : Nat) (w raced : Word) (whole : Bool), exec (.registerWrite t (.bar2 o) w ⟨whole, raced⟩) s =
      .next { (s.moment t) with pcie := { s.pcie with barErr := satInc 16 s.pcie.barErr } }) ∧
    (s.barAnswers = true → s.startup.ready = false → ∀ k, exec (.bar2Read t x k) s =
      .next { (s.moment t) with obs := { s.obs with readData := 0, readPoisoned := false } }) ∧
    (s.barAnswers = true → s.startup.ready = true → outside → ∀ k, exec (.bar2Read t x k) s =
      .next (({ (s.moment t) with
        obs := { s.obs with readData := 0, readPoisoned := false }, pcie := { s.pcie with winRange := true } } : State).raise 207)) ∧
    (s.barAnswers = true → s.startup.ready = true → ¬outside → s.dram.selfRefresh = false → marked = false → exec (.bar2Read t x .clean) s =
      .next { (s.moment t) with
        obs := { s.obs with readData := s.dramWord a, readPoisoned := false }
        dram := s.dram.touch a (s.moment t).time.si false false
        freeCtr := s.freeCtr + 1 }) ∧
    (s.barAnswers = true → s.startup.ready = true → ¬outside → ∀ k,
      let bad := marked || decide (k ≠ .clean ∧ k ≠ .corrected)
      let c := (s.dram.split a).ch
      let r := s.dram.serving a
      completes (.bar2Read t x k) s (fun s' => s'.obs.readData = s.dramWord a ∧ s'.obs.readPoisoned = bad ∧ s'.dram.selfRefresh = false ∧
        (s.dram.selfRefresh = true → 170 ∈ s'.events.raised) ∧
        (bad = true → s.dram.poisonEvent ≠ some ((s.moment t).time.si / 2 ^ 20) → 172 ∈ s'.events.raised) ∧
        (marked = false → k = .corrected → (s'.dram.rank c r).ce = satInc 32 (s.dram.rank c r).ce) ∧
        (marked = false → k = .uncorrectable → (s'.dram.rank c r).ue = satInc 8 (s.dram.rank c r).ue ∧ 161 ∈ s'.events.raised ∧
          tfind s'.dram.markers (a / 64 * 64) = some 1)))

/-- R408, R414: a raised event n sets bit n of HST_EVSTAT. With ENABLE, a vector whose pending bit is set merges it; one that is masked or blocked becomes pending; otherwise
one message leaves. Nothing else changes, but that in D3hot an event with WAKE is also a wake, by WAKE_N where the link is down, with event 206.
R408: unmasking a vector or the function, or enabling MSI-X, sends exactly the messages whose pending bits are set and whose vectors are now open,
and clears those bits. -/
def Obligations.EventsAndMessages : Prop :=
  (∀ (s : State) (n : Nat),
    let m := (tfind s.events.map n).getD {}
    let masked := ((tfind s.events.table m.vector).getD {}).masked
    let shut := s.pcie.msixEn = false ∨ s.pcie.fnMask = true ∨ masked = true ∨
      s.pcie.bme = false ∨ s.pcie.d3hot = true ∨ s.pcie.linkUp = false ∨ s.pcie.frozen = true
    let recorded : State := { s with events := { s.events with raised := ninsert s.events.raised n } }
    n ∈ (s.raise n).events.raised ∧
    ((m.wake = false ∨ s.pcie.d3hot = false ∨ s.pcie.pmeEn = false ∨ s.pcie.frozen = true) →
      (m.enable = false → s.raise n = recorded) ∧
      (m.enable = true → m.vector ∈ s.events.pba → s.raise n = recorded) ∧
      (m.enable = true → m.vector ∉ s.events.pba → shut →
        s.raise n = { recorded with events := { recorded.events with pba := ninsert s.events.pba m.vector } }) ∧
      (m.enable = true → m.vector ∉ s.events.pba → ¬shut →
        s.raise n = { recorded with
          obs := { s.obs with posted := .msix m.vector :: s.obs.posted }, pcie := { s.pcie with wrBytes := s.pcie.wrBytes + 4 } })) ∧
    ((m.wake = true ∧ s.pcie.d3hot = true ∧ s.pcie.pmeEn = true ∧ s.pcie.frozen = false) →
      (s.raise n).pcie.pmeStatus = true ∧ (s.raise n).pcie.wakeN = (s.pcie.wakeN || !s.pcie.linkUp) ∧ 206 ∈ (s.raise n).events.raised ∧
      .wake ∈ (s.raise n).obs.posted)) ∧
  (∀ (s : State) (t : SI),
    let sent := fun (x : State) => ({ x with
      events := { x.events with pba := x.events.pba.filter (fun v => !x.vectorOpen v) }
      pcie := { x.pcie with wrBytes := x.pcie.wrBytes + 4 * (x.events.pba.filter x.vectorOpen).length }
      obs := { x.obs with posted := ((x.events.pba.filter x.vectorOpen).reverse.map Posted.msix) ++ x.obs.posted } } : State)
    (∀ v : Fin 2048, s.msixWrites = true → exec (.msixVectorUnmask t (.vector v)) s = .next (sent { (s.moment t) with
      events := { s.events with table := tmod s.events.table v.val {} (fun e => { e with masked := false }) } })) ∧
    (s.configAnswers = true → exec (.msixVectorUnmask t .function) s = .next (sent { (s.moment t) with pcie := { s.pcie with fnMask := false } })) ∧
    (s.configAnswers = true → exec (.msixVectorUnmask t .enable) s = .next (sent { (s.moment t) with pcie := { s.pcie with msixEn := true } })))

/-- R413, R414, R426: Bus Master Enable cleared raises 202 and, with no read outstanding, sets DMA_QUIESCED and raises 203; set again it clears
DMA_QUIESCED and delivery resumes. D3hot entered raises 204, D0 re-entered 205; no state is lost. Where software lets the reference clock go in L1, CLKREQ_N is released with it
(notes/assumptions/35.md). R399: a configuration request that is not answered is met with Request Retry Status where the link is up. The link down raises 193, up 192.
R412: while Bus Master Enable is 0, the function is in D3hot, the link is down or containment is in force, no ring is fetched, no read is issued and no
completion entry is written; the entry waits, and a raised event sends no message. -/
def Obligations.HostLinkAndDelivery : Prop :=
  (∀ (s : State) (t : SI),
    (s.configAnswers = false → ∀ c ∈ ([.busMasterEnableClear t, .busMasterEnableSet t, .d3hotEntry t, .d0Entry t, .functionLevelReset t] : List Instr),
      exec c s = .next (if s.pcie.linkUp then (s.moment t).post .retryStatus else s.moment t)) ∧
    (s.configAnswers = true → s.pcie.bme = true →
      (s.tags.outstanding = [] → s.pcie.quiesced = false → exec (.busMasterEnableClear t) s =
        .next (({ (({ (s.moment t) with pcie := { s.pcie with bme := false } } : State).raise 202) with
          pcie := { (({ (s.moment t) with pcie := { s.pcie with bme := false } } : State).raise 202).pcie with quiesced := true } } : State).raise 203)) ∧
      (s.tags.outstanding ≠ [] → exec (.busMasterEnableClear t) s =
        .next (({ (s.moment t) with pcie := { s.pcie with bme := false } } : State).raise 202))) ∧
    (quiet s → s.configAnswers = true → s.pcie.bme = false →
      answers (.busMasterEnableSet t) s { (s.moment t) with pcie := { s.pcie with bme := true, quiesced := false } }) ∧
    (s.configAnswers = true → s.pcie.d3hot = false → s.pcie.withdrawsClock = false →
      exec (.d3hotEntry t) s = .next (({ (s.moment t) with pcie := { s.pcie with d3hot := true } } : State).raise 204)) ∧
    (s.configAnswers = true → s.pcie.d3hot = false → s.pcie.withdrawsClock = true →
      exec (.d3hotEntry t) s = .next ((({ (s.moment t) with pcie := { s.pcie with d3hot := true, clkreq := false } } : State).post (.pin 12 true)).raise 204)) ∧
    (quiet s → s.configAnswers = true → s.pcie.d3hot = true →
      completes (.d0Entry t) s (fun s' => onlyAnswers { (s.moment t) with pcie := { s.pcie with d3hot := false } } s' ∧ 205 ∈ s'.events.raised)) ∧
    (s.pcie.linkUp = true → exec (.pcieLinkDown t) s =
      .next (({ (s.moment t) with pcie := { s.pcie with linkUp := false, cntLinkDown := satInc 8 s.pcie.cntLinkDown } } : State).raise 193)) ∧
    (∀ (speed : Fin 7) (width : Fin 32) (flit : Bool), quiet s → s.pcie.linkUp = false → speed.val ≠ 0 →
      completes (.pcieLinkUp t speed width flit) s (fun s' => 192 ∈ s'.events.raised ∧ s'.pcie.wakeN = false ∧ onlyAnswers
        { (s.moment t) with pcie := { s.pcie with linkUp := true, speed := speed.val, width := width.val, flit := flit } } s'))) ∧
  (∀ (s : State) (n : Nat) (q : Request) (e : CplEntry),
    (s.pcie.bme = false ∨ s.pcie.d3hot = true ∨ s.pcie.linkUp = false ∨ s.pcie.frozen = true) →
      s.mayFetch n = false ∧
      (s.issue q).obs = s.obs ∧ (s.issue q).tags.outstanding = s.tags.outstanding ∧ q ∈ (s.issue q).tags.reissue ∧
      ((s.ring e.ring).enable = true → (s.ring e.ring).cqLog2 ≠ 0 → e.status ≠ stInternal →
        (s.postEntry e).obs = s.obs ∧ (s.postEntry e).cmd.hold = s.cmd.hold ++ [{ e with waited := e.waited || !(s.ring e.ring).cqRoom }]) ∧
      (s.signal n).obs = s.obs)

/-- R420, R422: an error that the severity register classes as fatal freezes the endpoint, counted and with its cause, event 197; another one only sets its status bit;
Completion Timeout and Unexpected Completion never freeze. RELEASE ends
containment only with the link up and the status bit of CAUSE cleared, with event 198; otherwise REFUSED counts. -/
def Obligations.ContainmentFreezesAndReleases : Prop :=
  ∀ (s : State) (t : SI) (k : Fin 32),
    (k.val ≠ 14 → k.val ≠ 16 → s.pcie.configUp = true → s.pcie.retryStatus = false → s.pcie.frozen = false →
      s.pcie.aerSeverity.getLsbD k.val = true → exec (.fatalErrorFreeze t k) s = .next (({ (s.moment t) with pcie := { s.pcie with
        aerStatus := s.pcie.aerStatus ||| (1#32 <<< k.val), frozen := true, cause := k.val, freezes := satInc 8 s.pcie.freezes
        cntFreeze := satInc 8 s.pcie.cntFreeze } } : State).raise 197)) ∧
    (k.val ≠ 14 → k.val ≠ 16 → s.pcie.configUp = true → s.pcie.retryStatus = false → (s.pcie.frozen = true ∨ s.pcie.aerSeverity.getLsbD k.val = false) →
      exec (.fatalErrorFreeze t k) s = .next { (s.moment t) with pcie := { s.pcie with aerStatus := s.pcie.aerStatus ||| (1#32 <<< k.val) } }) ∧
    (k.val = 14 ∨ k.val = 16 → exec (.fatalErrorFreeze t k) s = .next (s.moment t)) ∧
    (quiet s → s.pcie.frozen = true → s.pcie.linkUp = true → s.pcie.aerStatus.getLsbD s.pcie.cause = false →
      completes (.containmentRelease t) s (fun s' => 198 ∈ s'.events.raised ∧ onlyAnswers { (s.moment t) with pcie := { s.pcie with frozen := false } } s')) ∧
    (s.pcie.frozen = true → (s.pcie.linkUp = false ∨ s.pcie.aerStatus.getLsbD s.pcie.cause = true) →
      exec (.containmentRelease t) s = .next { (s.moment t) with pcie := { s.pcie with refused := satInc 8 s.pcie.refused } })

/-- R417, R418, R419: with RETAIN, or no run, an FLR and a hot reset reset host-facing state only. Bus Master Enable and MSI-X Enable are 0, the MSI-X
table, event map and pending bits are reset, the window base is 0, every ring is reset and unbound (what is left of a ring's packets in progress is kept apart:
notes/assumptions/74.md), every LOC 0 bobbin is held with its pointers at 0 and
its addresses kept, every LOC 1 bobbin keeps its pointers and ring; sequencers, capture, time, cascade, jobs and DRAM go on unchanged.
R416, R504, R534, R562: a fundamental reset puts every register and memory of the device back to its reset state with the boot number one higher; what the
secure store and the flash keep, the TRIG_IN levels and the model's own record stay. A collapsed supply does the same and holds the device; release of PERST_N,
or the supply's recovery, takes start-up to step 2. -/
def Obligations.HostAndFundamentalResets : Prop :=
  (∀ (s : State) (t : SI), (s.pcie.retain = true ∨ s.cap.runState = 0) →
    let after := fun (n : Nat) (s' : State) =>
      s'.pcie.bme = false ∧ s'.pcie.msixEn = false ∧ s'.pcie.winBase = 0 ∧ s'.pcie.d3hot = false ∧ s'.pcie.frozen = false ∧
      s'.events.table = [] ∧ s'.events.map = [] ∧ s'.events.pba = [] ∧ n ∈ s'.events.raised ∧ (∀ r, r < 16 → s'.ring r = {}) ∧ (∀ e ∈ s'.cmd.hold, 16 ≤ e.ring) ∧
      (∀ i b, tfind s.bob.tab i = some b → b.loc1 = false → ∃ b', tfind s'.bob.tab i = some b' ∧ b'.held = true ∧ b'.wr = 0 ∧ b'.rd = 0 ∧
        b'.rel = 0 ∧ b'.mark = 0 ∧ b'.markValid = false ∧ b'.ringAddr = b.ringAddr ∧ b'.wbAddr = b.wbAddr ∧
        (b'.queue.filter (fun q => q.gap.isNone)).length ≤ b.ring.length + b.queue.length) ∧
      (∀ i b, tfind s.bob.tab i = some b → b.loc1 = true → ∃ b', tfind s'.bob.tab i = some b' ∧ b'.held = b.held ∧ b'.wr = b.wr ∧ b'.rd = b.rd ∧
        b'.rel = b.rel ∧ b'.ring = b.ring ∧ b'.queue = b.queue) ∧
      s'.bob.routes = s.bob.routes ∧ s'.dram = s.dram ∧ s'.time = (s.moment t).time ∧ s'.cells = s.cells ∧ s'.blocks = s.blocks ∧
      s'.regions = s.regions ∧ s'.data = s.data ∧ s'.cap = s.cap ∧ s'.seq0 = s.seq0 ∧ s'.seq1 = s.seq1 ∧ s'.pins = s.pins ∧ s'.cas = s.cas ∧
      s'.engines = s.engines ∧ s'.hk = s.hk ∧ s'.log = { s.log with ends := s'.log.ends } ∧ s'.startup = s.startup ∧ s'.cmd.jobs.length = s.cmd.jobs.length ∧
      s'.sched.entries.length = s.sched.entries.length
    (s.configAnswers = true → completes (.functionLevelReset t) s (after 196)) ∧
    (s.pcie.configUp = true → completes (.hotReset t false) s (after 195)) ∧
    (s.pcie.configUp = true → completes (.hotReset t true) s (fun s' => after 195 s' ∧ s'.pcie.linkUp = false))) ∧
  (∀ (s : State) (t : SI),
    let fresh := fun (s' : State) =>
      s'.pending = s.pending ∧ s'.time = State.reset.time ∧ s'.cells = [] ∧ s'.ivls = [] ∧ s'.blocks = [] ∧ s'.regions = [] ∧ s'.data = State.reset.data ∧
      s'.cap = State.reset.cap ∧ s'.seq0 = State.reset.seq0 ∧ s'.seq1 = State.reset.seq1 ∧ s'.cas = State.reset.cas ∧ s'.engines = [] ∧ s'.streams = [] ∧
      s'.replay = State.reset.replay ∧ s'.bob = State.reset.bob ∧ s'.dram = State.reset.dram ∧ s'.pcie = State.reset.pcie ∧ s'.events = State.reset.events ∧
      s'.tags = State.reset.tags ∧ s'.cmd = State.reset.cmd ∧ s'.sched = State.reset.sched ∧ s'.hk = State.reset.hk ∧
      s'.pins = { inLevels := s.pins.inLevels } ∧ s'.log.boot = (s.log.boot + 1) % 2 ^ 24 ∧ s'.log.count = 0 ∧ s'.log.entries = [] ∧
      s'.sec.roleKeys = s.sec.roleKeys ∧ s'.sec.fwFloor = s.sec.fwFloor ∧ s'.sec.zeroizeLife = s.sec.zeroizeLife ∧ s'.sec.tamperLatched = false
    completes (.fundamentalReset t) s (fun s' => fresh s' ∧ s'.startup = {} ∧ s'.safe.fault = false) ∧
    completes (.supplyCollapse t) s (fun s' => fresh s' ∧ s'.startup.step = 1 ∧ s'.startup.collapsed = true ∧ s'.safe.fault = true) ∧
    (s.startup.step = 1 → s.startup.collapsed = false →
      exec (.perstNRelease t) s = .next { (s.moment t) with startup := { s.startup with step := 2 } }) ∧
    (s.startup.step = 1 → s.startup.collapsed = true →
      exec (.supplyRecovered t) s = .next { (s.moment t) with startup := { s.startup with step := 2 } }) ∧
    (s.startup.step ≠ 1 → exec (.perstNRelease t) s = .next (s.moment t) ∧ exec (.supplyRecovered t) s = .next (s.moment t)))

/-- R409, R410, R411, R413, R429, R433: a completed read of a packet's last byte moves SQ_HEAD past the packet, and the header of one that is longer than SQ_TAIL covers or than 4,096 bytes
does not: the latter stops the ring, with event 16 + n. A read that fails is counted in BAD_CPL, with event 201, and is made once more under another tag; the second failure stops its ring. A completion for a tag that is not outstanding is discarded, counted in LATE_CPL, with event 200. R409: a read that is outstanding for the timeout in force when it was issued, and no sooner, times out: it is counted in
CTO, with event 199, and its tag is quarantined for twice its timeout; the tag is free again then. While reads are discarded, a completed read waits to be
issued again and does not count as failed. -/
def Obligations.ReadsCompleteOrTimeOut : Prop :=
  ∀ (s : State) (t : SI) (k : Fin 1024) (st : CplStatus) (data got : List Byte) (q : Request) (n : Fin 16),
    let run := Instr.completionReceived t k st data
    let r := s.ring n.val
    let come := quiet s ∧ tfind s.tags.outstanding k.val = some q ∧ s.pcie.bme = true ∧ s.pcie.frozen = false
    let waits := modDist (2 * r.sqSize) r.sqTail r.sqHead
    let head := fun (slots : Nat) (s' : State) => s'.pcie.rdBytes = s.pcie.rdBytes + q.len ∧ (s'.ring n.val).sqTail = r.sqTail ∧
      (slots ≠ 0 → (s'.ring n.val).sqHead = (r.sqHead + slots) % (2 * r.sqSize)) ∧ (slots = 0 → (s'.ring n.val).sqHead = r.sqHead)
    let stops := fun (cause : Nat) (s' : State) => 16 + n.val ∈ s'.events.raised ∧ onlyAnswers { (s.moment t) with pcie := s'.pcie } s' ∧
      (∃ b, s'.ring n.val = { r with stopped := true, stopCause := cause, fetching := b })
    let failed := fun (s' : State) => s'.pcie.badCpl = satInc 16 s.pcie.badCpl ∧ 201 ∈ s'.events.raised
    (tfind s.tags.outstanding k.val = none → exec (.completionReceived t k st data) s =
      .next (({ (s.moment t) with pcie := { s.pcie with
        lateCpl := satInc 16 s.pcie.lateCpl, aerStatus := s.pcie.aerStatus ||| (1#32 <<< 16) } } : State).raise 200)) ∧
    (tfind s.tags.outstanding k.val = some q → (s.pcie.bme = false ∨ s.pcie.frozen = true) → q.orphan = false →
      completes (.completionReceived t k st data) s (fun s' => s'.tags.outstanding = tdel s.tags.outstanding k.val ∧
        s'.tags.reissue = s.tags.reissue ++ [q] ∧ s'.pcie.badCpl = s.pcie.badCpl ∧ s'.cmd = s.cmd ∧ s'.replay = s.replay ∧ s'.dram = s.dram)) ∧
    (come → st = .success → q.use = .header n.val → data.length = 64 → q.len = 64 → paramLen data = 0 → waits ≠ 0 → completes run s (head 1)) ∧
    (come → st = .success → q.use = .header n.val → data.length = 64 → q.len = 64 → paramLen data ≤ 4096 → waits < 1 + (paramLen data + 63) / 64 →
      completes run s (head 0)) ∧
    (come → st = .success → q.use = .params n.val got → data.length = q.len → 64 ≤ got.length → paramLen got = got.length - 64 + q.len → completes run s
      (head (1 + (paramLen got + 63) / 64))) ∧
    (come → st = .success → q.use = .header n.val → data.length = 64 → q.len = 64 → 4096 < paramLen data → completes run s (stops 2)) ∧
    (come → st ≠ .success → q.retried = false → q.orphan = false → completes run s (fun s' => failed s' ∧
      ∃ y, y = { q with retried := true, failedTag := some k.val, timeoutNs := y.timeoutNs, issuedAt := y.issuedAt } ∧
        ((∃ m, m ≠ k.val ∧ tfind s'.tags.outstanding m = some y) ∨ y ∈ s'.tags.reissue))) ∧
    (come → st ≠ .success → q.retried = true → (q.use = .header n.val ∨ q.use = .params n.val got) → completes run s (fun s' => failed s' ∧ stops 1 s')) ∧
    (tfind s.tags.outstanding k.val = some q → (s.moment t).time.si < q.issuedAt + slotsOfNs s.time.ref.rateKhz q.timeoutNs →
      exec (.completionTimeout t k) s = .next (s.moment t)) ∧
    (tfind s.tags.outstanding k.val = some q → q.issuedAt + slotsOfNs s.time.ref.rateKhz q.timeoutNs ≤ (s.moment t).time.si →
      quiet s → q.retried = false → q.orphan = false →
      completes (.completionTimeout t k) s (fun s' =>
        tfind s'.tags.quarantined k.val = some ((s.moment t).time.si + slotsOfNs s.time.ref.rateKhz (2 * q.timeoutNs)) ∧
        s'.pcie.cto = satInc 16 s.pcie.cto ∧ 199 ∈ s'.events.raised ∧ s'.dram = s.dram ∧ s'.cap = s.cap ∧ s'.seq0 = s.seq0)) ∧
    (∀ u, tfind s.tags.quarantined k.val = some u → u ≤ (s.moment t).time.si → quiet s →
      completes (.tagQuarantineEnd t k) s (fun s' => s'.tags.quarantined = tdel s.tags.quarantined k.val ∧ onlyAnswers (s.moment t) s')) ∧
    (∀ u, tfind s.tags.quarantined k.val = some u → (s.moment t).time.si < u → exec (.tagQuarantineEnd t k) s = .next (s.moment t))

/-! ### Input cells, interval units and the region writer (01_architecture.md, 03_input_cells.md) -/

/-- R88, R100, R109 to R111: SET_THRESHOLD, SET_INPUT_MODE and SET_DESKEW give each named channel the value of its entry (MODE 0 one entry for all, MODE 1
one each) at the next frame boundary. A channel that is enabled takes its level from the latest input given, against the switching point. A changed threshold, hysteresis, mode or termination, and enabling, open the settle window of 2 µs in whole frames;
a changed deskew holds the channel in doubt for 3 frames; a value that the channel holds already changes nothing. No other channel changes. -/
def Obligations.ChannelSettings : Prop :=
  ∀ (s : State) (t : SI) (p : Packet),
    let first := pField p.params 0 2
    let n := pField p.params 2 2
    let entry := fun (size k : Nat) => pField p.params (8 + (if pField p.params 4 1 = 1 then k * size else 0)) size
    let b := (s.moment t).boundary
    let window := some (b + ceil16 (slotsOfNs s.time.ref.rateKhz 2000))
    let others := fun (s' : State) => ∀ c, (c < first ∨ first + n ≤ c) → s'.cell c = s.cell c
    (accepted s t opSetThreshold p → completes (.setThreshold t p) s (fun s' =>
      onlyAnswers { (s.moment t) with cells := s'.cells } s' ∧ others s' ∧ ∀ k, k < n →
        let x := s.cell (first + k)
        let y := s'.cell (first + k)
        let h := if pField p.params 5 1 = 255 then x.hyst else pField p.params 5 1
        y.thresh = entry 2 k ∧ y.hyst = h ∧ y.deskew = x.deskew ∧ y.enable = x.enable ∧
          (x.thresh = entry 2 k → x.hyst = h → y = x) ∧
          ((x.thresh ≠ entry 2 k ∨ x.hyst ≠ h) → y.settleUntil = window ∧ y.doubt = { x.doubt with settling := true }))) ∧
    (accepted s t opSetInputMode p → completes (.setInputMode t p) s (fun s' =>
      onlyAnswers { (s.moment t) with cells := s'.cells, engines := s'.engines, cutEngines := s'.cutEngines, seq0 := s'.seq0 } s' ∧ others s' ∧ ∀ k, k < n →
        let x := s.cell (first + k)
        let y := s'.cell (first + k)
        let e := entry 1 k
        y.enable = e.testBit 0 ∧ y.diff = e.testBit 1 ∧ y.term50 = e.testBit 2 ∧ y.thresh = x.thresh ∧ y.hyst = x.hyst ∧ y.deskew = x.deskew ∧
          (((e.testBit 0 = true ∧ x.enable = false) ∨ e.testBit 1 ≠ x.diff ∨ e.testBit 2 ≠ x.term50) →
            y.settleUntil = window ∧ y.doubt = { x.doubt with settling := true }) ∧
          (e.testBit 0 = true → x.enable = false → y.firstSample = true ∧ y.enabledAt = b ∧
            ∀ v, x.input = some v → y.level = ({ diff := e.testBit 1, thresh := x.thresh, hyst := x.hyst } : Comparator).first v) ∧
          (e.testBit 0 = false → x.enable = true → y.doubtOpen = false ∧ y.enabledAt = b) ∧
          (e.testBit 0 = x.enable → e.testBit 1 = x.diff → e.testBit 2 = x.term50 → y.settleUntil = x.settleUntil ∧ y.doubt = x.doubt))) ∧
    (accepted s t opSetDeskew p → completes (.setDeskew t p) s (fun s' =>
      onlyAnswers { (s.moment t) with cells := s'.cells } s' ∧ others s' ∧ ∀ k, k < n →
        let x := s.cell (first + k)
        let y := s'.cell (first + k)
        let d := toSigned 16 (entry 2 k)
        y.deskew = d ∧ y.thresh = x.thresh ∧ y.enable = x.enable ∧ (d = x.deskew → y = x) ∧
          (d ≠ x.deskew → y.deskewAt = b ∧ y.deskewUntil = some (b + 48) ∧ y.doubt = { x.doubt with deskew := true })))

/-- R88, R89, R92, R100: each cause of channel doubt ends by itself, and the bracket closes with the last one; an enabled channel out of range is in doubt with
event 64 + 16r + 2. A window that has not passed, and a cause that does not hold, change nothing. Only the named channel and records change. -/
def Obligations.ChannelDoubtCauses : Prop :=
  ∀ (s : State) (t : SI) (ch : Fin 1024),
    let x := s.cell ch.val
    let si := (s.moment t).time.si
    let only := fun (s' : State) => onlyPlaces { (s.moment t) with cells := s'.cells } s' ∧ ∀ c, c ≠ ch.val → s'.cell c = s.cell c
    ((∀ u, x.settleUntil = some u → si < u) → doesNothing (.settleWindowEnd t ch) t s) ∧
    (∀ u, x.settleUntil = some u → u ≤ si → completes (.settleWindowEnd t ch) s (fun s' => only s' ∧
      s'.cell ch.val = { x with
        settleUntil := none, doubt := { x.doubt with settling := false }
        doubtOpen := if x.doubt.stuck || x.doubt.oor || x.doubt.deskew then x.doubtOpen || x.enable else false })) ∧
    ((∀ u, x.deskewUntil = some u → si < u) → doesNothing (.deskewDoubtEnd t ch) t s) ∧
    (∀ u, x.deskewUntil = some u → u ≤ si → completes (.deskewDoubtEnd t ch) s (fun s' => only s' ∧
      s'.cell ch.val = { x with
        deskewUntil := none, doubt := { x.doubt with deskew := false }
        doubtOpen := if x.doubt.stuck || x.doubt.oor || x.doubt.settling then x.doubtOpen || x.enable else false })) ∧
    ((x.enable = false ∨ x.doubt.oor = true) → doesNothing (.inputOutOfRange t ch) t s) ∧
    (x.enable = true → x.doubt.oor = false → completes (.inputOutOfRange t ch) s (fun s' => only s' ∧
      s'.cell ch.val = { x with doubt := { x.doubt with oor := true }, doubtOpen := true } ∧
      64 + 16 * (ch.val / 256) + 2 ∈ s'.events.raised)) ∧
    (x.doubt.oor = false → doesNothing (.outOfRangeEnd t ch) t s) ∧
    (x.doubt.oor = true → completes (.outOfRangeEnd t ch) s (fun s' => only s' ∧
      s'.cell ch.val = { x with
        doubt := { x.doubt with oor := false }
        doubtOpen := if x.doubt.stuck || x.doubt.settling || x.doubt.deskew then x.doubtOpen || x.enable else false }))

/-- R19, R84, R85, R87, R95, R98, R99, R100: the comparator reports high above V_T or V_D plus half the hysteresis, low below it less half the hysteresis, else the level as it was; the
first sample compares with the switching point alone and sets the level without an edge. A disabled or gated channel reports nothing; a level change is reported at the raw time plus
the deskew (one fine LSB after the previous edge where it would not be later), with the fine code 64 x (raw - S1) / (S2 - S1) + 64 of the lane's pass, rounded and limited to 0 to 63, where a lane serves it and with
fine code 0, counted in COARSE_CNT, where none does. A glitch gives two edges where a lane serves it, else none. No other channel changes. -/
def Obligations.EdgesAreReported : Prop :=
  ∀ (s : State) (t : SI) (ch : Fin 1024) (v : CellInput),
    let x := s.cell ch.val
    let on := x.enabledFor t
    let gated := ∃ b, s.time.gatedFrom = some b ∧ b ≤ t
    let run := exec (.edgeDetected t ch (v.vp, v.vn) v.glitch v.raw v.raw2) s
    let above := fun (g : Comparator) => if g.diff then 4095 * (v.vp - v.vn) - ((g.thresh : Int) - 2048) * 5500000000
      else 4095 * (v.vp + 2000000000) - (g.thresh : Int) * 5500000000
    let g : Comparator := if t < x.cmpAt then x.oldCmp else { diff := x.diff, thresh := x.thresh, hyst := x.hyst }
    let half : Int := 4095 * 500000 * (g.hyst : Nat)
    let level := if half < above g then true else if above g < -half then false else x.level
    let seen := fun (y : Cell) => { y with input := some (v.vp, v.vn) }
    let d := if t < x.deskewAt then x.oldDeskew else x.deskew
    let raw := fun (f : Nat) => (((64 * t + f : Nat) : Int) + d).toNat
    let shown := fun (f : Nat) => match x.lastTime with
      | some l => if x.deskewAt ≤ t ∧ raw f ≤ l then l + 1 else raw f
      | none => raw f
    let fine := fun (k : Nat) =>
      let l := x.lanes.getD k {}
      (max 0 (min 63 ((128 * (1024 * ((v.raw : Nat) : Int) - l.s1 + l.span) + l.span) / (2 * l.span))) : Int).toNat
    let others := fun (s' : State) => ∀ c, c ≠ ch.val → s'.cell c = s.cell c
    let frame := fun (s' : State) => others s' ∧
      onlyPlaces { (s.moment t) with
        cells := s'.cells, blocks := s'.blocks, ivls := s'.ivls, engines := s'.engines, cutEngines := s'.cutEngines, seq0 := s'.seq0
        cap := { s.cap with early := s'.cap.early }, cmd := { s.cmd with deskew := s'.cmd.deskew } } s'
    let reports := on = true ∧ ¬gated ∧ x.firstSample = false
    let edge := fun (f n : Nat) (s' : State) => frame s' ∧ (s'.cell ch.val).level = level ∧ (s'.cell ch.val).lastTime = some (shown f) ∧
      (s'.cell ch.val).anchorEdges = x.anchorEdges + 1 ∧ (s'.cell ch.val).coarseCnt = n
    (((on = false ∧ (x.enable = false ∨ x.firstSample = false)) ∨ (on = true ∧ gated)) →
      run = .next { (s.moment t) with cells := tput s.cells ch.val (seen x) }) ∧
    (on = false → x.enable = true → x.firstSample = true → ∃ s', run = .next s' ∧ s' = { (s.moment t) with cells := s'.cells } ∧ others s' ∧
      let first := decide (0 < above { diff := x.diff, thresh := x.thresh, hyst := x.hyst })
      s'.cell ch.val = seen { x with level := first, levelAtEnable := first }) ∧
    (on = true → ¬gated → x.firstSample = true → t = x.enabledAt → ∃ s', run = .next s' ∧
      s' = { (s.moment t) with cells := s'.cells, regions := s'.regions, engines := s'.engines, cutEngines := s'.cutEngines, seq0 := s'.seq0 } ∧ others s' ∧
      s'.cell ch.val = seen { x with level := decide (0 < above g), levelAtEnable := decide (0 < above g), firstSample := false }) ∧
    (reports → level = x.level → v.glitch = false → ∃ s', run = .next s' ∧ frame s' ∧ s'.cell ch.val = seen x) ∧
    (∀ k, reports → level ≠ x.level → x.serve t = some k → ∃ s', run = .next s' ∧ edge (fine k) x.coarseCnt s') ∧
    (reports → level ≠ x.level → x.serve t = none → ∃ s', run = .next s' ∧ edge 0 (min (x.coarseCnt + 1) 255) s') ∧
    (reports → level = x.level → v.glitch = true → x.serve t = none → ∃ s', run = .next s' ∧ frame s' ∧ s'.cell ch.val = seen x) ∧
    (∀ k, reports → level = x.level → v.glitch = true → x.serve t = some k → ∃ s', run = .next s' ∧ frame s' ∧
      (s'.cell ch.val).level = x.level ∧ (s'.cell ch.val).anchorEdges = x.anchorEdges + 2)

/-- R104, R105, R114: SET_INTERVAL gives the unit its settings from the next frame boundary on; there the pending start, the decimation count and the counters are 0. A pending start
older than MAX_SPAN that nothing serves is discarded and counted in TIMEOUT, once no edge below that time can come any more (R99: 32 slots later); a younger one stays; a disabled
unit does nothing. -/
def Obligations.IntervalUnits : Prop :=
  ∀ (s : State) (t : SI) (p : Packet) (u : Fin 64) (e : IvlEdge) (b : SI) (g : IvlSet),
    let f := pField p.params
    let x := s.ivl u.val
    let h := 64 * ((s.moment t).time.si - 32)
    let others := fun (n : Nat) (s' : State) => ∀ k, k ≠ n → s'.ivl k = s.ivl k
    let set : IvlSet := {
      enable := (f 1 1).testBit 0, pairing := (f 1 1).testBit 1, startCh := f 2 2, stopCh := f 4 2, startSlope := f 6 1, stopSlope := f 7 1
      decim := f 8 1, maxSpan := f 12 4 }
    let fresh : Ivl := {
      enable := set.enable, pairing := set.pairing, startCh := set.startCh, stopCh := set.stopCh, startSlope := set.startSlope, stopSlope := set.stopSlope
      decim := set.decim, maxSpan := set.maxSpan }
    (accepted s t opSetInterval p → completes (.setInterval t p) s (fun s' => onlyAnswers { (s.moment t) with ivls := s'.ivls } s' ∧ others (f 0 1) s' ∧
      (s'.ivl (f 0 1)).next.getLast? = some ((s.moment t).boundary, set) ∧ (s'.ivl (f 0 1)).shown = fresh)) ∧
    (x.enable = false → x.next = [] → doesNothing (.intervalTimeout t u) t s) ∧
    (x.enable = true → x.next = [] → x.buf = [] → x.starts = [e] → (x.pairing = false ∨ x.stops = []) →
      e.time + 64 * x.maxSpan < h → exec (.intervalTimeout t u) s =
        .next { (s.moment t) with ivls := tput s.ivls u.val { x with starts := [], timeout := min (x.timeout + 1) 65535 } }) ∧
    (x.enable = true → x.next = [] → x.buf = [] → x.starts = [e] → (x.pairing = false ∨ x.stops = []) →
      h ≤ e.time + 64 * x.maxSpan → x.timeout ≤ 65535 →
        completes (.intervalTimeout t u) s (fun s' => s' = { (s.moment t) with ivls := s'.ivls } ∧ ∀ n, s'.ivl n = s.ivl n)) ∧
    (x.enable = false → x.buf = [] → x.next = [(b, g)] → 64 * b ≤ h → completes (.intervalTimeout t u) s (fun s' =>
      s' = { (s.moment t) with ivls := s'.ivls } ∧ others u.val s' ∧ s'.ivl u.val = {
        enable := g.enable, pairing := g.pairing, startCh := g.startCh, stopCh := g.stopCh, startSlope := g.startSlope, stopSlope := g.stopSlope
        decim := g.decim, maxSpan := g.maxSpan }))

/-- R26, R27: at the frame boundary at which 64 KiB are free the encoder of a block writes again: its discard ends with the last frame below the one that it then takes up, and is
counted once. A parity error removes from the burst SRAM exactly the frame entries of the frames that the bad word holds. What drained before is placed first; no other part of the
state changes. -/
def Obligations.BurstSramDiscardsEnd : Prop :=
  ∀ (s : State) (t : SI) (b : Fin 64) (lo hi : Nat),
    let at_ := (s.moment t).boundary
    let x := (s.moment t).advanceBlock b.val (at_ - 1)
    let y := x.block b.val
    let free := (y.drainTo (at_ / 16)).1.fill + 65536 ≤ 262144
    let end_ := 16 * max (at_ / 16 - 4) y.nextFrame
    let z := (s.moment t).advanceBlock b.val (s.moment t).time.si
    let others := fun (v s' : State) => onlyPlaces { v with blocks := s'.blocks } s' ∧ ∀ k, k ≠ b.val → s'.block k = v.block k
    onlyPlaces { (s.moment t) with blocks := x.blocks } x ∧ onlyPlaces { (s.moment t) with blocks := z.blocks } z ∧
    (¬free → exec (.burstSramResume t b) s = .next x) ∧
    (y.discardFrom = none → exec (.burstSramResume t b) s = .next x) ∧
    (∀ f, free → y.discardFrom = some f → completes (.burstSramResume t b) s (fun s' => others x s' ∧
      s'.block b.val = { y with discardFrom := none, ovfCnt := if 16 * f < end_ then min (y.ovfCnt + 1) 255 else y.ovfCnt })) ∧
    ((∀ e ∈ (z.block b.val).entries, e.frame < lo ∨ hi < e.frame) → exec (.burstSramParityError t b lo hi) s = .next z) ∧
    ((∃ e ∈ (z.block b.val).entries, lo ≤ e.frame ∧ e.frame ≤ hi) → completes (.burstSramParityError t b lo hi) s (fun s' => others z s' ∧
      s'.block b.val = { (z.block b.val) with entries := (z.block b.val).entries.filter (fun e => decide (e.frame < lo ∨ hi < e.frame)) }))

/-- R24, R28, R217, R274, R312, R377: a segment closes when its flush interval has passed; one that its decompressor does not give back, or whose check
found an error, is counted, with event 64 + 16r + 11; a staging
discard ends, counted in STG_OVF, once 4 MiB are free; a staged segment that stands in DRAM is marked so and its bytes counted; its write accesses its banks, removes markers
at its place and no others, and ends self-refresh (R370, R377, R379). What is placed in an open segment beyond one segment's payload leaves as several, one SEG_INDEX each (R268). -/
def Obligations.SegmentsCloseAndReachDram : Prop :=
  ∀ (s : State) (t : SI),
    let x := (s.moment t).advanceBlocks
    onlyPlaces { (s.moment t) with blocks := x.blocks } x ∧
    (∀ id, (∀ o, (x.data.source id).opened = some o → x.time.si < o.since + o.flush) → exec (.flushIntervalExpiry t id) s = .next x) ∧
    (∀ id o, (x.data.source id).opened = some o → o.since + o.flush ≤ x.time.si → o.items ≠ [] → 4 ≤ srcClass id →
      (x.data.source id).waiting = [] → completes (.flushIntervalExpiry t id) s (fun s' => onlyPlaces x s' ∧ (s'.data.source id).opened = none ∧
        (s'.data.source id).nextIdx = (x.data.source id).nextIdx + (chunkItems [] 0 o.finish.items).length)) ∧
    (∀ id o, (x.data.source id).opened = some o → o.since + o.flush ≤ x.time.si → places (.flushIntervalExpiry t id) s x) ∧
    (∀ (r : Fin 4) (ok : Bool), (∀ c ∈ (s.region r.val).closed, c.waits = false) → doesNothing (.selfVerifyComplete t r ok) t s) ∧
    (∀ (r : Fin 4) (ok : Bool) c, (s.region r.val).closed.find? (fun y => y.waits) = some c →
      (ok = true → c.seg.verifies = true → completes (.selfVerifyComplete t r ok) s (fun s' => onlyPlaces (s.moment t) s' ∧
        (s'.region r.val).mismatch = (s.region r.val).mismatch)) ∧
      ((ok = false ∨ c.seg.verifies = false) → completes (.selfVerifyComplete t r ok) s (fun s' => onlyPlaces (s.moment t) s' ∧
        (s'.region r.val).mismatch = min ((s.region r.val).mismatch + 1) 65535 ∧ 64 + 16 * r.val + 11 ∈ s'.events.raised))) ∧
    (∀ r : Fin 4, 67108864 < x.data.fill + 4194304 → exec (.stagingResume t r) s = .next x) ∧
    (∀ r : Fin 4, x.data.fill + 4194304 ≤ 67108864 → (x.region r.val).discardFrom = none → places (.stagingResume t r) s x) ∧
    (∀ (r : Fin 4) (f : SI), x.data.fill + 4194304 ≤ 67108864 → (x.region r.val).discardFrom = some f →
      places (.stagingResume t r) s { x with data := { x.data with stgOvf := min (x.data.stgOvf + 1) 4294967295 } }) ∧
    (∀ n, (∀ g ∈ s.data.staging, g.seg.seg = n → g.inDram = true) → doesNothing (.stagingDramWriteComplete t n) t s) ∧
    (∀ n g, s.data.staging.find? (fun y => y.seg.seg = n && !y.inDram) = some g → completes (.stagingDramWriteComplete t n) s (fun s' =>
      (∀ y ∈ s'.data.staging, y.seg.seg = n → y.inDram = true) ∧
      (s.dram.selfRefresh = false → s'.dram = { s.dram with
        wrBytes := s.dram.wrBytes + 8 * g.seg.len, idleSince := (s.moment t).time.si, banks := s'.dram.banks, markers := s'.dram.markers }) ∧
      (∀ a, tfind s'.dram.markers a = none ∨ tfind s'.dram.markers a = tfind s.dram.markers a) ∧
      (s.dram.selfRefresh = true → s'.dram.selfRefresh = false ∧ s'.dram.dqs = s.dram.dqs + 1 ∧ 170 ∈ s'.events.raised ∧ s'.dram.mem = s.dram.mem) ∧
      (4 ≤ srcClass g.seg.source → g.seg ∈ s'.data.special.segs) ∧ s'.time = (s.moment t).time ∧ s'.cells = s.cells ∧ s'.blocks = s.blocks ∧
      s'.regions = s.regions ∧ s'.bob = s.bob ∧ s'.cmd = s.cmd ∧ s'.log = s.log ∧ s'.seq0 = s.seq0))

/-- R37, R240, R334, R393, R425: at the end of a 4,000,000-slot load interval each load register takes the bytes of the interval in MB, rounded up and saturating
at 65,535, TRN_MAX the greatest so far, and the counts begin again at 0; the intervals follow each other without a gap. Nothing else changes.
R99, R209, R212: a pending state sample completes once the frame of its hold window has left the alignment buffer, 4 frames after its start, and a statistics window ends at its
boundary, a multiple of its length, where the next begins, once its last frame has left it; before that, with statistics off or without a run, nothing changes. Only records are placed, and settings stay.
R216: clock edges wait for the frame boundary at or below which no command can take effect any more, and are then taken into the samples. -/
def Obligations.LoadsAndReductions : Prop :=
  (∀ (s : State) (t : SI),
    let mb := fun (n : Nat) => min ((n + 999999) / 1000000) 65535
    ((s.moment t).time.si < s.data.loadFrom + 4000000 → doesNothing (.loadIntervalEnd t) t s) ∧
    (s.data.loadFrom + 4000000 ≤ (s.moment t).time.si → exec (.loadIntervalEnd t) s = .next { (s.moment t) with
      data := { s.data with
        loadFrom := s.data.loadFrom + 4000000
        trnLastMb := mb s.data.trnBytes, trnMaxMb := max s.data.trnMaxMb (mb s.data.trnBytes), trnBytes := 0
        lookback := s.data.lookback.map (fun e => (e.1, { e.2 with lastMb := mb e.2.loadBytes, loadBytes := 0 })) }
      regions := s.regions.map (fun e => (e.1, { e.2 with
        cmpInMb := mb e.2.cmpIn, cmpOutMb := mb e.2.cmpOut, hashMb := mb e.2.hashBytes, cmpIn := 0, cmpOut := 0, hashBytes := 0 }))
      pcie := { s.pcie with rdMb := mb s.pcie.rdBytes, wrMb := mb s.pcie.wrBytes, rdBytes := 0, wrBytes := 0 }
      dram := { s.dram with rdMb := mb s.dram.rdBytes, wrMb := mb s.dram.wrBytes, rdBytes := 0, wrBytes := 0 } })) ∧
  (∀ (s : State) (t : SI) (r : Fin 4) (k : Fin 16),
    let d := (s.moment t).drainClocks r.val (s.moment t).boundary
    let taken := (d.region r.val).samples
    let g := s.region r.val
    let si := (s.moment t).time.si
    let len := 2 ^ (g.cfg.statLog2 + 4)
    let w := (g.statStart / len + 1) * len
    onlyPlaces (s.moment t) d ∧ (g.clockBuf = [] → taken = g.samples) ∧
    ((∀ x ∈ taken, x.clock ≠ k.val) → exec (.stateSampleComplete t r k) s = .next d) ∧
    (∀ x, taken.find? (fun y => y.clock = k.val) = some x →
      let due := ((x.time : Int) + x.cfg.ofs + x.cfg.hold).toNat / 1024 * 16 + 64
      (si < due → exec (.stateSampleComplete t r k) s = .next d) ∧
      (due ≤ si → completes (.stateSampleComplete t r k) s (fun s' => onlyPlaces (s.moment t) s' ∧ (s'.region r.val).samples = taken.erase x))) ∧
    ((g.cfg.statsOn = false ∨ s.cap.runState = 0 ∨ si < w + 48) → doesNothing (.statsWindowEnd t r) t s) ∧
    (g.cfg.statsOn = true → s.cap.runState = 1 → w + 48 ≤ si →
      completes (.statsWindowEnd t r) s (fun s' => onlyPlaces (s.moment t) s' ∧ (s'.region r.val).statStart = w)))

/-! ### Opain packets, jobs and the scheduler (13_command_interface.md, 02_station_time.md) -/

/-- R435, R437, R438: a packet that a live ring brings is refused, in this order, with BAD_PARAM for a reserved header bit, NOT_AUTHORIZED for a role that the
opcode's row does not name, BAD_PARAM for an AT_ST that the row excludes (or NOT_AUTHORIZED where a job's, an update's or an embedded command's own rights are
missing, which is checked before), and DOUBT where the chip is in doubt and the row says no. Refused is refused: counted in REFUSED, no CHANGE record, no effect. -/
def Obligations.PacketsAreRefusedInOrder : Prop :=
  ∀ (s : State) (t : SI) (row : OpcodeRow) (p : Packet) (c : Instr), row ∈ opcodeRows → packetCommand row.opcode t p = some c → quiet s →
    let r := s.ring p.ring.val
    r.enable = true → r.stopped = false → r.cqLog2 ≠ 0 → (p.flags.toNat.testBit 0 = true → r.unreplied = 0) →
    let refused := fun (st : Nat) => completes c s (fun s' => onlyAnswers (s.moment t) s' ∧ s'.log.count = s.log.count ∧ s'.log.entries = s.log.entries ∧
      (s'.ring p.ring.val).refused = min (r.refused + 1) 65535 ∧ (s'.ring p.ring.val).accepted = r.accepted ∧
      s'.cmd.jobs = s.cmd.jobs ∧ replied s s' p row.opcode st (fun _ => True))
    let header := p.reservedSet = false ∧ p.flags.toNat ≤ 1
    (¬header → refused 0x11) ∧
    (header → ¬row.permits r.role → refused 0x14) ∧
    (header → row.permits r.role → p.atSt ≠ 0 → row.sched = false → refused 0x11 ∨ refused 0x14) ∧
    (header → row.permits r.role → (p.atSt = 0 ∨ row.sched = true) → row.opcode ≠ 0x0110 → row.doubt = 0 → s.safe.causes ≠ 0 → refused 0x16)

/-- R437: the opcodes, their roles, and whether they may carry an AT_ST, row by row; no other value is an opcode. -/
def Obligations.TheOpcodeTable : Prop :=
  opcodeRows.length = 55 ∧
  (∀ row ∈ opcodeRows, ∃ o, opSpecOf row.opcode = some o ∧ o.opcode = row.opcode ∧ o.unbound = row.any ∧ o.user = row.user ∧ o.crypto = row.crypto ∧
    o.service = row.service ∧ o.sched = row.sched) ∧
  (∀ op o, opSpecOf op = some o → ∃ row ∈ opcodeRows, row.opcode = op)

/-- R435, R436, R441, R445, R451: every accepted command is carried out and counted in ACCEPTED, not in REFUSED. One of kind F or C makes a CHANGE record and completes with
OK, but for those that end later or whose outcome varies (`others`, which have statements of their own); a query completes with OK and makes no record; one of kind J makes a
CHANGE record and answers JOB_ACCEPTED. Those that take effect at once and free nothing make exactly one record
and touch no job; NOP does nothing else. R447: while neither log takes the record, the final entry waits for it (notes/assumptions/33.md). -/
def Obligations.AcceptedCommandsAreRecorded : Prop :=
  ∀ (s : State) (t : SI) (p : Packet), (s.ring p.ring.val).cqLog2 ≠ 0 →
    let ring := fun (s : State) => s.ring p.ring.val
    let counted := fun (s' : State) => (ring s').accepted = min ((ring s).accepted + 1) 65535 ∧ (ring s').refused = (ring s).refused
    let done := [(opNop, Instr.nop t p), (opSetFailsafe, .setFailsafePolicy t p), (opSetRef, .setRef t p), (opSetEpoch, .setEpoch t p), (opSetSt, .setSt t p),
      (opSetReturn, .setReturnPolicy t p), (opSetThreshold, .setThreshold t p), (opSetInputMode, .setInputMode t p), (opSetDeskew, .setDeskew t p),
      (opSetInterval, .setInterval t p), (opLoadPattern, .loadPattern t p), (opArm, .arm t p), (opDisarm, .disarm t p), (opForceTack, .forceTack t p),
      (opSetTrigout, .setTrigout t p), (opSetUnit, .setUnit t p), (opSetPortRole, .setPortRole t p), (opSetReduction, .setReduction t p),
      (opSetLookback, .setLookback t p), (opSetWindowPolicy, .setWindowPolicy t p), (opStartRun, .startRun t p), (opStopRun, .stopRun t p),
      (opSetDecoder, .setDecoder t p), (opCreateBobbin, .createBobbin t p), (opDestroyBobbin, .destroyBobbin t p), (opRoute, .route t p),
      (opSetCompression, .setCompression t p), (opSetSigning, .setSigning t p), (opSetDramMap, .setDramMap t p), (opSetHkSeq, .setHkSeq t p),
      (opRotateEsk, .rotateEsk t p), (opSchedule, .schedule t p), (opUnschedule, .unschedule t p)]
    let queries := [(opGetInfo, Instr.getInfo t p), (opGetAttestation, .getAttestation t p), (opJobStatus, .jobStatus t p)]
    let jobs := [(opCalDeskew, Instr.calDeskew t p), (opCalInterp, .calInterp t p), (opCascadeDiscover, .cascadeDiscover t p),
      (opExportWindow, .exportWindow t p), (opReplay, .replay t p), (opTrain, .train t p), (opMigrateRank, .migrateRank t p), (opScrub, .scrub t p),
      (opHkCal, .hkCal t p)]
    let others := [(opResetRegion, Instr.resetRegion t p), (opSoftReset, .softReset t p), (opRewind, .rewind t p), (opAuth, .auth t p),
      (opUpdateFirmware, .updateFirmware t p), (opZeroize, .zeroize t p), (opJobSuspend, .jobSuspend t p), (opJobResume, .jobResume t p),
      (opJobCancel, .jobCancel t p), (opReadLog, .readLog t p)]
    (done ++ queries ++ jobs ++ others).length = opSpecs.length ∧
    (∀ x ∈ done, accepted s t x.1 p → completes x.2 s (fun s' => counted s' ∧ s.log.count < s'.log.count ∧ ends s s' p x.1.opcode 0x00 (fun _ => True))) ∧
    (∀ x ∈ queries, accepted s t x.1 p → completes x.2 s (fun s' =>
      counted s' ∧ s'.log = s.log ∧ onlyAnswers (s.moment t) s' ∧ replied s s' p x.1.opcode 0x00 (fun w => 1 ≤ w.length))) ∧
    (∀ x ∈ jobs, accepted s t x.1 p → completes x.2 s (fun s' =>
      counted s' ∧ s.log.count < s'.log.count ∧ s'.cmd.nextJob = nextJobId s.cmd.nextJob ∧ replied s s' p x.1.opcode 0x01 (fun w => w = []))) ∧
    (∀ x ∈ others, accepted s t x.1 p → completes x.2 s counted) ∧
    (accepted s t opNop p → answers (.nop t p) s (s.moment t)) ∧
    ∀ x ∈ [(opNop, Instr.nop t p), (opSetEpoch, .setEpoch t p), (opSetSt, .setSt t p), (opSetReturn, .setReturnPolicy t p), (opSetThreshold, .setThreshold t p),
        (opSetInputMode, .setInputMode t p), (opSetDeskew, .setDeskew t p), (opSetInterval, .setInterval t p), (opSetTrigout, .setTrigout t p),
        (opSetWindowPolicy, .setWindowPolicy t p), (opRoute, .route t p)],
      accepted s t x.1 p → completes x.2 s (fun s' => s'.log.count = s.log.count + 1 ∧ ends s s' p x.1.opcode 0x00 (fun w => w = []) ∧
        (s'.ring p.ring.val).accepted = min ((s.ring p.ring.val).accepted + 1) 65535 ∧
        (s'.ring p.ring.val).refused = (s.ring p.ring.val).refused ∧ s'.cmd.jobs = s.cmd.jobs)

/-- R452 to R454: GET_INFO answers the words of its SELECT; JOB_STATUS the state, ring and opcode of the named job; READ_LOG writes the unreleased entries from
FROM_SEQ on to the host's buffer and answers their number, the sequence to go on from, how many are lost, and FREE. None of them makes a CHANGE record
(READ_LOG with RELEASE does, and releases). -/
def Obligations.QueriesAnswer : Prop :=
  ∀ (s : State) (t : SI) (p : Packet) (j : Job), (s.ring p.ring.val).cqLog2 ≠ 0 →
    let f := pField p.params
    let lo := fun (n : Nat) => n % 2 ^ 32
    let hi := fun (n : Nat) => n / 2 ^ 32 % 2 ^ 32
    let ring := s.ring p.ring.val
    let info := fun (w : List Nat) => completes (.getInfo t p) s (fun s' =>
      onlyAnswers (s.moment t) s' ∧ s'.log = s.log ∧ s'.cmd.jobs = s.cmd.jobs ∧ replied s s' p 0x0002 0x00 (fun x => x = w))
    let es := (s.log.entries.filter (fun e => decide (f 0 8 ≤ e.sequence))).take (f 16 4)
    (accepted s t opGetInfo p → f 0 1 = 0 → info [s.sec.fwVersion.toNat, Config.stepping.toNat + 65536 * (if Config.gradeE then 1 else 0),
      lo Config.serial.toNat, hi Config.serial.toNat, s.log.boot]) ∧
    (accepted s t opGetInfo p → f 0 1 = 1 → info [p.ring.val, ring.role, s.cmd.jobs.length, s.sched.entries.length, s.cas.unitId.toNat]) ∧
    (accepted s t opGetInfo p → f 0 1 = 2 → info [lo s.log.next, hi s.log.next, lo s.log.release, hi s.log.release, s.log.free]) ∧
    (accepted s t opJobStatus p → s.job (f 0 4) = some j → completes (.jobStatus t p) s (fun s' =>
      onlyAnswers (s.moment t) s' ∧ s'.log = s.log ∧ s'.cmd.jobs = s.cmd.jobs ∧ replied s s' p 0x0C04 0x00 (fun w =>
        w.head? = some (j.state.code + (if j.ctx.origin.kind = 3 then 255 else j.ctx.ring) * 256 + j.ctx.opcode * 65536) ∧
          (j.state = .queued → w.getD 1 0 = 0) ∧ w.getD 1 0 ≤ 1000))) ∧
    (accepted s t opReadLog p → (f 20 1).testBit 0 = false → completes (.readLog t p) s (fun s' =>
      onlyAnswers (s.moment t) s' ∧ s'.log = s.log ∧ .hostWrite (f 8 8) (es.flatMap LogEntry.bytes) ∈ s'.obs.posted ∧
      replied s s' p 0x0D01 0x00 (fun w => ∃ next, w = [es.length, lo next, hi next, (es.filter (fun e => e.lost)).length, s.log.free] ∧
        (es = [] → next = f 0 8) ∧ ∀ e, es.getLast? = some e → next = e.sequence + 1))) ∧
    (accepted s t opReadLog p → (f 20 1).testBit 0 = true → completes (.readLog t p) s (fun s' =>
      onlyAnswers (s.moment t) s' ∧ s'.log.release = max s.log.release (f 0 8) ∧ s'.log.count = s.log.count + 1 ∧
      ∀ e ∈ s'.log.entries, f 0 8 ≤ e.sequence ∨ e.sequence = s.log.next))

/-- R441, R444, R453: JOB_SUSPEND suspends a queued job at once and asks a running one to stop at its next suspend point; JOB_RESUME lets a suspended job go on,
queued again where it had not begun, and a suspended CASCADE_DISCOVER takes the REPORTs that waited for it (notes/assumptions/67.md); JOB_CANCEL ends a queued job
at once, with event 4, a queued migration's retired rank then UNBACKED (R384), and asks a running one. Each but the asking ones completes with OK. -/
def Obligations.JobControl : Prop :=
  ∀ (s : State) (t : SI) (p : Packet) (j : Job), (s.ring p.ring.val).cqLog2 ≠ 0 →
    let n := pField p.params 0 4
    s.job n = some j →
    (accepted s t opJobSuspend p → j.state = .queued → completes (.jobSuspend t p) s (fun s' =>
      onlyAnswers (s.moment t) s' ∧
      (∃ j', s'.job n = some j' ∧ j'.state = .suspended ∧ j'.fromQueued = true ∧ j'.ctx = j.ctx) ∧ ends s s' p 0x0C01 0x00 (fun w => w = []))) ∧
    (accepted s t opJobSuspend p → j.state = .running → completes (.jobSuspend t p) s (fun s' => onlyAnswers (s.moment t) s' ∧
      ∃ j' c, s'.job n = some j' ∧ j'.state = .running ∧ j'.suspendReq = j.suspendReq ++ [c] ∧ c.reply = some (p.ring.val, p.tag))) ∧
    (accepted s t opJobResume p → j.state = .suspended → j.ctx.opcode ≠ 0x0410 → completes (.jobResume t p) s (fun s' => onlyAnswers (s.moment t) s' ∧
      (∃ j', s'.job n = some j' ∧ j'.state = (if j.fromQueued then .queued else .running) ∧ j'.ctx = j.ctx) ∧
      ends s s' p 0x0C02 0x00 (fun w => w = []))) ∧
    (accepted s t opJobResume p → j.state = .suspended → j.ctx.opcode = 0x0410 → j.fromQueued = false → completes (.jobResume t p) s (fun s' =>
      onlyAnswers { (s.moment t) with cas := s'.cas } s' ∧ s'.cas.ports = s.cas.ports ∧ s'.cas.discoverHeld = [] ∧
      s'.cas.discoverIds.length = s.cas.discoverIds.length + s.cas.discoverHeld.length ∧
      (∃ j', s'.job n = some j' ∧ j'.state = .running ∧ j'.ctx = j.ctx) ∧ ends s s' p 0x0C02 0x00 (fun w => w = []))) ∧
    (accepted s t opJobCancel p → j.state = .queued → j.ctx.opcode ∉ [0x0910, 0x0911, 0x0B10] → completes (.jobCancel t p) s (fun s' =>
      onlyAnswers (s.moment t) s' ∧ s'.job n = none ∧ 4 ∈ s'.events.raised ∧
      (∃ j', s'.cmd.ended.head? = some j' ∧ j'.id = n ∧ j'.state = .cancelled) ∧ ends s s' p 0x0C03 0x00 (fun w => w = []))) ∧
    (accepted s t opJobCancel p → j.state = .queued → j.ctx.opcode = 0x0911 → completes (.jobCancel t p) s (fun s' =>
      onlyAnswers { (s.moment t) with dram := s'.dram } s' ∧ s'.dram.mem = s.dram.mem ∧ s'.job n = none ∧ 4 ∈ s'.events.raised ∧
      (let rank := s.dram.rank (pField j.ctx.params 0 1) (pField j.ctx.params 1 1)
       if rank.state = 4 then 4 * pField j.ctx.params 0 1 + rank.logical ∈ s'.dram.unbacked ∧ 166 ∈ s'.events.raised else s'.dram = s.dram) ∧
      ends s s' p 0x0C03 0x00 (fun w => w = []))) ∧
    (accepted s t opJobCancel p → j.state = .running → completes (.jobCancel t p) s (fun s' => onlyAnswers (s.moment t) s' ∧
      ∃ j' c, s'.job n = some j' ∧ j'.state = .running ∧ j'.suspendReq = [] ∧ j'.cancelReq = j.cancelReq ++ [c] ∧
        c.reply = some (p.ring.val, p.tag)))

/-- R101, R102, R441, R443: a queued job starts once no other of its opcode runs, is suspended or waits before it; a running one is suspended at a suspend point where
JOB_SUSPEND asked for it, CAL_INTERP only at an anchor boundary; work that ends makes the job DONE with its result words, the last CHANGE record, and event 4: a SCRUB's
are its range in MiB and the words that it corrected and found uncorrectable (R386, R390). A CAL_DESKEW over the calibration network marks the channels whose value timed out or is out of range, and counts the others. -/
def Obligations.JobsRunToTheirEnd : Prop :=
  ∀ (s : State) (t : SI) (n : Nat) (ok : Bool) (w : List Nat) (found : List (Fin 1024 × Option Int)), quiet s →
    let same := fun (j : Job) (op : Nat) => j.ctx.opcode = op
    let chosen := fun (j : Job) (c : Nat) => decide (pField j.ctx.params 0 2 ≤ c ∧ c < pField j.ctx.params 0 2 + pField j.ctx.params 2 2)
    let good := fun (c : Nat) => match (found.find? (fun e => e.1.val = c)).map (fun e => e.2) with
      | some (some d) => decide (-2048 ≤ d ∧ d ≤ 2047)
      | _ => false
    ((∀ j, s.job n = some j → j.state ≠ .queued) → answers (.jobDequeue t n) s (s.moment t)) ∧
    (∀ j, s.job n = some j → j.state = .queued → j.ctx.opcode ∉ [0x0510, 0x0910, 0x0911, 0x0A10] →
      (∀ x ∈ s.cmd.jobs, same x j.ctx.opcode → x.id = n) → completes (.jobDequeue t n) s (fun s' => onlyAnswers (s.moment t) s' ∧
        ∃ j', s'.job n = some j' ∧ j' = { j with state := .running, since := (s.moment t).time.si })) ∧
    (∀ j, s.job n = some j → j.state = .queued → j.ctx.opcode ∉ [0x0510] →
      (∃ x ∈ s.cmd.jobs, same x j.ctx.opcode ∧ x.id ≠ n ∧ x.state = .running) → answers (.jobDequeue t n) s (s.moment t)) ∧
    ((∀ j, s.job n = some j → j.state ≠ .running) → answers (.jobSuspendPoint t n) s (s.moment t) ∧ answers (.jobEnd t n (.words ok w)) s (s.moment t)) ∧
    (∀ j, s.job n = some j → j.ctx.opcode = 0x0211 → t % 1048576 ≠ 0 → answers (.jobSuspendPoint t n) s (s.moment t)) ∧
    (∀ j, s.job n = some j → j.state = .running → j.ctx.opcode ∉ [0x0910, 0x0B10] → (j.ctx.opcode = 0x0211 → t % 1048576 = 0) → j.suspendReq ≠ [] →
      j.cancelReq = [] → s.safe.softBegun = false →
      completes (.jobSuspendPoint t n) s (fun s' => onlyAnswers { (s.moment t) with
          cells := s'.cells
          dram := if j.ctx.opcode ∈ [0x0911, 0x0912] then { s.dram with idleSince := (s.moment t).time.si } else s.dram } s' ∧
        (j.ctx.opcode ≠ 0x0211 → s'.cells = s.cells) ∧
        ∃ j', s'.job n = some j' ∧ j'.state = .suspended ∧ j'.suspendReq = [] ∧ j'.ctx = j.ctx)) ∧
    (∀ j, s.job n = some j → j.state = .running → j.ctx.opcode = 0x0912 → answers (.jobEnd t n (.words ok w)) s (s.moment t) ∧
      completes (.jobEnd t n (.scrub [])) s (fun s' =>
        onlyAnswers { (s.moment t) with dram := { s.dram with idleSince := (s.moment t).time.si } } s' ∧ s'.job n = none ∧ 4 ∈ s'.events.raised ∧
        ∃ j' x, s'.cmd.ended.head? = some j' ∧ s.jobOf 0x0912 = some x ∧ j'.id = n ∧ j'.state = .done ∧
          j'.result = [pField j.ctx.params 8 8 / 1048576, x.result.getD 1 0, x.result.getD 2 0])) ∧
    (∀ j, s.job n = some j → j.state = .running → j.ctx.opcode = 0x0210 → pField j.ctx.params 4 1 ≠ 1 → pField j.ctx.params 12 1 ≠ 1 →
      completes (.jobEnd t n (.deskew found)) s (fun s' => onlyAnswers { (s.moment t) with cells := s'.cells } s' ∧ s'.job n = none ∧ 4 ∈ s'.events.raised ∧
        (∀ c, s'.cell c = { s.cell c with calFail := (s'.cell c).calFail }) ∧
        (∀ c, (s'.cell c).calFail = if chosen j c then !good c else (s.cell c).calFail) ∧
        ∃ j', s'.cmd.ended.head? = some j' ∧ j'.id = n ∧ j'.state = .done ∧ j'.result.head? = some
          ((List.range (pField j.ctx.params 2 2)).filter (fun k => good (pField j.ctx.params 0 2 + k))).length))

/-- R67, R71, R72, R73, R78, R79: SCHEDULE puts its command into the lowest free entry and answers the entry's number; UNSCHEDULE takes out the entry it names.
An entry executes at its due frame boundary, by the TGEN current there, once prepared: one for a single time leaves the table, a repeating one waits for the next time of its grid; what the
chip's doubt refuses is counted in FAIL_CNT with event 43, and a late execution in LATE_CNT with event 42. -/
def Obligations.ScheduledCommands : Prop :=
  ∀ (s : State) (t : SI) (p : Packet) (k : Fin 256) (e : SchedEntry),
    let f := pField p.params
    let b := (s.moment t).boundary
    let now := (s.moment t).stNow b
    let ready := e.due ≤ now ∧ e.accepted + 80000 ≤ b ∧ ∀ x ∈ s.sched.entries, e.order ≤ x.2.order
    let late := 16 ≤ b ∧ e.due ≤ (s.moment t).stNow (b - 16)
    let counted := fun (s' : State) => s'.sched.failCnt = s.sched.failCnt ∧ s'.sched.nextOrder = s.sched.nextOrder ∧
      s'.sched.lateCnt = (if late then min (s.sched.lateCnt + 1) 255 else s.sched.lateCnt) ∧ (late → 42 ∈ s'.events.raised)
    (accepted s t opSchedule p → (s.ring p.ring.val).cqLog2 ≠ 0 → now < f 0 12 → completes (.schedule t p) s (fun s' =>
      onlyAnswers { (s.moment t) with sched := s'.sched } s' ∧ s'.log.count = s.log.count + 1 ∧
      ∃ n, n < 256 ∧ tfind s.sched.entries n = none ∧ (∀ m, m < n → tfind s.sched.entries m ≠ none) ∧ ends s s' p 0x0110 0x00 (fun w => w = [n]) ∧
        s'.sched.nextOrder = s.sched.nextOrder + 1 ∧ ∃ x, s'.sched.entries = tput s.sched.entries n x ∧
          x.due = f 0 12 ∧ x.opcode = f 32 2 ∧ x.accepted = (s.moment t).time.si ∧ x.order = s.sched.nextOrder ∧ x.packet.ring = p.ring ∧
          x.packet.tag.toNat = f 34 2 ∧ x.packet.params = p.params.drop 96 ∧ x.count = f 12 4 ∧ x.period = f 16 12 ∧ x.done = 0 ∧
          (x.repeats = true ↔ f 12 4 ≠ 1))) ∧
    (accepted s t opUnschedule p → f 0 1 = 0 → s.sched.entries.filter (fun x => x.1 = f 4 2) = [(f 4 2, e)] →
      completes (.unschedule t p) s (fun s' => onlyAnswers { (s.moment t) with
        sched := { s.sched with entries := s.sched.entries.filter (fun x => x.1 ≠ f 4 2) } } s')) ∧
    (quiet s → tfind s.sched.entries k.val = none → exec (.schedulerEntryDue t k) s = .next (s.moment t)) ∧
    (quiet s → tfind s.sched.entries k.val = some e → now < e.due → exec (.schedulerEntryDue t k) s = .next (s.moment t)) ∧
    (quiet s → tfind s.sched.entries k.val = some e → ready → e.opcode = 0x0001 → s.log.canReserve 1 = true →
      completes (.schedulerEntryDue t k) s (fun s' => onlyAnswers { (s.moment t) with sched := s'.sched } s' ∧ counted s' ∧
        s'.log.count = s.log.count + 1 ∧
        (e.repeats = false → s'.sched.entries = tdel s.sched.entries k.val) ∧
        (e.repeats = true → e.count = 0 → 0 < e.period → ∃ m, e.done < m ∧ now < e.first + m * e.period ∧
          (m = e.done + 1 ∨ e.first + (m - 1) * e.period ≤ now) ∧
          s'.sched.entries = tput s.sched.entries k.val { e with done := m, due := e.first + m * e.period }))) ∧
    (quiet s → tfind s.sched.entries k.val = some e → ready → e.opcode = 0x0102 → e.repeats = false → s.safe.causes ≠ 0 →
      completes (.schedulerEntryDue t k) s (fun s' => onlyAnswers { (s.moment t) with sched := s'.sched } s' ∧
        s'.sched.failCnt = min (s.sched.failCnt + 1) 255 ∧ 43 ∈ s'.events.raised ∧ s'.sched.entries = tdel s.sched.entries k.val ∧
        s'.log.count = s.log.count + 1))

/-! ### Station time and the synthesiser (02_station_time.md) -/

/-- R52 to R54, R58, R74 to R77: SET_REF, SET_EPOCH, SET_ST and SET_RETURN_POLICY hold their fields from the next frame boundary on. A new REF_FREQ, TIME_SRC,
NOMINAL_CYCLES or edge is a loss: FREE and ACQUIRE go to FREE, a traced state coasts, and no pulse is expected. A new rate or SYN_MODE gates the cells and starts a
calibration job over all channels; no other setting starts one. Over a new rate the last pulse's instant is kept in slots of the new length, so that the spacing
of the next one stays right (R42). -/
def Obligations.TimeSettings : Prop :=
  ∀ (s : State) (t : SI) (p : Packet),
    let f := pField p.params
    let old := s.time.ref
    let rate := if f 4 4 = 0 then old.rateKhz else f 4 4
    let relocks := rate ≠ old.rateKhz ∨ (f 8 1 = 1) ≠ (old.synMode = true)
    let fallen := fun (st : DpllState) => if st = .free ∨ st = .acquire then DpllState.free else .coast
    let lost := fun (s' : State) => s'.time.state = fallen s.time.state ∧ s'.time.lastPulse = none ∧ s'.time.refValid = false
    let set := fun (s' : State) => s'.time.ref = {
        refFreq := f 0 4, rateKhz := rate, synMode := f 8 1 = 1, timeSrc := f 9 1 = 1, refoutDiv := f 10 1
        epochOutW := f 11 1, epochInDelay := toSigned 32 (f 12 4), ttAsym := toSigned 32 (f 16 4) } ∧
      s'.time.epoch = s.time.epoch ∧ s'.time.policy = s.time.policy ∧
      ((f 0 4 ≠ old.refFreq ∨ (f 9 1 = 1) ≠ (old.timeSrc = true)) → lost s') ∧
      (f 0 4 = old.refFreq → (f 9 1 = 1) = (old.timeSrc = true) → s'.time.state = s.time.state ∧ s'.time.lastPulse =
        if rate = old.rateKhz then s.time.lastPulse else s.time.lastPulse.map (rescaled (s.moment t).boundary old.rateKhz rate))
    let ep : EpochCfg := { nominal := some (f 0 4), falling := f 4 1 = 1, tol := f 5 1 }
    (accepted s t opSetRef p → ¬relocks → completes (.setRef t p) s (fun s' =>
      onlyAnswers { (s.moment t) with time := s'.time } s' ∧ set s' ∧ s'.cmd.jobs = s.cmd.jobs ∧ s'.time.gatedFrom = s.time.gatedFrom)) ∧
    (accepted s t opSetRef p → relocks → completes (.setRef t p) s (fun s' =>
      onlyAnswers { (s.moment t) with
        time := s'.time, safe := s'.safe, seq0 := s'.seq0, pins := s'.pins, cas := s'.cas, engines := s'.engines, cutEngines := s'.cutEngines } s' ∧ set s' ∧
      s'.time.gatedFrom ≠ none ∧ jobStarted s s' 0x0211 ([0, 0, 0, 4, 0, 0, 0, 0]) (if s.cmd.jobs.any (fun j => j.ctx.opcode = 0x0211) then .queued else .running))) ∧
    (accepted s t opSetEpoch p → completes (.setEpoch t p) s (fun s' =>
      onlyAnswers { (s.moment t) with time := s'.time } s' ∧ s'.time.epoch = ep ∧ s'.time.ref = old ∧ s'.time.policy = s.time.policy ∧
      ((some (f 0 4) ≠ s.time.epoch.nominal ∨ ep.falling ≠ s.time.epoch.falling) → lost s') ∧
      (some (f 0 4) = s.time.epoch.nominal → ep.falling = s.time.epoch.falling → s'.time.state = s.time.state ∧ s'.time.lastPulse = s.time.lastPulse))) ∧
    (accepted s t opSetSt p → answers (.setSt t p) s { (s.moment t) with time := if f 0 1 = 0
      then { (s.moment t).time with label := some (f 8 5), labelHeld := false }
      else { (s.moment t).time with pending := some { cause := 3, target := some (f 16 12) } } }) ∧
    (accepted s t opSetReturn p → completes (.setReturnPolicy t p) s (fun s' =>
      onlyAnswers { (s.moment t) with time := s'.time } s' ∧ s'.time.state = s.time.state ∧ s'.time.slew = s.time.slew ∧ s'.time.map = s.time.map ∧
      s'.time.policy = { slewWindow := f 0 4, slewRate := f 4 1, holdover := f 8 4, uncAlarm := f 12 4 }))

/-- R39 to R43, R55, R492: an active edge where one is expected is accepted; where no position is expected every active edge is. The first takes FREE to ACQUIRE, the
fifth in a row at nominal spacing asks for the step that ends ACQUIRE. An edge elsewhere is a slip, counted, with event 39. A miss is counted, with event 38; the
third in a row, and a REFCLK that is absent or out of range, lose the reference with event 36; with SYN_MODE 1 such a REFCLK also gates the cells. A slew that has nothing left ends in LOCKED.
What the loop finds at a pulse waits for the next anchor boundary, so that ST follows its ANCHOR till then (R305; notes/assumptions/20.md). -/
def Obligations.ReferencePulses : Prop :=
  ∀ (s : State) (t : SI) (fine : Fin 64) (edge lost : Bool) (cycles hz nom : Nat),
    let x := s.moment t
    let q := s.time
    let run := Instr.epochInPulse t fine edge cycles lost
    let onTime := fun (s' : State) => onlyPlaces { x with time := s'.time } s' ∧ s'.time.si = x.time.si ∧ s'.time.ref = q.ref ∧ s'.time.epoch = q.epoch ∧
      s'.time.tgen = q.tgen
    let active := (lost = false ∨ s.safe.quiet = true) ∧ edge ≠ q.epoch.falling ∧ q.ref.timeSrc = false
    let off := ((cycles : Int) - ((q.misses + 1) * nom : Nat)).natAbs
    let marked := fun (s' : State) => s'.time.lastPulse = some (64 * x.time.si + fine.val) ∧ s'.time.misses = 0 ∧ s'.time.slipCnt = q.slipCnt
    let bad := q.ref.refFreq = 0 ∨ hz = 0 ∨ q.ref.refFreq < ((hz : Int) - q.ref.refFreq).natAbs * 10000
    let gone := fun (s' : State) => s'.time.refValid = false ∧
      (q.refValid = true → q.ref.timeSrc = false → q.state ≠ .free → q.state ≠ .coast →
        s'.time.state = (if q.state = .acquire then .free else .coast) ∧ 36 ∈ s'.events.raised ∧ s'.time.lossCnt = min (q.lossCnt + 1) 255) ∧
      ((q.refValid = false ∨ q.ref.timeSrc = true) → s'.time.state = q.state)
    let coherent := q.ref.synMode = true ∧ q.running = true
    let gates := fun (s' : State) => onlyPlaces { x with
      time := s'.time, safe := s'.safe, seq0 := s'.seq0, pins := s'.pins, cas := s'.cas, engines := s'.engines, cutEngines := s'.cutEngines } s' ∧ s'.time.gatedFrom ≠ none ∧
      (q.gatedFrom = none → s'.time.synLock = false ∧ s'.time.gatedFrom = some x.boundary ∧ 40 ∈ s'.events.raised)
    (lost = true → s.safe.quiet = false → completes run s (fun s' => onlyPlaces { x with safe := s'.safe } s' ∧ 8 ∈ s'.events.raised ∧
      s'.safe = { s.safe with seams := tmod s.safe.seams 1 {} (fun m => { m with overrun := true, lost := min (m.lost + 1) 65535 }) })) ∧
    (lost = false → (edge = q.epoch.falling ∨ q.ref.timeSrc = true) → doesNothing run t s) ∧
    (active → q.state = .free → q.refValid = true → q.epoch.nominal ≠ none → completes run s (fun s' => onTime s' ∧ marked s' ∧
      s'.time.state = .acquire ∧ s'.time.pulses = 1)) ∧
    (active → q.state = .free → q.refValid = false → completes run s (fun s' => onTime s' ∧ marked s' ∧ s'.time.state = .free)) ∧
    (active → q.state = .acquire → q.epoch.nominal = some nom → q.lastPulse ≠ none → off ≤ q.epoch.tol → completes run s (fun s' => onTime s' ∧ marked s' ∧
      s'.time.state = .acquire ∧ s'.time.pulses = (if ((cycles : Int) - nom).natAbs ≤ 1 then q.pulses + 1 else 1) ∧
      (5 ≤ s'.time.pulses → ∃ d l, s'.time.pending = some { cause := 1, delta := d, lock := some (x.time.si, l) }))) ∧
    (active → q.state = .locked → q.epoch.nominal = some nom → q.lastPulse ≠ none → off ≤ q.epoch.tol → completes run s (fun s' => onTime s' ∧ marked s' ∧
      s'.time.state = .locked ∧ s'.time.pending = q.pending ∧ s'.time.map = q.map ∧ s'.time.loopDue ≠ none)) ∧
    (active → q.state ≠ .free → q.epoch.nominal = some nom → q.lastPulse ≠ none → q.epoch.tol < off → completes run s (fun s' => onTime s' ∧
      s'.time.slipCnt = min (q.slipCnt + 1) 255 ∧ 39 ∈ s'.events.raised ∧ (q.slips = [] → s'.time.state = q.state ∧ s'.time.lastPulse = q.lastPulse))) ∧
    ((q.ref.timeSrc = true ∨ q.state = .free ∨ q.lastPulse = none ∨ q.epoch.nominal = none) → doesNothing (.epochInMiss t) t s) ∧
    (q.ref.timeSrc = false → q.state ≠ .free → q.lastPulse ≠ none → q.epoch.nominal ≠ none → completes (.epochInMiss t) s (fun s' => onTime s' ∧
      s'.time.missCnt = min (q.missCnt + 1) 255 ∧ s'.time.misses = q.misses + 1 ∧ 38 ∈ s'.events.raised ∧ (q.misses ≠ 2 → s'.time.state = q.state) ∧
      (q.misses = 2 → q.state ≠ .coast → 36 ∈ s'.events.raised ∧ s'.time.state = (if q.state = .acquire then .free else .coast)))) ∧
    (¬coherent → completes (.refclkAbsent t) s (fun s' => onTime s' ∧ s'.time.refHz = 0 ∧ gone s')) ∧
    (coherent → completes (.refclkAbsent t) s (fun s' => gates s' ∧ s'.time.refHz = 0 ∧ gone s')) ∧
    (bad → ¬coherent → completes (.refFreqMeasurement t hz) s (fun s' => onTime s' ∧ s'.time.refHz = min hz 4294967295 ∧ gone s')) ∧
    (bad → coherent → completes (.refFreqMeasurement t hz) s (fun s' => gates s' ∧ s'.time.refHz = min hz 4294967295 ∧ gone s')) ∧
    (¬bad → completes (.refFreqMeasurement t hz) s (fun s' => onTime s' ∧ s'.time.refHz = min hz 4294967295 ∧ s'.time.refValid = true ∧
      s'.time.state = q.state)) ∧
    (q.slew = none → doesNothing (.slewEnd t) t s) ∧
    (q.slew ≠ none → x.time.remaining x.boundary ≠ 0 → doesNothing (.slewEnd t) t s) ∧
    (q.slew ≠ none → x.time.remaining x.boundary = 0 → completes (.slewEnd t) s (fun s' => onTime s' ∧ s'.time.slew = none ∧ s'.time.state = .locked ∧
      35 ∈ s'.events.raised))

/-- R47, R48, R51, R59, R61: every anchor boundary puts an ANCHOR into the directory; a step that waits falls there, with a new timestep generation (1 after 255),
counted, with event 33; what the loop has found applies from there on, without a change of ST. At an epoch boundary a LOCKED unit that is not in doubt drives EPOCH_OUT, and the pulse ends after its full width. -/
def Obligations.AnchorsAndEpochs : Prop :=
  ∀ (s : State) (t : SI) (ps : List LanePass) (dis : List (Fin 1024 × Nat)) (p : PendingStep),
    let x := s.moment t
    let q := s.time
    let run := Instr.anchorBoundary t ps dis
    let fresh := t % 1048576 = 0 ∧ q.running = true ∧ (s.data.anchors.head?).map (fun e => e.1) ≠ some t
    let kept := fun (s' : State) => s'.time.si = x.time.si ∧ s'.time.ref = q.ref ∧ s'.dram = s.dram ∧ s'.sched = s.sched ∧ s'.sec = s.sec ∧ s'.hk = s.hk ∧
      s'.pins = s.pins ∧ s'.cap = s.cap ∧ s'.streams = s.streams ∧ (s'.data.anchors.head?).map (fun e => e.1) = some t
    let w := s.time.ref.epochOutW
    let drift : Int := match p.lock with
      | none => 0
      | some (y, rate) => ((rate : Int) - q.map.rate) * ((t : Int) - y)
    (quiet s → (t % 1048576 ≠ 0 ∨ q.running = false) → answers run s x) ∧
    (quiet s → fresh → q.pending = none → q.labelStep = none → q.tt.parentStep = none → completes run s (fun s' => kept s' ∧
      s'.time.tgen = q.tgen ∧ s'.time.stAt t = x.time.stAt t ∧ s'.time.loopDue = none ∧ (q.loopDue = none → s'.time.map = q.map) ∧
      s'.time.state = q.state ∧ s'.time.stepCnt = q.stepCnt)) ∧
    (quiet s → fresh → q.pending = some p → q.labelStep = none → q.tt.parentStep = none → completes run s (fun s' => kept s' ∧
      s'.time.pending = none ∧ s'.time.tgen = (if q.tgen = 255 then 1 else q.tgen + 1) ∧ s'.time.stepCnt = min (q.stepCnt + 1) 255 ∧
      33 ∈ s'.events.raised ∧ s'.time.state = (if p.cause = 0 ∨ p.cause = 1 then .locked else q.state) ∧ s'.time.refoutOn = false ∧
      s'.time.stAt t = (match p.target with
        | some st => stKeep st
        | none => x.time.stAt t + p.delta + drift))) ∧
    (s.hk.enabled = false → (q.reported ≠ 2 ∨ s.safe.causes ≠ 0) → doesNothing (.epochBoundary t) t s) ∧
    (s.hk.enabled = false → q.reported = 2 → s.safe.causes = 0 → w ≠ 0 → completes (.epochBoundary t) s (fun s' => ∃ l on,
      s' = { x with
        time := { x.time with
          outActive := true, epochOutHigh := true, epochOutUntil := x.time.si + slotsOfNs q.ref.rateKhz (100 * w), refoutOn := on }
        obs := { s.obs with posted := l ++ .pin 9 true :: s.obs.posted } } ∧ (q.refoutOn = true → on = true ∧ l = []))) ∧
    ((q.epochOutHigh = false ∨ x.time.si < q.epochOutUntil) → doesNothing (.epochOutPulseEnd t) t s) ∧
    (q.epochOutHigh = true → q.epochOutUntil ≤ x.time.si → exec (.epochOutPulseEnd t) s = .next { x with
      time := { x.time with epochOutHigh := false }, obs := { s.obs with posted := .pin 9 false :: s.obs.posted } })

/-- R55 to R57, R62 to R65, R502, R503: a running synthesiser that loses lock gates the cells from the next frame boundary, counted, with event 40 and doubt cause 0
from 1,024 slots before; on relock the clock returns at the next frame boundary, with event 41 and the cause ended. A time-transfer message is taken in LINK_SEQ order and
not delivered to the unit that it names as its origin (R183, R188; notes/assumptions/57.md). A downstream port answers a time request with its ST at the request's arrival; a child computes delay and offset from the two one-way times, the offset filtered over the latest 16, and a second failed exchange in a row loses the reference with event 45. -/
def Obligations.SynthesiserAndTransfer : Prop :=
  ∀ (s : State) (t : SI) (port : Fin 16) (m : TtMessage),
    let x := s.moment t
    let q := s.time
    let frame := fun (s' : State) => onlyAnswers { x with
      time := s'.time, safe := s'.safe, seq0 := s'.seq0, pins := s'.pins, cas := s'.cas, engines := s'.engines, cutEngines := s'.cutEngines, blocks := s'.blocks
      startup := s'.startup } s' ∧ s'.time.si = x.time.si ∧ s'.time.map = q.map ∧ s'.time.state = q.state
    let p := s.port port.val
    let child := q.ref.timeSrc = true ∧ s.cas.upPort = some port.val
    let takes := fun (h : TtHeader) => p.state = 2 ∧ h.linkSeq = nextSeq s port.val
    let sameButIdle := fun (s' : State) (k : Nat) =>
      s'.port k = { s.port k with idle := (s'.port k).idle, idlesTx := (s'.port k).idlesTx, txRun := (s'.port k).txRun }
    let onlyLink := fun (s' : State) => onlyPlaces { x with cas := s'.cas } s' ∧ s'.cas.role = s.cas.role ∧ s'.cas.remote = s.cas.remote ∧
      ∀ k, k ≠ port.val → sameButIdle s' k
    ((q.running = false ∨ q.gatedFrom ≠ none) → doesNothing (.synthesiserLockLoss t) t s) ∧
    (q.running = true → q.gatedFrom = none → completes (.synthesiserLockLoss t) s (fun s' => frame s' ∧ s'.time.synLock = false ∧
      s'.time.gatedFrom = some x.boundary ∧ s'.time.synLoss = min (q.synLoss + 1) 255 ∧ s'.safe.causes = s.safe.causes ||| 1 ∧
      40 ∈ s'.events.raised ∧ (s.safe.causes = 0 → s'.safe.doubtSi = x.boundary - 1024 ∧ 0 ∈ s'.events.raised))) ∧
    (q.gatedFrom = none → s.startup.lateLock = false → doesNothing (.synthesiserRelock t) t s) ∧
    (q.gatedFrom ≠ none → s.startup.lateLock = false → completes (.synthesiserRelock t) s (fun s' => frame s' ∧ s'.time.synLock = true ∧
      s'.time.gatedFrom = none ∧ s'.safe.causes = s.safe.causes &&& ~~~1#8 ∧ 41 ∈ s'.events.raised ∧ s'.cmd = s.cmd)) ∧
    (q.gatedFrom ≠ none → s.startup.lateLock = true → completes (.synthesiserRelock t) s (fun s' => frame s' ∧ s'.time.synLock = true ∧
      s'.startup.lateLock = false ∧ s'.cmd.jobs.length = s.cmd.jobs.length + 1)) ∧
    (∀ h, m.header = some h → p.state ≠ 2 → doesNothing (.timeTransfer t port m) t s) ∧
    (∀ h, m.header = some h → (¬takes h ∨ h.origin = s.cas.unitId) → completes (.timeTransfer t port m) s (onlyLink ·)) ∧
    (∀ h fine, m = .request h fine → p.role ≠ 2 → completes (.timeTransfer t port m) s (onlyLink ·)) ∧
    (∀ h fine, m = .request h fine → takes h → h.origin ≠ s.cas.unitId → p.role = 2 → completes (.timeTransfer t port m) s (fun s' =>
      onlyPlaces { x with cas := s'.cas } s' ∧
      s'.cas.remote = s.cas.remote ∧ (∀ k, k ≠ port.val → sameButIdle s' k) ∧ (s'.port port.val).rxSeq = h.linkSeq ∧
      (p.queue = [] → p.unacked.length < 64 → ∃ r : CasMsg, Posted.message port.val 7 r ∈ s'.obs.posted ∧ r.flags = 1 ∧ r.dir = 2 ∧
        r.linkSeq = p.txSeq ∧ CasMsg.st r = stReport (x.time.stFine x.time.si fine.val)))) ∧
    ((∀ h fine, m ≠ .request h fine) → ¬child → completes (.timeTransfer t port m) s (onlyLink ·)) ∧
    (∀ h fine t2 gap g st, m = .reply h fine t2 gap g st → takes h → h.origin ≠ s.cas.unitId → child → completes (.timeTransfer t port m) s (fun s' =>
      onlyPlaces { x with time := s'.time, cas := s'.cas } s' ∧ (s'.port port.val).rxSeq = h.linkSeq ∧ s'.time.tt.parentState = st.val ∧
      s'.time.tt.failed = 0 ∧
      (let there := stKeep t2.toNat - s.cas.timeSent
       let back := x.time.stFine x.time.si fine.val - (stKeep t2.toNat + q.ofPs gap.toNat)
       s'.time.tt.delay = (there + back + q.ofPs q.ref.ttAsym) / 2 ∧
         ((q.state = .coast → q.slew = none) →
           s'.time.tt.offsets = ((there - back - q.ofPs q.ref.ttAsym) / 2 :: q.tt.offsets).take 16 ∧
           s'.time.tt.filtered = s'.time.tt.offsets.sum / s'.time.tt.offsets.length)))) ∧
    (∀ h u hz step g st, m = .info h u hz step g st → takes h → h.origin ≠ s.cas.unitId → child → completes (.timeTransfer t port m) s (fun s' =>
      onlyPlaces { x with time := s'.time, cas := s'.cas } s' ∧ (s'.port port.val).rxSeq = h.linkSeq ∧ s'.time.tt.parentU = u.toNat ∧
      s'.time.tt.parentHz = hz.toNat ∧ s'.time.tt.parentState = st.val ∧ s'.time.tt.parentTgen = some g ∧ s'.time.state = q.state)) ∧
    (m = .failed → child → completes (.timeTransfer t port m) s (fun s' => onlyPlaces { x with time := s'.time } s' ∧
      s'.time.tt.failed = q.tt.failed + 1 ∧ s'.time.pulses = 0 ∧ (q.tt.failed ≠ 1 → s'.time.state = q.state) ∧
      (q.tt.failed = 1 → 45 ∈ s'.events.raised ∧ s'.time.tt.offsets = [] ∧
        (q.state = .locked → s'.time.state = .coast ∧ 36 ∈ s'.events.raised))))

/-! ### The trigger sequencer and its pins (04_trigger_sequencer.md) -/

/-- R145, R153, R158, R159: LOAD_PATTERN changes the pending image of the sequencer it names and nothing that is active. CLEAR starts from an empty image; COMMIT
makes the image valid with its ID; a change without COMMIT makes it invalid with ID 0. The result words are the number of sections and the ID. -/
def Obligations.PatternsAreLoaded : Prop :=
  ∀ (s : State) (t : SI) (p : Packet), (s.ring p.ring.val).cqLog2 ≠ 0 → accepted s t opLoadPattern p →
    let f := pField p.params
    let k := f 0 1
    let clear := (f 1 1).testBit 0
    let commit := (f 1 1).testBit 1
    completes (.loadPattern t p) s (fun s' => onlyAnswers { (s.moment t) with seq0 := s'.seq0, seq1 := s'.seq1 } s' ∧
      s'.sq (1 - k) = s.sq (1 - k) ∧ s'.log.count = s.log.count + 1 ∧
      ∃ (g : Program) (ok : Bool) (id : Nat), s'.sq k = { s.sq k with pending := g, pendingOk := ok, pendingId := id } ∧
        ends s s' p 0x0301 0x00 (fun w => w = [f 2 2, id]) ∧
        (f 2 2 = 0 → g = if clear then {} else (s.sq k).pending) ∧
        (commit = true → ok = true ∧ g.valid = true ∧ id = g.imageId ∧ id ≠ 0) ∧
        (commit = false → (clear = true ∨ f 2 2 ≠ 0) → ok = false ∧ id = 0) ∧
        (commit = false → clear = false → f 2 2 = 0 → ok = (s.sq k).pendingOk))

/-- R143, R145, R146, R160 to R162: an ARM, DISARM or FORCE_TACK that is accepted is carried out, in every state. ARM puts the program in force from the next frame boundary, the pending one with LOAD, with its counters and numbers at 0, and
event 131; armed already (RESTART) it goes on until then, and the new start waits behind any earlier one. DISARM ends evaluation at that boundary, with event 132. FORCE_TACK decides the pulses of pins with forced
tacks at once; with the sequencer idle it takes the next tack number, with event 128. -/
def Obligations.ArmDisarmAndForce : Prop :=
  ∀ (s : State) (t : SI) (p : Packet),
    let f := pField p.params
    let q := s.seq0
    let b := (s.moment t).boundary
    let load := (f 1 1).testBit 0
    (accepted s t opArm p → ∃ s', exec (.arm t p) s = .next s' ∧ onlyAnswers { (s.moment t) with seq0 := s'.seq0 } s' ∧ s'.seq0.armed = true ∧
      131 ∈ s'.events.raised ∧ s'.log.count = s.log.count + 1 ∧ s'.seq0.activeId = (if load then q.pendingId else q.activeId)) ∧
    (accepted s t opDisarm p → ∃ s', exec (.disarm t p) s = .next s' ∧ onlyAnswers { (s.moment t) with
          seq0 := s'.seq0, cas := s'.cas, pins := s'.pins, safe := s'.safe, time := s'.time } s' ∧ s'.time.map = s.time.map ∧ s'.sq 1 = s.sq 1 ∧
      s'.seq0.armed = false ∧ s'.cmd.deferredArm = none ∧ s'.log.count = s.log.count + (if s.cmd.deferredArm.isSome then 2 else 1)) ∧
    (accepted s t opForceTack p → ∃ s', exec (.forceTack t p) s = .next s' ∧
      onlyAnswers { (s.moment t) with seq0 := s'.seq0, pins := s'.pins, cas := s'.cas, cap := s'.cap } s' ∧ s'.seq0.armed = q.armed ∧ s'.seq0.active = q.active ∧
      s'.log.count = s.log.count + 1) ∧
    (accepted s t opArm p → q.armed = false → completes (.arm t p) s (fun s' => onlyAnswers { (s.moment t) with seq0 := s'.seq0 } s' ∧
      131 ∈ s'.events.raised ∧ s'.seq0.armed = true ∧ s'.seq0.from_ = b ∧ s'.seq0.next = b ∧
      s'.seq0.active = (if load then q.pending else q.active) ∧ s'.seq0.activeId = (if load then q.pendingId else q.activeId) ∧
      s'.seq0.stitch = s'.seq0.active.startStitch ∧ s'.seq0.stitchAt = s'.seq0.active.startStitch ∧ s'.seq0.counters = [] ∧ s'.seq0.timers = [] ∧
      s'.seq0.tackNo = 0 ∧ s'.seq0.basteNo = 0 ∧ s'.seq0.pending = q.pending ∧ s'.seq0.rearm = [] ∧
      ((s.ring p.ring.val).cqLog2 ≠ 0 → ends s s' p 0x0310 0x00 (fun w => w = [s'.seq0.activeId])))) ∧
    (accepted s t opArm p → q.armed = true → completes (.arm t p) s (fun s' => 131 ∈ s'.events.raised ∧
      onlyAnswers { (s.moment t) with seq0 := { q with
        rearm := q.rearm ++ [(b, if load then some (q.pending, q.pendingId) else none)], activeId := if load then q.pendingId else q.activeId } } s' ∧
      ((s.ring p.ring.val).cqLog2 ≠ 0 → ends s s' p 0x0310 0x00 (fun w => w = [s'.seq0.activeId])))) ∧
    (accepted s t opDisarm p → q.armed = true → q.halted = false → q.uneval = 0 → completes (.disarm t p) s (fun s' => 132 ∈ s'.events.raised ∧
      s'.cmd.deferredArm = none ∧ onlyAnswers { (s.moment t) with seq0 := { q with armed := false, stopAt := some b } } s')) ∧
    (accepted s t opDisarm p → q.armed = false → q.halted = false → completes (.disarm t p) s (fun s' =>
      s'.cmd.deferredArm = none ∧ onlyAnswers (s.moment t) s')) ∧
    (accepted s t opForceTack p → completes (.forceTack t p) s (fun s' =>
      onlyAnswers { (s.moment t) with seq0 := s'.seq0, pins := s'.pins, cas := s'.cas, cap := s'.cap } s' ∧
      (∀ n, n < 8 → (s'.out n).due.length = (s.out n).due.length + (if (s.out n).source.testBit 1 then 1 else 0) ∧ (s'.out n).active = (s.out n).active) ∧
      (q.armed = false → q.stopAt = none → s'.seq0.tackNo = (q.tackNo + 1) % 2 ^ 32 ∧ s'.seq0.lastSi = b ∧ s'.seq0.lastKind = 1 ∧
        128 ∈ s'.events.raised) ∧
      (q.armed = true → q.halted = false → q.stopAt = none → q.uneval = 0 → q.next ≤ b → s'.seq0 = { q with forced := q.forced ++ [(b, f 1 1, f 2 1)] }) ∧
      ((f 1 1).testBit 0 = false → s'.cap = s.cap) ∧ ((f 1 1).testBit 1 = false → s'.cas = s.cas)))

/-- R131 to R133, R136, R138, R139: an idle sequencer evaluates nothing. In its FRM cycle a slot in which no branch of the stitch is true moves on to the next
slot in the same stitch; a valid branch with no terms is true, its tack takes the next number, with event 128, and its NEXT stitch is current from the next slot. -/
def Obligations.SlotsAreEvaluated : Prop :=
  ∀ (s : State) (t : SI) (slots : Nat) (b : Branch) (rest : List Branch), quiet s → s.engines = [] → s.cutEngines = [] →
    let q := s.seq0
    let ready := q.armed = true ∧ q.halted = false ∧ q.stopAt = none ∧ q.uneval = 0 ∧ q.cycleFrame = q.next / 16 + 11 ∧ q.cycleSlots < 32 ∧ q.cycleTrans < 4 ∧
      16 * q.cycleFrame ≤ (s.moment t).time.si ∧ q.active.terms = [] ∧ q.active.counters = [] ∧ q.counters = [] ∧ q.bastes = [] ∧ q.rearm = [] ∧ q.forced = []
    let stitch := (tfind q.active.stitches q.stitch).getD []
    (q.armed = false → q.stopAt = none → answers (.slotEvaluation t 0 slots) s (s.moment t)) ∧
    (s.seq1.armed = false → s.seq1.stopAt = none → (∀ j ∈ s.cmd.jobs, j.ctx.opcode ≠ 0x0810) → answers (.slotEvaluation t 1 slots) s (s.moment t)) ∧
    (ready → stitch = [] → completes (.slotEvaluation t 0 1) s (fun s' => onlyAnswers { (s.moment t) with seq0 := s'.seq0 } s' ∧
      s'.seq0.next = q.next + 1 ∧ s'.seq0.stitch = q.stitch ∧ s'.seq0.stitchAt = q.stitch ∧ s'.seq0.tackNo = q.tackNo ∧ s'.seq0.transCnt = q.transCnt ∧ s'.seq0.armed = true ∧
      s'.seq0.counters = [] ∧ s'.seq0.cycleSlots = q.cycleSlots + 1)) ∧
    (ready → stitch = b :: rest → b.ctrl.testBit 0 = true → (∀ u ∈ b.terms, u.testBit 7 = false) → b.fire = 1 → b.ctrOp = 0 → b.tmrOp = 0 → b.drive = 0 →
      b.misc = 0 → q.holdFrom = none → completes (.slotEvaluation t 0 1) s (fun s' =>
        onlyAnswers { (s.moment t) with seq0 := s'.seq0, pins := s'.pins, cas := s'.cas } s' ∧
        s'.seq0.next = q.next + 1 ∧ s'.seq0.stitch = b.next % 16 ∧ s'.seq0.stitchAt = q.stitch ∧ s'.seq0.tackNo = (q.tackNo + 1) % 2 ^ 32 ∧
        s'.seq0.transCnt = min (q.transCnt + 1) 4294967295 ∧ s'.seq0.holdFrom = some (64 * q.next) ∧ s'.seq0.lastSi = q.next ∧ s'.seq0.lastKind = 0 ∧
        128 ∈ s'.events.raised))

/-- R128, R146: an edge of a TRIG_IN pin sets its level and waits for the evaluation of its slot. A shut-down that has nothing left to evaluate ends, and the
deferred ARM takes effect, with events 131 and 133, a child's own only while LOCAL_ARM is set (R190); before that, and with none in progress, nothing happens. -/
def Obligations.PinEdgesAndShutdowns : Prop :=
  ∀ (s : State) (t : SI) (pin : Fin 8) (level : Bool) (fine : Fin 64) (b : SI) (c : Ctx),
    let q := s.seq0
    let run := Instr.trigInEdge t pin level fine
    let idle := q.armed = false ∧ q.halted = false ∧ q.uneval = 0 ∧ q.bastes = [] ∧ q.forced = [] ∧ q.rearm = []
    ((q.armed = true ∨ q.stopAt ≠ none) → exec run s = .next { (s.moment t) with
      seq0 := { q with events := q.events ++ [{ kind := 1, src := pin.val, time := 64 * t + fine.val, level := level }] }
      pins := { s.pins with inLevels := if level then s.pins.inLevels ||| (1#8 <<< pin.val) else s.pins.inLevels &&& ~~~(1#8 <<< pin.val) } }) ∧
    completes run s (fun s' => s' = { (s.moment t) with seq0 := s'.seq0, pins := { s.pins with inLevels := s'.pins.inLevels } } ∧
      s'.pins.inLevels.getLsbD pin.val = level ∧ (∀ k, k ≠ pin.val → s'.pins.inLevels.getLsbD k = s.pins.inLevels.getLsbD k) ∧
      s'.seq0.armed = q.armed ∧ s'.seq0.active = q.active ∧ s'.seq0.tackNo = q.tackNo) ∧
    (quiet s → q.stopAt = none → answers (.disarmShutdownEnd t) s (s.moment t)) ∧
    (quiet s → q.stopAt = some b → q.uneval = 0 → q.halted = false → q.next < b → answers (.disarmShutdownEnd t) s (s.moment t)) ∧
    (quiet s → q.stopAt = some b → b ≤ q.next → idle → s.cmd.deferredArm = none → answers (.disarmShutdownEnd t) s { (s.moment t) with
      seq0 := { q with stopAt := none, rearm := [], held := 0 } }) ∧
    (quiet s → q.stopAt = some b → b ≤ q.next → idle → s.cmd.deferredArm = some c → pField c.params 1 1 = 0 → pField c.params 4 4 = 0 →
      s.cap.runState = 1 → s.safe.causes = 0 → c.origin.kind = 0 → (s.cas.role = 2 → s.cas.localArm = true) → completes (.disarmShutdownEnd t) s (fun s' =>
        onlyAnswers { (s.moment t) with seq0 := s'.seq0 } s' ∧ s'.seq0.armed = true ∧ s'.seq0.stopAt = none ∧ s'.seq0.next = (s.moment t).time.si / 16 * 16 + 16 ∧
        s'.cmd.deferredArm = none ∧ 131 ∈ s'.events.raised ∧ 133 ∈ s'.events.raised))

/-- R148 to R151, R163, R176 to R178: SET_TRIGOUT changes the masked pins, a pulse in progress ending. A due pulse asserts at its frame boundary for WIDTH frames,
counted in LATE with event 134 where it was late; in doubt none asserts. A pulse ends after its width. A cancel drives its 2-frame pattern once the pin has been
inactive for 2 frames, counted, with event 140, and with event 141 where a later basted pulse stands on the pin. In the pattern, its guard frames and the 2 frames
before it a due pulse waits for the guard's end, late where it is aligned. -/
def Obligations.TriggerOutputs : Prop :=
  ∀ (s : State) (t : SI) (p : Packet) (pin : Fin 8) (d : DuePulse) (c : Basted),
    let x := s.out pin.val
    let b := (s.moment t).boundary
    let bits := s.safe.causes
    let from_ := max (max c.at_ (if 0 < x.until_ then x.until_ + 32 else 0)) x.guardUntil
    let held := fun (g : SI) => { x with due := x.due.map (fun e => if e.at_ ≤ b then { e with at_ := g, late := e.late || e.aligned } else e) }
    let others := fun (s' : State) => onlyPlaces { (s.moment t) with pins := s'.pins } s' ∧ ∀ n, n ≠ pin.val → s'.out n = s.out n
    (accepted s t opSetTrigout p → completes (.setTrigout t p) s (fun s' => onlyAnswers { (s.moment t) with pins := s'.pins } s' ∧ ∀ n, n < 8 →
      let o := s.out n
      let y := s'.out n
      let f := fun (ofs size : Nat) => pField p.params (8 + 8 * n + ofs) size
      let new := { o with
        source := f 0 1, basted := (f 1 1).testBit 0, align := (f 1 1).testBit 1, polarity := (f 1 1).testBit 2, width := f 2 1, delayNs := f 4 4 }
      y = if (pField p.params 0 1).testBit n = true ∧ new ≠ o then { new with active := false, cancelUntil := min o.cancelUntil (s.moment t).time.si } else o)) ∧
    ((bits ≠ 0 ∨ (x.cancels = [] ∧ x.guardUntil ≤ b ∧ ∀ e ∈ x.due, b < e.at_)) → doesNothing (.trigOutAssert t pin) t s) ∧
    (bits = 0 → x.cancels = [] → b < x.guardUntil → completes (.trigOutAssert t pin) s (fun s' => others s' ∧ s'.out pin.val = held x.guardUntil)) ∧
    (bits = 0 → x.cancels = [c] → from_ ≤ b + 32 → completes (.trigOutAssert t pin) s (fun s' => others s' ∧ s'.out pin.val = held (max from_ b + 64))) ∧
    (bits = 0 → x.due = [d] → d.at_ ≤ b → x.cancels = [] → x.guardUntil ≤ b → x.active = false → completes (.trigOutAssert t pin) s (fun s' => others s' ∧
      s'.out pin.val = { x with
        active := true, began := b, until_ := b + 16 * x.width, due := []
        shown := match d.baste with
          | some k => x.shown ++ [{ key := k, began := b, fin := b + 16 * x.width }]
          | none => x.shown } ∧
      .pin pin.val (!x.polarity) ∈ s'.obs.posted ∧ s'.pins.merged = s.pins.merged ∧
      s'.pins.late = (if d.late then min (s.pins.late + 1) 255 else s.pins.late) ∧ (d.late = true → 134 ∈ s'.events.raised))) ∧
    (bits = 0 → x.due = [d] → d.at_ ≤ b → x.cancels = [] → x.guardUntil ≤ b → x.active = true → completes (.trigOutAssert t pin) s (fun s' => others s' ∧
      (s'.out pin.val).active = true ∧ (s'.out pin.val).until_ = max (b + 16 * x.width) x.until_ ∧ (s'.out pin.val).due = [] ∧
      s'.pins.merged = min (s.pins.merged + 1) 255 ∧ 135 ∈ s'.events.raised)) ∧
    ((x.active = false ∨ b < x.until_) → doesNothing (.trigOutPulseEnd t pin) t s) ∧
    (x.active = true → x.until_ ≤ b → completes (.trigOutPulseEnd t pin) s (fun s' => others s' ∧ s'.out pin.val = { x with active := false } ∧
      s'.obs.posted = .pin pin.val x.polarity :: s.obs.posted)) ∧
    ((bits ≠ 0 ∨ x.active = true ∨ x.cancels = [] ∨ b < x.guardUntil) → doesNothing (.cancelPattern t pin) t s) ∧
    (x.cancels = [c] → b < from_ → doesNothing (.cancelPattern t pin) t s) ∧
    (bits = 0 → x.cancels = [c] → from_ ≤ b → x.active = false → completes (.cancelPattern t pin) s (fun s' =>
      others s' ∧ s'.out pin.val = { x with
        cancels := [], active := true, began := b, until_ := b + 32, cancelUntil := b + 32, guardUntil := b + 64 } ∧
      s'.pins.cancels = min (s.pins.cancels + 1) 255 ∧ 140 ∈ s'.events.raised ∧
      ((∃ e ∈ x.shown, c.began < e.began) → s'.pins.ambig = min (s.pins.ambig + 1) 255 ∧ 141 ∈ s'.events.raised) ∧
      ((∀ e ∈ x.shown, e.began ≤ c.began) → s'.pins.ambig = s.pins.ambig) ∧ .pin pin.val (!x.polarity) ∈ s'.obs.posted))

/-! ### The cascade (05_baste_and_cascade.md) -/

/-- R180, R187, R200, R201: SET_UNIT holds its fields, and the next IDLE of every port in use announces the unit ID; SET_PORT_ROLE gives every port its role, and a
port whose role changes trains anew, shows DEPTH where it is a downstream port at depth 4, or is powered down with role 0. A unit without an upstream port has depth 0,
one with a new upstream port the unknown depth 7. -/
def Obligations.UnitAndPortRoles : Prop :=
  ∀ (s : State) (t : SI) (p : Packet),
    let f := pField p.params
    let role := fun (n : Nat) => f 0 4 / 4 ^ n % 4
    let x := s.moment t
    (accepted s t opSetUnit p → completes (.setUnit t p) s (fun s' => onlyAnswers { x with cas := { s.cas with
      unitId := BitVec.ofNat 14 (f 0 2), localArm := (f 2 1).testBit 0, sendFire := (f 2 1).testBit 1, retroWin := (f 2 1).testBit 2
      preopen := (f 2 1).testBit 3, retroWpol := f 3 1, ports := s'.cas.ports } } s' ∧
      ∀ n, let q := s.port n
        (∃ k run, s'.port n = { q with idle := (s'.port n).idle, idlesTx := k, txRun := run }) ∧
        (q.role = 1 ∨ q.role = 2 → (s'.port n).idle.toNat / 2 ^ 20 % 2 ^ 14 = f 0 2))) ∧
    (accepted s t opSetPortRole p → completes (.setPortRole t p) s (fun s' =>
      onlyAnswers { x with cas := s'.cas, cap := s'.cap, pins := s'.pins } s' ∧ s'.cas.unitId = s.cas.unitId ∧ s'.cas.sendFire = s.cas.sendFire ∧
      s'.cas.retroWin = s.cas.retroWin ∧
      (∀ n, n < 16 → (s'.port n).role = role n ∧ (role n ≠ (s.port n).role →
        (s'.cas.depth ≠ 4 → (s'.port n).state = (if role n = 0 then 0 else 1)) ∧ (s'.cas.depth = 4 → role n = 2 → (s'.port n).state = 4))) ∧
      (s'.cas.upPort = none → s'.cas.depth = 0) ∧ (∀ n, s'.cas.upPort = some n → s.cas.upPort ≠ some n → s'.cas.depth = 7)))

/-- R180, R181, R183, R187, R204: an IDLE trains a port whose link is down, and is answered with the port's own (the answer is the model's choice,
notes/assumptions/47.md): 16 in each direction with complementary roles and a known depth of at most 3 take it up, with event 48; equal roles show state 3, with event
50, a depth beyond 3 state 4, with event 51. On a link that is up it carries the acknowledgement. A link falls after 1 µs without block lock, after 16
retransmissions, on a full queue or a change of role, counted, with event 49; a downstream port of a unit at depth 4 then shows DEPTH. With no acknowledgement for
2 µs all that waits is sent again, a time request with the stamp of its new departure (notes/assumptions/58.md). A message with a bad CRC
is counted and answered with NAK, and the copy that a cut-through has begun goes on with its CRC inverted. -/
def Obligations.CascadeLinks : Prop :=
  ∀ (s : State) (t : SI) (port : Fin 16) (w : IdleBlock) (cause : LinkDownCause) (cut : Option (Fin 16 × CasMsg)),
    let n := port.val
    let p := s.port n
    let x := s.moment t
    let cas := fun (s' : State) => onlyPlaces { x with cas := s'.cas } s' ∧ s'.cas.unitId = s.cas.unitId ∧ s'.cas.remote = s.cas.remote
    let set := fun (q : Port) => ({ x with cas := { s.cas with ports := tput s.cas.ports n q } } : State)
    let trains := p.role ≠ 0 ∧ p.blockLock = true ∧ p.fell = false ∧ p.state ≠ 2
    let roles := (w.role.val = 1 ∨ w.role.val = 2) ∧ p.role + w.role.val = 3
    let depth := if p.role = 1 then w.depth.val else s.cas.depth
    let word := s.idleWord n
    let sent := if p.idle = word then p.idlesTx + 1 else 1
    let late := p.ackAt + slotsOfNs s.time.ref.rateKhz 2000 ≤ x.time.si
    let falls := match cause with
      | .blockLock => p.state = 2 ∧ ∃ y, p.lockLostAt = some y ∧ y + slotsOfNs s.time.ref.rateKhz 1000 ≤ x.time.si
      | .roleChange => p.state = 2
      | _ => p.fell = true
    ((p.role = 0 ∨ p.blockLock = false ∨ p.fell = true) → doesNothing (.idle t port w) t s) ∧
    (trains → ¬roles → completes (.idle t port w) s (fun s' => cas s' ∧ (s'.port n).state = 3 ∧ (p.state ≠ 3 → 50 ∈ s'.events.raised))) ∧
    (trains → roles → 3 < depth → depth ≠ 7 → completes (.idle t port w) s (fun s' => cas s' ∧ (s'.port n).state = 4 ∧
      (p.state ≠ 4 → 51 ∈ s'.events.raised))) ∧
    (trains → roles → depth = 7 → completes (.idle t port w) s (fun s' => cas s' ∧ (s'.port n).state = 1 ∧ (s'.port n).idles = 0)) ∧
    (trains → roles → depth ≤ 3 → (p.idles < 15 ∨ sent < 16) → completes (.idle t port w) s (fun s' => cas s' ∧ .tiuth n true [word] ∈ s'.obs.posted ∧
      s'.port n = { p with
        state := 1, idles := p.idles + 1, peerRole := w.role.val, peerDepth := w.depth.val, idle := word, idlesTx := sent, txRun := 0 })) ∧
    (trains → roles → depth ≤ 3 → 15 ≤ p.idles → 16 ≤ sent → p.queue = [] → completes (.idle t port w) s (fun s' => cas s' ∧ (s'.port n).state = 2 ∧ (s'.port n).peer = w.unitId ∧
      (s'.port n).rxValid = false ∧ 48 ∈ s'.events.raised ∧ s'.cas.depth = (if p.role = 1 then w.depth.val + 1 else s.cas.depth))) ∧
    (p.role ≠ 0 → p.blockLock = true → p.fell = false → p.state = 2 → w.nak = false → p.queue = [] → completes (.idle t port w) s (fun s' => cas s' ∧
      (s'.port n).state = 2 ∧ (s'.port n).peer = w.unitId ∧ (w.ackValid = false → (s'.port n).unacked = p.unacked) ∧
      (∀ old m new, w.ackValid = true → p.unacked = old ++ m :: new → m.msg.linkSeq = w.ackSeq → (∀ y ∈ old, y.msg.linkSeq ≠ w.ackSeq) →
        (s'.port n).unacked = new))) ∧
    (¬falls → doesNothing (.cascadeLinkDown t port cause) t s) ∧
    (falls → completes (.cascadeLinkDown t port cause) s (fun s' => onlyPlaces { x with cas := s'.cas, cap := s'.cap, pins := s'.pins } s' ∧
      (s'.port n).state = (if p.role = 0 then 0 else if p.role = 2 ∧ s.cas.depth = 4 then 4 else 1) ∧ (s'.port n).downCnt = min (p.downCnt + 1) 255 ∧ (s'.port n).unacked = [] ∧
      49 ∈ s'.events.raised ∧ (p.role = 1 → s'.cas.depth = 7 ∧ s'.cas.remote = []))) ∧
    ((p.state ≠ 2 ∨ p.unacked = [] ∨ ¬late) → doesNothing (.retransmitTimeout t port) t s) ∧
    (p.state = 2 → late → p.unacked ≠ [] → p.sameRetry < 15 → completes (.retransmitTimeout t port) s (fun s' => ∃ k run word l,
      s' = { x with
        cas := { s.cas with
          ports := tput s.cas.ports n { p with
            retry := min (p.retry + 1) 255, sameRetry := p.sameRetry + 1, ackAt := x.time.si, idle := word, idlesTx := k, txRun := run }
          timeSent := if p.unacked.any (fun m => m.type = 7 && m.msg.flags = 0) then x.time.stAt x.time.si else s.cas.timeSent }
        obs := { s.obs with posted := l ++ s.obs.posted } } ∧ ∀ m ∈ p.unacked, Posted.message n m.type m.msg ∈ l)) ∧
    (p.state = 2 → late → p.unacked ≠ [] → 15 ≤ p.sameRetry → exec (.retransmitTimeout t port) s =
      .next (set { p with retry := min (p.retry + 1) 255, sameRetry := 16, ackAt := x.time.si, state := 5, fell := true })) ∧
    (p.role = 0 → doesNothing (.blockLockAchieved t port) t s) ∧
    (p.role ≠ 0 → exec (.blockLockAchieved t port) s = .next (set { p with blockLock := true, lockLostAt := none })) ∧
    (p.blockLock = false → doesNothing (.blockLockLoss t port) t s) ∧
    (p.blockLock = true → exec (.blockLockLoss t port) s = .next (set { p with blockLock := false, lockLostAt := some x.time.si, idles := 0 })) ∧
    (p.state ≠ 2 → doesNothing (.badCrcMessage t port cut) t s) ∧
    (p.state = 2 → completes (.badCrcMessage t port cut) s (fun s' => onlyPlaces { x with cas := { s.cas with ports := s'.cas.ports } } s' ∧
      (∃ k run, s'.port n = { p with crcErr := min (p.crcErr + 1) 255, nak := true, idle := (s'.port n).idle, idlesTx := k, txRun := run }) ∧
      (p.role ≠ 0 → (s'.port n).idle.getLsbD 17 = true) ∧
      (∀ type m k, cut = some (type, m) → k ∈ s.routes m → (s.port k).state = 2 → (s.port k).queue = [] → (s.port k).unacked.length < 64 →
        Posted.badCopy k type.val { m with linkSeq := (s.port k).txSeq, dir := if (s.port k).role = 1 then 0 else 1 } ∈ s'.obs.posted)))

/-- R180, R183: whatever its type, a message on a link that is not up is lost, and one that is not the next of its LINK_SEQ order is discarded and answered with NAK
in the port's next IDLE; but for IDLEs that go out, nothing else happens. The first LINK_SEQ of a link is the model's choice (notes/assumptions/57.md). -/
def Obligations.MessagesOutOfOrder : Prop :=
  ∀ (s : State) (t : SI) (port : Fin 16) (m : CasMsg) (c : Instr),
    let p := s.port port.val
    c ∈ [.armMessage t port m, .disarmMessage t port m, .fire t port m, .basteMessage t port m, .sewMessage t port m, .unpickMessage t port m,
      .discover t port m, .report t port m, .armResult t port m, .isolated t port m, .rejoined t port m, .doubtMessage t port m] →
    (p.state ≠ 2 → doesNothing c t s) ∧
    (p.state = 2 → m.linkSeq ≠ nextSeq s port.val → completes c s (fun s' => ∃ l,
      s' = { (s.moment t) with cas := { s.cas with ports := s'.cas.ports }, obs := { s.obs with posted := l ++ s.obs.posted } } ∧
      (∀ e ∈ l, ∃ k w, e = .tiuth k true [w]) ∧
      (∃ k run, s'.port port.val = { p with nak := true, idle := (s'.port port.val).idle, idlesTx := k, txRun := run }) ∧
      (p.role ≠ 0 → (s'.port port.val).idle.getLsbD 17 = true)))

/-- R189, R190: ARM and DISARM from the upstream port are held for their due ST, with a log entry reserved; one whose due ST has passed, or that finds 8 held, fails
with event 59. A due one acts as the unit's own command would, with event 58, or fails. The root counts the failures of other units that reach it, with event 60. -/
def Obligations.CascadeCommands : Prop :=
  ∀ (s : State) (t : SI) (port : Fin 16) (m : CasMsg) (arm : Bool) (c : CasCmd),
    let x := s.moment t
    let b := x.boundary
    let q := s.seq0
    let run := if arm then Instr.armMessage t port m else .disarmMessage t port m
    let mine := takesMessage s port.val m ∧ (s.port port.val).role = 1 ∧ m.origin ≠ s.cas.unitId
    let passed := 16 ≤ b ∧ CasMsg.st m ≤ x.stNow (b - 16)
    let held : CasCmd := { arm := arm, load := m.a.getLsbD 0, restart := m.a.getLsbD 1, due := CasMsg.st m, number := m.d.toNat, master := m.origin.toNat }
    let due := s.cas.commands = [c] ∧ c.due ≤ x.stNow b
    (takesMessage s port.val m → (s.port port.val).role ≠ 1 → completes run s (fun s' => onlyPlaces { x with cas := s'.cas } s' ∧
      s'.cas.commands = s.cas.commands)) ∧
    (mine → ¬passed → s.cas.commands.length < 8 → s.log.canReserve 1 = true → completes run s (fun s' =>
      onlyPlaces { x with cas := s'.cas, log := { s.log with reserved := s.log.reserved + 1 } } s' ∧ s'.cas.commands = s.cas.commands ++ [held])) ∧
    (mine → (passed ∨ 8 ≤ s.cas.commands.length) → completes run s (fun s' => onlyPlaces { x with cas := s'.cas } s' ∧
      s'.cas.commands = s.cas.commands ∧ 59 ∈ s'.events.raised)) ∧
    (quiet s → (∀ y ∈ s.cas.commands, x.stNow b < y.due) → answers (.cascadeCommandDue t) s x) ∧
    (quiet s → due → c.arm = false → q.armed = true → q.halted = false → q.uneval = 0 → completes (.cascadeCommandDue t) s (fun s' =>
      onlyAnswers { x with cas := { s.cas with commands := [] }, seq0 := { q with armed := false, stopAt := some b } } s' ∧ 58 ∈ s'.events.raised ∧
      s'.log.count = s.log.count + (if s.cmd.deferredArm.isSome then 2 else 1))) ∧
    (quiet s → due → c.arm = true → c.load = false → s.safe.causes = 0 → s.cap.runState = 1 → q.stopAt = none → q.armed = false → q.halted = false →
      completes (.cascadeCommandDue t) s (fun s' => onlyAnswers { x with cas := { s.cas with commands := [] }, seq0 := s'.seq0 } s' ∧
        s'.seq0.armed = true ∧ s'.seq0.from_ = b ∧ s'.seq0.active = q.active ∧ 58 ∈ s'.events.raised ∧ 131 ∈ s'.events.raised)) ∧
    (quiet s → due → c.arm = true → s.safe.causes ≠ 0 → completes (.cascadeCommandDue t) s (fun s' => onlyAnswers { x with cas := s'.cas } s' ∧
      s'.cas.commands = [] ∧ 59 ∈ s'.events.raised)) ∧
    (takesMessage s port.val m → s.cas.role = 2 → completes (.armResult t port m) s (fun s' => onlyPlaces { x with cas := s'.cas } s' ∧
      s'.cas.armFail = s.cas.armFail)) ∧
    (takesMessage s port.val m → s.cas.role ≠ 2 → m.origin = s.cas.unitId → completes (.armResult t port m) s (fun s' =>
      onlyPlaces { x with cas := s'.cas } s' ∧ s'.cas.armFail = s.cas.armFail)) ∧
    (takesMessage s port.val m → s.cas.role ≠ 2 → m.origin ≠ s.cas.unitId → completes (.armResult t port m) s (fun s' =>
      onlyPlaces { x with cas := s'.cas } s' ∧ s'.cas.armFail = min (s.cas.armFail + 1) 65535 ∧ s'.cas.lastFailUnit = m.origin ∧ 60 ∈ s'.events.raised))

/-- R175, R191 to R195: a FIRE or SEW that is delivered is counted, with event 55, and makes a retro-tack, with event 139, or finds no active run, with event 62. A
BASTE is stored, or finds 256 stored, with event 142; its SEW, its UNPICK or its expiry, with event 143, takes it out. What is not delivered is only passed on. -/
def Obligations.FiresAndRemoteBastes : Prop :=
  ∀ (s : State) (t : SI) (port : Fin 16) (m : CasMsg) (o : BitVec 14) (k : BitVec 16),
    let x := s.moment t
    let here := takesMessage s port.val m ∧ delivers s m
    let past := takesMessage s port.val m ∧ ¬delivers s m
    let key := fun (r : RemoteBaste) => r.origin = m.origin.toNat ∧ r.number = m.d.toNat
    let rest := s.cas.remote.filter (fun r => decide (¬key r))
    let old := fun (r : RemoteBaste) => decide (r.origin = o.toNat ∧ r.number = k.toNat)
    let only := fun (s' : State) => onlyPlaces { x with cas := s'.cas, seq0 := s'.seq0, pins := s'.pins, cap := s'.cap } s' ∧
      s'.seq0.armed = s.seq0.armed ∧ s'.seq0.tackNo = s.seq0.tackNo ∧ s'.cap.runState = s.cap.runState
    let passedOn := fun (s' : State) => onlyPlaces { x with cas := s'.cas } s' ∧ s'.cas.fireRx = s.cas.fireRx ∧ s'.cas.remote = s.cas.remote
    let counted := fun (s' : State) => only s' ∧ s'.cas.fireRx = min (s.cas.fireRx + 1) 65535 ∧ 55 ∈ s'.events.raised ∧
      (s.cap.runState ≠ 1 → s'.cas.retroNoRun = min (s.cas.retroNoRun + 1) 65535 ∧ 62 ∈ s'.events.raised) ∧
      (s.cap.runState = 1 → s'.cas.retroNoRun = s.cas.retroNoRun ∧ 139 ∈ s'.events.raised)
    (past → completes (.fire t port m) s passedOn ∧ completes (.basteMessage t port m) s passedOn ∧ completes (.sewMessage t port m) s passedOn ∧
      completes (.unpickMessage t port m) s passedOn) ∧
    (here → completes (.fire t port m) s (fun s' => counted s' ∧ s'.cas.remote = s.cas.remote)) ∧
    (here → s.cas.remote.length < 256 → completes (.basteMessage t port m) s (fun s' => only s' ∧ s'.cas.storeFull = s.cas.storeFull ∧
      ∃ r, key r ∧ r.st = CasMsg.st m ∧ r.a = m.a.toNat ∧ s'.cas.remote = rest ++ [r])) ∧
    (here → 256 ≤ s.cas.remote.length → completes (.basteMessage t port m) s (fun s' => only s' ∧ s'.cas.remote = s.cas.remote ∧
      s'.cas.storeFull = min (s.cas.storeFull + 1) 65535 ∧ 142 ∈ s'.events.raised)) ∧
    (here → completes (.sewMessage t port m) s (fun s' => counted s' ∧ s'.cas.remote = rest)) ∧
    (here → completes (.unpickMessage t port m) s (fun s' => only s' ∧ s'.cas.remote = rest ∧ s'.cas.fireRx = s.cas.fireRx)) ∧
    (s.cas.remote.find? old = none → doesNothing (.remoteBasteExpiry t o k) t s) ∧
    (∀ r, s.cas.remote.find? old = some r → x.stNow x.boundary < x.expiry r → doesNothing (.remoteBasteExpiry t o k) t s) ∧
    (∀ r, s.cas.remote.find? old = some r → x.expiry r ≤ x.stNow x.boundary → completes (.remoteBasteExpiry t o k) s (fun s' => only s' ∧
      s'.cas.remote = s.cas.remote.filter (fun y => !old y) ∧ s'.cas.expired = min (s.cas.expired + 1) 65535 ∧ 143 ∈ s'.events.raised))

/-- R186, R188, R196, R197, R201: a child answers DISCOVER up its upstream port; the root writes each REPORT to the host's buffer, while its discovery runs. ISOLATED opens link doubt on the
upstream port, with event 53, and unpicks every remote baste; REJOINED ends it, with event 54. DOUBT adds the unit to those in doubt or takes it out, with event 56
or 57. Of a message with the unit's own ID nothing is done but to pass it on. -/
def Obligations.TreeMessages : Prop :=
  ∀ (s : State) (t : SI) (port : Fin 16) (m : CasMsg) (j : Job),
    let x := s.moment t
    let n := port.val
    let p := s.port n
    let mine := m.origin = s.cas.unitId
    let cas := fun (s' : State) => onlyPlaces { x with cas := s'.cas } s' ∧ s'.cas.unitId = s.cas.unitId
    let idles := fun (s' : State) => cas s' ∧ ∃ l, s'.obs.posted = l ++ s.obs.posted ∧ ∀ e ∈ l, ∃ k w, e = .tiuth k true [w]
    let still := fun (s' : State) => cas s' ∧ (s'.port n).linkDoubt = p.linkDoubt ∧ s'.cas.remote = s.cas.remote
    takesMessage s n m →
    (p.role = 1 → ¬mine → s.cas.upPort = some n → s.cas.downPorts = [] → p.queue = [] → p.unacked.length < 64 → completes (.discover t port m) s (fun s' =>
      cas s' ∧ ∃ l r, s'.obs.posted = l ++ s.obs.posted ∧ Posted.message n 8 r ∈ l ∧ r.origin = s.cas.unitId ∧
        r.b.toNat % 65536 = s.cas.unitId.toNat ∧ r.b.toNat / 65536 % 65536 = p.peer.toNat)) ∧
    (p.role ≠ 1 → completes (.discover t port m) s idles ∧ completes (.isolated t port m) s idles ∧ completes (.rejoined t port m) s idles) ∧
    (p.role = 1 → mine → completes (.discover t port m) s still ∧ completes (.isolated t port m) s still ∧ completes (.rejoined t port m) s still) ∧
    (s.cas.role = 2 → completes (.report t port m) s (fun s' => cas s' ∧ s'.cas.discoverWritten = s.cas.discoverWritten)) ∧
    (s.cas.role ≠ 2 → (mine ∨ x.discovery = none) → completes (.report t port m) s idles) ∧
    (s.cas.role ≠ 2 → ¬mine → x.discovery = some j → j.state = .suspended → completes (.report t port m) s (fun s' => cas s' ∧
      s'.cas.discoverIds = s.cas.discoverIds ∧ s'.cas.discoverHeld.length = s.cas.discoverHeld.length + 1 ∧
      ∃ l, s'.obs.posted = l ++ s.obs.posted ∧ ∀ e ∈ l, ∃ k w, e = .tiuth k true [w])) ∧
    (s.cas.role ≠ 2 → ¬mine → x.discovery = some j → j.state = .running → 16 * (s.cas.discoverWritten + 1) ≤ pField j.ctx.params 8 4 → completes (.report t port m) s (fun s' => cas s' ∧
      s'.cas.discoverWritten = s.cas.discoverWritten + 1 ∧ s'.cas.discoverIds = s.cas.discoverIds ++ [m.b.toNat % 65536] ∧
      ∃ e, .hostWrite (pField j.ctx.params 0 8 + 16 * s.cas.discoverWritten) e ∈ s'.obs.posted ∧ e.length = 16)) ∧
    (p.role = 1 → ¬mine → completes (.isolated t port m) s (fun s' => onlyPlaces { x with cas := s'.cas, cap := s'.cap, pins := s'.pins } s' ∧
      (s'.port n).linkDoubt = p.linkDoubt ||| 2 ∧ s'.cas.remote = [] ∧ (p.linkDoubt = 0 → 53 ∈ s'.events.raised))) ∧
    (p.role = 1 → ¬mine → completes (.rejoined t port m) s (fun s' => cas s' ∧ s'.cas.remote = s.cas.remote ∧ (s'.port n).linkDoubt = p.linkDoubt &&& ~~~2#32 ∧
      (p.linkDoubt = 2 → 54 ∈ s'.events.raised))) ∧
    (delivers s m → completes (.doubtMessage t port m) s (fun s' => onlyPlaces { x with cas := s'.cas, seq0 := s'.seq0 } s' ∧
      (m.flags.getLsbD 0 = true → s'.cas.doubtUnits = ninsert s.cas.doubtUnits m.origin.toNat ∧ 56 ∈ s'.events.raised) ∧
      (m.flags.getLsbD 0 = false → s'.cas.doubtUnits = s.cas.doubtUnits.filter (fun u => u ≠ m.origin.toNat) ∧ 57 ∈ s'.events.raised))) ∧
    (¬delivers s m → completes (.doubtMessage t port m) s (fun s' => cas s' ∧ s'.cas.doubtUnits = s.cas.doubtUnits))

/-! ### Runs, windows and decoders (06_reductions_and_windows.md, 07_protocol_decoders.md) -/

/-- R216, R233 to R235: SET_REDUCTION changes the one reduction it names in the regions it names and leaves every other setting; SET_LOOKBACK sets the sizes and
shares, and a change discards the content of both rings; SET_WINDOW_POLICY sets one policy. -/
def Obligations.ReductionSettings : Prop :=
  ∀ (s : State) (t : SI) (p : Packet),
    let f := pField p.params
    let x := s.moment t
    let named := fun (r : Nat) => if f 0 1 = 255 then r < 4 else r = f 0 1
    let on := (f 2 1).testBit 0
    let clock : StateClock := { clk := f 8 1, slope := f 9 1, setup := f 10 2, hold := f 12 2, ofs := pInt p.params 14 2, mask := pMask p.params 24 }
    let new := fun (c : RegionCfg) => match f 1 1 with
      | 0 => { c with trnGroupsLog2 := f 8 1 }
      | 1 => { c with clocks := if on then tput c.clocks (f 3 1) clock else tdel c.clocks (f 3 1) }
      | 2 => { c with statsOn := on, statLog2 := if on then f 8 1 else c.statLog2, chMask := if on then pMask p.params 16 else c.chMask }
      | _ => { c with engMask := if on then BitVec.ofNat 16 (f 8 2) else 0 }
    let cap := { s.cap with lbGib := f 0 4, redGib := f 4 4, share := (List.range 4).map (fun r => f (8 + r) 1), pinLimit := f 12 1 }
    let gone := (List.range 4).map (fun r => (r, x.boundary))
    (accepted s t opSetReduction p → completes (.setReduction t p) s (fun s' => (∃ rs, onlyAnswers { x with regions := rs } s') ∧
      ∀ r, (s'.region r).cfg = if named r then new (s.region r).cfg else (s.region r).cfg)) ∧
    (accepted s t opSetLookback p → answers (.setLookback t p) s { x with
      cap := cap
      data := if cap = s.cap then s.data else { s.data with
        lookback := (List.range 4).map (fun r => (r, { (tfind s.data.lookback r).getD {} with segs := [], gone := gone }))
        reduction := { s.data.reduction with segs := [], gone := gone } } }) ∧
    (accepted s t opSetWindowPolicy p → answers (.setWindowPolicy t p) s { x with cap := { s.cap with policies := tput s.cap.policies (f 0 1) {
      valid := (f 1 1).testBit 0, merge := (f 1 1).testBit 1, regions := f 2 1, red := f 3 1, pre := f 8 8, post := f 16 8 } } })

/-- R228 to R230: START_RUN begins a run with its ID at the next frame boundary, with event 12, its ANCHOR in the directory and every channel's present level as its
level at the start; STOP_RUN ends it at the next frame boundary and cancels the ARM and START_RUN that wait. The shut-down waits for slot E + 64 and for the
sequencer, then places all below E; once all of it is in DRAM the run is IDLE, with event 13. -/
def Obligations.RunsStartAndStop : Prop :=
  ∀ (s : State) (t : SI) (p : Packet),
    let x := s.moment t
    let b := x.boundary
    let cap := s.cap
    let going := cap.runState = 2 ∧ s.seq0.stopAt = none ∧ cap.runE + 64 ≤ x.time.si
    (accepted s t opStartRun p → completes (.startRun t p) s (fun s' => 12 ∈ s'.events.raised ∧
      s'.cap.runState = 1 ∧ s'.cap.runId = pField p.params 0 4 ∧ s'.cap.runB = b ∧
      (b % 1048576 ≠ 0 → (∀ e ∈ cap.early, e.time / 64 < b) → onlyAnswers { x with
        cap := { cap with runState := 1, runId := pField p.params 0 4, runB := b, flushed := false, ending := false, endAnchor := none, early := [] }
        cells := s.cells.map (fun e => (e.1, { e.2 with levelAtEnable := e.2.level })), blocks := s'.blocks, ivls := s'.ivls, seq0 := s'.seq0, engines := s'.engines, cutEngines := s'.cutEngines
        data := { s.data with anchors := (b, recAnchor x.time b true false) :: s.data.anchors.filter (fun e => e.1 ≠ b) } } s'))) ∧
    (accepted s t opStopRun p → completes (.stopRun t p) s (fun s' => s'.cmd.deferredArm = none ∧ s'.cmd.deferredStart = none ∧
      (cap.runState ≠ 1 → onlyAnswers x s') ∧
      (cap.runState = 1 → s.seq0.uneval = 0 → s.seq0.halted = false → onlyAnswers { x with
        cap := { cap with
          runState := 2, runE := b, endAnchor := some (recAnchor (x.timeFor b) b false true)
          slots := cap.slots.map (fun w => (w.1, if b ≤ w.2.reqEnd then { w.2 with reqEnd := b - 1, stopped := true } else w.2)) }
        blocks := s.blocks.map (fun e => (e.1, { e.2 with align := e.2.align.filter (fun a => decide (a.time / 64 < b)) }))
        ivls := s.ivls.map (fun e => (e.1, { e.2 with buf := e.2.buf.filter (fun a => decide (a.time / 64 < b)) }))
        seq0 := if s.seq0.armed then { s.seq0 with armed := false, stopAt := some b } else s.seq0 } s'))) ∧
    (quiet s → (cap.runState ≠ 2 ∨ s.seq0.stopAt ≠ none ∨ x.time.si < cap.runE + 64) → answers (.runShutdownEnd t) s x) ∧
    (quiet s → going → cap.flushed = false → s.cmd.deferredStart = none → completes (.runShutdownEnd t) s (fun s' => s'.cap.runB = cap.runB ∧
      (s'.cap.runState = 0 ∨ s'.cap.runState = 2 ∧ s'.cap.flushed = true ∧ s'.cap.runE = cap.runE))) ∧
    (quiet s → going → cap.flushed = true → s.runDrained = false → answers (.runShutdownEnd t) s x) ∧
    (quiet s → going → cap.flushed = true → s.runDrained = true → s.streams = [] → s.cmd.deferredStart = none → completes (.runShutdownEnd t) s (fun s' =>
      13 ∈ s'.events.raised ∧ onlyAnswers { x with
        cap := { cap with runState := 0, flushed := false, pastRuns := (cap.runB, cap.runE) :: cap.pastRuns }
        dram := { s.dram with idleSince := x.time.si } } s'))

/-- R222 to R224, R236: EXPORT_WINDOW is a job that opens a window in the lowest free slot, or waits for one. A window segment read takes the next segment of its part
from history by a DRAM read (R370, R377, R393), a clean one here, and moves on past it, or pauses the window where a bobbin of its source has no room; a window closes only when every part is done, and its slot is
free. -/
def Obligations.WindowsAreDelivered : Prop :=
  ∀ (s : State) (t : SI) (p : Packet) (k : Fin 64) (n : Fin 16) (w : WSlot) (q : WPart) (g : Seg),
    let x := s.moment t
    let read := Instr.windowSegmentRead t k n {}
    let cut := g.windowCut w q (Config.lz4Block s.freeCtr)
    let others := fun (s' : State) => ∀ j, j ≠ k.val → s'.cap.slot j = s.cap.slot j
    let waits := s.cmd.jobs.any (fun j => j.ctx.opcode = 0x0510 && j.state = .queued)
    let open_ := s.cap.slot k.val = some w ∧ 2 ≤ w.state ∧ w.exportJob = none
    let done := w.parts.all (x.partDone w) = true
    (accepted s t opExportWindow p → waits = false → ∀ j, s.cap.freeSlot = some j → completes (.exportWindow t p) s (fun s' =>
      jobStarted s s' 0x0510 p.params .running ∧ onlyAnswers { x with cap := s'.cap } s' ∧ s'.cap.lastId = nextWindowId s.cap.lastId ∧
      ∃ v, s'.cap.slot j = some v ∧ v.state = 2 ∧ v.exportJob = some s.cmd.nextJob ∧ v.id = s'.cap.lastId ∧ v.policy = pField p.params 16 1 ∧
        v.regions = pField p.params 17 1 ∧ v.red = pField p.params 18 1 ∧ v.reqStart = pField p.params 0 8 / 16 * 16 ∧ v.t = pField p.params 0 8 ∧
        v.post = pField p.params 8 8 - pField p.params 0 8)) ∧
    (accepted s t opExportWindow p → (waits = true ∨ s.cap.freeSlot = none) → completes (.exportWindow t p) s (fun s' =>
      jobStarted s s' 0x0510 p.params .queued ∧ onlyAnswers x s')) ∧
    (quiet s → (∀ v, s.cap.slot k.val = some v → v.state < 2) → answers read s x ∧ answers (.windowClose t k) s x) ∧
    (quiet s → open_ → w.opened = true → w.parts[n.val]? = some q → q.lost = [] → s.nextHistory w q = none → answers read s x) ∧
    (quiet s → open_ → w.opened = true → w.parts[n.val]? = some q → q.lost = [] → s.nextHistory w q = some g → cut.items ≠ [] →
      cut.uncompLen ≤ payloadMax → s.dram.foundIn (s.segAccesses g) {} = .clean →
      (x.windowRoom w.policy cut.len = true → completes read s (fun s' => others s' ∧
        onlyAnswers { x with cap := { s.cap with slots := s'.cap.slots }, dram := s'.dram, data := { s.data with
          windowIdx := tput s.data.windowIdx w.id ((tfind s.data.windowIdx w.id).getD 0 + 1) } } s' ∧
        s'.data.nextSeg = s.data.nextSeg + 1 ∧ s'.dram.mem = s.dram.mem ∧ s'.dram.markers = s.dram.markers ∧
        s'.dram.rdBytes = s.dram.rdBytes + g.size ∧ s'.dram.idleSince = x.time.si ∧
        ∃ v y, s'.cap.slot k.val = some v ∧ v.state = 2 ∧ v.opened = true ∧ v.pos = max w.pos (floor16 (min g.lastSi w.reqEnd)) ∧
          v.frames = max w.frames (w.framesTo (v.pos + 15)) ∧
          v.parts[n.val]? = some y ∧ y = { q with lost := [], pos := g.lastSi + 1, read := tput q.read g.source (g.seg + 1) })) ∧
      (x.windowRoom w.policy cut.len = false → completes read s (fun s' => others s' ∧
        onlyAnswers { x with cap := { s.cap with slots := s'.cap.slots } } s' ∧ s'.cap.slot k.val = some { w with state := 3 }))) ∧
    (quiet s → open_ → ¬done → answers (.windowClose t k) s x) ∧
    (quiet s → open_ → done → x.windowRoom w.policy 256 = true → completes (.windowClose t k) s (fun s' => others s' ∧ s'.cap.slot k.val = none ∧
      (w.opened = true → s'.data.nextSeg = s.data.nextSeg + 1) ∧ onlyAnswers { x with
        cap := { s.cap with slots := tdel s.cap.slots k.val }, data := { s.data with windowIdx := tdel s.data.windowIdx w.id } } s'))

/-- R243 to R245, R250, R251, R255, R259, R264: SET_DECODER gives the engine its settings, searching from the next frame boundary, and its gang's members with it. The
oldest queued message of an engine becomes its record; with none queued at an engine that is off nothing happens. A lane that shows no edge for 12 bit periods loses
lock, and an SMBus clock that stays low for its time-out ends the message, each with the region's event of index 8. -/
def Obligations.DecodersWork : Prop :=
  ∀ (s : State) (t : SI) (p : Packet) (n : Fin 64) (m : Msg) (rest : List Msg) (q : FineTime),
    let f := pField p.params
    let x := s.moment t
    let e := s.engine n.val
    let g := f 3 1
    let on := (f 1 1).testBit 0
    let lost := regionEvent (n.val / 16) 8
    let only := fun (s' : State) => onlyPlaces { x with engines := s'.engines, cutEngines := s'.cutEngines, seq0 := s'.seq0 } s' ∧ (∀ j, j ≠ n.val → s'.engine j = s.engine j) ∧
      (s'.engine n.val).enable = e.enable ∧ (s'.engine n.val).protocol = e.protocol ∧ (s'.engine n.val).body = e.body ∧ (s'.engine n.val).inputs = e.inputs
    let idle := e.buf = [] ∧ e.ready = [] ∧ s.cap.runState ≠ 2 ∧ (s.region (n.val / 16)).rst = none
    (accepted s t opSetDecoder p → completes (.setDecoder t p) s (fun s' => onlyAnswers { x with engines := s'.engines, cutEngines := s'.cutEngines, seq0 := s'.seq0 } s' ∧
      (let y := s'.engine (f 0 1)
       y.enable = on ∧ y.protocol = f 2 1 ∧ y.gang = g ∧ y.filter = f 4 2 ∧ y.guard = f 6 2 ∧ y.ofs = pInt p.params 8 2 ∧ y.body = pBytes p.params 144 32 ∧
        y.member = false ∧ y.sync = 1 ∧ y.from_ = x.boundary ∧ ((on = false ∨ (s.region (f 0 1 / 16)).past = []) → y.buf = []) ∧ y.ready = [] ∧ y.inputs = ((decInputs p.params).take (inputCount g)).map (fun v =>
          if v.testBit 15 then some (v % 256) else none) ∧ y.inCh = ((decInputs p.params).take (inputCount g)).map (fun v => v % 256)) ∧
      (on = true → ∀ j, f 0 1 < j → j < f 0 1 + g → (s'.engine j).enable = true ∧ (s'.engine j).member = true ∧ (s'.engine j).gang = g))) ∧
    (e.works = false → e.done = [] → doesNothing (.decoderMessageComplete t n) t s) ∧
    (e.works = false → e.done = m :: rest → completes (.decoderMessageComplete t n) s (fun s' =>
      onlyPlaces { x with engines := tput s.engines n.val { e with done := rest } } s')) ∧
    (e.works = true → e.done = m :: rest → completes (.decoderMessageComplete t n) s (fun s' => only s' ∧ ∃ l, (s'.engine n.val).done = rest ++ l)) ∧
    ((e.protocol ≠ 6 ∨ e.works = false) → doesNothing (.cdrLockLoss t n) t s) ∧
    (e.protocol = 6 → e.works = true → completes (.cdrLockLoss t n) s only) ∧
    (e.protocol = 6 → e.works = true → idle → e.lanePoint = some (q, true) → q < 64 * (x.time.si + 1) → completes (.cdrLockLoss t n) s (fun s' => only s' ∧
      (s'.engine n.val).st.lock = false ∧ (s'.engine n.val).sync = 1 ∧ lost ∈ s'.events.raised)) ∧
    ((e.protocol ≠ 2 ∨ e.works = false) → doesNothing (.smbusTimeout t n) t s) ∧
    (e.protocol = 2 → e.works = true → completes (.smbusTimeout t n) s only) ∧
    (e.protocol = 2 → e.works = true → idle → e.fresh = [] → e.i2cPoint s.time.hz = some q → q < 64 * (x.time.si + 1) → completes (.smbusTimeout t n) s
      (fun s' => only s' ∧ (s'.engine n.val).st.inMsg = false ∧ (s'.engine n.val).sync = 1 ∧ (s'.engine n.val).msgs = min (e.msgs + 1) 65535 ∧
        lost ∈ s'.events.raised))

/-! ### Seams, doubt and resets (15_seams_resets_failsafe.md) -/

/-- R487, R490, R492, R494, R502, R505, R507, R510: a seam shows an unsettled or a stopped synchroniser and counts it, with event 9; an essential one that stays so for 1 ms is doubt
cause 3, which ends when all are settled. A diode above the limit is cause 1 and a rail outside its tolerance for 10 µs cause 2, each until 1 ms of good readings; a
configuration parity error is cause 4 until it is repaired with a record, an unwritable log cause 7 until a retry passes, after which the final entries that waited
for their records are posted (R447; notes/assumptions/33.md). -/
def Obligations.SeamsMonitorsAndDoubt : Prop :=
  ∀ (s : State) (t : SI) (p : Packet) (seam : Fin 13) (region : Fin 4) (celsius : List Int) (uv : List Nat) (values : List Byte) (chip dram : Bool),
    let x := s.moment t
    let si := x.time.si
    let n := seam.val
    let m := s.seam n
    let essential := fun (k : Nat) => k ∈ [2, 3, 4, 5, 8, 9]
    let put := fun (v : Seam) => ({ x with safe := { s.safe with seams := tput s.safe.seams n v } } : State)
    let shown := if n = 2 ∨ n = 3 then region.val else m.region
    let settles := fun (y s' : State) => ((∃ e ∈ y.safe.seams, essential e.1 ∧ (e.2.unsettled = true ∨ e.2.stopped = true)) → s' = y) ∧
      ((∀ e ∈ y.safe.seams, essential e.1 → e.2.unsettled = false ∧ e.2.stopped = false) →
        causeEnds 3 { y with safe := { y.safe with seams := y.safe.seams.map (fun e => (e.1, { e.2 with badFor1ms := false })) } } s')
    let ms := slotsOfNs s.time.ref.rateKhz 1000000
    let limit : Int := s.safe.tempLimit
    let hot := ∃ k, k < 8 ∧ limit < celsius.getD k 0
    let cool := ∀ k, k < 8 → celsius.getD k 0 < limit - 5
    let warm := fun (v : BitVec 8) (c : Option SI) => ({ x with safe := { s.safe with monTemp := v, coolSince := c } } : State)
    let bad := (List.range 16).filter (fun k => railBad s.safe.supplyTol k (uv.getD k (railNominal k)))
    let since := bad.map (fun k => (k, (tfind s.safe.supplyBad k).getD si))
    let rails := fun (v : BitVec 16) (g : Option SI) => ({ x with safe := { s.safe with monSupply := v, supplyBad := since, supplyGoodSince := g } } : State)
    let long := ∃ e ∈ since, e.2 + slotsOfNs s.time.ref.rateKhz 10000 ≤ si
    ((n = 0 ∨ m.unsettled = true) → doesNothing (.seamUnsettled t seam region false) t s) ∧
    ((n = 0 ∨ m.unsettled = false) → doesNothing (.seamUnsettled t seam region true) t s) ∧
    (n ≠ 0 → m.unsettled = false → completes (.seamUnsettled t seam region false) s (fun s' => 9 ∈ s'.events.raised ∧
      onlyPlaces (put { m with unsettled := true, unsettledAt := si, unsettledCnt := min (m.unsettledCnt + 1) 65535, region := shown }) s')) ∧
    (n ≠ 0 → m.unsettled = true → completes (.seamUnsettled t seam region true) s (settles (put { m with unsettled := false }))) ∧
    (¬(essential n ∧ m.unsettled = true ∧ m.unsettledAt + ms ≤ si) → doesNothing (.seamUnsettledTimeout t seam) t s) ∧
    (essential n → m.unsettled = true → m.unsettledAt + ms ≤ si → completes (.seamUnsettledTimeout t seam) s (causeBegins 3 (put { m with badFor1ms := true }))) ∧
    exec (.seamClockStopped t seam region) s = .next (put { m with stopped := true, stoppedAt := if m.stopped then m.stoppedAt else si, region := shown }) ∧
    (¬(essential n ∧ m.stopped = true ∧ m.stoppedAt + ms ≤ si) → doesNothing (.seamClockStopTimeout t seam) t s) ∧
    (essential n → m.stopped = true → m.stoppedAt + ms ≤ si → completes (.seamClockStopTimeout t seam) s (causeBegins 3 (put { m with badFor1ms := true }))) ∧
    completes (.seamClockResumed t seam) s (settles (put { m with stopped := false })) ∧
    completes (.temperatureCheck t celsius) s (fun s' => ∃ v : BitVec 8, (∀ k, k < 8 → v.getLsbD k = decide (limit < celsius.getD k 0)) ∧
      (hot → causeBegins 1 (warm v none) s') ∧
      (cool → s.safe.coolSince.getD si + ms ≤ si → causeEnds 1 (warm v (some (s.safe.coolSince.getD si))) s') ∧
      (cool → si < s.safe.coolSince.getD si + ms → s' = warm v (some (s.safe.coolSince.getD si))) ∧
      (¬hot → ¬cool → s' = warm v none)) ∧
    completes (.supplyCheck t uv) s (fun s' => ∃ v : BitVec 16, (∀ k, k < 16 → v.getLsbD k = decide (k ∈ bad)) ∧
      (long → causeBegins 2 (rails v none) s') ∧ (bad ≠ [] → ¬long → s' = rails v none) ∧
      (bad = [] → s.safe.supplyGoodSince.getD si + ms ≤ si → causeEnds 2 (rails v (some (s.safe.supplyGoodSince.getD si))) s') ∧
      (bad = [] → si < s.safe.supplyGoodSince.getD si + ms → s' = rails v (some (s.safe.supplyGoodSince.getD si)))) ∧
    (accepted s t opSetFailsafe p → answers (.setFailsafePolicy t p) s { x with
      pcie := { s.pcie with retain := (pField p.params 0 1).testBit 0 }
      safe := { s.safe with tempLimit := pField p.params 1 1, supplyTol := pField p.params 2 1 } }) ∧
    doesNothing (.configParityCheck t false chip) t s ∧
    completes (.configParityCheck t true chip) s (causeBegins 4 { x with safe := { s.safe with copyBad := s.safe.copyBad || chip } }) ∧
    ((s.safe.causes.getLsbD 4 = false ∨ s.safe.copyBad = true) → doesNothing (.configParityRepair t values) t s) ∧
    (s.safe.causes.getLsbD 4 = true → s.safe.copyBad = false → completes (.configParityRepair t values) s (fun s' =>
      onlyAnswers { x with safe := s'.safe, cas := s'.cas, pins := { s.pins with out := s'.pins.out } } s' ∧ s'.safe.causes = s.safe.causes &&& ~~~16#8 ∧ s'.safe.cfgPar = min (s.safe.cfgPar + 1) 255 ∧
      s'.log.count = s.log.count + 1 ∧ 10 ∈ s'.events.raised)) ∧
    (((s.log.onchipBad || !chip) = true ∨ dram = false) → completes (.logRetry t chip dram) s (causeBegins 7 { x with
      log := { s.log with unwritable := true, onchipBad := s.log.onchipBad || !chip } })) ∧
    (s.log.onchipBad = false → chip = true → dram = true → completes (.logRetry t chip dram) s (fun s' => ∃ y, onlyAnswers x y ∧
      y.log.held = [] ∧ y.log.ends = [] ∧ y.log.unwritable = false ∧ y.log.count = s.log.count ∧ causeEnds 7 y s' ∧
      (s.log.ends = [] → y = { x with log := y.log })))

/-- R492, R496 to R499: RESET_REGION and the region's watchdog begin a reset at the next frame boundary M, each with a record; the writer's intake ends 16 frames after M, then its
writes drain, those that do not finish within 10 µs being lost, and re-initialisation ends at the next frame boundary with the selvedge of the reset. A segment whose
verify-complete pulse was lost at seam 3 is discarded 8 frames after it closed. -/
def Obligations.RegionResets : Prop :=
  ∀ (s : State) (t : SI) (p : Packet) (region : Fin 4) (w : RegionReset) (late : List Nat) (dropped : Nat) (c : ClosedSeg),
    let x := s.moment t
    let b := x.boundary
    let si := x.time.si
    let r := region.val
    let g := s.region r
    let f := pField p.params
    let others := fun (s' : State) => ∀ k, k ≠ r → (s'.region k).rst.isSome = (s.region k).rst.isSome
    let begun := fun (k : Nat) (d : Bool) (s' : State) => (s'.region k).rstState = 1 ∧ (s'.region k).resets = min ((s.region k).resets + 1) 255 ∧
      64 + 16 * k + 13 ∈ s'.events.raised ∧ s'.log.count = s.log.count + 1 ∧ ∃ v, (s'.region k).rst = some v ∧ v.m = b ∧ v.defaults = d
    (accepted s t opResetRegion p → completes (.resetRegion t p) s (fun s' => begun (f 0 1) ((f 1 1).testBit 0) s' ∧
      onlyAnswers { x with safe := { s.safe with rstCtx := tput s.safe.rstCtx (f 0 1) (packetCtx 0x0010 p) } } s')) ∧
    (quiet s → g.rst.isSome = true → answers (.regionWatchdog t region) s x) ∧
    (quiet s → g.rst = none → completes (.regionWatchdog t region) s (fun s' => begun r false s' ∧ 64 + 16 * r + 15 ∈ s'.events.raised ∧ others s' ∧
      onlyAnswers x s')) ∧
    ((∀ v, g.rst = some v → v.intake = false ∨ si < v.m + 256) → doesNothing (.regionIntakeEnd t region) t s) ∧
    (g.rst = some w → w.intake = true → w.m + 256 ≤ si → completes (.regionIntakeEnd t region) s (fun s' => others s' ∧
      onlyPlaces { x with blocks := s'.blocks, engines := s'.engines, cutEngines := s'.cutEngines, seq0 := s'.seq0 } s' ∧ (s'.region r).rstState = g.rstState ∧
      (s'.region r).samples = [] ∧ ∃ v, (s'.region r).rst = some v ∧ v.m = w.m ∧ v.defaults = w.defaults ∧ v.intake = false)) ∧
    (quiet s → (∀ v, g.rst = some v → v.intake = true ∨ g.rstState ≠ 1 ∨ (late ≠ [] ∧ si < v.m + 40000)) →
      answers (.regionWriteDrainEnd t region late dropped) s x) ∧
    (quiet s → g.rst = some w → w.intake = false → g.rstState = 1 → (late = [] ∨ w.m + 40000 ≤ si) →
      completes (.regionWriteDrainEnd t region late dropped) s (fun s' => others s' ∧ onlyAnswers x s' ∧ (s'.region r).rstState = 2 ∧ (s'.region r).closed = [] ∧
        (s'.region r).dropped = min (g.dropped + dropped) 255 ∧
        (∀ y ∈ s'.data.staging, y.inDram = false → srcClass y.seg.source < 4 → srcRegion y.seg.source = r → y.seg.seg ∉ late))) ∧
    (quiet s → (g.rst = none ∨ g.rstState ≠ 2) → answers (.regionReinitEnd t region) s x) ∧
    (quiet s → g.rst = some w → g.rstState = 2 → completes (.regionReinitEnd t region) s (fun s' => others s' ∧ (s'.region r).rst = none ∧
      (s'.region r).rstState = 0 ∧ (s'.region r).resetSpan = some (w.m, b) ∧ tfind s'.safe.rstCtx r = none ∧ 64 + 16 * r + 14 ∈ s'.events.raised ∧
      (b % 1048576 ≠ 0 → (∃ rs, onlyAnswers { x with
          regions := rs, engines := s'.engines, cutEngines := s'.cutEngines, safe := { s.safe with rstCtx := tdel s.safe.rstCtx r }
          data := { s.data with resumed := s'.data.resumed } } s') ∧
        ∀ k, (s'.region k).cfg = if k = r ∧ w.defaults = true then {} else (s.region k).cfg))) ∧
    ((∀ y ∈ g.closed, y.waits = false) → doesNothing (.seamOverrunDiscard t region) t s) ∧
    (g.closed.find? (fun y => y.waits) = some c → (s.safe.quiet = true ∨ g.rstState ≠ 0 ∨ si < c.closedAt + 128) →
      doesNothing (.seamOverrunDiscard t region) t s) ∧
    (g.closed.find? (fun y => y.waits) = some c → s.safe.quiet = false → g.rstState = 0 → c.closedAt + 128 ≤ si →
      completes (.seamOverrunDiscard t region) s (fun s' => 8 ∈ s'.events.raised ∧ onlyPlaces { x with safe := { s.safe with
        seams := tput s.safe.seams 3 { (s.seam 3) with overrun := true, lost := min ((s.seam 3).lost + 1) 65535, region := r } } } s'))

/-! ### Recovery and start-up (15_seams_resets_failsafe.md, 17_bringup_and_examples.md) -/

/-- R444, R474, R493, R500, R501, R506, R509: SOFT_RESET begins quiet mode and, once no region is in a reset, empties the scheduler, resets pins and housekeeping and
stops the run; once the shut-down has ended it returns the configuration to its reset values, clears doubt causes 4 to 6 and raises event 11. The core's watchdog is cause
6 until the core has restarted, counted, with a record and event 3. A firmware swap runs the new image, with event 236, or goes back to the old one. -/
def Obligations.SoftResetRestartAndSwap : Prop :=
  ∀ (s : State) (t : SI) (p : Packet) (test : Fin 8) (c : Ctx) (u : Update) (ok : Bool),
    let x := s.moment t
    let b := x.boundary
    let calm := s.startup.step ≠ 6 ∧ ∀ n, (s.ring n).fetched = []
    let still := calm ∧ s.safe.softReset = none
    let again := ∃ y, s.safe.lastRestart = some y ∧ x.time.si ≤ y + slotsOfNs s.time.ref.rateKhz 1000000000
    let image := u.image.getD []
    (accepted s t opSoftReset p → (∃ e ∈ s.regions, e.2.rst ≠ none) → answers (.softReset t p) s { x with
      safe := { s.safe with softReset := some (packetCtx 0x0011 p), quiet := true } }) ∧
    (accepted s t opSoftReset p → s.safe.softBegun = false → (∀ e ∈ s.regions, e.2.rst = none) → completes (.softReset t p) s (fun s' =>
      s'.safe.softReset = some (packetCtx 0x0011 p) ∧ s'.safe.quiet = true ∧ s'.safe.softBegun = true ∧ s'.safe.softAt = b ∧ s'.sched.entries = [] ∧
      (s.cmd.jobs = [] → s'.pins.out = []) ∧ s'.hk.enabled = false ∧ s'.cap.runState ≠ 1 ∧ s'.cmd.deferredArm = none ∧ s'.cmd.deferredStart = none ∧
      (s.cap.runState = 1 → s'.cap.runState = 2 ∧ s'.cap.runE = b))) ∧
    (still → answers (.softResetComplete t test) s x) ∧
    (calm → s.safe.softReset = some c → s.safe.softBegun = true → (s.cap.runState ≠ 0 ∨ s.seq0.stopAt ≠ none) →
      answers (.softResetComplete t test) s x) ∧
    (calm → s.safe.softReset = some c → s.safe.softBegun = true → s.cap.runState = 0 → s.seq0.stopAt = none →
      completes (.softResetComplete t test) s (fun s' => s'.safe.softReset = none ∧ s'.safe.quiet = false ∧ 11 ∈ s'.events.raised ∧
        (∀ k, k = 4 ∨ k = 5 ∨ k = 6 → s'.safe.causes.getLsbD k = false) ∧ (∀ k, k ≤ 2 ∨ k = 7 → s'.safe.causes.getLsbD k = s.safe.causes.getLsbD k) ∧
        s'.sec.error = decide (test.val ≠ 0) ∧ s'.sec.errCode = test.val ∧ (test.val ≠ 0 → 224 ∈ s'.events.raised) ∧
        (∀ k, (s'.cell k).enable = false ∧ (s'.cell k).thresh = 1489 ∧ (s'.cell k).deskew = 0) ∧ s'.ivls = [] ∧ s'.engines = [] ∧ s'.cap.policies = [] ∧
        (∀ k, (s'.region k).cfg = {}) ∧ s'.seq0.armed = false ∧ s'.seq0.pending = {} ∧ s'.seq0.active = {} ∧ s'.seq1.active = {} ∧
        s'.hk.enabled = false ∧ s'.hk.entries = [] ∧ s'.cas.sendFire = false ∧ s'.cas.unitId = s.cas.unitId)) ∧
    (quiet s → completes (.controlCoreWatchdog t) s (fun s' => s'.safe.coreDown = true ∧ s'.safe.causes.getLsbD 6 = true ∧
      (s'.safe.stuckCore = true ↔ s.safe.stuckCore = true ∨ again) ∧ s'.cmd.deferredArm = none ∧ s'.cmd.deferredStart = none ∧
      (s.cmd.jobs = [] → s.streams = [] → s.cmd.deferredArm = none → s.cmd.deferredStart = none → ∃ y,
        causeBegins 6 { x with safe := { s.safe with coreDown := true, stuckCore := s'.safe.stuckCore } } y ∧ onlyAnswers y s'))) ∧
    (still → s.safe.coreDown = false → answers (.coreRestartComplete t) s x) ∧
    (still → s.safe.coreDown = true → completes (.coreRestartComplete t) s (fun s' => s'.safe.coreDown = false ∧
      s'.safe.restarts = min (s.safe.restarts + 1) 255 ∧ s'.safe.lastRestart = some x.time.si ∧ s'.log.count = s.log.count + 1 ∧ 3 ∈ s'.events.raised ∧
      s'.safe.causes.getLsbD 6 = (s.safe.stuckCore && s.safe.causes.getLsbD 6) ∧ onlyAnswers { x with
        safe := s'.safe, cas := s'.cas, pins := { s.pins with out := s'.pins.out } } s')) ∧
    ((s.sec.update = none ∨ s.safe.swapping = false) → doesNothing (.firmwareSwapPoint t ok) t s) ∧
    (still → s.sec.update = some u → s.safe.swapping = true → completes (.firmwareSwapPoint t true) s (fun s' => 236 ∈ s'.events.raised ∧
      (s.cas.discoverHeld = [] → s'.cas = s.cas) ∧ onlyAnswers { x with
        cas := s'.cas
        safe := { s.safe with swapping := false }
        sec := { s.sec with
          fwSlotB := u.slotB, fwVersion := BitVec.ofNat 32 (imageVersion image), fwSvn := imageSvn image, fwDigest := digestNat (sha256 image)
          fwFloor := if u.raiseFloor = true ∧ s.sec.fwFloor < imageSvn image then imageSvn image else s.sec.fwFloor, update := none } } s')) ∧
    (still → s.sec.update = some u → s.safe.swapping = true → completes (.firmwareSwapPoint t false) s (fun s' => (s.cas.discoverHeld = [] → s'.cas = s.cas) ∧
      onlyAnswers { x with
        cas := s'.cas
        safe := { s.safe with swapping := false }
        sec := { s.sec with
          preferB := s.sec.fwSlotB, slotA := if u.slotB then s.sec.slotA else 0, slotB := if u.slotB then 0 else s.sec.slotB
          imageA := if u.slotB then s.sec.imageA else u.flash, imageB := if u.slotB then u.flash else s.sec.imageB, update := none } } s'))

/-- R399, R459, R462 to R464, R471, R472, R483, R534, R538, R562: start-up goes from the configuration space to the self-tests, to the firmware image, each step only from the one before;
a failed test or no acceptable image stops it with FAULT_N asserted; when the tests have passed the
wrapping key is derived, an unfinished erase is finished and TAMPER_N low is acted on. A conditional test that fails later puts the security unit into its error state
(that this command reports it is the model's choice, notes/assumptions/75.md). The image of the preferred slot runs if it is acceptable, else that of the other slot,
the preferred one then FAILED. READY_SET sets READY, ends quiet mode and starts the device's own HK_CAL. -/
def Obligations.StartUpSteps : Prop :=
  ∀ (s : State) (t : SI) (test : Fin 8) (flash : BootFlash),
    let x := s.moment t
    let u := s.startup
    let stops := fun (y s' : State) => onlyPlaces { y with startup := { u with stopped := true }, safe := { s.safe with fault := true } } s'
    let free := ∀ n, u.calJob = some n → s.job n = none
    let a := flash.slotA.getD s.sec.imageA
    let b := flash.slotB.getD s.sec.imageB
    let image := fun (second : Bool) => let m := if second then b else a
      m.take (256 + pField m 12 4)
    let acceptable := fun (second : Bool) => imageFault s.sec.romKey (image second) s.sec.fwFloor = 0
    let prefers := s.sec.preferB
    let runs := fun (second : Bool) (va vb : Nat) => ({ x with
      startup := { u with step := 5 }
      sec := { s.sec with
        imageA := a, imageB := b, slotA := va, slotB := vb, fwVerified := true, fwVersion := BitVec.ofNat 32 (imageVersion (image second))
        fwSvn := imageSvn (image second), fwDigest := digestNat (sha256 (image second)), fwSlotB := second, failedSlot := second != prefers } } : State)
    (u.step = 2 → exec (.configSpaceUp t) s = .next { x with
      startup := { u with step := 3 }, pcie := { s.pcie with configUp := true, retryStatus := false } }) ∧
    (u.step ≠ 2 → s.pcie.configUp = true → exec (.configSpaceUp t) s = .next { x with pcie := { s.pcie with retryStatus := false } }) ∧
    (u.step ≠ 2 → s.pcie.configUp = false → doesNothing (.configSpaceUp t) t s) ∧
    ((u.stopped = true ∨ u.step < 3 ∨ 3 < u.step ∧ (test.val = 0 ∨ s.sec.error = true)) → doesNothing (.selfTestsComplete t test) t s) ∧
    (3 < u.step → u.stopped = false → test.val ≠ 0 → s.sec.error = false → completes (.selfTestsComplete t test) s (fun s' =>
      s'.sec.error = true ∧ s'.sec.errCode = test.val ∧ 224 ∈ s'.events.raised ∧ s'.sec.update = none ∧ s'.startup = u ∧ (s.sec.update = none →
        onlyPlaces { x with sec := { s.sec with error := true, errCode := test.val } } s'))) ∧
    (u.step = 3 → u.stopped = false → test.val ≠ 0 → completes (.selfTestsComplete t test) s (stops x)) ∧
    (u.step = 3 → u.stopped = false → s.sec.zero = none → s.sec.tamper = false → exec (.selfTestsComplete t 0) s = .next { x with
      startup := { u with step := 4 }, sec := { s.sec with selftestOk := true, wrapKey := some Config.pufKey } }) ∧
    (u.step = 3 → u.stopped = false → completes (.selfTestsComplete t 0) s (fun s' => s'.startup = { u with step := 4 } ∧ s'.sec.selftestOk = true ∧
      s'.sec.wrapKey = some Config.pufKey ∧ (s.sec.zero ≠ none → s'.sec.identity = 0 ∧ s'.sec.esk = false ∧ s'.sec.roleKeys = [] ∧ s'.sec.blobs = [] ∧ 231 ∈ s'.events.raised) ∧
      (s.sec.tamper = true → s'.sec.tamperLatched = true ∧ s'.sec.zero.isSome = true ∧ 230 ∈ s'.events.raised ∧ 232 ∈ s'.events.raised))) ∧
    ((u.step ≠ 4 ∨ u.stopped = true) → doesNothing (.firmwareSelected t flash) t s) ∧
    (u.step = 4 → u.stopped = false → acceptable prefers → exec (.firmwareSelected t flash) s =
      .next (if prefers then runs true s.sec.slotA 1 else runs false 1 s.sec.slotB)) ∧
    (u.step = 4 → u.stopped = false → ¬acceptable prefers → acceptable (!prefers) → exec (.firmwareSelected t flash) s =
      .next (if prefers then runs false 1 3 else runs true 3 1)) ∧
    (u.step = 4 → u.stopped = false → ¬acceptable false → ¬acceptable true → completes (.firmwareSelected t flash) s
      (stops { x with sec := { s.sec with imageA := a, imageB := b, slotA := 3, slotB := 3, failedSlot := true } })) ∧
    ((u.step ≠ 7 ∨ u.ready = true ∨ ¬free) → doesNothing (.readySet t) t s) ∧
    (u.step = 7 → u.ready = false → free → (∀ n, (s.ring n).fetched = []) → completes (.readySet t) s (fun s' => onlyAnswers { x with
        startup := { u with step := 8, ready := true, collapsed := false }
        safe := { s.safe with quiet := false, fault := decide (s.safe.causes ≠ 0) || u.stopped }
        hk := { s.hk with running := false, powered := true, calJob := true, calDone := [], prev := none } } s' ∧
      jobStarted s s' 0x0A10 (List.replicate 8 0) .running ∧ (s.sec.failedSlot = true → 235 ∈ s'.events.raised)))

/-- R80: the read of TIM_SNAP_SI_LO captures the frame boundary at or before it, with the ST, TGEN, state and coasting flag that held there; the other snapshot registers return
what was captured and change nothing. -/
def Obligations.TimeIsCaptured : Prop :=
  ∀ (s : State) (t : SI), s.pcie.configUp = true → s.pcie.linkUp = true → s.pcie.d3hot = false → s.startup.ready = true →
    let x := s.moment t
    let b := x.time.si / 16 * 16
    let q := s.time.snap
    let u := x.timeFor b
    let now : Snap := if s.time.si ≤ b ∨ x.time.si = b then
        { si := b, st := u.st b, tgen := u.tgen.toNat, coasting := u.coasting, state := u.reported }
      else s.time.view
    let reads := fun (o v : Nat) => ∀ raced, exec (.rcFieldRead t ⟨.bar0 o, raced⟩) s = .next { x with obs := { s.obs with readData := w32 v, readPoisoned := false } }
    exec (.timSnapSiLoRead t) s = .next { x with
      obs := { s.obs with readData := w32 (now.si % 2 ^ 32), readPoisoned := false }
      time := { x.time with snap := now } } ∧
    reads 0x6000C (q.si / 2 ^ 32 % 2 ^ 32) ∧ reads 0x60010 (q.st % 2 ^ 32) ∧ reads 0x60014 (q.st / 2 ^ 32 % 2 ^ 32) ∧ reads 0x60018 (q.st / 2 ^ 64) ∧
    reads 0x6001C (q.tgen % 256 * 2 ^ 24 + b2n q.coasting * 2 ^ 16 + q.state % 8)

/-! ### Housekeeping, jobs and DRAM (16_housekeeping_adc.md, 13_command_interface.md, 11_dram_controller.md) -/

/-- R517, R518, R521 to R530: SET_HK_SEQ loads a sequence, sets corrections, triggers a run or disables. A reading of a slice in service becomes the entry's last value, except
the first after a change of settings and one whose pulse is lost at seam 12; the entry's readings end it, the last entry ends the run, with event 240. A trigger during a
run is latched, a second one counted, with event 241. A calibration pass within the limits gives the pair its references; one outside them retires the slice, with event 242. -/
def Obligations.HousekeepingConverter : Prop :=
  ∀ (s : State) (t : SI) (p : Packet) (slice : Fin 3) (gain : Fin 5) (integ : Fin 6) (raw zero full : Int) (lost : Bool) (j : Job) (due : SI),
    let x := s.moment t
    let si := x.time.si
    let h := s.hk
    let f := pField p.params
    let hk := fun (g : Hk) => ({ x with hk := g } : State)
    let only := fun (s' : State) => onlyPlaces { x with hk := s'.hk } s'
    let k := slice.val
    let e := h.entries.getD h.entry {}
    let settle := (h.slice k).settle
    let r := h.value k e raw
    let left := if settle then h.validLeft else h.validLeft - 1
    let ends := ∃ y, (h.slice k).endsAt = some y ∧ y ≤ si + 160
    let reads := h.running = true ∧ k ∈ h.serving ∧ ends ∧ k < h.slices.length
    let kept := lost = false ∨ s.safe.quiet = true
    let next := if h.seqCount ≥ 4294967295 then 1 else h.seqCount + 1
    let later := { h with triggerAt := some (due + 4000 * h.intervalUs) }
    let triggers := h.enabled = true ∧ h.trig = 1 ∧ h.triggerAt = some due ∧ due ≤ si
    let soon := si + slotsOfNs s.time.ref.rateKhz 200000
    let rests := h.enabled = true ∧ h.running = false ∧ h.calJob = false
    let pair := 6 * gain.val + integ.val
    let idle := h.enabled = false ∨ h.calSlice ≠ k ∨ pair ∉ h.pairs
    let passed := fun (s' : State) => s' = hk s'.hk ∧ tfind (s'.hk.slice k).pairs pair = some (zero, full) ∧ pair ∈ (s'.hk.slice k).done ∧
      ∀ i, i ≠ k → s'.hk.slice i = h.slice i
    let retired := fun (s' : State) => only s' ∧ (s'.hk.slice k).good = false ∧ 242 ∈ s'.events.raised ∧ (s'.hk.good = [] → 243 ∈ s'.events.raised)
    (accepted s t opSetHkSeq p → f 0 1 = 0 → completes (.setHkSeq t p) s (fun s' => onlyAnswers { x with hk := s'.hk } s' ∧ s'.hk.enabled = true ∧
      s'.hk.entries = (List.range (f 1 1)).map (hkEntryOf p.params) ∧ s'.hk.trig = f 2 1 ∧ s'.hk.mains = f 3 1 ∧ s'.hk.mainsPerEpoch = f 4 2 ∧
      s'.hk.calPeriod = f 6 2 ∧ s'.hk.intervalUs = f 8 4 ∧ s'.hk.last = [] ∧ s'.hk.entry = 0 ∧
      (f 2 1 ≤ 1 → h.calJob = false → s'.hk.running = true ∧ s'.hk.powered = true ∧ s'.hk.seqCount = 1) ∧ (2 ≤ f 2 1 → s'.hk.running = false))) ∧
    (accepted s t opSetHkSeq p → f 0 1 = 1 → completes (.setHkSeq t p) s (fun s' =>
      onlyAnswers { x with hk := { h with corrOfs := s'.hk.corrOfs, corrGain := s'.hk.corrGain } } s' ∧
      (∀ i, i < f 2 1 → tfind s'.hk.corrOfs (f 1 1 + i) = some (pInt p.params (8 + 8 * i) 4) ∧ tfind s'.hk.corrGain (f 1 1 + i) = some (f (12 + 8 * i) 4)) ∧
      (∀ i, (i < f 1 1 ∨ f 1 1 + f 2 1 ≤ i) → tfind s'.hk.corrOfs i = tfind h.corrOfs i ∧ tfind s'.hk.corrGain i = tfind h.corrGain i))) ∧
    (accepted s t opSetHkSeq p → f 0 1 = 2 → h.pending = false → (h.running = true ∨ h.calJob = true) →
      answers (.setHkSeq t p) s (hk { h with pending := true })) ∧
    (accepted s t opSetHkSeq p → f 0 1 = 2 → h.pending = false → h.running = false → h.calJob = false → h.powered = true →
      completes (.setHkSeq t p) s (fun s' => onlyAnswers { x with hk := s'.hk } s' ∧ s'.hk.running = true ∧ s'.hk.entry = 0 ∧ s'.hk.seqCount = next)) ∧
    (accepted s t opSetHkSeq p → f 0 1 = 2 → h.pending = false → h.running = false → h.calJob = false → h.powered = false →
      answers (.setHkSeq t p) s (hk { h with
        pending := true, powered := true, triggerAt := some (x.boundary + slotsOfNs s.time.ref.rateKhz 200000) })) ∧
    (accepted s t opSetHkSeq p → f 0 1 = 3 → answers (.setHkSeq t p) s (hk { h with
      enabled := false, running := false, powered := false, pending := false, prev := none, triggerAt := none })) ∧
    ((h.running = false ∨ k ∉ h.serving ∨ ¬ends) → doesNothing (.hkReading t slice raw lost) t s) ∧
    (reads → left ≠ 0 → completes (.hkReading t slice raw lost) s (fun s' => onlyPlaces { x with hk := s'.hk, safe := s'.safe } s' ∧ s'.hk.entry = h.entry ∧
      s'.hk.running = true ∧ s'.hk.validLeft = left ∧ s'.hk.seqCount = h.seqCount ∧ (s'.hk.slice k).settle = false ∧
      (s'.hk.slice k).endsAt = (h.slice k).endsAt.map (· + h.integ) ∧
      (kept → s'.safe = s.safe ∧ s'.hk.overrange = (if r.2 then min (h.overrange + 1) 255 else h.overrange) ∧
        s'.hk.last = (if settle then h.last else tput h.last h.entry { valid := true, overrange := r.2, value := r.1 }) ∧
        (r.2 = true → h.rangeEvent = false → 244 ∈ s'.events.raised)) ∧
      (¬kept → s'.hk.last = h.last ∧ s'.hk.overrange = h.overrange ∧ (s'.seam 12).lost = min ((s.seam 12).lost + 1) 65535 ∧
        (s'.seam 12).overrun = true ∧ 8 ∈ s'.events.raised))) ∧
    (reads → kept → left = 0 → h.entry + 1 < h.entries.length → completes (.hkReading t slice raw lost) s (fun s' => only s' ∧
      s'.hk.running = true ∧ s'.hk.entry = h.entry + 1 ∧ s'.hk.validLeft = (h.entries.getD (h.entry + 1) {}).readings ∧ s'.hk.seqCount = h.seqCount)) ∧
    (reads → kept → left = 0 → h.entries.length ≤ h.entry + 1 → completes (.hkReading t slice raw lost) s (fun s' => only s' ∧ 240 ∈ s'.events.raised ∧
      (h.pending = false → h.trig ≠ 0 → s'.hk.running = false ∧ s'.hk.seqCount = h.seqCount) ∧
      (h.trig = 0 → h.enabled = true → h.calJob = false → s'.hk.running = true ∧ s'.hk.entry = 0 ∧ s'.hk.seqCount = next))) ∧
    ((h.enabled = false ∨ h.trig ≠ 1 ∨ h.triggerAt = none ∨ (h.triggerAt = some due ∧ si < due)) → doesNothing (.hkIntervalTrigger t) t s) ∧
    (triggers → h.pending = true → completes (.hkIntervalTrigger t) s (fun s' =>
      onlyPlaces (hk { later with overrun := min (h.overrun + 1) 65535 }) s' ∧ 241 ∈ s'.events.raised)) ∧
    (triggers → h.pending = false → (h.running = true ∨ h.calJob = true) →
      exec (.hkIntervalTrigger t) s = .next (hk { later with pending := true })) ∧
    (triggers → h.pending = false → h.running = false → h.calJob = false → completes (.hkIntervalTrigger t) s (fun s' =>
      only s' ∧ s'.hk.running = true ∧ s'.hk.entry = 0 ∧ s'.hk.seqCount = next ∧ s'.hk.triggerAt = later.triggerAt)) ∧
    ((h.enabled = false ∨ h.running = true ∨ h.calJob = true) → doesNothing (.hkWake t) t s) ∧
    (rests → (h.trig = 0 ∨ (h.trig = 1 ∧ h.triggerAt = some due ∧ due ≤ soon) ∨ (h.trig = 3 ∧ x.hkSoon 200 = true)) →
      exec (.hkWake t) s = .next (hk { h with powered := true })) ∧
    (((h.trig = 1 ∧ (h.triggerAt = none ∨ (h.triggerAt = some due ∧ soon < due))) ∨ (h.trig = 3 ∧ x.hkSoon 200 = false)) →
      doesNothing (.hkWake t) t s) ∧
    (rests → h.trig = 2 → (∃ y, h.triggerAt = some y ∧ y ≤ si) → h.pending = true →
      completes (.hkWake t) s (fun s' => only s' ∧ s'.hk.running = true ∧ s'.hk.entry = 0 ∧ s'.hk.seqCount = next)) ∧
    (h.trig = 2 → (h.pending = false ∨ h.triggerAt = none) → doesNothing (.hkWake t) t s) ∧
    (h.calJob = false → idle → doesNothing (.hkCalPass t slice gain integ zero full) t s) ∧
    (h.calJob = false → ¬idle → k < h.slices.length → hkPassOk zero full = true → completes (.hkCalPass t slice gain integ zero full) s passed) ∧
    (h.calJob = false → ¬idle → k < h.slices.length → hkPassOk zero full = false → completes (.hkCalPass t slice gain integ zero full) s retired) ∧
    (h.calJob = true → (∀ y, s.jobOf 0x0A10 = some y → y.state ≠ .running) → doesNothing (.hkCalPass t slice gain integ zero full) t s) ∧
    (h.calJob = true → s.jobOf 0x0A10 = some j → j.state = .running → k < h.slices.length → (h.slice k).good = true →
      (hkPassOk zero full = true → completes (.hkCalPass t slice gain integ zero full) s (fun s' => passed s' ∧ 30 * k + pair ∈ s'.hk.calDone)) ∧
      (hkPassOk zero full = false → completes (.hkCalPass t slice gain integ zero full) s retired))

/-- R441, R442, R445: each command of kind J that is accepted becomes a job with the next job ID, RUNNING, or QUEUED behind one of its kind
where R441 says so, and begins its work: a replay reads its buffer with sequencer 1 disarmed, a training discards all DRAM content, a migration takes the spare rank, an
HK_CAL stops the sequence, a discovery starts with the unit itself, a firmware update erases the slot that does not run. -/
def Obligations.JobsBegin : Prop :=
  ∀ (s : State) (t : SI) (p : Packet) (sp : Nat) (u : Update),
    let x := s.moment t
    let b := x.boundary
    let f := pField p.params
    let id := s.cmd.nextJob
    let begins := fun (op : Nat) (st : JobState) (y s' : State) => jobStarted s s' op p.params st ∧ onlyAnswers y s'
    let woken := if s.dram.selfRefresh then { s.dram with
      selfRefresh := false, dqs := s.dram.dqs + 1, idleSince := x.time.si, refFrom := x.time.si, refDone := 0 } else s.dram
    let seq := if (f 16 1).testBit 1 then { s.seq1 with active := s.seq1.pending, activeId := s.seq1.pendingId } else s.seq1
    let gone := (List.range 4).map (fun r => (r, b))
    let migrates := s.dram.mig ≠ none ∨ s.jobOf 0x0911 ≠ none
    let key := 4 * f 0 1 + f 1 1
    (accepted s t opCalDeskew p → completes (.calDeskew t p) s (begins 0x0210 .running x)) ∧
    (accepted s t opCalInterp p → completes (.calInterp t p) s (begins 0x0211 .running x)) ∧
    (accepted s t opScrub p → completes (.scrub t p) s (begins 0x0912 .running { x with dram := woken })) ∧
    (accepted s t opCascadeDiscover p → completes (.cascadeDiscover t p) s (fun s' => begins 0x0410 .running { x with cas := s'.cas } s' ∧
      s'.cas.discoveries = s.cas.discoveries + 1 ∧ s'.cas.unitId = s.cas.unitId ∧
      ((∀ j ∈ s.cmd.jobs, j.id ≠ id) → s'.cas.discoverIds = [s.cas.unitId.toNat] ∧ s'.cas.discoverWritten = if 16 ≤ f 8 4 then 1 else 0))) ∧
    (accepted s t opReplay p → completes (.replay t p) s (begins 0x0810 .running { x with
      replay := { job := some id, bufAddr := f 0 8, bufLen := f 8 8, abortOnFail := (f 16 1).testBit 0, rate := f 17 1, since := x.time.si }
      seq1 := { seq with
        armed := false, halted := false, stopAt := none, edges := [], events := [], levels := [], bastes := [], forced := [] } })) ∧
    (accepted s t opTrain p → s.jobOf 0x0910 ≠ none → completes (.train t p) s (begins 0x0910 .queued x)) ∧
    (accepted s t opTrain p → s.jobOf 0x0910 = none → completes (.train t p) s (fun s' => s'.log.onchipOnly = true ∧ begins 0x0910 .running { x with
      dram := { s.dram with
        training := true, trained := false, selfRefresh := false, mig := none, unbacked := [], markers := [], mem := [], banks := [], ranks := []
        ordered := [], returns := [], refBank := 0 }
      data := { s.data with
        lookback := (List.range 4).map (fun r => (r, { (tfind s.data.lookback r).getD {} with segs := [], gone := gone }))
        reduction := { s.data.reduction with segs := [], gone := gone }, special := {}, anchors := [] } } s')) ∧
    (accepted s t opMigrateRank p → migrates → completes (.migrateRank t p) s (begins 0x0911 .queued x)) ∧
    (accepted s t opMigrateRank p → ¬migrates → s.dram.spare (f 0 1) = some sp → completes (.migrateRank t p) s (fun s' =>
      162 ∈ s'.events.raised ∧ 163 ∈ s'.events.raised ∧ begins 0x0911 .running { x with dram := { woken with
        ranks := tput s.dram.ranks key { ((tfind s.dram.ranks key).getD {}) with state := 3 }
        mig := some { job := id, channel := f 0 1, source := f 1 1, spare := sp }
        migLost := 0, migChannel := f 0 1, migSource := f 1 1, migSpare := sp, migPos := 0 } } s')) ∧
    (accepted s t opHkCal p → completes (.hkCal t p) s (begins 0x0A10 .running { x with
      hk := { s.hk with running := false, powered := true, calJob := true, calDone := [], prev := none } })) ∧
    (accepted s t opUpdateFirmware p → f 0 1 = 0 → completes (.updateFirmware t p) s (begins 0x0B10 .running { x with sec := { s.sec with
      slotA := if s.sec.fwSlotB then 2 else s.sec.slotA, slotB := if s.sec.fwSlotB then s.sec.slotB else 2
      imageA := if s.sec.fwSlotB then [] else s.sec.imageA, imageB := if s.sec.fwSlotB then s.sec.imageB else []
      update := some {
        job := id, ring := p.ring.val, slotB := !s.sec.fwSlotB, length := f 12 4, digest := BitVec.ofNat 256 (f 16 32)
        activate := (f 1 1).testBit 0, raiseFloor := (f 1 1).testBit 1 } } })) ∧
    (accepted s t opUpdateFirmware p → f 0 1 = 1 → s.sec.update = some u → completes (.updateFirmware t p) s (fun s' => s'.log = s.log ∧
      onlyAnswers { x with sec := { s.sec with update := some { u with data := (f 8 4, p.params.drop 48) :: u.data } } } s')) ∧
    (accepted s t opUpdateFirmware p → f 0 1 = 2 → s.sec.update = some u → completes (.updateFirmware t p) s (fun s' => s'.log = s.log ∧
      onlyAnswers { x with sec := { s.sec with update := some { u with finished := true } } } s'))

/-- R370, R373 to R380, R382 to R387, R391, R394: SET_DRAM_MAP sets what it names, and a change of the map discards both rings. Of two reads that wait at a channel the more
urgent is made first, then one that finds its row open, then by port. A read is counted with its bank and its latency; a corrected one counts in its rank, with event 160 at the
threshold; an uncorrectable one counts with its address, with event 161, marks its words, and degrades a rank without a spare, with event 165; marked words and an unbacked rank are
delivered poisoned. Refresh that may be postponed no longer comes before an access. A copied block moves the migration on, its words that are lost marked; its end retires the source, with event 164, a bad spare fails it. Refresh, of all banks outside a run and of one bank index at a time during one, closes rows as an idle time does;
self-refresh is entered only when idle, with event 169, and left with event 170; warm and hot DIMMs raise events 167 and 168. -/
def Obligations.DramController : Prop :=
  ∀ (s : State) (t : SI) (p : Packet) (q r : DramReq) (reqs : List DramReq) (bank : Nat) (lost : List Nat) (c k : Fin 4) (kind : ReadKind) (bad : Bool) (celsius : List Int)
    (m : Migration),
    let x := s.moment t
    let si := x.time.si
    let d := s.dram
    let f := pField p.params
    let on := fun (e : Dram) => ({ x with dram := e } : State)
    let change := f 0 1 ≠ 255 ∧ f 0 1 ≠ d.map
    let gone := (List.range 4).map (fun r => (r, x.boundary))
    let mine := fun (y : DramReq) => (d.split y.addr).ch = c.val ∧ d.accessible y.addr = true
    let at_ := d.split q.addr
    let port := q.port.val
    let key := 4 * at_.ch + d.serving q.addr
    let due := (si - d.refFrom) / slotsOfNs s.time.ref.rateKhz (if d.warm then 1950 else 3900)
    let current := d.selfRefresh = true ∨ due ≤ d.refDone
    let rank := (tfind d.ranks key).getD {}
    let marked := d.isUnbacked q.addr = true ∨ d.marker q.addr ≠ none
    let word := fun (i : Nat) => q.addr / 64 * 64 + 8 * i
    let touched := fun (e : Dram) => e.rdBytes = d.rdBytes + (if q.write then 0 else 64) ∧ e.mem = d.mem ∧ e.mig = d.mig ∧ e.selfRefresh = false ∧
      (current → (q.write = false ∨ d.mig = none) → e.banks =
        tput d.banks (at_.bank (d.serving q.addr)) (((tfind d.banks (at_.bank (d.serving q.addr))).getD {}).access d.page at_.row si false))
    let latest := fun (y : DramReq) => some (max ((tfind d.maxNs y.port.val).getD 0) (min y.ageNs 65535))
    let made := fun (s' : State) => touched s'.dram ∧ s'.dram.idleSince = si ∧ tfind s'.dram.maxNs port = latest q ∧
      (∀ y, portTarget port = some y → y < q.ageNs → tfind s'.dram.miss port = some (min ((tfind d.miss port).getD 0 + 1) 65535)) ∧
      ((∀ y, portTarget port = some y → q.ageNs ≤ y) → s'.dram.miss = d.miss) ∧ (d.selfRefresh = true → 170 ∈ s'.events.raised)
    let waits := fun (before : List DramReq) (y : DramReq) (z : ReadKind) => Instr.dramReadComplete t y.port y.addr c before z y.ageNs
    let run := waits [] q
    let reads := d.trained = true ∧ mine q ∧ q.write = false ∧ d.returns = []
    let urg := fun (y : DramReq) => x.urgency y.port.val y.ageNs
    let hit := fun (y : DramReq) => ((tfind d.banks ((d.split y.addr).bank (d.serving y.addr))).getD {}).row = some (d.split y.addr).row
    let second := urg q < urg r ∨ (urg q = urg r ∧ ((¬hit q ∧ hit r) ∨ ((hit q ↔ hit r) ∧ portOrder r.port.val < portOrder port)))
    let takes := fun (y : DramReq) (s' : State) => tfind s'.dram.maxNs y.port.val = latest y ∧ ∀ n, n ≠ y.port.val → tfind s'.dram.maxNs n = tfind d.maxNs n
    let scrub := fun (z : ReadKind) => Instr.patrolScrub t q.addr c k z
    let there := d.trained = true ∧ (d.split q.addr).ch = c.val ∧ q.addr < d.usable * 1073741824 ∧ d.serving q.addr = k.val
    let scrubs := d.patrolHours ≠ 0 ∧ d.selfRefresh = false
    let closed := d.banks.map (fun e => (e.1, { e.2 with row := none }))
    let refreshes := d.refDone < due ∨ (x.portsIdle = true ∧ d.refDone < due + 4)
    let idle := slotsOfNs s.time.ref.rateKhz 2000
    let active := ∃ j ∈ s.cmd.jobs, j.id = m.job ∧ j.state = .running
    let state := fun (s' : State) (r : Nat) => (s'.dram.rank m.channel r).state
    (accepted s t opSetDramMap p → answers (.setDramMap t p) s { x with
      dram := { d with
        map := if f 0 1 = 255 then d.map else f 0 1, page := if f 1 1 = 255 then d.page else f 1 1, ceThresh := f 2 1, patrolHours := f 3 1
        srIdleUs := if f 4 4 = 4294967295 then d.srIdleUs else f 4 4 }
      data := if change then { s.data with
          lookback := (List.range 4).map (fun r => (r, { (tfind s.data.lookback r).getD {} with segs := [], gone := gone }))
          reduction := { s.data.reduction with segs := [], gone := gone } } else s.data }) ∧
    (quiet s → (d.trained = false ∨ ∀ y ∈ q :: reqs, ¬mine y) → answers (waits reqs q kind) s x) ∧
    (quiet s → reads → mine r → r.write = false → q.port ≠ r.port → current → d.ordered = [] →
      (second → completes (waits [q] r kind) s (takes r)) ∧ (¬second → completes (waits [q] r kind) s (takes q))) ∧
    (quiet s → reads → ¬marked → completes (run .clean) s (fun s' => made s' ∧ s'.dram.ranks = d.ranks ∧ onlyAnswers (on s'.dram) s')) ∧
    (quiet s → reads → ¬marked → completes (run .corrected) s (fun s' => made s' ∧ onlyAnswers (on s'.dram) s' ∧ s'.dram.wrBytes = d.wrBytes + 64 ∧
      s'.dram.ranks = tput d.ranks key { rank with ce := min (rank.ce + 1) 4294967295 } ∧
      (d.ceThresh ≠ 0 → min (rank.ce + 1) 4294967295 = d.ceThresh → 160 ∈ s'.events.raised))) ∧
    (quiet s → reads → ¬marked → rank.state ≠ 1 → rank.state ≠ 2 → port ∉ [6, 7, 8] → completes (run .uncorrectable) s (fun s' => made s' ∧
      onlyAnswers (on s'.dram) s' ∧ s'.dram.ueAddr = q.addr ∧ (∀ i, i < 8 → tfind s'.dram.markers (word i) = some 1) ∧ 161 ∈ s'.events.raised ∧
      s'.dram.ranks = tput d.ranks key { rank with ue := min (rank.ue + 1) 255 })) ∧
    (quiet s → reads → ¬marked → rank.state = 1 → s.freeSpare at_.ch = false → port ∉ [6, 7, 8] → completes (run .uncorrectable) s (fun s' => made s' ∧
      onlyAnswers (on s'.dram) s' ∧ s'.dram.ueAddr = q.addr ∧ 161 ∈ s'.events.raised ∧ 165 ∈ s'.events.raised ∧
      s'.dram.ranks = tput d.ranks key { rank with ue := min (rank.ue + 1) 255, state := 5 })) ∧
    (quiet s → reads → marked → port ∉ [6, 7, 8] → completes (run kind) s (fun s' => made s' ∧ onlyAnswers (on s'.dram) s' ∧ s'.dram.ranks = d.ranks ∧
      s'.dram.markers = d.markers ∧ s'.dram.poisonEvent = some (si / 1048576))) ∧
    (quiet s → d.trained = true → mine q → q.write = true → ¬mine r → completes (waits [q] r kind) s (fun s' => made s' ∧ onlyAnswers (on s'.dram) s' ∧ s'.dram.ranks = d.ranks ∧
      (d.inBobbins q.addr = false → ∀ i, i < 8 → tfind s'.dram.markers (word i) = none))) ∧
    (quiet s → (¬there ∨ ¬scrubs) → answers (scrub kind) s x) ∧
    (quiet s → there → scrubs → ¬marked → q.write = false → completes (scrub .clean) s (fun s' => touched s'.dram ∧ s'.dram.patrolled = d.patrolled + 1 ∧
      s'.dram.idleSince = d.idleSince ∧ s'.dram.ranks = d.ranks ∧ onlyAnswers (on s'.dram) s')) ∧
    (quiet s → there → scrubs → ¬marked → q.write = false → completes (scrub .corrected) s (fun s' => touched s'.dram ∧ onlyAnswers (on s'.dram) s' ∧ s'.dram.wrBytes = d.wrBytes + 64 ∧
      s'.dram.ranks = tput d.ranks key { rank with ce := min (rank.ce + 1) 4294967295 })) ∧
    ((d.trained = false ∨ d.selfRefresh = true) → doesNothing (.refreshInterval t) t s ∧ doesNothing (.dqsCompensation t) t s) ∧
    (¬refreshes → doesNothing (.refreshInterval t) t s) ∧
    (d.trained = true → d.selfRefresh = false → (refreshes → s.cap.runState = 0 → exec (.refreshInterval t) s = .next (on { d with
        banks := closed, refreshes := d.refreshes + 1, refDone := d.refDone + 1, refBank := 0 })) ∧
      (refreshes → s.cap.runState ≠ 0 → exec (.refreshInterval t) s = .next (on { d with
        banks := d.banks.map (fun e => if e.1 % 4 = d.refBank then (e.1, { e.2 with row := none }) else e)
        refreshes := if 3 ≤ d.refBank then d.refreshes + 1 else d.refreshes, refDone := if 3 ≤ d.refBank then d.refDone + 1 else d.refDone
        refBank := if 3 ≤ d.refBank then 0 else d.refBank + 1 })) ∧
      exec (.dqsCompensation t) s = .next (on { d with dqs := d.dqs + 1 })) ∧
    ((tfind d.banks bank = none ∨ d.page = 1 ∨ ∃ y, tfind d.banks bank = some y ∧ si < y.last + idle) → doesNothing (.rowIdleClose t bank) t s) ∧
    (∀ y, tfind d.banks bank = some y → y.last + idle ≤ si → d.page ≠ 1 → exec (.rowIdleClose t bank) s =
      .next (on { d with banks := tput d.banks bank { y with row := none } })) ∧
    completes (.dimmTemperatureRead t celsius) s (fun s' => ∃ warm hot : Bool, onlyPlaces (on { d with
        warm := warm, hot := hot, refFrom := if warm = d.warm then d.refFrom else si, refDone := if warm = d.warm then d.refDone else 0 }) s' ∧
      (warm = true ↔ ∃ y ∈ celsius, 85 < y) ∧ (hot = true ↔ ∃ y ∈ celsius, 95 < y) ∧ (warm = true → d.warm = false → 167 ∈ s'.events.raised) ∧
      (hot = true → d.hot = false → 168 ∈ s'.events.raised)) ∧
    (x.dramIdle = false → doesNothing (.selfRefreshEntry t) t s) ∧
    (x.dramIdle = true → completes (.selfRefreshEntry t) s (fun s' => 169 ∈ s'.events.raised ∧ onlyPlaces (on { d with banks := closed, selfRefresh := true }) s')) ∧
    (d.selfRefresh = false → doesNothing (.selfRefreshExit t) t s) ∧
    (d.selfRefresh = true → completes (.selfRefreshExit t) s (fun s' => 170 ∈ s'.events.raised ∧
      onlyPlaces (on { d with selfRefresh := false, dqs := d.dqs + 1, idleSince := si, refFrom := si, refDone := 0 }) s')) ∧
    (quiet s → (d.mig = none ∨ (d.mig = some m ∧ ¬active)) → answers (.migrationBlockCopied t lost bad) s x) ∧
    (quiet s → d.mig = some m → active → m.pos + 1 < d.rankMib → completes (.migrationBlockCopied t lost false) s (fun s' => onlyAnswers (on s'.dram) s' ∧
      s'.dram.mig = some { m with pos := m.pos + 1, lost := m.lost + lost.length } ∧ s'.dram.migLost = min (d.migLost + lost.length) 65535 ∧
      s'.dram.migPos = m.pos + 1 ∧ s'.dram.mem = d.mem ∧ s'.dram.rdBytes = d.rdBytes + 1048576 ∧ s'.dram.wrBytes = d.wrBytes + 1048576 ∧
      (lost = [] → s'.dram.markers = d.markers ∧ s'.dram.ranks = d.ranks) ∧ (lost ≠ [] → 161 ∈ s'.events.raised) ∧
      ∀ j ∈ lost, ∀ i, i < 8 →
        tfind s'.dram.markers (d.blockAddr m.channel (d.rank m.channel m.source).logical m.pos (j % 16384) / 64 * 64 + 8 * i) = some 2)) ∧
    (quiet s → d.mig = some m → active → m.source ≠ m.spare → d.rankMib ≤ m.pos + 1 → completes (.migrationBlockCopied t lost false) s (fun s' =>
      s'.dram.mig = none ∧ state s' m.spare = 1 ∧ state s' m.source = 4 ∧ (s'.dram.rank m.channel m.spare).logical = (d.rank m.channel m.source).logical ∧
      164 ∈ s'.events.raised ∧ s'.job m.job = none ∧ onlyAnswers (on s'.dram) s')) ∧
    (quiet s → d.mig = some m → active → m.source ≠ m.spare → completes (.migrationBlockCopied t lost true) s (fun s' =>
      s'.dram.mig = none ∧ state s' m.spare = 4 ∧ state s' m.source = 5 ∧ 165 ∈ s'.events.raised ∧ s'.job m.job = none ∧ onlyAnswers (on s'.dram) s'))

/-! ### Bobbins and evidence (10_bobbins.md, 09_compression_integrity_replay.md) -/

/-- R319, R330, R331, R338, R341, R344, R351, R355, R357 to R361: CREATE_BOBBIN makes an empty bobbin with the parameters' settings, in DRAM in a place apart from every other; DESTROY_BOBBIN
removes it; each writes its writeback block. ROUTE adds, removes or keeps a bobbin of a source, from its frame boundary on; REWIND brings RD back to MARK; SET_COMPRESSION sets the mode of every matching source; SET_SIGNING creates a
stream with its genesis, changes its cadence or begins its close. -/
def Obligations.BobbinCommands : Prop :=
  ∀ (s : State) (t : SI) (p : Packet) (v : Bobbin),
    let x := s.moment t
    let f := pField p.params
    let i := f 0 4
    let n := f 0 2
    let old := (tfind s.bob.routes (f 0 4)).getD []
    let list := match f 8 1 with
      | 0 => ninsert old (f 4 4)
      | 1 => old.filter (fun y => y ≠ f 4 4)
      | _ => old
    let others := fun (s' : State) => ∀ k, k ≠ i → (tfind s'.bob.tab k).isSome = (tfind s.bob.tab k).isSome
    let again := (f 4 1).testBit 0 = true ∧ v.loc1 = false
    let made := fun (s' : State) (addr : Nat) => ∃ y, tfind s'.bob.tab i = some y ∧ y.loc1 = decide (f 4 1 = 1) ∧ y.sizeLog2 = f 5 1 ∧
      y.provisional = (f 6 1).testBit 0 ∧ y.skc256 = (f 6 1).testBit 1 ∧ y.notifyTack = (f 6 1).testBit 2 ∧ y.weight = f 7 1 ∧ y.notify4k = f 26 2 ∧
      y.wbAddr = f 16 8 ∧ y.spillMib = f 24 2 ∧ y.ringAddr = addr ∧ y.wr = 0 ∧ y.rd = 0 ∧ y.rel = 0 ∧ y.ring = [] ∧ y.markValid = false ∧ y.stream = none
    let streams := fun (y : Stream) => ({ x with streams := tput s.streams n y } : State)
    let open_ := s.pcie.blocked = false
    let stands := fun (s' : State) => f 16 8 ≠ 0 → open_ → ∃ bs : List Byte, bs.length = 16 ∧ Posted.writeback i (f 16 8) bs ∈ s'.obs.posted
    let last := fun (s' : State) => tfind s.bob.tab i = some v → v.wbAddr ≠ 0 → open_ →
      Posted.writeback i v.wbAddr (leBytes 4 v.wr ++ leBytes 4 0 ++
        (if v.skc256 then leBytes 4 (Nat.xor v.wr 0xFFFFFFFF) ++ leBytes 4 (v.wbCount + 1) else leBytes 8 (v.wbCount + 1))) ∈ s'.obs.posted
    (accepted s t opCreateBobbin p → f 4 1 = 0 → completes (.createBobbin t p) s (fun s' => made s' (f 8 8) ∧ others s' ∧ stands s' ∧ onlyAnswers x s')) ∧
    (accepted s t opCreateBobbin p → f 4 1 = 1 → completes (.createBobbin t p) s (fun s' => others s' ∧ stands s' ∧ ∃ o, s.bob.fits o (2 ^ f 5 1) = true ∧
      made s' (s.dram.reserved + o) ∧ onlyAnswers { x with bob := { s.bob with area := (i, o, 2 ^ f 5 1) :: s.bob.area } } s')) ∧
    (accepted s t opDestroyBobbin p → completes (.destroyBobbin t p) s (fun s' => tfind s'.bob.tab i = none ∧ others s' ∧ last s' ∧
      onlyAnswers { x with bob := { s.bob with area := s.bob.area.filter (fun a => a.1 ≠ i) } } s')) ∧
    (accepted s t opRoute p → completes (.route t p) s (fun s' =>
      onlyAnswers { x with bob := { s.bob with
        routes := if f 8 1 = 2 then s.bob.routes else if list = [] then tdel s.bob.routes (f 0 4) else tput s.bob.routes (f 0 4) list
        oldRoutes := s'.bob.oldRoutes, ending := s'.bob.ending } } s' ∧
      ((∀ e, tfind s.bob.oldRoutes (f 0 4) = some e → e.1 ≤ x.time.si) → (∀ y, x.boundary ≤ y → s'.bob.routesAt y (f 0 4) = list) ∧
        ∀ y, x.time.si ≤ y → y < x.boundary → s'.bob.routesAt y (f 0 4) = s.bob.routesAt y (f 0 4)) ∧
      (f 8 1 = 1 → (f 0 4, f 4 4, x.boundary) ∈ s'.bob.ending) ∧
      (s'.data.source (f 0 4)).flushLog2 = (if f 9 1 = 0 then (s.data.source (f 0 4)).flushLog2 else f 9 1))) ∧
    (accepted s t opRewind p → tfind s.bob.tab i = some v → completes (.rewind t p) s (fun s' => onlyAnswers x s' ∧ ∃ y, tfind s'.bob.tab i = some y ∧
      y.rd = v.mark ∧ y.wr = v.wr ∧ y.rel = v.rel ∧ y.mark = v.mark ∧ y.rewinding.isSome = decide again ∧
      (v.notify4k ≠ 0 → v.unread < v.notify4k * 512 → v.notify4k * 512 ≤ y.unread → y.flags.getLsbD 1 = true) ∧
      (again → y.rewinding = some (v.fromMark.map (fun e => e.2), packetCtx 0x0704 p, v.mark)))) ∧
    (accepted s t opSetCompression p → completes (.setCompression t p) s (fun s' => onlyAnswers x s' ∧
      ∀ id, (s'.data.source id).mode = if id ∈ matching p.params then f 8 1 else (s.data.source id).mode)) ∧
    (accepted s t opSetSigning p → f 2 1 = 0 → completes (.setSigning t p) s (fun s' => (∃ y, tfind s'.bob.tab (f 4 4) = some y ∧ y.stream = some n) ∧
      onlyAnswers (streams {
        active := true, bobbin := f 4 4, sigSegs := f 8 2, sigMs := f 10 2, genesis := s.log.next, chain := genesisDigest n s.log.next
        lastSig := x.boundary }) s')) ∧
    (accepted s t opSetSigning p → f 2 1 = 1 → answers (.setSigning t p) s (streams { (s.stream n) with sigSegs := f 8 2, sigMs := f 10 2 })) ∧
    (accepted s t opSetSigning p → f 2 1 = 2 → (s.stream n).closing = true → answers (.setSigning t p) s (streams { (s.stream n) with deferred := none })) ∧
    (accepted s t opSetSigning p → f 2 1 = 2 → (s.stream n).closing = false → completes (.setSigning t p) s (fun s' => ∃ k,
      onlyAnswers (streams { (s.stream n) with closing := true, closeSeg := some k }) s'))

/-- R340, R342, R353, R354, R355, R406, R418: a host write of RD, REL or MARK of a bobbin is applied where it lies between the other pointers, and sets PTR_ERR otherwise; FILL is set
where what is unread has reached the threshold by it; a parity error reloads a context that is cached. With
SKC256 a write waits for its duplicate, and a duplicate that differs or does not come in 2 µs resets the queue; a held bobbin is re-attached by writing REL with 0. -/
def Obligations.BobbinPointers : Prop :=
  ∀ (s : State) (t : SI) (i : Fin 262144) (v : Word) (b : Bobbin) (which w0 : Nat) (at_ : SI),
    let x := s.moment t
    let w := v.toNat
    let rd := Instr.bobRdWrite t i v
    let rel := Instr.bobRelWrite t i v
    let mark := Instr.bobMarkWrite t i v
    let dup := Instr.bobDupWrite t i v
    let late := Instr.duplicateTimeout t i
    let there := tfind s.bob.tab i.val = some b
    let plain := there ∧ s.barWrites = true ∧ b.held = false ∧ b.rewinding = none ∧ b.skc256 = false
    let d := b.dist w b.rel
    let inside := w < b.m2 ∧ d ≤ b.used
    let err := { b with flags := b.flags ||| 64 }
    let filled := fun (y : Bobbin) => b.notify4k ≠ 0 ∧ b.unread < b.notify4k * 512 ∧ b.notify4k * 512 ≤ y.unread
    let becomes := fun (c : Instr) (y : Bobbin) => completes c s (fun s' => onlyAnswers x s' ∧
      ∃ n, s'.bob.tab = tput s.bob.tab i.val { y with wbCount := n, flags := y.flags ||| (if filled y then 2 else 0) })
    let resets := fun (c : Instr) => completes c s (fun s' => onlyAnswers x s' ∧ (∀ k, k ≠ i.val → tfind s'.bob.tab k = tfind s.bob.tab k) ∧
      ∃ y, tfind s'.bob.tab i.val = some y ∧ y.wr = 0 ∧ y.rd = 0 ∧ y.rel = 0 ∧ y.mark = 0 ∧ y.markValid = false ∧ y.ring = [] ∧ y.dup = none ∧
        y.flags = b.flags ||| (if b.owing = false ∧ y.owing = true then 8 else 0) ||| 128 ∧ y.sizeLog2 = b.sizeLog2 ∧ y.stream = b.stream ∧ (b.flags.getLsbD 7 = false → 256 + i.val / 512 ∈ s'.events.raised))
    let waits := there ∧ s.barWrites = true ∧ b.skc256 = true ∧ b.dup = some (which, w0, at_)
    let wait := slotsOfNs s.time.ref.rateKhz 2000
    ((tfind s.bob.tab i.val = none ∨ s.barWrites = false) → doesNothing mark t s) ∧
    (quiet s → (tfind s.bob.tab i.val = none ∨ s.barWrites = false) → answers rd s x ∧ answers rel s x ∧ answers dup s x) ∧
    (quiet s → plain → inside → becomes rd { b with rd := w, markValid := b.markValid && decide (b.dist b.mark b.rel ≤ d) }) ∧
    (quiet s → plain → inside → becomes rel { b with
      rel := w, rd := if b.dist b.rd b.rel < d then w else b.rd, ring := b.ring.filter (fun e => decide (d ≤ b.dist e.1 b.rel))
      markValid := b.markValid && decide (d ≤ b.dist b.mark b.rel) }) ∧
    (quiet s → plain → ¬inside → becomes rd err ∧ becomes rel err) ∧
    (plain → w < b.m2 → d ≤ b.dist b.rd b.rel → (∃ g, (w, g) ∈ b.ring) → becomes mark { b with mark := w, markValid := true }) ∧
    (plain → (b.m2 ≤ w ∨ b.dist b.rd b.rel < d ∨ ∀ g, (w, g) ∉ b.ring) → becomes mark err) ∧
    (there → s.barWrites = true → b.held = false → b.rewinding = none → b.skc256 = true → b.dup = none →
      becomes mark { b with dup := some (2, w, x.time.si) } ∧
      (quiet s → becomes rd { b with dup := some (0, w, x.time.si) } ∧ becomes rel { b with dup := some (1, w, x.time.si) })) ∧
    (quiet s → there → s.barWrites = true → b.held = true → w = 0 → becomes rel { b with held := false } ∧ becomes rd err) ∧
    (quiet s → there → s.barWrites = true → b.skc256 = false → answers dup s x) ∧
    (quiet s → there → s.barWrites = true → b.skc256 = true → b.dup = none → becomes dup { b with dupVal := w % 2 ^ 28 }) ∧
    (quiet s → waits → b.rewinding = none → w = w0 → x.time.si ≤ at_ + wait → which = 0 → w < b.m2 → b.dist w b.rel ≤ b.used →
      becomes dup { b with dupVal := w % 2 ^ 28, dup := none, rd := w, markValid := b.markValid && decide (b.dist b.mark b.rel ≤ b.dist w b.rel) }) ∧
    (quiet s → waits → b.rewinding = none → (w ≠ w0 ∨ at_ + wait < x.time.si) → resets dup) ∧
    (quiet s → (tfind s.bob.tab i.val = none ∨ (there ∧ (b.dup = none ∨ (b.dup = some (which, w0, at_) ∧ x.time.si < at_ + wait)))) → answers late s x) ∧
    (quiet s → there → b.dup = some (which, w0, at_) → at_ + wait ≤ x.time.si → resets late) ∧
    (quiet s → (tfind s.bob.tab i.val = none ∨ i.val ∉ s.bob.cached) → answers (.contextParityError t i) s x) ∧
    (quiet s → there → i.val ∈ s.bob.cached → becomes (.contextParityError t i) { b with flags := b.flags ||| 256 })

/-- R316 to R318, R322, R338, R339, R346 to R348, R351, R380, R412, R423: nothing is delivered to a ring that is stopped or without a segment that is ready and fits; else the next
segment of the bobbin whose turn it is stands at WR, which moves past it. A segment that waits 100 µs is owed, comes back from its backlog or becomes a gap. A REWIND ends when its segments are
written again. Each hashed segment joins its stream's chain, and a signature is made at its cadence, behind
every segment delivered before it: an ECDSA signature by the signing key over the message of R323, for which the generator gives a number that serves (the other
case, that 64 numbers in a row do not, is the model's: notes/assumptions/11.md). -/
def Obligations.SegmentsAreDelivered : Prop :=
  ∀ (s : State) (t : SI) (i : Fin 262144) (b : Bobbin) (q : QItem) (g : Seg) (n : Fin 4096) (num from_ r : Nat) (h : BitVec 256)
    (rest : List (Nat × BitVec 256 × Nat)) (segs : List Seg) (c : Ctx) (read : SegRead),
    let x := s.moment t
    let si := x.time.si
    let there := tfind s.bob.tab i.val = some b
    let run := Instr.segmentDelivered t i []
    let ready := s.ringStopped b = false ∧ b.next = some (q, g) ∧ b.stream = none ∧ g.uncompLen ≤ payloadMax ∧ x.served b.loc1 = some i.val
    let woken := if s.dram.selfRefresh then { s.dram with
      selfRefresh := false, dqs := s.dram.dqs + 1, idleSince := si, refFrom := si, refDone := 0 } else s.dram
    let y := s.stream n.val
    let st := fun (z : Stream) => ({ x with streams := tput s.streams n.val z } : State)
    let hashed := { y with toHash := rest, lastChain := h, hashed := y.hashed + 1, hashedSince := y.hashedSince + 1 }
    let record := fun (z : Stream) (key : Nat) (sg : List Byte) =>
      recSignature (x.timeFor x.boundary) (z.hashed - 1) x.boundary n.val (digestBytes z.lastChain) (sg.take 32) (sg.drop 32) key
    let signs := fun (z : Stream) (key : Nat) (s' : State) => s'.data.nextSeg = s.data.nextSeg + 1 ∧ (s'.stream n.val).hashedSince = 0 ∧
      (s'.stream n.val).lastSig = x.boundary ∧ (s'.stream n.val).hashed = z.hashed ∧ (∀ k, k ≠ n.val → s'.stream k = s.stream k) ∧
      (∀ b0, tfind s.bob.tab y.bobbin = some b0 → ∃ b1 e sg, tfind s'.bob.tab y.bobbin = some b1 ∧ b1.queue.head? = some e ∧ e.seg.seg = s.data.nextSeg ∧
        e.seg.audit = true ∧ e.seg.items = [.plain (record z key sg)] ∧ signed (s.sec.signingKey key)
          (signMessage (x.timeFor x.boundary) (z.hashed - 1) x.boundary n.val (digestBytes z.lastChain) key) sg)
    let signing := fun (s' : State) => ({ x with streams := s'.streams, sec := { s.sec with drbg := s'.sec.drbg, retiring := s'.sec.retiring } } : State)
    let kind := s.dram.foundIn (x.segAccesses q.seg) read
    let at_ := (x.segAccesses q.seg)[read.word]?
    let rank := fun (a : Nat) => s.dram.rank (s.dram.split a).ch (s.dram.serving a)
    let reads := fun (s' : State) => onlyPlaces { x with dram := s'.dram } s' ∧ s'.dram = { s'.dram with selfRefresh := false, idleSince := si } ∧
      s'.dram.mem = s.dram.mem ∧ s'.dram.rdBytes = s.dram.rdBytes + q.seg.size
    let overdue := y.lastSig + y.sigMs * 4000000 ≤ si
    let due := y.active = true ∧ y.closing = false ∧ 0 < y.hashedSince ∧ overdue
    let hash := y.toHash = (num, h, r) :: rest ∧ x.hashStopped y.bobbin r = false ∧ y.closeSeg ≠ some num
    let cadence := y.closing = false ∧ (y.sigSegs ≤ y.hashedSince + 1 ∨ overdue)
    let waited := fun (e : QItem) => e.seg.seg = num ∧ srcClass e.seg.source ≠ 4 ∧ e.since + slotsOfNs s.time.ref.rateKhz 100000 ≤ si
    let becomes := fun (e : Instr) (z : Bobbin) => completes e s (fun s' => onlyPlaces x s' ∧ ∃ k, s'.bob.tab = tput s.bob.tab i.val { z with wbCount := k })
    let delivered := fun (s' : State) => .segment i.val b.wr g [] ∈ s'.obs.posted ∧ ∃ z, tfind s'.bob.tab i.val = some z ∧ z.wr = (b.wr + g.len) % b.m2 ∧
      z.ring = b.ring ++ [(b.wr, g)] ∧ z.queue = dropItem b.queue q ∧ z.rd = b.rd ∧ z.rel = b.rel
    let owed := b.queue.find? (fun e => e.isOwed && !e.ready)
    let stopped := s.ringStopped b
    let takes := fun (s' : State) (z : Bobbin) => ∃ k, s'.bob.tab = tput s.bob.tab i.val { z with wbCount := k }
    (quiet s → (tfind s.bob.tab i.val = none ∨ (there ∧ (s.ringStopped b = true ∨ b.next = none ∨ x.served b.loc1 ≠ some i.val))) → answers run s x) ∧
    (quiet s → there → ready → b.loc1 = false → completes run s (fun s' =>
      delivered s' ∧ onlyAnswers { x with bob := { s.bob with turnHost := i.val } } s')) ∧
    (quiet s → there → ready → b.loc1 = true → completes run s (fun s' =>
      delivered s' ∧ onlyAnswers { x with bob := { s.bob with turnDram := i.val }, dram := {
          woken.touchAll (spanAccesses b.ringAddr (8 * b.n) (8 * (b.wr % b.n)) g.size) si true with
        wrBytes := s.dram.wrBytes + g.size, mem := ringBytes s.dram b b.wr g.bytes, markers := clearMarks s.dram.markers b b.wr g.len
        idleSince := si } } s')) ∧
    (tfind s.bob.tab i.val = none → completes (.oweTimeout t i num) s (fun s' => onlyPlaces x s' ∧ s'.bob = s.bob)) ∧
    (there → (∀ e ∈ b.queue, ¬waited e) → becomes (.oweTimeout t i num) b) ∧
    (there → b.queue = [q] → waited q → s.ringStopped b = false → q.owed = false → q.gap = none → q.seg.audit = false → b.dropping = false →
      8 * (q.copyFor b.provisional).len ≤ b.limit → becomes (.oweTimeout t i num) { b with
        flags := b.flags ||| 8, queue := [{ q with owed := true, ready := false, counted := true, hostStopped := false, contained := false }] }) ∧
    ((tfind s.bob.tab i.val = none ∨ (there ∧ owed = none)) → doesNothing (.backlogSegmentRead t i read) t s) ∧
    (there → owed = some q → s.held q = true → (kind = .clean ∨ kind = .corrected) → completes (.backlogSegmentRead t i read) s (fun s' => reads s' ∧
      s'.dram.markers = s.dram.markers ∧ (kind = .clean → s'.dram.ranks = s.dram.ranks ∧ s'.dram.wrBytes = s.dram.wrBytes) ∧ takes s' { b with
        queue := b.queue.map (fun e => if e = q then { q with ready := true } else e) })) ∧
    (there → owed = some q → s.held q = false → becomes (.backlogSegmentRead t i read)
      ((b.loseItem q (if q.hostStopped ∨ stopped then (if q.contained then 12 else 4) else 2)).recover stopped)) ∧
    (there → owed = some q → s.held q = true → (kind = .poisonMarker ∨ kind = .migrationMarker) →
      completes (.backlogSegmentRead t i read) s (fun s' => reads s' ∧ s'.dram.markers = s.dram.markers ∧ s'.dram.ranks = s.dram.ranks ∧
        (s.dram.poisonEvent ≠ some (si / 1048576) → 172 ∈ s'.events.raised) ∧
        takes s' ((b.loseItem q (if kind = .poisonMarker then 9 else 10)).recover stopped))) ∧
    (there → owed = some q → s.held q = true → kind = .uncorrectable → (∀ a, at_ = some a → (rank a).state ≠ 1 ∧ (rank a).state ≠ 2) →
      completes (.backlogSegmentRead t i read) s (fun s' => reads s' ∧ takes s' ((b.loseItem q 9).recover stopped) ∧
        (s.dram.poisonEvent ≠ some (si / 1048576) → 172 ∈ s'.events.raised) ∧ ∀ a, at_ = some a → 161 ∈ s'.events.raised ∧ s'.dram.ueAddr = a ∧
          s'.dram.rank (s.dram.split a).ch (s.dram.serving a) = { rank a with ue := min ((rank a).ue + 1) 255 })) ∧
    (quiet s → (tfind s.bob.tab i.val = none ∨ (there ∧ (b.rewinding = none ∨ s.ringStopped b = true))) → answers (.rewindComplete t i) s x) ∧
    (quiet s → there → s.ringStopped b = false → b.rewinding = some (segs, c, from_) → completes (.rewindComplete t i) s (fun s' => onlyAnswers x s' ∧
      (∃ k, s'.bob.tab = tput s.bob.tab i.val { b with rewinding := none, wbCount := k }) ∧
      ∀ e l, segs = e :: l → .segment i.val from_ e [] ∈ s'.obs.posted)) ∧
    (quiet s → (y.toHash = [] ∨ (y.toHash = (num, h, r) :: rest ∧ x.hashStopped y.bobbin r = true)) → answers (.segmentHashComplete t n) s x) ∧
    (quiet s → hash → y.due = none → ¬cadence → answers (.segmentHashComplete t n) s (st hashed)) ∧
    (quiet s → hash → rest ≠ [] → y.due = none → cadence → answers (.segmentHashComplete t n) s (st { hashed with due := some s.sec.eskId })) ∧
    (quiet s → hash → rest = [] → (y.due ≠ none ∨ cadence) → s.canSign = true →
      completes (.segmentHashComplete t n) s (fun s' => signs hashed (y.due.getD s.sec.eskId) s' ∧ onlyAnswers (signing s') s')) ∧
    (¬due → doesNothing (.signatureIntervalExpiry t n) t s) ∧
    (due → y.toHash ≠ [] → exec (.signatureIntervalExpiry t n) s = .next (st { y with due := some (y.due.getD s.sec.eskId) })) ∧
    (due → y.toHash = [] → s.canSign = false → doesNothing (.signatureIntervalExpiry t n) t s) ∧
    (due → y.toHash = [] → s.canSign = true → 0 < y.hashed → completes (.signatureIntervalExpiry t n) s (fun s' => signs y s.sec.eskId s' ∧ onlyPlaces (signing s') s'))

/-! ### Security (14_security.md) -/

/-- R438, R461, R465 to R469, R477, R478: AUTH gives the ring a challenge; a valid response to it under the role's key binds the ring, with event 225, anything else is a
failure, counted, with event 226, the eighth in a row with event 227 and a lockout of 10 s; a challenge is gone 10 s after its issue. A Crypto Officer sets and erases role
keys, each kept with its CMAC under the wrapping key. ROTATE_ESK makes a new key pair with the next ESK_ID, whose private half the secure store holds wrapped and whose certificate
the identity key signs, with event 229; GET_ATTESTATION writes what it selects to the host's buffer and changes nothing. -/
def Obligations.KeysRolesAndAttestation : Prop :=
  ∀ (s : State) (t : SI) (p : Packet) (key : BitVec 512) (ch : Challenge) (r : Fin 16) (cert : EskCert) (until_ : SI),
    let x := s.moment t
    let f := pField p.params
    let n := p.ring.val
    let op := f 0 1
    let role := f 1 1
    let ok := accepted s t opAuth p
    let run := Instr.auth t p
    let st := (s.ring n).cqLog2 ≠ 0
    let sec := fun (y : Sec) => ({ x with sec := y } : State)
    let macs := fun (r : Nat) (k : BitVec 512) => match s.sec.wrapKey with
      | none => s.sec.keyMacs
      | some w => tput s.sec.keyMacs r (keyCmac w k)
    let blobs := fun (secret : BitVec 256) => match s.sec.wrapKey with
      | none => s.sec.blobs
      | some w => tput s.sec.blobs 3 (kwpWrap w secret)
    let fails := min (s.sec.authFails + 1) 255
    let failed := fun (y : Sec) => { y with authFails := fails, authFailCnt := min (s.sec.authFailCnt + 1) 255 }
    let used := { s.sec with challenges := tdel s.sec.challenges n }
    let open_ := op = 1 ∧ tfind s.sec.roleKeys role = some key ∧ s.sec.lockoutUntil = none ∧ ¬(role = 3 ∧ s.sec.svcEn = false)
    let valid := ecdsaVerify (keyBytes key) (authMessage n role ch.bits s.log.boot ch.id) (pBytes p.params 8 32) (pBytes p.params 40 32) = true
    let given := keyOf (pBytes p.params 72 64)
    let out := fun (y s' : State) (bs : List Byte) => .hostWrite (f 8 8) bs ∈ s'.obs.posted ∧ s'.log = s.log ∧ onlyAnswers y s'
    let drew := fun (s' : State) => ({ s.sec with drbg := s'.sec.drbg } : Sec)
    (ok → op = 0 → completes run s (fun s' => s'.log.count = s.log.count + 1 ∧ ∃ bits : BitVec 128,
      (∀ g, s.sec.drbg = some g → g.requests < 1048576 → bits = BitVec.ofNat 128 (leNat (g.generate 16).1) ∧ s'.sec.drbg = some (g.generate 16).2) ∧
      onlyAnswers (sec { drew s' with
      challenges := tput s.sec.challenges n {
        id := s.sec.nextChallenge, bits := bits, until_ := x.time.si + slotsOfNs s.time.ref.rateKhz 10000000000 }
      nextChallenge := (s.sec.nextChallenge + 1) % 4294967296 }) s')) ∧
    (ok → open_ → tfind s.sec.challenges n = some ch → f 4 4 = ch.id → valid → completes run s (fun s' => (s'.ring n).role = role ∧
      225 ∈ s'.events.raised ∧ s'.log.count = s.log.count + 1 ∧ onlyAnswers (sec { used with authFails := 0, lockoutLevel := 0 }) s')) ∧
    (ok → open_ → tfind s.sec.challenges n = some ch → f 4 4 = ch.id → ¬valid → fails < 8 → completes run s (fun s' =>
      (s'.ring n).role = (s.ring n).role ∧ 226 ∈ s'.events.raised ∧ s'.log.count = s.log.count + 1 ∧ onlyAnswers (sec (failed used)) s')) ∧
    (ok → open_ → (∀ c, tfind s.sec.challenges n = some c → f 4 4 ≠ c.id) → fails < 8 → completes run s (fun s' =>
      (s'.ring n).role = (s.ring n).role ∧ 226 ∈ s'.events.raised ∧ onlyAnswers (sec (failed s.sec)) s')) ∧
    (ok → open_ → tfind s.sec.challenges n = none → 8 ≤ fails → completes run s (fun s' => 226 ∈ s'.events.raised ∧ 227 ∈ s'.events.raised ∧
      onlyAnswers (sec { (failed s.sec) with
        lockoutLevel := min 6 (s.sec.lockoutLevel + 1)
        lockoutUntil := some (x.time.si + slotsOfNs s.time.ref.rateKhz (min 640 (10 * 2 ^ s.sec.lockoutLevel) * 1000000000)) }) s')) ∧
    (ok → (op = 1 ∨ op = 2) → role = 3 → s.sec.svcEn = false → s.sec.lockoutUntil = none → (op = 1 → tfind s.sec.roleKeys 3 = some key) →
      (op = 2 → tfind s.sec.roleKeys 2 = none) → completes run s (fun s' => onlyAnswers x s' ∧ (st → ends s s' p 0x0B03 stNotAuth (fun w => w = [])))) ∧
    (ok → op = 2 → (role ≠ 3 ∨ s.sec.svcEn = true) → tfind s.sec.roleKeys 2 = none → s.sec.lockoutUntil = none → tfind s.sec.challenges n = some ch → f 4 4 = ch.id →
      ecdsaVerify (keyBytes given) (authMessage n 2 ch.bits s.log.boot ch.id) (pBytes p.params 8 32) (pBytes p.params 40 32) = true →
      completes run s (fun s' => (s'.ring n).role = 2 ∧ 225 ∈ s'.events.raised ∧
        onlyAnswers (sec { used with authFails := 0, lockoutLevel := 0, roleKeys := tput s.sec.roleKeys 2 given, keyMacs := macs 2 given }) s')) ∧
    (ok → op = 1 → tfind s.sec.roleKeys role = none → completes run s (fun s' => onlyAnswers x s' ∧
      (st → ends s s' p 0x0B03 stBadState (fun w => w = [])))) ∧
    (ok → (op = 3 ∨ op = 4) → (s.ring n).role ≠ 2 → completes run s (fun s' => onlyAnswers x s' ∧
      (st → ends s s' p 0x0B03 stNotAuth (fun w => w = [])))) ∧
    (ok → op = 3 → (s.ring n).role = 2 → answers run s (sec { s.sec with roleKeys := tput s.sec.roleKeys role given, keyMacs := macs role given })) ∧
    (ok → op = 4 → (s.ring n).role = 2 → answers run s (sec { s.sec with roleKeys := tdel s.sec.roleKeys role, keyMacs := tdel s.sec.keyMacs role })) ∧
    (ok → op = 5 → completes run s (fun s' => onlyAnswers x s' ∧ (s'.ring n).role = 0)) ∧
    (tfind s.sec.challenges r.val = some ch → ch.until_ ≤ x.time.si →
      exec (.authChallengeExpiry t r) s = .next (sec { s.sec with challenges := tdel s.sec.challenges r.val })) ∧
    (tfind s.sec.challenges r.val = some ch → x.time.si < ch.until_ → doesNothing (.authChallengeExpiry t r) t s) ∧
    (tfind s.sec.challenges r.val = none → doesNothing (.authChallengeExpiry t r) t s) ∧
    (s.sec.lockoutUntil = some until_ → until_ ≤ x.time.si → exec (.authLockoutEnd t) s = .next (sec { s.sec with lockoutUntil := none })) ∧
    ((s.sec.lockoutUntil = none ∨ (s.sec.lockoutUntil = some until_ ∧ x.time.si < until_)) → doesNothing (.authLockoutEnd t) t s) ∧
    (accepted s t opRotateEsk p → completes (.rotateEsk t p) s (fun s' => 229 ∈ s'.events.raised ∧ s'.log.count = s.log.count + 1 ∧
      (∃ (k : BitVec 512) (secret : BitVec 256) (y : EskCert) (sg : List Byte), k = ecPublic secret ∧ y.id = s.sec.lastEskId + 1 ∧ y.key = k ∧
        y.identity = s.sec.identity ∧ y.boot = s.log.boot ∧ y.idKey = s.sec.identityKey ∧ signed s.sec.identitySecret y.body sg ∧ y.sig = keyOf sg ∧
        onlyAnswers { x with
          streams := s'.streams
          sec := { drew s' with
            retiring := s'.sec.retiring, esk := true, eskId := s.sec.lastEskId + 1, eskKey := k, lastEskId := s.sec.lastEskId + 1, blobs := blobs secret
            certs := (y :: s.sec.certs).take 16 } } s') ∧
      (st → ends s s' p 0x0B02 0x00 (fun w => w = [s.sec.lastEskId + 1])))) ∧
    (accepted s t opGetAttestation p → op = 0 → completes (.getAttestation t p) s (fun s' => ∃ sig : List Byte, sig.length = 64 ∧
      signed s.sec.identitySecret (x.report (pBytes p.params 24 16)) sig ∧ out (sec (drew s')) s' (x.report (pBytes p.params 24 16) ++ sig) ∧ (st → replied s s' p 0x0B01 0x00 (fun w => w = [(x.report (pBytes p.params 24 16)).length + 64])))) ∧
    (accepted s t opGetAttestation p → op = 1 → completes (.getAttestation t p) s (fun s' => ∃ bs : List Byte,
      bs.length = Config.certLength s.sec.identity ∧ out x s' bs ∧ (st → replied s s' p 0x0B01 0x00 (fun w => w = [bs.length])))) ∧
    (accepted s t opGetAttestation p → op = 2 → s.sec.cert (f 4 4) = some cert → completes (.getAttestation t p) s (fun s' =>
      out x s' cert.bytes ∧ (st → replied s s' p 0x0B01 0x00 (fun w => w = [cert.bytes.length]))))

/-- R466, R480 to R483: ZEROIZE, TAMPER_N and SVC_UNLOCK with SVC_EN each begin a zeroization: challenges, bindings, the generator's state and retired keys are gone, every stream closes without a final signature, and one
record is made, with event 230. When the erase has ended no secret and no wrapped key is left, with event 231, the cause and the boot are kept, and the service port opens where it was asked
for; a new field key comes only with TAMPER_N high and the port closed, with event 238. -/
def Obligations.ZeroizationErasesSecrets : Prop :=
  ∀ (s : State) (t : SI) (p : Packet) (v : Word) (z : Zeroization),
    let x := s.moment t
    let c := s.sec
    let sec := fun (y : Sec) => ({ x with sec := y } : State)
    let rings := fun (f : Ring → Prop) (s' : State) => ∀ n, (f (s.ring n) → (s'.ring n).role = 0) ∧ (¬f (s.ring n) → (s'.ring n).role = (s.ring n).role)
    let begins := fun (y : Sec) (cause : Nat) (reply : Option Ctx) (port : Bool) (s' : State) => 230 ∈ s'.events.raised ∧ s'.log.count = s.log.count + 1 ∧
      (∀ n, (s'.ring n).role = 0) ∧ (∀ n, (s'.stream n).active = (s.stream n).active ∧ ((s.stream n).active = true → (s'.stream n).closing = true ∧
        (s'.stream n).finalSeg = none ∧ (s'.stream n).noFinal = true)) ∧
      onlyAnswers { x with streams := s'.streams, sec := { y with
        challenges := [], drbg := none, retiring := [], zero := some { cause := cause, reply := reply, openPort := port }, zeroizeLife := min (c.zeroizeLife + 1) 65535, fikDue := false } } s'
    let erased := { c with
      identity := 0, fikOrigin := 0, identityKey := 0, esk := false, eskId := 0, eskKey := 0, blobs := [], roleKeys := [], keyMacs := [], zero := none
      fikDue := true, zcause := z.cause, zboot := s.log.boot }
    let blobs := fun (secret : BitVec 256) => match c.wrapKey with
      | none => c.blobs
      | some w => tput c.blobs 2 (kwpWrap w secret)
    let barred := c.zero ≠ none ∨ c.tamper = true ∨ c.svcOpen = true
    (accepted s t opZeroize p → c.zero = none → completes (.zeroize t p) s (begins c 1 (some (packetCtx 0x0B20 p)) false)) ∧
    (accepted s t opZeroize p → c.zero = some z → completes (.zeroize t p) s (fun s' => s'.sec.zero.map (fun y => y.cause) = some z.cause ∧
      s'.sec.zeroizeLife = c.zeroizeLife ∧ s'.log.count = s.log.count + 1 ∧ 230 ∈ s'.events.raised)) ∧
    (c.tamper = true → doesNothing (.tamperNAssert t) t s) ∧
    (c.tamper = false → s.startup.step < 4 → exec (.tamperNAssert t) s = .next (sec { c with tamper := true })) ∧
    (c.tamper = false → 4 ≤ s.startup.step → c.zero = none → completes (.tamperNAssert t) s (fun s' => 232 ∈ s'.events.raised ∧
      begins { c with tamper := true, tamperLatched := true, tamperCnt := min (c.tamperCnt + 1) 255 } 2 none false s')) ∧
    exec (.tamperNRelease t) s = .next (sec { c with tamper := false }) ∧
    completes (.svcEnAssert t) s (fun s' => onlyPlaces (sec { c with svcEn := true }) s' ∧ 233 ∈ s'.events.raised) ∧
    completes (.svcEnDeassert t) s (fun s' => 228 ∈ s'.events.raised ∧ rings (fun r => r.role = 3) s' ∧ onlyPlaces { x with
      sec := { c with svcEn := false, svcOpen := false, zero := c.zero.map (fun y => { y with openPort := false }) }
      cmd := { s.cmd with rings := s'.cmd.rings } } s') ∧
    (¬(c.svcEn = true ∧ v = 0x53564355 ∧ c.svcOpen = false) → doesNothing (.svcUnlock t v) t s) ∧
    (c.svcEn = true → c.svcOpen = false → c.zero = none → completes (.svcUnlock t 0x53564355) s (begins c 3 none true)) ∧
    (quiet s → c.zero = none → answers (.zeroizationEraseComplete t) s x) ∧
    (quiet s → c.zero = some z → completes (.zeroizationEraseComplete t) s (fun s' => 231 ∈ s'.events.raised ∧
      onlyAnswers (sec { erased with svcOpen := c.svcOpen || (z.openPort && c.svcEn) }) s' ∧
      (z.openPort = true → c.svcEn = true → 234 ∈ s'.events.raised))) ∧
    ((c.fikDue = false ∨ barred) → doesNothing (.fikGenerated t) t s) ∧
    (c.fikDue = true → ¬barred → completes (.fikGenerated t) s (fun s' => 238 ∈ s'.events.raised ∧ ∃ secret : BitVec 256,
      onlyPlaces (sec { c with
        drbg := s'.sec.drbg, blobs := blobs secret, identity := 2, fikOrigin := c.zcause, identityKey := ecPublic secret, fikDue := false }) s'))
end

