-- ==== Sys2Proof/Laws/Tables.lean ====
section
/-! SUPPORT. Sparse tables and the DRAM bytes: reading after writing, and that every memory operation keeps the canonical form. -/

namespace Sys2Proof.Machine

variable {α : Type}

/-! ### Reading after writing -/

/-- The key that was put reads as what was put. -/
@[simp] theorem tfind_tput_self (t : Tab α) (k : Nat) (v : α) : tfind (tput t k v) k = some v := by
  induction t with
  | nil => simp [tput, tfind]
  | cons e rest ih =>
    obtain ⟨j, w⟩ := e
    by_cases h : k < j
    · simp [tput, h, tfind]
    · by_cases hj : j = k
      · simp [tput, hj, tfind]
      · simp [tput, h, hj, tfind, ih]

/-- Every other key reads as before. -/
theorem tfind_tput_ne (t : Tab α) (k j : Nat) (v : α) (h : j ≠ k) : tfind (tput t k v) j = tfind t j := by
  induction t with
  | nil => simp [tput, tfind, h.symm]
  | cons e rest ih =>
    obtain ⟨i, w⟩ := e
    by_cases hk : k < i
    · simp [tput, hk, tfind, h.symm]
    · by_cases hi : i = k
      · subst hi
        simp [tput, tfind, h.symm]
      · simp [tput, hk, hi, tfind, ih]

/-- A deleted key has no entry. -/
@[simp] theorem tfind_tdel_self (t : Tab α) (k : Nat) : tfind (tdel t k) k = none := by
  induction t with
  | nil => simp [tdel, tfind]
  | cons e rest ih =>
    obtain ⟨j, w⟩ := e
    by_cases h : j = k
    · simpa [tdel, h] using ih
    · simpa [tdel, h, tfind] using ih

/-- Deleting one key leaves every other as it was. -/
theorem tfind_tdel_ne (t : Tab α) (k j : Nat) (h : j ≠ k) : tfind (tdel t k) j = tfind t j := by
  induction t with
  | nil => rfl
  | cons e rest ih =>
    obtain ⟨i, w⟩ := e
    by_cases hi : i = k
    · have hij : ¬ i = j := fun hh => h (hh.symm.trans hi)
      have e1 : tdel ((i, w) :: rest) k = tdel rest k := by simp [tdel, hi]
      have e2 : tfind ((i, w) :: rest) j = tfind rest j := by simp [tfind, hij]
      rw [e1, e2]
      exact ih
    · have e1 : tdel ((i, w) :: rest) k = (i, w) :: tdel rest k := by simp [tdel, hi]
      rw [e1]
      simp only [tfind, ih]

/-- The entry that was changed. -/
@[simp] theorem tfind_tmod_self (t : Tab α) (k : Nat) (d : α) (f : α → α) :
    tfind (tmod t k d f) k = some (f ((tfind t k).getD d)) := by simp [tmod]

/-- Every other entry is as before. -/
theorem tfind_tmod_ne (t : Tab α) (k j : Nat) (d : α) (f : α → α) (h : j ≠ k) : tfind (tmod t k d f) j = tfind t j := by
  simp [tmod, tfind_tput_ne _ _ _ _ h]

/-- One lookup after one change, both cases at once. -/
theorem tfind_tmod (t : Tab α) (k j : Nat) (d : α) (f : α → α) :
    tfind (tmod t k d f) j = if j = k then some (f ((tfind t k).getD d)) else tfind t j := by
  by_cases h : j = k
  · subst h; simp
  · simp [h, tfind_tmod_ne]

/-- A mapped table reads as the mapped entry. -/
theorem tfind_map {β : Type} (t : Tab α) (f : α → β) (k : Nat) : tfind (t.map (fun e => (e.1, f e.2))) k = (tfind t k).map f := by
  induction t with
  | nil => rfl
  | cons e rest ih =>
    obtain ⟨j, w⟩ := e
    by_cases h : j = k
    · simp [tfind, h]
    · simp [tfind, h, ih]

/-! ### Canonical form -/

theorem tsorted_tail (e : Nat × α) (t : Tab α) (h : tsorted (e :: t) = true) : tsorted t = true := by
  cases t with
  | nil => rfl
  | cons f rest => obtain ⟨i, v⟩ := e; obtain ⟨j, w⟩ := f; simp [tsorted] at h; exact h.2

/-- In a rising table every later key is above the first. -/
theorem tsorted_head_lt (i : Nat) (v : α) (t : Tab α) (h : tsorted ((i, v) :: t) = true) : ∀ e ∈ t, i < e.1 := by
  induction t generalizing i v with
  | nil => simp
  | cons f rest ih =>
    obtain ⟨j, w⟩ := f
    simp only [tsorted, Bool.and_eq_true, decide_eq_true_eq] at h
    intro e he
    rcases List.mem_cons.mp he with rfl | he
    · exact h.1
    · exact lt_trans h.1 (ih j w h.2 e he)

/-- A key below all others may stand in front of a rising table. -/
theorem tsorted_cons (i : Nat) (v : α) (t : Tab α) (h : ∀ e ∈ t, i < e.1) (ht : tsorted t = true) : tsorted ((i, v) :: t) = true := by
  cases t with
  | nil => rfl
  | cons f rest =>
    obtain ⟨j, w⟩ := f
    simp only [tsorted, Bool.and_eq_true, decide_eq_true_eq]
    exact ⟨h (j, w) (by simp), ht⟩

/-- The keys after a put. -/
theorem mem_tput (t : Tab α) (k : Nat) (v : α) (e : Nat × α) (h : e ∈ tput t k v) : e = (k, v) ∨ e ∈ t := by
  induction t with
  | nil => simp [tput] at h; exact .inl h
  | cons f rest ih =>
    obtain ⟨j, w⟩ := f
    by_cases hk : k < j
    · simp only [tput, hk, if_true, List.mem_cons] at h ⊢
      exact h
    · by_cases hj : j = k
      · simp only [tput, hj, lt_irrefl, if_true, if_false, List.mem_cons] at h ⊢
        rcases h with h | h
        · exact .inl h
        · exact .inr (.inr h)
      · simp only [tput, hk, hj, if_false, List.mem_cons] at h ⊢
        rcases h with h | h
        · exact .inr (.inl h)
        · rcases ih h with h | h
          · exact .inl h
          · exact .inr (.inr h)

/-- A put keeps a table rising. -/
theorem tsorted_tput (t : Tab α) (k : Nat) (v : α) (h : tsorted t = true) : tsorted (tput t k v) = true := by
  induction t with
  | nil => rfl
  | cons f rest ih =>
    obtain ⟨j, w⟩ := f
    have hr := tsorted_tail _ _ h
    have hl := tsorted_head_lt _ _ _ h
    by_cases hk : k < j
    · simp only [tput, hk, if_true]
      refine tsorted_cons _ _ _ ?_ h
      intro e he
      rcases List.mem_cons.mp he with rfl | he
      · exact hk
      · exact lt_trans hk (hl e he)
    · by_cases hj : j = k
      · subst hj
        simp only [tput, lt_irrefl, if_true, if_false]
        exact tsorted_cons _ _ _ hl hr
      · simp only [tput, hk, hj, if_false]
        refine tsorted_cons _ _ _ ?_ (ih hr)
        intro e he
        rcases mem_tput _ _ _ _ he with rfl | he
        · show j < k; omega
        · exact hl e he

/-- Deleting keeps a table rising. -/
theorem tsorted_tdel (t : Tab α) (k : Nat) (h : tsorted t = true) : tsorted (tdel t k) = true := by
  induction t with
  | nil => rfl
  | cons f rest ih =>
    obtain ⟨j, w⟩ := f
    have hr := tsorted_tail _ _ h
    have hl := tsorted_head_lt _ _ _ h
    have hc : tdel ((j, w) :: rest) k = if j ≠ k then (j, w) :: tdel rest k else tdel rest k := by
      by_cases hj : j = k <;> simp [tdel, hj]
    rw [hc]
    split
    · refine tsorted_cons _ _ _ ?_ (ih hr)
      intro e he
      exact hl e (List.mem_filter.mp he).1
    · exact ih hr

/-! ### DRAM bytes -/

/-- A byte reads as what was written there. -/
@[simp] theorem Memory.read_write_self (m : List Host.Cell) (a : Nat) (b : Byte) : Memory.read (Memory.write m a b) a = b := by
  unfold Memory.read Memory.write
  split
  · next h => simp [h]
  · simp

/-- Every other byte reads as before. -/
theorem Memory.read_write_ne (m : List Host.Cell) (a c : Nat) (b : Byte) (h : c ≠ a) :
    Memory.read (Memory.write m a b) c = Memory.read m c := by
  unfold Memory.read Memory.write
  split
  · rw [tfind_tdel_ne _ _ _ h]
  · rw [tfind_tput_ne _ _ _ _ h]

/-- A write keeps the canonical form. -/
theorem Memory.wf_write (m : List Host.Cell) (a : Nat) (b : Byte) (h : Memory.wf m = true) : Memory.wf (Memory.write m a b) = true := by
  unfold Memory.wf at *
  simp only [Bool.and_eq_true, List.all_eq_true] at *
  unfold Memory.write
  split
  · exact ⟨tsorted_tdel _ _ h.1, fun c hc => h.2 c (List.mem_filter.mp hc).1⟩
  · next hb =>
    refine ⟨tsorted_tput _ _ _ h.1, fun c hc => ?_⟩
    rcases mem_tput _ _ _ _ hc with rfl | hc
    · simpa using hb
    · exact h.2 c hc

/-- Several writes keep the canonical form. -/
theorem Memory.wf_writeMany (bs : List Byte) (m : List Host.Cell) (a : Nat) (h : Memory.wf m = true) :
    Memory.wf (Memory.writeMany m a bs) = true := by
  induction bs generalizing m a with
  | nil => exact h
  | cons b rest ih => exact ih _ _ (Memory.wf_write _ _ _ h)

/-- Several writes leave every byte outside them as it was. -/
theorem Memory.read_writeMany_out (bs : List Byte) (m : List Host.Cell) (a c : Nat) (h : c < a ∨ a + bs.length ≤ c) :
    Memory.read (Memory.writeMany m a bs) c = Memory.read m c := by
  induction bs generalizing m a with
  | nil => rfl
  | cons b rest ih =>
    simp only [List.length_cons] at h
    rw [Memory.writeMany, ih _ _ (by omega), Memory.read_write_ne _ _ _ _ (by omega)]

/-- The empty memory has the canonical form. -/
theorem Memory.wf_nil : Memory.wf [] = true := rfl

end Sys2Proof.Machine
end

