-- ==== Sys2Proof/Laws/State.lean ====
section
/-! SUPPORT. One lemma per field and update of State: what the update makes of the field. -/

namespace Sys2Proof.Machine

variable (s : State)

/-! ### moment -/

@[simp] theorem State.moment_pending (t : SI) : (s.moment t).pending = s.pending := rfl
@[simp] theorem State.moment_freeCtr (t : SI) : (s.moment t).freeCtr = s.freeCtr := rfl
@[simp] theorem State.moment_obs (t : SI) : (s.moment t).obs = s.obs := rfl
@[simp] theorem State.moment_startup (t : SI) : (s.moment t).startup = s.startup := rfl
@[simp] theorem State.moment_time (t : SI) : (s.moment t).time = s.time.atSlot t s.timeFor := rfl
@[simp] theorem State.moment_sched (t : SI) : (s.moment t).sched = s.sched := rfl
@[simp] theorem State.moment_cells (t : SI) : (s.moment t).cells = s.cells := rfl
@[simp] theorem State.moment_ivls (t : SI) : (s.moment t).ivls = s.ivls := rfl
@[simp] theorem State.moment_blocks (t : SI) : (s.moment t).blocks = s.blocks := rfl
@[simp] theorem State.moment_regions (t : SI) : (s.moment t).regions = s.regions := rfl
@[simp] theorem State.moment_data (t : SI) : (s.moment t).data = s.data := rfl
@[simp] theorem State.moment_cap (t : SI) : (s.moment t).cap = s.cap := rfl
@[simp] theorem State.moment_seq0 (t : SI) : (s.moment t).seq0 = s.seq0 := rfl
@[simp] theorem State.moment_seq1 (t : SI) : (s.moment t).seq1 = s.seq1 := rfl
@[simp] theorem State.moment_pins (t : SI) : (s.moment t).pins = s.pins := rfl
@[simp] theorem State.moment_cas (t : SI) : (s.moment t).cas = s.cas := rfl
@[simp] theorem State.moment_engines (t : SI) : (s.moment t).engines = s.engines := rfl
@[simp] theorem State.moment_cutEngines (t : SI) : (s.moment t).cutEngines = s.cutEngines := rfl
@[simp] theorem State.moment_streams (t : SI) : (s.moment t).streams = s.streams := rfl
@[simp] theorem State.moment_replay (t : SI) : (s.moment t).replay = s.replay := rfl
@[simp] theorem State.moment_bob (t : SI) : (s.moment t).bob = s.bob := rfl
@[simp] theorem State.moment_dram (t : SI) : (s.moment t).dram = s.dram := rfl
@[simp] theorem State.moment_pcie (t : SI) : (s.moment t).pcie = s.pcie := rfl
@[simp] theorem State.moment_events (t : SI) : (s.moment t).events = s.events := rfl
@[simp] theorem State.moment_tags (t : SI) : (s.moment t).tags = s.tags := rfl
@[simp] theorem State.moment_cmd (t : SI) : (s.moment t).cmd = s.cmd := rfl
@[simp] theorem State.moment_log (t : SI) : (s.moment t).log = s.log := rfl
@[simp] theorem State.moment_sec (t : SI) : (s.moment t).sec = s.sec := rfl
@[simp] theorem State.moment_safe (t : SI) : (s.moment t).safe = s.safe := rfl
@[simp] theorem State.moment_hk (t : SI) : (s.moment t).hk = s.hk := rfl

/-! ### tick -/

@[simp] theorem State.tick_pending : s.tick.pending = s.pending := rfl
@[simp] theorem State.tick_freeCtr : s.tick.freeCtr = s.freeCtr + 1 := rfl
@[simp] theorem State.tick_obs : s.tick.obs = s.obs := rfl
@[simp] theorem State.tick_startup : s.tick.startup = s.startup := rfl
@[simp] theorem State.tick_time : s.tick.time = s.time := rfl
@[simp] theorem State.tick_sched : s.tick.sched = s.sched := rfl
@[simp] theorem State.tick_cells : s.tick.cells = s.cells := rfl
@[simp] theorem State.tick_ivls : s.tick.ivls = s.ivls := rfl
@[simp] theorem State.tick_blocks : s.tick.blocks = s.blocks := rfl
@[simp] theorem State.tick_regions : s.tick.regions = s.regions := rfl
@[simp] theorem State.tick_data : s.tick.data = s.data := rfl
@[simp] theorem State.tick_cap : s.tick.cap = s.cap := rfl
@[simp] theorem State.tick_seq0 : s.tick.seq0 = s.seq0 := rfl
@[simp] theorem State.tick_seq1 : s.tick.seq1 = s.seq1 := rfl
@[simp] theorem State.tick_pins : s.tick.pins = s.pins := rfl
@[simp] theorem State.tick_cas : s.tick.cas = s.cas := rfl
@[simp] theorem State.tick_engines : s.tick.engines = s.engines := rfl
@[simp] theorem State.tick_cutEngines : s.tick.cutEngines = s.cutEngines := rfl
@[simp] theorem State.tick_streams : s.tick.streams = s.streams := rfl
@[simp] theorem State.tick_replay : s.tick.replay = s.replay := rfl
@[simp] theorem State.tick_bob : s.tick.bob = s.bob := rfl
@[simp] theorem State.tick_dram : s.tick.dram = s.dram := rfl
@[simp] theorem State.tick_pcie : s.tick.pcie = s.pcie := rfl
@[simp] theorem State.tick_events : s.tick.events = s.events := rfl
@[simp] theorem State.tick_tags : s.tick.tags = s.tags := rfl
@[simp] theorem State.tick_cmd : s.tick.cmd = s.cmd := rfl
@[simp] theorem State.tick_log : s.tick.log = s.log := rfl
@[simp] theorem State.tick_sec : s.tick.sec = s.sec := rfl
@[simp] theorem State.tick_safe : s.tick.safe = s.safe := rfl
@[simp] theorem State.tick_hk : s.tick.hk = s.hk := rfl

/-! ### post -/

@[simp] theorem State.post_pending (p : Posted) : (s.post p).pending = s.pending := rfl
@[simp] theorem State.post_freeCtr (p : Posted) : (s.post p).freeCtr = s.freeCtr := rfl
@[simp] theorem State.post_obs (p : Posted) : (s.post p).obs = { s.obs with posted := p :: s.obs.posted } := rfl
@[simp] theorem State.post_startup (p : Posted) : (s.post p).startup = s.startup := rfl
@[simp] theorem State.post_time (p : Posted) : (s.post p).time = s.time := rfl
@[simp] theorem State.post_sched (p : Posted) : (s.post p).sched = s.sched := rfl
@[simp] theorem State.post_cells (p : Posted) : (s.post p).cells = s.cells := rfl
@[simp] theorem State.post_ivls (p : Posted) : (s.post p).ivls = s.ivls := rfl
@[simp] theorem State.post_blocks (p : Posted) : (s.post p).blocks = s.blocks := rfl
@[simp] theorem State.post_regions (p : Posted) : (s.post p).regions = s.regions := rfl
@[simp] theorem State.post_data (p : Posted) : (s.post p).data = s.data := rfl
@[simp] theorem State.post_cap (p : Posted) : (s.post p).cap = s.cap := rfl
@[simp] theorem State.post_seq0 (p : Posted) : (s.post p).seq0 = s.seq0 := rfl
@[simp] theorem State.post_seq1 (p : Posted) : (s.post p).seq1 = s.seq1 := rfl
@[simp] theorem State.post_pins (p : Posted) : (s.post p).pins = s.pins := rfl
@[simp] theorem State.post_cas (p : Posted) : (s.post p).cas = s.cas := rfl
@[simp] theorem State.post_engines (p : Posted) : (s.post p).engines = s.engines := rfl
@[simp] theorem State.post_cutEngines (p : Posted) : (s.post p).cutEngines = s.cutEngines := rfl
@[simp] theorem State.post_streams (p : Posted) : (s.post p).streams = s.streams := rfl
@[simp] theorem State.post_replay (p : Posted) : (s.post p).replay = s.replay := rfl
@[simp] theorem State.post_bob (p : Posted) : (s.post p).bob = s.bob := rfl
@[simp] theorem State.post_dram (p : Posted) : (s.post p).dram = s.dram := rfl
@[simp] theorem State.post_pcie (p : Posted) : (s.post p).pcie = s.pcie := rfl
@[simp] theorem State.post_events (p : Posted) : (s.post p).events = s.events := rfl
@[simp] theorem State.post_tags (p : Posted) : (s.post p).tags = s.tags := rfl
@[simp] theorem State.post_cmd (p : Posted) : (s.post p).cmd = s.cmd := rfl
@[simp] theorem State.post_log (p : Posted) : (s.post p).log = s.log := rfl
@[simp] theorem State.post_sec (p : Posted) : (s.post p).sec = s.sec := rfl
@[simp] theorem State.post_safe (p : Posted) : (s.post p).safe = s.safe := rfl
@[simp] theorem State.post_hk (p : Posted) : (s.post p).hk = s.hk := rfl

/-! ### sent -/

@[simp] theorem State.sent_pending (n : Nat) : (s.sent n).pending = s.pending := rfl
@[simp] theorem State.sent_freeCtr (n : Nat) : (s.sent n).freeCtr = s.freeCtr := rfl
@[simp] theorem State.sent_obs (n : Nat) : (s.sent n).obs = s.obs := rfl
@[simp] theorem State.sent_startup (n : Nat) : (s.sent n).startup = s.startup := rfl
@[simp] theorem State.sent_time (n : Nat) : (s.sent n).time = s.time := rfl
@[simp] theorem State.sent_sched (n : Nat) : (s.sent n).sched = s.sched := rfl
@[simp] theorem State.sent_cells (n : Nat) : (s.sent n).cells = s.cells := rfl
@[simp] theorem State.sent_ivls (n : Nat) : (s.sent n).ivls = s.ivls := rfl
@[simp] theorem State.sent_blocks (n : Nat) : (s.sent n).blocks = s.blocks := rfl
@[simp] theorem State.sent_regions (n : Nat) : (s.sent n).regions = s.regions := rfl
@[simp] theorem State.sent_data (n : Nat) : (s.sent n).data = s.data := rfl
@[simp] theorem State.sent_cap (n : Nat) : (s.sent n).cap = s.cap := rfl
@[simp] theorem State.sent_seq0 (n : Nat) : (s.sent n).seq0 = s.seq0 := rfl
@[simp] theorem State.sent_seq1 (n : Nat) : (s.sent n).seq1 = s.seq1 := rfl
@[simp] theorem State.sent_pins (n : Nat) : (s.sent n).pins = s.pins := rfl
@[simp] theorem State.sent_cas (n : Nat) : (s.sent n).cas = s.cas := rfl
@[simp] theorem State.sent_engines (n : Nat) : (s.sent n).engines = s.engines := rfl
@[simp] theorem State.sent_cutEngines (n : Nat) : (s.sent n).cutEngines = s.cutEngines := rfl
@[simp] theorem State.sent_streams (n : Nat) : (s.sent n).streams = s.streams := rfl
@[simp] theorem State.sent_replay (n : Nat) : (s.sent n).replay = s.replay := rfl
@[simp] theorem State.sent_bob (n : Nat) : (s.sent n).bob = s.bob := rfl
@[simp] theorem State.sent_dram (n : Nat) : (s.sent n).dram = s.dram := rfl
@[simp] theorem State.sent_pcie (n : Nat) : (s.sent n).pcie = { s.pcie with wrBytes := s.pcie.wrBytes + n } := rfl
@[simp] theorem State.sent_events (n : Nat) : (s.sent n).events = s.events := rfl
@[simp] theorem State.sent_tags (n : Nat) : (s.sent n).tags = s.tags := rfl
@[simp] theorem State.sent_cmd (n : Nat) : (s.sent n).cmd = s.cmd := rfl
@[simp] theorem State.sent_log (n : Nat) : (s.sent n).log = s.log := rfl
@[simp] theorem State.sent_sec (n : Nat) : (s.sent n).sec = s.sec := rfl
@[simp] theorem State.sent_safe (n : Nat) : (s.sent n).safe = s.safe := rfl
@[simp] theorem State.sent_hk (n : Nat) : (s.sent n).hk = s.hk := rfl

/-! ### postBytes -/

@[simp] theorem State.postBytes_pending (p : Posted) (n : Nat) : (s.postBytes p n).pending = s.pending := rfl
@[simp] theorem State.postBytes_freeCtr (p : Posted) (n : Nat) : (s.postBytes p n).freeCtr = s.freeCtr := rfl
@[simp] theorem State.postBytes_obs (p : Posted) (n : Nat) : (s.postBytes p n).obs = { s.obs with posted := p :: s.obs.posted } := rfl
@[simp] theorem State.postBytes_startup (p : Posted) (n : Nat) : (s.postBytes p n).startup = s.startup := rfl
@[simp] theorem State.postBytes_time (p : Posted) (n : Nat) : (s.postBytes p n).time = s.time := rfl
@[simp] theorem State.postBytes_sched (p : Posted) (n : Nat) : (s.postBytes p n).sched = s.sched := rfl
@[simp] theorem State.postBytes_cells (p : Posted) (n : Nat) : (s.postBytes p n).cells = s.cells := rfl
@[simp] theorem State.postBytes_ivls (p : Posted) (n : Nat) : (s.postBytes p n).ivls = s.ivls := rfl
@[simp] theorem State.postBytes_blocks (p : Posted) (n : Nat) : (s.postBytes p n).blocks = s.blocks := rfl
@[simp] theorem State.postBytes_regions (p : Posted) (n : Nat) : (s.postBytes p n).regions = s.regions := rfl
@[simp] theorem State.postBytes_data (p : Posted) (n : Nat) : (s.postBytes p n).data = s.data := rfl
@[simp] theorem State.postBytes_cap (p : Posted) (n : Nat) : (s.postBytes p n).cap = s.cap := rfl
@[simp] theorem State.postBytes_seq0 (p : Posted) (n : Nat) : (s.postBytes p n).seq0 = s.seq0 := rfl
@[simp] theorem State.postBytes_seq1 (p : Posted) (n : Nat) : (s.postBytes p n).seq1 = s.seq1 := rfl
@[simp] theorem State.postBytes_pins (p : Posted) (n : Nat) : (s.postBytes p n).pins = s.pins := rfl
@[simp] theorem State.postBytes_cas (p : Posted) (n : Nat) : (s.postBytes p n).cas = s.cas := rfl
@[simp] theorem State.postBytes_engines (p : Posted) (n : Nat) : (s.postBytes p n).engines = s.engines := rfl
@[simp] theorem State.postBytes_cutEngines (p : Posted) (n : Nat) : (s.postBytes p n).cutEngines = s.cutEngines := rfl
@[simp] theorem State.postBytes_streams (p : Posted) (n : Nat) : (s.postBytes p n).streams = s.streams := rfl
@[simp] theorem State.postBytes_replay (p : Posted) (n : Nat) : (s.postBytes p n).replay = s.replay := rfl
@[simp] theorem State.postBytes_bob (p : Posted) (n : Nat) : (s.postBytes p n).bob = s.bob := rfl
@[simp] theorem State.postBytes_dram (p : Posted) (n : Nat) : (s.postBytes p n).dram = s.dram := rfl
@[simp] theorem State.postBytes_pcie (p : Posted) (n : Nat) : (s.postBytes p n).pcie = { s.pcie with wrBytes := s.pcie.wrBytes + n } := rfl
@[simp] theorem State.postBytes_events (p : Posted) (n : Nat) : (s.postBytes p n).events = s.events := rfl
@[simp] theorem State.postBytes_tags (p : Posted) (n : Nat) : (s.postBytes p n).tags = s.tags := rfl
@[simp] theorem State.postBytes_cmd (p : Posted) (n : Nat) : (s.postBytes p n).cmd = s.cmd := rfl
@[simp] theorem State.postBytes_log (p : Posted) (n : Nat) : (s.postBytes p n).log = s.log := rfl
@[simp] theorem State.postBytes_sec (p : Posted) (n : Nat) : (s.postBytes p n).sec = s.sec := rfl
@[simp] theorem State.postBytes_safe (p : Posted) (n : Nat) : (s.postBytes p n).safe = s.safe := rfl
@[simp] theorem State.postBytes_hk (p : Posted) (n : Nat) : (s.postBytes p n).hk = s.hk := rfl

/-! ### modRing -/

@[simp] theorem State.modRing_pending (n : Nat) (f : Ring → Ring) : (s.modRing n f).pending = s.pending := rfl
@[simp] theorem State.modRing_freeCtr (n : Nat) (f : Ring → Ring) : (s.modRing n f).freeCtr = s.freeCtr := rfl
@[simp] theorem State.modRing_obs (n : Nat) (f : Ring → Ring) : (s.modRing n f).obs = s.obs := rfl
@[simp] theorem State.modRing_startup (n : Nat) (f : Ring → Ring) : (s.modRing n f).startup = s.startup := rfl
@[simp] theorem State.modRing_time (n : Nat) (f : Ring → Ring) : (s.modRing n f).time = s.time := rfl
@[simp] theorem State.modRing_sched (n : Nat) (f : Ring → Ring) : (s.modRing n f).sched = s.sched := rfl
@[simp] theorem State.modRing_cells (n : Nat) (f : Ring → Ring) : (s.modRing n f).cells = s.cells := rfl
@[simp] theorem State.modRing_ivls (n : Nat) (f : Ring → Ring) : (s.modRing n f).ivls = s.ivls := rfl
@[simp] theorem State.modRing_blocks (n : Nat) (f : Ring → Ring) : (s.modRing n f).blocks = s.blocks := rfl
@[simp] theorem State.modRing_regions (n : Nat) (f : Ring → Ring) : (s.modRing n f).regions = s.regions := rfl
@[simp] theorem State.modRing_data (n : Nat) (f : Ring → Ring) : (s.modRing n f).data = s.data := rfl
@[simp] theorem State.modRing_cap (n : Nat) (f : Ring → Ring) : (s.modRing n f).cap = s.cap := rfl
@[simp] theorem State.modRing_seq0 (n : Nat) (f : Ring → Ring) : (s.modRing n f).seq0 = s.seq0 := rfl
@[simp] theorem State.modRing_seq1 (n : Nat) (f : Ring → Ring) : (s.modRing n f).seq1 = s.seq1 := rfl
@[simp] theorem State.modRing_pins (n : Nat) (f : Ring → Ring) : (s.modRing n f).pins = s.pins := rfl
@[simp] theorem State.modRing_cas (n : Nat) (f : Ring → Ring) : (s.modRing n f).cas = s.cas := rfl
@[simp] theorem State.modRing_engines (n : Nat) (f : Ring → Ring) : (s.modRing n f).engines = s.engines := rfl
@[simp] theorem State.modRing_cutEngines (n : Nat) (f : Ring → Ring) : (s.modRing n f).cutEngines = s.cutEngines := rfl
@[simp] theorem State.modRing_streams (n : Nat) (f : Ring → Ring) : (s.modRing n f).streams = s.streams := rfl
@[simp] theorem State.modRing_replay (n : Nat) (f : Ring → Ring) : (s.modRing n f).replay = s.replay := rfl
@[simp] theorem State.modRing_bob (n : Nat) (f : Ring → Ring) : (s.modRing n f).bob = s.bob := rfl
@[simp] theorem State.modRing_dram (n : Nat) (f : Ring → Ring) : (s.modRing n f).dram = s.dram := rfl
@[simp] theorem State.modRing_pcie (n : Nat) (f : Ring → Ring) : (s.modRing n f).pcie = s.pcie := rfl
@[simp] theorem State.modRing_events (n : Nat) (f : Ring → Ring) : (s.modRing n f).events = s.events := rfl
@[simp] theorem State.modRing_tags (n : Nat) (f : Ring → Ring) : (s.modRing n f).tags = s.tags := rfl
@[simp] theorem State.modRing_cmd (n : Nat) (f : Ring → Ring) : (s.modRing n f).cmd = { s.cmd with rings := tmod s.cmd.rings n {} f } := rfl
@[simp] theorem State.modRing_log (n : Nat) (f : Ring → Ring) : (s.modRing n f).log = s.log := rfl
@[simp] theorem State.modRing_sec (n : Nat) (f : Ring → Ring) : (s.modRing n f).sec = s.sec := rfl
@[simp] theorem State.modRing_safe (n : Nat) (f : Ring → Ring) : (s.modRing n f).safe = s.safe := rfl
@[simp] theorem State.modRing_hk (n : Nat) (f : Ring → Ring) : (s.modRing n f).hk = s.hk := rfl

/-! ### modJob -/

@[simp] theorem State.modJob_pending (n : Nat) (f : Job → Job) : (s.modJob n f).pending = s.pending := rfl
@[simp] theorem State.modJob_freeCtr (n : Nat) (f : Job → Job) : (s.modJob n f).freeCtr = s.freeCtr := rfl
@[simp] theorem State.modJob_obs (n : Nat) (f : Job → Job) : (s.modJob n f).obs = s.obs := rfl
@[simp] theorem State.modJob_startup (n : Nat) (f : Job → Job) : (s.modJob n f).startup = s.startup := rfl
@[simp] theorem State.modJob_time (n : Nat) (f : Job → Job) : (s.modJob n f).time = s.time := rfl
@[simp] theorem State.modJob_sched (n : Nat) (f : Job → Job) : (s.modJob n f).sched = s.sched := rfl
@[simp] theorem State.modJob_cells (n : Nat) (f : Job → Job) : (s.modJob n f).cells = s.cells := rfl
@[simp] theorem State.modJob_ivls (n : Nat) (f : Job → Job) : (s.modJob n f).ivls = s.ivls := rfl
@[simp] theorem State.modJob_blocks (n : Nat) (f : Job → Job) : (s.modJob n f).blocks = s.blocks := rfl
@[simp] theorem State.modJob_regions (n : Nat) (f : Job → Job) : (s.modJob n f).regions = s.regions := rfl
@[simp] theorem State.modJob_data (n : Nat) (f : Job → Job) : (s.modJob n f).data = s.data := rfl
@[simp] theorem State.modJob_cap (n : Nat) (f : Job → Job) : (s.modJob n f).cap = s.cap := rfl
@[simp] theorem State.modJob_seq0 (n : Nat) (f : Job → Job) : (s.modJob n f).seq0 = s.seq0 := rfl
@[simp] theorem State.modJob_seq1 (n : Nat) (f : Job → Job) : (s.modJob n f).seq1 = s.seq1 := rfl
@[simp] theorem State.modJob_pins (n : Nat) (f : Job → Job) : (s.modJob n f).pins = s.pins := rfl
@[simp] theorem State.modJob_cas (n : Nat) (f : Job → Job) : (s.modJob n f).cas = s.cas := rfl
@[simp] theorem State.modJob_engines (n : Nat) (f : Job → Job) : (s.modJob n f).engines = s.engines := rfl
@[simp] theorem State.modJob_cutEngines (n : Nat) (f : Job → Job) : (s.modJob n f).cutEngines = s.cutEngines := rfl
@[simp] theorem State.modJob_streams (n : Nat) (f : Job → Job) : (s.modJob n f).streams = s.streams := rfl
@[simp] theorem State.modJob_replay (n : Nat) (f : Job → Job) : (s.modJob n f).replay = s.replay := rfl
@[simp] theorem State.modJob_bob (n : Nat) (f : Job → Job) : (s.modJob n f).bob = s.bob := rfl
@[simp] theorem State.modJob_dram (n : Nat) (f : Job → Job) : (s.modJob n f).dram = s.dram := rfl
@[simp] theorem State.modJob_pcie (n : Nat) (f : Job → Job) : (s.modJob n f).pcie = s.pcie := rfl
@[simp] theorem State.modJob_events (n : Nat) (f : Job → Job) : (s.modJob n f).events = s.events := rfl
@[simp] theorem State.modJob_tags (n : Nat) (f : Job → Job) : (s.modJob n f).tags = s.tags := rfl
@[simp] theorem State.modJob_cmd (n : Nat) (f : Job → Job) : (s.modJob n f).cmd = { s.cmd with jobs := s.cmd.jobs.map (fun j => if j.id = n then f j else j) } := rfl
@[simp] theorem State.modJob_log (n : Nat) (f : Job → Job) : (s.modJob n f).log = s.log := rfl
@[simp] theorem State.modJob_sec (n : Nat) (f : Job → Job) : (s.modJob n f).sec = s.sec := rfl
@[simp] theorem State.modJob_safe (n : Nat) (f : Job → Job) : (s.modJob n f).safe = s.safe := rfl
@[simp] theorem State.modJob_hk (n : Nat) (f : Job → Job) : (s.modJob n f).hk = s.hk := rfl

/-! ### modRegion -/

@[simp] theorem State.modRegion_pending (n : Nat) (f : Region → Region) : (s.modRegion n f).pending = s.pending := rfl
@[simp] theorem State.modRegion_freeCtr (n : Nat) (f : Region → Region) : (s.modRegion n f).freeCtr = s.freeCtr := rfl
@[simp] theorem State.modRegion_obs (n : Nat) (f : Region → Region) : (s.modRegion n f).obs = s.obs := rfl
@[simp] theorem State.modRegion_startup (n : Nat) (f : Region → Region) : (s.modRegion n f).startup = s.startup := rfl
@[simp] theorem State.modRegion_time (n : Nat) (f : Region → Region) : (s.modRegion n f).time = s.time := rfl
@[simp] theorem State.modRegion_sched (n : Nat) (f : Region → Region) : (s.modRegion n f).sched = s.sched := rfl
@[simp] theorem State.modRegion_cells (n : Nat) (f : Region → Region) : (s.modRegion n f).cells = s.cells := rfl
@[simp] theorem State.modRegion_ivls (n : Nat) (f : Region → Region) : (s.modRegion n f).ivls = s.ivls := rfl
@[simp] theorem State.modRegion_blocks (n : Nat) (f : Region → Region) : (s.modRegion n f).blocks = s.blocks := rfl
@[simp] theorem State.modRegion_regions (n : Nat) (f : Region → Region) : (s.modRegion n f).regions = tmod s.regions n {} f := rfl
@[simp] theorem State.modRegion_data (n : Nat) (f : Region → Region) : (s.modRegion n f).data = s.data := rfl
@[simp] theorem State.modRegion_cap (n : Nat) (f : Region → Region) : (s.modRegion n f).cap = s.cap := rfl
@[simp] theorem State.modRegion_seq0 (n : Nat) (f : Region → Region) : (s.modRegion n f).seq0 = s.seq0 := rfl
@[simp] theorem State.modRegion_seq1 (n : Nat) (f : Region → Region) : (s.modRegion n f).seq1 = s.seq1 := rfl
@[simp] theorem State.modRegion_pins (n : Nat) (f : Region → Region) : (s.modRegion n f).pins = s.pins := rfl
@[simp] theorem State.modRegion_cas (n : Nat) (f : Region → Region) : (s.modRegion n f).cas = s.cas := rfl
@[simp] theorem State.modRegion_engines (n : Nat) (f : Region → Region) : (s.modRegion n f).engines = s.engines := rfl
@[simp] theorem State.modRegion_cutEngines (n : Nat) (f : Region → Region) : (s.modRegion n f).cutEngines = s.cutEngines := rfl
@[simp] theorem State.modRegion_streams (n : Nat) (f : Region → Region) : (s.modRegion n f).streams = s.streams := rfl
@[simp] theorem State.modRegion_replay (n : Nat) (f : Region → Region) : (s.modRegion n f).replay = s.replay := rfl
@[simp] theorem State.modRegion_bob (n : Nat) (f : Region → Region) : (s.modRegion n f).bob = s.bob := rfl
@[simp] theorem State.modRegion_dram (n : Nat) (f : Region → Region) : (s.modRegion n f).dram = s.dram := rfl
@[simp] theorem State.modRegion_pcie (n : Nat) (f : Region → Region) : (s.modRegion n f).pcie = s.pcie := rfl
@[simp] theorem State.modRegion_events (n : Nat) (f : Region → Region) : (s.modRegion n f).events = s.events := rfl
@[simp] theorem State.modRegion_tags (n : Nat) (f : Region → Region) : (s.modRegion n f).tags = s.tags := rfl
@[simp] theorem State.modRegion_cmd (n : Nat) (f : Region → Region) : (s.modRegion n f).cmd = s.cmd := rfl
@[simp] theorem State.modRegion_log (n : Nat) (f : Region → Region) : (s.modRegion n f).log = s.log := rfl
@[simp] theorem State.modRegion_sec (n : Nat) (f : Region → Region) : (s.modRegion n f).sec = s.sec := rfl
@[simp] theorem State.modRegion_safe (n : Nat) (f : Region → Region) : (s.modRegion n f).safe = s.safe := rfl
@[simp] theorem State.modRegion_hk (n : Nat) (f : Region → Region) : (s.modRegion n f).hk = s.hk := rfl

/-! ### modSource -/

@[simp] theorem State.modSource_pending (n : Nat) (f : Source → Source) : (s.modSource n f).pending = s.pending := rfl
@[simp] theorem State.modSource_freeCtr (n : Nat) (f : Source → Source) : (s.modSource n f).freeCtr = s.freeCtr := rfl
@[simp] theorem State.modSource_obs (n : Nat) (f : Source → Source) : (s.modSource n f).obs = s.obs := rfl
@[simp] theorem State.modSource_startup (n : Nat) (f : Source → Source) : (s.modSource n f).startup = s.startup := rfl
@[simp] theorem State.modSource_time (n : Nat) (f : Source → Source) : (s.modSource n f).time = s.time := rfl
@[simp] theorem State.modSource_sched (n : Nat) (f : Source → Source) : (s.modSource n f).sched = s.sched := rfl
@[simp] theorem State.modSource_cells (n : Nat) (f : Source → Source) : (s.modSource n f).cells = s.cells := rfl
@[simp] theorem State.modSource_ivls (n : Nat) (f : Source → Source) : (s.modSource n f).ivls = s.ivls := rfl
@[simp] theorem State.modSource_blocks (n : Nat) (f : Source → Source) : (s.modSource n f).blocks = s.blocks := rfl
@[simp] theorem State.modSource_regions (n : Nat) (f : Source → Source) : (s.modSource n f).regions = s.regions := rfl
@[simp] theorem State.modSource_data (n : Nat) (f : Source → Source) : (s.modSource n f).data = { s.data with sources := tmod s.data.sources n {} f } := rfl
@[simp] theorem State.modSource_cap (n : Nat) (f : Source → Source) : (s.modSource n f).cap = s.cap := rfl
@[simp] theorem State.modSource_seq0 (n : Nat) (f : Source → Source) : (s.modSource n f).seq0 = s.seq0 := rfl
@[simp] theorem State.modSource_seq1 (n : Nat) (f : Source → Source) : (s.modSource n f).seq1 = s.seq1 := rfl
@[simp] theorem State.modSource_pins (n : Nat) (f : Source → Source) : (s.modSource n f).pins = s.pins := rfl
@[simp] theorem State.modSource_cas (n : Nat) (f : Source → Source) : (s.modSource n f).cas = s.cas := rfl
@[simp] theorem State.modSource_engines (n : Nat) (f : Source → Source) : (s.modSource n f).engines = s.engines := rfl
@[simp] theorem State.modSource_cutEngines (n : Nat) (f : Source → Source) : (s.modSource n f).cutEngines = s.cutEngines := rfl
@[simp] theorem State.modSource_streams (n : Nat) (f : Source → Source) : (s.modSource n f).streams = s.streams := rfl
@[simp] theorem State.modSource_replay (n : Nat) (f : Source → Source) : (s.modSource n f).replay = s.replay := rfl
@[simp] theorem State.modSource_bob (n : Nat) (f : Source → Source) : (s.modSource n f).bob = s.bob := rfl
@[simp] theorem State.modSource_dram (n : Nat) (f : Source → Source) : (s.modSource n f).dram = s.dram := rfl
@[simp] theorem State.modSource_pcie (n : Nat) (f : Source → Source) : (s.modSource n f).pcie = s.pcie := rfl
@[simp] theorem State.modSource_events (n : Nat) (f : Source → Source) : (s.modSource n f).events = s.events := rfl
@[simp] theorem State.modSource_tags (n : Nat) (f : Source → Source) : (s.modSource n f).tags = s.tags := rfl
@[simp] theorem State.modSource_cmd (n : Nat) (f : Source → Source) : (s.modSource n f).cmd = s.cmd := rfl
@[simp] theorem State.modSource_log (n : Nat) (f : Source → Source) : (s.modSource n f).log = s.log := rfl
@[simp] theorem State.modSource_sec (n : Nat) (f : Source → Source) : (s.modSource n f).sec = s.sec := rfl
@[simp] theorem State.modSource_safe (n : Nat) (f : Source → Source) : (s.modSource n f).safe = s.safe := rfl
@[simp] theorem State.modSource_hk (n : Nat) (f : Source → Source) : (s.modSource n f).hk = s.hk := rfl

/-! ### modStream -/

@[simp] theorem State.modStream_pending (n : Nat) (f : Stream → Stream) : (s.modStream n f).pending = s.pending := rfl
@[simp] theorem State.modStream_freeCtr (n : Nat) (f : Stream → Stream) : (s.modStream n f).freeCtr = s.freeCtr := rfl
@[simp] theorem State.modStream_obs (n : Nat) (f : Stream → Stream) : (s.modStream n f).obs = s.obs := rfl
@[simp] theorem State.modStream_startup (n : Nat) (f : Stream → Stream) : (s.modStream n f).startup = s.startup := rfl
@[simp] theorem State.modStream_time (n : Nat) (f : Stream → Stream) : (s.modStream n f).time = s.time := rfl
@[simp] theorem State.modStream_sched (n : Nat) (f : Stream → Stream) : (s.modStream n f).sched = s.sched := rfl
@[simp] theorem State.modStream_cells (n : Nat) (f : Stream → Stream) : (s.modStream n f).cells = s.cells := rfl
@[simp] theorem State.modStream_ivls (n : Nat) (f : Stream → Stream) : (s.modStream n f).ivls = s.ivls := rfl
@[simp] theorem State.modStream_blocks (n : Nat) (f : Stream → Stream) : (s.modStream n f).blocks = s.blocks := rfl
@[simp] theorem State.modStream_regions (n : Nat) (f : Stream → Stream) : (s.modStream n f).regions = s.regions := rfl
@[simp] theorem State.modStream_data (n : Nat) (f : Stream → Stream) : (s.modStream n f).data = s.data := rfl
@[simp] theorem State.modStream_cap (n : Nat) (f : Stream → Stream) : (s.modStream n f).cap = s.cap := rfl
@[simp] theorem State.modStream_seq0 (n : Nat) (f : Stream → Stream) : (s.modStream n f).seq0 = s.seq0 := rfl
@[simp] theorem State.modStream_seq1 (n : Nat) (f : Stream → Stream) : (s.modStream n f).seq1 = s.seq1 := rfl
@[simp] theorem State.modStream_pins (n : Nat) (f : Stream → Stream) : (s.modStream n f).pins = s.pins := rfl
@[simp] theorem State.modStream_cas (n : Nat) (f : Stream → Stream) : (s.modStream n f).cas = s.cas := rfl
@[simp] theorem State.modStream_engines (n : Nat) (f : Stream → Stream) : (s.modStream n f).engines = s.engines := rfl
@[simp] theorem State.modStream_cutEngines (n : Nat) (f : Stream → Stream) : (s.modStream n f).cutEngines = s.cutEngines := rfl
@[simp] theorem State.modStream_streams (n : Nat) (f : Stream → Stream) : (s.modStream n f).streams = tmod s.streams n {} f := rfl
@[simp] theorem State.modStream_replay (n : Nat) (f : Stream → Stream) : (s.modStream n f).replay = s.replay := rfl
@[simp] theorem State.modStream_bob (n : Nat) (f : Stream → Stream) : (s.modStream n f).bob = s.bob := rfl
@[simp] theorem State.modStream_dram (n : Nat) (f : Stream → Stream) : (s.modStream n f).dram = s.dram := rfl
@[simp] theorem State.modStream_pcie (n : Nat) (f : Stream → Stream) : (s.modStream n f).pcie = s.pcie := rfl
@[simp] theorem State.modStream_events (n : Nat) (f : Stream → Stream) : (s.modStream n f).events = s.events := rfl
@[simp] theorem State.modStream_tags (n : Nat) (f : Stream → Stream) : (s.modStream n f).tags = s.tags := rfl
@[simp] theorem State.modStream_cmd (n : Nat) (f : Stream → Stream) : (s.modStream n f).cmd = s.cmd := rfl
@[simp] theorem State.modStream_log (n : Nat) (f : Stream → Stream) : (s.modStream n f).log = s.log := rfl
@[simp] theorem State.modStream_sec (n : Nat) (f : Stream → Stream) : (s.modStream n f).sec = s.sec := rfl
@[simp] theorem State.modStream_safe (n : Nat) (f : Stream → Stream) : (s.modStream n f).safe = s.safe := rfl
@[simp] theorem State.modStream_hk (n : Nat) (f : Stream → Stream) : (s.modStream n f).hk = s.hk := rfl

/-! ### modCell -/

@[simp] theorem State.modCell_pending (n : Nat) (f : Cell → Cell) : (s.modCell n f).pending = s.pending := rfl
@[simp] theorem State.modCell_freeCtr (n : Nat) (f : Cell → Cell) : (s.modCell n f).freeCtr = s.freeCtr := rfl
@[simp] theorem State.modCell_obs (n : Nat) (f : Cell → Cell) : (s.modCell n f).obs = s.obs := rfl
@[simp] theorem State.modCell_startup (n : Nat) (f : Cell → Cell) : (s.modCell n f).startup = s.startup := rfl
@[simp] theorem State.modCell_time (n : Nat) (f : Cell → Cell) : (s.modCell n f).time = s.time := rfl
@[simp] theorem State.modCell_sched (n : Nat) (f : Cell → Cell) : (s.modCell n f).sched = s.sched := rfl
@[simp] theorem State.modCell_cells (n : Nat) (f : Cell → Cell) : (s.modCell n f).cells = tmod s.cells n {} f := rfl
@[simp] theorem State.modCell_ivls (n : Nat) (f : Cell → Cell) : (s.modCell n f).ivls = s.ivls := rfl
@[simp] theorem State.modCell_blocks (n : Nat) (f : Cell → Cell) : (s.modCell n f).blocks = s.blocks := rfl
@[simp] theorem State.modCell_regions (n : Nat) (f : Cell → Cell) : (s.modCell n f).regions = s.regions := rfl
@[simp] theorem State.modCell_data (n : Nat) (f : Cell → Cell) : (s.modCell n f).data = s.data := rfl
@[simp] theorem State.modCell_cap (n : Nat) (f : Cell → Cell) : (s.modCell n f).cap = s.cap := rfl
@[simp] theorem State.modCell_seq0 (n : Nat) (f : Cell → Cell) : (s.modCell n f).seq0 = s.seq0 := rfl
@[simp] theorem State.modCell_seq1 (n : Nat) (f : Cell → Cell) : (s.modCell n f).seq1 = s.seq1 := rfl
@[simp] theorem State.modCell_pins (n : Nat) (f : Cell → Cell) : (s.modCell n f).pins = s.pins := rfl
@[simp] theorem State.modCell_cas (n : Nat) (f : Cell → Cell) : (s.modCell n f).cas = s.cas := rfl
@[simp] theorem State.modCell_engines (n : Nat) (f : Cell → Cell) : (s.modCell n f).engines = s.engines := rfl
@[simp] theorem State.modCell_cutEngines (n : Nat) (f : Cell → Cell) : (s.modCell n f).cutEngines = s.cutEngines := rfl
@[simp] theorem State.modCell_streams (n : Nat) (f : Cell → Cell) : (s.modCell n f).streams = s.streams := rfl
@[simp] theorem State.modCell_replay (n : Nat) (f : Cell → Cell) : (s.modCell n f).replay = s.replay := rfl
@[simp] theorem State.modCell_bob (n : Nat) (f : Cell → Cell) : (s.modCell n f).bob = s.bob := rfl
@[simp] theorem State.modCell_dram (n : Nat) (f : Cell → Cell) : (s.modCell n f).dram = s.dram := rfl
@[simp] theorem State.modCell_pcie (n : Nat) (f : Cell → Cell) : (s.modCell n f).pcie = s.pcie := rfl
@[simp] theorem State.modCell_events (n : Nat) (f : Cell → Cell) : (s.modCell n f).events = s.events := rfl
@[simp] theorem State.modCell_tags (n : Nat) (f : Cell → Cell) : (s.modCell n f).tags = s.tags := rfl
@[simp] theorem State.modCell_cmd (n : Nat) (f : Cell → Cell) : (s.modCell n f).cmd = s.cmd := rfl
@[simp] theorem State.modCell_log (n : Nat) (f : Cell → Cell) : (s.modCell n f).log = s.log := rfl
@[simp] theorem State.modCell_sec (n : Nat) (f : Cell → Cell) : (s.modCell n f).sec = s.sec := rfl
@[simp] theorem State.modCell_safe (n : Nat) (f : Cell → Cell) : (s.modCell n f).safe = s.safe := rfl
@[simp] theorem State.modCell_hk (n : Nat) (f : Cell → Cell) : (s.modCell n f).hk = s.hk := rfl

/-! ### modIvl -/

@[simp] theorem State.modIvl_pending (n : Nat) (f : Ivl → Ivl) : (s.modIvl n f).pending = s.pending := rfl
@[simp] theorem State.modIvl_freeCtr (n : Nat) (f : Ivl → Ivl) : (s.modIvl n f).freeCtr = s.freeCtr := rfl
@[simp] theorem State.modIvl_obs (n : Nat) (f : Ivl → Ivl) : (s.modIvl n f).obs = s.obs := rfl
@[simp] theorem State.modIvl_startup (n : Nat) (f : Ivl → Ivl) : (s.modIvl n f).startup = s.startup := rfl
@[simp] theorem State.modIvl_time (n : Nat) (f : Ivl → Ivl) : (s.modIvl n f).time = s.time := rfl
@[simp] theorem State.modIvl_sched (n : Nat) (f : Ivl → Ivl) : (s.modIvl n f).sched = s.sched := rfl
@[simp] theorem State.modIvl_cells (n : Nat) (f : Ivl → Ivl) : (s.modIvl n f).cells = s.cells := rfl
@[simp] theorem State.modIvl_ivls (n : Nat) (f : Ivl → Ivl) : (s.modIvl n f).ivls = tmod s.ivls n {} f := rfl
@[simp] theorem State.modIvl_blocks (n : Nat) (f : Ivl → Ivl) : (s.modIvl n f).blocks = s.blocks := rfl
@[simp] theorem State.modIvl_regions (n : Nat) (f : Ivl → Ivl) : (s.modIvl n f).regions = s.regions := rfl
@[simp] theorem State.modIvl_data (n : Nat) (f : Ivl → Ivl) : (s.modIvl n f).data = s.data := rfl
@[simp] theorem State.modIvl_cap (n : Nat) (f : Ivl → Ivl) : (s.modIvl n f).cap = s.cap := rfl
@[simp] theorem State.modIvl_seq0 (n : Nat) (f : Ivl → Ivl) : (s.modIvl n f).seq0 = s.seq0 := rfl
@[simp] theorem State.modIvl_seq1 (n : Nat) (f : Ivl → Ivl) : (s.modIvl n f).seq1 = s.seq1 := rfl
@[simp] theorem State.modIvl_pins (n : Nat) (f : Ivl → Ivl) : (s.modIvl n f).pins = s.pins := rfl
@[simp] theorem State.modIvl_cas (n : Nat) (f : Ivl → Ivl) : (s.modIvl n f).cas = s.cas := rfl
@[simp] theorem State.modIvl_engines (n : Nat) (f : Ivl → Ivl) : (s.modIvl n f).engines = s.engines := rfl
@[simp] theorem State.modIvl_cutEngines (n : Nat) (f : Ivl → Ivl) : (s.modIvl n f).cutEngines = s.cutEngines := rfl
@[simp] theorem State.modIvl_streams (n : Nat) (f : Ivl → Ivl) : (s.modIvl n f).streams = s.streams := rfl
@[simp] theorem State.modIvl_replay (n : Nat) (f : Ivl → Ivl) : (s.modIvl n f).replay = s.replay := rfl
@[simp] theorem State.modIvl_bob (n : Nat) (f : Ivl → Ivl) : (s.modIvl n f).bob = s.bob := rfl
@[simp] theorem State.modIvl_dram (n : Nat) (f : Ivl → Ivl) : (s.modIvl n f).dram = s.dram := rfl
@[simp] theorem State.modIvl_pcie (n : Nat) (f : Ivl → Ivl) : (s.modIvl n f).pcie = s.pcie := rfl
@[simp] theorem State.modIvl_events (n : Nat) (f : Ivl → Ivl) : (s.modIvl n f).events = s.events := rfl
@[simp] theorem State.modIvl_tags (n : Nat) (f : Ivl → Ivl) : (s.modIvl n f).tags = s.tags := rfl
@[simp] theorem State.modIvl_cmd (n : Nat) (f : Ivl → Ivl) : (s.modIvl n f).cmd = s.cmd := rfl
@[simp] theorem State.modIvl_log (n : Nat) (f : Ivl → Ivl) : (s.modIvl n f).log = s.log := rfl
@[simp] theorem State.modIvl_sec (n : Nat) (f : Ivl → Ivl) : (s.modIvl n f).sec = s.sec := rfl
@[simp] theorem State.modIvl_safe (n : Nat) (f : Ivl → Ivl) : (s.modIvl n f).safe = s.safe := rfl
@[simp] theorem State.modIvl_hk (n : Nat) (f : Ivl → Ivl) : (s.modIvl n f).hk = s.hk := rfl

/-! ### modBlock -/

@[simp] theorem State.modBlock_pending (n : Nat) (f : Block → Block) : (s.modBlock n f).pending = s.pending := rfl
@[simp] theorem State.modBlock_freeCtr (n : Nat) (f : Block → Block) : (s.modBlock n f).freeCtr = s.freeCtr := rfl
@[simp] theorem State.modBlock_obs (n : Nat) (f : Block → Block) : (s.modBlock n f).obs = s.obs := rfl
@[simp] theorem State.modBlock_startup (n : Nat) (f : Block → Block) : (s.modBlock n f).startup = s.startup := rfl
@[simp] theorem State.modBlock_time (n : Nat) (f : Block → Block) : (s.modBlock n f).time = s.time := rfl
@[simp] theorem State.modBlock_sched (n : Nat) (f : Block → Block) : (s.modBlock n f).sched = s.sched := rfl
@[simp] theorem State.modBlock_cells (n : Nat) (f : Block → Block) : (s.modBlock n f).cells = s.cells := rfl
@[simp] theorem State.modBlock_ivls (n : Nat) (f : Block → Block) : (s.modBlock n f).ivls = s.ivls := rfl
@[simp] theorem State.modBlock_blocks (n : Nat) (f : Block → Block) : (s.modBlock n f).blocks = tmod s.blocks n {} f := rfl
@[simp] theorem State.modBlock_regions (n : Nat) (f : Block → Block) : (s.modBlock n f).regions = s.regions := rfl
@[simp] theorem State.modBlock_data (n : Nat) (f : Block → Block) : (s.modBlock n f).data = s.data := rfl
@[simp] theorem State.modBlock_cap (n : Nat) (f : Block → Block) : (s.modBlock n f).cap = s.cap := rfl
@[simp] theorem State.modBlock_seq0 (n : Nat) (f : Block → Block) : (s.modBlock n f).seq0 = s.seq0 := rfl
@[simp] theorem State.modBlock_seq1 (n : Nat) (f : Block → Block) : (s.modBlock n f).seq1 = s.seq1 := rfl
@[simp] theorem State.modBlock_pins (n : Nat) (f : Block → Block) : (s.modBlock n f).pins = s.pins := rfl
@[simp] theorem State.modBlock_cas (n : Nat) (f : Block → Block) : (s.modBlock n f).cas = s.cas := rfl
@[simp] theorem State.modBlock_engines (n : Nat) (f : Block → Block) : (s.modBlock n f).engines = s.engines := rfl
@[simp] theorem State.modBlock_cutEngines (n : Nat) (f : Block → Block) : (s.modBlock n f).cutEngines = s.cutEngines := rfl
@[simp] theorem State.modBlock_streams (n : Nat) (f : Block → Block) : (s.modBlock n f).streams = s.streams := rfl
@[simp] theorem State.modBlock_replay (n : Nat) (f : Block → Block) : (s.modBlock n f).replay = s.replay := rfl
@[simp] theorem State.modBlock_bob (n : Nat) (f : Block → Block) : (s.modBlock n f).bob = s.bob := rfl
@[simp] theorem State.modBlock_dram (n : Nat) (f : Block → Block) : (s.modBlock n f).dram = s.dram := rfl
@[simp] theorem State.modBlock_pcie (n : Nat) (f : Block → Block) : (s.modBlock n f).pcie = s.pcie := rfl
@[simp] theorem State.modBlock_events (n : Nat) (f : Block → Block) : (s.modBlock n f).events = s.events := rfl
@[simp] theorem State.modBlock_tags (n : Nat) (f : Block → Block) : (s.modBlock n f).tags = s.tags := rfl
@[simp] theorem State.modBlock_cmd (n : Nat) (f : Block → Block) : (s.modBlock n f).cmd = s.cmd := rfl
@[simp] theorem State.modBlock_log (n : Nat) (f : Block → Block) : (s.modBlock n f).log = s.log := rfl
@[simp] theorem State.modBlock_sec (n : Nat) (f : Block → Block) : (s.modBlock n f).sec = s.sec := rfl
@[simp] theorem State.modBlock_safe (n : Nat) (f : Block → Block) : (s.modBlock n f).safe = s.safe := rfl
@[simp] theorem State.modBlock_hk (n : Nat) (f : Block → Block) : (s.modBlock n f).hk = s.hk := rfl

/-! ### modEngine -/

@[simp] theorem State.modEngine_pending (n : Nat) (f : Engine → Engine) : (s.modEngine n f).pending = s.pending := rfl
@[simp] theorem State.modEngine_freeCtr (n : Nat) (f : Engine → Engine) : (s.modEngine n f).freeCtr = s.freeCtr := rfl
@[simp] theorem State.modEngine_obs (n : Nat) (f : Engine → Engine) : (s.modEngine n f).obs = s.obs := rfl
@[simp] theorem State.modEngine_startup (n : Nat) (f : Engine → Engine) : (s.modEngine n f).startup = s.startup := rfl
@[simp] theorem State.modEngine_time (n : Nat) (f : Engine → Engine) : (s.modEngine n f).time = s.time := rfl
@[simp] theorem State.modEngine_sched (n : Nat) (f : Engine → Engine) : (s.modEngine n f).sched = s.sched := rfl
@[simp] theorem State.modEngine_cells (n : Nat) (f : Engine → Engine) : (s.modEngine n f).cells = s.cells := rfl
@[simp] theorem State.modEngine_ivls (n : Nat) (f : Engine → Engine) : (s.modEngine n f).ivls = s.ivls := rfl
@[simp] theorem State.modEngine_blocks (n : Nat) (f : Engine → Engine) : (s.modEngine n f).blocks = s.blocks := rfl
@[simp] theorem State.modEngine_regions (n : Nat) (f : Engine → Engine) : (s.modEngine n f).regions = s.regions := rfl
@[simp] theorem State.modEngine_data (n : Nat) (f : Engine → Engine) : (s.modEngine n f).data = s.data := rfl
@[simp] theorem State.modEngine_cap (n : Nat) (f : Engine → Engine) : (s.modEngine n f).cap = s.cap := rfl
@[simp] theorem State.modEngine_seq0 (n : Nat) (f : Engine → Engine) : (s.modEngine n f).seq0 = s.seq0 := rfl
@[simp] theorem State.modEngine_seq1 (n : Nat) (f : Engine → Engine) : (s.modEngine n f).seq1 = s.seq1 := rfl
@[simp] theorem State.modEngine_pins (n : Nat) (f : Engine → Engine) : (s.modEngine n f).pins = s.pins := rfl
@[simp] theorem State.modEngine_cas (n : Nat) (f : Engine → Engine) : (s.modEngine n f).cas = s.cas := rfl
@[simp] theorem State.modEngine_engines (n : Nat) (f : Engine → Engine) : (s.modEngine n f).engines = tmod s.engines n {} f := rfl
@[simp] theorem State.modEngine_cutEngines (n : Nat) (f : Engine → Engine) : (s.modEngine n f).cutEngines = s.cutEngines := rfl
@[simp] theorem State.modEngine_streams (n : Nat) (f : Engine → Engine) : (s.modEngine n f).streams = s.streams := rfl
@[simp] theorem State.modEngine_replay (n : Nat) (f : Engine → Engine) : (s.modEngine n f).replay = s.replay := rfl
@[simp] theorem State.modEngine_bob (n : Nat) (f : Engine → Engine) : (s.modEngine n f).bob = s.bob := rfl
@[simp] theorem State.modEngine_dram (n : Nat) (f : Engine → Engine) : (s.modEngine n f).dram = s.dram := rfl
@[simp] theorem State.modEngine_pcie (n : Nat) (f : Engine → Engine) : (s.modEngine n f).pcie = s.pcie := rfl
@[simp] theorem State.modEngine_events (n : Nat) (f : Engine → Engine) : (s.modEngine n f).events = s.events := rfl
@[simp] theorem State.modEngine_tags (n : Nat) (f : Engine → Engine) : (s.modEngine n f).tags = s.tags := rfl
@[simp] theorem State.modEngine_cmd (n : Nat) (f : Engine → Engine) : (s.modEngine n f).cmd = s.cmd := rfl
@[simp] theorem State.modEngine_log (n : Nat) (f : Engine → Engine) : (s.modEngine n f).log = s.log := rfl
@[simp] theorem State.modEngine_sec (n : Nat) (f : Engine → Engine) : (s.modEngine n f).sec = s.sec := rfl
@[simp] theorem State.modEngine_safe (n : Nat) (f : Engine → Engine) : (s.modEngine n f).safe = s.safe := rfl
@[simp] theorem State.modEngine_hk (n : Nat) (f : Engine → Engine) : (s.modEngine n f).hk = s.hk := rfl

/-! ### modRank -/

@[simp] theorem State.modRank_pending (c k : Nat) (f : Rank → Rank) : (s.modRank c k f).pending = s.pending := rfl
@[simp] theorem State.modRank_freeCtr (c k : Nat) (f : Rank → Rank) : (s.modRank c k f).freeCtr = s.freeCtr := rfl
@[simp] theorem State.modRank_obs (c k : Nat) (f : Rank → Rank) : (s.modRank c k f).obs = s.obs := rfl
@[simp] theorem State.modRank_startup (c k : Nat) (f : Rank → Rank) : (s.modRank c k f).startup = s.startup := rfl
@[simp] theorem State.modRank_time (c k : Nat) (f : Rank → Rank) : (s.modRank c k f).time = s.time := rfl
@[simp] theorem State.modRank_sched (c k : Nat) (f : Rank → Rank) : (s.modRank c k f).sched = s.sched := rfl
@[simp] theorem State.modRank_cells (c k : Nat) (f : Rank → Rank) : (s.modRank c k f).cells = s.cells := rfl
@[simp] theorem State.modRank_ivls (c k : Nat) (f : Rank → Rank) : (s.modRank c k f).ivls = s.ivls := rfl
@[simp] theorem State.modRank_blocks (c k : Nat) (f : Rank → Rank) : (s.modRank c k f).blocks = s.blocks := rfl
@[simp] theorem State.modRank_regions (c k : Nat) (f : Rank → Rank) : (s.modRank c k f).regions = s.regions := rfl
@[simp] theorem State.modRank_data (c k : Nat) (f : Rank → Rank) : (s.modRank c k f).data = s.data := rfl
@[simp] theorem State.modRank_cap (c k : Nat) (f : Rank → Rank) : (s.modRank c k f).cap = s.cap := rfl
@[simp] theorem State.modRank_seq0 (c k : Nat) (f : Rank → Rank) : (s.modRank c k f).seq0 = s.seq0 := rfl
@[simp] theorem State.modRank_seq1 (c k : Nat) (f : Rank → Rank) : (s.modRank c k f).seq1 = s.seq1 := rfl
@[simp] theorem State.modRank_pins (c k : Nat) (f : Rank → Rank) : (s.modRank c k f).pins = s.pins := rfl
@[simp] theorem State.modRank_cas (c k : Nat) (f : Rank → Rank) : (s.modRank c k f).cas = s.cas := rfl
@[simp] theorem State.modRank_engines (c k : Nat) (f : Rank → Rank) : (s.modRank c k f).engines = s.engines := rfl
@[simp] theorem State.modRank_cutEngines (c k : Nat) (f : Rank → Rank) : (s.modRank c k f).cutEngines = s.cutEngines := rfl
@[simp] theorem State.modRank_streams (c k : Nat) (f : Rank → Rank) : (s.modRank c k f).streams = s.streams := rfl
@[simp] theorem State.modRank_replay (c k : Nat) (f : Rank → Rank) : (s.modRank c k f).replay = s.replay := rfl
@[simp] theorem State.modRank_bob (c k : Nat) (f : Rank → Rank) : (s.modRank c k f).bob = s.bob := rfl
@[simp] theorem State.modRank_dram (c k : Nat) (f : Rank → Rank) : (s.modRank c k f).dram = { s.dram with ranks := tmod s.dram.ranks (4 * c + k) {} f } := rfl
@[simp] theorem State.modRank_pcie (c k : Nat) (f : Rank → Rank) : (s.modRank c k f).pcie = s.pcie := rfl
@[simp] theorem State.modRank_events (c k : Nat) (f : Rank → Rank) : (s.modRank c k f).events = s.events := rfl
@[simp] theorem State.modRank_tags (c k : Nat) (f : Rank → Rank) : (s.modRank c k f).tags = s.tags := rfl
@[simp] theorem State.modRank_cmd (c k : Nat) (f : Rank → Rank) : (s.modRank c k f).cmd = s.cmd := rfl
@[simp] theorem State.modRank_log (c k : Nat) (f : Rank → Rank) : (s.modRank c k f).log = s.log := rfl
@[simp] theorem State.modRank_sec (c k : Nat) (f : Rank → Rank) : (s.modRank c k f).sec = s.sec := rfl
@[simp] theorem State.modRank_safe (c k : Nat) (f : Rank → Rank) : (s.modRank c k f).safe = s.safe := rfl
@[simp] theorem State.modRank_hk (c k : Nat) (f : Rank → Rank) : (s.modRank c k f).hk = s.hk := rfl

/-! ### reserve -/

@[simp] theorem State.reserve_pending (n : Nat) : (s.reserve n).pending = s.pending := rfl
@[simp] theorem State.reserve_freeCtr (n : Nat) : (s.reserve n).freeCtr = s.freeCtr := rfl
@[simp] theorem State.reserve_obs (n : Nat) : (s.reserve n).obs = s.obs := rfl
@[simp] theorem State.reserve_startup (n : Nat) : (s.reserve n).startup = s.startup := rfl
@[simp] theorem State.reserve_time (n : Nat) : (s.reserve n).time = s.time := rfl
@[simp] theorem State.reserve_sched (n : Nat) : (s.reserve n).sched = s.sched := rfl
@[simp] theorem State.reserve_cells (n : Nat) : (s.reserve n).cells = s.cells := rfl
@[simp] theorem State.reserve_ivls (n : Nat) : (s.reserve n).ivls = s.ivls := rfl
@[simp] theorem State.reserve_blocks (n : Nat) : (s.reserve n).blocks = s.blocks := rfl
@[simp] theorem State.reserve_regions (n : Nat) : (s.reserve n).regions = s.regions := rfl
@[simp] theorem State.reserve_data (n : Nat) : (s.reserve n).data = s.data := rfl
@[simp] theorem State.reserve_cap (n : Nat) : (s.reserve n).cap = s.cap := rfl
@[simp] theorem State.reserve_seq0 (n : Nat) : (s.reserve n).seq0 = s.seq0 := rfl
@[simp] theorem State.reserve_seq1 (n : Nat) : (s.reserve n).seq1 = s.seq1 := rfl
@[simp] theorem State.reserve_pins (n : Nat) : (s.reserve n).pins = s.pins := rfl
@[simp] theorem State.reserve_cas (n : Nat) : (s.reserve n).cas = s.cas := rfl
@[simp] theorem State.reserve_engines (n : Nat) : (s.reserve n).engines = s.engines := rfl
@[simp] theorem State.reserve_cutEngines (n : Nat) : (s.reserve n).cutEngines = s.cutEngines := rfl
@[simp] theorem State.reserve_streams (n : Nat) : (s.reserve n).streams = s.streams := rfl
@[simp] theorem State.reserve_replay (n : Nat) : (s.reserve n).replay = s.replay := rfl
@[simp] theorem State.reserve_bob (n : Nat) : (s.reserve n).bob = s.bob := rfl
@[simp] theorem State.reserve_dram (n : Nat) : (s.reserve n).dram = s.dram := rfl
@[simp] theorem State.reserve_pcie (n : Nat) : (s.reserve n).pcie = s.pcie := rfl
@[simp] theorem State.reserve_events (n : Nat) : (s.reserve n).events = s.events := rfl
@[simp] theorem State.reserve_tags (n : Nat) : (s.reserve n).tags = s.tags := rfl
@[simp] theorem State.reserve_cmd (n : Nat) : (s.reserve n).cmd = s.cmd := rfl
@[simp] theorem State.reserve_log (n : Nat) : (s.reserve n).log = { s.log with reserved := s.log.reserved + n } := rfl
@[simp] theorem State.reserve_sec (n : Nat) : (s.reserve n).sec = s.sec := rfl
@[simp] theorem State.reserve_safe (n : Nat) : (s.reserve n).safe = s.safe := rfl
@[simp] theorem State.reserve_hk (n : Nat) : (s.reserve n).hk = s.hk := rfl

/-! ### unreserve -/

@[simp] theorem State.unreserve_pending (n : Nat) : (s.unreserve n).pending = s.pending := rfl
@[simp] theorem State.unreserve_freeCtr (n : Nat) : (s.unreserve n).freeCtr = s.freeCtr := rfl
@[simp] theorem State.unreserve_obs (n : Nat) : (s.unreserve n).obs = s.obs := rfl
@[simp] theorem State.unreserve_startup (n : Nat) : (s.unreserve n).startup = s.startup := rfl
@[simp] theorem State.unreserve_time (n : Nat) : (s.unreserve n).time = s.time := rfl
@[simp] theorem State.unreserve_sched (n : Nat) : (s.unreserve n).sched = s.sched := rfl
@[simp] theorem State.unreserve_cells (n : Nat) : (s.unreserve n).cells = s.cells := rfl
@[simp] theorem State.unreserve_ivls (n : Nat) : (s.unreserve n).ivls = s.ivls := rfl
@[simp] theorem State.unreserve_blocks (n : Nat) : (s.unreserve n).blocks = s.blocks := rfl
@[simp] theorem State.unreserve_regions (n : Nat) : (s.unreserve n).regions = s.regions := rfl
@[simp] theorem State.unreserve_data (n : Nat) : (s.unreserve n).data = s.data := rfl
@[simp] theorem State.unreserve_cap (n : Nat) : (s.unreserve n).cap = s.cap := rfl
@[simp] theorem State.unreserve_seq0 (n : Nat) : (s.unreserve n).seq0 = s.seq0 := rfl
@[simp] theorem State.unreserve_seq1 (n : Nat) : (s.unreserve n).seq1 = s.seq1 := rfl
@[simp] theorem State.unreserve_pins (n : Nat) : (s.unreserve n).pins = s.pins := rfl
@[simp] theorem State.unreserve_cas (n : Nat) : (s.unreserve n).cas = s.cas := rfl
@[simp] theorem State.unreserve_engines (n : Nat) : (s.unreserve n).engines = s.engines := rfl
@[simp] theorem State.unreserve_cutEngines (n : Nat) : (s.unreserve n).cutEngines = s.cutEngines := rfl
@[simp] theorem State.unreserve_streams (n : Nat) : (s.unreserve n).streams = s.streams := rfl
@[simp] theorem State.unreserve_replay (n : Nat) : (s.unreserve n).replay = s.replay := rfl
@[simp] theorem State.unreserve_bob (n : Nat) : (s.unreserve n).bob = s.bob := rfl
@[simp] theorem State.unreserve_dram (n : Nat) : (s.unreserve n).dram = s.dram := rfl
@[simp] theorem State.unreserve_pcie (n : Nat) : (s.unreserve n).pcie = s.pcie := rfl
@[simp] theorem State.unreserve_events (n : Nat) : (s.unreserve n).events = s.events := rfl
@[simp] theorem State.unreserve_tags (n : Nat) : (s.unreserve n).tags = s.tags := rfl
@[simp] theorem State.unreserve_cmd (n : Nat) : (s.unreserve n).cmd = s.cmd := rfl
@[simp] theorem State.unreserve_log (n : Nat) : (s.unreserve n).log = { s.log with reserved := s.log.reserved - n } := rfl
@[simp] theorem State.unreserve_sec (n : Nat) : (s.unreserve n).sec = s.sec := rfl
@[simp] theorem State.unreserve_safe (n : Nat) : (s.unreserve n).safe = s.safe := rfl
@[simp] theorem State.unreserve_hk (n : Nat) : (s.unreserve n).hk = s.hk := rfl

/-! ### Rows of the tables -/

@[simp] theorem State.modRing_ring (n k : Nat) (f : Ring → Ring) : (s.modRing n f).ring k = if k = n then f (s.ring n) else s.ring k := by
  simp only [State.ring, State.modRing_cmd, tfind_tmod]; split <;> rfl

@[simp] theorem State.modRegion_region (n k : Nat) (f : Region → Region) :
    (s.modRegion n f).region k = if k = n then f (s.region n) else s.region k := by
  simp only [State.region, State.modRegion_regions, tfind_tmod]; split <;> rfl

@[simp] theorem State.modCell_cell (n k : Nat) (f : Cell → Cell) : (s.modCell n f).cell k = if k = n then f (s.cell n) else s.cell k := by
  simp only [State.cell, State.modCell_cells, tfind_tmod]; split <;> rfl

@[simp] theorem State.modIvl_ivl (n k : Nat) (f : Ivl → Ivl) : (s.modIvl n f).ivl k = if k = n then f (s.ivl n) else s.ivl k := by
  simp only [State.ivl, State.modIvl_ivls, tfind_tmod]; split <;> rfl

@[simp] theorem State.modBlock_block (n k : Nat) (f : Block → Block) :
    (s.modBlock n f).block k = if k = n then f (s.block n) else s.block k := by
  simp only [State.block, State.modBlock_blocks, tfind_tmod]; split <;> rfl

@[simp] theorem State.modEngine_engine (n k : Nat) (f : Engine → Engine) :
    (s.modEngine n f).engine k = if k = n then f (s.engine n) else s.engine k := by
  simp only [State.engine, State.modEngine_engines, tfind_tmod]; split <;> rfl

@[simp] theorem State.modStream_stream (n k : Nat) (f : Stream → Stream) :
    (s.modStream n f).stream k = if k = n then f (s.stream n) else s.stream k := by
  simp only [State.stream, State.modStream_streams, tfind_tmod]; split <;> rfl

end Sys2Proof.Machine
end

