-- ==== Sys2Proof/Laws/Placing.lean ====
section
/-! SUPPORT. What placing a record, raising an event and everything they lead to can do: they change the evidence path, the events and the
outward log, and nothing else. -/

namespace Sys2Proof.Machine

/-- What raising events and placing records never changes, everything they may change standing at one fixed value. -/
def State.still (s : State) : State :=
  { s with
    freeCtr := 0
    obs := { s.obs with posted := [] }
    data := { s.data with sources := [], nextSeg := 0, staging := [], stgPeak := 0, trnBytes := 0 }
    regions := []
    bob := { s.bob with tab := [], cached := [] }
    events := { s.events with raised := [], pba := [] }
    pcie := { s.pcie with wrBytes := 0, pmeStatus := false, wakeN := false, clkreq := false } }

/-- What they never change of one region. -/
def Region.still (g : Region) : Region :=
  { g with closed := [], discardFrom := none, cmpBucket := 0, cmpAt := 0, bypass := 0, cmpIn := 0, cmpOut := 0
           rst := g.rst.map (fun w => { w with held := [] }) }

/-- s' comes from s by raising events and placing records only: the rest of the state is the same, recorded events stay recorded, and the
outward log only grows. -/
structure Placed (s s' : State) : Prop where
  still : s'.still = s.still
  region : ∀ r, (s'.region r).still = (s.region r).still
  raised : ∀ n, n ∈ s.events.raised → n ∈ s'.events.raised
  posted : ∃ l, s'.obs.posted = l ++ s.obs.posted

theorem Placed.refl (s : State) : Placed s s := ⟨rfl, fun _ => rfl, fun _ h => h, [], rfl⟩

theorem Placed.trans {a b c : State} (h : Placed a b) (k : Placed b c) : Placed a c := by
  obtain ⟨l, hl⟩ := h.posted
  obtain ⟨m, hm⟩ := k.posted
  exact ⟨k.still.trans h.still, fun r => (k.region r).trans (h.region r), fun n hn => k.raised n (h.raised n hn), m ++ l, by
    rw [hm, hl, List.append_assoc]⟩

/-- The same, the last step named first. -/
theorem Placed.after {a b c : State} (k : Placed b c) (h : Placed a b) : Placed a c := h.trans k

/-- A fold of placing steps. -/
theorem Placed.foldl {β : Type} (f : State → β → State) (hf : ∀ s x, Placed s (f s x)) (l : List β) (s : State) : Placed s (l.foldl f s) := by
  induction l generalizing s with
  | nil => exact Placed.refl s
  | cons x rest ih => exact (hf s x).trans (ih _)

theorem Placed.foldr {β : Type} (f : β → State → State) (hf : ∀ s x, Placed s (f x s)) (l : List β) (s : State) : Placed s (l.foldr f s) := by
  induction l with
  | nil => exact Placed.refl s
  | cons x rest ih => exact ih.trans (hf _ x)

/-- A change within the fields that placing may change. -/
theorem Placed.of_fields {s s' : State} (h : s'.still = s.still) (hr : s'.regions = s.regions) (he : s'.events.raised = s.events.raised)
    (hp : s'.obs.posted = s.obs.posted) : Placed s s' :=
  ⟨h, fun r => by simp [State.region, hr], fun n hn => he ▸ hn, [], by simp [hp]⟩

/-- One region changed in what placing may change. -/
theorem Placed.modRegion (s : State) (r : Nat) (f : Region → Region) (hf : ∀ g, (f g).still = g.still) : Placed s (s.modRegion r f) := by
  refine ⟨rfl, fun k => ?_, fun n hn => hn, [], rfl⟩
  by_cases h : k = r
  · subst h; simp [State.region, State.modRegion, hf]
  · simp [State.region, State.modRegion, tfind_tmod_ne _ _ _ _ _ h]

theorem Placed.modSource (s : State) (id : Nat) (f : Source → Source) : Placed s (s.modSource id f) :=
  Placed.of_fields rfl rfl rfl rfl

/-! ### What stays, field by field -/

section Fields
variable {s s' : State} (h : Placed s s')
include h

theorem Placed.pending : s'.pending = s.pending := (congrArg (fun x : State => x.pending) h.still :)
theorem Placed.startup : s'.startup = s.startup := (congrArg (fun x : State => x.startup) h.still :)
theorem Placed.time : s'.time = s.time := (congrArg (fun x : State => x.time) h.still :)
theorem Placed.sched : s'.sched = s.sched := (congrArg (fun x : State => x.sched) h.still :)
theorem Placed.cells : s'.cells = s.cells := (congrArg (fun x : State => x.cells) h.still :)
theorem Placed.ivls : s'.ivls = s.ivls := (congrArg (fun x : State => x.ivls) h.still :)
theorem Placed.blocks : s'.blocks = s.blocks := (congrArg (fun x : State => x.blocks) h.still :)
theorem Placed.cap : s'.cap = s.cap := (congrArg (fun x : State => x.cap) h.still :)
theorem Placed.seq0 : s'.seq0 = s.seq0 := (congrArg (fun x : State => x.seq0) h.still :)
theorem Placed.seq1 : s'.seq1 = s.seq1 := (congrArg (fun x : State => x.seq1) h.still :)
theorem Placed.pins : s'.pins = s.pins := (congrArg (fun x : State => x.pins) h.still :)
theorem Placed.cas : s'.cas = s.cas := (congrArg (fun x : State => x.cas) h.still :)
theorem Placed.engines : s'.engines = s.engines := (congrArg (fun x : State => x.engines) h.still :)
theorem Placed.streams : s'.streams = s.streams := (congrArg (fun x : State => x.streams) h.still :)
theorem Placed.replay : s'.replay = s.replay := (congrArg (fun x : State => x.replay) h.still :)
theorem Placed.dram : s'.dram = s.dram := (congrArg (fun x : State => x.dram) h.still :)
theorem Placed.tags : s'.tags = s.tags := (congrArg (fun x : State => x.tags) h.still :)
theorem Placed.cmd : s'.cmd = s.cmd := (congrArg (fun x : State => x.cmd) h.still :)
theorem Placed.log : s'.log = s.log := (congrArg (fun x : State => x.log) h.still :)
theorem Placed.sec : s'.sec = s.sec := (congrArg (fun x : State => x.sec) h.still :)
theorem Placed.safe : s'.safe = s.safe := (congrArg (fun x : State => x.safe) h.still :)
theorem Placed.hk : s'.hk = s.hk := (congrArg (fun x : State => x.hk) h.still :)
theorem Placed.routes : s'.bob.routes = s.bob.routes := (congrArg (fun x : State => x.bob.routes) h.still :)
theorem Placed.map : s'.events.map = s.events.map := (congrArg (fun x : State => x.events.map) h.still :)
theorem Placed.table : s'.events.table = s.events.table := (congrArg (fun x : State => x.events.table) h.still :)
theorem Placed.blocked : s'.pcie.blocked = s.pcie.blocked := (congrArg (fun x : State => x.pcie.blocked) h.still :)
theorem Placed.lookback : s'.data.lookback = s.data.lookback := (congrArg (fun x : State => x.data.lookback) h.still :)
theorem Placed.cfg (r : Nat) : (s'.region r).cfg = (s.region r).cfg := (congrArg (fun x : Region => x.cfg) (h.region r) :)
theorem Placed.boundary : s'.boundary = s.boundary := by simp [State.boundary, h.time]

end Fields

/-! ### Events -/

/-- Membership after an insertion into a rising list. -/
theorem mem_ninsert (l : List Nat) (n m : Nat) : m ∈ ninsert l n ↔ m = n ∨ m ∈ l := by
  induction l with
  | nil => simp [ninsert]
  | cons x rest ih =>
    simp only [ninsert]
    split
    · simp
    · split
      · next h => subst h; simp
      · simp [ih]; tauto

theorem placed_signal (s : State) (n : Nat) : Placed s (s.signal n) := by
  refine ⟨rfl, fun r => rfl, fun m hm => (mem_ninsert _ _ _).2 (.inr hm), ?_⟩
  unfold State.signal
  dsimp only
  split
  · exact ⟨[.msix ((tfind s.events.map n).getD {}).vector], rfl⟩
  · exact ⟨[], rfl⟩

/-- The event that is raised is recorded. -/
theorem signal_mem (s : State) (n : Nat) : n ∈ (s.signal n).events.raised := (mem_ninsert _ _ _).2 (.inl rfl)

theorem placed_raise (s : State) (n : Nat) : Placed s (s.raise n) := by
  unfold State.raise
  dsimp only
  split
  · refine Placed.trans (placed_signal s n) (Placed.trans ?_ (placed_signal _ 206))
    exact ⟨rfl, fun _ => rfl, fun _ h => h, .wake :: (if s.pcie.linkUp && !s.pcie.clkreq then [.pin 12 false] else []), rfl⟩
  · exact placed_signal s n

/-- The event that is raised is recorded. -/
theorem raise_mem (s : State) (n : Nat) : n ∈ (s.raise n).events.raised := by
  unfold State.raise
  dsimp only
  split
  · exact (placed_signal _ 206).raised n (signal_mem s n)
  · exact signal_mem s n

theorem placed_raiseIf (s : State) (c : Bool) (n : Nat) : Placed s (s.raiseIf c n) := by
  unfold State.raiseIf
  split
  · exact placed_raise s n
  · exact Placed.refl s

theorem placed_raiseAll (s : State) (ns : List Nat) : Placed s (s.raiseAll ns) := Placed.foldl _ placed_raise ns s

/-- Every event of the list is recorded. -/
theorem raiseAll_mem (s : State) (ns : List Nat) (n : Nat) (h : n ∈ ns) : n ∈ (s.raiseAll ns).events.raised := by
  induction ns generalizing s with
  | nil => simp at h
  | cons x rest ih =>
    rcases List.mem_cons.mp h with rfl | h
    · exact (placed_raiseAll _ rest).raised n (raise_mem s n)
    · exact ih _ h

theorem placed_post (s : State) (p : Posted) : Placed s (s.post p) := ⟨rfl, fun _ => rfl, fun _ h => h, [p], rfl⟩

theorem placed_sent (s : State) (n : Nat) : Placed s (s.sent n) := Placed.of_fields rfl rfl rfl rfl

theorem placed_postBytes (s : State) (p : Posted) (n : Nat) : Placed s (s.postBytes p n) := (placed_post s p).trans (placed_sent _ n)

theorem placed_tick (s : State) : Placed s s.tick := Placed.of_fields rfl rfl rfl rfl

/-! ### Segments on their way to bobbins -/

theorem placed_bobOut (s : State) (i : Nat) (b b' : Bobbin) : Placed s (s.bobOut i b b') := by
  unfold State.bobOut
  generalize b.notes b' = b'
  refine Placed.trans ?_ (placed_raiseIf _ _ _)
  refine Placed.trans (b := if decide (b'.wbAddr ≠ 0) && (b.wr ≠ b'.wr || b.stat ≠ b'.stat) && !s.pcie.blocked then
    s.postBytes (.writeback i b'.wbAddr ({ b' with wbCount := b'.wbCount + 1 } : Bobbin).writeback) 16 else s) ?_ ?_
  · split
    · exact placed_postBytes s _ _
    · exact Placed.refl s
  · by_cases hw : (decide (b'.wbAddr ≠ 0) && (b.wr ≠ b'.wr || b.stat ≠ b'.stat) && !s.pcie.blocked) = true
    · simp only [hw, if_true]; exact Placed.of_fields rfl rfl rfl rfl
    · simp only [hw]; exact Placed.of_fields rfl rfl rfl rfl

theorem placed_modBob (s : State) (i : Nat) (f : Bobbin → Bobbin) : Placed s (s.modBob i f) := by
  unfold State.modBob
  split
  · exact Placed.refl s
  · exact placed_bobOut s _ _ _

theorem placed_offerAll (s : State) (g : Seg) : Placed s (s.offerAll g) := Placed.foldl _ (fun _ _ => placed_modBob _ _ _) _ s

theorem placed_commit (s : State) (g : Seg) : Placed s (s.commit g) := by
  unfold State.commit
  exact (placed_offerAll _ _).after (Placed.of_fields rfl rfl rfl rfl)

theorem placed_stagingFull (s : State) (r : Nat) : Placed s (s.stagingFull r) := by
  unfold State.stagingFull
  dsimp only
  split
  · exact Placed.refl s
  · refine (Placed.foldr _ ?_ _ _).after (Placed.trans (b := s.modRegion r _) (Placed.modRegion s r _ ?_) (Placed.of_fields rfl rfl rfl rfl))
    rotate_left
    · intro g; rfl
    intro s x
    split
    · exact Placed.refl s
    · exact Placed.modSource s _ _

theorem placed_commitReady (s : State) (r fuel : Nat) : Placed s (s.commitReady r fuel) := by
  induction fuel generalizing s with
  | zero => exact Placed.refl s
  | succ k ih =>
    unfold State.commitReady
    split
    · exact Placed.refl s
    · split
      · exact Placed.refl s
      · split
        · exact (ih _).after ((placed_commit _ _).after (Placed.modRegion s r _ (fun g => rfl)))
        · exact placed_stagingFull s r

theorem placed_commitRegion (s : State) (r : Nat) : Placed s (s.commitRegion r) := placed_commitReady s r _

theorem placed_queueWindow (s : State) (g : Seg) : Placed s (s.queueWindow g) := by
  unfold State.queueWindow
  exact (Placed.foldl _ (fun _ _ => placed_modBob _ _ _) _ _).after (Placed.of_fields rfl rfl rfl rfl)

theorem placed_emit (s : State) (id : Nat) (is : List Item) (mode : Nat) : Placed s (s.emit id is mode) := by
  unfold State.emit
  dsimp only
  split
  · refine Placed.trans ?_ (placed_commitRegion _ _)
    split
    · exact Placed.modRegion s _ _ (fun g => rfl)
    · exact (placed_tick _).after (Placed.modRegion s _ _ (fun g => rfl))
  · split
    · exact placed_queueWindow s _
    · exact placed_commit s _

theorem placed_closeOpen (s : State) (id : Nat) : Placed s (s.closeOpen id) := by
  unfold State.closeOpen
  split
  · exact Placed.refl s
  · exact (Placed.foldl _ (fun _ _ => placed_emit _ _ _ _) _ _).after (Placed.modSource s _ _)

theorem placed_ensureRoom (s : State) (id n : Nat) : Placed s (s.ensureRoom id n) := by
  unfold State.ensureRoom
  split
  · exact Placed.refl s
  · split
    · exact Placed.refl s
    · split
      · split
        · exact (Placed.foldl _ (fun _ _ => placed_emit _ _ _ _) _ _).after (Placed.modSource s _ _)
        · exact placed_closeOpen s id
      · exact placed_closeOpen s id

theorem placed_putNow (s : State) (id : Nat) (i : Item) (at_ : SI) : Placed s (s.putNow id i at_) :=
  (placed_ensureRoom s id i.size).trans (Placed.modSource _ _ _)

theorem placed_putEntry (s : State) (id b : Nat) (e : FrameEntry) (at_ : SI) : Placed s (s.putEntry id b e at_) :=
  (placed_ensureRoom s _ _).trans (Placed.modSource _ _ _)

theorem placed_putWaited (s : State) (id : Nat) (i : Item) (at_ : SI) : Placed s (s.putWaited id i at_) := by
  unfold State.putWaited
  split
  · exact placed_putNow s _ _ _
  · exact Placed.foldl _ (fun _ _ => placed_putEntry _ _ _ _ _) _ _

/-- A fold that carries a number beside the state. -/
theorem Placed.foldl2 {α β : Type} (f : State × α → β → State × α) (hf : ∀ q x, Placed q.1 (f q x).1) (l : List β) (q : State × α) :
    Placed q.1 (l.foldl f q).1 := by
  induction l generalizing q with
  | nil => exact Placed.refl _
  | cons x rest ih => exact (hf q x).trans (ih _)

theorem placed_releaseSource (s : State) (id : Nat) (h : Option SI) : Placed s (s.releaseSource id h) := by
  unfold State.releaseSource
  dsimp only
  split
  · exact Placed.refl s
  · exact (Placed.foldl2 _ (fun q x => placed_putWaited q.1 id x _) _ _).after (Placed.modSource s _ _)

theorem placed_releaseAll (s : State) : Placed s s.releaseAll := Placed.foldl _ (fun _ _ => placed_releaseSource _ _ _) _ s

theorem placed_setWaiting (s : State) (id : Nat) (i : Item) : Placed s (s.setWaiting id i) := Placed.modSource s _ _

theorem placed_closeAt (s : State) (id : Nat) (h : Option SI) : Placed s (s.closeAt id h) :=
  (placed_releaseSource s id h).trans (placed_closeOpen _ id)

theorem placed_closeSource (s : State) (id : Nat) : Placed s (s.closeSource id) := placed_closeAt s id _

theorem placed_addItem (s : State) (id : Nat) (i : Item) : Placed s (s.addItem id i) := by
  unfold State.addItem
  dsimp only
  split
  · exact (placed_releaseSource s _ _).trans (placed_setWaiting _ _ _)
  · exact (placed_releaseSource s _ _).trans (placed_putNow _ _ _ _)

theorem placed_place (s : State) (id : Nat) (r : Rec) : Placed s (s.place id r) := by
  unfold State.place
  dsimp only
  split
  · exact Placed.refl s
  · split
    · split
      · next w hw =>
        split
        · exact Placed.refl s
        · split
          · split
            · exact Placed.refl s
            · exact placed_addItem s _ _
          · split
            · exact Placed.refl s
            · refine ⟨rfl, fun k => ?_, fun n hn => hn, [], rfl⟩
              by_cases hk : k = srcRegion id
              · subst hk
                rw [State.modRegion_region, if_pos rfl]
                simp only [Region.still, (Option.filter_eq_some_iff.mp hw).1, Option.map_some]
              · simp [State.region, State.modRegion, tfind_tmod_ne _ _ _ _ _ hk]
      · split
        · exact Placed.refl s
        · exact placed_addItem s _ _
    · exact placed_addItem s _ _

theorem placed_placeIn (s : State) (ids : List Nat) (r : Rec) : Placed s (s.placeIn ids r) := Placed.foldl _ (fun _ _ => placed_place _ _ _) ids s

theorem placed_placeActive (s : State) (r : Rec) : Placed s (s.placeActive r) := placed_placeIn s _ r

theorem placed_placeProvisional (s : State) (r : Rec) : Placed s (s.placeProvisional r) := placed_placeIn s _ r

theorem placed_placeEntry (s : State) (b : Nat) (e : FrameEntry) : Placed s (s.placeEntry b e) := by
  unfold State.placeEntry
  dsimp only
  split
  · exact Placed.refl s
  · split
    · exact (placed_releaseSource s _ _).trans (placed_setWaiting _ _ _)
    · exact (placed_releaseSource s _ _).trans (placed_putEntry _ _ _ _ _)

theorem placed_closeRegion (s : State) (r : Nat) : Placed s (s.closeRegion r) := Placed.foldl _ (fun _ _ => placed_closeAt _ _ _) _ s

end Sys2Proof.Machine
end

