-- ==== Sys2Proof/Laws/Commands.lean ====
section
/-! SUPPORT. What answering a command can do: its CHANGE record, its completion entry, a job's beginning and end, and the rings going on
afterwards change the log, the rings and jobs, the reads under way and what placing a record changes, and nothing else. -/

namespace Sys2Proof.Machine

/-- What answering a command never changes, everything it may change standing at one fixed value. -/
def State.settled (s : State) : State := { s.still with log := {}, cmd := {}, tags := {} }

/-- s' comes from s by answering commands: records, completion entries, jobs, fetches. Packets that wait stay as they are. -/
structure Answered (s s' : State) : Prop where
  settled : s'.settled = s.settled
  region : ∀ r, (s'.region r).still = (s.region r).still
  raised : ∀ n, n ∈ s.events.raised → n ∈ s'.events.raised
  posted : ∃ l, s'.obs.posted = l ++ s.obs.posted
  fetched : ∀ n, (s'.ring n).fetched = (s.ring n).fetched

theorem Answered.refl (s : State) : Answered s s := ⟨rfl, fun _ => rfl, fun _ h => h, ⟨[], rfl⟩, fun _ => rfl⟩

theorem Answered.trans {a b c : State} (h : Answered a b) (k : Answered b c) : Answered a c := by
  obtain ⟨l, hl⟩ := h.posted
  obtain ⟨m, hm⟩ := k.posted
  exact ⟨k.settled.trans h.settled, fun r => (k.region r).trans (h.region r), fun n hn => k.raised n (h.raised n hn),
    ⟨m ++ l, by rw [hm, hl, List.append_assoc]⟩, fun n => (k.fetched n).trans (h.fetched n)⟩

/-- The same, the last step named first. -/
theorem Answered.after {a b c : State} (k : Answered b c) (h : Answered a b) : Answered a c := h.trans k

theorem Answered.foldl {β : Type} (f : State → β → State) (hf : ∀ s x, Answered s (f s x)) (l : List β) (s : State) :
    Answered s (l.foldl f s) := by
  induction l generalizing s with
  | nil => exact Answered.refl s
  | cons x rest ih => exact (hf s x).trans (ih _)

theorem Placed.answered {s s' : State} (h : Placed s s') : Answered s s' :=
  ⟨by unfold State.settled; rw [h.still], h.region, h.raised, h.posted, fun n => by simp only [State.ring, h.cmd]⟩

/-- A change of the log, the jobs or the reads only. -/
theorem Answered.of_fields {s s' : State} (h : s'.settled = s.settled) (hr : s'.regions = s.regions) (he : s'.events.raised = s.events.raised)
    (hp : s'.obs.posted = s.obs.posted) (hc : s'.cmd.rings = s.cmd.rings) : Answered s s' :=
  ⟨h, fun r => by simp [State.region, hr], fun n hn => he ▸ hn, ⟨[], by simp [hp]⟩, fun n => by simp [State.ring, hc]⟩

/-- One ring changed, its waiting packets apart. -/
theorem Answered.modRing (s : State) (n : Nat) (f : Ring → Ring) (hf : ∀ r, (f r).fetched = r.fetched) : Answered s (s.modRing n f) := by
  refine ⟨rfl, fun _ => rfl, fun _ h => h, ⟨[], rfl⟩, fun k => ?_⟩
  rw [State.modRing_ring]
  split
  · next h => rw [hf, h]
  · rfl

/-! ### What stays, field by field -/

section Fields
variable {s s' : State} (h : Answered s s')
include h

theorem Answered.pending : s'.pending = s.pending := (congrArg (fun x : State => x.pending) h.settled :)
theorem Answered.startup : s'.startup = s.startup := (congrArg (fun x : State => x.startup) h.settled :)
theorem Answered.time : s'.time = s.time := (congrArg (fun x : State => x.time) h.settled :)
theorem Answered.sched : s'.sched = s.sched := (congrArg (fun x : State => x.sched) h.settled :)
theorem Answered.cells : s'.cells = s.cells := (congrArg (fun x : State => x.cells) h.settled :)
theorem Answered.ivls : s'.ivls = s.ivls := (congrArg (fun x : State => x.ivls) h.settled :)
theorem Answered.blocks : s'.blocks = s.blocks := (congrArg (fun x : State => x.blocks) h.settled :)
theorem Answered.cap : s'.cap = s.cap := (congrArg (fun x : State => x.cap) h.settled :)
theorem Answered.seq0 : s'.seq0 = s.seq0 := (congrArg (fun x : State => x.seq0) h.settled :)
theorem Answered.seq1 : s'.seq1 = s.seq1 := (congrArg (fun x : State => x.seq1) h.settled :)
theorem Answered.pins : s'.pins = s.pins := (congrArg (fun x : State => x.pins) h.settled :)
theorem Answered.cas : s'.cas = s.cas := (congrArg (fun x : State => x.cas) h.settled :)
theorem Answered.engines : s'.engines = s.engines := (congrArg (fun x : State => x.engines) h.settled :)
theorem Answered.streams : s'.streams = s.streams := (congrArg (fun x : State => x.streams) h.settled :)
theorem Answered.replay : s'.replay = s.replay := (congrArg (fun x : State => x.replay) h.settled :)
theorem Answered.dram : s'.dram = s.dram := (congrArg (fun x : State => x.dram) h.settled :)
theorem Answered.sec : s'.sec = s.sec := (congrArg (fun x : State => x.sec) h.settled :)
theorem Answered.safe : s'.safe = s.safe := (congrArg (fun x : State => x.safe) h.settled :)
theorem Answered.hk : s'.hk = s.hk := (congrArg (fun x : State => x.hk) h.settled :)
theorem Answered.routes : s'.bob.routes = s.bob.routes := (congrArg (fun x : State => x.bob.routes) h.settled :)
theorem Answered.map : s'.events.map = s.events.map := (congrArg (fun x : State => x.events.map) h.settled :)
theorem Answered.table : s'.events.table = s.events.table := (congrArg (fun x : State => x.events.table) h.settled :)
theorem Answered.blocked : s'.pcie.blocked = s.pcie.blocked := (congrArg (fun x : State => x.pcie.blocked) h.settled :)
theorem Answered.lookback : s'.data.lookback = s.data.lookback := (congrArg (fun x : State => x.data.lookback) h.settled :)
theorem Answered.cfg (r : Nat) : (s'.region r).cfg = (s.region r).cfg := (congrArg (fun x : Region => x.cfg) (h.region r) :)

end Fields

/-! ### The log and completion entries -/

theorem answered_change (s : State) (o : Origin) (opcode status : Nat) (params : List Byte) (si : SI) :
    Answered s (s.change o opcode status params si) := by
  unfold State.change
  exact (placed_raiseIf _ _ _).answered.after ((placed_place _ _ _).answered.after (Answered.of_fields rfl rfl rfl rfl rfl))

theorem answered_reserve (s : State) (n : Nat) : Answered s (s.reserve n) := Answered.of_fields rfl rfl rfl rfl rfl

theorem answered_unreserve (s : State) (n : Nat) : Answered s (s.unreserve n) := Answered.of_fields rfl rfl rfl rfl rfl

theorem answered_writeEntry (s : State) (e : CplEntry) : Answered s (s.writeEntry e) := by
  unfold State.writeEntry
  exact (placed_raise _ _).answered.after ((placed_postBytes _ _ _).answered.after (Answered.modRing s _ _ (fun _ => rfl)))

theorem answered_holdEntry (s : State) (e : CplEntry) : Answered s (s.holdEntry e) := by
  unfold State.holdEntry
  extract_lets full s1
  have h : Answered s s1 := Answered.modRing s _ _ (fun _ => rfl)
  exact h.trans (Answered.of_fields rfl rfl rfl rfl rfl)

theorem answered_postEntry (s : State) (e : CplEntry) : Answered s (s.postEntry e) := by
  unfold State.postEntry
  dsimp only
  have h := (placed_raiseIf s (decide (e.status = stInternal)) 7).answered
  split
  · exact h
  · split
    · split
      · exact (answered_writeEntry _ _).after h
      · exact h
    · split
      · exact (answered_holdEntry _ _).after h
      · exact (answered_writeEntry _ _).after h

theorem answered_complete (s : State) (c : Ctx) (status jobId : Nat) (result : List Nat) : Answered s (s.complete c status jobId result) := by
  unfold State.complete
  split
  · exact Answered.refl s
  next ring tag _ =>
    extract_lets s1
    have h1 : Answered s s1 := by
      show Answered s (if _ then _ else _)
      split
      · exact Answered.modRing _ _ _ (fun _ => rfl)
      · exact Answered.refl s
    split
    · exact h1
    · exact (answered_postEntry _ _).after h1

theorem answered_completeLogged (s : State) (c : Ctx) (status jobId : Nat) (result : List Nat) : Answered s (s.completeLogged c status jobId result) := by
  unfold State.completeLogged
  split
  · exact Answered.of_fields rfl rfl rfl rfl rfl
  · exact answered_complete _ _ _ _ _

theorem answered_countLogFull (s : State) : Answered s s.countLogFull := by
  unfold State.countLogFull
  exact (placed_raise _ _).answered.after (Answered.of_fields rfl rfl rfl rfl rfl)

theorem answered_finishAt (s : State) (c : Ctx) (b : SI) (result : List Nat) : Answered s (s.finishAt c b result) :=
  (answered_completeLogged _ _ _ _ _).after (answered_change _ _ _ _ _ _)

theorem answered_finish (s : State) (c : Ctx) (result : List Nat) : Answered s (s.finish c result) := answered_finishAt s c _ result

theorem answered_answer (s : State) (c : Ctx) (result : List Nat) : Answered s (s.answer c result) := answered_complete s c _ _ _

theorem answered_cancelDeferred (s : State) (c : Option Ctx) : Answered s (s.cancelDeferred c) := by
  unfold State.cancelDeferred State.cancelAt
  split
  · exact Answered.refl s
  · exact (answered_completeLogged _ _ _ _ _).after ((answered_change _ _ _ _ _ _).after (answered_unreserve _ _))

theorem answered_refuse (s : State) (c : Ctx) (st : Nat) (words : List Nat) : Answered s (s.refuse c st words) := by
  unfold State.refuse
  dsimp only
  refine (answered_complete _ _ _ _ _).after ?_
  split
  · exact (answered_countLogFull _).after (Answered.modRing s _ _ (fun _ => rfl))
  · exact Answered.modRing s _ _ (fun _ => rfl)

/-! ### Jobs -/

theorem answered_startJob (s : State) (c : Ctx) (st : JobState) (extra : Nat) : Answered s (s.startJob c st extra) := by
  unfold State.startJob
  exact (answered_complete _ _ _ _ _).after ((answered_reserve _ _).after ((answered_change _ _ _ _ _ _).after
    (Answered.of_fields rfl rfl rfl rfl rfl)))

theorem answered_endJob (s : State) (n : Nat) (st : JobState) (result : List Nat) : Answered s (s.endJob n st result) := by
  unfold State.endJob
  split
  · exact Answered.refl s
  · dsimp only
    refine (placed_raise _ _).answered.after ((answered_completeLogged _ _ _ _ _).after ((answered_change _ _ _ _ _ _).after
      ((answered_unreserve _ _).after ((Answered.foldl _ ?_ _ _).after ((Answered.foldl _ ?_ _ _).after
        (Answered.of_fields rfl rfl rfl rfl rfl))))))
    · intro s c
      split
      · exact (answered_finish _ _ _).after (answered_unreserve _ _)
      · exact (answered_complete _ _ _ _ _).after (answered_unreserve _ _)
    · intro s c
      exact (answered_complete _ _ _ _ _).after (answered_unreserve _ _)

/-! ### The rings go on -/

/-- Reads under way are no part of what stays. -/
theorem Answered.setTags (s : State) (x : Tags) : Answered s { s with tags := x } := Answered.of_fields rfl rfl rfl rfl rfl

theorem answered_issue (s : State) (q : Request) : Answered s (s.issue q) := by
  unfold State.issue
  extract_lets w
  split
  · exact Answered.setTags s _
  · split
    · exact Answered.setTags s _
    · exact (placed_post _ _).answered.after (Answered.setTags s _)

theorem answered_fetchRing (s : State) (n : Nat) : Answered s (s.fetchRing n) := by
  unfold State.fetchRing
  split
  · exact (answered_issue _ _).after (Answered.modRing _ _ _ (fun _ => rfl))
  · exact Answered.refl s

/-- With no packet waiting, the core examines none. -/
theorem examineOne_none (s : State) (h : ∀ n, (s.ring n).fetched = []) (n : Nat) : s.examineOne n = s := by
  simp [State.examineOne, State.canExamine, h]

theorem examine_none (s : State) (h : ∀ n, (s.ring n).fetched = []) (k : Nat) : s.examine k = s := by
  induction k with
  | zero => unfold State.examine; rfl
  | succ k ih =>
    have hf : ∀ l : List Nat, l.foldl State.examineOne s = s := by
      intro l
      induction l with
      | nil => rfl
      | cons x rest ihl => rw [List.foldl_cons, examineOne_none s h, ihl]
    unfold State.examine
    rw [hf, ih]

/-- With no packet waiting, the rings only fetch. -/
theorem answered_pump (s : State) (h : ∀ n, (s.ring n).fetched = []) : Answered s s.pump := by
  unfold State.pump
  dsimp only
  rw [examine_none s h]
  exact Answered.foldl _ answered_fetchRing _ _

/-- With nothing waiting at all, going on only fetches. -/
theorem answered_goOn (s : State) (hs : s.startup.step ≠ 6) (hr : s.safe.softReset = none) (h : ∀ n, (s.ring n).fetched = []) :
    Answered s s.goOn := by
  have e1 : s.startupGoesOn = s := by simp [State.startupGoesOn, hs]
  have e2 : s.maybeSoft = s := by simp [State.maybeSoft, hr]
  unfold State.goOn
  rw [e1, e2]
  exact answered_pump s h

/-! ### Delivery going on (R408, R412) -/

theorem placed_flushMsix (s : State) : Placed s s.flushMsix :=
  ⟨rfl, fun _ => rfl, fun _ h => h, _, rfl⟩

theorem answered_drainHold (s : State) : Answered s s.drainHold := by
  unfold State.drainHold
  split
  · exact Answered.refl s
  · dsimp only
    refine (Answered.foldl _ ?_ _ _).after (Answered.of_fields rfl rfl rfl rfl rfl)
    intro s e
    split
    · exact answered_writeEntry _ _
    · exact answered_holdEntry _ _

theorem answered_issueWaiting (s : State) : Answered s s.issueWaiting := by
  unfold State.issueWaiting
  exact (Answered.foldl _ answered_issue _ _).after (Answered.setTags s _)

/-- With no packet waiting, delivery that goes on only sends, fetches and issues reads. -/
theorem answered_resumeHost (s : State) (h : ∀ n, (s.ring n).fetched = []) : Answered s s.resumeHost := by
  unfold State.resumeHost
  have h3 := (answered_issueWaiting _).after ((answered_drainHold _).after (placed_flushMsix s).answered)
  exact (answered_pump _ (fun n => (h3.fetched n).trans (h n))).after h3

/-! ### What the rings keep -/

/-- Fetching changes of a ring only that a read of it is under way. -/
theorem fetchRing_ring (s : State) (n k : Nat) : ∃ b, (s.fetchRing n).ring k = { s.ring k with fetching := b } := by
  have hi : ∀ (x : State) (q : Request), (x.issue q).ring k = x.ring k := by
    intro x q
    unfold State.issue
    extract_lets w
    split
    · rfl
    · split
      · rfl
      · rfl
  unfold State.fetchRing
  split
  · rw [hi, State.modRing_ring]
    split
    · next h => exact ⟨true, by rw [h]⟩
    · exact ⟨(s.ring k).fetching, rfl⟩
  · exact ⟨(s.ring k).fetching, rfl⟩

/-- With no packet waiting, the rings go on with at most a read under way. -/
theorem pump_ring (s : State) (h : ∀ n, (s.ring n).fetched = []) (k : Nat) : ∃ b, s.pump.ring k = { s.ring k with fetching := b } := by
  unfold State.pump
  dsimp only
  rw [examine_none s h]
  suffices hl : ∀ (l : List Nat) (s : State), ∃ b, (l.foldl State.fetchRing s).ring k = { s.ring k with fetching := b } from hl _ _
  intro l
  induction l with
  | nil => exact fun s => ⟨(s.ring k).fetching, rfl⟩
  | cons x rest ih =>
    intro s
    obtain ⟨b, hb⟩ := ih (s.fetchRing x)
    obtain ⟨c, hc⟩ := fetchRing_ring s x k
    exact ⟨b, by rw [List.foldl_cons, hb, hc]⟩

/-! ### Packets that are accepted (R434, R435) -/

open Sys2Proof.Safety

/-- A quiet state has no waiting packet on any ring. -/
theorem quiet_fetched (s : State) (h : quiet s) (n : Nat) : (s.ring n).fetched = [] := by
  have hw := h.waiting
  unfold State.ring
  generalize s.cmd.rings = t at hw ⊢
  induction t with
  | nil => rfl
  | cons e rest ih =>
    obtain ⟨k, r⟩ := e
    simp only [List.all_cons, Bool.and_eq_true, List.isEmpty_iff] at hw
    by_cases hk : k = n
    · simp [tfind, hk, hw.1]
    · simpa [tfind, hk] using ih hw.2

/-- An accepted packet takes effect, and then the rings go on. -/
theorem packetIn_accepted (s : State) (t : SI) (o : OpSpec) (p : Packet) (h : accepted s t o p) :
    s.packetIn t o p = (o.effect (packetCtx o.opcode p) (taken s t p)).goOn := by
  have hq := h.quiet
  have hl : (s.moment t).ringLive p.ring.val = true := by
    simp [State.ringLive, State.ring, hq.ready] at *
    exact ⟨h.enabled, h.running⟩
  have hw : (s.moment t).mustWait p = false := by
    have e0 : ((s.moment t).ring p.ring.val).fetched = [] := quiet_fetched s hq _
    have e1 : ((s.moment t).ring p.ring.val).unreplied = (s.ring p.ring.val).unreplied := rfl
    have e2 : (s.moment t).coreBusy = false := by simp [State.coreBusy, hq.soft, hq.up]
    unfold State.mustWait
    rw [e0, e1, e2]
    cases hb : bit p.flags.toNat 0 with
    | false => simp
    | true => simp [h.fence hb]
  have hr : ((entered s t p).ring p.ring.val).role = (s.ring p.ring.val).role := by
    unfold entered
    rw [State.modRing_ring, if_pos rfl]
    rfl
  unfold State.packetIn State.receive
  rw [hl, hw]
  have hsw : (s.moment t).safe.swapping = false := hq.swap
  rw [hsw]
  simp only [Bool.not_true, Bool.false_eq_true, if_false]
  congr 1
  have he := h.early
  rw [← hr] at he
  have hp := h.here
  have hla := h.late
  unfold entered at he hp hla
  unfold State.submit
  simp only [he, hp, hla, h.now, ne_eq, not_true_eq_false, if_false]
  have hd := h.atOnce
  unfold taken entered at hd
  unfold OpSpec.carry
  rw [show (packetCtx o.opcode p).params = p.params from rfl, hd]
  rfl

/-- A packet that takes effect: what the ring and the moment have changed by then. -/
theorem taken_answered (s : State) (t : SI) (p : Packet) : Answered (s.moment t) (taken s t p) := by
  have h1 : Answered (s.moment t) (entered s t p) :=
    Answered.modRing _ p.ring.val (fun r => { r with unreplied := r.unreplied + 1 }) (fun _ => rfl)
  exact h1.trans (Answered.modRing _ p.ring.val (fun r => { r with accepted := satInc 16 r.accepted }) (fun _ => rfl))

/-- An accepted packet whose effect ends with answering: what answering leaves, the effect alone has made. -/
theorem packetIn_answered (s : State) (t : SI) (o : OpSpec) (p : Packet) (h : accepted s t o p) (x : State)
    (he : Answered x (o.effect (packetCtx o.opcode p) (taken s t p))) (hs : x.startup.step ≠ 6) (hr : x.safe.softReset = none)
    (hf : ∀ n, (x.ring n).fetched = []) : Answered x (s.packetIn t o p) := by
  rw [packetIn_accepted s t o p h]
  refine Answered.after (answered_goOn _ ?_ ?_ ?_) he
  · rw [he.startup]; exact hs
  · rw [he.safe]; exact hr
  · exact fun n => (he.fetched n).trans (hf n)

end Sys2Proof.Machine
end

