-- ==== Sys2Proof/Laws/Frames.lean ====
section
/-! SUPPORT. The frames of the statements, from what placing records and answering commands can do. -/

namespace Sys2Proof.Machine

open Sys2Proof.Safety

/-- Placing records leaves what onlyPlaces says. -/
theorem Placed.only {x s' : State} (h : Placed x s') : onlyPlaces x s' := by
  refine ⟨?_, h.cfg, h.raised, h.posted⟩
  have hs := h.still
  unfold State.still at hs
  obtain ⟨_, _, ⟨⟩, _, _, _, _, _, _, _, ⟨⟩, _, _, _, _, _, _, _, _, _, ⟨⟩, _, ⟨⟩, ⟨⟩, _, _, _, _, _, _⟩ := x
  obtain ⟨_, _, ⟨⟩, _, _, _, _, _, _, _, ⟨⟩, _, _, _, _, _, _, _, _, _, ⟨⟩, _, ⟨⟩, ⟨⟩, _, _, _, _, _, _⟩ := s'
  simp only [State.mk.injEq, Obs.mk.injEq, Data.mk.injEq, Bobbins.mk.injEq, Pcie.mk.injEq, Events.mk.injEq] at hs ⊢
  simp only [hs, and_self]

/-- Answering commands leaves what onlyAnswers says. -/
theorem Answered.only {x s' : State} (h : Answered x s') : onlyAnswers x s' := by
  refine ⟨?_, h.cfg, h.raised, h.posted⟩
  have hs := h.settled
  unfold State.settled State.still at hs
  obtain ⟨_, _, ⟨⟩, _, _, _, _, _, _, _, ⟨⟩, _, _, _, _, _, _, _, _, _, ⟨⟩, _, ⟨⟩, ⟨⟩, _, _, _, _, _, _⟩ := x
  obtain ⟨_, _, ⟨⟩, _, _, _, _, _, _, _, ⟨⟩, _, _, _, _, _, _, _, _, _, ⟨⟩, _, ⟨⟩, ⟨⟩, _, _, _, _, _, _⟩ := s'
  simp only [State.mk.injEq, Obs.mk.injEq, Data.mk.injEq, Bobbins.mk.injEq, Pcie.mk.injEq, Events.mk.injEq] at hs ⊢
  simp only [hs, and_self]

end Sys2Proof.Machine
end

