-- ==== Sys2Proof/Laws/Kept.lean ====
section
/-! SUPPORT. What every command keeps: the queue, the order of time, and the canonical form of the DRAM bytes; one lemma per operation
follows in the files after this one. -/

namespace Sys2Proof.Machine

/-- From s to s' the queue is the same, SI does not go back, and DRAM bytes in canonical form stay so. -/
structure Kept (s s' : State) : Prop where
  pending : s'.pending = s.pending
  si : s.time.si ≤ s'.time.si
  mem : Memory.wf s.dram.mem = true → Memory.wf s'.dram.mem = true

/-- The same of an outcome that is a next state. -/
def KeptO (s : State) (o : Host.Outcome State Fault Refusal) : Prop := ∀ s', o = .next s' → Kept s s'

theorem Kept.refl (s : State) : Kept s s := ⟨rfl, le_refl _, fun h => h⟩

/-- Two steps, the last named first. -/
theorem Kept.after {a b c : State} (k : Kept b c) (h : Kept a b) : Kept a c :=
  ⟨k.pending.trans h.pending, le_trans h.si k.si, fun w => k.mem (h.mem w)⟩

/-- A state written out field by field keeps what its queue, its time and its DRAM keep. -/
theorem Kept.upd {a x : State} {p fc o su t sc ce iv bl re da ca q0 q1 pi cs en xe st rp bo d pc ev tg cm lg se sf hk} (h : Kept a x)
    (hp : p = x.pending) (hs : t.si = x.time.si) (hm : d.mem = x.dram.mem) :
    Kept a ⟨p, fc, o, su, t, sc, ce, iv, bl, re, da, ca, q0, q1, pi, cs, en, xe, st, rp, bo, d, pc, ev, tg, cm, lg, se, sf, hk⟩ :=
  ⟨hp.trans h.pending, le_of_le_of_eq h.si hs.symm, fun w => (congrArg Memory.wf hm).trans (h.mem w)⟩

/-- The same where the DRAM bytes change and keep their form. -/
theorem Kept.updMem {a x : State} {p fc o su t sc ce iv bl re da ca q0 q1 pi cs en xe st rp bo d pc ev tg cm lg se sf hk} (h : Kept a x)
    (hp : p = x.pending) (hs : t.si = x.time.si) (hm : Memory.wf x.dram.mem = true → Memory.wf d.mem = true) :
    Kept a ⟨p, fc, o, su, t, sc, ce, iv, bl, re, da, ca, q0, q1, pi, cs, en, xe, st, rp, bo, d, pc, ev, tg, cm, lg, se, sf, hk⟩ :=
  ⟨hp.trans h.pending, le_of_le_of_eq h.si hs.symm, fun w => hm (h.mem w)⟩

/-! The DRAM operations that leave the bytes alone, and those that write them. -/

theorem mem_folded {β : Type} (f : Dram → β → Dram) (hf : ∀ d x, (f d x).mem = d.mem) (xs : List β) (d : Dram) : (xs.foldl f d).mem = d.mem := by
  induction xs generalizing d with
  | nil => rfl
  | cons x rest ih => exact (ih _).trans (hf d x)

@[simp] theorem mem_useBank (d : Dram) (a k : Nat) (now : SI) (more : Bool) : (d.useBank a k now more).mem = d.mem := rfl

@[simp] theorem mem_useBanks (ks : List Nat) (d : Dram) (a : Nat) (now : SI) (more : Bool) :
    (ks.foldl (fun d k => d.useBank a k now more) d).mem = d.mem := by
  apply mem_folded
  intro _ _
  rfl

@[simp] theorem mem_touch (d : Dram) (a : Nat) (now : SI) (more write : Bool) : (d.touch a now more write).mem = d.mem := by
  unfold Dram.touch
  cases write <;> simp

@[simp] theorem mem_touchAll (as : List Nat) (d : Dram) (now : SI) (write : Bool) : (d.touchAll as now write).mem = d.mem := by
  induction as generalizing d with
  | nil => rfl
  | cons a rest ih => exact (ih _).trans (mem_touch _ _ _ _ _)

@[simp] theorem mem_unmark (d : Dram) (a : Nat) : (d.unmark a).mem = d.mem := rfl
@[simp] theorem mem_mark (d : Dram) (a v : Nat) : (d.mark a v).mem = d.mem := rfl

@[simp] theorem mem_unmarkAll (as : List Nat) (d : Dram) : (as.foldl (fun d a => d.unmark a) d).mem = d.mem := by
  apply mem_folded
  intro _ _
  rfl

@[simp] theorem mem_counted (d : Dram) (rd wr : Nat) : (d.counted rd wr).mem = d.mem := rfl

theorem mem_copyAccesses (d : Dram) (m : Migration) (now : SI) (js : List Nat) : (d.copyAccesses m now js).mem = d.mem := by
  unfold Dram.copyAccesses
  apply mem_folded
  intro _ _
  rfl

@[simp] theorem mem_copyBlock (d : Dram) (m : Migration) (now : SI) : (d.copyBlock m now).mem = d.mem :=
  (mem_counted _ _ _).trans (mem_copyAccesses d m now _)

/-- Bytes stored keep the canonical form. -/
theorem wf_store (d : Dram) (bs : List Byte) (m : List Host.Cell) (a : Nat) (h : Memory.wf m = true) : Memory.wf (d.store m a bs) = true := by
  induction bs generalizing m a with
  | nil => exact h
  | cons b rest ih =>
    unfold Dram.store
    apply ih
    split
    · exact h
    · exact Memory.wf_write _ _ _ h

/-- Bytes written into a DRAM ring keep the canonical form. -/
theorem wf_ringBytes (d : Dram) (b : Bobbin) (pos : Nat) (bs : List Byte) (h : Memory.wf d.mem = true) :
    Memory.wf (ringBytes d b pos bs) = true :=
  wf_store _ _ _ _ (wf_store _ _ _ _ h)

/-- A segment written into a DRAM ring keeps the canonical form. -/
theorem wf_storeRing (d : Dram) (b : Bobbin) (g : Seg) (now : SI) (bad : List Nat) (h : Memory.wf d.mem = true) :
    Memory.wf (d.storeRing b g now bad).mem = true :=
  wf_ringBytes _ _ _ _ h

theorem Kept.foldl {β : Type} (f : State → β → State) (hf : ∀ s x, Kept s (f s x)) (l : List β) (s : State) : Kept s (l.foldl f s) := by
  induction l generalizing s with
  | nil => exact Kept.refl s
  | cons x rest ih => exact (ih _).after (hf s x)

/-- A fold that carries a number beside the state. -/
theorem Kept.foldl2 {α β : Type} (f : α × State → β → α × State) (hf : ∀ q x, Kept q.2 (f q x).2) (l : List β) (q : α × State) :
    Kept q.2 (l.foldl f q).2 := by
  induction l generalizing q with
  | nil => exact Kept.refl _
  | cons x rest ih => exact (ih _).after (hf q x)

theorem Kept.foldr {β : Type} (f : β → State → State) (hf : ∀ s x, Kept s (f x s)) (l : List β) (s : State) : Kept s (l.foldr f s) := by
  induction l with
  | nil => exact Kept.refl s
  | cons x rest ih => exact (hf _ x).after ih

/-- The state of a pair that a match has taken apart. -/
theorem Kept.ofPair {β : Type} {s t : State} {b : β} {p : State × β} (h : p = (t, b)) (k : Kept s p.1) : Kept s t := by subst h; exact k

/-- The same where the state is the second of the pair. -/
theorem Kept.ofPair2 {β : Type} {s t : State} {b : β} {p : β × State} (h : p = (b, t)) (k : Kept s p.2) : Kept s t := by subst h; exact k

theorem KeptO.next {s s' : State} (h : Kept s s') : KeptO s (.next s') := fun _ e => by cases e; exact h

theorem Placed.kept {s s' : State} (h : Placed s s') : Kept s s' :=
  ⟨h.pending, by rw [h.time], by rw [h.dram]; exact fun w => w⟩

/-- The moment of a command: SI does not go back (R11). -/
theorem kept_moment (s : State) (t : SI) : Kept s (s.moment t) := by
  refine ⟨rfl, ?_, fun h => h⟩
  show s.time.si ≤ if s.time.running then max s.time.si t else s.time.si
  split
  · exact le_max_left _ _
  · exact le_refl _

end Sys2Proof.Machine
end

