-- ==== Sys2Proof/Laws/KeptPath.lean ====
section
/-! SUPPORT. Evidence path, commands and packets: one lemma per operation, that it keeps the queue, the order of time and the form of the DRAM bytes. -/

set_option linter.unusedTactic false
set_option linter.unreachableTactic false
set_option linter.unusedVariables false

namespace Sys2Proof.Machine

theorem kept_tick (s : State) : Kept s (State.tick s) := (placed_tick _).kept

theorem kept_post (s : State) (p : Posted) : Kept s (State.post s p) := (placed_post _ _).kept

theorem kept_sent (s : State) (n : Nat) : Kept s (State.sent s n) := (placed_sent _ _).kept

theorem kept_postBytes (s : State) (p : Posted) (n : Nat) : Kept s (State.postBytes s p n) := (placed_postBytes _ _ _).kept

theorem kept_signal (s : State) (n : Nat) : Kept s (State.signal s n) := (placed_signal _ _).kept

theorem kept_raise (s : State) (n : Nat) : Kept s (State.raise s n) := (placed_raise _ _).kept

theorem kept_raiseAll (s : State) (ns : List Nat) : Kept s (State.raiseAll s ns) := (placed_raiseAll _ _).kept

theorem kept_raiseIf (s : State) (c : Bool) (n : Nat) : Kept s (State.raiseIf s c n) := (placed_raiseIf _ _ _).kept

theorem kept_flushMsix (s : State) : Kept s (State.flushMsix s) := by
  unfold State.flushMsix
  try dsimp only
  repeat' first
    | with_reducible exact Kept.refl _
    | split
    | (fail_if_no_progress refine Kept.upd ?_ rfl rfl rfl)

theorem kept_seamLost (s : State) (n : Nat) : Kept s (State.seamLost s n) := by
  unfold State.seamLost
  try dsimp only
  repeat' first
    | with_reducible exact Kept.refl _
    | split
    | with_reducible refine (kept_raise _ _).after ?_
    | (fail_if_no_progress refine Kept.upd ?_ rfl rfl rfl)

theorem kept_modRegion (s : State) (r : Nat) (f : Region → Region) : Kept s (State.modRegion s r f) := by
  unfold State.modRegion
  try dsimp only
  repeat' first
    | with_reducible exact Kept.refl _
    | split
    | (fail_if_no_progress refine Kept.upd ?_ rfl rfl rfl)

theorem kept_modSource (s : State) (id : Nat) (f : Source → Source) : Kept s (State.modSource s id f) := by
  unfold State.modSource
  try dsimp only
  repeat' first
    | with_reducible exact Kept.refl _
    | split
    | (fail_if_no_progress refine Kept.upd ?_ rfl rfl rfl)

theorem kept_bobOut (s : State) (i : Nat) (b : Bobbin) (b' : Bobbin) : Kept s (State.bobOut s i b b') := (placed_bobOut _ _ _ _).kept

theorem kept_modBob (s : State) (i : Nat) (f : Bobbin → Bobbin) : Kept s (State.modBob s i f) := (placed_modBob _ _ _).kept

theorem kept_retire (s : State) : Kept s (State.retire s) := by
  unfold State.retire
  try dsimp only
  repeat' first
    | with_reducible exact Kept.refl _
    | split
    | (fail_if_no_progress refine Kept.upd ?_ rfl rfl rfl)

theorem kept_offerAll (s : State) (g : Seg) : Kept s (State.offerAll s g) := (placed_offerAll _ _).kept

theorem kept_commit (s : State) (g : Seg) : Kept s (State.commit s g) := (placed_commit _ _).kept

theorem kept_stagingFull (s : State) (r : Nat) : Kept s (State.stagingFull s r) := (placed_stagingFull _ _).kept

theorem kept_commitReady (s : State) (r : Nat) (fuel : Nat) : Kept s (State.commitReady s r fuel) := (placed_commitReady _ _ _).kept

theorem kept_commitRegion (s : State) (r : Nat) : Kept s (State.commitRegion s r) := (placed_commitRegion _ _).kept

theorem kept_emit (s : State) (id : Nat) (is : List Item) (mode : Nat) : Kept s (State.emit s id is mode) := (placed_emit _ _ _ _).kept

theorem kept_closeAt (s : State) (id : Nat) (h : Option SI) : Kept s (State.closeAt s id h) := (placed_closeAt _ _ _).kept

theorem kept_closeSource (s : State) (id : Nat) : Kept s (State.closeSource s id) := (placed_closeSource _ _).kept

theorem kept_ensureRoom (s : State) (id : Nat) (n : Nat) : Kept s (State.ensureRoom s id n) := (placed_ensureRoom _ _ _).kept

theorem kept_addItem (s : State) (id : Nat) (i : Item) : Kept s (State.addItem s id i) := (placed_addItem _ _ _).kept

theorem kept_place (s : State) (id : Nat) (r : Rec) : Kept s (State.place s id r) := (placed_place _ _ _).kept

theorem kept_placeIn (s : State) (ids : List Nat) (r : Rec) : Kept s (State.placeIn s ids r) := (placed_placeIn _ _ _).kept

theorem kept_placeActive (s : State) (r : Rec) : Kept s (State.placeActive s r) := (placed_placeActive _ _).kept

theorem kept_placeProvisional (s : State) (r : Rec) : Kept s (State.placeProvisional s r) := (placed_placeProvisional _ _).kept

theorem kept_placeEntry (s : State) (b : Nat) (e : FrameEntry) : Kept s (State.placeEntry s b e) := (placed_placeEntry _ _ _).kept

theorem kept_closeRegion (s : State) (r : Nat) : Kept s (State.closeRegion s r) := (placed_closeRegion _ _).kept

theorem kept_writeLookback (s : State) (g : Seg) : Kept s (State.writeLookback s g) := by
  unfold State.writeLookback
  try dsimp only
  repeat' first
    | with_reducible exact Kept.refl _
    | split
    | with_reducible refine (kept_raiseIf _ _ _).after ?_
    | (fail_if_no_progress refine Kept.upd ?_ rfl rfl rfl)

theorem kept_brokenPin (s : State) (r : Nat) : Kept s (State.brokenPin s r) := by
  unfold State.brokenPin
  try dsimp only
  repeat' first
    | with_reducible exact Kept.refl _
    | split
    | with_reducible refine (kept_raise _ _).after ?_
    | (fail_if_no_progress refine Kept.upd ?_ rfl rfl rfl)

theorem kept_writeReduction (s : State) (g : Seg) : Kept s (State.writeReduction s g) := by
  unfold State.writeReduction
  try dsimp only
  repeat' first
    | with_reducible exact Kept.refl _
    | split
    | with_reducible refine (kept_brokenPin _ _).after ?_
    | (with_reducible refine (Kept.foldl _ ?_ _ _).after ?_; focus intro _ _)
    | (fail_if_no_progress refine Kept.upd ?_ rfl rfl rfl)

theorem kept_writeSpecial (s : State) (g : Seg) : Kept s (State.writeSpecial s g) := by
  unfold State.writeSpecial
  try dsimp only
  repeat' first
    | with_reducible exact Kept.refl _
    | split
    | (fail_if_no_progress refine Kept.upd ?_ rfl rfl rfl)

theorem kept_ringWrite (s : State) (g : Seg) : Kept s (State.ringWrite s g) := by
  unfold State.ringWrite
  try dsimp only
  repeat' first
    | with_reducible exact Kept.refl _
    | split
    | with_reducible refine (kept_writeLookback _ _).after ?_
    | with_reducible refine (kept_writeReduction _ _).after ?_
    | with_reducible refine (kept_writeSpecial _ _).after ?_
    | (fail_if_no_progress refine Kept.upd ?_ rfl rfl rfl)

theorem kept_dramWake (s : State) : Kept s (State.dramWake s) := by
  unfold State.dramWake
  try dsimp only
  repeat' first
    | with_reducible exact Kept.refl _
    | split
    | with_reducible refine (kept_raise _ _).after ?_
    | (fail_if_no_progress refine Kept.upd ?_ rfl rfl rfl)

theorem kept_storeSeg (s : State) (g : Seg) : Kept s (State.storeSeg s g) := by
  unfold State.storeSeg
  try dsimp only
  repeat' first
    | with_reducible exact Kept.refl _
    | split
    | (with_reducible refine (Kept.foldl _ ?_ _ _).after ?_; focus intro _ _)
    | (fail_if_no_progress refine Kept.upd ?_ rfl rfl (by simp))
    | (fail_if_no_progress refine Kept.upd ?_ rfl rfl rfl)

theorem kept_execStagingDramWriteComplete (t : SI) (seg : Nat) (s : State) : KeptO s (execStagingDramWriteComplete t seg s) := by
  unfold execStagingDramWriteComplete
  try dsimp only
  repeat' first
    | with_reducible exact Kept.refl _
    | with_reducible refine KeptO.next ?_
    | split
    | with_reducible refine (kept_moment _ _).after ?_
    | with_reducible refine (kept_retire _).after ?_
    | with_reducible refine (kept_ringWrite _ _).after ?_
    | with_reducible refine (kept_dramWake _).after ?_
    | with_reducible refine (kept_storeSeg _ _).after ?_
    | (fail_if_no_progress refine Kept.upd ?_ rfl rfl rfl)

theorem kept_change (s : State) (o : Origin) (opcode : Nat) (status : Nat) (params : List Byte) (si : SI) : Kept s (State.change s o opcode status params si) := by
  unfold State.change
  try dsimp only
  repeat' first
    | with_reducible exact Kept.refl _
    | split
    | with_reducible refine (kept_raiseIf _ _ _).after ?_
    | with_reducible refine (kept_place _ _ _).after ?_
    | (fail_if_no_progress refine Kept.upd ?_ rfl rfl rfl)

theorem kept_reserve (s : State) (n : Nat) : Kept s (State.reserve s n) := by
  unfold State.reserve
  try dsimp only
  repeat' first
    | with_reducible exact Kept.refl _
    | split
    | (fail_if_no_progress refine Kept.upd ?_ rfl rfl rfl)

theorem kept_unreserve (s : State) (n : Nat) : Kept s (State.unreserve s n) := by
  unfold State.unreserve
  try dsimp only
  repeat' first
    | with_reducible exact Kept.refl _
    | split
    | (fail_if_no_progress refine Kept.upd ?_ rfl rfl rfl)

theorem kept_modRing (s : State) (n : Nat) (f : Ring → Ring) : Kept s (State.modRing s n f) := by
  unfold State.modRing
  try dsimp only
  repeat' first
    | with_reducible exact Kept.refl _
    | split
    | (fail_if_no_progress refine Kept.upd ?_ rfl rfl rfl)

theorem kept_writeEntry (s : State) (e : CplEntry) : Kept s (State.writeEntry s e) := by
  unfold State.writeEntry
  try dsimp only
  repeat' first
    | with_reducible exact Kept.refl _
    | split
    | with_reducible refine (kept_postBytes _ _ _).after ?_
    | with_reducible refine (kept_raise _ _).after ?_
    | with_reducible refine (kept_modRing _ _ _).after ?_
    | (fail_if_no_progress refine Kept.upd ?_ rfl rfl rfl)

theorem kept_holdEntry (s : State) (e : CplEntry) : Kept s (State.holdEntry s e) := by
  unfold State.holdEntry
  try dsimp only
  repeat' first
    | with_reducible exact Kept.refl _
    | split
    | with_reducible refine (kept_modRing _ _ _).after ?_
    | (fail_if_no_progress refine Kept.upd ?_ rfl rfl rfl)

theorem kept_postEntry (s : State) (e : CplEntry) : Kept s (State.postEntry s e) := by
  unfold State.postEntry
  try dsimp only
  repeat' first
    | with_reducible exact Kept.refl _
    | split
    | with_reducible refine (kept_raiseIf _ _ _).after ?_
    | with_reducible refine (kept_writeEntry _ _).after ?_
    | with_reducible refine (kept_holdEntry _ _).after ?_
    | (fail_if_no_progress refine Kept.upd ?_ rfl rfl rfl)

theorem kept_drainHold (s : State) : Kept s (State.drainHold s) := by
  unfold State.drainHold
  try dsimp only
  repeat' first
    | with_reducible exact Kept.refl _
    | split
    | with_reducible refine (kept_writeEntry _ _).after ?_
    | with_reducible refine (kept_holdEntry _ _).after ?_
    | (with_reducible refine (Kept.foldl _ ?_ _ _).after ?_; focus intro _ _)
    | (fail_if_no_progress refine Kept.upd ?_ rfl rfl rfl)

theorem kept_complete (s : State) (c : Ctx) (status : Nat) (jobId : Nat) (result : List Nat) : Kept s (State.complete s c status jobId result) := by
  unfold State.complete
  try dsimp only
  repeat' first
    | with_reducible exact Kept.refl _
    | split
    | with_reducible refine (kept_modRing _ _ _).after ?_
    | with_reducible refine (kept_postEntry _ _).after ?_
    | (fail_if_no_progress refine Kept.upd ?_ rfl rfl rfl)

theorem kept_completeLogged (s : State) (c : Ctx) (status : Nat) (jobId : Nat) (result : List Nat) : Kept s (State.completeLogged s c status jobId result) := by
  unfold State.completeLogged
  try dsimp only
  repeat' first
    | with_reducible exact Kept.refl _
    | split
    | with_reducible refine (kept_complete _ _ _ _ _).after ?_
    | (fail_if_no_progress refine Kept.upd ?_ rfl rfl rfl)

theorem kept_finishAt (s : State) (c : Ctx) (b : SI) (result : List Nat) : Kept s (State.finishAt s c b result) := by
  unfold State.finishAt
  try dsimp only
  repeat' first
    | with_reducible exact Kept.refl _
    | split
    | with_reducible refine (kept_change _ _ _ _ _ _).after ?_
    | with_reducible refine (kept_completeLogged _ _ _ _ _).after ?_
    | (fail_if_no_progress refine Kept.upd ?_ rfl rfl rfl)

theorem kept_finish (s : State) (c : Ctx) (result : List Nat) : Kept s (State.finish s c result) := by
  unfold State.finish
  try dsimp only
  repeat' first
    | with_reducible exact Kept.refl _
    | split
    | with_reducible refine (kept_finishAt _ _ _ _).after ?_
    | (fail_if_no_progress refine Kept.upd ?_ rfl rfl rfl)

theorem kept_cancelAt (s : State) (c : Option Ctx) (b : SI) : Kept s (State.cancelAt s c b) := by
  unfold State.cancelAt
  try dsimp only
  repeat' first
    | with_reducible exact Kept.refl _
    | split
    | with_reducible refine (kept_unreserve _ _).after ?_
    | with_reducible refine (kept_change _ _ _ _ _ _).after ?_
    | with_reducible refine (kept_completeLogged _ _ _ _ _).after ?_
    | (fail_if_no_progress refine Kept.upd ?_ rfl rfl rfl)

theorem kept_cancelDeferred (s : State) (c : Option Ctx) : Kept s (State.cancelDeferred s c) := by
  unfold State.cancelDeferred
  try dsimp only
  repeat' first
    | with_reducible exact Kept.refl _
    | split
    | with_reducible refine (kept_cancelAt _ _ _).after ?_
    | (fail_if_no_progress refine Kept.upd ?_ rfl rfl rfl)

theorem kept_answer (s : State) (c : Ctx) (result : List Nat) : Kept s (State.answer s c result) := by
  unfold State.answer
  try dsimp only
  repeat' first
    | with_reducible exact Kept.refl _
    | split
    | with_reducible refine (kept_complete _ _ _ _ _).after ?_
    | (fail_if_no_progress refine Kept.upd ?_ rfl rfl rfl)

theorem kept_modJob (s : State) (n : Nat) (f : Job → Job) : Kept s (State.modJob s n f) := by
  unfold State.modJob
  try dsimp only
  repeat' first
    | with_reducible exact Kept.refl _
    | split
    | (fail_if_no_progress refine Kept.upd ?_ rfl rfl rfl)

theorem kept_startJob (s : State) (c : Ctx) (st : JobState) (extra : Nat) : Kept s (State.startJob s c st extra) := by
  unfold State.startJob
  try dsimp only
  repeat' first
    | with_reducible exact Kept.refl _
    | split
    | with_reducible refine (kept_change _ _ _ _ _ _).after ?_
    | with_reducible refine (kept_reserve _ _).after ?_
    | with_reducible refine (kept_complete _ _ _ _ _).after ?_
    | (fail_if_no_progress refine Kept.upd ?_ rfl rfl rfl)

theorem kept_endJob (s : State) (n : Nat) (st : JobState) (result : List Nat) : Kept s (State.endJob s n st result) := by
  unfold State.endJob
  try dsimp only
  repeat' first
    | with_reducible exact Kept.refl _
    | split
    | with_reducible refine (kept_raise _ _).after ?_
    | with_reducible refine (kept_change _ _ _ _ _ _).after ?_
    | with_reducible refine (kept_unreserve _ _).after ?_
    | with_reducible refine (kept_complete _ _ _ _ _).after ?_
    | with_reducible refine (kept_finish _ _ _).after ?_
    | with_reducible refine (kept_completeLogged _ _ _ _ _).after ?_
    | (with_reducible refine (Kept.foldl _ ?_ _ _).after ?_; focus intro _ _)
    | (fail_if_no_progress refine Kept.upd ?_ rfl rfl rfl)

theorem kept_modStream (s : State) (n : Nat) (f : Stream → Stream) : Kept s (State.modStream s n f) := by
  unfold State.modStream
  try dsimp only
  repeat' first
    | with_reducible exact Kept.refl _
    | split
    | (fail_if_no_progress refine Kept.upd ?_ rfl rfl rfl)

theorem kept_setDrbg (s : State) (d : Drbg) : Kept s (State.setDrbg s d) := by
  unfold State.setDrbg
  try dsimp only
  repeat' first
    | with_reducible exact Kept.refl _
    | split
    | (fail_if_no_progress refine Kept.upd ?_ rfl rfl rfl)

theorem kept_reseed (s : State) : Kept s (State.reseed s) := by
  unfold State.reseed
  try dsimp only
  repeat' first
    | with_reducible exact Kept.refl _
    | split
    | with_reducible refine (kept_tick _).after ?_
    | with_reducible refine (kept_setDrbg _ _).after ?_
    | (fail_if_no_progress refine Kept.upd ?_ rfl rfl rfl)

theorem kept_seeded (s : State) : Kept s (State.seeded s).2 := by
  unfold State.seeded
  try dsimp only
  repeat' first
    | with_reducible exact Kept.refl _
    | split
    | with_reducible refine (kept_tick _).after ?_
    | with_reducible refine (kept_reseed _).after ?_
    | (fail_if_no_progress refine Kept.upd ?_ rfl rfl rfl)

theorem kept_random (s : State) (n : Nat) : Kept s (State.random s n).2 := by
  unfold State.random
  try dsimp only
  repeat' first
    | with_reducible exact Kept.refl _
    | split
    | with_reducible refine (kept_seeded _).after ?_
    | with_reducible refine (kept_setDrbg _ _).after ?_
    | refine Kept.ofPair (by assumption) ?_
    | (fail_if_no_progress refine Kept.upd ?_ rfl rfl rfl)

theorem kept_scalar (tries : Nat) (s : State) : Kept s (State.scalar tries s).2 := by
  induction tries generalizing s with
  | zero => exact Kept.refl _
  | succ k ih =>
  unfold State.scalar
  try dsimp only
  repeat' first
    | with_reducible refine (ih _).after ?_
    | with_reducible exact Kept.refl _
    | split
    | with_reducible refine (kept_random _ _).after ?_
    | refine Kept.ofPair (by assumption) ?_
    | (fail_if_no_progress refine Kept.upd ?_ rfl rfl rfl)

theorem kept_ecdsaSign (tries : Nat) (s : State) (d : BitVec 256) (msg : List Byte) : Kept s (State.ecdsaSign tries s d msg).2 := by
  induction tries generalizing s with
  | zero => exact Kept.refl _
  | succ k ih =>
  unfold State.ecdsaSign
  try dsimp only
  repeat' first
    | with_reducible refine (ih _).after ?_
    | with_reducible exact Kept.refl _
    | split
    | with_reducible refine (kept_scalar _ _).after ?_
    | refine Kept.ofPair (by assumption) ?_
    | (fail_if_no_progress refine Kept.upd ?_ rfl rfl rfl)

theorem kept_signature (s : State) (d : BitVec 256) (msg : List Byte) : Kept s (State.signature s d msg).2 := by
  unfold State.signature
  try dsimp only
  repeat' first
    | with_reducible exact Kept.refl _
    | split
    | with_reducible refine (kept_ecdsaSign _ _ _ _).after ?_
    | (fail_if_no_progress refine Kept.upd ?_ rfl rfl rfl)

theorem kept_dropRetired (s : State) : Kept s (State.dropRetired s) := by
  unfold State.dropRetired
  try dsimp only
  repeat' first
    | with_reducible exact Kept.refl _
    | split
    | (fail_if_no_progress refine Kept.upd ?_ rfl rfl rfl)

theorem kept_signAs (s : State) (n : Nat) (esk : Nat) : Kept s (State.signAs s n esk) := by
  unfold State.signAs
  try dsimp only
  repeat' first
    | with_reducible exact Kept.refl _
    | split
    | with_reducible refine (kept_modBob _ _ _).after ?_
    | with_reducible refine (kept_modStream _ _ _).after ?_
    | with_reducible refine (kept_signature _ _ _).after ?_
    | with_reducible refine (kept_dropRetired _).after ?_
    | refine Kept.ofPair (by assumption) ?_
    | (fail_if_no_progress refine Kept.upd ?_ rfl rfl rfl)

theorem kept_sign (s : State) (n : Nat) : Kept s (State.sign s n) := by
  unfold State.sign
  try dsimp only
  repeat' first
    | with_reducible exact Kept.refl _
    | split
    | with_reducible refine (kept_modStream _ _ _).after ?_
    | with_reducible refine (kept_signAs _ _ _).after ?_
    | (fail_if_no_progress refine Kept.upd ?_ rfl rfl rfl)

theorem kept_endStream (s : State) (n : Nat) : Kept s (State.endStream s n) := by
  unfold State.endStream
  try dsimp only
  repeat' first
    | with_reducible exact Kept.refl _
    | split
    | with_reducible refine (kept_modBob _ _ _).after ?_
    | with_reducible refine (kept_modStream _ _ _).after ?_
    | (fail_if_no_progress refine Kept.upd ?_ rfl rfl rfl)

theorem kept_createStream (s : State) (c : Ctx) : Kept s (State.createStream s c) := by
  unfold State.createStream
  try dsimp only
  repeat' first
    | with_reducible exact Kept.refl _
    | split
    | with_reducible refine (kept_modBob _ _ _).after ?_
    | with_reducible refine (kept_closeAt _ _ _).after ?_
    | with_reducible refine (kept_finish _ _ _).after ?_
    | (fail_if_no_progress refine Kept.upd ?_ rfl rfl rfl)

theorem kept_closeStream (s : State) (c : Ctx) : Kept s (State.closeStream s c) := by
  unfold State.closeStream
  try dsimp only
  repeat' first
    | with_reducible exact Kept.refl _
    | split
    | with_reducible refine (kept_closeAt _ _ _).after ?_
    | with_reducible refine (kept_finish _ _ _).after ?_
    | with_reducible refine (kept_modStream _ _ _).after ?_
    | (fail_if_no_progress refine Kept.upd ?_ rfl rfl rfl)

theorem kept_resumeCreate (s : State) (d : Option Ctx) : Kept s (State.resumeCreate s d) := by
  unfold State.resumeCreate
  try dsimp only
  repeat' first
    | with_reducible exact Kept.refl _
    | split
    | with_reducible refine (kept_unreserve _ _).after ?_
    | with_reducible refine (kept_complete _ _ _ _ _).after ?_
    | with_reducible refine (kept_createStream _ _).after ?_
    | (fail_if_no_progress refine Kept.upd ?_ rfl rfl rfl)

theorem kept_poisonRead (s : State) : Kept s (State.poisonRead s) := by
  unfold State.poisonRead
  try dsimp only
  repeat' first
    | with_reducible exact Kept.refl _
    | split
    | with_reducible refine (kept_raiseIf _ _ _).after ?_
    | (fail_if_no_progress refine Kept.upd ?_ rfl rfl rfl)

theorem kept_turnTo (s : State) (loc1 : Bool) (i : Nat) : Kept s (State.turnTo s loc1 i) := by
  unfold State.turnTo
  try dsimp only
  repeat' first
    | with_reducible exact Kept.refl _
    | split
    | (fail_if_no_progress refine Kept.upd ?_ rfl rfl rfl)

theorem kept_deliver (s : State) (i : Nat) (b : Bobbin) (x : QItem) (g : Seg) (bad : List Nat) : Kept s (State.deliver s i b x g bad) := by
  unfold State.deliver
  try dsimp only
  repeat' first
    | with_reducible exact Kept.refl _
    | split
    | with_reducible refine (kept_postBytes _ _ _).after ?_
    | with_reducible refine (kept_raiseIf _ _ _).after ?_
    | with_reducible refine (kept_modRegion _ _ _).after ?_
    | with_reducible refine (kept_bobOut _ _ _ _).after ?_
    | with_reducible refine (kept_retire _).after ?_
    | with_reducible refine (kept_modStream _ _ _).after ?_
    | with_reducible refine (kept_endStream _ _).after ?_
    | with_reducible refine (kept_resumeCreate _ _).after ?_
    | with_reducible refine (kept_dramWake _).after ?_
    | with_reducible refine (kept_turnTo _ _ _).after ?_
    | refine Kept.updMem ?_ rfl rfl (fun w => wf_storeRing _ _ _ _ _ w)
    | (fail_if_no_progress refine Kept.upd ?_ rfl rfl rfl)

theorem kept_deliverAll (s : State) (i : Nat) (x : QItem) (gs : List (Seg × List Nat)) : Kept s (State.deliverAll s i x gs) := by
  unfold State.deliverAll
  try dsimp only
  repeat' first
    | with_reducible exact Kept.refl _
    | split
    | with_reducible refine (kept_deliver _ _ _ _ _ _).after ?_
    | (with_reducible refine (Kept.foldl _ ?_ _ _).after ?_; focus intro _ _)
    | (fail_if_no_progress refine Kept.upd ?_ rfl rfl rfl)

theorem kept_passVisits (s : State) (loc1 : Bool) (i : Nat) (len : Nat) : Kept s (State.passVisits s loc1 i len) := by
  unfold State.passVisits
  try dsimp only
  repeat' first
    | with_reducible exact Kept.refl _
    | split
    | (fail_if_no_progress refine Kept.upd ?_ rfl rfl rfl)

theorem kept_rowSegmentDelivered (t : SI) (b : Fin 262144) (badWords : List Nat) (s : State) : Kept s (rowSegmentDelivered t b badWords s) := by
  unfold rowSegmentDelivered
  try dsimp only
  repeat' first
    | with_reducible exact Kept.refl _
    | split
    | with_reducible refine (kept_moment _ _).after ?_
    | with_reducible refine (kept_tick _).after ?_
    | with_reducible refine (kept_raiseIf _ _ _).after ?_
    | with_reducible refine (kept_modRegion _ _ _).after ?_
    | with_reducible refine (kept_modBob _ _ _).after ?_
    | with_reducible refine (kept_retire _).after ?_
    | with_reducible refine (kept_turnTo _ _ _).after ?_
    | with_reducible refine (kept_deliverAll _ _ _ _).after ?_
    | with_reducible refine (kept_passVisits _ _ _ _).after ?_
    | (fail_if_no_progress refine Kept.upd ?_ rfl rfl rfl)

theorem kept_execOweTimeout (t : SI) (b : Fin 262144) (seg : Nat) (s : State) : KeptO s (execOweTimeout t b seg s) := by
  unfold execOweTimeout
  try dsimp only
  repeat' first
    | with_reducible exact Kept.refl _
    | with_reducible refine KeptO.next ?_
    | split
    | with_reducible refine (kept_moment _ _).after ?_
    | with_reducible refine (kept_modBob _ _ _).after ?_
    | with_reducible refine (kept_retire _).after ?_
    | (fail_if_no_progress refine Kept.upd ?_ rfl rfl rfl)

theorem kept_modRank (s : State) (c : Nat) (k : Nat) (f : Rank → Rank) : Kept s (State.modRank s c k f) := by
  unfold State.modRank
  try dsimp only
  repeat' first
    | with_reducible exact Kept.refl _
    | split
    | (fail_if_no_progress refine Kept.upd ?_ rfl rfl rfl)

theorem kept_corrected (s : State) (c : Nat) (k : Nat) : Kept s (State.corrected s c k) := by
  unfold State.corrected
  try dsimp only
  repeat' first
    | with_reducible exact Kept.refl _
    | split
    | with_reducible refine (kept_raiseIf _ _ _).after ?_
    | with_reducible refine (kept_modRank _ _ _ _).after ?_
    | (fail_if_no_progress refine Kept.upd ?_ rfl rfl rfl)

theorem kept_startCopy (s : State) (j : Nat) (c : Nat) (k : Nat) : Kept s (State.startCopy s j c k) := by
  unfold State.startCopy
  try dsimp only
  repeat' first
    | with_reducible exact Kept.refl _
    | split
    | with_reducible refine (kept_raise _ _).after ?_
    | with_reducible refine (kept_raiseIf _ _ _).after ?_
    | with_reducible refine (kept_modRank _ _ _ _).after ?_
    | with_reducible refine (kept_dramWake _).after ?_
    | (fail_if_no_progress refine Kept.upd ?_ rfl rfl rfl)

theorem kept_startMigration (s : State) (c : Ctx) : Kept s (State.startMigration s c) := by
  unfold State.startMigration
  try dsimp only
  repeat' first
    | with_reducible exact Kept.refl _
    | split
    | with_reducible refine (kept_startJob _ _ _ _).after ?_
    | with_reducible refine (kept_startCopy _ _ _ _).after ?_
    | (fail_if_no_progress refine Kept.upd ?_ rfl rfl rfl)

theorem kept_degrade (s : State) (c : Nat) (k : Nat) : Kept s (State.degrade s c k) := by
  unfold State.degrade
  try dsimp only
  repeat' first
    | with_reducible exact Kept.refl _
    | split
    | with_reducible refine (kept_raise _ _).after ?_
    | with_reducible refine (kept_modRank _ _ _ _).after ?_
    | (fail_if_no_progress refine Kept.upd ?_ rfl rfl rfl)

theorem kept_spareFails (s : State) (m : Migration) : Kept s (State.spareFails s m) := by
  unfold State.spareFails
  try dsimp only
  repeat' first
    | with_reducible exact Kept.refl _
    | split
    | with_reducible refine (kept_endJob _ _ _ _).after ?_
    | with_reducible refine (kept_modRank _ _ _ _).after ?_
    | with_reducible refine (kept_degrade _ _ _).after ?_
    | (fail_if_no_progress refine Kept.upd ?_ rfl rfl rfl)

/-- So does the recorded address. -/
theorem mem_ueAddr (d : Dram) (u : Nat) : ({ d with ueAddr := u } : Dram).mem = d.mem := rfl

/-- A marked address leaves the DRAM bytes. -/
theorem kept_countUncorrectable (s : State) (c : Nat) (k : Nat) (a : Nat) : Kept s (State.countUncorrectable s c k a) := by
  unfold State.countUncorrectable
  try dsimp only
  repeat' first
    | with_reducible exact Kept.refl _
    | split
    | with_reducible refine (kept_raise _ _).after ?_
    | with_reducible refine (kept_modRank _ _ _ _).after ?_
    | refine Kept.upd ?_ rfl rfl ((mem_ueAddr _ _).trans (mem_mark _ _))
    | (fail_if_no_progress refine Kept.upd ?_ rfl rfl (by simp))
    | (fail_if_no_progress refine Kept.upd ?_ rfl rfl rfl)

theorem kept_uncorrectable (s : State) (c : Nat) (k : Nat) (a : Nat) : Kept s (State.uncorrectable s c k a) := by
  unfold State.uncorrectable
  try dsimp only
  repeat' first
    | with_reducible exact Kept.refl _
    | split
    | with_reducible refine (kept_raise _ _).after ?_
    | with_reducible refine (kept_modRank _ _ _ _).after ?_
    | with_reducible refine (kept_startMigration _ _).after ?_
    | with_reducible refine (kept_degrade _ _ _).after ?_
    | with_reducible refine (kept_spareFails _ _).after ?_
    | with_reducible refine (kept_countUncorrectable _ _ _ _).after ?_
    | (fail_if_no_progress refine Kept.upd ?_ rfl rfl rfl)

theorem kept_readFound (s : State) (kind : ReadKind) (c : Nat) (k : Nat) (a : Nat) : Kept s (State.readFound s kind c k a) := by
  unfold State.readFound
  try dsimp only
  repeat' first
    | with_reducible exact Kept.refl _
    | split
    | with_reducible refine (kept_corrected _ _ _).after ?_
    | with_reducible refine (kept_uncorrectable _ _ _ _).after ?_
    | (fail_if_no_progress refine Kept.upd ?_ rfl rfl rfl)

theorem kept_readSegment (s : State) (g : Seg) (r : SegRead) : Kept s (State.readSegment s g r).1 := by
  unfold State.readSegment
  try dsimp only
  repeat' first
    | with_reducible exact Kept.refl _
    | split
    | with_reducible refine (kept_dramWake _).after ?_
    | with_reducible refine (kept_readFound _ _ _ _ _).after ?_
    | (fail_if_no_progress refine Kept.upd ?_ rfl rfl (by simp))
    | (fail_if_no_progress refine Kept.upd ?_ rfl rfl rfl)

theorem kept_execBacklogSegmentRead (t : SI) (b : Fin 262144) (read : SegRead) (s : State) : KeptO s (execBacklogSegmentRead t b read s) := by
  unfold execBacklogSegmentRead
  try dsimp only
  repeat' first
    | with_reducible exact Kept.refl _
    | with_reducible refine KeptO.next ?_
    | split
    | with_reducible refine (kept_moment _ _).after ?_
    | with_reducible refine (kept_modBob _ _ _).after ?_
    | with_reducible refine (kept_poisonRead _).after ?_
    | with_reducible refine (kept_corrected _ _ _).after ?_
    | with_reducible refine (kept_uncorrectable _ _ _ _).after ?_
    | with_reducible refine (kept_readSegment _ _ _).after ?_
    | refine Kept.ofPair (by assumption) ?_
    | (fail_if_no_progress refine Kept.upd ?_ rfl rfl rfl)

theorem kept_rowSegmentHashComplete (t : SI) (stream : Fin 4096) (s : State) : Kept s (rowSegmentHashComplete t stream s) := by
  unfold rowSegmentHashComplete
  try dsimp only
  repeat' first
    | with_reducible exact Kept.refl _
    | split
    | with_reducible refine (kept_moment _ _).after ?_
    | with_reducible refine (kept_modStream _ _ _).after ?_
    | with_reducible refine (kept_sign _ _).after ?_
    | with_reducible refine (kept_endStream _ _).after ?_
    | with_reducible refine (kept_resumeCreate _ _).after ?_
    | with_reducible refine (kept_signAs _ _ _).after ?_
    | (fail_if_no_progress refine Kept.upd ?_ rfl rfl rfl)

theorem kept_execSignatureIntervalExpiry (t : SI) (stream : Fin 4096) (s : State) : KeptO s (execSignatureIntervalExpiry t stream s) := by
  unfold execSignatureIntervalExpiry
  try dsimp only
  repeat' first
    | with_reducible exact Kept.refl _
    | with_reducible refine KeptO.next ?_
    | split
    | with_reducible refine (kept_moment _ _).after ?_
    | with_reducible refine (kept_sign _ _).after ?_
    | (fail_if_no_progress refine Kept.upd ?_ rfl rfl rfl)

/-- What an opcode's row does keeps what every command keeps. -/
structure OpSpec.Keeps (o : OpSpec) : Prop where
  effect : ∀ c s, Kept s (o.effect c s)
  hold : ∀ c s, Kept s (o.hold c s)
  announce : ∀ p s, Kept s (o.announce p s)

theorem kept_OpSpec_carry (o : OpSpec) (c : Ctx) (s : State) (ho : o.Keeps) : Kept s (OpSpec.carry o c s) := by
  unfold OpSpec.carry
  try dsimp only
  repeat' first
    | with_reducible exact Kept.refl _
    | split
    | with_reducible refine (kept_reserve _ _).after ?_
    | with_reducible refine (kept_complete _ _ _ _ _).after ?_
    | refine (ho.hold _ _).after ?_
    | refine (ho.effect _ _).after ?_
    | (fail_if_no_progress refine Kept.upd ?_ rfl rfl rfl)

theorem kept_countLogFull (s : State) : Kept s (State.countLogFull s) := by
  unfold State.countLogFull
  try dsimp only
  repeat' first
    | with_reducible exact Kept.refl _
    | split
    | with_reducible refine (kept_raise _ _).after ?_
    | (fail_if_no_progress refine Kept.upd ?_ rfl rfl rfl)

theorem kept_refuse (s : State) (c : Ctx) (st : Nat) (words : List Nat) : Kept s (State.refuse s c st words) := by
  unfold State.refuse
  try dsimp only
  repeat' first
    | with_reducible exact Kept.refl _
    | split
    | with_reducible refine (kept_modRing _ _ _).after ?_
    | with_reducible refine (kept_complete _ _ _ _ _).after ?_
    | with_reducible refine (kept_countLogFull _).after ?_
    | (fail_if_no_progress refine Kept.upd ?_ rfl rfl rfl)

theorem kept_schedFail (s : State) : Kept s (State.schedFail s) := by
  unfold State.schedFail
  try dsimp only
  repeat' first
    | with_reducible exact Kept.refl _
    | split
    | with_reducible refine (kept_raise _ _).after ?_
    | (fail_if_no_progress refine Kept.upd ?_ rfl rfl rfl)

theorem kept_schedLate (s : State) : Kept s (State.schedLate s) := by
  unfold State.schedLate
  try dsimp only
  repeat' first
    | with_reducible exact Kept.refl _
    | split
    | with_reducible refine (kept_raise _ _).after ?_
    | (fail_if_no_progress refine Kept.upd ?_ rfl rfl rfl)

theorem kept_again (s : State) (o : OpSpec) (e : SchedEntry) (p : Packet) (casLate : Bool) (ho : o.Keeps) : Kept s (State.again s o e p casLate) := by
  unfold State.again
  try dsimp only
  repeat' first
    | with_reducible exact Kept.refl _
    | split
    | with_reducible refine (kept_schedFail _).after ?_
    | refine (ho.announce _ _).after ?_
    | (fail_if_no_progress refine Kept.upd ?_ rfl rfl rfl)

theorem kept_executeEntry (s : State) (o : OpSpec) (k : Nat) (e : SchedEntry) (late : Bool) (b : SI) (ho : o.Keeps) : Kept s (State.executeEntry s o k e late b) := by
  unfold State.executeEntry
  try dsimp only
  repeat' first
    | with_reducible exact Kept.refl _
    | split
    | with_reducible refine (kept_change _ _ _ _ _ _).after ?_
    | with_reducible refine (kept_OpSpec_carry _ _ _ ho).after ?_
    | with_reducible refine (kept_schedFail _).after ?_
    | with_reducible refine (kept_schedLate _).after ?_
    | with_reducible refine (kept_again _ _ _ _ _ ho).after ?_
    | with_reducible refine (kept_countLogFull _).after ?_
    | with_reducible refine (kept_completeLogged _ _ _ _ _).after ?_
    | (fail_if_no_progress refine Kept.upd ?_ rfl rfl rfl)

theorem kept_scheduleEntry (s : State) (o : OpSpec) (c : Ctx) (p : Packet) (casLate : Bool) (ho : o.Keeps) : Kept s (State.scheduleEntry s o c p casLate) := by
  unfold State.scheduleEntry
  try dsimp only
  repeat' first
    | with_reducible exact Kept.refl _
    | split
    | with_reducible refine (kept_raise _ _).after ?_
    | with_reducible refine (kept_change _ _ _ _ _ _).after ?_
    | with_reducible refine (kept_modRing _ _ _).after ?_
    | with_reducible refine (kept_refuse _ _ _ _).after ?_
    | with_reducible refine (kept_executeEntry _ _ _ _ _ _ ho).after ?_
    | refine (ho.announce _ _).after ?_
    | (fail_if_no_progress refine Kept.upd ?_ rfl rfl rfl)

theorem kept_submit (s : State) (o : OpSpec) (p : Packet) (n : Nat) (ho : o.Keeps) : Kept s (State.submit s o p n) := by
  unfold State.submit
  try dsimp only
  repeat' first
    | with_reducible exact Kept.refl _
    | split
    | with_reducible refine (kept_modRing _ _ _).after ?_
    | with_reducible refine (kept_OpSpec_carry _ _ _ ho).after ?_
    | with_reducible refine (kept_refuse _ _ _ _).after ?_
    | with_reducible refine (kept_scheduleEntry _ _ _ _ _ ho).after ?_
    | with_reducible refine (kept_raiseIf _ _ _).after ?_
    | (fail_if_no_progress refine Kept.upd ?_ rfl rfl rfl)

theorem kept_swapRefuse (s : State) (c : Ctx) : Kept s (State.swapRefuse s c) := by
  unfold State.swapRefuse
  try dsimp only
  repeat' first
    | with_reducible exact Kept.refl _
    | split
    | with_reducible refine (kept_complete _ _ _ _ _).after ?_
    | (fail_if_no_progress refine Kept.upd ?_ rfl rfl rfl)

theorem kept_receive (s : State) (o : OpSpec) (p : Packet) (ho : o.Keeps) : Kept s (State.receive s o p) := by
  unfold State.receive
  try dsimp only
  repeat' first
    | with_reducible exact Kept.refl _
    | split
    | with_reducible refine (kept_modRing _ _ _).after ?_
    | with_reducible refine (kept_submit _ _ _ _ ho).after ?_
    | with_reducible refine (kept_swapRefuse _ _).after ?_
    | (fail_if_no_progress refine Kept.upd ?_ rfl rfl rfl)

theorem kept_simply (f : List Byte → State → State) (c : Ctx) (s : State) (hf : ∀ p s, Kept s (f p s)) : Kept s (simply f c s) := by
  unfold simply
  try dsimp only
  repeat' first
    | with_reducible exact Kept.refl _
    | split
    | with_reducible refine (kept_finish _ _ _).after ?_
    | refine (hf _ _).after ?_
    | (fail_if_no_progress refine Kept.upd ?_ rfl rfl rfl)

end Sys2Proof.Machine
end

