-- ==== Sys2Proof/Laws/KeptFront.lean ====
section
/-! SUPPORT. Housekeeping, pins, windows, links, station time, cells and taps: one lemma per operation, that it keeps the queue, the order of time and the form of the DRAM bytes. -/

set_option linter.unusedTactic false
set_option linter.unreachableTactic false
set_option linter.unusedVariables false

namespace Sys2Proof.Machine

theorem kept_retireSlice (s : State) (k : Nat) : Kept s (State.retireSlice s k) := by
  unfold State.retireSlice
  try dsimp only
  repeat' first
    | with_reducible exact Kept.refl _
    | split
    | with_reducible refine (kept_raise _ _).after ?_
    | with_reducible refine (kept_raiseIf _ _ _).after ?_
    | (fail_if_no_progress refine Kept.upd ?_ rfl rfl rfl)

theorem kept_hkIdle (s : State) : Kept s (State.hkIdle s) := by
  unfold State.hkIdle
  try dsimp only
  repeat' first
    | with_reducible exact Kept.refl _
    | split
    | (fail_if_no_progress refine Kept.upd ?_ rfl rfl rfl)

theorem kept_rotateSlices (s : State) (b : SI) : Kept s (State.rotateSlices s b) := by
  unfold State.rotateSlices
  try dsimp only
  repeat' first
    | with_reducible exact Kept.refl _
    | split
    | with_reducible refine (kept_raise _ _).after ?_
    | (fail_if_no_progress refine Kept.upd ?_ rfl rfl rfl)

theorem kept_beginEntry (s : State) (e : Nat) (b : SI) : Kept s (State.beginEntry s e b) := by
  unfold State.beginEntry
  try dsimp only
  repeat' first
    | with_reducible exact Kept.refl _
    | split
    | with_reducible refine (kept_rotateSlices _ _).after ?_
    | (fail_if_no_progress refine Kept.upd ?_ rfl rfl rfl)

theorem kept_startHk (s : State) (b : SI) : Kept s (State.startHk s b) := by
  unfold State.startHk
  try dsimp only
  repeat' first
    | with_reducible exact Kept.refl _
    | split
    | with_reducible refine (kept_beginEntry _ _ _).after ?_
    | (fail_if_no_progress refine Kept.upd ?_ rfl rfl rfl)

theorem kept_nextHk (s : State) (b : SI) : Kept s (State.nextHk s b) := by
  unfold State.nextHk
  try dsimp only
  repeat' first
    | with_reducible exact Kept.refl _
    | split
    | with_reducible refine (kept_hkIdle _).after ?_
    | with_reducible refine (kept_startHk _ _).after ?_
    | (fail_if_no_progress refine Kept.upd ?_ rfl rfl rfl)

theorem kept_triggerHk (s : State) (b : SI) : Kept s (State.triggerHk s b) := by
  unfold State.triggerHk
  try dsimp only
  repeat' first
    | with_reducible exact Kept.refl _
    | split
    | with_reducible refine (kept_raise _ _).after ?_
    | with_reducible refine (kept_startHk _ _).after ?_
    | (fail_if_no_progress refine Kept.upd ?_ rfl rfl rfl)

theorem kept_endEntry (s : State) (b : SI) : Kept s (State.endEntry s b) := by
  unfold State.endEntry
  try dsimp only
  repeat' first
    | with_reducible exact Kept.refl _
    | split
    | with_reducible refine (kept_raise _ _).after ?_
    | with_reducible refine (kept_beginEntry _ _ _).after ?_
    | with_reducible refine (kept_nextHk _ _).after ?_
    | (fail_if_no_progress refine Kept.upd ?_ rfl rfl rfl)

theorem kept_reportReading (s : State) (x : HkEntry) (si : SI) (v : Int) (ovr : Bool) (settle : Bool) : Kept s (State.reportReading s x si v ovr settle) := by
  unfold State.reportReading
  try dsimp only
  repeat' first
    | with_reducible exact Kept.refl _
    | split
    | with_reducible refine (kept_raiseIf _ _ _).after ?_
    | with_reducible refine (kept_place _ _ _).after ?_
    | (fail_if_no_progress refine Kept.upd ?_ rfl rfl rfl)

theorem kept_loseReading (s : State) (si : SI) : Kept s (State.loseReading s si) := by
  unfold State.loseReading
  try dsimp only
  repeat' first
    | with_reducible exact Kept.refl _
    | split
    | with_reducible refine (kept_seamLost _ _).after ?_
    | with_reducible refine (kept_place _ _ _).after ?_
    | (fail_if_no_progress refine Kept.upd ?_ rfl rfl rfl)

theorem kept_execHkReading (t : SI) (slice : Fin 3) (raw : Int) (lost : Bool) (s : State) : KeptO s (execHkReading t slice raw lost s) := by
  unfold execHkReading
  try dsimp only
  repeat' first
    | with_reducible exact Kept.refl _
    | with_reducible refine KeptO.next ?_
    | split
    | with_reducible refine (kept_moment _ _).after ?_
    | with_reducible refine (kept_endEntry _ _).after ?_
    | with_reducible refine (kept_reportReading _ _ _ _ _ _).after ?_
    | with_reducible refine (kept_loseReading _ _).after ?_
    | (fail_if_no_progress refine Kept.upd ?_ rfl rfl rfl)

theorem kept_execHkIntervalTrigger (t : SI) (s : State) : KeptO s (execHkIntervalTrigger t s) := by
  unfold execHkIntervalTrigger
  try dsimp only
  repeat' first
    | with_reducible exact Kept.refl _
    | with_reducible refine KeptO.next ?_
    | split
    | with_reducible refine (kept_moment _ _).after ?_
    | with_reducible refine (kept_triggerHk _ _).after ?_
    | (fail_if_no_progress refine Kept.upd ?_ rfl rfl rfl)

theorem kept_epochHk (s : State) : Kept s (State.epochHk s) := by
  unfold State.epochHk
  try dsimp only
  repeat' first
    | with_reducible exact Kept.refl _
    | split
    | with_reducible refine (kept_triggerHk _ _).after ?_
    | (fail_if_no_progress refine Kept.upd ?_ rfl rfl rfl)

theorem kept_execHkWake (t : SI) (s : State) : KeptO s (execHkWake t s) := by
  unfold execHkWake
  try dsimp only
  repeat' first
    | with_reducible exact Kept.refl _
    | with_reducible refine KeptO.next ?_
    | split
    | with_reducible refine (kept_moment _ _).after ?_
    | with_reducible refine (kept_startHk _ _).after ?_
    | (fail_if_no_progress refine Kept.upd ?_ rfl rfl rfl)

theorem kept_loadHk (s : State) (p : List Byte) (b : SI) : Kept s (State.loadHk s p b) := by
  unfold State.loadHk
  try dsimp only
  repeat' first
    | with_reducible exact Kept.refl _
    | split
    | with_reducible refine (kept_hkIdle _).after ?_
    | with_reducible refine (kept_triggerHk _ _).after ?_
    | (fail_if_no_progress refine Kept.upd ?_ rfl rfl rfl)

theorem kept_setHkSeq (p : List Byte) (s : State) : Kept s (setHkSeq p s) := by
  unfold setHkSeq
  try dsimp only
  repeat' first
    | with_reducible exact Kept.refl _
    | split
    | with_reducible refine (kept_triggerHk _ _).after ?_
    | with_reducible refine (kept_loadHk _ _ _).after ?_
    | (fail_if_no_progress refine Kept.upd ?_ rfl rfl rfl)

theorem kept_hkCalEffect (c : Ctx) (s : State) : Kept s (hkCalEffect c s) := by
  unfold hkCalEffect
  try dsimp only
  repeat' first
    | with_reducible exact Kept.refl _
    | split
    | with_reducible refine (kept_startJob _ _ _ _).after ?_
    | (fail_if_no_progress refine Kept.upd ?_ rfl rfl rfl)

theorem kept_endHkCal (s : State) : Kept s (State.endHkCal s) := by
  unfold State.endHkCal
  try dsimp only
  repeat' first
    | with_reducible exact Kept.refl _
    | split
    | with_reducible refine (kept_nextHk _ _).after ?_
    | (fail_if_no_progress refine Kept.upd ?_ rfl rfl rfl)

theorem kept_calPass (s : State) (requalify : Bool) (k : Nat) (pair : Nat) (zero : Int) (fullScale : Int) : Kept s (State.calPass s requalify k pair zero fullScale) := by
  unfold State.calPass
  try dsimp only
  repeat' first
    | with_reducible exact Kept.refl _
    | split
    | with_reducible refine (kept_retireSlice _ _).after ?_
    | (fail_if_no_progress refine Kept.upd ?_ rfl rfl rfl)

theorem kept_execHkCalPass (t : SI) (slice : Fin 3) (gain : Fin 5) (integ : Fin 6) (zero : Int) (fullScale : Int) (s : State) : KeptO s (execHkCalPass t slice gain integ zero fullScale s) := by
  unfold execHkCalPass
  try dsimp only
  repeat' first
    | with_reducible exact Kept.refl _
    | with_reducible refine KeptO.next ?_
    | split
    | with_reducible refine (kept_moment _ _).after ?_
    | with_reducible refine (kept_retireSlice _ _).after ?_
    | with_reducible refine (kept_calPass _ _ _ _ _ _).after ?_
    | (fail_if_no_progress refine Kept.upd ?_ rfl rfl rfl)

theorem kept_modOut (s : State) (n : Nat) (f : TrigOut → TrigOut) : Kept s (State.modOut s n f) := by
  unfold State.modOut
  try dsimp only
  repeat' first
    | with_reducible exact Kept.refl _
    | split
    | (fail_if_no_progress refine Kept.upd ?_ rfl rfl rfl)

theorem kept_pulse (s : State) (sel : Nat → TrigOut → Bool) (tack : FineTime) (now : SI) (baste : Option (Nat × Nat)) : Kept s (State.pulse s sel tack now baste) := by
  unfold State.pulse
  try dsimp only
  repeat' first
    | with_reducible exact Kept.refl _
    | split
    | with_reducible refine (kept_modOut _ _ _).after ?_
    | (with_reducible refine (Kept.foldl _ ?_ _ _).after ?_; focus intro _ _)
    | (fail_if_no_progress refine Kept.upd ?_ rfl rfl rfl)

theorem kept_resolvePins (s : State) (key : Nat × Nat) : Kept s (State.resolvePins s key) := by
  unfold State.resolvePins
  try dsimp only
  repeat' first
    | with_reducible exact Kept.refl _
    | split
    | with_reducible refine (kept_modOut _ _ _).after ?_
    | (with_reducible refine (Kept.foldl _ ?_ _ _).after ?_; focus intro _ _)
    | (fail_if_no_progress refine Kept.upd ?_ rfl rfl rfl)

theorem kept_unpickPin (s : State) (n : Nat) (key : Nat × Nat) : Kept s (State.unpickPin s n key) := by
  unfold State.unpickPin
  try dsimp only
  repeat' first
    | with_reducible exact Kept.refl _
    | split
    | with_reducible refine (kept_raise _ _).after ?_
    | with_reducible refine (kept_modOut _ _ _).after ?_
    | (fail_if_no_progress refine Kept.upd ?_ rfl rfl rfl)

theorem kept_unpickPins (s : State) (key : Nat × Nat) : Kept s (State.unpickPins s key) := by
  unfold State.unpickPins
  try dsimp only
  repeat' first
    | with_reducible exact Kept.refl _
    | split
    | with_reducible refine (kept_unpickPin _ _ _).after ?_
    | (with_reducible refine (Kept.foldl _ ?_ _ _).after ?_; focus intro _ _)
    | (fail_if_no_progress refine Kept.upd ?_ rfl rfl rfl)

theorem kept_quietPins (s : State) : Kept s (State.quietPins s) := by
  unfold State.quietPins
  try dsimp only
  repeat' first
    | with_reducible exact Kept.refl _
    | split
    | (fail_if_no_progress refine Kept.upd ?_ rfl rfl rfl)

theorem kept_assertPulse (s : State) (n : Nat) (d : DuePulse) (b : SI) : Kept s (State.assertPulse s n d b) := by
  unfold State.assertPulse
  try dsimp only
  repeat' first
    | with_reducible exact Kept.refl _
    | split
    | with_reducible refine (kept_post _ _).after ?_
    | with_reducible refine (kept_raise _ _).after ?_
    | with_reducible refine (kept_modOut _ _ _).after ?_
    | (fail_if_no_progress refine Kept.upd ?_ rfl rfl rfl)

theorem kept_execTrigOutAssert (t : SI) (pin : Fin 8) (s : State) : KeptO s (execTrigOutAssert t pin s) := by
  unfold execTrigOutAssert
  try dsimp only
  repeat' first
    | with_reducible exact Kept.refl _
    | with_reducible refine KeptO.next ?_
    | split
    | with_reducible refine (kept_moment _ _).after ?_
    | with_reducible refine (kept_modOut _ _ _).after ?_
    | with_reducible refine (kept_assertPulse _ _ _ _).after ?_
    | (with_reducible refine (Kept.foldl _ ?_ _ _).after ?_; focus intro _ _)
    | (fail_if_no_progress refine Kept.upd ?_ rfl rfl rfl)

theorem kept_execTrigOutPulseEnd (t : SI) (pin : Fin 8) (s : State) : KeptO s (execTrigOutPulseEnd t pin s) := by
  unfold execTrigOutPulseEnd
  try dsimp only
  repeat' first
    | with_reducible exact Kept.refl _
    | with_reducible refine KeptO.next ?_
    | split
    | with_reducible refine (kept_moment _ _).after ?_
    | with_reducible refine (kept_post _ _).after ?_
    | with_reducible refine (kept_modOut _ _ _).after ?_
    | (fail_if_no_progress refine Kept.upd ?_ rfl rfl rfl)

theorem kept_execCancelPattern (t : SI) (pin : Fin 8) (s : State) : KeptO s (execCancelPattern t pin s) := by
  unfold execCancelPattern
  try dsimp only
  repeat' first
    | with_reducible exact Kept.refl _
    | with_reducible refine KeptO.next ?_
    | split
    | with_reducible refine (kept_moment _ _).after ?_
    | with_reducible refine (kept_post _ _).after ?_
    | with_reducible refine (kept_raise _ _).after ?_
    | with_reducible refine (kept_raiseIf _ _ _).after ?_
    | with_reducible refine (kept_modOut _ _ _).after ?_
    | (fail_if_no_progress refine Kept.upd ?_ rfl rfl rfl)

theorem kept_modSlot (s : State) (w : Nat) (f : WSlot → WSlot) : Kept s (State.modSlot s w f) := by
  unfold State.modSlot
  try dsimp only
  repeat' first
    | with_reducible exact Kept.refl _
    | split
    | (fail_if_no_progress refine Kept.upd ?_ rfl rfl rfl)

theorem kept_openSlot (s : State) (k : Nat) (w : WSlot) (runB : SI) : Kept s (State.openSlot s k w runB) := by
  unfold State.openSlot
  try dsimp only
  repeat' first
    | with_reducible exact Kept.refl _
    | split
    | with_reducible refine (kept_raiseIf _ _ _).after ?_
    | (with_reducible refine (Kept.foldl _ ?_ _ _).after ?_; focus intro _ _)
    | (fail_if_no_progress refine Kept.upd ?_ rfl rfl rfl)

theorem kept_refuseWindow (s : State) (policy : Nat) (r : TackRef) (reason : Nat) : Kept s (State.refuseWindow s policy r reason) := by
  unfold State.refuseWindow
  try dsimp only
  repeat' first
    | with_reducible exact Kept.refl _
    | split
    | with_reducible refine (kept_raise _ _).after ?_
    | with_reducible refine (kept_place _ _ _).after ?_
    | (fail_if_no_progress refine Kept.upd ?_ rfl rfl rfl)

theorem kept_requestWindow (s : State) (policy : Nat) (r : TackRef) : Kept s (State.requestWindow s policy r) := by
  unfold State.requestWindow
  try dsimp only
  repeat' first
    | with_reducible exact Kept.refl _
    | split
    | with_reducible refine (kept_post _ _).after ?_
    | with_reducible refine (kept_modSlot _ _ _).after ?_
    | with_reducible refine (kept_openSlot _ _ _ _).after ?_
    | with_reducible refine (kept_refuseWindow _ _ _ _).after ?_
    | (fail_if_no_progress refine Kept.upd ?_ rfl rfl rfl)

theorem kept_reserveWindow (s : State) (policy : Nat) (t : SI) : Kept s (State.reserveWindow s policy t).1 := by
  unfold State.reserveWindow
  try dsimp only
  repeat' first
    | with_reducible exact Kept.refl _
    | split
    | with_reducible refine (kept_post _ _).after ?_
    | (fail_if_no_progress refine Kept.upd ?_ rfl rfl rfl)

theorem kept_releaseWindow (s : State) (slot : Option Nat) : Kept s (State.releaseWindow s slot) := by
  unfold State.releaseWindow
  try dsimp only
  repeat' first
    | with_reducible exact Kept.refl _
    | split
    | (fail_if_no_progress refine Kept.upd ?_ rfl rfl rfl)

theorem kept_openReserved (s : State) (k : Nat) (r : TackRef) : Kept s (State.openReserved s k r) := by
  unfold State.openReserved
  try dsimp only
  repeat' first
    | with_reducible exact Kept.refl _
    | split
    | with_reducible refine (kept_openSlot _ _ _ _).after ?_
    | (fail_if_no_progress refine Kept.upd ?_ rfl rfl rfl)

theorem kept_emitPiece (s : State) (g : Seg) : Kept s (State.emitPiece s g) := by
  unfold State.emitPiece
  try dsimp only
  repeat' first
    | with_reducible exact Kept.refl _
    | split
    | with_reducible refine (kept_modBob _ _ _).after ?_
    | (with_reducible refine (Kept.foldl _ ?_ _ _).after ?_; focus intro _ _)
    | (fail_if_no_progress refine Kept.upd ?_ rfl rfl rfl)

theorem kept_emitWindow (s : State) (g : Seg) : Kept s (State.emitWindow s g) := by
  unfold State.emitWindow
  try dsimp only
  repeat' first
    | with_reducible exact Kept.refl _
    | split
    | with_reducible refine (kept_emitPiece _ _).after ?_
    | (with_reducible refine (Kept.foldl _ ?_ _ _).after ?_; focus intro _ _)
    | (fail_if_no_progress refine Kept.upd ?_ rfl rfl rfl)

theorem kept_rowWindowSegmentRead (t : SI) (slot : Fin 64) (part : Fin 16) (read : SegRead) (s : State) : Kept s (rowWindowSegmentRead t slot part read s) := by
  unfold rowWindowSegmentRead
  extract_lets s1
  have h1 : Kept s s1 := kept_moment s t
  clear_value s1
  split
  · exact h1
  · split
    · exact h1
    · split
      · exact h1
      · extract_lets head headSeg found kind lost marred gone goneSeg body words s2 s3 s4 s5 s6
        clear_value head headSeg found kind lost marred gone goneSeg body words
        split
        · exact h1
        · split
          · exact (kept_modSlot _ _ _).after h1
          · refine (kept_modSlot _ _ _).after ?_
            have h2 : Kept s s2 := by
              show Kept s (match found with | some g => _ | none => _)
              split
              · exact (kept_readSegment _ _ _).after h1
              · exact h1
            have h3 : Kept s s3 := by
              show Kept s (if _ then _ else _)
              split
              · exact h2
              · exact (kept_emitWindow _ _).after h2
            have h4 : Kept s s4 := by
              show Kept s (if _ then _ else _)
              split
              · exact h3
              · exact (kept_emitWindow _ _).after h3
            have h5 : Kept s s5 := by
              show Kept s (if _ then _ else _)
              split
              · exact (kept_tick _).after h4
              · exact (kept_tick _).after ((kept_emitWindow _ _).after h4)
            show Kept s (if _ then _ else _)
            split
            · exact (kept_poisonRead _).after h5
            · exact h5

theorem kept_closeWindow (s : State) (k : Nat) (w : WSlot) (cancelled : Bool) : Kept s (State.closeWindow s k w cancelled) := by
  unfold State.closeWindow
  try dsimp only
  repeat' first
    | with_reducible exact Kept.refl _
    | split
    | with_reducible refine (kept_emitWindow _ _).after ?_
    | (fail_if_no_progress refine Kept.upd ?_ rfl rfl rfl)

theorem kept_rowWindowClose (t : SI) (slot : Fin 64) (s : State) : Kept s (rowWindowClose t slot s) := by
  unfold rowWindowClose
  try dsimp only
  repeat' first
    | with_reducible exact Kept.refl _
    | split
    | with_reducible refine (kept_moment _ _).after ?_
    | with_reducible refine (kept_endJob _ _ _ _).after ?_
    | with_reducible refine (kept_closeWindow _ _ _ _).after ?_
    | (fail_if_no_progress refine Kept.upd ?_ rfl rfl rfl)

theorem kept_modPort (s : State) (n : Nat) (f : Port → Port) : Kept s (State.modPort s n f) := by
  unfold State.modPort
  try dsimp only
  repeat' first
    | with_reducible exact Kept.refl _
    | split
    | (fail_if_no_progress refine Kept.upd ?_ rfl rfl rfl)

theorem kept_sendIdle (s : State) (n : Nat) : Kept s (State.sendIdle s n) := by
  unfold State.sendIdle
  try dsimp only
  repeat' first
    | with_reducible exact Kept.refl _
    | split
    | with_reducible refine (kept_modPort _ _ _).after ?_
    | with_reducible refine (kept_post _ _).after ?_
    | (fail_if_no_progress refine Kept.upd ?_ rfl rfl rfl)

theorem kept_putBlocks (s : State) (n : Nat) (x : Posted) : Kept s (State.putBlocks s n x) := by
  unfold State.putBlocks
  try dsimp only
  repeat' first
    | with_reducible exact Kept.refl _
    | split
    | with_reducible refine (kept_modPort _ _ _).after ?_
    | with_reducible refine (kept_post _ _).after ?_
    | with_reducible refine (kept_sendIdle _ _).after ?_
    | (fail_if_no_progress refine Kept.upd ?_ rfl rfl rfl)

theorem kept_transmit (s : State) (n : Nat) (type : Nat) (m : CasMsg) : Kept s (State.transmit s n type m) := by
  unfold State.transmit
  try dsimp only
  repeat' first
    | with_reducible exact Kept.refl _
    | split
    | with_reducible refine (kept_putBlocks _ _ _).after ?_
    | (fail_if_no_progress refine Kept.upd ?_ rfl rfl rfl)

theorem kept_stampSent (s : State) (type : Nat) (m : CasMsg) : Kept s (State.stampSent s type m) := by
  unfold State.stampSent
  try dsimp only
  repeat' first
    | with_reducible exact Kept.refl _
    | split
    | (fail_if_no_progress refine Kept.upd ?_ rfl rfl rfl)

theorem kept_sendQueued (s : State) (n : Nat) (fuel : Nat) : Kept s (State.sendQueued s n fuel) := by
  induction fuel generalizing s with
  | zero => exact Kept.refl _
  | succ k ih =>
  unfold State.sendQueued
  try dsimp only
  repeat' first
    | with_reducible refine (ih _).after ?_
    | with_reducible exact Kept.refl _
    | split
    | with_reducible refine (kept_modPort _ _ _).after ?_
    | with_reducible refine (kept_transmit _ _ _ _).after ?_
    | with_reducible refine (kept_stampSent _ _ _).after ?_
    | (fail_if_no_progress refine Kept.upd ?_ rfl rfl rfl)

theorem kept_enqueue (s : State) (n : Nat) (type : Nat) (m : CasMsg) : Kept s (State.enqueue s n type m) := by
  unfold State.enqueue
  try dsimp only
  repeat' first
    | with_reducible exact Kept.refl _
    | split
    | with_reducible refine (kept_raise _ _).after ?_
    | with_reducible refine (kept_modPort _ _ _).after ?_
    | with_reducible refine (kept_sendQueued _ _ _).after ?_
    | (fail_if_no_progress refine Kept.upd ?_ rfl rfl rfl)

theorem kept_sendDown (s : State) (type : Nat) (m : CasMsg) : Kept s (State.sendDown s type m) := by
  unfold State.sendDown
  try dsimp only
  repeat' first
    | with_reducible exact Kept.refl _
    | split
    | with_reducible refine (kept_enqueue _ _ _ _).after ?_
    | (with_reducible refine (Kept.foldl _ ?_ _ _).after ?_; focus intro _ _)
    | (fail_if_no_progress refine Kept.upd ?_ rfl rfl rfl)

theorem kept_sendUp (s : State) (type : Nat) (m : CasMsg) : Kept s (State.sendUp s type m) := by
  unfold State.sendUp
  try dsimp only
  repeat' first
    | with_reducible exact Kept.refl _
    | split
    | with_reducible refine (kept_enqueue _ _ _ _).after ?_
    | (fail_if_no_progress refine Kept.upd ?_ rfl rfl rfl)

theorem kept_broadcast (s : State) (type : Nat) (m : CasMsg) : Kept s (State.broadcast s type m) := by
  unfold State.broadcast
  try dsimp only
  repeat' first
    | with_reducible exact Kept.refl _
    | split
    | with_reducible refine (kept_enqueue _ _ _ _).after ?_
    | (with_reducible refine (Kept.foldl _ ?_ _ _).after ?_; focus intro _ _)
    | (fail_if_no_progress refine Kept.upd ?_ rfl rfl rfl)

theorem kept_originate (s : State) (type : Nat) (m : CasMsg) : Kept s (State.originate s type m) := by
  unfold State.originate
  try dsimp only
  repeat' first
    | with_reducible exact Kept.refl _
    | split
    | with_reducible refine (kept_sendUp _ _ _).after ?_
    | with_reducible refine (kept_broadcast _ _ _).after ?_
    | (fail_if_no_progress refine Kept.upd ?_ rfl rfl rfl)

theorem kept_forward (s : State) (type : Nat) (m : CasMsg) : Kept s (State.forward s type m).1 := by
  unfold State.forward
  try dsimp only
  repeat' first
    | with_reducible exact Kept.refl _
    | split
    | with_reducible refine (kept_sendDown _ _ _).after ?_
    | with_reducible refine (kept_sendUp _ _ _).after ?_
    | with_reducible refine (kept_broadcast _ _ _).after ?_
    | (fail_if_no_progress refine Kept.upd ?_ rfl rfl rfl)

theorem kept_openPort (s : State) (n : Nat) (cause : Nat) : Kept s (State.openPort s n cause) := by
  unfold State.openPort
  try dsimp only
  repeat' first
    | with_reducible exact Kept.refl _
    | split
    | with_reducible refine (kept_raiseIf _ _ _).after ?_
    | with_reducible refine (kept_placeActive _ _).after ?_
    | with_reducible refine (kept_modPort _ _ _).after ?_
    | (fail_if_no_progress refine Kept.upd ?_ rfl rfl rfl)

theorem kept_closePort (s : State) (n : Nat) (cause : Nat) : Kept s (State.closePort s n cause) := by
  unfold State.closePort
  try dsimp only
  repeat' first
    | with_reducible exact Kept.refl _
    | split
    | with_reducible refine (kept_raise _ _).after ?_
    | with_reducible refine (kept_placeActive _ _).after ?_
    | with_reducible refine (kept_modPort _ _ _).after ?_
    | (fail_if_no_progress refine Kept.upd ?_ rfl rfl rfl)

theorem kept_unpickRemote (s : State) (r : RemoteBaste) (reason : Nat) (si : SI) : Kept s (State.unpickRemote s r reason si) := by
  unfold State.unpickRemote
  try dsimp only
  repeat' first
    | with_reducible exact Kept.refl _
    | split
    | with_reducible refine (kept_raise _ _).after ?_
    | with_reducible refine (kept_placeProvisional _ _).after ?_
    | with_reducible refine (kept_unpickPins _ _).after ?_
    | with_reducible refine (kept_releaseWindow _ _).after ?_
    | (fail_if_no_progress refine Kept.upd ?_ rfl rfl rfl)

theorem kept_dropRemote (s : State) : Kept s (State.dropRemote s) := by
  unfold State.dropRemote
  try dsimp only
  repeat' first
    | with_reducible exact Kept.refl _
    | split
    | with_reducible refine (kept_unpickRemote _ _ _ _).after ?_
    | (with_reducible refine (Kept.foldl _ ?_ _ _).after ?_; focus intro _ _)
    | (fail_if_no_progress refine Kept.upd ?_ rfl rfl rfl)

theorem kept_dropForwarded (s : State) (n : Nat) : Kept s (State.dropForwarded s n) := by
  unfold State.dropForwarded
  try dsimp only
  repeat' first
    | with_reducible exact Kept.refl _
    | split
    | with_reducible refine (kept_originate _ _ _).after ?_
    | (with_reducible refine (Kept.foldl _ ?_ _ _).after ?_; focus intro _ _)
    | (fail_if_no_progress refine Kept.upd ?_ rfl rfl rfl)

theorem kept_isolate (s : State) (n : Nat) (cause : Nat) : Kept s (State.isolate s n cause) := by
  unfold State.isolate
  try dsimp only
  repeat' first
    | with_reducible exact Kept.refl _
    | split
    | with_reducible refine (kept_sendDown _ _ _).after ?_
    | with_reducible refine (kept_openPort _ _ _).after ?_
    | with_reducible refine (kept_dropRemote _).after ?_
    | (fail_if_no_progress refine Kept.upd ?_ rfl rfl rfl)

theorem kept_setDepth (s : State) (d : Nat) : Kept s (State.setDepth s d) := by
  unfold State.setDepth
  try dsimp only
  repeat' first
    | with_reducible exact Kept.refl _
    | split
    | with_reducible refine (kept_modPort _ _ _).after ?_
    | with_reducible refine (kept_raiseIf _ _ _).after ?_
    | (with_reducible refine (Kept.foldl _ ?_ _ _).after ?_; focus intro _ _)
    | (fail_if_no_progress refine Kept.upd ?_ rfl rfl rfl)

theorem kept_portDown (s : State) (n : Nat) : Kept s (State.portDown s n) := by
  unfold State.portDown
  try dsimp only
  repeat' first
    | with_reducible exact Kept.refl _
    | split
    | with_reducible refine (kept_raise _ _).after ?_
    | with_reducible refine (kept_modPort _ _ _).after ?_
    | with_reducible refine (kept_openPort _ _ _).after ?_
    | with_reducible refine (kept_dropForwarded _ _).after ?_
    | with_reducible refine (kept_isolate _ _ _).after ?_
    | with_reducible refine (kept_setDepth _ _).after ?_
    | with_reducible refine (kept_raiseIf _ _ _).after ?_
    | (fail_if_no_progress refine Kept.upd ?_ rfl rfl rfl)

theorem kept_driveFault (s : State) : Kept s (State.driveFault s) := by
  unfold State.driveFault
  try dsimp only
  repeat' first
    | with_reducible exact Kept.refl _
    | split
    | with_reducible refine (kept_post _ _).after ?_
    | (fail_if_no_progress refine Kept.upd ?_ rfl rfl rfl)

theorem kept_gateOutputs (s : State) : Kept s (State.gateOutputs s) := by
  unfold State.gateOutputs
  try dsimp only
  repeat' first
    | with_reducible exact Kept.refl _
    | split
    | with_reducible refine (kept_post _ _).after ?_
    | (fail_if_no_progress refine Kept.upd ?_ rfl rfl rfl)

theorem kept_sendDoubt (s : State) (begins : Bool) : Kept s (State.sendDoubt s begins) := by
  unfold State.sendDoubt
  try dsimp only
  repeat' first
    | with_reducible exact Kept.refl _
    | split
    | with_reducible refine (kept_originate _ _ _).after ?_
    | (fail_if_no_progress refine Kept.upd ?_ rfl rfl rfl)

theorem kept_withdrawBastes (s : State) : Kept s (State.withdrawBastes s) := by
  unfold State.withdrawBastes
  try dsimp only
  repeat' first
    | with_reducible exact Kept.refl _
    | split
    | with_reducible refine (kept_sent _ _).after ?_
    | with_reducible refine (kept_originate _ _ _).after ?_
    | (with_reducible refine (Kept.foldl _ ?_ _ _).after ?_; focus intro _ _)
    | (fail_if_no_progress refine Kept.upd ?_ rfl rfl rfl)

theorem kept_beginCauseAt (s : State) (k : Nat) (si : SI) : Kept s (State.beginCauseAt s k si) := by
  unfold State.beginCauseAt
  try dsimp only
  repeat' first
    | with_reducible exact Kept.refl _
    | split
    | with_reducible refine (kept_raise _ _).after ?_
    | with_reducible refine (kept_placeActive _ _).after ?_
    | with_reducible refine (kept_quietPins _).after ?_
    | with_reducible refine (kept_driveFault _).after ?_
    | with_reducible refine (kept_gateOutputs _).after ?_
    | with_reducible refine (kept_sendDoubt _ _).after ?_
    | with_reducible refine (kept_withdrawBastes _).after ?_
    | (fail_if_no_progress refine Kept.upd ?_ rfl rfl rfl)

theorem kept_beginCause (s : State) (k : Nat) : Kept s (State.beginCause s k) := by
  unfold State.beginCause
  try dsimp only
  repeat' first
    | with_reducible exact Kept.refl _
    | split
    | with_reducible refine (kept_beginCauseAt _ _ _).after ?_
    | (fail_if_no_progress refine Kept.upd ?_ rfl rfl rfl)

theorem kept_forgetPulses (s : State) : Kept s (State.forgetPulses s) := by
  unfold State.forgetPulses
  try dsimp only
  repeat' first
    | with_reducible exact Kept.refl _
    | split
    | (fail_if_no_progress refine Kept.upd ?_ rfl rfl rfl)

theorem kept_endCauseAt (s : State) (k : Nat) (si : SI) : Kept s (State.endCauseAt s k si) := by
  unfold State.endCauseAt
  try dsimp only
  repeat' first
    | with_reducible exact Kept.refl _
    | split
    | with_reducible refine (kept_raise _ _).after ?_
    | with_reducible refine (kept_placeActive _ _).after ?_
    | with_reducible refine (kept_driveFault _).after ?_
    | with_reducible refine (kept_sendDoubt _ _).after ?_
    | with_reducible refine (kept_forgetPulses _).after ?_
    | (fail_if_no_progress refine Kept.upd ?_ rfl rfl rfl)

theorem kept_endCause (s : State) (k : Nat) : Kept s (State.endCause s k) := by
  unfold State.endCause
  try dsimp only
  repeat' first
    | with_reducible exact Kept.refl _
    | split
    | with_reducible refine (kept_endCauseAt _ _ _).after ?_
    | (fail_if_no_progress refine Kept.upd ?_ rfl rfl rfl)

/-- A label taken leaves SI. -/
theorem si_takeLabel (t : Time) (v : Int) : (t.takeLabel v).si = t.si := by unfold Time.takeLabel; split <;> rfl

/-- A label compared leaves SI. -/
theorem si_compareLabel (t : Time) (v : Int) : (t.compareLabel v).si = t.si := by unfold Time.compareLabel; split <;> rfl

theorem kept_retime (s : State) (f : Time → Time) (hf : ∀ t, (f t).si = t.si) : Kept s (State.retime s f) := by
  unfold State.retime
  try dsimp only
  repeat' first
    | with_reducible exact Kept.refl _
    | split
    | with_reducible refine (kept_raise _ _).after ?_
    | with_reducible refine (kept_gateOutputs _).after ?_
    | refine Kept.upd ?_ rfl (hf _) rfl
    | (fail_if_no_progress refine Kept.upd ?_ rfl rfl rfl)

theorem kept_checkUnc (s : State) : Kept s (State.checkUnc s) := by
  unfold State.checkUnc
  try dsimp only
  repeat' first
    | with_reducible exact Kept.refl _
    | split
    | with_reducible refine (kept_raiseIf _ _ _).after ?_
    | (fail_if_no_progress refine Kept.upd ?_ rfl rfl rfl)

theorem kept_cutSlew (s : State) (b : SI) : Kept s (State.cutSlew s b) := by
  unfold State.cutSlew
  try dsimp only
  repeat' first
    | with_reducible exact Kept.refl _
    | split
    | with_reducible refine (kept_raise _ _).after ?_
    | with_reducible refine (kept_placeActive _ _).after ?_
    | (fail_if_no_progress refine Kept.upd ?_ rfl rfl rfl)

theorem kept_loseReference (s : State) (b : SI) : Kept s (State.loseReference s b) := by
  unfold State.loseReference
  try dsimp only
  repeat' first
    | with_reducible exact Kept.refl _
    | split
    | with_reducible refine (kept_raise _ _).after ?_
    | with_reducible refine (kept_retime _ _ ?_).after ?_
    | with_reducible refine (kept_cutSlew _ _).after ?_
    | exact fun _ => rfl
    | (intro t; split <;> rfl)
    | (fail_if_no_progress refine Kept.upd ?_ rfl rfl rfl)

theorem kept_returnWith (s : State) (delta : Int) : Kept s (State.returnWith s delta) := by
  unfold State.returnWith
  try dsimp only
  repeat' first
    | with_reducible exact Kept.refl _
    | split
    | with_reducible refine (kept_raise _ _).after ?_
    | with_reducible refine (kept_placeActive _ _).after ?_
    | with_reducible refine (kept_retime _ _ ?_).after ?_
    | with_reducible refine (kept_cutSlew _ _).after ?_
    | exact fun _ => rfl
    | (intro t; split <;> rfl)
    | (fail_if_no_progress refine Kept.upd ?_ rfl rfl rfl)

theorem kept_loopAt (s : State) (l : LoopSet) : Kept s (State.loopAt s l) := by
  unfold State.loopAt
  try dsimp only
  repeat' first
    | with_reducible exact Kept.refl _
    | split
    | with_reducible refine (kept_tick _).after ?_
    | (fail_if_no_progress refine Kept.upd ?_ rfl rfl rfl)

theorem kept_loop (s : State) (fine : Nat) : Kept s (State.loop s fine) := by
  unfold State.loop
  try dsimp only
  repeat' first
    | with_reducible exact Kept.refl _
    | split
    | with_reducible refine (kept_loopAt _ _).after ?_
    | (fail_if_no_progress refine Kept.upd ?_ rfl rfl rfl)

theorem kept_acceptPulse (s : State) (fine : Nat) (spaced : Bool) : Kept s (State.acceptPulse s fine spaced) := by
  unfold State.acceptPulse
  try dsimp only
  repeat' first
    | with_reducible exact Kept.refl _
    | split
    | with_reducible refine (kept_retime _ _ ?_).after ?_
    | with_reducible refine (kept_returnWith _ _).after ?_
    | with_reducible refine (kept_loop _ _).after ?_
    | with_reducible refine (kept_tick _).after ?_
    | exact fun _ => rfl
    | (intro t; split <;> rfl)
    | refine Kept.upd ?_ rfl (si_takeLabel _ _) rfl
    | refine Kept.upd ?_ rfl (si_compareLabel _ _) rfl
    | (fail_if_no_progress refine Kept.upd ?_ rfl rfl rfl)

theorem kept_newPhase (s : State) (fine : Nat) : Kept s (State.newPhase s fine) := by
  unfold State.newPhase
  try dsimp only
  repeat' first
    | with_reducible exact Kept.refl _
    | split
    | with_reducible refine (kept_returnWith _ _).after ?_
    | with_reducible refine (kept_loopAt _ _).after ?_
    | (fail_if_no_progress refine Kept.upd ?_ rfl rfl rfl)

theorem kept_execEpochInPulse (t : SI) (fine : Fin 64) (rising : Bool) (cycles : Nat) (lost : Bool) (s : State) : KeptO s (execEpochInPulse t fine rising cycles lost s) := by
  unfold execEpochInPulse
  try dsimp only
  repeat' first
    | with_reducible exact Kept.refl _
    | with_reducible refine KeptO.next ?_
    | split
    | with_reducible refine (kept_moment _ _).after ?_
    | with_reducible refine (kept_raise _ _).after ?_
    | with_reducible refine (kept_seamLost _ _).after ?_
    | with_reducible refine (kept_checkUnc _).after ?_
    | with_reducible refine (kept_acceptPulse _ _ _).after ?_
    | with_reducible refine (kept_newPhase _ _).after ?_
    | (fail_if_no_progress refine Kept.upd ?_ rfl rfl rfl)

theorem kept_execEpochInMiss (t : SI) (s : State) : KeptO s (execEpochInMiss t s) := by
  unfold execEpochInMiss
  try dsimp only
  repeat' first
    | with_reducible exact Kept.refl _
    | with_reducible refine KeptO.next ?_
    | split
    | with_reducible refine (kept_moment _ _).after ?_
    | with_reducible refine (kept_raise _ _).after ?_
    | with_reducible refine (kept_checkUnc _).after ?_
    | with_reducible refine (kept_loseReference _ _).after ?_
    | (fail_if_no_progress refine Kept.upd ?_ rfl rfl rfl)

theorem kept_loseClock (s : State) : Kept s (State.loseClock s) := by
  unfold State.loseClock
  try dsimp only
  repeat' first
    | with_reducible exact Kept.refl _
    | split
    | with_reducible refine (kept_loseReference _ _).after ?_
    | (fail_if_no_progress refine Kept.upd ?_ rfl rfl rfl)

theorem kept_loseSynth (s : State) : Kept s (State.loseSynth s) := by
  unfold State.loseSynth
  try dsimp only
  repeat' first
    | with_reducible exact Kept.refl _
    | split
    | with_reducible refine (kept_raise _ _).after ?_
    | with_reducible refine (kept_beginCauseAt _ _ _).after ?_
    | (fail_if_no_progress refine Kept.upd ?_ rfl rfl rfl)

theorem kept_modEngine (s : State) (n : Nat) (f : Engine → Engine) : Kept s (State.modEngine s n f) := by
  unfold State.modEngine
  try dsimp only
  repeat' first
    | with_reducible exact Kept.refl _
    | split
    | (fail_if_no_progress refine Kept.upd ?_ rfl rfl rfl)

theorem kept_messageDone (s : State) (n : Nat) (m : Msg) : Kept s (State.messageDone s n m) := by
  unfold State.messageDone
  try dsimp only
  repeat' first
    | with_reducible exact Kept.refl _
    | split
    | with_reducible refine (kept_raise _ _).after ?_
    | with_reducible refine (kept_raiseIf _ _ _).after ?_
    | with_reducible refine (kept_place _ _ _).after ?_
    | with_reducible refine (kept_modEngine _ _ _).after ?_
    | (fail_if_no_progress refine Kept.upd ?_ rfl rfl rfl)

theorem kept_frameSkipped (s : State) (n : Nat) (f : Nat) : Kept s (State.frameSkipped s n f) := by
  unfold State.frameSkipped
  try dsimp only
  repeat' first
    | with_reducible exact Kept.refl _
    | split
    | with_reducible refine (kept_raiseIf _ _ _).after ?_
    | with_reducible refine (kept_place _ _ _).after ?_
    | with_reducible refine (kept_modEngine _ _ _).after ?_
    | (fail_if_no_progress refine Kept.upd ?_ rfl rfl rfl)

theorem kept_harvestOf (s : State) (n : Nat) (e : Engine) : Kept s (State.harvestOf s n e) := by
  unfold State.harvestOf
  try dsimp only
  repeat' first
    | with_reducible exact Kept.refl _
    | split
    | with_reducible refine (kept_frameSkipped _ _ _).after ?_
    | with_reducible refine (kept_messageDone _ _ _).after ?_
    | with_reducible refine (kept_raiseIf _ _ _).after ?_
    | (with_reducible refine (Kept.foldl _ ?_ _ _).after ?_; focus intro _ _)
    | (fail_if_no_progress refine Kept.upd ?_ rfl rfl rfl)

theorem kept_harvest (s : State) (n : Nat) : Kept s (State.harvest s n) := by
  unfold State.harvest
  try dsimp only
  repeat' first
    | with_reducible exact Kept.refl _
    | split
    | with_reducible refine (kept_modEngine _ _ _).after ?_
    | with_reducible refine (kept_harvestOf _ _ _).after ?_
    | (with_reducible refine (Kept.foldl _ ?_ _ _).after ?_; focus intro _ _)
    | (fail_if_no_progress refine Kept.upd ?_ rfl rfl rfl)

theorem kept_advanceEngine (s : State) (n : Nat) (h : FineTime) : Kept s (State.advanceEngine s n h) := by
  unfold State.advanceEngine
  try dsimp only
  repeat' first
    | with_reducible exact Kept.refl _
    | split
    | with_reducible refine (kept_modEngine _ _ _).after ?_
    | with_reducible refine (kept_harvest _ _).after ?_
    | (fail_if_no_progress refine Kept.upd ?_ rfl rfl rfl)

theorem kept_abandon (s : State) (n : Nat) (b : SI) : Kept s (State.abandon s n b) := by
  unfold State.abandon
  try dsimp only
  repeat' first
    | with_reducible exact Kept.refl _
    | split
    | with_reducible refine (kept_modEngine _ _ _).after ?_
    | with_reducible refine (kept_finishAt _ _ _ _).after ?_
    | with_reducible refine (kept_harvest _ _).after ?_
    | with_reducible refine (kept_raiseIf _ _ _).after ?_
    | (fail_if_no_progress refine Kept.upd ?_ rfl rfl rfl)

theorem kept_cutEngine (s : State) (n : Nat) (b : SI) : Kept s (State.cutEngine s n b) := by
  unfold State.cutEngine
  try dsimp only
  repeat' first
    | with_reducible exact Kept.refl _
    | split
    | with_reducible refine (kept_modEngine _ _ _).after ?_
    | with_reducible refine (kept_raiseIf _ _ _).after ?_
    | (fail_if_no_progress refine Kept.upd ?_ rfl rfl rfl)

theorem kept_desync (s : State) (sel : Nat → Bool) (b : SI) : Kept s (State.desync s sel b) := by
  unfold State.desync
  try dsimp only
  repeat' first
    | with_reducible exact Kept.refl _
    | split
    | with_reducible refine (kept_cutEngine _ _ _).after ?_
    | (with_reducible refine (Kept.foldl _ ?_ _ _).after ?_; focus intro _ _)
    | (fail_if_no_progress refine Kept.upd ?_ rfl rfl rfl)

theorem kept_gateCells (s : State) : Kept s (State.gateCells s) := by
  unfold State.gateCells
  try dsimp only
  repeat' first
    | with_reducible exact Kept.refl _
    | split
    | with_reducible refine (kept_loseSynth _).after ?_
    | with_reducible refine (kept_desync _ _ _).after ?_
    | (fail_if_no_progress refine Kept.upd ?_ rfl rfl rfl)

theorem kept_loseStation (s : State) : Kept s (State.loseStation s) := by
  unfold State.loseStation
  try dsimp only
  repeat' first
    | with_reducible exact Kept.refl _
    | split
    | with_reducible refine (kept_loseClock _).after ?_
    | with_reducible refine (kept_gateCells _).after ?_
    | (fail_if_no_progress refine Kept.upd ?_ rfl rfl rfl)

theorem kept_execRefclkAbsent (t : SI) (s : State) : KeptO s (execRefclkAbsent t s) := by
  unfold execRefclkAbsent
  try dsimp only
  repeat' first
    | with_reducible exact Kept.refl _
    | with_reducible refine KeptO.next ?_
    | split
    | with_reducible refine (kept_moment _ _).after ?_
    | with_reducible refine (kept_checkUnc _).after ?_
    | with_reducible refine (kept_loseStation _).after ?_
    | (fail_if_no_progress refine Kept.upd ?_ rfl rfl rfl)

theorem kept_execRefFreqMeasurement (t : SI) (hz : Nat) (s : State) : KeptO s (execRefFreqMeasurement t hz s) := by
  unfold execRefFreqMeasurement
  try dsimp only
  repeat' first
    | with_reducible exact Kept.refl _
    | with_reducible refine KeptO.next ?_
    | split
    | with_reducible refine (kept_moment _ _).after ?_
    | with_reducible refine (kept_checkUnc _).after ?_
    | with_reducible refine (kept_loseStation _).after ?_
    | (fail_if_no_progress refine Kept.upd ?_ rfl rfl rfl)

theorem kept_execSlewEnd (t : SI) (s : State) : KeptO s (execSlewEnd t s) := by
  unfold execSlewEnd
  try dsimp only
  repeat' first
    | with_reducible exact Kept.refl _
    | with_reducible refine KeptO.next ?_
    | split
    | with_reducible refine (kept_moment _ _).after ?_
    | with_reducible refine (kept_raise _ _).after ?_
    | with_reducible refine (kept_placeActive _ _).after ?_
    | with_reducible refine (kept_retime _ _ ?_).after ?_
    | with_reducible refine (kept_checkUnc _).after ?_
    | exact fun _ => rfl
    | (intro t; split <;> rfl)
    | (fail_if_no_progress refine Kept.upd ?_ rfl rfl rfl)

theorem kept_applyStep (s : State) (p : PendingStep) (b : SI) : Kept s (State.applyStep s p b) := by
  unfold State.applyStep
  try dsimp only
  repeat' first
    | with_reducible exact Kept.refl _
    | split
    | with_reducible refine (kept_post _ _).after ?_
    | with_reducible refine (kept_raise _ _).after ?_
    | with_reducible refine (kept_placeActive _ _).after ?_
    | with_reducible refine (kept_retime _ _ ?_).after ?_
    | exact fun _ => rfl
    | (intro t; split <;> rfl)
    | (fail_if_no_progress refine Kept.upd ?_ rfl rfl rfl)

theorem si_looped (t : Time) (b : SI) : (t.looped b).si = t.si := by
  unfold Time.looped
  split
  · rfl
  · split <;> rfl

theorem kept_anchorSteps (s : State) (b : SI) : Kept s (State.anchorSteps s b) := by
  unfold State.anchorSteps
  extract_lets steps t1 tt1 s1 s2
  have h1 : Kept s s1 := Kept.upd (Kept.refl s) rfl rfl rfl
  have h2 : Kept s s2 := (Kept.foldl _ (fun _ _ => kept_applyStep _ _ _) _ _).after h1
  exact Kept.upd h2 rfl (si_looped _ _) rfl

theorem kept_putAnchor (s : State) (b : SI) (runStart : Bool) (runEnd : Bool) : Kept s (State.putAnchor s b runStart runEnd) := by
  unfold State.putAnchor
  try dsimp only
  repeat' first
    | with_reducible exact Kept.refl _
    | split
    | with_reducible refine (kept_placeActive _ _).after ?_
    | (fail_if_no_progress refine Kept.upd ?_ rfl rfl rfl)

theorem kept_slewAt (s : State) (b : SI) : Kept s (State.slewAt s b) := by
  unfold State.slewAt
  try dsimp only
  repeat' first
    | with_reducible exact Kept.refl _
    | split
    | with_reducible refine (kept_placeActive _ _).after ?_
    | (fail_if_no_progress refine Kept.upd ?_ rfl rfl rfl)

theorem kept_noteAnchor (s : State) (b : SI) : Kept s (State.noteAnchor s b) := by
  unfold State.noteAnchor
  try dsimp only
  repeat' first
    | with_reducible exact Kept.refl _
    | split
    | (fail_if_no_progress refine Kept.upd ?_ rfl rfl rfl)

theorem kept_anchorRecords (s : State) (b : SI) (runStart : Bool) : Kept s (State.anchorRecords s b runStart) := by
  unfold State.anchorRecords
  try dsimp only
  repeat' first
    | with_reducible exact Kept.refl _
    | split
    | with_reducible refine (kept_placeActive _ _).after ?_
    | with_reducible refine (kept_anchorSteps _ _).after ?_
    | with_reducible refine (kept_putAnchor _ _ _ _).after ?_
    | with_reducible refine (kept_slewAt _ _).after ?_
    | with_reducible refine (kept_noteAnchor _ _).after ?_
    | (with_reducible refine (Kept.foldl _ ?_ _ _).after ?_; focus intro _ _)
    | (fail_if_no_progress refine Kept.upd ?_ rfl rfl rfl)

theorem kept_requestTime (s : State) : Kept s (State.requestTime s) := by
  unfold State.requestTime
  try dsimp only
  repeat' first
    | with_reducible exact Kept.refl _
    | split
    | with_reducible refine (kept_enqueue _ _ _ _).after ?_
    | (fail_if_no_progress refine Kept.upd ?_ rfl rfl rfl)

theorem kept_epochOut (s : State) : Kept s (State.epochOut s) := by
  unfold State.epochOut
  try dsimp only
  repeat' first
    | with_reducible exact Kept.refl _
    | split
    | with_reducible refine (kept_post _ _).after ?_
    | (fail_if_no_progress refine Kept.upd ?_ rfl rfl rfl)

theorem kept_execEpochOutPulseEnd (t : SI) (s : State) : KeptO s (execEpochOutPulseEnd t s) := by
  unfold execEpochOutPulseEnd
  try dsimp only
  repeat' first
    | with_reducible exact Kept.refl _
    | with_reducible refine KeptO.next ?_
    | split
    | with_reducible refine (kept_moment _ _).after ?_
    | with_reducible refine (kept_post _ _).after ?_
    | (fail_if_no_progress refine Kept.upd ?_ rfl rfl rfl)

theorem kept_gatedRecord (s : State) (a : SI) (b : SI) : Kept s (State.gatedRecord s a b) := by
  unfold State.gatedRecord
  try dsimp only
  repeat' first
    | with_reducible exact Kept.refl _
    | split
    | with_reducible refine (kept_placeActive _ _).after ?_
    | (fail_if_no_progress refine Kept.upd ?_ rfl rfl rfl)

theorem kept_regainSynth (s : State) : Kept s (State.regainSynth s) := by
  unfold State.regainSynth
  try dsimp only
  repeat' first
    | with_reducible exact Kept.refl _
    | split
    | with_reducible refine (kept_raise _ _).after ?_
    | with_reducible refine (kept_endCauseAt _ _ _).after ?_
    | with_reducible refine (kept_gatedRecord _ _ _).after ?_
    | (fail_if_no_progress refine Kept.upd ?_ rfl rfl rfl)

theorem kept_answerTime (s : State) (n : Nat) (fine : Nat) : Kept s (State.answerTime s n fine) := by
  unfold State.answerTime
  try dsimp only
  repeat' first
    | with_reducible exact Kept.refl _
    | split
    | with_reducible refine (kept_tick _).after ?_
    | with_reducible refine (kept_enqueue _ _ _ _).after ?_
    | (fail_if_no_progress refine Kept.upd ?_ rfl rfl rfl)

theorem kept_childLoop (s : State) : Kept s (State.childLoop s) := by
  unfold State.childLoop
  try dsimp only
  repeat' first
    | with_reducible exact Kept.refl _
    | split
    | with_reducible refine (kept_loopAt _ _).after ?_
    | (fail_if_no_progress refine Kept.upd ?_ rfl rfl rfl)

theorem kept_steer (s : State) : Kept s (State.steer s) := by
  unfold State.steer
  try dsimp only
  repeat' first
    | with_reducible exact Kept.refl _
    | split
    | with_reducible refine (kept_retime _ _ ?_).after ?_
    | with_reducible refine (kept_returnWith _ _).after ?_
    | with_reducible refine (kept_childLoop _).after ?_
    | with_reducible refine (kept_tick _).after ?_
    | exact fun _ => rfl
    | (intro t; split <;> rfl)
    | (fail_if_no_progress refine Kept.upd ?_ rfl rfl rfl)

theorem kept_childTime (s : State) (m : TtMessage) : Kept s (State.childTime s m) := by
  unfold State.childTime
  try dsimp only
  repeat' first
    | with_reducible exact Kept.refl _
    | split
    | with_reducible refine (kept_raise _ _).after ?_
    | with_reducible refine (kept_retime _ _ ?_).after ?_
    | with_reducible refine (kept_loseReference _ _).after ?_
    | with_reducible refine (kept_steer _).after ?_
    | with_reducible refine (kept_sent _ _).after ?_
    | exact fun _ => rfl
    | (intro t; split <;> rfl)
    | (fail_if_no_progress refine Kept.upd ?_ rfl rfl rfl)

theorem kept_timeDelivered (s : State) (n : Nat) (m : TtMessage) : Kept s (State.timeDelivered s n m) := by
  unfold State.timeDelivered
  try dsimp only
  repeat' first
    | with_reducible exact Kept.refl _
    | split
    | with_reducible refine (kept_answerTime _ _ _).after ?_
    | with_reducible refine (kept_childTime _ _).after ?_
    | with_reducible refine (kept_checkUnc _).after ?_
    | (fail_if_no_progress refine Kept.upd ?_ rfl rfl rfl)

theorem kept_refuseMessage (s : State) (n : Nat) : Kept s (State.refuseMessage s n) := by
  unfold State.refuseMessage
  try dsimp only
  repeat' first
    | with_reducible exact Kept.refl _
    | split
    | with_reducible refine (kept_modPort _ _ _).after ?_
    | (fail_if_no_progress refine Kept.upd ?_ rfl rfl rfl)

theorem kept_announce (s : State) : Kept s (State.announce s) := by
  unfold State.announce
  try dsimp only
  repeat' first
    | with_reducible exact Kept.refl _
    | split
    | with_reducible refine (kept_sendIdle _ _).after ?_
    | (with_reducible refine (Kept.foldl _ ?_ _ _).after ?_; focus intro _ _)
    | (fail_if_no_progress refine Kept.upd ?_ rfl rfl rfl)

theorem kept_acceptSeq (s : State) (n : Nat) (seq : BitVec 8) : Kept s (State.acceptSeq s n seq).1 := by
  unfold State.acceptSeq
  try dsimp only
  repeat' first
    | with_reducible exact Kept.refl _
    | split
    | with_reducible refine (kept_refuseMessage _ _).after ?_
    | with_reducible refine (kept_modPort _ _ _).after ?_
    | with_reducible refine (kept_announce _).after ?_
    | (fail_if_no_progress refine Kept.upd ?_ rfl rfl rfl)

theorem kept_execTimeTransfer (t : SI) (port : Fin 16) (m : TtMessage) (s : State) : KeptO s (execTimeTransfer t port m s) := by
  unfold execTimeTransfer
  try dsimp only
  repeat' first
    | with_reducible exact Kept.refl _
    | with_reducible refine KeptO.next ?_
    | split
    | with_reducible refine (kept_moment _ _).after ?_
    | with_reducible refine (kept_timeDelivered _ _ _).after ?_
    | with_reducible refine (kept_acceptSeq _ _ _).after ?_
    | refine Kept.ofPair (by assumption) ?_
    | (fail_if_no_progress refine Kept.upd ?_ rfl rfl rfl)

theorem kept_resetReference (s : State) (b : SI) : Kept s (State.resetReference s b) := by
  unfold State.resetReference
  try dsimp only
  repeat' first
    | with_reducible exact Kept.refl _
    | split
    | with_reducible refine (kept_loseReference _ _).after ?_
    | (fail_if_no_progress refine Kept.upd ?_ rfl rfl rfl)

theorem kept_nominal (s : State) (b : SI) : Kept s (State.nominal s b) := by
  unfold State.nominal
  try dsimp only
  repeat' first
    | with_reducible exact Kept.refl _
    | split
    | (fail_if_no_progress refine Kept.upd ?_ rfl rfl rfl)

theorem kept_setRefTime (p : List Byte) (s : State) : Kept s (setRefTime p s) := by
  unfold setRefTime
  try dsimp only
  repeat' first
    | with_reducible exact Kept.refl _
    | split
    | with_reducible refine (kept_post _ _).after ?_
    | with_reducible refine (kept_retime _ _ ?_).after ?_
    | with_reducible refine (kept_resetReference _ _).after ?_
    | with_reducible refine (kept_nominal _ _).after ?_
    | exact fun _ => rfl
    | (intro t; split <;> rfl)
    | (fail_if_no_progress refine Kept.upd ?_ rfl rfl rfl)

theorem kept_setEpochTime (p : List Byte) (s : State) : Kept s (setEpochTime p s) := by
  unfold setEpochTime
  try dsimp only
  repeat' first
    | with_reducible exact Kept.refl _
    | split
    | with_reducible refine (kept_resetReference _ _).after ?_
    | with_reducible refine (kept_nominal _ _).after ?_
    | (fail_if_no_progress refine Kept.upd ?_ rfl rfl rfl)

theorem kept_setStTime (p : List Byte) (s : State) : Kept s (setStTime p s) := by
  unfold setStTime
  try dsimp only
  repeat' first
    | with_reducible exact Kept.refl _
    | split
    | (fail_if_no_progress refine Kept.upd ?_ rfl rfl rfl)

theorem kept_setReturnTime (p : List Byte) (s : State) : Kept s (setReturnTime p s) := by
  unfold setReturnTime
  try dsimp only
  repeat' first
    | with_reducible exact Kept.refl _
    | split
    | with_reducible refine (kept_checkUnc _).after ?_
    | (fail_if_no_progress refine Kept.upd ?_ rfl rfl rfl)

theorem kept_modCell (s : State) (c : Nat) (f : Cell → Cell) : Kept s (State.modCell s c f) := by
  unfold State.modCell
  try dsimp only
  repeat' first
    | with_reducible exact Kept.refl _
    | split
    | (fail_if_no_progress refine Kept.upd ?_ rfl rfl rfl)

theorem kept_placeCh (s : State) (c : Nat) (r : Rec) : Kept s (State.placeCh s c r) := by
  unfold State.placeCh
  try dsimp only
  repeat' first
    | with_reducible exact Kept.refl _
    | split
    | with_reducible refine (kept_place _ _ _).after ?_
    | (fail_if_no_progress refine Kept.upd ?_ rfl rfl rfl)

theorem kept_setDoubt (s : State) (c : Nat) (d : ChDoubt) (x : SI) : Kept s (State.setDoubt s c d x) := by
  unfold State.setDoubt
  try dsimp only
  repeat' first
    | with_reducible exact Kept.refl _
    | split
    | with_reducible refine (kept_modRegion _ _ _).after ?_
    | with_reducible refine (kept_modCell _ _ _).after ?_
    | with_reducible refine (kept_placeCh _ _ _).after ?_
    | (fail_if_no_progress refine Kept.upd ?_ rfl rfl rfl)

theorem kept_bracketDisable (s : State) (c : Nat) (x : SI) : Kept s (State.bracketDisable s c x) := by
  unfold State.bracketDisable
  try dsimp only
  repeat' first
    | with_reducible exact Kept.refl _
    | split
    | with_reducible refine (kept_modCell _ _ _).after ?_
    | with_reducible refine (kept_placeCh _ _ _).after ?_
    | (fail_if_no_progress refine Kept.upd ?_ rfl rfl rfl)

theorem kept_openSettle (s : State) (c : Nat) (b : SI) : Kept s (State.openSettle s c b) := by
  unfold State.openSettle
  try dsimp only
  repeat' first
    | with_reducible exact Kept.refl _
    | split
    | with_reducible refine (kept_modCell _ _ _).after ?_
    | with_reducible refine (kept_setDoubt _ _ _ _).after ?_
    | (fail_if_no_progress refine Kept.upd ?_ rfl rfl rfl)

theorem kept_execSettleWindowEnd (t : SI) (ch : Fin 1024) (s : State) : KeptO s (execSettleWindowEnd t ch s) := by
  unfold execSettleWindowEnd
  try dsimp only
  repeat' first
    | with_reducible exact Kept.refl _
    | with_reducible refine KeptO.next ?_
    | split
    | with_reducible refine (kept_moment _ _).after ?_
    | with_reducible refine (kept_modCell _ _ _).after ?_
    | with_reducible refine (kept_setDoubt _ _ _ _).after ?_
    | (fail_if_no_progress refine Kept.upd ?_ rfl rfl rfl)

theorem kept_execDeskewDoubtEnd (t : SI) (ch : Fin 1024) (s : State) : KeptO s (execDeskewDoubtEnd t ch s) := by
  unfold execDeskewDoubtEnd
  try dsimp only
  repeat' first
    | with_reducible exact Kept.refl _
    | with_reducible refine KeptO.next ?_
    | split
    | with_reducible refine (kept_moment _ _).after ?_
    | with_reducible refine (kept_modCell _ _ _).after ?_
    | with_reducible refine (kept_setDoubt _ _ _ _).after ?_
    | (fail_if_no_progress refine Kept.upd ?_ rfl rfl rfl)

theorem kept_execInputOutOfRange (t : SI) (ch : Fin 1024) (s : State) : KeptO s (execInputOutOfRange t ch s) := by
  unfold execInputOutOfRange
  try dsimp only
  repeat' first
    | with_reducible exact Kept.refl _
    | with_reducible refine KeptO.next ?_
    | split
    | with_reducible refine (kept_moment _ _).after ?_
    | with_reducible refine (kept_raise _ _).after ?_
    | with_reducible refine (kept_setDoubt _ _ _ _).after ?_
    | (fail_if_no_progress refine Kept.upd ?_ rfl rfl rfl)

theorem kept_execOutOfRangeEnd (t : SI) (ch : Fin 1024) (s : State) : KeptO s (execOutOfRangeEnd t ch s) := by
  unfold execOutOfRangeEnd
  try dsimp only
  repeat' first
    | with_reducible exact Kept.refl _
    | with_reducible refine KeptO.next ?_
    | split
    | with_reducible refine (kept_moment _ _).after ?_
    | with_reducible refine (kept_setDoubt _ _ _ _).after ?_
    | (fail_if_no_progress refine Kept.upd ?_ rfl rfl rfl)

theorem kept_checkStuck (s : State) (x : SI) (c : Nat) (dis : Nat) : Kept s (State.checkStuck s x c dis) := by
  unfold State.checkStuck
  try dsimp only
  repeat' first
    | with_reducible exact Kept.refl _
    | split
    | with_reducible refine (kept_raise _ _).after ?_
    | with_reducible refine (kept_modCell _ _ _).after ?_
    | with_reducible refine (kept_setDoubt _ _ _ _).after ?_
    | (fail_if_no_progress refine Kept.upd ?_ rfl rfl rfl)

theorem kept_checkStuckAll (s : State) (x : SI) (dis : List (Fin 1024 × Nat)) : Kept s (State.checkStuckAll s x dis) := by
  unfold State.checkStuckAll
  try dsimp only
  repeat' first
    | with_reducible exact Kept.refl _
    | split
    | with_reducible refine (kept_checkStuck _ _ _ _).after ?_
    | (with_reducible refine (Kept.foldl _ ?_ _ _).after ?_; focus intro _ _)
    | (fail_if_no_progress refine Kept.upd ?_ rfl rfl rfl)

theorem kept_laneBoundary (s : State) (b : SI) (c : Nat) (ps : List LanePass) : Kept s (State.laneBoundary s b c ps) := by
  unfold State.laneBoundary
  try dsimp only
  repeat' first
    | with_reducible exact Kept.refl _
    | split
    | with_reducible refine (kept_raiseIf _ _ _).after ?_
    | with_reducible refine (kept_modJob _ _ _).after ?_
    | with_reducible refine (kept_modCell _ _ _).after ?_
    | (fail_if_no_progress refine Kept.upd ?_ rfl rfl rfl)

theorem kept_lanesBoundary (s : State) (b : SI) (ps : List LanePass) : Kept s (State.lanesBoundary s b ps) := by
  unfold State.lanesBoundary
  try dsimp only
  repeat' first
    | with_reducible exact Kept.refl _
    | split
    | with_reducible refine (kept_laneBoundary _ _ _ _).after ?_
    | (with_reducible refine (Kept.foldl _ ?_ _ _).after ?_; focus intro _ _)
    | (fail_if_no_progress refine Kept.upd ?_ rfl rfl rfl)

theorem kept_stopPasses (s : State) (j : Job) : Kept s (State.stopPasses s j) := by
  unfold State.stopPasses
  try dsimp only
  repeat' first
    | with_reducible exact Kept.refl _
    | split
    | (fail_if_no_progress refine Kept.upd ?_ rfl rfl rfl)

theorem kept_startCal (s : State) (flags : Nat) : Kept s (State.startCal s flags) := by
  unfold State.startCal
  try dsimp only
  repeat' first
    | with_reducible exact Kept.refl _
    | split
    | with_reducible refine (kept_startJob _ _ _ _).after ?_
    | (fail_if_no_progress refine Kept.upd ?_ rfl rfl rfl)

theorem kept_setThreshold (p : List Byte) (s : State) : Kept s (setThreshold p s) := by
  unfold setThreshold
  try dsimp only
  repeat' first
    | with_reducible exact Kept.refl _
    | split
    | with_reducible refine (kept_modCell _ _ _).after ?_
    | with_reducible refine (kept_openSettle _ _ _).after ?_
    | (with_reducible refine (Kept.foldl _ ?_ _ _).after ?_; focus intro _ _)
    | (fail_if_no_progress refine Kept.upd ?_ rfl rfl rfl)

theorem kept_setMode (s : State) (b : SI) (c : Nat) (entry : Nat) : Kept s (State.setMode s b c entry) := by
  unfold State.setMode
  try dsimp only
  repeat' first
    | with_reducible exact Kept.refl _
    | split
    | with_reducible refine (kept_tick _).after ?_
    | with_reducible refine (kept_modCell _ _ _).after ?_
    | with_reducible refine (kept_bracketDisable _ _ _).after ?_
    | with_reducible refine (kept_openSettle _ _ _).after ?_
    | (fail_if_no_progress refine Kept.upd ?_ rfl rfl rfl)

theorem kept_setInputCells (p : List Byte) (s : State) : Kept s (setInputCells p s) := by
  unfold setInputCells
  try dsimp only
  repeat' first
    | with_reducible exact Kept.refl _
    | split
    | with_reducible refine (kept_setMode _ _ _ _).after ?_
    | (with_reducible refine (Kept.foldl _ ?_ _ _).after ?_; focus intro _ _)
    | (fail_if_no_progress refine Kept.upd ?_ rfl rfl rfl)

theorem kept_putDeskew (s : State) (b : SI) (c : Nat) (d : Int) : Kept s (State.putDeskew s b c d) := by
  unfold State.putDeskew
  try dsimp only
  repeat' first
    | with_reducible exact Kept.refl _
    | split
    | with_reducible refine (kept_modCell _ _ _).after ?_
    | with_reducible refine (kept_setDoubt _ _ _ _).after ?_
    | (fail_if_no_progress refine Kept.upd ?_ rfl rfl rfl)

theorem kept_setDeskewCells (p : List Byte) (s : State) : Kept s (setDeskewCells p s) := by
  unfold setDeskewCells
  try dsimp only
  repeat' first
    | with_reducible exact Kept.refl _
    | split
    | with_reducible refine (kept_putDeskew _ _ _ _).after ?_
    | (with_reducible refine (Kept.foldl _ ?_ _ _).after ?_; focus intro _ _)
    | (fail_if_no_progress refine Kept.upd ?_ rfl rfl rfl)

theorem kept_endDeskew (s : State) (p : List Byte) (found : List (Nat × Option Int)) : Kept s (State.endDeskew s p found).1 := by
  unfold State.endDeskew
  try dsimp only
  repeat' first
    | with_reducible exact Kept.refl _
    | split
    | with_reducible refine (kept_modCell _ _ _).after ?_
    | with_reducible refine (kept_putDeskew _ _ _ _).after ?_
    | (with_reducible refine (Kept.foldl _ ?_ _ _).after ?_; focus intro _ _)
    | (fail_if_no_progress refine Kept.upd ?_ rfl rfl rfl)

theorem kept_modBlock (s : State) (b : Nat) (f : Block → Block) : Kept s (State.modBlock s b f) := by
  unfold State.modBlock
  try dsimp only
  repeat' first
    | with_reducible exact Kept.refl _
    | split
    | (fail_if_no_progress refine Kept.upd ?_ rfl rfl rfl)

theorem kept_advanceBlock (s : State) (b : Nat) (now : SI) : Kept s (State.advanceBlock s b now) := by
  unfold State.advanceBlock
  try dsimp only
  repeat' first
    | with_reducible exact Kept.refl _
    | split
    | with_reducible refine (kept_placeEntry _ _ _).after ?_
    | with_reducible refine (kept_modBlock _ _ _).after ?_
    | (with_reducible refine (Kept.foldl _ ?_ _ _).after ?_; focus intro _ _)
    | (fail_if_no_progress refine Kept.upd ?_ rfl rfl rfl)

theorem kept_blockAtFrame (s : State) (b : Nat) (f : Nat) : Kept s (State.blockAtFrame s b f) := by
  unfold State.blockAtFrame
  extract_lets y
  have h := kept_advanceBlock ({ s with time := { s.time with si := 16 * f } } : State) b (16 * f)
  exact ⟨h.pending, le_refl _, h.mem⟩

theorem kept_drainBlocks (s : State) (now : Nat) (fuel : Nat) : Kept s (State.drainBlocks s now fuel) := by
  induction fuel generalizing s with
  | zero => exact Kept.refl _
  | succ k ih =>
  unfold State.drainBlocks
  try dsimp only
  repeat' first
    | with_reducible refine (ih _).after ?_
    | with_reducible exact Kept.refl _
    | split
    | with_reducible refine (kept_blockAtFrame _ _ _).after ?_
    | (fail_if_no_progress refine Kept.upd ?_ rfl rfl rfl)

theorem kept_releaseAll (s : State) : Kept s (State.releaseAll s) := (placed_releaseAll _).kept

theorem kept_advanceBlocks (s : State) : Kept s (State.advanceBlocks s) := by
  unfold State.advanceBlocks
  try dsimp only
  repeat' first
    | with_reducible exact Kept.refl _
    | split
    | with_reducible refine (kept_advanceBlock _ _ _).after ?_
    | with_reducible refine (kept_drainBlocks _ _ _).after ?_
    | with_reducible refine (kept_releaseAll _).after ?_
    | (with_reducible refine (Kept.foldl _ ?_ _ _).after ?_; focus intro _ _)
    | (fail_if_no_progress refine Kept.upd ?_ rfl rfl rfl)

theorem kept_flushBlock (s : State) (b : Nat) : Kept s (State.flushBlock s b) := by
  unfold State.flushBlock
  try dsimp only
  repeat' first
    | with_reducible exact Kept.refl _
    | split
    | with_reducible refine (kept_placeEntry _ _ _).after ?_
    | with_reducible refine (kept_modBlock _ _ _).after ?_
    | (with_reducible refine (Kept.foldl _ ?_ _ _).after ?_; focus intro _ _)
    | (fail_if_no_progress refine Kept.upd ?_ rfl rfl rfl)

theorem kept_blockSelvedge (s : State) (b : Nat) (e : SI) : Kept s (State.blockSelvedge s b e) := by
  unfold State.blockSelvedge
  try dsimp only
  repeat' first
    | with_reducible exact Kept.refl _
    | split
    | with_reducible refine (kept_place _ _ _).after ?_
    | with_reducible refine (kept_modBlock _ _ _).after ?_
    | (fail_if_no_progress refine Kept.upd ?_ rfl rfl rfl)

theorem kept_execBurstSramResume (t : SI) (block : Fin 64) (s : State) : KeptO s (execBurstSramResume t block s) := by
  unfold execBurstSramResume
  try dsimp only
  repeat' first
    | with_reducible exact Kept.refl _
    | with_reducible refine KeptO.next ?_
    | split
    | with_reducible refine (kept_moment _ _).after ?_
    | with_reducible refine (kept_advanceBlock _ _ _).after ?_
    | with_reducible refine (kept_blockSelvedge _ _ _).after ?_
    | (fail_if_no_progress refine Kept.upd ?_ rfl rfl rfl)

theorem kept_execBurstSramParityError (t : SI) (block : Fin 64) (firstFrame : Nat) (lastFrame : Nat) (s : State) : KeptO s (execBurstSramParityError t block firstFrame lastFrame s) := by
  unfold execBurstSramParityError
  try dsimp only
  repeat' first
    | with_reducible exact Kept.refl _
    | with_reducible refine KeptO.next ?_
    | split
    | with_reducible refine (kept_moment _ _).after ?_
    | with_reducible refine (kept_place _ _ _).after ?_
    | with_reducible refine (kept_modBlock _ _ _).after ?_
    | with_reducible refine (kept_advanceBlock _ _ _).after ?_
    | (fail_if_no_progress refine Kept.upd ?_ rfl rfl rfl)

theorem kept_clockEdges (s : State) (r : Nat) (e : SeqEdge) : Kept s (State.clockEdges s r e) := by
  unfold State.clockEdges
  try dsimp only
  repeat' first
    | with_reducible exact Kept.refl _
    | split
    | with_reducible refine (kept_modRegion _ _ _).after ?_
    | with_reducible refine (kept_place _ _ _).after ?_
    | with_reducible refine (kept_raiseIf _ _ _).after ?_
    | (with_reducible refine (Kept.foldl _ ?_ _ _).after ?_; focus intro _ _)
    | (fail_if_no_progress refine Kept.upd ?_ rfl rfl rfl)

theorem kept_drainClocks (s : State) (r : Nat) (b : SI) : Kept s (State.drainClocks s r b) := by
  unfold State.drainClocks
  try dsimp only
  repeat' first
    | with_reducible exact Kept.refl _
    | split
    | with_reducible refine (kept_clockEdges _ _ _).after ?_
    | with_reducible refine (kept_modRegion _ _ _).after ?_
    | (with_reducible refine (Kept.foldl _ ?_ _ _).after ?_; focus intro _ _)
    | (fail_if_no_progress refine Kept.upd ?_ rfl rfl rfl)

theorem kept_stateEdge (s : State) (e : SeqEdge) : Kept s (State.stateEdge s e) := by
  unfold State.stateEdge
  try dsimp only
  repeat' first
    | with_reducible exact Kept.refl _
    | split
    | with_reducible refine (kept_modRegion _ _ _).after ?_
    | with_reducible refine (kept_drainClocks _ _ _).after ?_
    | (with_reducible refine (Kept.foldl _ ?_ _ _).after ?_; focus intro _ _)
    | (fail_if_no_progress refine Kept.upd ?_ rfl rfl rfl)

theorem kept_finishSample (s : State) (r : Nat) (x : PendingSample) : Kept s (State.finishSample s r x) := by
  unfold State.finishSample
  try dsimp only
  repeat' first
    | with_reducible exact Kept.refl _
    | split
    | with_reducible refine (kept_raiseIf _ _ _).after ?_
    | with_reducible refine (kept_modRegion _ _ _).after ?_
    | with_reducible refine (kept_place _ _ _).after ?_
    | (fail_if_no_progress refine Kept.upd ?_ rfl rfl rfl)

theorem kept_execStateSampleComplete (t : SI) (region : Fin 4) (clock : Fin 16) (s : State) : KeptO s (execStateSampleComplete t region clock s) := by
  unfold execStateSampleComplete
  try dsimp only
  repeat' first
    | with_reducible exact Kept.refl _
    | with_reducible refine KeptO.next ?_
    | split
    | with_reducible refine (kept_moment _ _).after ?_
    | with_reducible refine (kept_finishSample _ _ _).after ?_
    | with_reducible refine (kept_drainClocks _ _ _).after ?_
    | (fail_if_no_progress refine Kept.upd ?_ rfl rfl rfl)

theorem kept_statEdge (s : State) (e : SeqEdge) : Kept s (State.statEdge s e) := by
  unfold State.statEdge
  try dsimp only
  repeat' first
    | with_reducible exact Kept.refl _
    | split
    | with_reducible refine (kept_modRegion _ _ _).after ?_
    | (fail_if_no_progress refine Kept.upd ?_ rfl rfl rfl)

theorem kept_endStats (s : State) (r : Nat) (ks : List Nat) (b : SI) (cut : Bool) (again : Bool) : Kept s (State.endStats s r ks b cut again) := by
  unfold State.endStats
  try dsimp only
  repeat' first
    | with_reducible exact Kept.refl _
    | split
    | with_reducible refine (kept_modRegion _ _ _).after ?_
    | with_reducible refine (kept_place _ _ _).after ?_
    | (with_reducible refine (Kept.foldl _ ?_ _ _).after ?_; focus intro _ _)
    | (fail_if_no_progress refine Kept.upd ?_ rfl rfl rfl)

theorem kept_advanceStats (s : State) (r : Nat) (h : FineTime) : Kept s (State.advanceStats s r h) := by
  unfold State.advanceStats
  try dsimp only
  repeat' first
    | with_reducible exact Kept.refl _
    | split
    | with_reducible refine (kept_modRegion _ _ _).after ?_
    | (fail_if_no_progress refine Kept.upd ?_ rfl rfl rfl)

theorem kept_finishCut (s : State) (r : Nat) : Kept s (State.finishCut s r) := by
  unfold State.finishCut
  try dsimp only
  repeat' first
    | with_reducible exact Kept.refl _
    | split
    | with_reducible refine (kept_modRegion _ _ _).after ?_
    | with_reducible refine (kept_place _ _ _).after ?_
    | (with_reducible refine (Kept.foldl _ ?_ _ _).after ?_; focus intro _ _)
    | (fail_if_no_progress refine Kept.upd ?_ rfl rfl rfl)

theorem kept_finishEnded (s : State) (r : Nat) (x : SI) : Kept s (State.finishEnded s r x) := by
  unfold State.finishEnded
  try dsimp only
  repeat' first
    | with_reducible exact Kept.refl _
    | split
    | with_reducible refine (kept_finishCut _ _).after ?_
    | (with_reducible refine (Kept.foldl _ ?_ _ _).after ?_; focus intro _ _)
    | (fail_if_no_progress refine Kept.upd ?_ rfl rfl rfl)

theorem kept_nextStats (s : State) (r : Nat) (w : SI) : Kept s (State.nextStats s r w) := by
  unfold State.nextStats
  try dsimp only
  repeat' first
    | with_reducible exact Kept.refl _
    | split
    | with_reducible refine (kept_modRegion _ _ _).after ?_
    | with_reducible refine (kept_endStats _ _ _ _ _ _).after ?_
    | with_reducible refine (kept_advanceStats _ _ _).after ?_
    | with_reducible refine (kept_finishEnded _ _ _).after ?_
    | (fail_if_no_progress refine Kept.upd ?_ rfl rfl rfl)

theorem kept_execStatsWindowEnd (t : SI) (region : Fin 4) (s : State) : KeptO s (execStatsWindowEnd t region s) := by
  unfold execStatsWindowEnd
  try dsimp only
  repeat' first
    | with_reducible exact Kept.refl _
    | with_reducible refine KeptO.next ?_
    | split
    | with_reducible refine (kept_moment _ _).after ?_
    | with_reducible refine (kept_nextStats _ _ _).after ?_
    | (fail_if_no_progress refine Kept.upd ?_ rfl rfl rfl)

theorem kept_modIvl (s : State) (n : Nat) (f : Ivl → Ivl) : Kept s (State.modIvl s n f) := by
  unfold State.modIvl
  try dsimp only
  repeat' first
    | with_reducible exact Kept.refl _
    | split
    | (fail_if_no_progress refine Kept.upd ?_ rfl rfl rfl)

theorem kept_ivlResult (s : State) (n : Nat) (x : IvlResult) : Kept s (State.ivlResult s n x) := by
  unfold State.ivlResult
  try dsimp only
  repeat' first
    | with_reducible exact Kept.refl _
    | split
    | with_reducible refine (kept_raise _ _).after ?_
    | with_reducible refine (kept_place _ _ _).after ?_
    | with_reducible refine (kept_modIvl _ _ _).after ?_
    | (fail_if_no_progress refine Kept.upd ?_ rfl rfl rfl)

theorem kept_advanceIvlOnce (s : State) (n : Nat) (h : FineTime) : Kept s (State.advanceIvlOnce s n h) := by
  unfold State.advanceIvlOnce
  try dsimp only
  repeat' first
    | with_reducible exact Kept.refl _
    | split
    | with_reducible refine (kept_ivlResult _ _ _).after ?_
    | with_reducible refine (kept_modIvl _ _ _).after ?_
    | (with_reducible refine (Kept.foldl _ ?_ _ _).after ?_; focus intro _ _)
    | (fail_if_no_progress refine Kept.upd ?_ rfl rfl rfl)

theorem kept_ivlTo (s : State) (n : Nat) (h : FineTime) : Kept s (State.ivlTo s n h) := by
  unfold State.ivlTo
  try dsimp only
  repeat' first
    | with_reducible exact Kept.refl _
    | split
    | with_reducible refine (kept_advanceIvlOnce _ _ _).after ?_
    | (fail_if_no_progress refine Kept.upd ?_ rfl rfl rfl)

theorem kept_advanceIvl (s : State) (n : Nat) (h : FineTime) (fuel : Nat) : Kept s (State.advanceIvl s n h fuel) := by
  induction fuel generalizing s with
  | zero => exact kept_ivlTo _ _ _
  | succ k ih =>
  unfold State.advanceIvl
  try dsimp only
  repeat' first
    | with_reducible refine (ih _).after ?_
    | with_reducible exact Kept.refl _
    | split
    | with_reducible refine (kept_modIvl _ _ _).after ?_
    | with_reducible refine (kept_ivlTo _ _ _).after ?_
    | (with_reducible refine (Kept.foldl _ ?_ _ _).after ?_; focus intro _ _)
    | (fail_if_no_progress refine Kept.upd ?_ rfl rfl rfl)

theorem kept_advanceIvls (s : State) : Kept s (State.advanceIvls s) := by
  unfold State.advanceIvls
  try dsimp only
  repeat' first
    | with_reducible exact Kept.refl _
    | split
    | with_reducible refine (kept_advanceIvl _ _ _ _).after ?_
    | (with_reducible refine (Kept.foldl _ ?_ _ _).after ?_; focus intro _ _)
    | (fail_if_no_progress refine Kept.upd ?_ rfl rfl rfl)

theorem kept_ivlEdge (s : State) (e : SeqEdge) : Kept s (State.ivlEdge s e) := by
  unfold State.ivlEdge
  try dsimp only
  repeat' first
    | with_reducible exact Kept.refl _
    | split
    | with_reducible refine (kept_modIvl _ _ _).after ?_
    | (with_reducible refine (Kept.foldl _ ?_ _ _).after ?_; focus intro _ _)
    | (fail_if_no_progress refine Kept.upd ?_ rfl rfl rfl)

theorem kept_execIntervalTimeout (t : SI) (unit : Fin 64) (s : State) : KeptO s (execIntervalTimeout t unit s) := by
  unfold execIntervalTimeout
  try dsimp only
  repeat' first
    | with_reducible exact Kept.refl _
    | with_reducible refine KeptO.next ?_
    | split
    | with_reducible refine (kept_moment _ _).after ?_
    | with_reducible refine (kept_advanceIvl _ _ _ _).after ?_
    | (fail_if_no_progress refine Kept.upd ?_ rfl rfl rfl)

theorem kept_setInterval (p : List Byte) (s : State) : Kept s (setInterval p s) := by
  unfold setInterval
  try dsimp only
  repeat' first
    | with_reducible exact Kept.refl _
    | split
    | with_reducible refine (kept_advanceIvl _ _ _ _).after ?_
    | with_reducible refine (kept_modIvl _ _ _).after ?_
    | (fail_if_no_progress refine Kept.upd ?_ rfl rfl rfl)

theorem kept_execFlushIntervalExpiry (t : SI) (source : Nat) (s : State) : KeptO s (execFlushIntervalExpiry t source s) := by
  unfold execFlushIntervalExpiry
  try dsimp only
  repeat' first
    | with_reducible exact Kept.refl _
    | with_reducible refine KeptO.next ?_
    | split
    | with_reducible refine (kept_moment _ _).after ?_
    | with_reducible refine (kept_closeSource _ _).after ?_
    | with_reducible refine (kept_advanceBlocks _).after ?_
    | (with_reducible refine (Kept.foldl _ ?_ _ _).after ?_; focus intro _ _)
    | (fail_if_no_progress refine Kept.upd ?_ rfl rfl rfl)

theorem kept_execSelfVerifyComplete (t : SI) (region : Fin 4) (ok : Bool) (s : State) : KeptO s (execSelfVerifyComplete t region ok s) := by
  unfold execSelfVerifyComplete
  try dsimp only
  repeat' first
    | with_reducible exact Kept.refl _
    | with_reducible refine KeptO.next ?_
    | split
    | with_reducible refine (kept_moment _ _).after ?_
    | with_reducible refine (kept_raiseIf _ _ _).after ?_
    | with_reducible refine (kept_modRegion _ _ _).after ?_
    | with_reducible refine (kept_commitRegion _ _).after ?_
    | (fail_if_no_progress refine Kept.upd ?_ rfl rfl rfl)

theorem kept_stagingSelvedge (s : State) (r : Nat) (e : SI) : Kept s (State.stagingSelvedge s r e) := by
  unfold State.stagingSelvedge
  try dsimp only
  repeat' first
    | with_reducible exact Kept.refl _
    | split
    | with_reducible refine (kept_modRegion _ _ _).after ?_
    | with_reducible refine (kept_placeIn _ _ _).after ?_
    | (fail_if_no_progress refine Kept.upd ?_ rfl rfl rfl)

theorem kept_execStagingResume (t : SI) (region : Fin 4) (s : State) : KeptO s (execStagingResume t region s) := by
  unfold execStagingResume
  try dsimp only
  repeat' first
    | with_reducible exact Kept.refl _
    | with_reducible refine KeptO.next ?_
    | split
    | with_reducible refine (kept_moment _ _).after ?_
    | with_reducible refine (kept_commitRegion _ _).after ?_
    | with_reducible refine (kept_advanceBlocks _).after ?_
    | with_reducible refine (kept_stagingSelvedge _ _ _).after ?_
    | (fail_if_no_progress refine Kept.upd ?_ rfl rfl rfl)

theorem kept_execLoadIntervalEnd (t : SI) (s : State) : KeptO s (execLoadIntervalEnd t s) := by
  unfold execLoadIntervalEnd
  try dsimp only
  repeat' first
    | with_reducible exact Kept.refl _
    | with_reducible refine KeptO.next ?_
    | split
    | with_reducible refine (kept_moment _ _).after ?_
    | (fail_if_no_progress refine Kept.upd ?_ rfl rfl rfl)

end Sys2Proof.Machine
end

