-- ==== Sys2Proof/Laws/KeptSeq.lean ====
section
/-! SUPPORT. Decoders and the trigger sequencer: one lemma per operation, that it keeps the queue, the order of time and the form of the DRAM bytes. -/

set_option linter.unusedTactic false
set_option linter.unreachableTactic false
set_option linter.unusedVariables false

namespace Sys2Proof.Machine

theorem kept_finishCutEngine (s : State) (x : Nat × SI × Engine) : Kept s (State.finishCutEngine s x) := by
  unfold State.finishCutEngine
  try dsimp only
  repeat' first
    | with_reducible exact Kept.refl _
    | split
    | with_reducible refine (kept_finishAt _ _ _ _).after ?_
    | with_reducible refine (kept_harvestOf _ _ _).after ?_
    | with_reducible refine (kept_modEngine _ _ _).after ?_
    | (fail_if_no_progress refine Kept.upd ?_ rfl rfl rfl)

theorem kept_finishCutEngines (s : State) (sel : Nat × SI × Engine → Bool) : Kept s (State.finishCutEngines s sel) := by
  unfold State.finishCutEngines
  try dsimp only
  repeat' first
    | with_reducible exact Kept.refl _
    | split
    | with_reducible refine (kept_finishCutEngine _ _).after ?_
    | (with_reducible refine (Kept.foldl _ ?_ _ _).after ?_; focus intro _ _)
    | (fail_if_no_progress refine Kept.upd ?_ rfl rfl rfl)

theorem kept_advanceEnginesTo (s : State) (h : FineTime) : Kept s (State.advanceEnginesTo s h) := by
  unfold State.advanceEnginesTo
  try dsimp only
  repeat' first
    | with_reducible exact Kept.refl _
    | split
    | with_reducible refine (kept_advanceEngine _ _ _).after ?_
    | with_reducible refine (kept_finishCutEngines _ _).after ?_
    | (with_reducible refine (Kept.foldl _ ?_ _ _).after ?_; focus intro _ _)
    | (fail_if_no_progress refine Kept.upd ?_ rfl rfl rfl)

theorem kept_advanceEngines (s : State) : Kept s (State.advanceEngines s) := by
  unfold State.advanceEngines
  try dsimp only
  repeat' first
    | with_reducible exact Kept.refl _
    | split
    | with_reducible refine (kept_advanceEnginesTo _ _).after ?_
    | (fail_if_no_progress refine Kept.upd ?_ rfl rfl rfl)

theorem kept_abandonIn (s : State) (sel : Nat → Bool) (b : SI) : Kept s (State.abandonIn s sel b) := by
  unfold State.abandonIn
  try dsimp only
  repeat' first
    | with_reducible exact Kept.refl _
    | split
    | with_reducible refine (kept_abandon _ _ _).after ?_
    | with_reducible refine (kept_finishCutEngines _ _).after ?_
    | (with_reducible refine (Kept.foldl _ ?_ _ _).after ?_; focus intro _ _)
    | (fail_if_no_progress refine Kept.upd ?_ rfl rfl rfl)

theorem kept_engineEdge (s : State) (x : SeqEdge) : Kept s (State.engineEdge s x) := by
  unfold State.engineEdge
  try dsimp only
  repeat' first
    | with_reducible exact Kept.refl _
    | split
    | (with_reducible refine (Kept.foldl _ ?_ _ _).after ?_; focus intro _ _)
    | (fail_if_no_progress refine Kept.upd ?_ rfl rfl rfl)

theorem kept_inputSwitched (s : State) (n : Nat) (c : Nat) (b : SI) : Kept s (State.inputSwitched s n c b) := by
  unfold State.inputSwitched
  try dsimp only
  repeat' first
    | with_reducible exact Kept.refl _
    | split
    | with_reducible refine (kept_modEngine _ _ _).after ?_
    | with_reducible refine (kept_cutEngine _ _ _).after ?_
    | (with_reducible refine (Kept.foldl _ ?_ _ _).after ?_; focus intro _ _)
    | (fail_if_no_progress refine Kept.upd ?_ rfl rfl rfl)

theorem kept_decodersInput (s : State) (c : Nat) (b : SI) : Kept s (State.decodersInput s c b) := by
  unfold State.decodersInput
  try dsimp only
  repeat' first
    | with_reducible exact Kept.refl _
    | split
    | with_reducible refine (kept_inputSwitched _ _ _ _).after ?_
    | (with_reducible refine (Kept.foldl _ ?_ _ _).after ?_; focus intro _ _)
    | (fail_if_no_progress refine Kept.upd ?_ rfl rfl rfl)

theorem kept_setDecoder (p : List Byte) (s : State) : Kept s (setDecoder p s) := by
  unfold setDecoder
  try dsimp only
  repeat' first
    | with_reducible exact Kept.refl _
    | split
    | with_reducible refine (kept_modEngine _ _ _).after ?_
    | with_reducible refine (kept_cutEngine _ _ _).after ?_
    | (with_reducible refine (Kept.foldl _ ?_ _ _).after ?_; focus intro _ _)
    | (fail_if_no_progress refine Kept.upd ?_ rfl rfl rfl)

theorem kept_forceEngine (s : State) (n : Nat) : Kept s (State.forceEngine s n) := by
  unfold State.forceEngine
  try dsimp only
  repeat' first
    | with_reducible exact Kept.refl _
    | split
    | with_reducible refine (kept_advanceEngine _ _ _).after ?_
    | (fail_if_no_progress refine Kept.upd ?_ rfl rfl rfl)

theorem kept_execDecoderMessageComplete (t : SI) (engine : Fin 64) (s : State) : KeptO s (execDecoderMessageComplete t engine s) := by
  unfold execDecoderMessageComplete
  try dsimp only
  repeat' first
    | with_reducible exact Kept.refl _
    | with_reducible refine KeptO.next ?_
    | split
    | with_reducible refine (kept_moment _ _).after ?_
    | with_reducible refine (kept_place _ _ _).after ?_
    | with_reducible refine (kept_modEngine _ _ _).after ?_
    | with_reducible refine (kept_advanceEngine _ _ _).after ?_
    | with_reducible refine (kept_forceEngine _ _).after ?_
    | (fail_if_no_progress refine Kept.upd ?_ rfl rfl rfl)

theorem kept_execCdrLockLoss (t : SI) (engine : Fin 64) (s : State) : KeptO s (execCdrLockLoss t engine s) := by
  unfold execCdrLockLoss
  try dsimp only
  repeat' first
    | with_reducible exact Kept.refl _
    | with_reducible refine KeptO.next ?_
    | split
    | with_reducible refine (kept_moment _ _).after ?_
    | with_reducible refine (kept_forceEngine _ _).after ?_
    | (fail_if_no_progress refine Kept.upd ?_ rfl rfl rfl)

theorem kept_execSmbusTimeout (t : SI) (engine : Fin 64) (s : State) : KeptO s (execSmbusTimeout t engine s) := by
  unfold execSmbusTimeout
  try dsimp only
  repeat' first
    | with_reducible exact Kept.refl _
    | with_reducible refine KeptO.next ?_
    | split
    | with_reducible refine (kept_moment _ _).after ?_
    | with_reducible refine (kept_forceEngine _ _).after ?_
    | (fail_if_no_progress refine Kept.upd ?_ rfl rfl rfl)

theorem kept_modSeq (s : State) (k : Nat) (f : Seq → Seq) : Kept s (State.modSeq s k f) := by
  unfold State.modSeq
  try dsimp only
  repeat' first
    | with_reducible exact Kept.refl _
    | split
    | (fail_if_no_progress refine Kept.upd ?_ rfl rfl rfl)

theorem kept_seqPlace (s : State) (k : Nat) (r : Rec) : Kept s (State.seqPlace s k r) := by
  unfold State.seqPlace
  try dsimp only
  repeat' first
    | with_reducible exact Kept.refl _
    | split
    | with_reducible refine (kept_place _ _ _).after ?_
    | with_reducible refine (kept_placeActive _ _).after ?_
    | with_reducible refine (kept_placeProvisional _ _).after ?_
    | (fail_if_no_progress refine Kept.upd ?_ rfl rfl rfl)

theorem kept_placeTack (s : State) (k : Nat) (x : TackRef × Rec) (stitch : Nat) (branch : Nat) : Kept s (State.placeTack s k x stitch branch) := by
  unfold State.placeTack
  try dsimp only
  repeat' first
    | with_reducible exact Kept.refl _
    | split
    | with_reducible refine (kept_raiseIf _ _ _).after ?_
    | with_reducible refine (kept_modSeq _ _ _).after ?_
    | with_reducible refine (kept_seqPlace _ _ _).after ?_
    | (fail_if_no_progress refine Kept.upd ?_ rfl rfl rfl)

theorem kept_nextTack (s : State) (k : Nat) : Kept s (State.nextTack s k).1 := by
  unfold State.nextTack
  try dsimp only
  repeat' first
    | with_reducible exact Kept.refl _
    | split
    | with_reducible refine (kept_modSeq _ _ _).after ?_
    | (fail_if_no_progress refine Kept.upd ?_ rfl rfl rfl)

theorem kept_dropBaste (s : State) (k : Nat) (b : PendingBaste) : Kept s (State.dropBaste s k b) := by
  unfold State.dropBaste
  try dsimp only
  repeat' first
    | with_reducible exact Kept.refl _
    | split
    | with_reducible refine (kept_modSeq _ _ _).after ?_
    | (fail_if_no_progress refine Kept.upd ?_ rfl rfl rfl)

theorem kept_unpickBaste (s : State) (k : Nat) (b : PendingBaste) (si : SI) (fine : Nat) (reason : Nat) : Kept s (State.unpickBaste s k b si fine reason) := by
  unfold State.unpickBaste
  try dsimp only
  repeat' first
    | with_reducible exact Kept.refl _
    | split
    | with_reducible refine (kept_sent _ _).after ?_
    | with_reducible refine (kept_raise _ _).after ?_
    | with_reducible refine (kept_unpickPins _ _).after ?_
    | with_reducible refine (kept_releaseWindow _ _).after ?_
    | with_reducible refine (kept_originate _ _ _).after ?_
    | with_reducible refine (kept_modSeq _ _ _).after ?_
    | with_reducible refine (kept_seqPlace _ _ _).after ?_
    | with_reducible refine (kept_dropBaste _ _ _).after ?_
    | (fail_if_no_progress refine Kept.upd ?_ rfl rfl rfl)

theorem kept_sewBaste (s : State) (k : Nat) (b : PendingBaste) (si : SI) (fine : Nat) : Kept s (State.sewBaste s k b si fine) := by
  unfold State.sewBaste
  try dsimp only
  repeat' first
    | with_reducible exact Kept.refl _
    | split
    | with_reducible refine (kept_sent _ _).after ?_
    | with_reducible refine (kept_raise _ _).after ?_
    | with_reducible refine (kept_pulse _ _ _ _ _).after ?_
    | with_reducible refine (kept_resolvePins _ _).after ?_
    | with_reducible refine (kept_requestWindow _ _ _).after ?_
    | with_reducible refine (kept_openReserved _ _ _).after ?_
    | with_reducible refine (kept_originate _ _ _).after ?_
    | with_reducible refine (kept_seqPlace _ _ _).after ?_
    | with_reducible refine (kept_placeTack _ _ _ _ _).after ?_
    | with_reducible refine (kept_nextTack _ _).after ?_
    | with_reducible refine (kept_dropBaste _ _ _).after ?_
    | refine Kept.ofPair (by assumption) ?_
    | (fail_if_no_progress refine Kept.upd ?_ rfl rfl rfl)

theorem kept_resolveBaste (s : State) (k : Nat) (v : SlotView) (vals : Tab TermVal) (b : PendingBaste) : Kept s (State.resolveBaste s k v vals b) := by
  unfold State.resolveBaste
  try dsimp only
  repeat' first
    | with_reducible exact Kept.refl _
    | split
    | with_reducible refine (kept_unpickBaste _ _ _ _ _ _).after ?_
    | with_reducible refine (kept_sewBaste _ _ _ _ _).after ?_
    | (fail_if_no_progress refine Kept.upd ?_ rfl rfl rfl)

theorem kept_resolveBastes (s : State) (k : Nat) (v : SlotView) (vals : Tab TermVal) : Kept s (State.resolveBastes s k v vals) := by
  unfold State.resolveBastes
  try dsimp only
  repeat' first
    | with_reducible exact Kept.refl _
    | split
    | with_reducible refine (kept_resolveBaste _ _ _ _ _).after ?_
    | (with_reducible refine (Kept.foldl _ ?_ _ _).after ?_; focus intro _ _)
    | (fail_if_no_progress refine Kept.upd ?_ rfl rfl rfl)

theorem kept_unpickAll (s : State) (k : Nat) (b : SI) (reason : Nat) : Kept s (State.unpickAll s k b reason) := by
  unfold State.unpickAll
  try dsimp only
  repeat' first
    | with_reducible exact Kept.refl _
    | split
    | with_reducible refine (kept_unpickBaste _ _ _ _ _ _).after ?_
    | (with_reducible refine (Kept.foldl _ ?_ _ _).after ?_; focus intro _ _)
    | (fail_if_no_progress refine Kept.upd ?_ rfl rfl rfl)

theorem kept_suppress (s : State) (k : Nat) (x : SI) (c : Nat) (branch : Nat) (reason : Nat) (baste : Bool) : Kept s (State.suppress s k x c branch reason baste) := by
  unfold State.suppress
  try dsimp only
  repeat' first
    | with_reducible exact Kept.refl _
    | split
    | with_reducible refine (kept_raise _ _).after ?_
    | with_reducible refine (kept_modSeq _ _ _).after ?_
    | with_reducible refine (kept_seqPlace _ _ _).after ?_
    | (fail_if_no_progress refine Kept.upd ?_ rfl rfl rfl)

theorem kept_fireTack (s : State) (k : Nat) (x : SI) (val : TermVal) (j : Nat) (b : Branch) : Kept s (State.fireTack s k x val j b) := by
  unfold State.fireTack
  try dsimp only
  repeat' first
    | with_reducible exact Kept.refl _
    | split
    | with_reducible refine (kept_pulse _ _ _ _ _).after ?_
    | with_reducible refine (kept_requestWindow _ _ _).after ?_
    | with_reducible refine (kept_originate _ _ _).after ?_
    | with_reducible refine (kept_modSeq _ _ _).after ?_
    | with_reducible refine (kept_placeTack _ _ _ _ _).after ?_
    | with_reducible refine (kept_nextTack _ _).after ?_
    | refine Kept.ofPair (by assumption) ?_
    | (fail_if_no_progress refine Kept.upd ?_ rfl rfl rfl)

theorem kept_fireMark (s : State) (k : Nat) (x : SI) (val : TermVal) (j : Nat) (b : Branch) : Kept s (State.fireMark s k x val j b) := by
  unfold State.fireMark
  try dsimp only
  repeat' first
    | with_reducible exact Kept.refl _
    | split
    | with_reducible refine (kept_requestWindow _ _ _).after ?_
    | with_reducible refine (kept_placeTack _ _ _ _ _).after ?_
    | (fail_if_no_progress refine Kept.upd ?_ rfl rfl rfl)

theorem kept_fireBaste (s : State) (k : Nat) (x : SI) (val : TermVal) (j : Nat) (b : Branch) : Kept s (State.fireBaste s k x val j b) := by
  unfold State.fireBaste
  try dsimp only
  repeat' first
    | with_reducible exact Kept.refl _
    | split
    | with_reducible refine (kept_raise _ _).after ?_
    | with_reducible refine (kept_pulse _ _ _ _ _).after ?_
    | with_reducible refine (kept_reserveWindow _ _ _).after ?_
    | with_reducible refine (kept_originate _ _ _).after ?_
    | with_reducible refine (kept_modSeq _ _ _).after ?_
    | with_reducible refine (kept_seqPlace _ _ _).after ?_
    | refine Kept.ofPair (by assumption) ?_
    | (fail_if_no_progress refine Kept.upd ?_ rfl rfl rfl)

theorem kept_fire (s : State) (k : Nat) (x : SI) (val : TermVal) (j : Nat) (b : Branch) : Kept s (State.fire s k x val j b) := by
  unfold State.fire
  try dsimp only
  repeat' first
    | with_reducible exact Kept.refl _
    | split
    | with_reducible refine (kept_suppress _ _ _ _ _ _ _).after ?_
    | with_reducible refine (kept_fireTack _ _ _ _ _ _).after ?_
    | with_reducible refine (kept_fireMark _ _ _ _ _ _).after ?_
    | with_reducible refine (kept_fireBaste _ _ _ _ _ _).after ?_
    | (fail_if_no_progress refine Kept.upd ?_ rfl rfl rfl)

theorem kept_disarmAt (s : State) (b : SI) : Kept s (State.disarmAt s b) := by
  unfold State.disarmAt
  try dsimp only
  repeat' first
    | with_reducible exact Kept.refl _
    | split
    | with_reducible refine (kept_raise _ _).after ?_
    | with_reducible refine (kept_endCauseAt _ _ _).after ?_
    | (fail_if_no_progress refine Kept.upd ?_ rfl rfl rfl)

theorem kept_cutEdgesAt (s : State) (e : SI) : Kept s (State.cutEdgesAt s e) := by
  unfold State.cutEdgesAt
  try dsimp only
  repeat' first
    | with_reducible exact Kept.refl _
    | split
    | (fail_if_no_progress refine Kept.upd ?_ rfl rfl rfl)

theorem kept_retractAt (s : State) (e : SI) : Kept s (State.retractAt s e) := by
  unfold State.retractAt
  try dsimp only
  repeat' first
    | with_reducible exact Kept.refl _
    | split
    | (fail_if_no_progress refine Kept.upd ?_ rfl rfl rfl)

theorem kept_stopRunAt (s : State) (e : SI) : Kept s (State.stopRunAt s e) := by
  unfold State.stopRunAt
  try dsimp only
  repeat' first
    | with_reducible exact Kept.refl _
    | split
    | with_reducible refine (kept_disarmAt _ _).after ?_
    | with_reducible refine (kept_cutEdgesAt _ _).after ?_
    | with_reducible refine (kept_retractAt _ _).after ?_
    | (fail_if_no_progress refine Kept.upd ?_ rfl rfl rfl)

theorem kept_stopAction (s : State) (k : Nat) (x : SI) : Kept s (State.stopAction s k x) := by
  unfold State.stopAction
  try dsimp only
  repeat' first
    | with_reducible exact Kept.refl _
    | split
    | with_reducible refine (kept_raise _ _).after ?_
    | with_reducible refine (kept_change _ _ _ _ _ _).after ?_
    | with_reducible refine (kept_stopRunAt _ _).after ?_
    | with_reducible refine (kept_modSeq _ _ _).after ?_
    | with_reducible refine (kept_cancelAt _ _ _).after ?_
    | (fail_if_no_progress refine Kept.upd ?_ rfl rfl rfl)

theorem kept_branchActions (s : State) (k : Nat) (x : SI) (val : TermVal) (b : Branch) : Kept s (State.branchActions s k x val b) := by
  unfold State.branchActions
  try dsimp only
  repeat' first
    | with_reducible exact Kept.refl _
    | split
    | with_reducible refine (kept_pulse _ _ _ _ _).after ?_
    | with_reducible refine (kept_modSeq _ _ _).after ?_
    | (fail_if_no_progress refine Kept.upd ?_ rfl rfl rfl)

theorem kept_placeForced (s : State) (f : SI × Nat × Nat) : Kept s (State.placeForced s f) := by
  unfold State.placeForced
  try dsimp only
  repeat' first
    | with_reducible exact Kept.refl _
    | split
    | with_reducible refine (kept_requestWindow _ _ _).after ?_
    | with_reducible refine (kept_originate _ _ _).after ?_
    | with_reducible refine (kept_placeTack _ _ _ _ _).after ?_
    | with_reducible refine (kept_nextTack _ _).after ?_
    | refine Kept.ofPair (by assumption) ?_
    | (fail_if_no_progress refine Kept.upd ?_ rfl rfl rfl)

theorem kept_flushForced (s : State) (k : Nat) (upto : SI) : Kept s (State.flushForced s k upto) := by
  unfold State.flushForced
  try dsimp only
  repeat' first
    | with_reducible exact Kept.refl _
    | split
    | with_reducible refine (kept_placeForced _ _).after ?_
    | (with_reducible refine (Kept.foldl _ ?_ _ _).after ?_; focus intro _ _)
    | (fail_if_no_progress refine Kept.upd ?_ rfl rfl rfl)

theorem kept_startMatches (s : State) (k : Nat) : Kept s (State.startMatches s k) := by
  unfold State.startMatches
  try dsimp only
  repeat' first
    | with_reducible exact Kept.refl _
    | split
    | with_reducible refine (kept_modSeq _ _ _).after ?_
    | (with_reducible refine (Kept.foldl _ ?_ _ _).after ?_; focus intro _ _)
    | (fail_if_no_progress refine Kept.upd ?_ rfl rfl rfl)

theorem kept_restartAt (s : State) (k : Nat) (e : SI × Option (Program × Nat)) : Kept s (State.restartAt s k e) := by
  unfold State.restartAt
  try dsimp only
  repeat' first
    | with_reducible exact Kept.refl _
    | split
    | with_reducible refine (kept_unpickAll _ _ _ _).after ?_
    | with_reducible refine (kept_modSeq _ _ _).after ?_
    | (fail_if_no_progress refine Kept.upd ?_ rfl rfl rfl)

theorem kept_restarts (s : State) (k : Nat) (x : SI) : Kept s (State.restarts s k x) := by
  unfold State.restarts
  try dsimp only
  repeat' first
    | with_reducible exact Kept.refl _
    | split
    | with_reducible refine (kept_restartAt _ _ _).after ?_
    | with_reducible refine (kept_flushForced _ _ _).after ?_
    | (with_reducible refine (Kept.foldl _ ?_ _ _).after ?_; focus intro _ _)
    | (fail_if_no_progress refine Kept.upd ?_ rfl rfl rfl)

theorem kept_cutEdges (s : State) (k : Nat) (x : SI) : Kept s (State.cutEdges s k x) := by
  unfold State.cutEdges
  try dsimp only
  repeat' first
    | with_reducible exact Kept.refl _
    | split
    | with_reducible refine (kept_modSeq _ _ _).after ?_
    | (fail_if_no_progress refine Kept.upd ?_ rfl rfl rfl)

theorem kept_firstSlot (s : State) (k : Nat) (x : SI) : Kept s (State.firstSlot s k x) := by
  unfold State.firstSlot
  try dsimp only
  repeat' first
    | with_reducible exact Kept.refl _
    | split
    | with_reducible refine (kept_modSeq _ _ _).after ?_
    | with_reducible refine (kept_startMatches _ _).after ?_
    | (fail_if_no_progress refine Kept.upd ?_ rfl rfl rfl)

theorem kept_resolveNew (s : State) (k : Nat) (v : SlotView) (vals : Tab TermVal) : Kept s (State.resolveNew s k v vals) := by
  unfold State.resolveNew
  try dsimp only
  repeat' first
    | with_reducible exact Kept.refl _
    | split
    | with_reducible refine (kept_resolveBaste _ _ _ _ _).after ?_
    | (with_reducible refine (Kept.foldl _ ?_ _ _).after ?_; focus intro _ _)
    | (fail_if_no_progress refine Kept.upd ?_ rfl rfl rfl)

theorem kept_evalSlot (s : State) (k : Nat) : Kept s (State.evalSlot s k) := by
  unfold State.evalSlot
  try dsimp only
  repeat' first
    | with_reducible exact Kept.refl _
    | split
    | with_reducible refine (kept_modSeq _ _ _).after ?_
    | with_reducible refine (kept_resolveBastes _ _ _ _).after ?_
    | with_reducible refine (kept_fire _ _ _ _ _ _).after ?_
    | with_reducible refine (kept_stopAction _ _ _).after ?_
    | with_reducible refine (kept_branchActions _ _ _ _ _).after ?_
    | with_reducible refine (kept_flushForced _ _ _).after ?_
    | with_reducible refine (kept_restarts _ _ _).after ?_
    | with_reducible refine (kept_cutEdges _ _ _).after ?_
    | with_reducible refine (kept_firstSlot _ _ _).after ?_
    | with_reducible refine (kept_resolveNew _ _ _ _).after ?_
    | (fail_if_no_progress refine Kept.upd ?_ rfl rfl rfl)

theorem kept_overflow (s : State) (c : Nat) : Kept s (State.overflow s c) := by
  unfold State.overflow
  try dsimp only
  repeat' first
    | with_reducible exact Kept.refl _
    | split
    | with_reducible refine (kept_beginCauseAt _ _ _).after ?_
    | (fail_if_no_progress refine Kept.upd ?_ rfl rfl rfl)

theorem kept_haltAtEnd (s : State) : Kept s (State.haltAtEnd s) := by
  unfold State.haltAtEnd
  try dsimp only
  repeat' first
    | with_reducible exact Kept.refl _
    | split
    | with_reducible refine (kept_raise _ _).after ?_
    | with_reducible refine (kept_unpickAll _ _ _ _).after ?_
    | with_reducible refine (kept_flushForced _ _ _).after ?_
    | with_reducible refine (kept_restarts _ _ _).after ?_
    | (fail_if_no_progress refine Kept.upd ?_ rfl rfl rfl)

theorem kept_liveSlot (s : State) (now : SI) : Kept s (State.liveSlot s now).1 := by
  unfold State.liveSlot
  try dsimp only
  repeat' first
    | with_reducible exact Kept.refl _
    | split
    | with_reducible refine (kept_evalSlot _ _).after ?_
    | with_reducible refine (kept_overflow _ _).after ?_
    | with_reducible refine (kept_haltAtEnd _).after ?_
    | (fail_if_no_progress refine Kept.upd ?_ rfl rfl rfl)
    | exact ⟨rfl, le_max_left _ _, fun h => h⟩

theorem kept_liveSlots (s : State) (now : SI) (n : Nat) : Kept s (State.liveSlots s now n) := by
  induction n generalizing s with
  | zero => exact Kept.refl _
  | succ k ih =>
  unfold State.liveSlots
  try dsimp only
  repeat' first
    | with_reducible refine (ih _).after ?_
    | with_reducible exact Kept.refl _
    | split
    | with_reducible refine (kept_liveSlot _ _).after ?_
    | refine Kept.ofPair (by assumption) ?_
    | (fail_if_no_progress refine Kept.upd ?_ rfl rfl rfl)

theorem kept_seqEdge (s : State) (e : SeqEdge) : Kept s (State.seqEdge s e) := by
  unfold State.seqEdge
  try dsimp only
  repeat' first
    | with_reducible exact Kept.refl _
    | split
    | (fail_if_no_progress refine Kept.upd ?_ rfl rfl rfl)

theorem kept_seqCascade (s : State) (kind : Nat) (src : Nat) : Kept s (State.seqCascade s kind src) := by
  unfold State.seqCascade
  try dsimp only
  repeat' first
    | with_reducible exact Kept.refl _
    | split
    | (fail_if_no_progress refine Kept.upd ?_ rfl rfl rfl)

theorem kept_execTrigInEdge (t : SI) (pin : Fin 8) (level : Bool) (fine : Fin 64) (s : State) : KeptO s (execTrigInEdge t pin level fine s) := by
  unfold execTrigInEdge
  try dsimp only
  repeat' first
    | with_reducible exact Kept.refl _
    | with_reducible refine KeptO.next ?_
    | split
    | with_reducible refine (kept_moment _ _).after ?_
    | (fail_if_no_progress refine Kept.upd ?_ rfl rfl rfl)

theorem kept_loadPattern (c : Ctx) (s : State) : Kept s (loadPattern c s) := by
  unfold loadPattern
  try dsimp only
  repeat' first
    | with_reducible exact Kept.refl _
    | split
    | with_reducible refine (kept_finish _ _ _).after ?_
    | with_reducible refine (kept_modSeq _ _ _).after ?_
    | (fail_if_no_progress refine Kept.upd ?_ rfl rfl (by simp))
    | (fail_if_no_progress refine Kept.upd ?_ rfl rfl rfl)

theorem kept_armAt (s : State) (b : SI) (load : Bool) : Kept s (State.armAt s b load) := by
  unfold State.armAt
  try dsimp only
  repeat' first
    | with_reducible exact Kept.refl _
    | split
    | with_reducible refine (kept_raise _ _).after ?_
    | (fail_if_no_progress refine Kept.upd ?_ rfl rfl rfl)

theorem kept_armBy (s : State) (c : Ctx) (b : SI) : Kept s (State.armBy s c b) := by
  unfold State.armBy
  try dsimp only
  repeat' first
    | with_reducible exact Kept.refl _
    | split
    | with_reducible refine (kept_armAt _ _ _).after ?_
    | with_reducible refine (kept_finishAt _ _ _ _).after ?_
    | (fail_if_no_progress refine Kept.upd ?_ rfl rfl rfl)

theorem kept_armEffect (c : Ctx) (s : State) : Kept s (armEffect c s) := by
  unfold armEffect
  try dsimp only
  repeat' first
    | with_reducible exact Kept.refl _
    | split
    | with_reducible refine (kept_armBy _ _ _).after ?_
    | (fail_if_no_progress refine Kept.upd ?_ rfl rfl rfl)

theorem kept_armHold (c : Ctx) (s : State) : Kept s (armHold c s) := by
  unfold armHold
  try dsimp only
  repeat' first
    | with_reducible exact Kept.refl _
    | split
    | (fail_if_no_progress refine Kept.upd ?_ rfl rfl rfl)

theorem kept_disarmEffect (c : Ctx) (s : State) : Kept s (disarmEffect c s) := by
  unfold disarmEffect
  try dsimp only
  repeat' first
    | with_reducible exact Kept.refl _
    | split
    | with_reducible refine (kept_finish _ _ _).after ?_
    | with_reducible refine (kept_cancelDeferred _ _).after ?_
    | with_reducible refine (kept_disarmAt _ _).after ?_
    | (fail_if_no_progress refine Kept.upd ?_ rfl rfl rfl)

theorem kept_rootAnnounce (type : Nat) (p : Packet) (s : State) : Kept s (rootAnnounce type p s) := by
  unfold rootAnnounce
  try dsimp only
  repeat' first
    | with_reducible exact Kept.refl _
    | split
    | with_reducible refine (kept_sendDown _ _ _).after ?_
    | (fail_if_no_progress refine Kept.upd ?_ rfl rfl rfl)

theorem kept_endShutdown (s : State) : Kept s (State.endShutdown s) := by
  unfold State.endShutdown
  try dsimp only
  repeat' first
    | with_reducible exact Kept.refl _
    | split
    | with_reducible refine (kept_unpickAll _ _ _ _).after ?_
    | with_reducible refine (kept_flushForced _ _ _).after ?_
    | with_reducible refine (kept_restarts _ _ _).after ?_
    | (fail_if_no_progress refine Kept.upd ?_ rfl rfl rfl)

theorem kept_armFailed (s : State) (number : Nat) (status : Nat) : Kept s (State.armFailed s number status) := by
  unfold State.armFailed
  try dsimp only
  repeat' first
    | with_reducible exact Kept.refl _
    | split
    | with_reducible refine (kept_raise _ _).after ?_
    | with_reducible refine (kept_sendUp _ _ _).after ?_
    | (fail_if_no_progress refine Kept.upd ?_ rfl rfl rfl)

theorem kept_armEnds (s : State) (c : Ctx) (status : Nat) : Kept s (State.armEnds s c status) := by
  unfold State.armEnds
  try dsimp only
  repeat' first
    | with_reducible exact Kept.refl _
    | split
    | with_reducible refine (kept_complete _ _ _ _ _).after ?_
    | with_reducible refine (kept_armFailed _ _ _).after ?_
    | (fail_if_no_progress refine Kept.upd ?_ rfl rfl rfl)

theorem kept_releaseArm (s : State) : Kept s (State.releaseArm s) := by
  unfold State.releaseArm
  try dsimp only
  repeat' first
    | with_reducible exact Kept.refl _
    | split
    | with_reducible refine (kept_raise _ _).after ?_
    | with_reducible refine (kept_raiseIf _ _ _).after ?_
    | with_reducible refine (kept_unreserve _ _).after ?_
    | with_reducible refine (kept_armEnds _ _ _).after ?_
    | with_reducible refine (kept_armBy _ _ _).after ?_
    | (fail_if_no_progress refine Kept.upd ?_ rfl rfl rfl)

theorem kept_rowDisarmShutdownEnd (t : SI) (s : State) : Kept s (rowDisarmShutdownEnd t s) := by
  unfold rowDisarmShutdownEnd
  try dsimp only
  repeat' first
    | with_reducible exact Kept.refl _
    | split
    | with_reducible refine (kept_moment _ _).after ?_
    | with_reducible refine (kept_endShutdown _).after ?_
    | with_reducible refine (kept_releaseArm _).after ?_
    | (fail_if_no_progress refine Kept.upd ?_ rfl rfl rfl)

theorem kept_forceTack (p : List Byte) (s : State) : Kept s (forceTack p s) := by
  unfold forceTack
  try dsimp only
  repeat' first
    | with_reducible exact Kept.refl _
    | split
    | with_reducible refine (kept_pulse _ _ _ _ _).after ?_
    | with_reducible refine (kept_placeForced _ _).after ?_
    | (fail_if_no_progress refine Kept.upd ?_ rfl rfl rfl)

theorem kept_setPin (s : State) (n : Nat) (y : List Byte) : Kept s (State.setPin s n y) := by
  unfold State.setPin
  try dsimp only
  repeat' first
    | with_reducible exact Kept.refl _
    | split
    | with_reducible refine (kept_post _ _).after ?_
    | with_reducible refine (kept_modOut _ _ _).after ?_
    | (fail_if_no_progress refine Kept.upd ?_ rfl rfl rfl)

theorem kept_setTrigout (p : List Byte) (s : State) : Kept s (setTrigout p s) := by
  unfold setTrigout
  try dsimp only
  repeat' first
    | with_reducible exact Kept.refl _
    | split
    | with_reducible refine (kept_setPin _ _ _).after ?_
    | (with_reducible refine (Kept.foldl _ ?_ _ _).after ?_; focus intro _ _)
    | (fail_if_no_progress refine Kept.upd ?_ rfl rfl rfl)

end Sys2Proof.Machine
end

