-- ==== Sys2Proof/Laws/KeptRun.lean ====
section
/-! SUPPORT. Edges, regions, runs, the cascade, bobbin commands, requests, replay and DRAM: one lemma per operation, that it keeps the queue, the order of time and the form of the DRAM bytes. -/

set_option linter.unusedTactic false
set_option linter.unreachableTactic false
set_option linter.unusedVariables false

namespace Sys2Proof.Machine

theorem kept_fixLevel (s : State) (c : Nat) (level : Bool) : Kept s (State.fixLevel s c level) := by
  unfold State.fixLevel
  try dsimp only
  repeat' first
    | with_reducible exact Kept.refl _
    | split
    | with_reducible refine (kept_modRegion _ _ _).after ?_
    | with_reducible refine (kept_modCell _ _ _).after ?_
    | (with_reducible refine (Kept.foldl _ ?_ _ _).after ?_; focus intro _ _)
    | (fail_if_no_progress refine Kept.upd ?_ rfl rfl rfl)

theorem kept_beforeRun (s : State) (e : SeqEdge) : Kept s (State.beforeRun s e) := by
  unfold State.beforeRun
  try dsimp only
  repeat' first
    | with_reducible exact Kept.refl _
    | split
    | with_reducible refine (kept_modRegion _ _ _).after ?_
    | with_reducible refine (kept_modCell _ _ _).after ?_
    | with_reducible refine (kept_engineEdge _ _).after ?_
    | (fail_if_no_progress refine Kept.upd ?_ rfl rfl rfl)

theorem kept_keepEarly (s : State) (e : SeqEdge) : Kept s (State.keepEarly s e) := by
  unfold State.keepEarly
  try dsimp only
  repeat' first
    | with_reducible exact Kept.refl _
    | split
    | (fail_if_no_progress refine Kept.upd ?_ rfl rfl rfl)

theorem kept_tapEdge (s : State) (e : SeqEdge) : Kept s (State.tapEdge s e) := by
  unfold State.tapEdge
  try dsimp only
  repeat' first
    | with_reducible exact Kept.refl _
    | split
    | with_reducible refine (kept_modBlock _ _ _).after ?_
    | with_reducible refine (kept_advanceBlock _ _ _).after ?_
    | with_reducible refine (kept_stateEdge _ _).after ?_
    | with_reducible refine (kept_statEdge _ _).after ?_
    | with_reducible refine (kept_ivlEdge _ _).after ?_
    | with_reducible refine (kept_engineEdge _ _).after ?_
    | with_reducible refine (kept_seqEdge _ _).after ?_
    | with_reducible refine (kept_beforeRun _ _).after ?_
    | with_reducible refine (kept_keepEarly _ _).after ?_
    | with_reducible refine (kept_advanceBlocks _).after ?_
    | (fail_if_no_progress refine Kept.upd ?_ rfl rfl rfl)

theorem kept_deskewEdge (s : State) (c : Nat) (u : FineTime) (level : Bool) : Kept s (State.deskewEdge s c u level) := by
  unfold State.deskewEdge
  try dsimp only
  repeat' first
    | with_reducible exact Kept.refl _
    | split
    | (fail_if_no_progress refine Kept.upd ?_ rfl rfl rfl)

theorem kept_edges (s : State) (c : Nat) (t : SI) (level : Bool) (glitch : Bool) (fine : Nat) (fine2 : Nat) : Kept s (State.edges s c t level glitch fine fine2) := by
  unfold State.edges
  try dsimp only
  repeat' first
    | with_reducible exact Kept.refl _
    | split
    | with_reducible refine (kept_modCell _ _ _).after ?_
    | with_reducible refine (kept_advanceIvls _).after ?_
    | with_reducible refine (kept_advanceEngines _).after ?_
    | with_reducible refine (kept_tapEdge _ _).after ?_
    | with_reducible refine (kept_deskewEdge _ _ _ _).after ?_
    | (with_reducible refine (Kept.foldl _ ?_ _ _).after ?_; focus intro _ _)
    | (fail_if_no_progress refine Kept.upd ?_ rfl rfl rfl)

theorem kept_earlySample (s : State) (c : Nat) (t : SI) (v : CellInput) : Kept s (State.earlySample s c t v) := by
  unfold State.earlySample
  try dsimp only
  repeat' first
    | with_reducible exact Kept.refl _
    | split
    | with_reducible refine (kept_fixLevel _ _ _).after ?_
    | with_reducible refine (kept_edges _ _ _ _ _ _ _).after ?_
    | (fail_if_no_progress refine Kept.upd ?_ rfl rfl rfl)

theorem kept_rowEdgeDetected (t : SI) (ch : Fin 1024) (v : CellInput) (s : State) : Kept s (rowEdgeDetected t ch v s) := by
  unfold rowEdgeDetected
  try dsimp only
  repeat' first
    | with_reducible exact Kept.refl _
    | split
    | with_reducible refine (kept_moment _ _).after ?_
    | with_reducible refine (kept_edges _ _ _ _ _ _ _).after ?_
    | with_reducible refine (kept_modCell _ _ _).after ?_
    | with_reducible refine (kept_earlySample _ _ _ _).after ?_
    | (fail_if_no_progress refine Kept.upd ?_ rfl rfl rfl)

theorem kept_execEdgeDetected (t : SI) (ch : Fin 1024) (balls : Int × Int) (glitch : Bool) (raw raw2 : Nat) (s : State) :
    KeptO s (execEdgeDetected t ch balls glitch raw raw2 s) := KeptO.next (kept_rowEdgeDetected _ _ _ _)

theorem kept_switchStats (s : State) (c : Nat) (b : SI) (on : Bool) : Kept s (State.switchStats s c b on) := by
  unfold State.switchStats
  try dsimp only
  repeat' first
    | with_reducible exact Kept.refl _
    | split
    | with_reducible refine (kept_modRegion _ _ _).after ?_
    | with_reducible refine (kept_advanceStats _ _ _).after ?_
    | (fail_if_no_progress refine Kept.upd ?_ rfl rfl rfl)

theorem kept_switched (s : State) (b : SI) (was : Bool) (c : Nat) : Kept s (State.switched s b was c) := by
  unfold State.switched
  try dsimp only
  repeat' first
    | with_reducible exact Kept.refl _
    | split
    | with_reducible refine (kept_modRegion _ _ _).after ?_
    | with_reducible refine (kept_decodersInput _ _ _).after ?_
    | with_reducible refine (kept_switchStats _ _ _ _).after ?_
    | (fail_if_no_progress refine Kept.upd ?_ rfl rfl rfl)

theorem kept_setInputMode (p : List Byte) (s : State) : Kept s (setInputMode p s) := by
  unfold setInputMode
  try dsimp only
  repeat' first
    | with_reducible exact Kept.refl _
    | split
    | with_reducible refine (kept_setInputCells _ _).after ?_
    | with_reducible refine (kept_switched _ _ _ _).after ?_
    | (with_reducible refine (Kept.foldl _ ?_ _ _).after ?_; focus intro _ _)
    | (fail_if_no_progress refine Kept.upd ?_ rfl rfl rfl)

theorem kept_drainMessages (s : State) (sel : Nat → Bool) : Kept s (State.drainMessages s sel) := by
  unfold State.drainMessages
  try dsimp only
  repeat' first
    | with_reducible exact Kept.refl _
    | split
    | with_reducible refine (kept_place _ _ _).after ?_
    | with_reducible refine (kept_modEngine _ _ _).after ?_
    | (with_reducible refine (Kept.foldl _ ?_ _ _).after ?_; focus intro _ _)
    | (fail_if_no_progress refine Kept.upd ?_ rfl rfl rfl)

theorem kept_completeReductions (s : State) : Kept s (State.completeReductions s) := by
  unfold State.completeReductions
  try dsimp only
  repeat' first
    | with_reducible exact Kept.refl _
    | split
    | with_reducible refine (kept_drainClocks _ _ _).after ?_
    | with_reducible refine (kept_finishSample _ _ _).after ?_
    | with_reducible refine (kept_finishEnded _ _ _).after ?_
    | with_reducible refine (kept_nextStats _ _ _).after ?_
    | (with_reducible refine (Kept.foldl _ ?_ _ _).after ?_; focus intro _ _)
    | (fail_if_no_progress refine Kept.upd ?_ rfl rfl rfl)

theorem kept_anchorActions (s : State) (x : SI) (passes : List LanePass) (disagree : List (Fin 1024 × Nat)) : Kept s (State.anchorActions s x passes disagree) := by
  unfold State.anchorActions
  try dsimp only
  repeat' first
    | with_reducible exact Kept.refl _
    | split
    | with_reducible refine (kept_checkUnc _).after ?_
    | with_reducible refine (kept_anchorRecords _ _ _).after ?_
    | with_reducible refine (kept_requestTime _).after ?_
    | with_reducible refine (kept_checkStuckAll _ _ _).after ?_
    | with_reducible refine (kept_lanesBoundary _ _ _).after ?_
    | with_reducible refine (kept_advanceBlocks _).after ?_
    | with_reducible refine (kept_advanceIvls _).after ?_
    | with_reducible refine (kept_advanceEngines _).after ?_
    | with_reducible refine (kept_drainMessages _ _).after ?_
    | with_reducible refine (kept_completeReductions _).after ?_
    | (fail_if_no_progress refine Kept.upd ?_ rfl rfl rfl)

theorem kept_rowAnchorBoundary (t : SI) (passes : List LanePass) (disagree : List (Fin 1024 × Nat)) (s : State) : Kept s (rowAnchorBoundary t passes disagree s) := by
  unfold rowAnchorBoundary
  try dsimp only
  repeat' first
    | with_reducible exact Kept.refl _
    | split
    | with_reducible refine (kept_moment _ _).after ?_
    | with_reducible refine (kept_anchorActions _ _ _ _).after ?_
    | (fail_if_no_progress refine Kept.upd ?_ rfl rfl rfl)

theorem kept_ungateStats (s : State) (a : SI) (b : SI) : Kept s (State.ungateStats s a b) := by
  unfold State.ungateStats
  try dsimp only
  repeat' first
    | with_reducible exact Kept.refl _
    | split
    | (fail_if_no_progress refine Kept.upd ?_ rfl rfl rfl)

theorem kept_ungateCells (s : State) : Kept s (State.ungateCells s) := by
  unfold State.ungateCells
  try dsimp only
  repeat' first
    | with_reducible exact Kept.refl _
    | split
    | with_reducible refine (kept_regainSynth _).after ?_
    | with_reducible refine (kept_advanceBlocks _).after ?_
    | with_reducible refine (kept_ungateStats _ _ _).after ?_
    | (fail_if_no_progress refine Kept.upd ?_ rfl rfl rfl)

theorem kept_execSynthesiserLockLoss (t : SI) (s : State) : KeptO s (execSynthesiserLockLoss t s) := by
  unfold execSynthesiserLockLoss
  try dsimp only
  repeat' first
    | with_reducible exact Kept.refl _
    | with_reducible refine KeptO.next ?_
    | split
    | with_reducible refine (kept_moment _ _).after ?_
    | with_reducible refine (kept_gateCells _).after ?_
    | (fail_if_no_progress refine Kept.upd ?_ rfl rfl rfl)

theorem kept_execSynthesiserRelock (t : SI) (s : State) : KeptO s (execSynthesiserRelock t s) := by
  unfold execSynthesiserRelock
  try dsimp only
  repeat' first
    | with_reducible exact Kept.refl _
    | with_reducible refine KeptO.next ?_
    | split
    | with_reducible refine (kept_moment _ _).after ?_
    | with_reducible refine (kept_startCal _ _).after ?_
    | with_reducible refine (kept_ungateCells _).after ?_
    | (fail_if_no_progress refine Kept.upd ?_ rfl rfl rfl)

theorem kept_setRef (p : List Byte) (s : State) : Kept s (setRef p s) := by
  unfold setRef
  try dsimp only
  repeat' first
    | with_reducible exact Kept.refl _
    | split
    | with_reducible refine (kept_setRefTime _ _).after ?_
    | with_reducible refine (kept_startCal _ _).after ?_
    | with_reducible refine (kept_gateCells _).after ?_
    | (fail_if_no_progress refine Kept.upd ?_ rfl rfl rfl)

theorem kept_execEpochBoundary (t : SI) (s : State) : KeptO s (execEpochBoundary t s) := by
  unfold execEpochBoundary
  try dsimp only
  repeat' first
    | with_reducible exact Kept.refl _
    | with_reducible refine KeptO.next ?_
    | split
    | with_reducible refine (kept_moment _ _).after ?_
    | with_reducible refine (kept_epochHk _).after ?_
    | with_reducible refine (kept_epochOut _).after ?_
    | (fail_if_no_progress refine Kept.upd ?_ rfl rfl rfl)

theorem kept_beginReset (s : State) (r : Nat) (m : SI) (defaults : Bool) : Kept s (State.beginReset s r m defaults) := by
  unfold State.beginReset
  try dsimp only
  repeat' first
    | with_reducible exact Kept.refl _
    | split
    | with_reducible refine (kept_raise _ _).after ?_
    | with_reducible refine (kept_modRegion _ _ _).after ?_
    | (fail_if_no_progress refine Kept.upd ?_ rfl rfl rfl)

theorem kept_modReset (s : State) (r : Nat) (f : RegionReset → RegionReset) : Kept s (State.modReset s r f) := by
  unfold State.modReset
  try dsimp only
  repeat' first
    | with_reducible exact Kept.refl _
    | split
    | with_reducible refine (kept_modRegion _ _ _).after ?_
    | (fail_if_no_progress refine Kept.upd ?_ rfl rfl rfl)

theorem kept_flushBelow (s : State) (b : Nat) (m : SI) : Kept s (State.flushBelow s b m) := by
  unfold State.flushBelow
  try dsimp only
  repeat' first
    | with_reducible exact Kept.refl _
    | split
    | with_reducible refine (kept_placeEntry _ _ _).after ?_
    | with_reducible refine (kept_modBlock _ _ _).after ?_
    | (with_reducible refine (Kept.foldl _ ?_ _ _).after ?_; focus intro _ _)
    | (fail_if_no_progress refine Kept.upd ?_ rfl rfl rfl)

theorem kept_endIntake (s : State) (r : Nat) (m : SI) : Kept s (State.endIntake s r m) := by
  unfold State.endIntake
  try dsimp only
  repeat' first
    | with_reducible exact Kept.refl _
    | split
    | with_reducible refine (kept_modRegion _ _ _).after ?_
    | with_reducible refine (kept_closeRegion _ _).after ?_
    | with_reducible refine (kept_advanceBlocks _).after ?_
    | with_reducible refine (kept_finishSample _ _ _).after ?_
    | with_reducible refine (kept_abandonIn _ _ _).after ?_
    | with_reducible refine (kept_modReset _ _ _).after ?_
    | with_reducible refine (kept_drainMessages _ _).after ?_
    | with_reducible refine (kept_flushBelow _ _ _).after ?_
    | with_reducible refine (kept_drainClocks _ _ _).after ?_
    | (with_reducible refine (Kept.foldl _ ?_ _ _).after ?_; focus intro _ _)
    | (fail_if_no_progress refine Kept.upd ?_ rfl rfl rfl)

theorem kept_execRegionIntakeEnd (t : SI) (region : Fin 4) (s : State) : KeptO s (execRegionIntakeEnd t region s) := by
  unfold execRegionIntakeEnd
  try dsimp only
  repeat' first
    | with_reducible exact Kept.refl _
    | with_reducible refine KeptO.next ?_
    | split
    | with_reducible refine (kept_moment _ _).after ?_
    | with_reducible refine (kept_endIntake _ _ _).after ?_
    | (fail_if_no_progress refine Kept.upd ?_ rfl rfl rfl)

theorem kept_loseSegments (s : State) (r : Nat) (gs : List Seg) : Kept s (State.loseSegments s r gs) := by
  unfold State.loseSegments
  try dsimp only
  repeat' first
    | with_reducible exact Kept.refl _
    | split
    | with_reducible refine (kept_modRegion _ _ _).after ?_
    | with_reducible refine (kept_modReset _ _ _).after ?_
    | with_reducible refine (kept_modBob _ _ _).after ?_
    | (with_reducible refine (Kept.foldl _ ?_ _ _).after ?_; focus intro _ _)
    | (fail_if_no_progress refine Kept.upd ?_ rfl rfl rfl)

theorem kept_rowRegionWriteDrainEnd (t : SI) (region : Fin 4) (unfinished : List Nat) (dropped : Nat) (s : State) : Kept s (rowRegionWriteDrainEnd t region unfinished dropped s) := by
  unfold rowRegionWriteDrainEnd
  try dsimp only
  repeat' first
    | with_reducible exact Kept.refl _
    | split
    | with_reducible refine (kept_moment _ _).after ?_
    | with_reducible refine (kept_modRegion _ _ _).after ?_
    | with_reducible refine (kept_modReset _ _ _).after ?_
    | with_reducible refine (kept_loseSegments _ _ _).after ?_
    | (fail_if_no_progress refine Kept.upd ?_ rfl rfl rfl)

theorem kept_closeSpan (s : State) (r : Nat) (n : SI) (anchor : Bool) : Kept s (State.closeSpan s r n anchor).1 := by
  unfold State.closeSpan
  try dsimp only
  repeat' first
    | with_reducible exact Kept.refl _
    | split
    | with_reducible refine (kept_modRegion _ _ _).after ?_
    | with_reducible refine (kept_place _ _ _).after ?_
    | with_reducible refine (kept_placeIn _ _ _).after ?_
    | (with_reducible refine (Kept.foldl _ ?_ _ _).after ?_; focus intro _ _)
    | (fail_if_no_progress refine Kept.upd ?_ rfl rfl rfl)

theorem kept_resumeRegion (s : State) (r : Nat) (n : SI) : Kept s (State.resumeRegion s r n) := by
  unfold State.resumeRegion
  try dsimp only
  repeat' first
    | with_reducible exact Kept.refl _
    | split
    | with_reducible refine (kept_modRegion _ _ _).after ?_
    | (fail_if_no_progress refine Kept.upd ?_ rfl rfl rfl)

theorem kept_defaultRegion (s : State) (r : Nat) : Kept s (State.defaultRegion s r) := by
  unfold State.defaultRegion
  try dsimp only
  repeat' first
    | with_reducible exact Kept.refl _
    | split
    | with_reducible refine (kept_modRegion _ _ _).after ?_
    | (fail_if_no_progress refine Kept.upd ?_ rfl rfl rfl)

theorem kept_endReset (s : State) (r : Nat) (n : SI) (w : RegionReset) : Kept s (State.endReset s r n w) := by
  unfold State.endReset
  try dsimp only
  repeat' first
    | with_reducible exact Kept.refl _
    | split
    | with_reducible refine (kept_raise _ _).after ?_
    | with_reducible refine (kept_modRegion _ _ _).after ?_
    | with_reducible refine (kept_complete _ _ _ _ _).after ?_
    | with_reducible refine (kept_anchorRecords _ _ _).after ?_
    | with_reducible refine (kept_closeSpan _ _ _ _).after ?_
    | with_reducible refine (kept_resumeRegion _ _ _).after ?_
    | with_reducible refine (kept_defaultRegion _ _).after ?_
    | refine Kept.ofPair (by assumption) ?_
    | (fail_if_no_progress refine Kept.upd ?_ rfl rfl rfl)

theorem kept_rowRegionReinitEnd (t : SI) (region : Fin 4) (s : State) : Kept s (rowRegionReinitEnd t region s) := by
  unfold rowRegionReinitEnd
  try dsimp only
  repeat' first
    | with_reducible exact Kept.refl _
    | split
    | with_reducible refine (kept_moment _ _).after ?_
    | with_reducible refine (kept_endReset _ _ _ _).after ?_
    | (fail_if_no_progress refine Kept.upd ?_ rfl rfl rfl)

theorem kept_rowRegionWatchdog (t : SI) (region : Fin 4) (s : State) : Kept s (rowRegionWatchdog t region s) := by
  unfold rowRegionWatchdog
  try dsimp only
  repeat' first
    | with_reducible exact Kept.refl _
    | split
    | with_reducible refine (kept_moment _ _).after ?_
    | with_reducible refine (kept_raise _ _).after ?_
    | with_reducible refine (kept_change _ _ _ _ _ _).after ?_
    | with_reducible refine (kept_beginReset _ _ _ _).after ?_
    | (fail_if_no_progress refine Kept.upd ?_ rfl rfl rfl)

theorem kept_resetRegionEffect (c : Ctx) (s : State) : Kept s (resetRegionEffect c s) := by
  unfold resetRegionEffect
  try dsimp only
  repeat' first
    | with_reducible exact Kept.refl _
    | split
    | with_reducible refine (kept_change _ _ _ _ _ _).after ?_
    | with_reducible refine (kept_beginReset _ _ _ _).after ?_
    | (fail_if_no_progress refine Kept.upd ?_ rfl rfl rfl)

theorem kept_freshRegion (s : State) (r : Nat) (b : SI) : Kept s (State.freshRegion s r b) := by
  unfold State.freshRegion
  try dsimp only
  repeat' first
    | with_reducible exact Kept.refl _
    | split
    | with_reducible refine (kept_modRegion _ _ _).after ?_
    | (fail_if_no_progress refine Kept.upd ?_ rfl rfl rfl)

theorem kept_freshEngine (s : State) (n : Nat) (b : SI) : Kept s (State.freshEngine s n b) := by
  unfold State.freshEngine
  try dsimp only
  repeat' first
    | with_reducible exact Kept.refl _
    | split
    | with_reducible refine (kept_modEngine _ _ _).after ?_
    | (fail_if_no_progress refine Kept.upd ?_ rfl rfl rfl)

theorem kept_takeEarly (s : State) (b : SI) : Kept s (State.takeEarly s b) := by
  unfold State.takeEarly
  try dsimp only
  repeat' first
    | with_reducible exact Kept.refl _
    | split
    | with_reducible refine (kept_beforeRun _ _).after ?_
    | with_reducible refine (kept_tapEdge _ _).after ?_
    | (with_reducible refine (Kept.foldr _ ?_ _ _).after ?_; focus intro _ _)
    | (with_reducible refine (Kept.foldl _ ?_ _ _).after ?_; focus intro _ _)
    | (fail_if_no_progress refine Kept.upd ?_ rfl rfl rfl)

theorem kept_startRun (s : State) (b : SI) (runId : Nat) : Kept s (State.startRun s b runId) := by
  unfold State.startRun
  try dsimp only
  repeat' first
    | with_reducible exact Kept.refl _
    | split
    | with_reducible refine (kept_raise _ _).after ?_
    | with_reducible refine (kept_putAnchor _ _ _ _).after ?_
    | with_reducible refine (kept_anchorRecords _ _ _).after ?_
    | with_reducible refine (kept_freshRegion _ _ _).after ?_
    | with_reducible refine (kept_freshEngine _ _ _).after ?_
    | with_reducible refine (kept_takeEarly _ _).after ?_
    | (with_reducible refine (Kept.foldl _ ?_ _ _).after ?_; focus intro _ _)
    | (fail_if_no_progress refine Kept.upd ?_ rfl rfl rfl)

theorem kept_startRunEffect (c : Ctx) (s : State) : Kept s (startRunEffect c s) := by
  unfold startRunEffect
  try dsimp only
  repeat' first
    | with_reducible exact Kept.refl _
    | split
    | with_reducible refine (kept_finish _ _ _).after ?_
    | with_reducible refine (kept_startRun _ _ _).after ?_
    | (fail_if_no_progress refine Kept.upd ?_ rfl rfl rfl)

theorem kept_startRunHold (c : Ctx) (s : State) : Kept s (startRunHold c s) := by
  unfold startRunHold
  try dsimp only
  repeat' first
    | with_reducible exact Kept.refl _
    | split
    | (fail_if_no_progress refine Kept.upd ?_ rfl rfl rfl)

theorem kept_stopRunEffect (c : Ctx) (s : State) : Kept s (stopRunEffect c s) := by
  unfold stopRunEffect
  try dsimp only
  repeat' first
    | with_reducible exact Kept.refl _
    | split
    | with_reducible refine (kept_finish _ _ _).after ?_
    | with_reducible refine (kept_cancelDeferred _ _).after ?_
    | with_reducible refine (kept_stopRunAt _ _).after ?_
    | (fail_if_no_progress refine Kept.upd ?_ rfl rfl rfl)

theorem kept_endAllStats (s : State) (r : Nat) (e : SI) : Kept s (State.endAllStats s r e) := by
  unfold State.endAllStats
  try dsimp only
  repeat' first
    | with_reducible exact Kept.refl _
    | split
    | with_reducible refine (kept_modRegion _ _ _).after ?_
    | with_reducible refine (kept_endStats _ _ _ _ _ _).after ?_
    | with_reducible refine (kept_nextStats _ _ _).after ?_
    | with_reducible refine (kept_advanceStats _ _ _).after ?_
    | with_reducible refine (kept_finishEnded _ _ _).after ?_
    | (with_reducible refine (Kept.foldl _ ?_ _ _).after ?_; focus intro _ _)
    | (fail_if_no_progress refine Kept.upd ?_ rfl rfl rfl)

theorem kept_endIvl (s : State) (n : Nat) (e : SI) : Kept s (State.endIvl s n e) := by
  unfold State.endIvl
  try dsimp only
  repeat' first
    | with_reducible exact Kept.refl _
    | split
    | with_reducible refine (kept_finish _ _ _).after ?_
    | with_reducible refine (kept_modIvl _ _ _).after ?_
    | with_reducible refine (kept_ivlResult _ _ _).after ?_
    | with_reducible refine (kept_advanceIvl _ _ _ _).after ?_
    | (with_reducible refine (Kept.foldl _ ?_ _ _).after ?_; focus intro _ _)
    | (fail_if_no_progress refine Kept.upd ?_ rfl rfl rfl)

theorem kept_cutReset (s : State) (r : Nat) (e : SI) : Kept s (State.cutReset s r e) := by
  unfold State.cutReset
  try dsimp only
  repeat' first
    | with_reducible exact Kept.refl _
    | split
    | with_reducible refine (kept_modRegion _ _ _).after ?_
    | with_reducible refine (kept_closeSpan _ _ _ _).after ?_
    | refine Kept.ofPair (by assumption) ?_
    | (fail_if_no_progress refine Kept.upd ?_ rfl rfl rfl)

theorem kept_placeEnd (s : State) (e : SI) : Kept s (State.placeEnd s e) := by
  unfold State.placeEnd
  try dsimp only
  repeat' first
    | with_reducible exact Kept.refl _
    | split
    | with_reducible refine (kept_placeActive _ _).after ?_
    | with_reducible refine (kept_anchorRecords _ _ _).after ?_
    | (with_reducible refine (Kept.foldl _ ?_ _ _).after ?_; focus intro _ _)
    | (fail_if_no_progress refine Kept.upd ?_ rfl rfl rfl)

theorem kept_flushRun (s : State) (e : SI) : Kept s (State.flushRun s e) := by
  unfold State.flushRun
  try dsimp only
  repeat' first
    | with_reducible exact Kept.refl _
    | split
    | with_reducible refine (kept_closeRegion _ _).after ?_
    | with_reducible refine (kept_gatedRecord _ _ _).after ?_
    | with_reducible refine (kept_advanceBlocks _).after ?_
    | with_reducible refine (kept_flushBlock _ _).after ?_
    | with_reducible refine (kept_blockSelvedge _ _ _).after ?_
    | with_reducible refine (kept_finishSample _ _ _).after ?_
    | with_reducible refine (kept_stagingSelvedge _ _ _).after ?_
    | with_reducible refine (kept_abandonIn _ _ _).after ?_
    | with_reducible refine (kept_drainMessages _ _).after ?_
    | with_reducible refine (kept_endAllStats _ _ _).after ?_
    | with_reducible refine (kept_endIvl _ _ _).after ?_
    | with_reducible refine (kept_cutReset _ _ _).after ?_
    | with_reducible refine (kept_placeEnd _ _).after ?_
    | with_reducible refine (kept_drainClocks _ _ _).after ?_
    | (with_reducible refine (Kept.foldl _ ?_ _ _).after ?_; focus intro _ _)
    | (fail_if_no_progress refine Kept.upd ?_ rfl rfl rfl)

theorem kept_releaseStart (s : State) : Kept s (State.releaseStart s) := by
  unfold State.releaseStart
  try dsimp only
  repeat' first
    | with_reducible exact Kept.refl _
    | split
    | with_reducible refine (kept_unreserve _ _).after ?_
    | with_reducible refine (kept_complete _ _ _ _ _).after ?_
    | with_reducible refine (kept_startRunEffect _ _).after ?_
    | (fail_if_no_progress refine Kept.upd ?_ rfl rfl rfl)

theorem kept_signAll (s : State) : Kept s (State.signAll s) := by
  unfold State.signAll
  try dsimp only
  repeat' first
    | with_reducible exact Kept.refl _
    | split
    | with_reducible refine (kept_sign _ _).after ?_
    | (with_reducible refine (Kept.foldl _ ?_ _ _).after ?_; focus intro _ _)
    | (fail_if_no_progress refine Kept.upd ?_ rfl rfl rfl)

theorem kept_endRun (s : State) : Kept s (State.endRun s) := by
  unfold State.endRun
  try dsimp only
  repeat' first
    | with_reducible exact Kept.refl _
    | split
    | with_reducible refine (kept_raise _ _).after ?_
    | with_reducible refine (kept_releaseStart _).after ?_
    | with_reducible refine (kept_signAll _).after ?_
    | (fail_if_no_progress refine Kept.upd ?_ rfl rfl rfl)

theorem kept_rowRunShutdownEnd (t : SI) (s : State) : Kept s (rowRunShutdownEnd t s) := by
  unfold rowRunShutdownEnd
  try dsimp only
  repeat' first
    | with_reducible exact Kept.refl _
    | split
    | with_reducible refine (kept_moment _ _).after ?_
    | with_reducible refine (kept_flushRun _ _).after ?_
    | with_reducible refine (kept_endRun _).after ?_
    | (fail_if_no_progress refine Kept.upd ?_ rfl rfl rfl)

theorem kept_setClock (s : State) (r : Nat) (k : Nat) (c : Option StateClock) (b : SI) : Kept s (State.setClock s r k c b) := by
  unfold State.setClock
  try dsimp only
  repeat' first
    | with_reducible exact Kept.refl _
    | split
    | with_reducible refine (kept_modRegion _ _ _).after ?_
    | with_reducible refine (kept_drainClocks _ _ _).after ?_
    | (fail_if_no_progress refine Kept.upd ?_ rfl rfl rfl)

theorem kept_cutStats (s : State) (r : Nat) (ks : List Nat) (b : SI) (cut : Bool) (again : Bool) : Kept s (State.cutStats s r ks b cut again) := by
  unfold State.cutStats
  try dsimp only
  repeat' first
    | with_reducible exact Kept.refl _
    | split
    | with_reducible refine (kept_modRegion _ _ _).after ?_
    | (fail_if_no_progress refine Kept.upd ?_ rfl rfl rfl)

theorem kept_setStats (s : State) (r : Nat) (on : Bool) (log2 : Nat) (mask : BitVec 256) (b : SI) : Kept s (State.setStats s r on log2 mask b) := by
  unfold State.setStats
  try dsimp only
  repeat' first
    | with_reducible exact Kept.refl _
    | split
    | with_reducible refine (kept_modRegion _ _ _).after ?_
    | with_reducible refine (kept_advanceStats _ _ _).after ?_
    | with_reducible refine (kept_finishEnded _ _ _).after ?_
    | with_reducible refine (kept_cutStats _ _ _ _ _ _).after ?_
    | (with_reducible refine (Kept.foldl _ ?_ _ _).after ?_; focus intro _ _)
    | (fail_if_no_progress refine Kept.upd ?_ rfl rfl rfl)

theorem kept_setReduction (p : List Byte) (s : State) : Kept s (setReduction p s) := by
  unfold setReduction
  try dsimp only
  repeat' first
    | with_reducible exact Kept.refl _
    | split
    | with_reducible refine (kept_modRegion _ _ _).after ?_
    | with_reducible refine (kept_setClock _ _ _ _ _).after ?_
    | with_reducible refine (kept_setStats _ _ _ _ _ _).after ?_
    | (with_reducible refine (Kept.foldl _ ?_ _ _).after ?_; focus intro _ _)
    | (fail_if_no_progress refine Kept.upd ?_ rfl rfl rfl)

theorem kept_discardRings (s : State) (b : SI) : Kept s (State.discardRings s b) := by
  unfold State.discardRings
  try dsimp only
  repeat' first
    | with_reducible exact Kept.refl _
    | split
    | (fail_if_no_progress refine Kept.upd ?_ rfl rfl rfl)

theorem kept_setLookback (p : List Byte) (s : State) : Kept s (setLookback p s) := by
  unfold setLookback
  try dsimp only
  repeat' first
    | with_reducible exact Kept.refl _
    | split
    | with_reducible refine (kept_discardRings _ _).after ?_
    | (fail_if_no_progress refine Kept.upd ?_ rfl rfl rfl)

theorem kept_setWindowPolicy (p : List Byte) (s : State) : Kept s (setWindowPolicy p s) := by
  unfold setWindowPolicy
  try dsimp only
  repeat' first
    | with_reducible exact Kept.refl _
    | split
    | (fail_if_no_progress refine Kept.upd ?_ rfl rfl rfl)

theorem kept_openExport (s : State) (k : Nat) (j : Nat) (p : List Byte) : Kept s (State.openExport s k j p) := by
  unfold State.openExport
  try dsimp only
  repeat' first
    | with_reducible exact Kept.refl _
    | split
    | with_reducible refine (kept_openSlot _ _ _ _).after ?_
    | (fail_if_no_progress refine Kept.upd ?_ rfl rfl rfl)

theorem kept_exportWindowEffect (c : Ctx) (s : State) : Kept s (exportWindowEffect c s) := by
  unfold exportWindowEffect
  try dsimp only
  repeat' first
    | with_reducible exact Kept.refl _
    | split
    | with_reducible refine (kept_startJob _ _ _ _).after ?_
    | with_reducible refine (kept_openExport _ _ _ _).after ?_
    | (fail_if_no_progress refine Kept.upd ?_ rfl rfl rfl)

theorem kept_dequeueExport (s : State) (j : Job) : Kept s (State.dequeueExport s j) := by
  unfold State.dequeueExport
  try dsimp only
  repeat' first
    | with_reducible exact Kept.refl _
    | split
    | with_reducible refine (kept_modJob _ _ _).after ?_
    | with_reducible refine (kept_openExport _ _ _ _).after ?_
    | (fail_if_no_progress refine Kept.upd ?_ rfl rfl rfl)

theorem kept_cancelExport (s : State) (j : Nat) : Kept s (State.cancelExport s j).1 := by
  unfold State.cancelExport
  try dsimp only
  repeat' first
    | with_reducible exact Kept.refl _
    | split
    | with_reducible refine (kept_closeWindow _ _ _ _).after ?_
    | (fail_if_no_progress refine Kept.upd ?_ rfl rfl rfl)

theorem kept_retransmit (s : State) (n : Nat) : Kept s (State.retransmit s n) := by
  unfold State.retransmit
  try dsimp only
  repeat' first
    | with_reducible exact Kept.refl _
    | split
    | with_reducible refine (kept_modPort _ _ _).after ?_
    | with_reducible refine (kept_transmit _ _ _ _).after ?_
    | with_reducible refine (kept_stampSent _ _ _).after ?_
    | (with_reducible refine (Kept.foldl _ ?_ _ _).after ?_; focus intro _ _)
    | (fail_if_no_progress refine Kept.upd ?_ rfl rfl rfl)

theorem kept_takeAck (s : State) (n : Nat) (w : IdleBlock) : Kept s (State.takeAck s n w) := by
  unfold State.takeAck
  try dsimp only
  repeat' first
    | with_reducible exact Kept.refl _
    | split
    | with_reducible refine (kept_modPort _ _ _).after ?_
    | with_reducible refine (kept_sendQueued _ _ _).after ?_
    | with_reducible refine (kept_retransmit _ _).after ?_
    | (fail_if_no_progress refine Kept.upd ?_ rfl rfl rfl)

theorem kept_linkUp (s : State) (n : Nat) (w : IdleBlock) : Kept s (State.linkUp s n w) := by
  unfold State.linkUp
  try dsimp only
  repeat' first
    | with_reducible exact Kept.refl _
    | split
    | with_reducible refine (kept_raise _ _).after ?_
    | with_reducible refine (kept_modPort _ _ _).after ?_
    | with_reducible refine (kept_sendDown _ _ _).after ?_
    | with_reducible refine (kept_closePort _ _ _).after ?_
    | with_reducible refine (kept_setDepth _ _).after ?_
    | (fail_if_no_progress refine Kept.upd ?_ rfl rfl rfl)

theorem kept_trainState (s : State) (n : Nat) (k : Nat) (ev : Nat) : Kept s (State.trainState s n k ev) := by
  unfold State.trainState
  try dsimp only
  repeat' first
    | with_reducible exact Kept.refl _
    | split
    | with_reducible refine (kept_raiseIf _ _ _).after ?_
    | with_reducible refine (kept_modPort _ _ _).after ?_
    | (fail_if_no_progress refine Kept.upd ?_ rfl rfl rfl)

theorem kept_trainIdle (s : State) (n : Nat) (w : IdleBlock) : Kept s (State.trainIdle s n w) := by
  unfold State.trainIdle
  try dsimp only
  repeat' first
    | with_reducible exact Kept.refl _
    | split
    | with_reducible refine (kept_modPort _ _ _).after ?_
    | with_reducible refine (kept_linkUp _ _ _).after ?_
    | with_reducible refine (kept_trainState _ _ _ _).after ?_
    | with_reducible refine (kept_sendIdle _ _).after ?_
    | (fail_if_no_progress refine Kept.upd ?_ rfl rfl rfl)

theorem kept_execIdle (t : SI) (port : Fin 16) (w : IdleBlock) (s : State) : KeptO s (execIdle t port w s) := by
  unfold execIdle
  try dsimp only
  repeat' first
    | with_reducible exact Kept.refl _
    | with_reducible refine KeptO.next ?_
    | split
    | with_reducible refine (kept_moment _ _).after ?_
    | with_reducible refine (kept_modPort _ _ _).after ?_
    | with_reducible refine (kept_takeAck _ _ _).after ?_
    | with_reducible refine (kept_trainIdle _ _ _).after ?_
    | with_reducible refine (kept_setDepth _ _).after ?_
    | with_reducible refine (kept_announce _).after ?_
    | (fail_if_no_progress refine Kept.upd ?_ rfl rfl rfl)

theorem kept_execBlockLockAchieved (t : SI) (port : Fin 16) (s : State) : KeptO s (execBlockLockAchieved t port s) := by
  unfold execBlockLockAchieved
  try dsimp only
  repeat' first
    | with_reducible exact Kept.refl _
    | with_reducible refine KeptO.next ?_
    | split
    | with_reducible refine (kept_moment _ _).after ?_
    | with_reducible refine (kept_modPort _ _ _).after ?_
    | (fail_if_no_progress refine Kept.upd ?_ rfl rfl rfl)

theorem kept_execBlockLockLoss (t : SI) (port : Fin 16) (s : State) : KeptO s (execBlockLockLoss t port s) := by
  unfold execBlockLockLoss
  try dsimp only
  repeat' first
    | with_reducible exact Kept.refl _
    | with_reducible refine KeptO.next ?_
    | split
    | with_reducible refine (kept_moment _ _).after ?_
    | with_reducible refine (kept_modPort _ _ _).after ?_
    | (fail_if_no_progress refine Kept.upd ?_ rfl rfl rfl)

theorem kept_execCascadeLinkDown (t : SI) (port : Fin 16) (cause : LinkDownCause) (s : State) : KeptO s (execCascadeLinkDown t port cause s) := by
  unfold execCascadeLinkDown
  try dsimp only
  repeat' first
    | with_reducible exact Kept.refl _
    | with_reducible refine KeptO.next ?_
    | split
    | with_reducible refine (kept_moment _ _).after ?_
    | with_reducible refine (kept_portDown _ _).after ?_
    | with_reducible refine (kept_announce _).after ?_
    | (fail_if_no_progress refine Kept.upd ?_ rfl rfl rfl)

theorem kept_execRetransmitTimeout (t : SI) (port : Fin 16) (s : State) : KeptO s (execRetransmitTimeout t port s) := by
  unfold execRetransmitTimeout
  try dsimp only
  repeat' first
    | with_reducible exact Kept.refl _
    | with_reducible refine KeptO.next ?_
    | split
    | with_reducible refine (kept_moment _ _).after ?_
    | with_reducible refine (kept_retransmit _ _).after ?_
    | (fail_if_no_progress refine Kept.upd ?_ rfl rfl rfl)

theorem kept_spoilCopy (s : State) (type : Nat) (m : CasMsg) : Kept s (State.spoilCopy s type m) := by
  unfold State.spoilCopy
  try dsimp only
  repeat' first
    | with_reducible exact Kept.refl _
    | split
    | with_reducible refine (kept_putBlocks _ _ _).after ?_
    | (with_reducible refine (Kept.foldl _ ?_ _ _).after ?_; focus intro _ _)
    | (fail_if_no_progress refine Kept.upd ?_ rfl rfl rfl)

theorem kept_execBadCrcMessage (t : SI) (port : Fin 16) (cut : Option (Fin 16 × CasMsg)) (s : State) : KeptO s (execBadCrcMessage t port cut s) := by
  unfold execBadCrcMessage
  try dsimp only
  repeat' first
    | with_reducible exact Kept.refl _
    | with_reducible refine KeptO.next ?_
    | split
    | with_reducible refine (kept_moment _ _).after ?_
    | with_reducible refine (kept_modPort _ _ _).after ?_
    | with_reducible refine (kept_refuseMessage _ _).after ?_
    | with_reducible refine (kept_spoilCopy _ _ _).after ?_
    | with_reducible refine (kept_announce _).after ?_
    | (fail_if_no_progress refine Kept.upd ?_ rfl rfl rfl)

theorem kept_accept (s : State) (n : Nat) (m : CasMsg) : Kept s (State.accept s n m).1 := by
  unfold State.accept
  try dsimp only
  repeat' first
    | with_reducible exact Kept.refl _
    | split
    | with_reducible refine (kept_acceptSeq _ _ _).after ?_
    | (fail_if_no_progress refine Kept.upd ?_ rfl rfl rfl)

theorem kept_retroNoRun (s : State) : Kept s (State.retroNoRun s) := by
  unfold State.retroNoRun
  try dsimp only
  repeat' first
    | with_reducible exact Kept.refl _
    | split
    | with_reducible refine (kept_raise _ _).after ?_
    | (fail_if_no_progress refine Kept.upd ?_ rfl rfl rfl)

theorem kept_retroTack (s : State) (m : CasMsg) (forced : Bool) (sew : Bool) (slot : Option Nat) : Kept s (State.retroTack s m forced sew slot) := by
  unfold State.retroTack
  try dsimp only
  repeat' first
    | with_reducible exact Kept.refl _
    | split
    | with_reducible refine (kept_raise _ _).after ?_
    | with_reducible refine (kept_placeActive _ _).after ?_
    | with_reducible refine (kept_pulse _ _ _ _ _).after ?_
    | with_reducible refine (kept_requestWindow _ _ _).after ?_
    | with_reducible refine (kept_releaseWindow _ _).after ?_
    | with_reducible refine (kept_openReserved _ _ _).after ?_
    | with_reducible refine (kept_modSeq _ _ _).after ?_
    | (fail_if_no_progress refine Kept.upd ?_ rfl rfl rfl)

theorem kept_fireDelivered (s : State) (m : CasMsg) : Kept s (State.fireDelivered s m) := by
  unfold State.fireDelivered
  try dsimp only
  repeat' first
    | with_reducible exact Kept.refl _
    | split
    | with_reducible refine (kept_raise _ _).after ?_
    | with_reducible refine (kept_seqCascade _ _ _).after ?_
    | (fail_if_no_progress refine Kept.upd ?_ rfl rfl rfl)

theorem kept_execFire (t : SI) (port : Fin 16) (m : CasMsg) (s : State) : KeptO s (execFire t port m s) := by
  unfold execFire
  try dsimp only
  repeat' first
    | with_reducible exact Kept.refl _
    | with_reducible refine KeptO.next ?_
    | split
    | with_reducible refine (kept_moment _ _).after ?_
    | with_reducible refine (kept_forward _ _ _).after ?_
    | with_reducible refine (kept_accept _ _ _).after ?_
    | with_reducible refine (kept_retroNoRun _).after ?_
    | with_reducible refine (kept_retroTack _ _ _ _ _).after ?_
    | with_reducible refine (kept_fireDelivered _ _).after ?_
    | refine Kept.ofPair (by assumption) ?_
    | (fail_if_no_progress refine Kept.upd ?_ rfl rfl rfl)

theorem kept_track (s : State) (port : Nat) (m : CasMsg) : Kept s (State.track s port m) := by
  unfold State.track
  try dsimp only
  repeat' first
    | with_reducible exact Kept.refl _
    | split
    | (fail_if_no_progress refine Kept.upd ?_ rfl rfl rfl)

theorem kept_untrack (s : State) (m : CasMsg) : Kept s (State.untrack s m) := by
  unfold State.untrack
  try dsimp only
  repeat' first
    | with_reducible exact Kept.refl _
    | split
    | (fail_if_no_progress refine Kept.upd ?_ rfl rfl rfl)

theorem kept_basteDelivered (s : State) (m : CasMsg) : Kept s (State.basteDelivered s m) := by
  unfold State.basteDelivered
  try dsimp only
  repeat' first
    | with_reducible exact Kept.refl _
    | split
    | with_reducible refine (kept_raise _ _).after ?_
    | with_reducible refine (kept_placeProvisional _ _).after ?_
    | with_reducible refine (kept_pulse _ _ _ _ _).after ?_
    | with_reducible refine (kept_reserveWindow _ _ _).after ?_
    | with_reducible refine (kept_seqCascade _ _ _).after ?_
    | refine Kept.ofPair (by assumption) ?_
    | (fail_if_no_progress refine Kept.upd ?_ rfl rfl rfl)

theorem kept_execBasteMessage (t : SI) (port : Fin 16) (m : CasMsg) (s : State) : KeptO s (execBasteMessage t port m s) := by
  unfold execBasteMessage
  try dsimp only
  repeat' first
    | with_reducible exact Kept.refl _
    | with_reducible refine KeptO.next ?_
    | split
    | with_reducible refine (kept_moment _ _).after ?_
    | with_reducible refine (kept_forward _ _ _).after ?_
    | with_reducible refine (kept_accept _ _ _).after ?_
    | with_reducible refine (kept_track _ _ _).after ?_
    | with_reducible refine (kept_basteDelivered _ _).after ?_
    | refine Kept.ofPair (by assumption) ?_
    | (fail_if_no_progress refine Kept.upd ?_ rfl rfl rfl)

theorem kept_bind (s : State) (n : Nat) (r : Nat) : Kept s (State.bind s n r) := by
  unfold State.bind
  try dsimp only
  repeat' first
    | with_reducible exact Kept.refl _
    | split
    | with_reducible refine (kept_modRing _ _ _).after ?_
    | (fail_if_no_progress refine Kept.upd ?_ rfl rfl rfl)

theorem kept_sewDelivered (s : State) (m : CasMsg) : Kept s (State.sewDelivered s m) := by
  unfold State.sewDelivered
  try dsimp only
  repeat' first
    | with_reducible exact Kept.refl _
    | split
    | with_reducible refine (kept_placeProvisional _ _).after ?_
    | with_reducible refine (kept_resolvePins _ _).after ?_
    | with_reducible refine (kept_releaseWindow _ _).after ?_
    | with_reducible refine (kept_retroNoRun _).after ?_
    | with_reducible refine (kept_retroTack _ _ _ _ _).after ?_
    | with_reducible refine (kept_fireDelivered _ _).after ?_
    | with_reducible refine (kept_bind _ _ _).after ?_
    | (fail_if_no_progress refine Kept.upd ?_ rfl rfl rfl)

theorem kept_execSewMessage (t : SI) (port : Fin 16) (m : CasMsg) (s : State) : KeptO s (execSewMessage t port m s) := by
  unfold execSewMessage
  try dsimp only
  repeat' first
    | with_reducible exact Kept.refl _
    | with_reducible refine KeptO.next ?_
    | split
    | with_reducible refine (kept_moment _ _).after ?_
    | with_reducible refine (kept_forward _ _ _).after ?_
    | with_reducible refine (kept_accept _ _ _).after ?_
    | with_reducible refine (kept_untrack _ _).after ?_
    | with_reducible refine (kept_sewDelivered _ _).after ?_
    | refine Kept.ofPair (by assumption) ?_
    | (fail_if_no_progress refine Kept.upd ?_ rfl rfl rfl)

theorem kept_unpickDelivered (s : State) (m : CasMsg) : Kept s (State.unpickDelivered s m) := by
  unfold State.unpickDelivered
  try dsimp only
  repeat' first
    | with_reducible exact Kept.refl _
    | split
    | with_reducible refine (kept_placeProvisional _ _).after ?_
    | with_reducible refine (kept_unpickPins _ _).after ?_
    | with_reducible refine (kept_unpickRemote _ _ _ _).after ?_
    | (fail_if_no_progress refine Kept.upd ?_ rfl rfl rfl)

theorem kept_execUnpickMessage (t : SI) (port : Fin 16) (m : CasMsg) (s : State) : KeptO s (execUnpickMessage t port m s) := by
  unfold execUnpickMessage
  try dsimp only
  repeat' first
    | with_reducible exact Kept.refl _
    | with_reducible refine KeptO.next ?_
    | split
    | with_reducible refine (kept_moment _ _).after ?_
    | with_reducible refine (kept_forward _ _ _).after ?_
    | with_reducible refine (kept_accept _ _ _).after ?_
    | with_reducible refine (kept_untrack _ _).after ?_
    | with_reducible refine (kept_unpickDelivered _ _).after ?_
    | refine Kept.ofPair (by assumption) ?_
    | (fail_if_no_progress refine Kept.upd ?_ rfl rfl rfl)

theorem kept_execRemoteBasteExpiry (t : SI) (origin : BitVec 14) (number : BitVec 16) (s : State) : KeptO s (execRemoteBasteExpiry t origin number s) := by
  unfold execRemoteBasteExpiry
  try dsimp only
  repeat' first
    | with_reducible exact Kept.refl _
    | with_reducible refine KeptO.next ?_
    | split
    | with_reducible refine (kept_moment _ _).after ?_
    | with_reducible refine (kept_unpickRemote _ _ _ _).after ?_
    | (fail_if_no_progress refine Kept.upd ?_ rfl rfl rfl)

theorem kept_execDoubtMessage (t : SI) (port : Fin 16) (m : CasMsg) (s : State) : KeptO s (execDoubtMessage t port m s) := by
  unfold execDoubtMessage
  try dsimp only
  repeat' first
    | with_reducible exact Kept.refl _
    | with_reducible refine KeptO.next ?_
    | split
    | with_reducible refine (kept_moment _ _).after ?_
    | with_reducible refine (kept_raise _ _).after ?_
    | with_reducible refine (kept_forward _ _ _).after ?_
    | with_reducible refine (kept_seqCascade _ _ _).after ?_
    | with_reducible refine (kept_accept _ _ _).after ?_
    | refine Kept.ofPair (by assumption) ?_
    | (fail_if_no_progress refine Kept.upd ?_ rfl rfl rfl)

theorem kept_holdCascade (s : State) (c : CasCmd) : Kept s (State.holdCascade s c) := by
  unfold State.holdCascade
  try dsimp only
  repeat' first
    | with_reducible exact Kept.refl _
    | split
    | with_reducible refine (kept_raise _ _).after ?_
    | with_reducible refine (kept_reserve _ _).after ?_
    | with_reducible refine (kept_armFailed _ _ _).after ?_
    | (fail_if_no_progress refine Kept.upd ?_ rfl rfl rfl)

theorem kept_cascadeCommand (s : State) (port : Nat) (type : Nat) (m : CasMsg) (arm : Bool) : Kept s (State.cascadeCommand s port type m arm) := by
  unfold State.cascadeCommand
  try dsimp only
  repeat' first
    | with_reducible exact Kept.refl _
    | split
    | with_reducible refine (kept_sendDown _ _ _).after ?_
    | with_reducible refine (kept_accept _ _ _).after ?_
    | with_reducible refine (kept_holdCascade _ _).after ?_
    | refine Kept.ofPair (by assumption) ?_
    | (fail_if_no_progress refine Kept.upd ?_ rfl rfl rfl)

theorem kept_execArmMessage (t : SI) (port : Fin 16) (m : CasMsg) (s : State) : KeptO s (execArmMessage t port m s) := by
  unfold execArmMessage
  try dsimp only
  repeat' first
    | with_reducible exact Kept.refl _
    | with_reducible refine KeptO.next ?_
    | split
    | with_reducible refine (kept_moment _ _).after ?_
    | with_reducible refine (kept_cascadeCommand _ _ _ _ _).after ?_
    | (fail_if_no_progress refine Kept.upd ?_ rfl rfl rfl)

theorem kept_execDisarmMessage (t : SI) (port : Fin 16) (m : CasMsg) (s : State) : KeptO s (execDisarmMessage t port m s) := by
  unfold execDisarmMessage
  try dsimp only
  repeat' first
    | with_reducible exact Kept.refl _
    | with_reducible refine KeptO.next ?_
    | split
    | with_reducible refine (kept_moment _ _).after ?_
    | with_reducible refine (kept_cascadeCommand _ _ _ _ _).after ?_
    | (fail_if_no_progress refine Kept.upd ?_ rfl rfl rfl)

theorem kept_applyCascade (s : State) (c : CasCmd) : Kept s (State.applyCascade s c) := by
  unfold State.applyCascade
  try dsimp only
  repeat' first
    | with_reducible exact Kept.refl _
    | split
    | with_reducible refine (kept_raise _ _).after ?_
    | with_reducible refine (kept_reserve _ _).after ?_
    | with_reducible refine (kept_armEffect _ _).after ?_
    | with_reducible refine (kept_armHold _ _).after ?_
    | with_reducible refine (kept_disarmEffect _ _).after ?_
    | with_reducible refine (kept_armFailed _ _ _).after ?_
    | (fail_if_no_progress refine Kept.upd ?_ rfl rfl rfl)

theorem kept_rowCascadeCommandDue (t : SI) (s : State) : Kept s (rowCascadeCommandDue t s) := by
  unfold rowCascadeCommandDue
  try dsimp only
  repeat' first
    | with_reducible exact Kept.refl _
    | split
    | with_reducible refine (kept_moment _ _).after ?_
    | with_reducible refine (kept_unreserve _ _).after ?_
    | with_reducible refine (kept_applyCascade _ _).after ?_
    | (fail_if_no_progress refine Kept.upd ?_ rfl rfl rfl)

theorem kept_execArmResult (t : SI) (port : Fin 16) (m : CasMsg) (s : State) : KeptO s (execArmResult t port m s) := by
  unfold execArmResult
  try dsimp only
  repeat' first
    | with_reducible exact Kept.refl _
    | with_reducible refine KeptO.next ?_
    | split
    | with_reducible refine (kept_moment _ _).after ?_
    | with_reducible refine (kept_raise _ _).after ?_
    | with_reducible refine (kept_sendUp _ _ _).after ?_
    | with_reducible refine (kept_accept _ _ _).after ?_
    | refine Kept.ofPair (by assumption) ?_
    | (fail_if_no_progress refine Kept.upd ?_ rfl rfl rfl)

theorem kept_execIsolated (t : SI) (port : Fin 16) (m : CasMsg) (s : State) : KeptO s (execIsolated t port m s) := by
  unfold execIsolated
  try dsimp only
  repeat' first
    | with_reducible exact Kept.refl _
    | with_reducible refine KeptO.next ?_
    | split
    | with_reducible refine (kept_moment _ _).after ?_
    | with_reducible refine (kept_isolate _ _ _).after ?_
    | with_reducible refine (kept_accept _ _ _).after ?_
    | with_reducible refine (kept_sendDown _ _ _).after ?_
    | refine Kept.ofPair (by assumption) ?_
    | (fail_if_no_progress refine Kept.upd ?_ rfl rfl rfl)

theorem kept_execRejoined (t : SI) (port : Fin 16) (m : CasMsg) (s : State) : KeptO s (execRejoined t port m s) := by
  unfold execRejoined
  try dsimp only
  repeat' first
    | with_reducible exact Kept.refl _
    | with_reducible refine KeptO.next ?_
    | split
    | with_reducible refine (kept_moment _ _).after ?_
    | with_reducible refine (kept_sendDown _ _ _).after ?_
    | with_reducible refine (kept_closePort _ _ _).after ?_
    | with_reducible refine (kept_accept _ _ _).after ?_
    | refine Kept.ofPair (by assumption) ?_
    | (fail_if_no_progress refine Kept.upd ?_ rfl rfl rfl)

theorem kept_execDiscover (t : SI) (port : Fin 16) (m : CasMsg) (s : State) : KeptO s (execDiscover t port m s) := by
  unfold execDiscover
  try dsimp only
  repeat' first
    | with_reducible exact Kept.refl _
    | with_reducible refine KeptO.next ?_
    | split
    | with_reducible refine (kept_moment _ _).after ?_
    | with_reducible refine (kept_sendDown _ _ _).after ?_
    | with_reducible refine (kept_sendUp _ _ _).after ?_
    | with_reducible refine (kept_accept _ _ _).after ?_
    | refine Kept.ofPair (by assumption) ?_
    | (fail_if_no_progress refine Kept.upd ?_ rfl rfl rfl)

theorem kept_barError (s : State) : Kept s (State.barError s) := by
  unfold State.barError
  try dsimp only
  repeat' first
    | with_reducible exact Kept.refl _
    | split
    | (fail_if_no_progress refine Kept.upd ?_ rfl rfl rfl)

theorem kept_modSeam (s : State) (n : Nat) (f : Seam → Seam) : Kept s (State.modSeam s n f) := by
  unfold State.modSeam
  try dsimp only
  repeat' first
    | with_reducible exact Kept.refl _
    | split
    | (fail_if_no_progress refine Kept.upd ?_ rfl rfl rfl)

theorem kept_onRing (s : State) (n : Nat) (f : Ring → Ring) : Kept s (State.onRing s n f) := by
  unfold State.onRing
  try dsimp only
  repeat' first
    | with_reducible exact Kept.refl _
    | split
    | with_reducible refine (kept_modRing _ _ _).after ?_
    | (fail_if_no_progress refine Kept.upd ?_ rfl rfl rfl)

theorem kept_stripAccepted (s : State) (p : Nat → Bool) : Kept s (State.stripAccepted s p) := by
  unfold State.stripAccepted
  try dsimp only
  repeat' first
    | with_reducible exact Kept.refl _
    | split
    | (fail_if_no_progress refine Kept.upd ?_ rfl rfl rfl)

theorem kept_dropFetches (s : State) (p : Nat → Bool) : Kept s (State.dropFetches s p) := by
  unfold State.dropFetches
  try dsimp only
  repeat' first
    | with_reducible exact Kept.refl _
    | split
    | (fail_if_no_progress refine Kept.upd ?_ rfl rfl rfl)

theorem kept_rehome (s : State) (f : Nat → Nat) : Kept s (State.rehome s f) := by
  unfold State.rehome
  try dsimp only
  repeat' first
    | with_reducible exact Kept.refl _
    | split
    | (fail_if_no_progress refine Kept.upd ?_ rfl rfl rfl)

theorem kept_cutRings (s : State) (p : Nat → Bool) : Kept s (State.cutRings s p) := by
  unfold State.cutRings
  try dsimp only
  repeat' first
    | with_reducible exact Kept.refl _
    | split
    | with_reducible refine (kept_rehome _ _).after ?_
    | (with_reducible refine (Kept.foldl _ ?_ _ _).after ?_; focus intro _ _)
    | (fail_if_no_progress refine Kept.upd ?_ rfl rfl rfl)

theorem kept_startRing (s : State) (n : Nat) (v : Nat) : Kept s (State.startRing s n v) := by
  unfold State.startRing
  try dsimp only
  repeat' first
    | with_reducible exact Kept.refl _
    | split
    | with_reducible refine (kept_modRing _ _ _).after ?_
    | with_reducible refine (kept_stripAll _ _).after ?_
    | with_reducible refine (kept_dropFetches _ _).after ?_
    | with_reducible refine (kept_cutRings _ _).after ?_
    | (fail_if_no_progress refine Kept.upd ?_ rfl rfl rfl)

theorem kept_endRing (s : State) (n : Nat) : Kept s (State.endRing s n) := by
  unfold State.endRing
  try dsimp only
  repeat' first
    | with_reducible exact Kept.refl _
    | split
    | with_reducible refine (kept_modRing _ _ _).after ?_
    | with_reducible refine (kept_stripAccepted _ _).after ?_
    | with_reducible refine (kept_dropFetches _ _).after ?_
    | (fail_if_no_progress refine Kept.upd ?_ rfl rfl rfl)

theorem kept_cfgRing (s : State) (n : Nat) (v : Nat) : Kept s (State.cfgRing s n v) := by
  unfold State.cfgRing
  try dsimp only
  repeat' first
    | with_reducible exact Kept.refl _
    | split
    | with_reducible refine (kept_modRing _ _ _).after ?_
    | with_reducible refine (kept_startRing _ _ _).after ?_
    | with_reducible refine (kept_endRing _ _).after ?_
    | (fail_if_no_progress refine Kept.upd ?_ rfl rfl rfl)

theorem kept_writeTail (s : State) (n : Nat) (v : Nat) : Kept s (State.writeTail s n v) := by
  unfold State.writeTail
  try dsimp only
  repeat' first
    | with_reducible exact Kept.refl _
    | split
    | with_reducible refine (kept_onRing _ _ _).after ?_
    | (fail_if_no_progress refine Kept.upd ?_ rfl rfl rfl)

theorem kept_writeRingReg (s : State) (n : Nat) (o : Nat) (v : Nat) : Kept s (State.writeRingReg s n o v) := by
  unfold State.writeRingReg
  try dsimp only
  repeat' first
    | with_reducible exact Kept.refl _
    | split
    | with_reducible refine (kept_drainHold _).after ?_
    | with_reducible refine (kept_onRing _ _ _).after ?_
    | with_reducible refine (kept_cfgRing _ _ _).after ?_
    | with_reducible refine (kept_writeTail _ _ _).after ?_
    | (fail_if_no_progress refine Kept.upd ?_ rfl rfl rfl)

theorem kept_moveWindow (s : State) (hi : Nat) : Kept s (State.moveWindow s hi) := by
  unfold State.moveWindow
  try dsimp only
  repeat' first
    | with_reducible exact Kept.refl _
    | split
    | (fail_if_no_progress refine Kept.upd ?_ rfl rfl rfl)

theorem kept_endRewind (s : State) (b : Bobbin) : Kept s (State.endRewind s b) := by
  unfold State.endRewind
  try dsimp only
  repeat' first
    | with_reducible exact Kept.refl _
    | split
    | with_reducible refine (kept_complete _ _ _ _ _).after ?_
    | (fail_if_no_progress refine Kept.upd ?_ rfl rfl rfl)

theorem kept_queueReset (s : State) (i : Nat) : Kept s (State.queueReset s i) := by
  unfold State.queueReset
  try dsimp only
  repeat' first
    | with_reducible exact Kept.refl _
    | split
    | with_reducible refine (kept_modBob _ _ _).after ?_
    | with_reducible refine (kept_endRewind _ _).after ?_
    | (fail_if_no_progress refine Kept.upd ?_ rfl rfl rfl)

theorem kept_reattach (s : State) (i : Nat) : Kept s (State.reattach s i) := by
  unfold State.reattach
  try dsimp only
  repeat' first
    | with_reducible exact Kept.refl _
    | split
    | with_reducible refine (kept_raiseIf _ _ _).after ?_
    | with_reducible refine (kept_modBob _ _ _).after ?_
    | (fail_if_no_progress refine Kept.upd ?_ rfl rfl rfl)

theorem kept_pointerWrite (s : State) (i : Nat) (which : Nat) (v : Nat) : Kept s (State.pointerWrite s i which v) := by
  unfold State.pointerWrite
  try dsimp only
  repeat' first
    | with_reducible exact Kept.refl _
    | split
    | with_reducible refine (kept_modBob _ _ _).after ?_
    | with_reducible refine (kept_queueReset _ _).after ?_
    | with_reducible refine (kept_reattach _ _).after ?_
    | (fail_if_no_progress refine Kept.upd ?_ rfl rfl rfl)

theorem kept_duplicateWrite (s : State) (i : Nat) (v : Nat) : Kept s (State.duplicateWrite s i v) := by
  unfold State.duplicateWrite
  try dsimp only
  repeat' first
    | with_reducible exact Kept.refl _
    | split
    | with_reducible refine (kept_modBob _ _ _).after ?_
    | with_reducible refine (kept_queueReset _ _).after ?_
    | (fail_if_no_progress refine Kept.upd ?_ rfl rfl rfl)

theorem kept_clearBobStat (s : State) (b : Nat) (v : Nat) : Kept s (State.clearBobStat s b v) := by
  unfold State.clearBobStat
  try dsimp only
  repeat' first
    | with_reducible exact Kept.refl _
    | split
    | with_reducible refine (kept_modBob _ _ _).after ?_
    | (fail_if_no_progress refine Kept.upd ?_ rfl rfl rfl)

theorem kept_writeBob (s : State) (b : Nat) (o : Nat) (v : Word) : Kept s (State.writeBob s b o v) := by
  unfold State.writeBob
  try dsimp only
  repeat' first
    | with_reducible exact Kept.refl _
    | split
    | with_reducible refine (kept_pointerWrite _ _ _ _).after ?_
    | with_reducible refine (kept_duplicateWrite _ _ _).after ?_
    | with_reducible refine (kept_clearBobStat _ _ _).after ?_
    | (fail_if_no_progress refine Kept.upd ?_ rfl rfl rfl)

theorem kept_writeBar0 (s : State) (o : Nat) (v : Word) : Kept s (State.writeBar0 s o v) := by
  unfold State.writeBar0
  try dsimp only
  repeat' first
    | with_reducible exact Kept.refl _
    | split
    | with_reducible refine (kept_modSeam _ _ _).after ?_
    | with_reducible refine (kept_writeRingReg _ _ _ _).after ?_
    | with_reducible refine (kept_moveWindow _ _).after ?_
    | with_reducible refine (kept_writeBob _ _ _ _).after ?_
    | (fail_if_no_progress refine Kept.upd ?_ rfl rfl rfl)

theorem kept_hostWrite (s : State) (o : Nat) (v : Word) (whole : Bool) (raced : Word) : Kept s (State.hostWrite s o v whole raced) := by
  unfold State.hostWrite
  try dsimp only
  repeat' first
    | with_reducible exact Kept.refl _
    | split
    | with_reducible refine (kept_barError _).after ?_
    | with_reducible refine (kept_writeBar0 _ _ _).after ?_
    | (fail_if_no_progress refine Kept.upd ?_ rfl rfl rfl)

theorem kept_discoverWrite (s : State) (j : Job) (e : List Byte) : Kept s (State.discoverWrite s j e) := by
  unfold State.discoverWrite
  try dsimp only
  repeat' first
    | with_reducible exact Kept.refl _
    | split
    | with_reducible refine (kept_postBytes _ _ _).after ?_
    | with_reducible refine (kept_raiseIf _ _ _).after ?_
    | with_reducible refine (kept_hostWrite _ _ _ _ _).after ?_
    | (fail_if_no_progress refine Kept.upd ?_ rfl rfl rfl)

theorem kept_discoverTake (s : State) (j : Job) (port : Nat) (e : List Byte) : Kept s (State.discoverTake s j port e) := by
  unfold State.discoverTake
  try dsimp only
  repeat' first
    | with_reducible exact Kept.refl _
    | split
    | with_reducible refine (kept_discoverWrite _ _ _).after ?_
    | (fail_if_no_progress refine Kept.upd ?_ rfl rfl rfl)

theorem kept_execReport (t : SI) (port : Fin 16) (m : CasMsg) (s : State) : KeptO s (execReport t port m s) := by
  unfold execReport
  try dsimp only
  repeat' first
    | with_reducible exact Kept.refl _
    | with_reducible refine KeptO.next ?_
    | split
    | with_reducible refine (kept_moment _ _).after ?_
    | with_reducible refine (kept_sendUp _ _ _).after ?_
    | with_reducible refine (kept_accept _ _ _).after ?_
    | with_reducible refine (kept_discoverTake _ _ _ _).after ?_
    | refine Kept.ofPair (by assumption) ?_
    | (fail_if_no_progress refine Kept.upd ?_ rfl rfl rfl)

theorem kept_cascadeDiscoverEffect (c : Ctx) (s : State) : Kept s (cascadeDiscoverEffect c s) := by
  unfold cascadeDiscoverEffect
  try dsimp only
  repeat' first
    | with_reducible exact Kept.refl _
    | split
    | with_reducible refine (kept_startJob _ _ _ _).after ?_
    | with_reducible refine (kept_sendDown _ _ _).after ?_
    | with_reducible refine (kept_discoverWrite _ _ _).after ?_
    | (fail_if_no_progress refine Kept.upd ?_ rfl rfl rfl)

theorem kept_setUnit (p : List Byte) (s : State) : Kept s (setUnit p s) := by
  unfold setUnit
  try dsimp only
  repeat' first
    | with_reducible exact Kept.refl _
    | split
    | with_reducible refine (kept_announce _).after ?_
    | (fail_if_no_progress refine Kept.upd ?_ rfl rfl rfl)

theorem kept_setRole (s : State) (n : Nat) (r : Nat) : Kept s (State.setRole s n r) := by
  unfold State.setRole
  try dsimp only
  repeat' first
    | with_reducible exact Kept.refl _
    | split
    | with_reducible refine (kept_modPort _ _ _).after ?_
    | with_reducible refine (kept_portDown _ _).after ?_
    | (fail_if_no_progress refine Kept.upd ?_ rfl rfl rfl)

theorem kept_setPortRole (p : List Byte) (s : State) : Kept s (setPortRole p s) := by
  unfold setPortRole
  try dsimp only
  repeat' first
    | with_reducible exact Kept.refl _
    | split
    | with_reducible refine (kept_setRole _ _ _).after ?_
    | with_reducible refine (kept_setDepth _ _).after ?_
    | with_reducible refine (kept_announce _).after ?_
    | (with_reducible refine (Kept.foldl _ ?_ _ _).after ?_; focus intro _ _)
    | (fail_if_no_progress refine Kept.upd ?_ rfl rfl rfl)

theorem kept_rowBobRdWrite (t : SI) (b : Fin 262144) (v : Word) (s : State) : Kept s (rowBobRdWrite t b v s) := by
  unfold rowBobRdWrite
  try dsimp only
  repeat' first
    | with_reducible exact Kept.refl _
    | split
    | with_reducible refine (kept_moment _ _).after ?_
    | with_reducible refine (kept_pointerWrite _ _ _ _).after ?_
    | (fail_if_no_progress refine Kept.upd ?_ rfl rfl rfl)

theorem kept_rowBobRelWrite (t : SI) (b : Fin 262144) (v : Word) (s : State) : Kept s (rowBobRelWrite t b v s) := by
  unfold rowBobRelWrite
  try dsimp only
  repeat' first
    | with_reducible exact Kept.refl _
    | split
    | with_reducible refine (kept_moment _ _).after ?_
    | with_reducible refine (kept_pointerWrite _ _ _ _).after ?_
    | (fail_if_no_progress refine Kept.upd ?_ rfl rfl rfl)

theorem kept_execBobMarkWrite (t : SI) (b : Fin 262144) (v : Word) (s : State) : KeptO s (execBobMarkWrite t b v s) := by
  unfold execBobMarkWrite
  try dsimp only
  repeat' first
    | with_reducible exact Kept.refl _
    | with_reducible refine KeptO.next ?_
    | split
    | with_reducible refine (kept_moment _ _).after ?_
    | with_reducible refine (kept_pointerWrite _ _ _ _).after ?_
    | (fail_if_no_progress refine Kept.upd ?_ rfl rfl rfl)

theorem kept_rowBobDupWrite (t : SI) (b : Fin 262144) (v : Word) (s : State) : Kept s (rowBobDupWrite t b v s) := by
  unfold rowBobDupWrite
  try dsimp only
  repeat' first
    | with_reducible exact Kept.refl _
    | split
    | with_reducible refine (kept_moment _ _).after ?_
    | with_reducible refine (kept_duplicateWrite _ _ _).after ?_
    | (fail_if_no_progress refine Kept.upd ?_ rfl rfl rfl)

theorem kept_rowDuplicateTimeout (t : SI) (b : Fin 262144) (s : State) : Kept s (rowDuplicateTimeout t b s) := by
  unfold rowDuplicateTimeout
  try dsimp only
  repeat' first
    | with_reducible exact Kept.refl _
    | split
    | with_reducible refine (kept_moment _ _).after ?_
    | with_reducible refine (kept_queueReset _ _).after ?_
    | (fail_if_no_progress refine Kept.upd ?_ rfl rfl rfl)

theorem kept_rowContextParityError (t : SI) (b : Fin 262144) (s : State) : Kept s (rowContextParityError t b s) := by
  unfold rowContextParityError
  try dsimp only
  repeat' first
    | with_reducible exact Kept.refl _
    | split
    | with_reducible refine (kept_moment _ _).after ?_
    | with_reducible refine (kept_modBob _ _ _).after ?_
    | (fail_if_no_progress refine Kept.upd ?_ rfl rfl rfl)

theorem kept_created (s : State) (i : Nat) (b : Bobbin) : Kept s (State.created s i b) := by
  unfold State.created
  try dsimp only
  repeat' first
    | with_reducible exact Kept.refl _
    | split
    | with_reducible refine (kept_postBytes _ _ _).after ?_
    | (fail_if_no_progress refine Kept.upd ?_ rfl rfl rfl)

theorem kept_createBobbinEffect (c : Ctx) (s : State) : Kept s (createBobbinEffect c s) := by
  unfold createBobbinEffect
  try dsimp only
  repeat' first
    | with_reducible exact Kept.refl _
    | split
    | with_reducible refine (kept_tick _).after ?_
    | with_reducible refine (kept_place _ _ _).after ?_
    | with_reducible refine (kept_finish _ _ _).after ?_
    | with_reducible refine (kept_created _ _ _).after ?_
    | (fail_if_no_progress refine Kept.upd ?_ rfl rfl rfl)

theorem kept_gone (s : State) (i : Nat) : Kept s (State.gone s i) := by
  unfold State.gone
  try dsimp only
  repeat' first
    | with_reducible exact Kept.refl _
    | split
    | with_reducible refine (kept_postBytes _ _ _).after ?_
    | (fail_if_no_progress refine Kept.upd ?_ rfl rfl rfl)

theorem kept_destroyBobbinEffect (c : Ctx) (s : State) : Kept s (destroyBobbinEffect c s) := by
  unfold destroyBobbinEffect
  try dsimp only
  repeat' first
    | with_reducible exact Kept.refl _
    | split
    | with_reducible refine (kept_retire _).after ?_
    | with_reducible refine (kept_finish _ _ _).after ?_
    | with_reducible refine (kept_gone _ _).after ?_
    | (fail_if_no_progress refine Kept.upd ?_ rfl rfl rfl)

theorem kept_route (p : List Byte) (s : State) : Kept s (route p s) := by
  unfold route
  try dsimp only
  repeat' first
    | with_reducible exact Kept.refl _
    | split
    | with_reducible refine (kept_modSource _ _ _).after ?_
    | (fail_if_no_progress refine Kept.upd ?_ rfl rfl rfl)

theorem kept_rewindEffect (c : Ctx) (s : State) : Kept s (rewindEffect c s) := by
  unfold rewindEffect
  try dsimp only
  repeat' first
    | with_reducible exact Kept.refl _
    | split
    | with_reducible refine (kept_modBob _ _ _).after ?_
    | with_reducible refine (kept_change _ _ _ _ _ _).after ?_
    | with_reducible refine (kept_finish _ _ _).after ?_
    | (fail_if_no_progress refine Kept.upd ?_ rfl rfl (by simp))
    | (fail_if_no_progress refine Kept.upd ?_ rfl rfl rfl)

theorem kept_rowRewindComplete (t : SI) (b : Fin 262144) (s : State) : Kept s (rowRewindComplete t b s) := by
  unfold rowRewindComplete
  try dsimp only
  repeat' first
    | with_reducible exact Kept.refl _
    | split
    | with_reducible refine (kept_moment _ _).after ?_
    | with_reducible refine (kept_postBytes _ _ _).after ?_
    | with_reducible refine (kept_modBob _ _ _).after ?_
    | with_reducible refine (kept_complete _ _ _ _ _).after ?_
    | (with_reducible refine (Kept.foldl _ ?_ _ _).after ?_; focus intro _ _)
    | (with_reducible refine (Kept.foldl2 _ ?_ _ _).after ?_; focus intro _ _)
    | refine Kept.ofPair (by assumption) ?_
    | (fail_if_no_progress refine Kept.upd ?_ rfl rfl rfl)

theorem kept_setCompressionEffect (c : Ctx) (s : State) : Kept s (setCompressionEffect c s) := by
  unfold setCompressionEffect
  try dsimp only
  repeat' first
    | with_reducible exact Kept.refl _
    | split
    | with_reducible refine (kept_modSource _ _ _).after ?_
    | with_reducible refine (kept_finish _ _ _).after ?_
    | (with_reducible refine (Kept.foldl _ ?_ _ _).after ?_; focus intro _ _)
    | (fail_if_no_progress refine Kept.upd ?_ rfl rfl rfl)

theorem kept_setSigningHold (c : Ctx) (s : State) : Kept s (setSigningHold c s) := by
  unfold setSigningHold
  try dsimp only
  repeat' first
    | with_reducible exact Kept.refl _
    | split
    | with_reducible refine (kept_modStream _ _ _).after ?_
    | (fail_if_no_progress refine Kept.upd ?_ rfl rfl rfl)

theorem kept_setSigningEffect (c : Ctx) (s : State) : Kept s (setSigningEffect c s) := by
  unfold setSigningEffect
  try dsimp only
  repeat' first
    | with_reducible exact Kept.refl _
    | split
    | with_reducible refine (kept_finish _ _ _).after ?_
    | with_reducible refine (kept_cancelDeferred _ _).after ?_
    | with_reducible refine (kept_modStream _ _ _).after ?_
    | with_reducible refine (kept_createStream _ _).after ?_
    | with_reducible refine (kept_closeStream _ _).after ?_
    | (fail_if_no_progress refine Kept.upd ?_ rfl rfl rfl)

theorem kept_regClear (s : State) (o : Nat) (w : Nat) : Kept s (State.regClear s o w) := by
  unfold State.regClear
  try dsimp only
  repeat' first
    | with_reducible exact Kept.refl _
    | split
    | with_reducible refine (kept_modRegion _ _ _).after ?_
    | with_reducible refine (kept_modRing _ _ _).after ?_
    | with_reducible refine (kept_modPort _ _ _).after ?_
    | with_reducible refine (kept_modCell _ _ _).after ?_
    | with_reducible refine (kept_modBlock _ _ _).after ?_
    | with_reducible refine (kept_modIvl _ _ _).after ?_
    | with_reducible refine (kept_modEngine _ _ _).after ?_
    | with_reducible refine (kept_modSeq _ _ _).after ?_
    | with_reducible refine (kept_modSeam _ _ _).after ?_
    | (fail_if_no_progress refine Kept.upd ?_ rfl rfl rfl)

theorem kept_snapshot (s : State) : Kept s (State.snapshot s) := by
  unfold State.snapshot
  try dsimp only
  repeat' first
    | with_reducible exact Kept.refl _
    | split
    | (fail_if_no_progress refine Kept.upd ?_ rfl rfl rfl)

theorem kept_sramNow (s : State) (o : Nat) : Kept s (State.sramNow s o) := by
  unfold State.sramNow
  try dsimp only
  repeat' first
    | with_reducible exact Kept.refl _
    | split
    | with_reducible refine (kept_advanceBlock _ _ _).after ?_
    | (fail_if_no_progress refine Kept.upd ?_ rfl rfl rfl)

theorem kept_answerRead (s : State) (v : Word) : Kept s (State.answerRead s v) := by
  unfold State.answerRead
  try dsimp only
  repeat' first
    | with_reducible exact Kept.refl _
    | split
    | (fail_if_no_progress refine Kept.upd ?_ rfl rfl rfl)

theorem kept_hostRead (s : State) (o : Nat) (w : Nat) : Kept s (State.hostRead s o w) := by
  unfold State.hostRead
  try dsimp only
  repeat' first
    | with_reducible exact Kept.refl _
    | split
    | with_reducible refine (kept_regClear _ _ _).after ?_
    | with_reducible refine (kept_snapshot _).after ?_
    | with_reducible refine (kept_sramNow _ _).after ?_
    | with_reducible refine (kept_answerRead _ _).after ?_
    | (with_reducible refine (Kept.foldl _ ?_ _ _).after ?_; focus intro _ _)
    | (fail_if_no_progress refine Kept.upd ?_ rfl rfl rfl)

theorem kept_issue (s : State) (q : Request) : Kept s (State.issue s q) := by
  unfold State.issue
  try dsimp only
  repeat' first
    | with_reducible exact Kept.refl _
    | split
    | with_reducible refine (kept_post _ _).after ?_
    | with_reducible refine (kept_hostRead _ _ _).after ?_
    | (fail_if_no_progress refine Kept.upd ?_ rfl rfl rfl)

theorem kept_issueWaiting (s : State) : Kept s (State.issueWaiting s) := by
  unfold State.issueWaiting
  try dsimp only
  repeat' first
    | with_reducible exact Kept.refl _
    | split
    | with_reducible refine (kept_issue _ _).after ?_
    | (with_reducible refine (Kept.foldl _ ?_ _ _).after ?_; focus intro _ _)
    | (fail_if_no_progress refine Kept.upd ?_ rfl rfl rfl)

theorem kept_quiesce (s : State) : Kept s (State.quiesce s) := by
  unfold State.quiesce
  try dsimp only
  repeat' first
    | with_reducible exact Kept.refl _
    | split
    | with_reducible refine (kept_raise _ _).after ?_
    | (fail_if_no_progress refine Kept.upd ?_ rfl rfl rfl)

theorem kept_replayFetch (s : State) : Kept s (State.replayFetch s) := by
  unfold State.replayFetch
  try dsimp only
  repeat' first
    | with_reducible exact Kept.refl _
    | split
    | with_reducible refine (kept_issue _ _).after ?_
    | (fail_if_no_progress refine Kept.upd ?_ rfl rfl rfl)

theorem kept_replayEffect (c : Ctx) (s : State) : Kept s (replayEffect c s) := by
  unfold replayEffect
  try dsimp only
  repeat' first
    | with_reducible exact Kept.refl _
    | split
    | with_reducible refine (kept_startJob _ _ _ _).after ?_
    | with_reducible refine (kept_replayFetch _).after ?_
    | (fail_if_no_progress refine Kept.upd ?_ rfl rfl rfl)

theorem kept_replayAccept (s : State) (g : InSeg) (rs : List Rec) : Kept s (State.replayAccept s g rs) := by
  unfold State.replayAccept
  try dsimp only
  repeat' first
    | with_reducible exact Kept.refl _
    | split
    | with_reducible refine (kept_modSeq _ _ _).after ?_
    | (fail_if_no_progress refine Kept.upd ?_ rfl rfl rfl)

theorem kept_replayReject (s : State) (code : Nat) (source : Nat) (first : Nat) (at_ : Nat) : Kept s (State.replayReject s code source first at_) := by
  unfold State.replayReject
  try dsimp only
  repeat' first
    | with_reducible exact Kept.refl _
    | split
    | (fail_if_no_progress refine Kept.upd ?_ rfl rfl rfl)

theorem kept_replayParse (s : State) (fuel : Nat) : Kept s (State.replayParse s fuel) := by
  induction fuel generalizing s with
  | zero => exact Kept.refl _
  | succ k ih =>
  unfold State.replayParse
  try dsimp only
  repeat' first
    | with_reducible refine (ih _).after ?_
    | with_reducible exact Kept.refl _
    | split
    | with_reducible refine (kept_replayAccept _ _ _).after ?_
    | with_reducible refine (kept_replayReject _ _ _ _ _).after ?_
    | (fail_if_no_progress refine Kept.upd ?_ rfl rfl rfl)

theorem kept_replayGo (s : State) : Kept s (State.replayGo s) := by
  unfold State.replayGo
  try dsimp only
  repeat' first
    | with_reducible exact Kept.refl _
    | split
    | with_reducible refine (kept_replayParse _ _).after ?_
    | with_reducible refine (kept_replayFetch _).after ?_
    | (fail_if_no_progress refine Kept.upd ?_ rfl rfl rfl)

theorem kept_replayData (s : State) (job : Nat) (ofs : Nat) (data : List Byte) : Kept s (State.replayData s job ofs data) := by
  unfold State.replayData
  try dsimp only
  repeat' first
    | with_reducible exact Kept.refl _
    | split
    | with_reducible refine (kept_replayGo _).after ?_
    | (fail_if_no_progress refine Kept.upd ?_ rfl rfl rfl)

theorem kept_replayReadFailed (s : State) (job : Nat) : Kept s (State.replayReadFailed s job) := by
  unfold State.replayReadFailed
  try dsimp only
  repeat' first
    | with_reducible exact Kept.refl _
    | split
    | with_reducible refine (kept_replayReject _ _ _ _ _).after ?_
    | (fail_if_no_progress refine Kept.upd ?_ rfl rfl rfl)

theorem kept_replayPoison (s : State) : Kept s (State.replayPoison s) := by
  unfold State.replayPoison
  try dsimp only
  repeat' first
    | with_reducible exact Kept.refl _
    | split
    | with_reducible refine (kept_replayReject _ _ _ _ _).after ?_
    | (fail_if_no_progress refine Kept.upd ?_ rfl rfl rfl)

theorem kept_replayLoad (s : State) (r : Rec) : Kept s (State.replayLoad s r) := by
  unfold State.replayLoad
  try dsimp only
  repeat' first
    | with_reducible exact Kept.refl _
    | split
    | with_reducible refine (kept_modSeq _ _ _).after ?_
    | with_reducible refine (kept_edges _ _ _ _ _ _ _).after ?_
    | (with_reducible refine (Kept.foldl _ ?_ _ _).after ?_; focus intro _ _)
    | (fail_if_no_progress refine Kept.upd ?_ rfl rfl rfl)

theorem kept_replayTake (s : State) (x : SI) : Kept s (State.replayTake s x) := by
  unfold State.replayTake
  try dsimp only
  repeat' first
    | with_reducible exact Kept.refl _
    | split
    | with_reducible refine (kept_replayLoad _ _).after ?_
    | (with_reducible refine (Kept.foldl _ ?_ _ _).after ?_; focus intro _ _)
    | (fail_if_no_progress refine Kept.upd ?_ rfl rfl rfl)

theorem kept_replayAnchor (s : State) (x : SI) (r : Rec) : Kept s (State.replayAnchor s x r) := by
  unfold State.replayAnchor
  try dsimp only
  repeat' first
    | with_reducible exact Kept.refl _
    | split
    | (fail_if_no_progress refine Kept.upd ?_ rfl rfl rfl)

theorem kept_replayTimes (s : State) (x : SI) : Kept s (State.replayTimes s x) := by
  unfold State.replayTimes
  try dsimp only
  repeat' first
    | with_reducible exact Kept.refl _
    | split
    | with_reducible refine (kept_place _ _ _).after ?_
    | with_reducible refine (kept_replayAnchor _ _ _).after ?_
    | (with_reducible refine (Kept.foldl _ ?_ _ _).after ?_; focus intro _ _)
    | (fail_if_no_progress refine Kept.upd ?_ rfl rfl rfl)

theorem kept_replaySlot (s : State) : Kept s (State.replaySlot s).1 := by
  unfold State.replaySlot
  try dsimp only
  repeat' first
    | with_reducible exact Kept.refl _
    | split
    | with_reducible refine (kept_evalSlot _ _).after ?_
    | with_reducible refine (kept_replayTake _ _).after ?_
    | with_reducible refine (kept_replayTimes _ _).after ?_
    | (fail_if_no_progress refine Kept.upd ?_ rfl rfl rfl)

theorem kept_replaySlots (s : State) (n : Nat) : Kept s (State.replaySlots s n) := by
  induction n generalizing s with
  | zero => exact Kept.refl _
  | succ k ih =>
  unfold State.replaySlots
  try dsimp only
  repeat' first
    | with_reducible refine (ih _).after ?_
    | with_reducible exact Kept.refl _
    | split
    | with_reducible refine (kept_replaySlot _).after ?_
    | refine Kept.ofPair (by assumption) ?_
    | (fail_if_no_progress refine Kept.upd ?_ rfl rfl rfl)

theorem kept_rowSlotEvaluation (t : SI) (q : Fin 2) (slots : Nat) (s : State) : Kept s (rowSlotEvaluation t q slots s) := by
  unfold rowSlotEvaluation
  try dsimp only
  repeat' first
    | with_reducible exact Kept.refl _
    | split
    | with_reducible refine (kept_moment _ _).after ?_
    | with_reducible refine (kept_advanceEngines _).after ?_
    | with_reducible refine (kept_liveSlots _ _ _).after ?_
    | with_reducible refine (kept_replaySlots _ _).after ?_
    | with_reducible refine (kept_replayGo _).after ?_
    | (fail_if_no_progress refine Kept.upd ?_ rfl rfl rfl)

theorem kept_replayStop (s : State) : Kept s (State.replayStop s) := by
  unfold State.replayStop
  try dsimp only
  repeat' first
    | with_reducible exact Kept.refl _
    | split
    | with_reducible refine (kept_modSeq _ _ _).after ?_
    | with_reducible refine (kept_unpickAll _ _ _ _).after ?_
    | (fail_if_no_progress refine Kept.upd ?_ rfl rfl rfl)

theorem kept_endCopy (s : State) (m : Migration) : Kept s (State.endCopy s m) := by
  unfold State.endCopy
  try dsimp only
  repeat' first
    | with_reducible exact Kept.refl _
    | split
    | with_reducible refine (kept_raise _ _).after ?_
    | with_reducible refine (kept_endJob _ _ _ _).after ?_
    | with_reducible refine (kept_modRank _ _ _ _).after ?_
    | (fail_if_no_progress refine Kept.upd ?_ rfl rfl rfl)

theorem kept_cancelCopy (s : State) (m : Migration) : Kept s (State.cancelCopy s m).1 := by
  unfold State.cancelCopy
  try dsimp only
  repeat' first
    | with_reducible exact Kept.refl _
    | split
    | with_reducible refine (kept_raise _ _).after ?_
    | with_reducible refine (kept_modRank _ _ _ _).after ?_
    | (fail_if_no_progress refine Kept.upd ?_ rfl rfl rfl)

theorem kept_loseWord (s : State) (m : Migration) (j : Nat) : Kept s (State.loseWord s m j) := by
  unfold State.loseWord
  try dsimp only
  repeat' first
    | with_reducible exact Kept.refl _
    | split
    | with_reducible refine (kept_modRank _ _ _ _).after ?_
    | with_reducible refine (kept_raise _ _).after ?_
    | (fail_if_no_progress refine Kept.upd ?_ rfl rfl (by simp))
    | (fail_if_no_progress refine Kept.upd ?_ rfl rfl rfl)

theorem kept_copyBlock (s : State) (m : Migration) : Kept s (State.copyBlock s m) := Kept.upd (Kept.refl s) rfl rfl (mem_copyBlock _ _ _)

theorem kept_rowMigrationBlockCopied (t : SI) (lost : List Nat) (spareBad : Bool) (s : State) : Kept s (rowMigrationBlockCopied t lost spareBad s) := by
  unfold rowMigrationBlockCopied
  try dsimp only
  repeat' first
    | with_reducible exact Kept.refl _
    | split
    | with_reducible refine (kept_moment _ _).after ?_
    | with_reducible refine (kept_endCopy _ _).after ?_
    | with_reducible refine (kept_spareFails _ _).after ?_
    | with_reducible refine (kept_loseWord _ _ _).after ?_
    | with_reducible refine (kept_copyBlock _ _).after ?_
    | (with_reducible refine (Kept.foldl _ ?_ _ _).after ?_; focus intro _ _)
    | (fail_if_no_progress refine Kept.upd ?_ rfl rfl (by simp))
    | (fail_if_no_progress refine Kept.upd ?_ rfl rfl rfl)

theorem kept_portLatency (s : State) (port : Nat) (ns : Nat) : Kept s (State.portLatency s port ns) := by
  unfold State.portLatency
  try dsimp only
  repeat' first
    | with_reducible exact Kept.refl _
    | split
    | with_reducible refine (kept_raiseIf _ _ _).after ?_
    | (fail_if_no_progress refine Kept.upd ?_ rfl rfl rfl)

theorem kept_bothCopies (s : State) (port : Nat) (a : Nat) : Kept s (State.bothCopies s port a) := by
  unfold State.bothCopies
  try dsimp only
  repeat' first
    | with_reducible exact Kept.refl _
    | split
    | with_reducible refine (kept_raise _ _).after ?_
    | with_reducible refine (kept_queueReset _ _).after ?_
    | (fail_if_no_progress refine Kept.upd ?_ rfl rfl (by simp))
    | (fail_if_no_progress refine Kept.upd ?_ rfl rfl rfl)

theorem kept_scrubbed (s : State) (a : Nat) (kind : ReadKind) : Kept s (State.scrubbed s a kind) := by
  unfold State.scrubbed
  try dsimp only
  repeat' first
    | with_reducible exact Kept.refl _
    | split
    | with_reducible refine (kept_modJob _ _ _).after ?_
    | with_reducible refine (kept_corrected _ _ _).after ?_
    | with_reducible refine (kept_uncorrectable _ _ _ _).after ?_
    | (fail_if_no_progress refine Kept.upd ?_ rfl rfl rfl)

theorem kept_returnRead (s : State) (r : DramReturn) : Kept s (State.returnRead s r) := by
  unfold State.returnRead
  try dsimp only
  repeat' first
    | with_reducible exact Kept.refl _
    | split
    | with_reducible refine (kept_portLatency _ _ _).after ?_
    | with_reducible refine (kept_poisonRead _).after ?_
    | with_reducible refine (kept_replayPoison _).after ?_
    | with_reducible refine (kept_bothCopies _ _ _).after ?_
    | (fail_if_no_progress refine Kept.upd ?_ rfl rfl rfl)

theorem kept_readReturns (s : State) (r : DramReturn) : Kept s (State.readReturns s r) := by
  unfold State.readReturns
  try dsimp only
  repeat' first
    | with_reducible exact Kept.refl _
    | split
    | with_reducible refine (kept_returnRead _ _).after ?_
    | (with_reducible refine (Kept.foldl _ ?_ _ _).after ?_; focus intro _ _)
    | (fail_if_no_progress refine Kept.upd ?_ rfl rfl rfl)

theorem kept_accessDone (s : State) (q : DramReq) (ahead : Nat) (more : Bool) (kind : ReadKind) : Kept s (State.accessDone s q ahead more kind) := by
  unfold State.accessDone
  try dsimp only
  repeat' first
    | with_reducible exact Kept.refl _
    | split
    | with_reducible refine (kept_portLatency _ _ _).after ?_
    | with_reducible refine (kept_readFound _ _ _ _ _).after ?_
    | with_reducible refine (kept_scrubbed _ _ _).after ?_
    | with_reducible refine (kept_readReturns _ _).after ?_
    | (fail_if_no_progress refine Kept.upd ?_ rfl rfl (by simp))
    | (fail_if_no_progress refine Kept.upd ?_ rfl rfl rfl)

theorem kept_refreshMany (s : State) (n : Nat) : Kept s (State.refreshMany s n) := by
  unfold State.refreshMany
  try dsimp only
  repeat' first
    | with_reducible exact Kept.refl _
    | split
    | (fail_if_no_progress refine Kept.upd ?_ rfl rfl rfl)

theorem kept_catchUp (s : State) (all : List DramReq) : Kept s (State.catchUp s all) := by
  unfold State.catchUp
  try dsimp only
  repeat' first
    | with_reducible exact Kept.refl _
    | split
    | with_reducible refine (kept_refreshMany _ _).after ?_
    | (fail_if_no_progress refine Kept.upd ?_ rfl rfl rfl)

theorem kept_issueAccess (s : State) (mine : List DramReq) (q : DramReq) : Kept s (State.issueAccess s mine q) := Kept.upd (Kept.refl s) rfl rfl rfl

theorem kept_rowDramReadComplete (t : SI) (reqs : List DramReq) (channel : Fin 4) (kind : ReadKind) (s : State) : Kept s (rowDramReadComplete t reqs channel kind s) := by
  unfold rowDramReadComplete
  try dsimp only
  repeat' first
    | with_reducible exact Kept.refl _
    | split
    | with_reducible refine (kept_moment _ _).after ?_
    | with_reducible refine (kept_accessDone _ _ _ _ _).after ?_
    | with_reducible refine (kept_dramWake _).after ?_
    | with_reducible refine (kept_issueAccess _ _ _).after ?_
    | with_reducible refine (kept_catchUp _ _).after ?_
    | (fail_if_no_progress refine Kept.upd ?_ rfl rfl rfl)

theorem kept_rowPatrolScrub (t : SI) (addr : Nat) (channel : Fin 4) (rank : Fin 4) (kind : ReadKind) (s : State) : Kept s (rowPatrolScrub t addr channel rank kind s) := by
  unfold rowPatrolScrub
  try dsimp only
  repeat' first
    | with_reducible exact Kept.refl _
    | split
    | with_reducible refine (kept_moment _ _).after ?_
    | with_reducible refine (kept_readFound _ _ _ _ _).after ?_
    | (fail_if_no_progress refine Kept.upd ?_ rfl rfl (by simp))
    | (fail_if_no_progress refine Kept.upd ?_ rfl rfl rfl)

theorem kept_refreshOne (s : State) : Kept s (State.refreshOne s) := by
  unfold State.refreshOne
  try dsimp only
  repeat' first
    | with_reducible exact Kept.refl _
    | split
    | (fail_if_no_progress refine Kept.upd ?_ rfl rfl rfl)

theorem kept_execRefreshInterval (t : SI) (s : State) : KeptO s (execRefreshInterval t s) := by
  unfold execRefreshInterval
  try dsimp only
  repeat' first
    | with_reducible exact Kept.refl _
    | with_reducible refine KeptO.next ?_
    | split
    | with_reducible refine (kept_moment _ _).after ?_
    | with_reducible refine (kept_refreshOne _).after ?_
    | (fail_if_no_progress refine Kept.upd ?_ rfl rfl rfl)

theorem kept_execRowIdleClose (t : SI) (bank : Nat) (s : State) : KeptO s (execRowIdleClose t bank s) := by
  unfold execRowIdleClose
  try dsimp only
  repeat' first
    | with_reducible exact Kept.refl _
    | with_reducible refine KeptO.next ?_
    | split
    | with_reducible refine (kept_moment _ _).after ?_
    | (fail_if_no_progress refine Kept.upd ?_ rfl rfl rfl)

theorem kept_execDimmTemperatureRead (t : SI) (celsius : List Int) (s : State) : KeptO s (execDimmTemperatureRead t celsius s) := by
  unfold execDimmTemperatureRead
  try dsimp only
  repeat' first
    | with_reducible exact Kept.refl _
    | with_reducible refine KeptO.next ?_
    | split
    | with_reducible refine (kept_moment _ _).after ?_
    | with_reducible refine (kept_raiseIf _ _ _).after ?_
    | (fail_if_no_progress refine Kept.upd ?_ rfl rfl rfl)

theorem kept_execSelfRefreshEntry (t : SI) (s : State) : KeptO s (execSelfRefreshEntry t s) := by
  unfold execSelfRefreshEntry
  try dsimp only
  repeat' first
    | with_reducible exact Kept.refl _
    | with_reducible refine KeptO.next ?_
    | split
    | with_reducible refine (kept_moment _ _).after ?_
    | with_reducible refine (kept_raise _ _).after ?_
    | (fail_if_no_progress refine Kept.upd ?_ rfl rfl rfl)

theorem kept_execSelfRefreshExit (t : SI) (s : State) : KeptO s (execSelfRefreshExit t s) := by
  unfold execSelfRefreshExit
  try dsimp only
  repeat' first
    | with_reducible exact Kept.refl _
    | with_reducible refine KeptO.next ?_
    | split
    | with_reducible refine (kept_moment _ _).after ?_
    | with_reducible refine (kept_dramWake _).after ?_
    | (fail_if_no_progress refine Kept.upd ?_ rfl rfl rfl)

theorem kept_execDqsCompensation (t : SI) (s : State) : KeptO s (execDqsCompensation t s) := by
  unfold execDqsCompensation
  try dsimp only
  repeat' first
    | with_reducible exact Kept.refl _
    | with_reducible refine KeptO.next ?_
    | split
    | with_reducible refine (kept_moment _ _).after ?_
    | (fail_if_no_progress refine Kept.upd ?_ rfl rfl rfl)

theorem kept_setDramMap (p : List Byte) (s : State) : Kept s (setDramMap p s) := by
  unfold setDramMap
  try dsimp only
  repeat' first
    | with_reducible exact Kept.refl _
    | split
    | with_reducible refine (kept_discardRings _ _).after ?_
    | (fail_if_no_progress refine Kept.upd ?_ rfl rfl rfl)

theorem kept_beginTraining (s : State) : Kept s (State.beginTraining s) := by
  unfold State.beginTraining
  try dsimp only
  repeat' first
    | with_reducible exact Kept.refl _
    | split
    | with_reducible refine (kept_discardRings _ _).after ?_
    | refine Kept.updMem ?_ rfl rfl (fun _ => rfl)
    | (fail_if_no_progress refine Kept.upd ?_ rfl rfl rfl)

theorem kept_trainEffect (c : Ctx) (s : State) : Kept s (trainEffect c s) := by
  unfold trainEffect
  try dsimp only
  repeat' first
    | with_reducible exact Kept.refl _
    | split
    | with_reducible refine (kept_startJob _ _ _ _).after ?_
    | with_reducible refine (kept_beginTraining _).after ?_
    | (fail_if_no_progress refine Kept.upd ?_ rfl rfl rfl)

theorem kept_trained (s : State) (f : DimmFindings) (p : List Byte) : Kept s (State.trained s f p) := by
  unfold State.trained
  try dsimp only
  repeat' first
    | with_reducible exact Kept.refl _
    | split
    | (fail_if_no_progress refine Kept.upd ?_ rfl rfl rfl)

theorem kept_endTraining (s : State) (j : Job) (f : DimmFindings) : Kept s (State.endTraining s j f) := by
  unfold State.endTraining
  try dsimp only
  repeat' first
    | with_reducible exact Kept.refl _
    | split
    | with_reducible refine (kept_endJob _ _ _ _).after ?_
    | with_reducible refine (kept_trained _ _ _).after ?_
    | (fail_if_no_progress refine Kept.upd ?_ rfl rfl rfl)

theorem kept_migrateRankEffect (c : Ctx) (s : State) : Kept s (migrateRankEffect c s) := by
  unfold migrateRankEffect
  try dsimp only
  repeat' first
    | with_reducible exact Kept.refl _
    | split
    | with_reducible refine (kept_startMigration _ _).after ?_
    | (fail_if_no_progress refine Kept.upd ?_ rfl rfl rfl)

theorem kept_scrubEffect (c : Ctx) (s : State) : Kept s (scrubEffect c s) := by
  unfold scrubEffect
  try dsimp only
  repeat' first
    | with_reducible exact Kept.refl _
    | split
    | with_reducible refine (kept_startJob _ _ _ _).after ?_
    | with_reducible refine (kept_dramWake _).after ?_
    | with_reducible refine (kept_modJob _ _ _).after ?_
    | (fail_if_no_progress refine Kept.upd ?_ rfl rfl rfl)

end Sys2Proof.Machine
end

