-- ==== Sys2Proof/Laws/KeptHost.lean ====
section
/-! SUPPORT. Security, jobs, resets, registers, rings, the host and start-up: one lemma per operation, that it keeps the queue, the order of time and the form of the DRAM bytes. -/

set_option linter.unusedTactic false
set_option linter.unreachableTactic false
set_option linter.unusedVariables false

namespace Sys2Proof.Machine

theorem kept_unbind (s : State) (f : Ring → Bool) : Kept s (State.unbind s f) := by
  unfold State.unbind
  try dsimp only
  repeat' first
    | with_reducible exact Kept.refl _
    | split
    | (fail_if_no_progress refine Kept.upd ?_ rfl rfl rfl)

theorem kept_authFail (s : State) : Kept s (State.authFail s) := by
  unfold State.authFail
  try dsimp only
  repeat' first
    | with_reducible exact Kept.refl _
    | split
    | with_reducible refine (kept_raise _ _).after ?_
    | (fail_if_no_progress refine Kept.upd ?_ rfl rfl rfl)

theorem kept_authBind (s : State) (ring : Nat) (role : Nat) : Kept s (State.authBind s ring role) := by
  unfold State.authBind
  try dsimp only
  repeat' first
    | with_reducible exact Kept.refl _
    | split
    | with_reducible refine (kept_raise _ _).after ?_
    | with_reducible refine (kept_bind _ _ _).after ?_
    | (fail_if_no_progress refine Kept.upd ?_ rfl rfl rfl)

theorem kept_authEnd (s : State) (c : Ctx) (st : Nat) : Kept s (State.authEnd s c st) := by
  unfold State.authEnd
  try dsimp only
  repeat' first
    | with_reducible exact Kept.refl _
    | split
    | with_reducible refine (kept_change _ _ _ _ _ _).after ?_
    | with_reducible refine (kept_completeLogged _ _ _ _ _).after ?_
    | (fail_if_no_progress refine Kept.upd ?_ rfl rfl rfl)

theorem kept_authReject (s : State) (c : Ctx) : Kept s (State.authReject s c) := by
  unfold State.authReject
  try dsimp only
  repeat' first
    | with_reducible exact Kept.refl _
    | split
    | with_reducible refine (kept_authEnd _ _ _).after ?_
    | (fail_if_no_progress refine Kept.upd ?_ rfl rfl rfl)

theorem kept_respond (s : State) (c : Ctx) (role : Nat) (key : BitVec 512) : Kept s (State.respond s c role key) := by
  unfold State.respond
  try dsimp only
  repeat' first
    | with_reducible exact Kept.refl _
    | split
    | with_reducible refine (kept_finish _ _ _).after ?_
    | with_reducible refine (kept_authFail _).after ?_
    | with_reducible refine (kept_authBind _ _ _).after ?_
    | with_reducible refine (kept_authReject _ _).after ?_
    | (fail_if_no_progress refine Kept.upd ?_ rfl rfl rfl)

theorem kept_authRun (s : State) (c : Ctx) : Kept s (State.authRun s c) := by
  unfold State.authRun
  try dsimp only
  repeat' first
    | with_reducible exact Kept.refl _
    | split
    | with_reducible refine (kept_finish _ _ _).after ?_
    | with_reducible refine (kept_bind _ _ _).after ?_
    | with_reducible refine (kept_respond _ _ _ _).after ?_
    | with_reducible refine (kept_random _ _).after ?_
    | refine Kept.ofPair (by assumption) ?_
    | (fail_if_no_progress refine Kept.upd ?_ rfl rfl rfl)

theorem kept_authEffect (c : Ctx) (s : State) : Kept s (authEffect c s) := by
  unfold authEffect
  try dsimp only
  repeat' first
    | with_reducible exact Kept.refl _
    | split
    | with_reducible refine (kept_authEnd _ _ _).after ?_
    | with_reducible refine (kept_authRun _ _).after ?_
    | (fail_if_no_progress refine Kept.upd ?_ rfl rfl rfl)

theorem kept_execAuthChallengeExpiry (t : SI) (ring : Fin 16) (s : State) : KeptO s (execAuthChallengeExpiry t ring s) := by
  unfold execAuthChallengeExpiry
  try dsimp only
  repeat' first
    | with_reducible exact Kept.refl _
    | with_reducible refine KeptO.next ?_
    | split
    | with_reducible refine (kept_moment _ _).after ?_
    | (fail_if_no_progress refine Kept.upd ?_ rfl rfl rfl)

theorem kept_execAuthLockoutEnd (t : SI) (s : State) : KeptO s (execAuthLockoutEnd t s) := by
  unfold execAuthLockoutEnd
  try dsimp only
  repeat' first
    | with_reducible exact Kept.refl _
    | with_reducible refine KeptO.next ?_
    | split
    | with_reducible refine (kept_moment _ _).after ?_
    | (fail_if_no_progress refine Kept.upd ?_ rfl rfl rfl)

theorem kept_retireKey (s : State) (id : Nat) (secret : BitVec 256) : Kept s (State.retireKey s id secret) := by
  unfold State.retireKey
  try dsimp only
  repeat' first
    | with_reducible exact Kept.refl _
    | split
    | with_reducible refine (kept_dropRetired _).after ?_
    | (fail_if_no_progress refine Kept.upd ?_ rfl rfl rfl)

theorem kept_newKey (s : State) : Kept s (State.newKey s).2 := by
  unfold State.newKey
  try dsimp only
  repeat' first
    | with_reducible exact Kept.refl _
    | split
    | with_reducible refine (kept_reseed _).after ?_
    | with_reducible refine (kept_scalar _ _).after ?_
    | (fail_if_no_progress refine Kept.upd ?_ rfl rfl rfl)

theorem kept_certify (s : State) (id : Nat) (key : BitVec 512) : Kept s (State.certify s id key).2 := by
  unfold State.certify
  try dsimp only
  repeat' first
    | with_reducible exact Kept.refl _
    | split
    | with_reducible refine (kept_signature _ _ _).after ?_
    | refine Kept.ofPair (by assumption) ?_
    | (fail_if_no_progress refine Kept.upd ?_ rfl rfl rfl)

theorem kept_rotateEffect (c : Ctx) (s : State) : Kept s (rotateEffect c s) := by
  unfold rotateEffect
  extract_lets s1 s2 id
  have h1 : Kept s s1 := Kept.foldl _ (fun _ _ => kept_sign _ _) _ _
  have h2 : Kept s s2 := (kept_retireKey _ _ _).after h1
  clear_value s2 id
  split
  next secret s3 e =>
    have h3 : Kept s s3 := (Kept.ofPair2 e (kept_newKey _)).after h2
    extract_lets key
    clear_value key
    split
    next cert s4 e =>
      have h4 : Kept s s4 := (Kept.ofPair2 e (kept_certify _ _ _)).after h3
      extract_lets sec s5
      exact (kept_finish _ _ _).after ((kept_raise _ _).after (Kept.upd h4 rfl rfl rfl))

theorem kept_attestEffect (c : Ctx) (s : State) : Kept s (attestEffect c s) := by
  unfold attestEffect
  try dsimp only
  repeat' first
    | with_reducible exact Kept.refl _
    | split
    | with_reducible refine (kept_postBytes _ _ _).after ?_
    | with_reducible refine (kept_answer _ _ _).after ?_
    | with_reducible refine (kept_hostWrite _ _ _ _ _).after ?_
    | with_reducible refine (kept_signature _ _ _).after ?_
    | refine Kept.ofPair (by assumption) ?_
    | (fail_if_no_progress refine Kept.upd ?_ rfl rfl rfl)

theorem kept_zeroize (s : State) (cause : Nat) (origin : Origin) (reply : Option Ctx) (openPort : Bool) : Kept s (State.zeroize s cause origin reply openPort) := by
  unfold State.zeroize
  try dsimp only
  repeat' first
    | with_reducible exact Kept.refl _
    | split
    | with_reducible refine (kept_raise _ _).after ?_
    | with_reducible refine (kept_closeAt _ _ _).after ?_
    | with_reducible refine (kept_change _ _ _ _ _ _).after ?_
    | with_reducible refine (kept_openPort _ _ _).after ?_
    | with_reducible refine (kept_unbind _ _).after ?_
    | (fail_if_no_progress refine Kept.upd ?_ rfl rfl rfl)

theorem kept_zeroizeEffect (c : Ctx) (s : State) : Kept s (zeroizeEffect c s) := by
  unfold zeroizeEffect
  try dsimp only
  repeat' first
    | with_reducible exact Kept.refl _
    | split
    | with_reducible refine (kept_zeroize _ _ _ _ _).after ?_
    | (fail_if_no_progress refine Kept.upd ?_ rfl rfl rfl)

theorem kept_tamperZeroize (s : State) : Kept s (State.tamperZeroize s) := by
  unfold State.tamperZeroize
  try dsimp only
  repeat' first
    | with_reducible exact Kept.refl _
    | split
    | with_reducible refine (kept_raise _ _).after ?_
    | with_reducible refine (kept_zeroize _ _ _ _ _).after ?_
    | (fail_if_no_progress refine Kept.upd ?_ rfl rfl rfl)

theorem kept_execTamperNAssert (t : SI) (s : State) : KeptO s (execTamperNAssert t s) := by
  unfold execTamperNAssert
  try dsimp only
  repeat' first
    | with_reducible exact Kept.refl _
    | with_reducible refine KeptO.next ?_
    | split
    | with_reducible refine (kept_moment _ _).after ?_
    | with_reducible refine (kept_tamperZeroize _).after ?_
    | (fail_if_no_progress refine Kept.upd ?_ rfl rfl rfl)

theorem kept_execTamperNRelease (t : SI) (s : State) : KeptO s (execTamperNRelease t s) := by
  unfold execTamperNRelease
  try dsimp only
  repeat' first
    | with_reducible exact Kept.refl _
    | with_reducible refine KeptO.next ?_
    | split
    | with_reducible refine (kept_moment _ _).after ?_
    | (fail_if_no_progress refine Kept.upd ?_ rfl rfl rfl)

theorem kept_execSvcEnAssert (t : SI) (s : State) : KeptO s (execSvcEnAssert t s) := by
  unfold execSvcEnAssert
  try dsimp only
  repeat' first
    | with_reducible exact Kept.refl _
    | with_reducible refine KeptO.next ?_
    | split
    | with_reducible refine (kept_moment _ _).after ?_
    | with_reducible refine (kept_raise _ _).after ?_
    | (fail_if_no_progress refine Kept.upd ?_ rfl rfl rfl)

theorem kept_execSvcEnDeassert (t : SI) (s : State) : KeptO s (execSvcEnDeassert t s) := by
  unfold execSvcEnDeassert
  try dsimp only
  repeat' first
    | with_reducible exact Kept.refl _
    | with_reducible refine KeptO.next ?_
    | split
    | with_reducible refine (kept_moment _ _).after ?_
    | with_reducible refine (kept_raise _ _).after ?_
    | with_reducible refine (kept_unbind _ _).after ?_
    | (fail_if_no_progress refine Kept.upd ?_ rfl rfl rfl)

theorem kept_execSvcUnlock (t : SI) (v : Word) (s : State) : KeptO s (execSvcUnlock t v s) := by
  unfold execSvcUnlock
  try dsimp only
  repeat' first
    | with_reducible exact Kept.refl _
    | with_reducible refine KeptO.next ?_
    | split
    | with_reducible refine (kept_moment _ _).after ?_
    | with_reducible refine (kept_zeroize _ _ _ _ _).after ?_
    | (fail_if_no_progress refine Kept.upd ?_ rfl rfl rfl)

theorem kept_erase (s : State) (z : Zeroization) : Kept s (State.erase s z) := by
  unfold State.erase
  try dsimp only
  repeat' first
    | with_reducible exact Kept.refl _
    | split
    | with_reducible refine (kept_raise _ _).after ?_
    | (fail_if_no_progress refine Kept.upd ?_ rfl rfl rfl)

theorem kept_rowZeroizationEraseComplete (t : SI) (s : State) : Kept s (rowZeroizationEraseComplete t s) := by
  unfold rowZeroizationEraseComplete
  try dsimp only
  repeat' first
    | with_reducible exact Kept.refl _
    | split
    | with_reducible refine (kept_moment _ _).after ?_
    | with_reducible refine (kept_raise _ _).after ?_
    | with_reducible refine (kept_complete _ _ _ _ _).after ?_
    | with_reducible refine (kept_openPort _ _ _).after ?_
    | with_reducible refine (kept_erase _ _).after ?_
    | (fail_if_no_progress refine Kept.upd ?_ rfl rfl rfl)

theorem kept_execFikGenerated (t : SI) (s : State) : KeptO s (execFikGenerated t s) := by
  unfold execFikGenerated
  try dsimp only
  repeat' first
    | with_reducible exact Kept.refl _
    | with_reducible refine KeptO.next ?_
    | split
    | with_reducible refine (kept_moment _ _).after ?_
    | with_reducible refine (kept_raise _ _).after ?_
    | with_reducible refine (kept_newKey _).after ?_
    | refine Kept.ofPair (by assumption) ?_
    | (fail_if_no_progress refine Kept.upd ?_ rfl rfl rfl)

theorem kept_updateBegin (c : Ctx) (s : State) : Kept s (updateBegin c s) := by
  unfold updateBegin
  try dsimp only
  repeat' first
    | with_reducible exact Kept.refl _
    | split
    | with_reducible refine (kept_startJob _ _ _ _).after ?_
    | (fail_if_no_progress refine Kept.upd ?_ rfl rfl rfl)

theorem kept_updateEffect (c : Ctx) (s : State) : Kept s (updateEffect c s) := by
  unfold updateEffect
  try dsimp only
  repeat' first
    | with_reducible exact Kept.refl _
    | split
    | with_reducible refine (kept_answer _ _ _).after ?_
    | with_reducible refine (kept_updateBegin _ _).after ?_
    | (fail_if_no_progress refine Kept.upd ?_ rfl rfl rfl)

theorem kept_failUpdate (s : State) (u : Update) (st : JobState) (code : Nat) : Kept s (State.failUpdate s u st code) := by
  unfold State.failUpdate
  try dsimp only
  repeat' first
    | with_reducible exact Kept.refl _
    | split
    | with_reducible refine (kept_endJob _ _ _ _).after ?_
    | (fail_if_no_progress refine Kept.upd ?_ rfl rfl rfl)

theorem kept_beginSwap (s : State) : Kept s (State.beginSwap s) := by
  unfold State.beginSwap
  try dsimp only
  repeat' first
    | with_reducible exact Kept.refl _
    | split
    | with_reducible refine (kept_modRing _ _ _).after ?_
    | with_reducible refine (kept_swapRefuse _ _).after ?_
    | (with_reducible refine (Kept.foldl _ ?_ _ _).after ?_; focus intro _ _)
    | (fail_if_no_progress refine Kept.upd ?_ rfl rfl rfl)

theorem kept_maybeSwap (s : State) : Kept s (State.maybeSwap s) := by
  unfold State.maybeSwap
  try dsimp only
  repeat' first
    | with_reducible exact Kept.refl _
    | split
    | with_reducible refine (kept_beginSwap _).after ?_
    | (fail_if_no_progress refine Kept.upd ?_ rfl rfl rfl)

theorem kept_discoverResume (s : State) (j : Job) : Kept s (State.discoverResume s j) := by
  unfold State.discoverResume
  try dsimp only
  repeat' first
    | with_reducible exact Kept.refl _
    | split
    | with_reducible refine (kept_discoverTake _ _ _ _).after ?_
    | (with_reducible refine (Kept.foldl _ ?_ _ _).after ?_; focus intro _ _)
    | (fail_if_no_progress refine Kept.upd ?_ rfl rfl rfl)

theorem kept_resumeJobs (s : State) : Kept s (State.resumeJobs s) := by
  unfold State.resumeJobs
  try dsimp only
  repeat' first
    | with_reducible exact Kept.refl _
    | split
    | with_reducible refine (kept_discoverResume _ _).after ?_
    | (with_reducible refine (Kept.foldl _ ?_ _ _).after ?_; focus intro _ _)
    | (fail_if_no_progress refine Kept.upd ?_ rfl rfl rfl)

theorem kept_revertSwap (s : State) (u : Update) (code : Nat) : Kept s (State.revertSwap s u code) := by
  unfold State.revertSwap
  try dsimp only
  repeat' first
    | with_reducible exact Kept.refl _
    | split
    | with_reducible refine (kept_failUpdate _ _ _ _).after ?_
    | with_reducible refine (kept_resumeJobs _).after ?_
    | (fail_if_no_progress refine Kept.upd ?_ rfl rfl rfl)

theorem kept_updateBarred (s : State) : Kept s (State.updateBarred s) := by
  unfold State.updateBarred
  try dsimp only
  repeat' first
    | with_reducible exact Kept.refl _
    | split
    | with_reducible refine (kept_revertSwap _ _ _).after ?_
    | with_reducible refine (kept_failUpdate _ _ _ _).after ?_
    | (fail_if_no_progress refine Kept.upd ?_ rfl rfl rfl)

theorem kept_securityError (s : State) (code : Nat) : Kept s (State.securityError s code) := by
  unfold State.securityError
  try dsimp only
  repeat' first
    | with_reducible exact Kept.refl _
    | split
    | with_reducible refine (kept_raise _ _).after ?_
    | with_reducible refine (kept_updateBarred _).after ?_
    | (fail_if_no_progress refine Kept.upd ?_ rfl rfl rfl)

theorem kept_imageRejected (s : State) (code : Nat) : Kept s (State.imageRejected s code) := by
  unfold State.imageRejected
  try dsimp only
  repeat' first
    | with_reducible exact Kept.refl _
    | split
    | with_reducible refine (kept_securityError _ _).after ?_
    | (fail_if_no_progress refine Kept.upd ?_ rfl rfl rfl)

theorem kept_checkUpdate (s : State) (u : Update) (flashOk : Bool) : Kept s (State.checkUpdate s u flashOk) := by
  unfold State.checkUpdate
  try dsimp only
  repeat' first
    | with_reducible exact Kept.refl _
    | split
    | with_reducible refine (kept_endJob _ _ _ _).after ?_
    | with_reducible refine (kept_failUpdate _ _ _ _).after ?_
    | with_reducible refine (kept_maybeSwap _).after ?_
    | with_reducible refine (kept_imageRejected _ _).after ?_
    | (fail_if_no_progress refine Kept.upd ?_ rfl rfl rfl)

theorem kept_swapped (s : State) (u : Update) : Kept s (State.swapped s u) := by
  unfold State.swapped
  try dsimp only
  repeat' first
    | with_reducible exact Kept.refl _
    | split
    | with_reducible refine (kept_raise _ _).after ?_
    | with_reducible refine (kept_raiseIf _ _ _).after ?_
    | with_reducible refine (kept_endJob _ _ _ _).after ?_
    | with_reducible refine (kept_resumeJobs _).after ?_
    | (fail_if_no_progress refine Kept.upd ?_ rfl rfl rfl)

theorem kept_cancelWork (s : State) (j : Job) : Kept s (State.cancelWork s j).1 := by
  unfold State.cancelWork
  try dsimp only
  repeat' first
    | with_reducible exact Kept.refl _
    | split
    | with_reducible refine (kept_stopPasses _ _).after ?_
    | with_reducible refine (kept_cancelExport _ _).after ?_
    | with_reducible refine (kept_replayStop _).after ?_
    | with_reducible refine (kept_cancelCopy _ _).after ?_
    | refine Kept.ofPair (by assumption) ?_
    | (fail_if_no_progress refine Kept.upd ?_ rfl rfl rfl)

theorem kept_dropQueuedCopy (s : State) (c : Nat) (k : Nat) : Kept s (State.dropQueuedCopy s c k) := by
  unfold State.dropQueuedCopy
  try dsimp only
  repeat' first
    | with_reducible exact Kept.refl _
    | split
    | with_reducible refine (kept_modRank _ _ _ _).after ?_
    | with_reducible refine (kept_raise _ _).after ?_
    | (fail_if_no_progress refine Kept.upd ?_ rfl rfl rfl)

theorem kept_dramPauses (s : State) (j : Job) : Kept s (State.dramPauses s j) := by
  unfold State.dramPauses
  try dsimp only
  repeat' first
    | with_reducible exact Kept.refl _
    | split
    | (fail_if_no_progress refine Kept.upd ?_ rfl rfl rfl)

theorem kept_cancelJob (s : State) (j : Job) : Kept s (State.cancelJob s j) := by
  unfold State.cancelJob
  try dsimp only
  repeat' first
    | with_reducible exact Kept.refl _
    | split
    | with_reducible refine (kept_endJob _ _ _ _).after ?_
    | with_reducible refine (kept_endHkCal _).after ?_
    | with_reducible refine (kept_failUpdate _ _ _ _).after ?_
    | with_reducible refine (kept_maybeSwap _).after ?_
    | with_reducible refine (kept_cancelWork _ _).after ?_
    | with_reducible refine (kept_dropQueuedCopy _ _ _).after ?_
    | with_reducible refine (kept_dramPauses _ _).after ?_
    | refine Kept.ofPair (by assumption) ?_
    | (fail_if_no_progress refine Kept.upd ?_ rfl rfl rfl)

theorem kept_suspendWork (s : State) (j : Job) : Kept s (State.suspendWork s j) := by
  unfold State.suspendWork
  try dsimp only
  repeat' first
    | with_reducible exact Kept.refl _
    | split
    | with_reducible refine (kept_modJob _ _ _).after ?_
    | with_reducible refine (kept_stopPasses _ _).after ?_
    | with_reducible refine (kept_dramPauses _ _).after ?_
    | (fail_if_no_progress refine Kept.upd ?_ rfl rfl rfl)

theorem kept_suspendJob (s : State) (j : Job) : Kept s (State.suspendJob s j) := by
  unfold State.suspendJob
  try dsimp only
  repeat' first
    | with_reducible exact Kept.refl _
    | split
    | with_reducible refine (kept_unreserve _ _).after ?_
    | with_reducible refine (kept_finish _ _ _).after ?_
    | with_reducible refine (kept_modJob _ _ _).after ?_
    | with_reducible refine (kept_suspendWork _ _).after ?_
    | (with_reducible refine (Kept.foldl _ ?_ _ _).after ?_; focus intro _ _)
    | (fail_if_no_progress refine Kept.upd ?_ rfl rfl rfl)

theorem kept_suspendBySwap (s : State) (j : Job) : Kept s (State.suspendBySwap s j) := by
  unfold State.suspendBySwap
  try dsimp only
  repeat' first
    | with_reducible exact Kept.refl _
    | split
    | with_reducible refine (kept_complete _ _ _ _ _).after ?_
    | with_reducible refine (kept_modJob _ _ _).after ?_
    | with_reducible refine (kept_suspendWork _ _).after ?_
    | (fail_if_no_progress refine Kept.upd ?_ rfl rfl rfl)

theorem kept_atSuspendPoint (s : State) (j : Job) : Kept s (State.atSuspendPoint s j) := by
  unfold State.atSuspendPoint
  try dsimp only
  repeat' first
    | with_reducible exact Kept.refl _
    | split
    | with_reducible refine (kept_cancelJob _ _).after ?_
    | with_reducible refine (kept_suspendJob _ _).after ?_
    | with_reducible refine (kept_suspendBySwap _ _).after ?_
    | (fail_if_no_progress refine Kept.upd ?_ rfl rfl rfl)

theorem kept_rowJobSuspendPoint (t : SI) (job : Nat) (s : State) : Kept s (rowJobSuspendPoint t job s) := by
  unfold rowJobSuspendPoint
  try dsimp only
  repeat' first
    | with_reducible exact Kept.refl _
    | split
    | with_reducible refine (kept_moment _ _).after ?_
    | with_reducible refine (kept_atSuspendPoint _ _).after ?_
    | (fail_if_no_progress refine Kept.upd ?_ rfl rfl rfl)

theorem kept_startQueued (s : State) (j : Job) : Kept s (State.startQueued s j) := by
  unfold State.startQueued
  try dsimp only
  repeat' first
    | with_reducible exact Kept.refl _
    | split
    | with_reducible refine (kept_modJob _ _ _).after ?_
    | with_reducible refine (kept_dequeueExport _ _).after ?_
    | with_reducible refine (kept_startCopy _ _ _ _).after ?_
    | with_reducible refine (kept_beginTraining _).after ?_
    | (fail_if_no_progress refine Kept.upd ?_ rfl rfl rfl)

theorem kept_rowJobDequeue (t : SI) (job : Nat) (s : State) : Kept s (rowJobDequeue t job s) := by
  unfold rowJobDequeue
  try dsimp only
  repeat' first
    | with_reducible exact Kept.refl _
    | split
    | with_reducible refine (kept_moment _ _).after ?_
    | with_reducible refine (kept_startQueued _ _).after ?_
    | (fail_if_no_progress refine Kept.upd ?_ rfl rfl rfl)

theorem kept_endCalDeskew (s : State) (j : Job) (found : List (Nat × Option Int)) : Kept s (State.endCalDeskew s j found) := by
  unfold State.endCalDeskew
  try dsimp only
  repeat' first
    | with_reducible exact Kept.refl _
    | split
    | with_reducible refine (kept_change _ _ _ _ _ _).after ?_
    | with_reducible refine (kept_endJob _ _ _ _).after ?_
    | with_reducible refine (kept_endDeskew _ _ _).after ?_
    | refine Kept.ofPair (by assumption) ?_
    | (fail_if_no_progress refine Kept.upd ?_ rfl rfl rfl)

theorem kept_scrubFinds (s : State) (found : List (Nat × ReadKind)) : Kept s (State.scrubFinds s found) := by
  unfold State.scrubFinds
  try dsimp only
  repeat' first
    | with_reducible exact Kept.refl _
    | split
    | with_reducible refine (kept_readFound _ _ _ _ _).after ?_
    | with_reducible refine (kept_scrubbed _ _ _).after ?_
    | (with_reducible refine (Kept.foldl _ ?_ _ _).after ?_; focus intro _ _)
    | (fail_if_no_progress refine Kept.upd ?_ rfl rfl rfl)

theorem kept_workEnds (s : State) (j : Job) (work : JobWork) : Kept s (State.workEnds s j work) := by
  unfold State.workEnds
  try dsimp only
  repeat' first
    | with_reducible exact Kept.refl _
    | split
    | with_reducible refine (kept_endJob _ _ _ _).after ?_
    | with_reducible refine (kept_endHkCal _).after ?_
    | with_reducible refine (kept_replayStop _).after ?_
    | with_reducible refine (kept_endTraining _ _ _).after ?_
    | with_reducible refine (kept_maybeSwap _).after ?_
    | with_reducible refine (kept_checkUpdate _ _ _).after ?_
    | with_reducible refine (kept_endCalDeskew _ _ _).after ?_
    | with_reducible refine (kept_scrubFinds _ _).after ?_
    | (fail_if_no_progress refine Kept.upd ?_ rfl rfl rfl)

theorem kept_rowJobEnd (t : SI) (job : Nat) (work : JobWork) (s : State) : Kept s (rowJobEnd t job work s) := by
  unfold rowJobEnd
  try dsimp only
  repeat' first
    | with_reducible exact Kept.refl _
    | split
    | with_reducible refine (kept_moment _ _).after ?_
    | with_reducible refine (kept_workEnds _ _ _).after ?_
    | (fail_if_no_progress refine Kept.upd ?_ rfl rfl rfl)

theorem kept_jobSuspendEffect (c : Ctx) (s : State) : Kept s (jobSuspendEffect c s) := by
  unfold jobSuspendEffect
  try dsimp only
  repeat' first
    | with_reducible exact Kept.refl _
    | split
    | with_reducible refine (kept_reserve _ _).after ?_
    | with_reducible refine (kept_finish _ _ _).after ?_
    | with_reducible refine (kept_modJob _ _ _).after ?_
    | with_reducible refine (kept_suspendJob _ _).after ?_
    | (fail_if_no_progress refine Kept.upd ?_ rfl rfl rfl)

theorem kept_jobResumeEffect (c : Ctx) (s : State) : Kept s (jobResumeEffect c s) := by
  unfold jobResumeEffect
  try dsimp only
  repeat' first
    | with_reducible exact Kept.refl _
    | split
    | with_reducible refine (kept_unreserve _ _).after ?_
    | with_reducible refine (kept_complete _ _ _ _ _).after ?_
    | with_reducible refine (kept_finish _ _ _).after ?_
    | with_reducible refine (kept_modJob _ _ _).after ?_
    | with_reducible refine (kept_discoverResume _ _).after ?_
    | (with_reducible refine (Kept.foldl _ ?_ _ _).after ?_; focus intro _ _)
    | (fail_if_no_progress refine Kept.upd ?_ rfl rfl rfl)

theorem kept_jobCancelEffect (c : Ctx) (s : State) : Kept s (jobCancelEffect c s) := by
  unfold jobCancelEffect
  try dsimp only
  repeat' first
    | with_reducible exact Kept.refl _
    | split
    | with_reducible refine (kept_reserve _ _).after ?_
    | with_reducible refine (kept_unreserve _ _).after ?_
    | with_reducible refine (kept_complete _ _ _ _ _).after ?_
    | with_reducible refine (kept_modJob _ _ _).after ?_
    | with_reducible refine (kept_cancelJob _ _).after ?_
    | (with_reducible refine (Kept.foldl _ ?_ _ _).after ?_; focus intro _ _)
    | (fail_if_no_progress refine Kept.upd ?_ rfl rfl rfl)

theorem kept_jobStatusEffect (c : Ctx) (s : State) : Kept s (jobStatusEffect c s) := by
  unfold jobStatusEffect
  try dsimp only
  repeat' first
    | with_reducible exact Kept.refl _
    | split
    | with_reducible refine (kept_tick _).after ?_
    | with_reducible refine (kept_answer _ _ _).after ?_
    | (fail_if_no_progress refine Kept.upd ?_ rfl rfl rfl)

theorem kept_checkSeams (s : State) : Kept s (State.checkSeams s) := by
  unfold State.checkSeams
  try dsimp only
  repeat' first
    | with_reducible exact Kept.refl _
    | split
    | with_reducible refine (kept_endCause _ _).after ?_
    | (fail_if_no_progress refine Kept.upd ?_ rfl rfl rfl)

theorem kept_execSeamUnsettled (t : SI) (seam : Fin 13) (region : Fin 4) (agree : Bool) (s : State) : KeptO s (execSeamUnsettled t seam region agree s) := by
  unfold execSeamUnsettled
  try dsimp only
  repeat' first
    | with_reducible exact Kept.refl _
    | with_reducible refine KeptO.next ?_
    | split
    | with_reducible refine (kept_moment _ _).after ?_
    | with_reducible refine (kept_raise _ _).after ?_
    | with_reducible refine (kept_modSeam _ _ _).after ?_
    | with_reducible refine (kept_checkSeams _).after ?_
    | (fail_if_no_progress refine Kept.upd ?_ rfl rfl rfl)

theorem kept_seamDoubt (s : State) (n : Nat) : Kept s (State.seamDoubt s n) := by
  unfold State.seamDoubt
  try dsimp only
  repeat' first
    | with_reducible exact Kept.refl _
    | split
    | with_reducible refine (kept_beginCause _ _).after ?_
    | with_reducible refine (kept_modSeam _ _ _).after ?_
    | (fail_if_no_progress refine Kept.upd ?_ rfl rfl rfl)

theorem kept_execSeamUnsettledTimeout (t : SI) (seam : Fin 13) (s : State) : KeptO s (execSeamUnsettledTimeout t seam s) := by
  unfold execSeamUnsettledTimeout
  try dsimp only
  repeat' first
    | with_reducible exact Kept.refl _
    | with_reducible refine KeptO.next ?_
    | split
    | with_reducible refine (kept_moment _ _).after ?_
    | with_reducible refine (kept_seamDoubt _ _).after ?_
    | (fail_if_no_progress refine Kept.upd ?_ rfl rfl rfl)

theorem kept_execSeamClockStopped (t : SI) (seam : Fin 13) (region : Fin 4) (s : State) : KeptO s (execSeamClockStopped t seam region s) := by
  unfold execSeamClockStopped
  try dsimp only
  repeat' first
    | with_reducible exact Kept.refl _
    | with_reducible refine KeptO.next ?_
    | split
    | with_reducible refine (kept_moment _ _).after ?_
    | with_reducible refine (kept_modSeam _ _ _).after ?_
    | (fail_if_no_progress refine Kept.upd ?_ rfl rfl rfl)

theorem kept_execSeamClockStopTimeout (t : SI) (seam : Fin 13) (s : State) : KeptO s (execSeamClockStopTimeout t seam s) := by
  unfold execSeamClockStopTimeout
  try dsimp only
  repeat' first
    | with_reducible exact Kept.refl _
    | with_reducible refine KeptO.next ?_
    | split
    | with_reducible refine (kept_moment _ _).after ?_
    | with_reducible refine (kept_seamDoubt _ _).after ?_
    | (fail_if_no_progress refine Kept.upd ?_ rfl rfl rfl)

theorem kept_execSeamClockResumed (t : SI) (seam : Fin 13) (s : State) : KeptO s (execSeamClockResumed t seam s) := by
  unfold execSeamClockResumed
  try dsimp only
  repeat' first
    | with_reducible exact Kept.refl _
    | with_reducible refine KeptO.next ?_
    | split
    | with_reducible refine (kept_moment _ _).after ?_
    | with_reducible refine (kept_modSeam _ _ _).after ?_
    | with_reducible refine (kept_checkSeams _).after ?_
    | (fail_if_no_progress refine Kept.upd ?_ rfl rfl rfl)

theorem kept_execSeamOverrunDiscard (t : SI) (region : Fin 4) (s : State) : KeptO s (execSeamOverrunDiscard t region s) := by
  unfold execSeamOverrunDiscard
  try dsimp only
  repeat' first
    | with_reducible exact Kept.refl _
    | with_reducible refine KeptO.next ?_
    | split
    | with_reducible refine (kept_moment _ _).after ?_
    | with_reducible refine (kept_seamLost _ _).after ?_
    | with_reducible refine (kept_modRegion _ _ _).after ?_
    | with_reducible refine (kept_commitRegion _ _).after ?_
    | with_reducible refine (kept_place _ _ _).after ?_
    | with_reducible refine (kept_modSeam _ _ _).after ?_
    | (fail_if_no_progress refine Kept.upd ?_ rfl rfl rfl)

theorem kept_execTemperatureCheck (t : SI) (celsius : List Int) (s : State) : KeptO s (execTemperatureCheck t celsius s) := by
  unfold execTemperatureCheck
  try dsimp only
  repeat' first
    | with_reducible exact Kept.refl _
    | with_reducible refine KeptO.next ?_
    | split
    | with_reducible refine (kept_moment _ _).after ?_
    | with_reducible refine (kept_beginCause _ _).after ?_
    | with_reducible refine (kept_endCause _ _).after ?_
    | (with_reducible refine (Kept.foldl _ ?_ _ _).after ?_; focus intro _ _)
    | (fail_if_no_progress refine Kept.upd ?_ rfl rfl rfl)

theorem kept_execSupplyCheck (t : SI) (microvolts : List Nat) (s : State) : KeptO s (execSupplyCheck t microvolts s) := by
  unfold execSupplyCheck
  try dsimp only
  repeat' first
    | with_reducible exact Kept.refl _
    | with_reducible refine KeptO.next ?_
    | split
    | with_reducible refine (kept_moment _ _).after ?_
    | with_reducible refine (kept_beginCause _ _).after ?_
    | with_reducible refine (kept_endCause _ _).after ?_
    | (with_reducible refine (Kept.foldl _ ?_ _ _).after ?_; focus intro _ _)
    | (fail_if_no_progress refine Kept.upd ?_ rfl rfl rfl)

theorem kept_setFailsafe (p : List Byte) (s : State) : Kept s (setFailsafe p s) := by
  unfold setFailsafe
  try dsimp only
  repeat' first
    | with_reducible exact Kept.refl _
    | split
    | (fail_if_no_progress refine Kept.upd ?_ rfl rfl rfl)

theorem kept_execConfigParityCheck (t : SI) (found : Bool) (copyBad : Bool) (s : State) : KeptO s (execConfigParityCheck t found copyBad s) := by
  unfold execConfigParityCheck
  try dsimp only
  repeat' first
    | with_reducible exact Kept.refl _
    | with_reducible refine KeptO.next ?_
    | split
    | with_reducible refine (kept_moment _ _).after ?_
    | with_reducible refine (kept_beginCause _ _).after ?_
    | (fail_if_no_progress refine Kept.upd ?_ rfl rfl rfl)

theorem kept_execConfigParityRepair (t : SI) (values : List Byte) (s : State) : KeptO s (execConfigParityRepair t values s) := by
  unfold execConfigParityRepair
  try dsimp only
  repeat' first
    | with_reducible exact Kept.refl _
    | with_reducible refine KeptO.next ?_
    | split
    | with_reducible refine (kept_moment _ _).after ?_
    | with_reducible refine (kept_raise _ _).after ?_
    | with_reducible refine (kept_change _ _ _ _ _ _).after ?_
    | with_reducible refine (kept_endCause _ _).after ?_
    | (fail_if_no_progress refine Kept.upd ?_ rfl rfl rfl)

theorem kept_lose (s : State) (c : Ctx) (reserved : Nat) : Kept s (State.lose s c reserved) := by
  unfold State.lose
  try dsimp only
  repeat' first
    | with_reducible exact Kept.refl _
    | split
    | with_reducible refine (kept_unreserve _ _).after ?_
    | with_reducible refine (kept_complete _ _ _ _ _).after ?_
    | (fail_if_no_progress refine Kept.upd ?_ rfl rfl rfl)

theorem kept_losePackets (s : State) : Kept s (State.losePackets s) := by
  unfold State.losePackets
  try dsimp only
  repeat' first
    | with_reducible exact Kept.refl _
    | split
    | with_reducible refine (kept_lose _ _ _).after ?_
    | (with_reducible refine (Kept.foldl _ ?_ _ _).after ?_; focus intro _ _)
    | (fail_if_no_progress refine Kept.upd ?_ rfl rfl rfl)

theorem kept_restartJobs (s : State) : Kept s (State.restartJobs s) := by
  unfold State.restartJobs
  try dsimp only
  repeat' first
    | with_reducible exact Kept.refl _
    | split
    | with_reducible refine (kept_modJob _ _ _).after ?_
    | with_reducible refine (kept_endJob _ _ _ _).after ?_
    | with_reducible refine (kept_suspendWork _ _).after ?_
    | (with_reducible refine (Kept.foldl _ ?_ _ _).after ?_; focus intro _ _)
    | (fail_if_no_progress refine Kept.upd ?_ rfl rfl rfl)

theorem kept_rowControlCoreWatchdog (t : SI) (s : State) : Kept s (rowControlCoreWatchdog t s) := by
  unfold rowControlCoreWatchdog
  try dsimp only
  repeat' first
    | with_reducible exact Kept.refl _
    | split
    | with_reducible refine (kept_moment _ _).after ?_
    | with_reducible refine (kept_beginCause _ _).after ?_
    | with_reducible refine (kept_revertSwap _ _ _).after ?_
    | with_reducible refine (kept_losePackets _).after ?_
    | with_reducible refine (kept_restartJobs _).after ?_
    | (fail_if_no_progress refine Kept.upd ?_ rfl rfl rfl)

theorem kept_rowCoreRestartComplete (t : SI) (s : State) : Kept s (rowCoreRestartComplete t s) := by
  unfold rowCoreRestartComplete
  try dsimp only
  repeat' first
    | with_reducible exact Kept.refl _
    | split
    | with_reducible refine (kept_moment _ _).after ?_
    | with_reducible refine (kept_raise _ _).after ?_
    | with_reducible refine (kept_change _ _ _ _ _ _).after ?_
    | with_reducible refine (kept_endCause _ _).after ?_
    | with_reducible refine (kept_resumeJobs _).after ?_
    | (fail_if_no_progress refine Kept.upd ?_ rfl rfl rfl)

theorem kept_postEnds (s : State) : Kept s (State.postEnds s) := by
  unfold State.postEnds
  try dsimp only
  repeat' first
    | with_reducible exact Kept.refl _
    | split
    | with_reducible refine (kept_complete _ _ _ _ _).after ?_
    | (with_reducible refine (Kept.foldl _ ?_ _ _).after ?_; focus intro _ _)
    | (fail_if_no_progress refine Kept.upd ?_ rfl rfl rfl)

theorem kept_execLogRetry (t : SI) (onChipOk : Bool) (dramOk : Bool) (s : State) : KeptO s (execLogRetry t onChipOk dramOk s) := by
  unfold execLogRetry
  try dsimp only
  repeat' first
    | with_reducible exact Kept.refl _
    | with_reducible refine KeptO.next ?_
    | split
    | with_reducible refine (kept_moment _ _).after ?_
    | with_reducible refine (kept_beginCause _ _).after ?_
    | with_reducible refine (kept_endCause _ _).after ?_
    | with_reducible refine (kept_postEnds _).after ?_
    | (fail_if_no_progress refine Kept.upd ?_ rfl rfl rfl)

theorem kept_resetPins (s : State) : Kept s (State.resetPins s) := by
  unfold State.resetPins
  try dsimp only
  repeat' first
    | with_reducible exact Kept.refl _
    | split
    | (fail_if_no_progress refine Kept.upd ?_ rfl rfl rfl)

theorem kept_beginSoft (s : State) : Kept s (State.beginSoft s) := by
  unfold State.beginSoft
  try dsimp only
  repeat' first
    | with_reducible exact Kept.refl _
    | split
    | with_reducible refine (kept_cancelDeferred _ _).after ?_
    | with_reducible refine (kept_closeWindow _ _ _ _).after ?_
    | with_reducible refine (kept_disarmAt _ _).after ?_
    | with_reducible refine (kept_stopRunAt _ _).after ?_
    | with_reducible refine (kept_cancelJob _ _).after ?_
    | with_reducible refine (kept_resetPins _).after ?_
    | (with_reducible refine (Kept.foldl _ ?_ _ _).after ?_; focus intro _ _)
    | (fail_if_no_progress refine Kept.upd ?_ rfl rfl rfl)

theorem kept_maybeSoft (s : State) : Kept s (State.maybeSoft s) := by
  unfold State.maybeSoft
  try dsimp only
  repeat' first
    | with_reducible exact Kept.refl _
    | split
    | with_reducible refine (kept_beginSoft _).after ?_
    | (fail_if_no_progress refine Kept.upd ?_ rfl rfl rfl)

theorem kept_softResetEffect (c : Ctx) (s : State) : Kept s (softResetEffect c s) := by
  unfold softResetEffect
  try dsimp only
  repeat' first
    | with_reducible exact Kept.refl _
    | split
    | with_reducible refine (kept_maybeSoft _).after ?_
    | (fail_if_no_progress refine Kept.upd ?_ rfl rfl rfl)

theorem kept_resetCells (s : State) : Kept s (State.resetCells s) := by
  unfold State.resetCells
  try dsimp only
  repeat' first
    | with_reducible exact Kept.refl _
    | split
    | with_reducible refine (kept_setMode _ _ _ _).after ?_
    | (with_reducible refine (Kept.foldl _ ?_ _ _).after ?_; focus intro _ _)
    | (fail_if_no_progress refine Kept.upd ?_ rfl rfl rfl)

theorem kept_resetConfig (s : State) : Kept s (State.resetConfig s) := by
  unfold State.resetConfig
  try dsimp only
  repeat' first
    | with_reducible exact Kept.refl _
    | split
    | with_reducible refine (kept_resetCells _).after ?_
    | (fail_if_no_progress refine Kept.upd ?_ rfl rfl rfl)

theorem kept_selfTested (s : State) (failed : Nat) : Kept s (State.selfTested s failed) := by
  unfold State.selfTested
  try dsimp only
  repeat' first
    | with_reducible exact Kept.refl _
    | split
    | with_reducible refine (kept_raiseIf _ _ _).after ?_
    | (fail_if_no_progress refine Kept.upd ?_ rfl rfl rfl)

theorem kept_resetSeams (s : State) : Kept s (State.resetSeams s) := by
  unfold State.resetSeams
  try dsimp only
  repeat' first
    | with_reducible exact Kept.refl _
    | split
    | (fail_if_no_progress refine Kept.upd ?_ rfl rfl rfl)

theorem kept_endSoft (s : State) (c : Ctx) (failedTest : Nat) : Kept s (State.endSoft s c failedTest) := by
  unfold State.endSoft
  try dsimp only
  repeat' first
    | with_reducible exact Kept.refl _
    | split
    | with_reducible refine (kept_raise _ _).after ?_
    | with_reducible refine (kept_finishAt _ _ _ _).after ?_
    | with_reducible refine (kept_endCause _ _).after ?_
    | with_reducible refine (kept_cancelJob _ _).after ?_
    | with_reducible refine (kept_checkSeams _).after ?_
    | with_reducible refine (kept_resetConfig _).after ?_
    | with_reducible refine (kept_selfTested _ _).after ?_
    | with_reducible refine (kept_resetSeams _).after ?_
    | with_reducible refine (kept_updateBarred _).after ?_
    | (with_reducible refine (Kept.foldl _ ?_ _ _).after ?_; focus intro _ _)
    | (fail_if_no_progress refine Kept.upd ?_ rfl rfl rfl)

theorem kept_rowSoftResetComplete (t : SI) (failedTest : Nat) (s : State) : Kept s (rowSoftResetComplete t failedTest s) := by
  unfold rowSoftResetComplete
  try dsimp only
  repeat' first
    | with_reducible exact Kept.refl _
    | split
    | with_reducible refine (kept_moment _ _).after ?_
    | with_reducible refine (kept_endSoft _ _ _).after ?_
    | (fail_if_no_progress refine Kept.upd ?_ rfl rfl rfl)

theorem kept_onConfig (s : State) (f : State → State) (hf : ∀ s, Kept s (f s)) : Kept s (State.onConfig s f) := by
  unfold State.onConfig
  split
  · exact hf s
  · split
    · exact kept_post _ _
    · exact Kept.refl s

theorem kept_hostReadTwo (s : State) (o : Nat) (w : Nat) (wHigh : Nat) : Kept s (State.hostReadTwo s o w wHigh) := by
  unfold State.hostReadTwo
  try dsimp only
  repeat' first
    | with_reducible exact Kept.refl _
    | split
    | with_reducible refine (kept_hostRead _ _ _).after ?_
    | (fail_if_no_progress refine Kept.upd ?_ rfl rfl rfl)

theorem kept_answerWords (s : State) (ws : List Word) : Kept s (State.answerWords s ws) := by
  unfold State.answerWords
  try dsimp only
  repeat' first
    | with_reducible exact Kept.refl _
    | split
    | with_reducible refine (kept_answerRead _ _).after ?_
    | (fail_if_no_progress refine Kept.upd ?_ rfl rfl rfl)

theorem kept_hostReadAt (s : State) (x : ReadAddr) (w : Nat) : Kept s (State.hostReadAt s x w) := by
  unfold State.hostReadAt
  try dsimp only
  repeat' first
    | with_reducible exact Kept.refl _
    | split
    | with_reducible refine (kept_hostRead _ _ _).after ?_
    | with_reducible refine (kept_answerRead _ _).after ?_
    | (with_reducible refine (kept_onConfig _ _ ?_).after ?_; focus (intro _; try dsimp only))
    | with_reducible refine (kept_hostReadTwo _ _ _ _).after ?_
    | with_reducible refine (kept_answerWords _ _).after ?_
    | (fail_if_no_progress refine Kept.upd ?_ rfl rfl rfl)

theorem kept_execRcFieldRead (t : SI) (what : HostRead) (s : State) : KeptO s (execRcFieldRead t what s) := by
  unfold execRcFieldRead
  try dsimp only
  repeat' first
    | with_reducible exact Kept.refl _
    | with_reducible refine KeptO.next ?_
    | split
    | with_reducible refine (kept_moment _ _).after ?_
    | with_reducible refine (kept_hostReadAt _ _ _).after ?_
    | (fail_if_no_progress refine Kept.upd ?_ rfl rfl rfl)

theorem kept_execLowWordRead (t : SI) (off : Nat) (s : State) : KeptO s (execLowWordRead t off s) := by
  unfold execLowWordRead
  try dsimp only
  repeat' first
    | with_reducible exact Kept.refl _
    | with_reducible refine KeptO.next ?_
    | split
    | with_reducible refine (kept_moment _ _).after ?_
    | with_reducible refine (kept_hostRead _ _ _).after ?_
    | (fail_if_no_progress refine Kept.upd ?_ rfl rfl rfl)

theorem kept_execTimSnapSiLoRead (t : SI) (s : State) : KeptO s (execTimSnapSiLoRead t s) := by
  unfold execTimSnapSiLoRead
  try dsimp only
  repeat' first
    | with_reducible exact Kept.refl _
    | with_reducible refine KeptO.next ?_
    | split
    | with_reducible refine (kept_moment _ _).after ?_
    | with_reducible refine (kept_hostRead _ _ _).after ?_
    | (fail_if_no_progress refine Kept.upd ?_ rfl rfl rfl)

theorem kept_getInfoEffect (c : Ctx) (s : State) : Kept s (getInfoEffect c s) := by
  unfold getInfoEffect
  try dsimp only
  repeat' first
    | with_reducible exact Kept.refl _
    | split
    | with_reducible refine (kept_answer _ _ _).after ?_
    | (fail_if_no_progress refine Kept.upd ?_ rfl rfl rfl)

theorem kept_readLogEffect (c : Ctx) (s : State) : Kept s (readLogEffect c s) := by
  unfold readLogEffect
  try dsimp only
  repeat' first
    | with_reducible exact Kept.refl _
    | split
    | with_reducible refine (kept_postBytes _ _ _).after ?_
    | with_reducible refine (kept_change _ _ _ _ _ _).after ?_
    | with_reducible refine (kept_complete _ _ _ _ _).after ?_
    | with_reducible refine (kept_hostWrite _ _ _ _ _).after ?_
    | with_reducible refine (kept_completeLogged _ _ _ _ _).after ?_
    | (fail_if_no_progress refine Kept.upd ?_ rfl rfl rfl)

/-! ### Every row of R437 keeps what every command keeps -/

theorem keeps_opNop : opNop.Keeps :=
  ⟨fun c s => kept_simply (fun _ s => s) c s (fun _ s => Kept.refl s), fun _ s => Kept.refl s, fun _ s => Kept.refl s⟩

theorem keeps_opGetInfo : opGetInfo.Keeps :=
  ⟨fun c s => kept_getInfoEffect c s, fun _ s => Kept.refl s, fun _ s => Kept.refl s⟩

theorem keeps_opResetRegion : opResetRegion.Keeps :=
  ⟨fun c s => kept_resetRegionEffect c s, fun _ s => Kept.refl s, fun _ s => Kept.refl s⟩

theorem keeps_opSoftReset : opSoftReset.Keeps :=
  ⟨fun c s => kept_softResetEffect c s, fun _ s => Kept.refl s, fun _ s => Kept.refl s⟩

theorem keeps_opSetFailsafe : opSetFailsafe.Keeps :=
  ⟨fun c s => kept_simply _ c s kept_setFailsafe, fun _ s => Kept.refl s, fun _ s => Kept.refl s⟩

theorem keeps_opSetRef : opSetRef.Keeps :=
  ⟨fun c s => kept_simply _ c s kept_setRef, fun _ s => Kept.refl s, fun _ s => Kept.refl s⟩

theorem keeps_opSetEpoch : opSetEpoch.Keeps :=
  ⟨fun c s => kept_simply _ c s kept_setEpochTime, fun _ s => Kept.refl s, fun _ s => Kept.refl s⟩

theorem keeps_opSetSt : opSetSt.Keeps :=
  ⟨fun c s => kept_simply _ c s kept_setStTime, fun _ s => Kept.refl s, fun _ s => Kept.refl s⟩

theorem keeps_opSetReturn : opSetReturn.Keeps :=
  ⟨fun c s => kept_simply _ c s kept_setReturnTime, fun _ s => Kept.refl s, fun _ s => Kept.refl s⟩

theorem keeps_opSetThreshold : opSetThreshold.Keeps :=
  ⟨fun c s => kept_simply _ c s kept_setThreshold, fun _ s => Kept.refl s, fun _ s => Kept.refl s⟩

theorem keeps_opSetInputMode : opSetInputMode.Keeps :=
  ⟨fun c s => kept_simply _ c s kept_setInputMode, fun _ s => Kept.refl s, fun _ s => Kept.refl s⟩

theorem keeps_opSetDeskew : opSetDeskew.Keeps :=
  ⟨fun c s => kept_simply _ c s kept_setDeskewCells, fun _ s => Kept.refl s, fun _ s => Kept.refl s⟩

theorem keeps_opCalDeskew : opCalDeskew.Keeps :=
  ⟨fun c s => kept_startJob _ _ _ _, fun _ s => Kept.refl s, fun _ s => Kept.refl s⟩

theorem keeps_opCalInterp : opCalInterp.Keeps :=
  ⟨fun c s => kept_startJob _ _ _ _, fun _ s => Kept.refl s, fun _ s => Kept.refl s⟩

theorem keeps_opSetInterval : opSetInterval.Keeps :=
  ⟨fun c s => kept_simply _ c s kept_setInterval, fun _ s => Kept.refl s, fun _ s => Kept.refl s⟩

theorem keeps_opLoadPattern : opLoadPattern.Keeps :=
  ⟨fun c s => kept_loadPattern c s, fun _ s => Kept.refl s, fun _ s => Kept.refl s⟩

theorem keeps_opArm : opArm.Keeps :=
  ⟨fun c s => kept_armEffect c s, fun c s => kept_armHold c s, fun p s => kept_rootAnnounce _ p s⟩

theorem keeps_opDisarm : opDisarm.Keeps :=
  ⟨fun c s => kept_disarmEffect c s, fun _ s => Kept.refl s, fun p s => kept_rootAnnounce _ p s⟩

theorem keeps_opForceTack : opForceTack.Keeps :=
  ⟨fun c s => kept_simply _ c s kept_forceTack, fun _ s => Kept.refl s, fun _ s => Kept.refl s⟩

theorem keeps_opSetTrigout : opSetTrigout.Keeps :=
  ⟨fun c s => kept_simply _ c s kept_setTrigout, fun _ s => Kept.refl s, fun _ s => Kept.refl s⟩

theorem keeps_opSetUnit : opSetUnit.Keeps :=
  ⟨fun c s => kept_simply _ c s kept_setUnit, fun _ s => Kept.refl s, fun _ s => Kept.refl s⟩

theorem keeps_opSetPortRole : opSetPortRole.Keeps :=
  ⟨fun c s => by dsimp only [opSetPortRole]; exact kept_simply setPortRole c s kept_setPortRole, fun _ s => Kept.refl s, fun _ s => Kept.refl s⟩

theorem keeps_opCascadeDiscover : opCascadeDiscover.Keeps :=
  ⟨fun c s => kept_cascadeDiscoverEffect c s, fun _ s => Kept.refl s, fun _ s => Kept.refl s⟩

theorem keeps_opSetReduction : opSetReduction.Keeps :=
  ⟨fun c s => kept_simply _ c s kept_setReduction, fun _ s => Kept.refl s, fun _ s => Kept.refl s⟩

theorem keeps_opSetLookback : opSetLookback.Keeps :=
  ⟨fun c s => kept_simply _ c s kept_setLookback, fun _ s => Kept.refl s, fun _ s => Kept.refl s⟩

theorem keeps_opSetWindowPolicy : opSetWindowPolicy.Keeps :=
  ⟨fun c s => kept_simply _ c s kept_setWindowPolicy, fun _ s => Kept.refl s, fun _ s => Kept.refl s⟩

theorem keeps_opExportWindow : opExportWindow.Keeps :=
  ⟨fun c s => kept_exportWindowEffect c s, fun _ s => Kept.refl s, fun _ s => Kept.refl s⟩

theorem keeps_opStartRun : opStartRun.Keeps :=
  ⟨fun c s => kept_startRunEffect c s, fun c s => kept_startRunHold c s, fun _ s => Kept.refl s⟩

theorem keeps_opStopRun : opStopRun.Keeps :=
  ⟨fun c s => kept_stopRunEffect c s, fun _ s => Kept.refl s, fun _ s => Kept.refl s⟩

theorem keeps_opSetDecoder : opSetDecoder.Keeps :=
  ⟨fun c s => kept_simply _ c s kept_setDecoder, fun _ s => Kept.refl s, fun _ s => Kept.refl s⟩

theorem keeps_opCreateBobbin : opCreateBobbin.Keeps :=
  ⟨fun c s => kept_createBobbinEffect c s, fun _ s => Kept.refl s, fun _ s => Kept.refl s⟩

theorem keeps_opDestroyBobbin : opDestroyBobbin.Keeps :=
  ⟨fun c s => kept_destroyBobbinEffect c s, fun _ s => Kept.refl s, fun _ s => Kept.refl s⟩

theorem keeps_opRoute : opRoute.Keeps :=
  ⟨fun c s => kept_simply _ c s kept_route, fun _ s => Kept.refl s, fun _ s => Kept.refl s⟩

theorem keeps_opRewind : opRewind.Keeps :=
  ⟨fun c s => kept_rewindEffect c s, fun _ s => Kept.refl s, fun _ s => Kept.refl s⟩

theorem keeps_opSetCompression : opSetCompression.Keeps :=
  ⟨fun c s => kept_setCompressionEffect c s, fun _ s => Kept.refl s, fun _ s => Kept.refl s⟩

theorem keeps_opSetSigning : opSetSigning.Keeps :=
  ⟨fun c s => kept_setSigningEffect c s, fun c s => kept_setSigningHold c s, fun _ s => Kept.refl s⟩

theorem keeps_opReplay : opReplay.Keeps :=
  ⟨fun c s => kept_replayEffect c s, fun _ s => Kept.refl s, fun _ s => Kept.refl s⟩

theorem keeps_opSetDramMap : opSetDramMap.Keeps :=
  ⟨fun c s => kept_simply _ c s kept_setDramMap, fun _ s => Kept.refl s, fun _ s => Kept.refl s⟩

theorem keeps_opTrain : opTrain.Keeps :=
  ⟨fun c s => kept_trainEffect c s, fun _ s => Kept.refl s, fun _ s => Kept.refl s⟩

theorem keeps_opMigrateRank : opMigrateRank.Keeps :=
  ⟨fun c s => kept_migrateRankEffect c s, fun _ s => Kept.refl s, fun _ s => Kept.refl s⟩

theorem keeps_opScrub : opScrub.Keeps :=
  ⟨fun c s => kept_scrubEffect c s, fun _ s => Kept.refl s, fun _ s => Kept.refl s⟩

theorem keeps_opSetHkSeq : opSetHkSeq.Keeps :=
  ⟨fun c s => kept_simply _ c s kept_setHkSeq, fun _ s => Kept.refl s, fun _ s => Kept.refl s⟩

theorem keeps_opHkCal : opHkCal.Keeps :=
  ⟨fun c s => kept_hkCalEffect c s, fun _ s => Kept.refl s, fun _ s => Kept.refl s⟩

theorem keeps_opGetAttestation : opGetAttestation.Keeps :=
  ⟨fun c s => kept_attestEffect c s, fun _ s => Kept.refl s, fun _ s => Kept.refl s⟩

theorem keeps_opRotateEsk : opRotateEsk.Keeps :=
  ⟨fun c s => by dsimp only [opRotateEsk]; exact kept_rotateEffect c s, fun _ s => Kept.refl s, fun _ s => Kept.refl s⟩

theorem keeps_opAuth : opAuth.Keeps :=
  ⟨fun c s => kept_authEffect c s, fun _ s => Kept.refl s, fun _ s => Kept.refl s⟩

theorem keeps_opUpdateFirmware : opUpdateFirmware.Keeps :=
  ⟨fun c s => kept_updateEffect c s, fun _ s => Kept.refl s, fun _ s => Kept.refl s⟩

theorem keeps_opZeroize : opZeroize.Keeps :=
  ⟨fun c s => kept_zeroizeEffect c s, fun _ s => Kept.refl s, fun _ s => Kept.refl s⟩

theorem keeps_opJobSuspend : opJobSuspend.Keeps :=
  ⟨fun c s => kept_jobSuspendEffect c s, fun _ s => Kept.refl s, fun _ s => Kept.refl s⟩

theorem keeps_opJobResume : opJobResume.Keeps :=
  ⟨fun c s => kept_jobResumeEffect c s, fun _ s => Kept.refl s, fun _ s => Kept.refl s⟩

theorem keeps_opJobCancel : opJobCancel.Keeps :=
  ⟨fun c s => kept_jobCancelEffect c s, fun _ s => Kept.refl s, fun _ s => Kept.refl s⟩

theorem keeps_opJobStatus : opJobStatus.Keeps :=
  ⟨fun c s => kept_jobStatusEffect c s, fun _ s => Kept.refl s, fun _ s => Kept.refl s⟩

theorem keeps_opReadLog : opReadLog.Keeps :=
  ⟨fun c s => kept_readLogEffect c s, fun _ s => Kept.refl s, fun _ s => Kept.refl s⟩

/-- An opcode that can be scheduled. -/
theorem keeps_schedSpec (op : Nat) (o : OpSpec) (h : schedSpec op = some o) : o.Keeps := by
  have hm := List.mem_of_find?_eq_some h
  simp only [scheduled, List.cons_append, List.nil_append, List.mem_cons, List.not_mem_nil, or_false] at hm
  rcases hm with rfl | rfl | rfl | rfl | rfl | rfl | rfl | rfl | rfl | rfl | rfl | rfl | rfl | rfl | rfl | rfl | rfl | rfl | rfl | rfl | rfl | rfl | rfl | rfl | rfl | rfl | rfl | rfl | rfl | rfl | rfl | rfl | rfl | rfl | rfl | rfl | rfl | rfl | rfl | rfl | rfl | rfl | rfl
  · exact keeps_opNop
  · exact keeps_opResetRegion
  · exact keeps_opSoftReset
  · exact keeps_opSetFailsafe
  · exact keeps_opSetRef
  · exact keeps_opSetEpoch
  · exact keeps_opSetSt
  · exact keeps_opSetReturn
  · exact keeps_opSetThreshold
  · exact keeps_opSetInputMode
  · exact keeps_opSetDeskew
  · exact keeps_opCalDeskew
  · exact keeps_opCalInterp
  · exact keeps_opSetInterval
  · exact keeps_opLoadPattern
  · exact keeps_opArm
  · exact keeps_opDisarm
  · exact keeps_opForceTack
  · exact keeps_opSetTrigout
  · exact keeps_opSetUnit
  · exact keeps_opSetPortRole
  · exact keeps_opCascadeDiscover
  · exact keeps_opSetReduction
  · exact keeps_opSetLookback
  · exact keeps_opSetWindowPolicy
  · exact keeps_opExportWindow
  · exact keeps_opStartRun
  · exact keeps_opStopRun
  · exact keeps_opSetDecoder
  · exact keeps_opCreateBobbin
  · exact keeps_opDestroyBobbin
  · exact keeps_opRoute
  · exact keeps_opRewind
  · exact keeps_opSetCompression
  · exact keeps_opSetSigning
  · exact keeps_opReplay
  · exact keeps_opSetDramMap
  · exact keeps_opTrain
  · exact keeps_opMigrateRank
  · exact keeps_opScrub
  · exact keeps_opSetHkSeq
  · exact keeps_opHkCal
  · exact keeps_opRotateEsk

theorem kept_scheduleEffect (c : Ctx) (s : State) : Kept s (scheduleEffect c s) := by
  unfold scheduleEffect
  try dsimp only
  repeat' first
    | with_reducible exact Kept.refl _
    | split
    | with_reducible refine (kept_finish _ _ _).after ?_
    | with_reducible refine (kept_executeEntry _ _ _ _ _ _ (keeps_schedSpec _ _ (by assumption))).after ?_
    | (with_reducible refine (kept_executeEntry _ _ _ _ _ _ (keeps_schedSpec _ _ (by assumption))).after ?_)
    | (fail_if_no_progress refine Kept.upd ?_ rfl rfl rfl)

theorem kept_unscheduleEffect (c : Ctx) (s : State) : Kept s (unscheduleEffect c s) := by
  unfold unscheduleEffect
  try dsimp only
  repeat' first
    | with_reducible exact Kept.refl _
    | split
    | with_reducible refine (kept_postEntry _ _).after ?_
    | with_reducible refine (kept_finish _ _ _).after ?_
    | (with_reducible refine (Kept.foldl _ ?_ _ _).after ?_; focus intro _ _)
    | (fail_if_no_progress refine Kept.upd ?_ rfl rfl rfl)

theorem keeps_opSchedule : opSchedule.Keeps :=
  ⟨fun c s => kept_scheduleEffect c s, fun _ s => Kept.refl s, fun _ s => Kept.refl s⟩

theorem keeps_opUnschedule : opUnschedule.Keeps :=
  ⟨fun c s => kept_unscheduleEffect c s, fun _ s => Kept.refl s, fun _ s => Kept.refl s⟩

/-- Every opcode. -/
theorem keeps_opSpecOf (op : Nat) (o : OpSpec) (h : opSpecOf op = some o) : o.Keeps := by
  have hm := List.mem_of_find?_eq_some h
  simp only [opSpecs, List.mem_append] at hm
  rcases hm with hm | hm
  · simp only [scheduled, List.cons_append, List.nil_append, List.mem_cons, List.not_mem_nil, or_false] at hm
    rcases hm with rfl | rfl | rfl | rfl | rfl | rfl | rfl | rfl | rfl | rfl | rfl | rfl | rfl | rfl | rfl | rfl | rfl | rfl | rfl | rfl | rfl | rfl | rfl | rfl | rfl | rfl | rfl | rfl | rfl | rfl | rfl | rfl | rfl | rfl | rfl | rfl | rfl | rfl | rfl | rfl | rfl | rfl | rfl
    · exact keeps_opNop
    · exact keeps_opResetRegion
    · exact keeps_opSoftReset
    · exact keeps_opSetFailsafe
    · exact keeps_opSetRef
    · exact keeps_opSetEpoch
    · exact keeps_opSetSt
    · exact keeps_opSetReturn
    · exact keeps_opSetThreshold
    · exact keeps_opSetInputMode
    · exact keeps_opSetDeskew
    · exact keeps_opCalDeskew
    · exact keeps_opCalInterp
    · exact keeps_opSetInterval
    · exact keeps_opLoadPattern
    · exact keeps_opArm
    · exact keeps_opDisarm
    · exact keeps_opForceTack
    · exact keeps_opSetTrigout
    · exact keeps_opSetUnit
    · exact keeps_opSetPortRole
    · exact keeps_opCascadeDiscover
    · exact keeps_opSetReduction
    · exact keeps_opSetLookback
    · exact keeps_opSetWindowPolicy
    · exact keeps_opExportWindow
    · exact keeps_opStartRun
    · exact keeps_opStopRun
    · exact keeps_opSetDecoder
    · exact keeps_opCreateBobbin
    · exact keeps_opDestroyBobbin
    · exact keeps_opRoute
    · exact keeps_opRewind
    · exact keeps_opSetCompression
    · exact keeps_opSetSigning
    · exact keeps_opReplay
    · exact keeps_opSetDramMap
    · exact keeps_opTrain
    · exact keeps_opMigrateRank
    · exact keeps_opScrub
    · exact keeps_opSetHkSeq
    · exact keeps_opHkCal
    · exact keeps_opRotateEsk
  · simp only [List.mem_cons, List.not_mem_nil, or_false] at hm
    rcases hm with rfl | rfl | rfl | rfl | rfl | rfl | rfl | rfl | rfl | rfl | rfl | rfl
    · exact keeps_opGetInfo
    · exact keeps_opSchedule
    · exact keeps_opUnschedule
    · exact keeps_opGetAttestation
    · exact keeps_opAuth
    · exact keeps_opUpdateFirmware
    · exact keeps_opZeroize
    · exact keeps_opJobSuspend
    · exact keeps_opJobResume
    · exact keeps_opJobCancel
    · exact keeps_opJobStatus
    · exact keeps_opReadLog

theorem kept_submitAny (s : State) (f : Fetched) (n : Nat) : Kept s (State.submitAny s f n) := by
  unfold State.submitAny
  try dsimp only
  repeat' first
    | with_reducible exact Kept.refl _
    | split
    | with_reducible refine (kept_modRing _ _ _).after ?_
    | with_reducible refine (kept_refuse _ _ _ _).after ?_
    | with_reducible refine (kept_submit _ _ _ _ (keeps_opSpecOf _ _ (by assumption))).after ?_
    | (fail_if_no_progress refine Kept.upd ?_ rfl rfl rfl)

theorem kept_examineOne (s : State) (n : Nat) : Kept s (State.examineOne s n) := by
  unfold State.examineOne
  try dsimp only
  repeat' first
    | with_reducible exact Kept.refl _
    | split
    | with_reducible refine (kept_modRing _ _ _).after ?_
    | with_reducible refine (kept_submitAny _ _ _).after ?_
    | (fail_if_no_progress refine Kept.upd ?_ rfl rfl rfl)

theorem kept_examine (s : State) (turns : Nat) : Kept s (State.examine s turns) := by
  induction turns generalizing s with
  | zero => exact Kept.refl _
  | succ k ih =>
  unfold State.examine
  try dsimp only
  repeat' first
    | with_reducible refine (ih _).after ?_
    | with_reducible exact Kept.refl _
    | split
    | with_reducible refine (kept_examineOne _ _).after ?_
    | (with_reducible refine (Kept.foldl _ ?_ _ _).after ?_; focus intro _ _)
    | (fail_if_no_progress refine Kept.upd ?_ rfl rfl rfl)

theorem kept_receiveAny (s : State) (f : Fetched) : Kept s (State.receiveAny s f) := by
  unfold State.receiveAny
  try dsimp only
  repeat' first
    | with_reducible exact Kept.refl _
    | split
    | with_reducible refine (kept_modRing _ _ _).after ?_
    | with_reducible refine (kept_swapRefuse _ _).after ?_
    | with_reducible refine (kept_receive _ _ _ (keeps_opSpecOf _ _ (by assumption))).after ?_
    | with_reducible refine (kept_submitAny _ _ _).after ?_
    | (fail_if_no_progress refine Kept.upd ?_ rfl rfl rfl)

theorem kept_fetchRing (s : State) (n : Nat) : Kept s (State.fetchRing s n) := by
  unfold State.fetchRing
  try dsimp only
  repeat' first
    | with_reducible exact Kept.refl _
    | split
    | with_reducible refine (kept_modRing _ _ _).after ?_
    | with_reducible refine (kept_issue _ _).after ?_
    | (fail_if_no_progress refine Kept.upd ?_ rfl rfl rfl)

theorem kept_pump (s : State) : Kept s (State.pump s) := by
  unfold State.pump
  try dsimp only
  repeat' first
    | with_reducible exact Kept.refl _
    | split
    | with_reducible refine (kept_examine _ _).after ?_
    | with_reducible refine (kept_fetchRing _ _).after ?_
    | (with_reducible refine (Kept.foldl _ ?_ _ _).after ?_; focus intro _ _)
    | (fail_if_no_progress refine Kept.upd ?_ rfl rfl rfl)

theorem kept_stopRing (s : State) (n : Nat) (cause : Nat) : Kept s (State.stopRing s n cause) := by
  unfold State.stopRing
  try dsimp only
  repeat' first
    | with_reducible exact Kept.refl _
    | split
    | with_reducible refine (kept_raise _ _).after ?_
    | with_reducible refine (kept_modRing _ _ _).after ?_
    | (fail_if_no_progress refine Kept.upd ?_ rfl rfl rfl)

theorem kept_packetFetched (s : State) (n : Nat) (got : List Byte) : Kept s (State.packetFetched s n got) := by
  unfold State.packetFetched
  try dsimp only
  repeat' first
    | with_reducible exact Kept.refl _
    | split
    | with_reducible refine (kept_modRing _ _ _).after ?_
    | with_reducible refine (kept_receiveAny _ _).after ?_
    | (fail_if_no_progress refine Kept.upd ?_ rfl rfl rfl)

theorem kept_fetchParams (s : State) (n : Nat) (got : List Byte) : Kept s (State.fetchParams s n got) := by
  unfold State.fetchParams
  try dsimp only
  repeat' first
    | with_reducible exact Kept.refl _
    | split
    | with_reducible refine (kept_issue _ _).after ?_
    | with_reducible refine (kept_packetFetched _ _ _).after ?_
    | (fail_if_no_progress refine Kept.upd ?_ rfl rfl rfl)

theorem kept_headerFetched (s : State) (n : Nat) (hdr : List Byte) : Kept s (State.headerFetched s n hdr) := by
  unfold State.headerFetched
  try dsimp only
  repeat' first
    | with_reducible exact Kept.refl _
    | split
    | with_reducible refine (kept_stopRing _ _ _).after ?_
    | with_reducible refine (kept_fetchParams _ _ _).after ?_
    | (fail_if_no_progress refine Kept.upd ?_ rfl rfl rfl)

theorem kept_readDone (s : State) (q : Request) (data : List Byte) : Kept s (State.readDone s q data) := by
  unfold State.readDone
  try dsimp only
  repeat' first
    | with_reducible exact Kept.refl _
    | split
    | with_reducible refine (kept_replayData _ _ _ _).after ?_
    | with_reducible refine (kept_fetchParams _ _ _).after ?_
    | with_reducible refine (kept_headerFetched _ _ _).after ?_
    | (fail_if_no_progress refine Kept.upd ?_ rfl rfl rfl)

theorem kept_readFailed (s : State) (q : Request) (k : Nat) : Kept s (State.readFailed s q k) := by
  unfold State.readFailed
  try dsimp only
  repeat' first
    | with_reducible exact Kept.refl _
    | split
    | with_reducible refine (kept_issue _ _).after ?_
    | with_reducible refine (kept_replayReadFailed _ _).after ?_
    | with_reducible refine (kept_stopRing _ _ _).after ?_
    | (fail_if_no_progress refine Kept.upd ?_ rfl rfl rfl)

theorem kept_readAgain (s : State) (q : Request) : Kept s (State.readAgain s q) := by
  unfold State.readAgain
  try dsimp only
  repeat' first
    | with_reducible exact Kept.refl _
    | split
    | (fail_if_no_progress refine Kept.upd ?_ rfl rfl rfl)

theorem kept_dropTag (s : State) (k : Nat) : Kept s (State.dropTag s k) := by
  unfold State.dropTag
  try dsimp only
  repeat' first
    | with_reducible exact Kept.refl _
    | split
    | (fail_if_no_progress refine Kept.upd ?_ rfl rfl rfl)

theorem kept_aer (s : State) (b : Nat) : Kept s (State.aer s b) := by
  unfold State.aer
  try dsimp only
  repeat' first
    | with_reducible exact Kept.refl _
    | split
    | (fail_if_no_progress refine Kept.upd ?_ rfl rfl rfl)

theorem kept_lateCompletion (s : State) : Kept s (State.lateCompletion s) := by
  unfold State.lateCompletion
  try dsimp only
  repeat' first
    | with_reducible exact Kept.refl _
    | split
    | with_reducible refine (kept_raise _ _).after ?_
    | with_reducible refine (kept_aer _ _).after ?_
    | (fail_if_no_progress refine Kept.upd ?_ rfl rfl rfl)

theorem kept_badCompletion (s : State) : Kept s (State.badCompletion s) := by
  unfold State.badCompletion
  try dsimp only
  repeat' first
    | with_reducible exact Kept.refl _
    | split
    | with_reducible refine (kept_raise _ _).after ?_
    | (fail_if_no_progress refine Kept.upd ?_ rfl rfl rfl)

theorem kept_execCompletionReceived (t : SI) (tag : Fin 1024) (st : CplStatus) (data : List Byte) (s : State) : KeptO s (execCompletionReceived t tag st data s) := by
  unfold execCompletionReceived
  try dsimp only
  repeat' first
    | with_reducible exact Kept.refl _
    | with_reducible refine KeptO.next ?_
    | split
    | with_reducible refine (kept_moment _ _).after ?_
    | with_reducible refine (kept_issueWaiting _).after ?_
    | with_reducible refine (kept_quiesce _).after ?_
    | with_reducible refine (kept_pump _).after ?_
    | with_reducible refine (kept_readDone _ _ _).after ?_
    | with_reducible refine (kept_readFailed _ _ _).after ?_
    | with_reducible refine (kept_readAgain _ _).after ?_
    | with_reducible refine (kept_dropTag _ _).after ?_
    | with_reducible refine (kept_lateCompletion _).after ?_
    | with_reducible refine (kept_badCompletion _).after ?_
    | (fail_if_no_progress refine Kept.upd ?_ rfl rfl rfl)

theorem kept_execCompletionTimeout (t : SI) (tag : Fin 1024) (s : State) : KeptO s (execCompletionTimeout t tag s) := by
  unfold execCompletionTimeout
  try dsimp only
  repeat' first
    | with_reducible exact Kept.refl _
    | with_reducible refine KeptO.next ?_
    | split
    | with_reducible refine (kept_moment _ _).after ?_
    | with_reducible refine (kept_raise _ _).after ?_
    | with_reducible refine (kept_quiesce _).after ?_
    | with_reducible refine (kept_pump _).after ?_
    | with_reducible refine (kept_readFailed _ _ _).after ?_
    | with_reducible refine (kept_readAgain _ _).after ?_
    | with_reducible refine (kept_dropTag _ _).after ?_
    | with_reducible refine (kept_aer _ _).after ?_
    | with_reducible refine (kept_issueWaiting _).after ?_
    | (fail_if_no_progress refine Kept.upd ?_ rfl rfl rfl)

theorem kept_execTagQuarantineEnd (t : SI) (tag : Fin 1024) (s : State) : KeptO s (execTagQuarantineEnd t tag s) := by
  unfold execTagQuarantineEnd
  try dsimp only
  repeat' first
    | with_reducible exact Kept.refl _
    | with_reducible refine KeptO.next ?_
    | split
    | with_reducible refine (kept_moment _ _).after ?_
    | with_reducible refine (kept_issueWaiting _).after ?_
    | with_reducible refine (kept_pump _).after ?_
    | (fail_if_no_progress refine Kept.upd ?_ rfl rfl rfl)

theorem kept_execRingEnable (t : SI) (r : Fin 16) (v : Word) (s : State) : KeptO s (execRingEnable t r v s) := by
  unfold execRingEnable
  try dsimp only
  repeat' first
    | with_reducible exact Kept.refl _
    | with_reducible refine KeptO.next ?_
    | split
    | with_reducible refine (kept_moment _ _).after ?_
    | with_reducible refine (kept_pump _).after ?_
    | with_reducible refine (kept_cfgRing _ _ _).after ?_
    | (fail_if_no_progress refine Kept.upd ?_ rfl rfl rfl)

theorem kept_execRingDisable (t : SI) (r : Fin 16) (v : Word) (s : State) : KeptO s (execRingDisable t r v s) := by
  unfold execRingDisable
  try dsimp only
  repeat' first
    | with_reducible exact Kept.refl _
    | with_reducible refine KeptO.next ?_
    | split
    | with_reducible refine (kept_moment _ _).after ?_
    | with_reducible refine (kept_pump _).after ?_
    | with_reducible refine (kept_cfgRing _ _ _).after ?_
    | (fail_if_no_progress refine Kept.upd ?_ rfl rfl rfl)

theorem kept_execSqTailWrite (t : SI) (r : Fin 16) (v : Word) (s : State) : KeptO s (execSqTailWrite t r v s) := by
  unfold execSqTailWrite
  try dsimp only
  repeat' first
    | with_reducible exact Kept.refl _
    | with_reducible refine KeptO.next ?_
    | split
    | with_reducible refine (kept_moment _ _).after ?_
    | with_reducible refine (kept_pump _).after ?_
    | with_reducible refine (kept_writeTail _ _ _).after ?_
    | (fail_if_no_progress refine Kept.upd ?_ rfl rfl rfl)

theorem kept_execCqHeadWrite (t : SI) (r : Fin 16) (v : Word) (s : State) : KeptO s (execCqHeadWrite t r v s) := by
  unfold execCqHeadWrite
  try dsimp only
  repeat' first
    | with_reducible exact Kept.refl _
    | with_reducible refine KeptO.next ?_
    | split
    | with_reducible refine (kept_moment _ _).after ?_
    | with_reducible refine (kept_drainHold _).after ?_
    | with_reducible refine (kept_pump _).after ?_
    | with_reducible refine (kept_onRing _ _ _).after ?_
    | (fail_if_no_progress refine Kept.upd ?_ rfl rfl rfl)

theorem kept_execSchedulerEntryDue (t : SI) (entry : Fin 256) (s : State) : KeptO s (execSchedulerEntryDue t entry s) := by
  unfold execSchedulerEntryDue
  try dsimp only
  repeat' first
    | with_reducible exact Kept.refl _
    | with_reducible refine KeptO.next ?_
    | split
    | with_reducible refine (kept_moment _ _).after ?_
    | with_reducible refine (kept_executeEntry _ _ _ _ _ _ (keeps_schedSpec _ _ (by assumption))).after ?_
    | with_reducible refine (kept_pump _).after ?_
    | (fail_if_no_progress refine Kept.upd ?_ rfl rfl rfl)

theorem kept_resumeHost (s : State) : Kept s (State.resumeHost s) := by
  unfold State.resumeHost
  try dsimp only
  repeat' first
    | with_reducible exact Kept.refl _
    | split
    | with_reducible refine (kept_flushMsix _).after ?_
    | with_reducible refine (kept_drainHold _).after ?_
    | with_reducible refine (kept_issueWaiting _).after ?_
    | with_reducible refine (kept_pump _).after ?_
    | (fail_if_no_progress refine Kept.upd ?_ rfl rfl rfl)

theorem kept_clearBme (s : State) : Kept s (State.clearBme s) := by
  unfold State.clearBme
  try dsimp only
  repeat' first
    | with_reducible exact Kept.refl _
    | split
    | with_reducible refine (kept_raise _ _).after ?_
    | with_reducible refine (kept_quiesce _).after ?_
    | (fail_if_no_progress refine Kept.upd ?_ rfl rfl rfl)

theorem kept_execBusMasterEnableClear (t : SI) (s : State) : KeptO s (execBusMasterEnableClear t s) := by
  unfold execBusMasterEnableClear
  try dsimp only
  repeat' first
    | with_reducible exact Kept.refl _
    | with_reducible refine KeptO.next ?_
    | split
    | with_reducible refine (kept_moment _ _).after ?_
    | with_reducible refine (kept_clearBme _).after ?_
    | (with_reducible refine (kept_onConfig _ _ ?_).after ?_; focus (intro _; try dsimp only))
    | (fail_if_no_progress refine Kept.upd ?_ rfl rfl rfl)

theorem kept_setBme (s : State) : Kept s (State.setBme s) := by
  unfold State.setBme
  try dsimp only
  repeat' first
    | with_reducible exact Kept.refl _
    | split
    | with_reducible refine (kept_resumeHost _).after ?_
    | (fail_if_no_progress refine Kept.upd ?_ rfl rfl rfl)

theorem kept_execBusMasterEnableSet (t : SI) (s : State) : KeptO s (execBusMasterEnableSet t s) := by
  unfold execBusMasterEnableSet
  try dsimp only
  repeat' first
    | with_reducible exact Kept.refl _
    | with_reducible refine KeptO.next ?_
    | split
    | with_reducible refine (kept_moment _ _).after ?_
    | with_reducible refine (kept_setBme _).after ?_
    | (with_reducible refine (kept_onConfig _ _ ?_).after ?_; focus (intro _; try dsimp only))
    | (fail_if_no_progress refine Kept.upd ?_ rfl rfl rfl)

theorem kept_withdrawClock (s : State) : Kept s (State.withdrawClock s) := by
  unfold State.withdrawClock
  try dsimp only
  repeat' first
    | with_reducible exact Kept.refl _
    | split
    | with_reducible refine (kept_post _ _).after ?_
    | (fail_if_no_progress refine Kept.upd ?_ rfl rfl rfl)

theorem kept_enterD3 (s : State) : Kept s (State.enterD3 s) := by
  unfold State.enterD3
  try dsimp only
  repeat' first
    | with_reducible exact Kept.refl _
    | split
    | with_reducible refine (kept_raise _ _).after ?_
    | with_reducible refine (kept_withdrawClock _).after ?_
    | (fail_if_no_progress refine Kept.upd ?_ rfl rfl rfl)

theorem kept_requestClock (s : State) : Kept s (State.requestClock s) := by
  unfold State.requestClock
  try dsimp only
  repeat' first
    | with_reducible exact Kept.refl _
    | split
    | with_reducible refine (kept_post _ _).after ?_
    | (fail_if_no_progress refine Kept.upd ?_ rfl rfl rfl)

theorem kept_leaveD3 (s : State) : Kept s (State.leaveD3 s) := by
  unfold State.leaveD3
  try dsimp only
  repeat' first
    | with_reducible exact Kept.refl _
    | split
    | with_reducible refine (kept_raise _ _).after ?_
    | with_reducible refine (kept_resumeHost _).after ?_
    | with_reducible refine (kept_requestClock _).after ?_
    | (fail_if_no_progress refine Kept.upd ?_ rfl rfl rfl)

theorem kept_execD3hotEntry (t : SI) (s : State) : KeptO s (execD3hotEntry t s) := by
  unfold execD3hotEntry
  try dsimp only
  repeat' first
    | with_reducible exact Kept.refl _
    | with_reducible refine KeptO.next ?_
    | split
    | with_reducible refine (kept_moment _ _).after ?_
    | with_reducible refine (kept_enterD3 _).after ?_
    | (with_reducible refine (kept_onConfig _ _ ?_).after ?_; focus (intro _; try dsimp only))
    | (fail_if_no_progress refine Kept.upd ?_ rfl rfl rfl)

theorem kept_execD0Entry (t : SI) (s : State) : KeptO s (execD0Entry t s) := by
  unfold execD0Entry
  try dsimp only
  repeat' first
    | with_reducible exact Kept.refl _
    | with_reducible refine KeptO.next ?_
    | split
    | with_reducible refine (kept_moment _ _).after ?_
    | with_reducible refine (kept_leaveD3 _).after ?_
    | (with_reducible refine (kept_onConfig _ _ ?_).after ?_; focus (intro _; try dsimp only))
    | (fail_if_no_progress refine Kept.upd ?_ rfl rfl rfl)

theorem kept_loseLink (s : State) : Kept s (State.loseLink s) := by
  unfold State.loseLink
  try dsimp only
  repeat' first
    | with_reducible exact Kept.refl _
    | split
    | with_reducible refine (kept_raise _ _).after ?_
    | with_reducible refine (kept_linkUp _ _ _).after ?_
    | (fail_if_no_progress refine Kept.upd ?_ rfl rfl rfl)

theorem kept_execPcieLinkDown (t : SI) (s : State) : KeptO s (execPcieLinkDown t s) := by
  unfold execPcieLinkDown
  try dsimp only
  repeat' first
    | with_reducible exact Kept.refl _
    | with_reducible refine KeptO.next ?_
    | split
    | with_reducible refine (kept_moment _ _).after ?_
    | with_reducible refine (kept_loseLink _).after ?_
    | (fail_if_no_progress refine Kept.upd ?_ rfl rfl rfl)

theorem kept_execPcieLinkUp (t : SI) (speed : Fin 7) (width : Fin 32) (flit : Bool) (s : State) : KeptO s (execPcieLinkUp t speed width flit s) := by
  unfold execPcieLinkUp
  try dsimp only
  repeat' first
    | with_reducible exact Kept.refl _
    | with_reducible refine KeptO.next ?_
    | split
    | with_reducible refine (kept_moment _ _).after ?_
    | with_reducible refine (kept_raise _ _).after ?_
    | with_reducible refine (kept_raiseIf _ _ _).after ?_
    | with_reducible refine (kept_linkUp _ _ _).after ?_
    | with_reducible refine (kept_resumeHost _).after ?_
    | with_reducible refine (kept_post _ _).after ?_
    | (fail_if_no_progress refine Kept.upd ?_ rfl rfl rfl)

theorem kept_holdBobbins (s : State) : Kept s (State.holdBobbins s) := by
  unfold State.holdBobbins
  try dsimp only
  repeat' first
    | with_reducible exact Kept.refl _
    | split
    | (fail_if_no_progress refine Kept.upd ?_ rfl rfl rfl)

theorem kept_stopUnretained (s : State) : Kept s (State.stopUnretained s) := by
  unfold State.stopUnretained
  try dsimp only
  repeat' first
    | with_reducible exact Kept.refl _
    | split
    | with_reducible refine (kept_stopRunEffect _ _).after ?_
    | (fail_if_no_progress refine Kept.upd ?_ rfl rfl rfl)

theorem kept_hostReset (s : State) (n : Nat) : Kept s (State.hostReset s n) := by
  unfold State.hostReset
  try dsimp only
  repeat' first
    | with_reducible exact Kept.refl _
    | split
    | with_reducible refine (kept_raise _ _).after ?_
    | with_reducible refine (kept_raiseIf _ _ _).after ?_
    | with_reducible refine (kept_quiesce _).after ?_
    | with_reducible refine (kept_stripAll _ _).after ?_
    | with_reducible refine (kept_holdBobbins _).after ?_
    | with_reducible refine (kept_stopUnretained _).after ?_
    | with_reducible refine (kept_requestClock _).after ?_
    | with_reducible refine (kept_cutRings _ _).after ?_
    | (fail_if_no_progress refine Kept.upd ?_ rfl rfl rfl)

theorem kept_execFunctionLevelReset (t : SI) (s : State) : KeptO s (execFunctionLevelReset t s) := by
  unfold execFunctionLevelReset
  try dsimp only
  repeat' first
    | with_reducible exact Kept.refl _
    | with_reducible refine KeptO.next ?_
    | split
    | with_reducible refine (kept_moment _ _).after ?_
    | with_reducible refine (kept_hostReset _ _).after ?_
    | (with_reducible refine (kept_onConfig _ _ ?_).after ?_; focus (intro _; try dsimp only))
    | (fail_if_no_progress refine Kept.upd ?_ rfl rfl rfl)

theorem kept_execHotReset (t : SI) (linkDown : Bool) (s : State) : KeptO s (execHotReset t linkDown s) := by
  unfold execHotReset
  try dsimp only
  repeat' first
    | with_reducible exact Kept.refl _
    | with_reducible refine KeptO.next ?_
    | split
    | with_reducible refine (kept_moment _ _).after ?_
    | with_reducible refine (kept_loseLink _).after ?_
    | with_reducible refine (kept_hostReset _ _).after ?_
    | (fail_if_no_progress refine Kept.upd ?_ rfl rfl rfl)

theorem kept_execFatalErrorFreeze (t : SI) (cause : Fin 32) (s : State) : KeptO s (execFatalErrorFreeze t cause s) := by
  unfold execFatalErrorFreeze
  try dsimp only
  repeat' first
    | with_reducible exact Kept.refl _
    | with_reducible refine KeptO.next ?_
    | split
    | with_reducible refine (kept_moment _ _).after ?_
    | with_reducible refine (kept_raise _ _).after ?_
    | with_reducible refine (kept_aer _ _).after ?_
    | (fail_if_no_progress refine Kept.upd ?_ rfl rfl rfl)

theorem kept_release (s : State) : Kept s (State.release s) := by
  unfold State.release
  try dsimp only
  repeat' first
    | with_reducible exact Kept.refl _
    | split
    | with_reducible refine (kept_raise _ _).after ?_
    | with_reducible refine (kept_resumeHost _).after ?_
    | (fail_if_no_progress refine Kept.upd ?_ rfl rfl rfl)

theorem kept_execContainmentRelease (t : SI) (s : State) : KeptO s (execContainmentRelease t s) := by
  unfold execContainmentRelease
  try dsimp only
  repeat' first
    | with_reducible exact Kept.refl _
    | with_reducible refine KeptO.next ?_
    | split
    | with_reducible refine (kept_moment _ _).after ?_
    | with_reducible refine (kept_release _).after ?_
    | (fail_if_no_progress refine Kept.upd ?_ rfl rfl rfl)

theorem kept_windowAnswer (s : State) (v : Word) (poisoned : Bool) : Kept s (State.windowAnswer s v poisoned) := by
  unfold State.windowAnswer
  try dsimp only
  repeat' first
    | with_reducible exact Kept.refl _
    | split
    | (fail_if_no_progress refine Kept.upd ?_ rfl rfl rfl)

theorem kept_execBar2Read (t : SI) (x : Fin 1073741824) (kind : ReadKind) (s : State) : KeptO s (execBar2Read t x kind s) := by
  unfold execBar2Read
  try dsimp only
  repeat' first
    | with_reducible exact Kept.refl _
    | with_reducible refine KeptO.next ?_
    | split
    | with_reducible refine (kept_moment _ _).after ?_
    | with_reducible refine (kept_tick _).after ?_
    | with_reducible refine (kept_raise _ _).after ?_
    | with_reducible refine (kept_windowAnswer _ _ _).after ?_
    | with_reducible refine (kept_dramWake _).after ?_
    | with_reducible refine (kept_readFound _ _ _ _ _).after ?_
    | with_reducible refine (kept_poisonRead _).after ?_
    | (fail_if_no_progress refine Kept.upd ?_ rfl rfl (by simp))
    | (fail_if_no_progress refine Kept.upd ?_ rfl rfl rfl)

theorem kept_execHstWinDbHiWrite (t : SI) (v : Word) (s : State) : KeptO s (execHstWinDbHiWrite t v s) := by
  unfold execHstWinDbHiWrite
  try dsimp only
  repeat' first
    | with_reducible exact Kept.refl _
    | with_reducible refine KeptO.next ?_
    | split
    | with_reducible refine (kept_moment _ _).after ?_
    | with_reducible refine (kept_moveWindow _ _).after ?_
    | (fail_if_no_progress refine Kept.upd ?_ rfl rfl rfl)

theorem kept_writeMsix (s : State) (o : Nat) (v : Word) : Kept s (State.writeMsix s o v) := by
  unfold State.writeMsix
  try dsimp only
  repeat' first
    | with_reducible exact Kept.refl _
    | split
    | with_reducible refine (kept_flushMsix _).after ?_
    | (fail_if_no_progress refine Kept.upd ?_ rfl rfl rfl)

theorem kept_execMsixVectorUnmask (t : SI) (what : MsixUnmask) (s : State) : KeptO s (execMsixVectorUnmask t what s) := by
  unfold execMsixVectorUnmask
  try dsimp only
  repeat' first
    | with_reducible exact Kept.refl _
    | with_reducible refine KeptO.next ?_
    | split
    | with_reducible refine (kept_moment _ _).after ?_
    | with_reducible refine (kept_flushMsix _).after ?_
    | (with_reducible refine (kept_onConfig _ _ ?_).after ?_; focus (intro _; try dsimp only))
    | (fail_if_no_progress refine Kept.upd ?_ rfl rfl rfl)

theorem kept_writeConfig (s : State) (r : ConfigReg) (v : Word) (raced : Word) : Kept s (State.writeConfig s r v raced) := by
  unfold State.writeConfig
  try dsimp only
  repeat' first
    | with_reducible exact Kept.refl _
    | split
    | with_reducible refine (kept_flushMsix _).after ?_
    | with_reducible refine (kept_enterD3 _).after ?_
    | with_reducible refine (kept_leaveD3 _).after ?_
    | with_reducible refine (kept_setBme _).after ?_
    | with_reducible refine (kept_clearBme _).after ?_
    | with_reducible refine (kept_release _).after ?_
    | (fail_if_no_progress refine Kept.upd ?_ rfl rfl rfl)

theorem kept_execRegisterWrite (t : SI) (reg : RegAddr) (v : Word) (form : WriteForm) (s : State) : KeptO s (execRegisterWrite t reg v form s) := by
  unfold execRegisterWrite
  try dsimp only
  repeat' first
    | with_reducible exact Kept.refl _
    | with_reducible refine KeptO.next ?_
    | split
    | with_reducible refine (kept_moment _ _).after ?_
    | with_reducible refine (kept_pump _).after ?_
    | with_reducible refine (kept_writeMsix _ _ _).after ?_
    | with_reducible refine (kept_barError _).after ?_
    | with_reducible refine (kept_hostWrite _ _ _ _ _).after ?_
    | with_reducible refine (kept_writeConfig _ _ _ _).after ?_
    | (with_reducible refine (kept_onConfig _ _ ?_).after ?_; focus (intro _; try dsimp only))
    | (fail_if_no_progress refine Kept.upd ?_ rfl rfl rfl)

theorem kept_dropOutputs (s : State) : Kept s (State.dropOutputs s) := by
  unfold State.dropOutputs
  try dsimp only
  repeat' first
    | with_reducible exact Kept.refl _
    | split
    | with_reducible refine (kept_post _ _).after ?_
    | with_reducible refine (kept_resetPins _).after ?_
    | (fail_if_no_progress refine Kept.upd ?_ rfl rfl rfl)

/-- From s to s' the queue is the same, and DRAM bytes in canonical form stay so; SI may begin again at 0. -/
structure Restarted (s s' : State) : Prop where
  pending : s'.pending = s.pending
  mem : Memory.wf s.dram.mem = true → Memory.wf s'.dram.mem = true

theorem Kept.restarted {s s' : State} (h : Kept s s') : Restarted s s' := ⟨h.pending, h.mem⟩

/-- A step that keeps, after a restart. -/
theorem Kept.afterRestart {a b c : State} (k : Kept b c) (h : Restarted a b) : Restarted a c :=
  ⟨k.pending.trans h.pending, fun w => k.mem (h.mem w)⟩

theorem restarted_fundamental (s : State) : Restarted s s.fundamental := by
  have h : Restarted s s.dropOutputs := (kept_dropOutputs s).restarted
  exact ⟨h.pending, fun _ => rfl⟩

theorem restarted_execFundamentalReset (t : SI) (s : State) : ∀ s', execFundamentalReset t s = .next s' → Restarted s s' := by
  intro s' e
  cases e
  exact (kept_driveFault _).afterRestart ⟨(restarted_fundamental (s.moment t)).pending, (restarted_fundamental (s.moment t)).mem⟩

theorem kept_execPerstNRelease (t : SI) (s : State) : KeptO s (execPerstNRelease t s) := by
  unfold execPerstNRelease
  try dsimp only
  repeat' first
    | with_reducible exact Kept.refl _
    | with_reducible refine KeptO.next ?_
    | split
    | with_reducible refine (kept_moment _ _).after ?_
    | (fail_if_no_progress refine Kept.upd ?_ rfl rfl rfl)

theorem restarted_execSupplyCollapse (t : SI) (s : State) : ∀ s', execSupplyCollapse t s = .next s' → Restarted s s' := by
  intro s' e
  cases e
  exact (kept_driveFault _).afterRestart ⟨(restarted_fundamental (s.moment t)).pending, (restarted_fundamental (s.moment t)).mem⟩

theorem kept_execSupplyRecovered (t : SI) (s : State) : KeptO s (execSupplyRecovered t s) := by
  unfold execSupplyRecovered
  try dsimp only
  repeat' first
    | with_reducible exact Kept.refl _
    | with_reducible refine KeptO.next ?_
    | split
    | with_reducible refine (kept_moment _ _).after ?_
    | (fail_if_no_progress refine Kept.upd ?_ rfl rfl rfl)

theorem kept_execConfigSpaceUp (t : SI) (s : State) : KeptO s (execConfigSpaceUp t s) := by
  unfold execConfigSpaceUp
  try dsimp only
  repeat' first
    | with_reducible exact Kept.refl _
    | with_reducible refine KeptO.next ?_
    | split
    | with_reducible refine (kept_moment _ _).after ?_
    | (fail_if_no_progress refine Kept.upd ?_ rfl rfl rfl)

theorem kept_stopStartup (s : State) : Kept s (State.stopStartup s) := by
  unfold State.stopStartup
  try dsimp only
  repeat' first
    | with_reducible exact Kept.refl _
    | split
    | with_reducible refine (kept_driveFault _).after ?_
    | (fail_if_no_progress refine Kept.upd ?_ rfl rfl rfl)

theorem kept_securityUp (s : State) : Kept s (State.securityUp s) := by
  unfold State.securityUp
  try dsimp only
  repeat' first
    | with_reducible exact Kept.refl _
    | split
    | with_reducible refine (kept_tamperZeroize _).after ?_
    | with_reducible refine (kept_erase _ _).after ?_
    | (fail_if_no_progress refine Kept.upd ?_ rfl rfl rfl)

theorem kept_execSelfTestsComplete (t : SI) (failedTest : Fin 8) (s : State) : KeptO s (execSelfTestsComplete t failedTest s) := by
  unfold execSelfTestsComplete
  try dsimp only
  repeat' first
    | with_reducible exact Kept.refl _
    | with_reducible refine KeptO.next ?_
    | split
    | with_reducible refine (kept_moment _ _).after ?_
    | with_reducible refine (kept_stopStartup _).after ?_
    | with_reducible refine (kept_securityUp _).after ?_
    | with_reducible refine (kept_securityError _ _).after ?_
    | (fail_if_no_progress refine Kept.upd ?_ rfl rfl rfl)

theorem kept_execFirmwareSelected (t : SI) (flash : BootFlash) (s : State) : KeptO s (execFirmwareSelected t flash s) := by
  unfold execFirmwareSelected
  try dsimp only
  repeat' first
    | with_reducible exact Kept.refl _
    | with_reducible refine KeptO.next ?_
    | split
    | with_reducible refine (kept_moment _ _).after ?_
    | with_reducible refine (kept_stopStartup _).after ?_
    | (fail_if_no_progress refine Kept.upd ?_ rfl rfl rfl)

theorem kept_startTraining (s : State) : Kept s (State.startTraining s) := by
  unfold State.startTraining
  try dsimp only
  repeat' first
    | with_reducible exact Kept.refl _
    | split
    | with_reducible refine (kept_startJob _ _ _ _).after ?_
    | with_reducible refine (kept_beginTraining _).after ?_
    | (fail_if_no_progress refine Kept.upd ?_ rfl rfl rfl)

theorem restarted_execInitialSynthLock (t : SI) (s : State) : ∀ s', execInitialSynthLock t s = .next s' → Restarted s s' := by
  intro s' e
  unfold execInitialSynthLock at e
  dsimp only at e
  split at e
  · cases e; exact (kept_moment s t).restarted
  · cases e; exact (kept_startTraining _).afterRestart ⟨rfl, fun h => h⟩

theorem restarted_execInitialLockTimeout (t : SI) (s : State) : ∀ s', execInitialLockTimeout t s = .next s' → Restarted s s' := by
  intro s' e
  unfold execInitialLockTimeout at e
  dsimp only at e
  split at e
  · cases e; exact (kept_moment s t).restarted
  · cases e
    exact (kept_startTraining _).afterRestart ((kept_beginCauseAt _ _ _).afterRestart ⟨rfl, fun h => h⟩)

theorem kept_startupGoesOn (s : State) : Kept s (State.startupGoesOn s) := by
  unfold State.startupGoesOn
  try dsimp only
  repeat' first
    | with_reducible exact Kept.refl _
    | split
    | with_reducible refine (kept_startCal _ _).after ?_
    | (fail_if_no_progress refine Kept.upd ?_ rfl rfl rfl)

theorem kept_execReadySet (t : SI) (s : State) : KeptO s (execReadySet t s) := by
  unfold execReadySet
  try dsimp only
  repeat' first
    | with_reducible exact Kept.refl _
    | with_reducible refine KeptO.next ?_
    | split
    | with_reducible refine (kept_moment _ _).after ?_
    | with_reducible refine (kept_raiseAll _ _).after ?_
    | with_reducible refine (kept_raiseIf _ _ _).after ?_
    | with_reducible refine (kept_hkCalEffect _ _).after ?_
    | with_reducible refine (kept_driveFault _).after ?_
    | with_reducible refine (kept_pump _).after ?_
    | (fail_if_no_progress refine Kept.upd ?_ rfl rfl rfl)

theorem kept_goOn (s : State) : Kept s (State.goOn s) := by
  unfold State.goOn
  try dsimp only
  repeat' first
    | with_reducible exact Kept.refl _
    | split
    | with_reducible refine (kept_maybeSoft _).after ?_
    | with_reducible refine (kept_pump _).after ?_
    | with_reducible refine (kept_startupGoesOn _).after ?_
    | (fail_if_no_progress refine Kept.upd ?_ rfl rfl rfl)

theorem kept_execBobRdWrite (t : SI) (b : Fin 262144) (v : Word) (s : State) : KeptO s (execBobRdWrite t b v s) := by
  unfold execBobRdWrite
  try dsimp only
  repeat' first
    | with_reducible exact Kept.refl _
    | with_reducible refine KeptO.next ?_
    | split
    | with_reducible refine (kept_rowBobRdWrite _ _ _ _).after ?_
    | with_reducible refine (kept_goOn _).after ?_
    | (fail_if_no_progress refine Kept.upd ?_ rfl rfl rfl)

theorem kept_execBobRelWrite (t : SI) (b : Fin 262144) (v : Word) (s : State) : KeptO s (execBobRelWrite t b v s) := by
  unfold execBobRelWrite
  try dsimp only
  repeat' first
    | with_reducible exact Kept.refl _
    | with_reducible refine KeptO.next ?_
    | split
    | with_reducible refine (kept_rowBobRelWrite _ _ _ _).after ?_
    | with_reducible refine (kept_goOn _).after ?_
    | (fail_if_no_progress refine Kept.upd ?_ rfl rfl rfl)

theorem kept_execBobDupWrite (t : SI) (b : Fin 262144) (v : Word) (s : State) : KeptO s (execBobDupWrite t b v s) := by
  unfold execBobDupWrite
  try dsimp only
  repeat' first
    | with_reducible exact Kept.refl _
    | with_reducible refine KeptO.next ?_
    | split
    | with_reducible refine (kept_rowBobDupWrite _ _ _ _).after ?_
    | with_reducible refine (kept_goOn _).after ?_
    | (fail_if_no_progress refine Kept.upd ?_ rfl rfl rfl)

theorem kept_execDuplicateTimeout (t : SI) (b : Fin 262144) (s : State) : KeptO s (execDuplicateTimeout t b s) := by
  unfold execDuplicateTimeout
  try dsimp only
  repeat' first
    | with_reducible exact Kept.refl _
    | with_reducible refine KeptO.next ?_
    | split
    | with_reducible refine (kept_rowDuplicateTimeout _ _ _).after ?_
    | with_reducible refine (kept_goOn _).after ?_
    | (fail_if_no_progress refine Kept.upd ?_ rfl rfl rfl)

theorem kept_execContextParityError (t : SI) (b : Fin 262144) (s : State) : KeptO s (execContextParityError t b s) := by
  unfold execContextParityError
  try dsimp only
  repeat' first
    | with_reducible exact Kept.refl _
    | with_reducible refine KeptO.next ?_
    | split
    | with_reducible refine (kept_rowContextParityError _ _ _).after ?_
    | with_reducible refine (kept_goOn _).after ?_
    | (fail_if_no_progress refine Kept.upd ?_ rfl rfl rfl)

theorem kept_execRewindComplete (t : SI) (b : Fin 262144) (s : State) : KeptO s (execRewindComplete t b s) := by
  unfold execRewindComplete
  try dsimp only
  repeat' first
    | with_reducible exact Kept.refl _
    | with_reducible refine KeptO.next ?_
    | split
    | with_reducible refine (kept_rowRewindComplete _ _ _).after ?_
    | with_reducible refine (kept_goOn _).after ?_
    | (fail_if_no_progress refine Kept.upd ?_ rfl rfl rfl)

theorem kept_execSegmentDelivered (t : SI) (b : Fin 262144) (badWords : List Nat) (s : State) : KeptO s (execSegmentDelivered t b badWords s) := by
  unfold execSegmentDelivered
  try dsimp only
  repeat' first
    | with_reducible exact Kept.refl _
    | with_reducible refine KeptO.next ?_
    | split
    | with_reducible refine (kept_rowSegmentDelivered _ _ _ _).after ?_
    | with_reducible refine (kept_goOn _).after ?_
    | (fail_if_no_progress refine Kept.upd ?_ rfl rfl rfl)

theorem kept_execSegmentHashComplete (t : SI) (stream : Fin 4096) (s : State) : KeptO s (execSegmentHashComplete t stream s) := by
  unfold execSegmentHashComplete
  try dsimp only
  repeat' first
    | with_reducible exact Kept.refl _
    | with_reducible refine KeptO.next ?_
    | split
    | with_reducible refine (kept_rowSegmentHashComplete _ _ _).after ?_
    | with_reducible refine (kept_goOn _).after ?_
    | (fail_if_no_progress refine Kept.upd ?_ rfl rfl rfl)

theorem kept_execDisarmShutdownEnd (t : SI) (s : State) : KeptO s (execDisarmShutdownEnd t s) := by
  unfold execDisarmShutdownEnd
  try dsimp only
  repeat' first
    | with_reducible exact Kept.refl _
    | with_reducible refine KeptO.next ?_
    | split
    | with_reducible refine (kept_rowDisarmShutdownEnd _ _).after ?_
    | with_reducible refine (kept_goOn _).after ?_
    | (fail_if_no_progress refine Kept.upd ?_ rfl rfl rfl)

theorem kept_execRunShutdownEnd (t : SI) (s : State) : KeptO s (execRunShutdownEnd t s) := by
  unfold execRunShutdownEnd
  try dsimp only
  repeat' first
    | with_reducible exact Kept.refl _
    | with_reducible refine KeptO.next ?_
    | split
    | with_reducible refine (kept_rowRunShutdownEnd _ _).after ?_
    | with_reducible refine (kept_goOn _).after ?_
    | (fail_if_no_progress refine Kept.upd ?_ rfl rfl rfl)

theorem kept_execRegionReinitEnd (t : SI) (region : Fin 4) (s : State) : KeptO s (execRegionReinitEnd t region s) := by
  unfold execRegionReinitEnd
  try dsimp only
  repeat' first
    | with_reducible exact Kept.refl _
    | with_reducible refine KeptO.next ?_
    | split
    | with_reducible refine (kept_rowRegionReinitEnd _ _ _).after ?_
    | with_reducible refine (kept_goOn _).after ?_
    | (fail_if_no_progress refine Kept.upd ?_ rfl rfl rfl)

theorem kept_execRegionWatchdog (t : SI) (region : Fin 4) (s : State) : KeptO s (execRegionWatchdog t region s) := by
  unfold execRegionWatchdog
  try dsimp only
  repeat' first
    | with_reducible exact Kept.refl _
    | with_reducible refine KeptO.next ?_
    | split
    | with_reducible refine (kept_rowRegionWatchdog _ _ _).after ?_
    | with_reducible refine (kept_goOn _).after ?_
    | (fail_if_no_progress refine Kept.upd ?_ rfl rfl rfl)

theorem kept_execRegionWriteDrainEnd (t : SI) (region : Fin 4) (unfinished : List Nat) (dropped : Nat) (s : State) : KeptO s (execRegionWriteDrainEnd t region unfinished dropped s) := by
  unfold execRegionWriteDrainEnd
  try dsimp only
  repeat' first
    | with_reducible exact Kept.refl _
    | with_reducible refine KeptO.next ?_
    | split
    | with_reducible refine (kept_rowRegionWriteDrainEnd _ _ _ _ _).after ?_
    | with_reducible refine (kept_goOn _).after ?_
    | (fail_if_no_progress refine Kept.upd ?_ rfl rfl rfl)

theorem kept_execZeroizationEraseComplete (t : SI) (s : State) : KeptO s (execZeroizationEraseComplete t s) := by
  unfold execZeroizationEraseComplete
  try dsimp only
  repeat' first
    | with_reducible exact Kept.refl _
    | with_reducible refine KeptO.next ?_
    | split
    | with_reducible refine (kept_rowZeroizationEraseComplete _ _).after ?_
    | with_reducible refine (kept_goOn _).after ?_
    | (fail_if_no_progress refine Kept.upd ?_ rfl rfl rfl)

theorem kept_execSlotEvaluation (t : SI) (q : Fin 2) (slots : Nat) (s : State) : KeptO s (execSlotEvaluation t q slots s) := by
  unfold execSlotEvaluation
  try dsimp only
  repeat' first
    | with_reducible exact Kept.refl _
    | with_reducible refine KeptO.next ?_
    | split
    | with_reducible refine (kept_rowSlotEvaluation _ _ _ _).after ?_
    | with_reducible refine (kept_goOn _).after ?_
    | (fail_if_no_progress refine Kept.upd ?_ rfl rfl rfl)

theorem kept_execMigrationBlockCopied (t : SI) (lost : List Nat) (spareBad : Bool) (s : State) : KeptO s (execMigrationBlockCopied t lost spareBad s) := by
  unfold execMigrationBlockCopied
  try dsimp only
  repeat' first
    | with_reducible exact Kept.refl _
    | with_reducible refine KeptO.next ?_
    | split
    | with_reducible refine (kept_rowMigrationBlockCopied _ _ _ _).after ?_
    | with_reducible refine (kept_goOn _).after ?_
    | (fail_if_no_progress refine Kept.upd ?_ rfl rfl rfl)

theorem kept_execDramReadComplete (t : SI) (port : Fin 11) (addr : Nat) (channel : Fin 4) (before : List DramReq) (kind : ReadKind) (ageNs : Nat) (s : State) : KeptO s (execDramReadComplete t port addr channel before kind ageNs s) := by
  unfold execDramReadComplete
  try dsimp only
  repeat' first
    | with_reducible exact Kept.refl _
    | with_reducible refine KeptO.next ?_
    | split
    | with_reducible refine (kept_rowDramReadComplete _ _ _ _ _).after ?_
    | with_reducible refine (kept_goOn _).after ?_
    | (fail_if_no_progress refine Kept.upd ?_ rfl rfl rfl)

theorem kept_execPatrolScrub (t : SI) (addr : Nat) (channel : Fin 4) (rank : Fin 4) (kind : ReadKind) (s : State) : KeptO s (execPatrolScrub t addr channel rank kind s) := by
  unfold execPatrolScrub
  try dsimp only
  repeat' first
    | with_reducible exact Kept.refl _
    | with_reducible refine KeptO.next ?_
    | split
    | with_reducible refine (kept_rowPatrolScrub _ _ _ _ _ _).after ?_
    | with_reducible refine (kept_goOn _).after ?_
    | (fail_if_no_progress refine Kept.upd ?_ rfl rfl rfl)

theorem kept_execWindowClose (t : SI) (slot : Fin 64) (s : State) : KeptO s (execWindowClose t slot s) := by
  unfold execWindowClose
  try dsimp only
  repeat' first
    | with_reducible exact Kept.refl _
    | with_reducible refine KeptO.next ?_
    | split
    | with_reducible refine (kept_rowWindowClose _ _ _).after ?_
    | with_reducible refine (kept_goOn _).after ?_
    | (fail_if_no_progress refine Kept.upd ?_ rfl rfl rfl)

theorem kept_execWindowSegmentRead (t : SI) (slot : Fin 64) (part : Fin 16) (read : SegRead) (s : State) : KeptO s (execWindowSegmentRead t slot part read s) := by
  unfold execWindowSegmentRead
  try dsimp only
  repeat' first
    | with_reducible exact Kept.refl _
    | with_reducible refine KeptO.next ?_
    | split
    | with_reducible refine (kept_rowWindowSegmentRead _ _ _ _ _).after ?_
    | with_reducible refine (kept_goOn _).after ?_
    | (fail_if_no_progress refine Kept.upd ?_ rfl rfl rfl)

theorem kept_execCascadeCommandDue (t : SI) (s : State) : KeptO s (execCascadeCommandDue t s) := by
  unfold execCascadeCommandDue
  try dsimp only
  repeat' first
    | with_reducible exact Kept.refl _
    | with_reducible refine KeptO.next ?_
    | split
    | with_reducible refine (kept_rowCascadeCommandDue _ _).after ?_
    | with_reducible refine (kept_goOn _).after ?_
    | (fail_if_no_progress refine Kept.upd ?_ rfl rfl rfl)

theorem kept_execJobDequeue (t : SI) (job : Nat) (s : State) : KeptO s (execJobDequeue t job s) := by
  unfold execJobDequeue
  try dsimp only
  repeat' first
    | with_reducible exact Kept.refl _
    | with_reducible refine KeptO.next ?_
    | split
    | with_reducible refine (kept_rowJobDequeue _ _ _).after ?_
    | with_reducible refine (kept_goOn _).after ?_
    | (fail_if_no_progress refine Kept.upd ?_ rfl rfl rfl)

theorem kept_execJobSuspendPoint (t : SI) (job : Nat) (s : State) : KeptO s (execJobSuspendPoint t job s) := by
  unfold execJobSuspendPoint
  try dsimp only
  repeat' first
    | with_reducible exact Kept.refl _
    | with_reducible refine KeptO.next ?_
    | split
    | with_reducible refine (kept_rowJobSuspendPoint _ _ _).after ?_
    | with_reducible refine (kept_goOn _).after ?_
    | (fail_if_no_progress refine Kept.upd ?_ rfl rfl rfl)

theorem kept_execJobEnd (t : SI) (job : Nat) (work : JobWork) (s : State) : KeptO s (execJobEnd t job work s) := by
  unfold execJobEnd
  try dsimp only
  repeat' first
    | with_reducible exact Kept.refl _
    | with_reducible refine KeptO.next ?_
    | split
    | with_reducible refine (kept_rowJobEnd _ _ _ _).after ?_
    | with_reducible refine (kept_goOn _).after ?_
    | (fail_if_no_progress refine Kept.upd ?_ rfl rfl rfl)

theorem kept_execAnchorBoundary (t : SI) (passes : List LanePass) (disagree : List (Fin 1024 × Nat)) (s : State) : KeptO s (execAnchorBoundary t passes disagree s) := by
  unfold execAnchorBoundary
  try dsimp only
  repeat' first
    | with_reducible exact Kept.refl _
    | with_reducible refine KeptO.next ?_
    | split
    | with_reducible refine (kept_rowAnchorBoundary _ _ _ _).after ?_
    | with_reducible refine (kept_goOn _).after ?_
    | (fail_if_no_progress refine Kept.upd ?_ rfl rfl rfl)

theorem kept_execControlCoreWatchdog (t : SI) (s : State) : KeptO s (execControlCoreWatchdog t s) := by
  unfold execControlCoreWatchdog
  try dsimp only
  repeat' first
    | with_reducible exact Kept.refl _
    | with_reducible refine KeptO.next ?_
    | split
    | with_reducible refine (kept_rowControlCoreWatchdog _ _).after ?_
    | with_reducible refine (kept_goOn _).after ?_
    | (fail_if_no_progress refine Kept.upd ?_ rfl rfl rfl)

theorem kept_execCoreRestartComplete (t : SI) (s : State) : KeptO s (execCoreRestartComplete t s) := by
  unfold execCoreRestartComplete
  try dsimp only
  repeat' first
    | with_reducible exact Kept.refl _
    | with_reducible refine KeptO.next ?_
    | split
    | with_reducible refine (kept_rowCoreRestartComplete _ _).after ?_
    | with_reducible refine (kept_goOn _).after ?_
    | (fail_if_no_progress refine Kept.upd ?_ rfl rfl rfl)

theorem kept_execSoftResetComplete (t : SI) (failedTest : Fin 8) (s : State) : KeptO s (execSoftResetComplete t failedTest s) := by
  unfold execSoftResetComplete
  try dsimp only
  repeat' first
    | with_reducible exact Kept.refl _
    | with_reducible refine KeptO.next ?_
    | split
    | with_reducible refine (kept_rowSoftResetComplete _ _ _).after ?_
    | with_reducible refine (kept_goOn _).after ?_
    | (fail_if_no_progress refine Kept.upd ?_ rfl rfl rfl)

theorem kept_execFirmwareSwapPoint (t : SI) (startOk : Bool) (s : State) : KeptO s (execFirmwareSwapPoint t startOk s) := by
  unfold execFirmwareSwapPoint
  try dsimp only
  repeat' first
    | with_reducible exact Kept.refl _
    | with_reducible refine KeptO.next ?_
    | split
    | with_reducible refine (kept_moment _ _).after ?_
    | with_reducible refine (kept_issueWaiting _).after ?_
    | with_reducible refine (kept_revertSwap _ _ _).after ?_
    | with_reducible refine (kept_swapped _ _).after ?_
    | with_reducible refine (kept_goOn _).after ?_
    | (fail_if_no_progress refine Kept.upd ?_ rfl rfl rfl)

theorem kept_packetIn (s : State) (t : SI) (o : OpSpec) (p : Packet) (ho : o.Keeps) : Kept s (State.packetIn s t o p) := by
  unfold State.packetIn
  try dsimp only
  repeat' first
    | with_reducible exact Kept.refl _
    | split
    | with_reducible refine (kept_moment _ _).after ?_
    | with_reducible refine (kept_receive _ _ _ (keeps_opSpecOf _ _ (by assumption))).after ?_
    | (with_reducible refine (kept_receive _ _ _ ho).after ?_)
    | with_reducible refine (kept_goOn _).after ?_
    | (fail_if_no_progress refine Kept.upd ?_ rfl rfl rfl)

theorem kept_execNop (t : SI) (p : Packet) (s : State) : KeptO s (execNop t p s) := .next (kept_packetIn s t opNop p keeps_opNop)

theorem kept_execGetInfo (t : SI) (p : Packet) (s : State) : KeptO s (execGetInfo t p s) := .next (kept_packetIn s t opGetInfo p keeps_opGetInfo)

theorem kept_execResetRegion (t : SI) (p : Packet) (s : State) : KeptO s (execResetRegion t p s) := .next (kept_packetIn s t opResetRegion p keeps_opResetRegion)

theorem kept_execSoftReset (t : SI) (p : Packet) (s : State) : KeptO s (execSoftReset t p s) := .next (kept_packetIn s t opSoftReset p keeps_opSoftReset)

theorem kept_execSetFailsafePolicy (t : SI) (p : Packet) (s : State) : KeptO s (execSetFailsafePolicy t p s) := .next (kept_packetIn s t opSetFailsafe p keeps_opSetFailsafe)

theorem kept_execSetRef (t : SI) (p : Packet) (s : State) : KeptO s (execSetRef t p s) := .next (kept_packetIn s t opSetRef p keeps_opSetRef)

theorem kept_execSetEpoch (t : SI) (p : Packet) (s : State) : KeptO s (execSetEpoch t p s) := .next (kept_packetIn s t opSetEpoch p keeps_opSetEpoch)

theorem kept_execSetSt (t : SI) (p : Packet) (s : State) : KeptO s (execSetSt t p s) := .next (kept_packetIn s t opSetSt p keeps_opSetSt)

theorem kept_execSetReturnPolicy (t : SI) (p : Packet) (s : State) : KeptO s (execSetReturnPolicy t p s) := .next (kept_packetIn s t opSetReturn p keeps_opSetReturn)

theorem kept_execSchedule (t : SI) (p : Packet) (s : State) : KeptO s (execSchedule t p s) := .next (kept_packetIn s t opSchedule p keeps_opSchedule)

theorem kept_execUnschedule (t : SI) (p : Packet) (s : State) : KeptO s (execUnschedule t p s) := .next (kept_packetIn s t opUnschedule p keeps_opUnschedule)

theorem kept_execSetThreshold (t : SI) (p : Packet) (s : State) : KeptO s (execSetThreshold t p s) := .next (kept_packetIn s t opSetThreshold p keeps_opSetThreshold)

theorem kept_execSetInputMode (t : SI) (p : Packet) (s : State) : KeptO s (execSetInputMode t p s) := .next (kept_packetIn s t opSetInputMode p keeps_opSetInputMode)

theorem kept_execSetDeskew (t : SI) (p : Packet) (s : State) : KeptO s (execSetDeskew t p s) := .next (kept_packetIn s t opSetDeskew p keeps_opSetDeskew)

theorem kept_execCalDeskew (t : SI) (p : Packet) (s : State) : KeptO s (execCalDeskew t p s) := .next (kept_packetIn s t opCalDeskew p keeps_opCalDeskew)

theorem kept_execCalInterp (t : SI) (p : Packet) (s : State) : KeptO s (execCalInterp t p s) := .next (kept_packetIn s t opCalInterp p keeps_opCalInterp)

theorem kept_execSetInterval (t : SI) (p : Packet) (s : State) : KeptO s (execSetInterval t p s) := .next (kept_packetIn s t opSetInterval p keeps_opSetInterval)

theorem kept_execLoadPattern (t : SI) (p : Packet) (s : State) : KeptO s (execLoadPattern t p s) := .next (kept_packetIn s t opLoadPattern p keeps_opLoadPattern)

theorem kept_execArm (t : SI) (p : Packet) (s : State) : KeptO s (execArm t p s) := .next (kept_packetIn s t opArm p keeps_opArm)

theorem kept_execDisarm (t : SI) (p : Packet) (s : State) : KeptO s (execDisarm t p s) := .next (kept_packetIn s t opDisarm p keeps_opDisarm)

theorem kept_execForceTack (t : SI) (p : Packet) (s : State) : KeptO s (execForceTack t p s) := .next (kept_packetIn s t opForceTack p keeps_opForceTack)

theorem kept_execSetTrigout (t : SI) (p : Packet) (s : State) : KeptO s (execSetTrigout t p s) := .next (kept_packetIn s t opSetTrigout p keeps_opSetTrigout)

theorem kept_execSetUnit (t : SI) (p : Packet) (s : State) : KeptO s (execSetUnit t p s) := .next (kept_packetIn s t opSetUnit p keeps_opSetUnit)

theorem kept_execSetPortRole (t : SI) (p : Packet) (s : State) : KeptO s (execSetPortRole t p s) := .next (kept_packetIn s t opSetPortRole p keeps_opSetPortRole)

theorem kept_execCascadeDiscover (t : SI) (p : Packet) (s : State) : KeptO s (execCascadeDiscover t p s) := .next (kept_packetIn s t opCascadeDiscover p keeps_opCascadeDiscover)

theorem kept_execSetReduction (t : SI) (p : Packet) (s : State) : KeptO s (execSetReduction t p s) := .next (kept_packetIn s t opSetReduction p keeps_opSetReduction)

theorem kept_execSetLookback (t : SI) (p : Packet) (s : State) : KeptO s (execSetLookback t p s) := .next (kept_packetIn s t opSetLookback p keeps_opSetLookback)

theorem kept_execSetWindowPolicy (t : SI) (p : Packet) (s : State) : KeptO s (execSetWindowPolicy t p s) := .next (kept_packetIn s t opSetWindowPolicy p keeps_opSetWindowPolicy)

theorem kept_execExportWindow (t : SI) (p : Packet) (s : State) : KeptO s (execExportWindow t p s) := .next (kept_packetIn s t opExportWindow p keeps_opExportWindow)

theorem kept_execStartRun (t : SI) (p : Packet) (s : State) : KeptO s (execStartRun t p s) := .next (kept_packetIn s t opStartRun p keeps_opStartRun)

theorem kept_execStopRun (t : SI) (p : Packet) (s : State) : KeptO s (execStopRun t p s) := .next (kept_packetIn s t opStopRun p keeps_opStopRun)

theorem kept_execSetDecoder (t : SI) (p : Packet) (s : State) : KeptO s (execSetDecoder t p s) := .next (kept_packetIn s t opSetDecoder p keeps_opSetDecoder)

theorem kept_execCreateBobbin (t : SI) (p : Packet) (s : State) : KeptO s (execCreateBobbin t p s) := .next (kept_packetIn s t opCreateBobbin p keeps_opCreateBobbin)

theorem kept_execDestroyBobbin (t : SI) (p : Packet) (s : State) : KeptO s (execDestroyBobbin t p s) := .next (kept_packetIn s t opDestroyBobbin p keeps_opDestroyBobbin)

theorem kept_execRoute (t : SI) (p : Packet) (s : State) : KeptO s (execRoute t p s) := .next (kept_packetIn s t opRoute p keeps_opRoute)

theorem kept_execRewind (t : SI) (p : Packet) (s : State) : KeptO s (execRewind t p s) := .next (kept_packetIn s t opRewind p keeps_opRewind)

theorem kept_execSetCompression (t : SI) (p : Packet) (s : State) : KeptO s (execSetCompression t p s) := .next (kept_packetIn s t opSetCompression p keeps_opSetCompression)

theorem kept_execSetSigning (t : SI) (p : Packet) (s : State) : KeptO s (execSetSigning t p s) := .next (kept_packetIn s t opSetSigning p keeps_opSetSigning)

theorem kept_execReplay (t : SI) (p : Packet) (s : State) : KeptO s (execReplay t p s) := .next (kept_packetIn s t opReplay p keeps_opReplay)

theorem kept_execSetDramMap (t : SI) (p : Packet) (s : State) : KeptO s (execSetDramMap t p s) := .next (kept_packetIn s t opSetDramMap p keeps_opSetDramMap)

theorem kept_execTrain (t : SI) (p : Packet) (s : State) : KeptO s (execTrain t p s) := .next (kept_packetIn s t opTrain p keeps_opTrain)

theorem kept_execMigrateRank (t : SI) (p : Packet) (s : State) : KeptO s (execMigrateRank t p s) := .next (kept_packetIn s t opMigrateRank p keeps_opMigrateRank)

theorem kept_execScrub (t : SI) (p : Packet) (s : State) : KeptO s (execScrub t p s) := .next (kept_packetIn s t opScrub p keeps_opScrub)

theorem kept_execSetHkSeq (t : SI) (p : Packet) (s : State) : KeptO s (execSetHkSeq t p s) := .next (kept_packetIn s t opSetHkSeq p keeps_opSetHkSeq)

theorem kept_execHkCal (t : SI) (p : Packet) (s : State) : KeptO s (execHkCal t p s) := .next (kept_packetIn s t opHkCal p keeps_opHkCal)

theorem kept_execGetAttestation (t : SI) (p : Packet) (s : State) : KeptO s (execGetAttestation t p s) := .next (kept_packetIn s t opGetAttestation p keeps_opGetAttestation)

theorem kept_execRotateEsk (t : SI) (p : Packet) (s : State) : KeptO s (execRotateEsk t p s) := .next (kept_packetIn s t opRotateEsk p keeps_opRotateEsk)

theorem kept_execAuth (t : SI) (p : Packet) (s : State) : KeptO s (execAuth t p s) := .next (kept_packetIn s t opAuth p keeps_opAuth)

theorem kept_execUpdateFirmware (t : SI) (p : Packet) (s : State) : KeptO s (execUpdateFirmware t p s) := .next (kept_packetIn s t opUpdateFirmware p keeps_opUpdateFirmware)

theorem kept_execZeroize (t : SI) (p : Packet) (s : State) : KeptO s (execZeroize t p s) := .next (kept_packetIn s t opZeroize p keeps_opZeroize)

theorem kept_execJobSuspend (t : SI) (p : Packet) (s : State) : KeptO s (execJobSuspend t p s) := .next (kept_packetIn s t opJobSuspend p keeps_opJobSuspend)

theorem kept_execJobResume (t : SI) (p : Packet) (s : State) : KeptO s (execJobResume t p s) := .next (kept_packetIn s t opJobResume p keeps_opJobResume)

theorem kept_execJobCancel (t : SI) (p : Packet) (s : State) : KeptO s (execJobCancel t p s) := .next (kept_packetIn s t opJobCancel p keeps_opJobCancel)

theorem kept_execJobStatus (t : SI) (p : Packet) (s : State) : KeptO s (execJobStatus t p s) := .next (kept_packetIn s t opJobStatus p keeps_opJobStatus)

theorem kept_execReadLog (t : SI) (p : Packet) (s : State) : KeptO s (execReadLog t p s) := .next (kept_packetIn s t opReadLog p keeps_opReadLog)

theorem kept_queueWindow (s : State) (g : Seg) : Kept s (State.queueWindow s g) := (placed_queueWindow _ _).kept

end Sys2Proof.Machine
end

