-- ==== Sys2Proof/Laws/PerInstr.lean ====
section
/-! SUPPORT. The family Bounded, for every command: a well-formed command carries no packet with more than 4,096 parameter bytes (R430). -/

namespace Sys2Proof.Laws

/-- A well-formed command's packet, where it carries one, is within the bound of R430. -/
def Bounded.Statement (i : Instr) : Prop := i.wellFormed = true → ∀ p, i.packet = some p → p.params.length ≤ 4096

/-- Of every command at once. -/
theorem Bounded.all (i : Instr) : Bounded.Statement i := by
  intro h p hp
  unfold Instr.wellFormed at h
  rw [hp] at h
  simp only [Packet.wellFormed, Bool.and_eq_true, decide_eq_true_eq] at h
  exact h.1

theorem Bounded.registerWrite (t : SI) (reg : RegAddr) (v : Word) (form : WriteForm) : Bounded.Statement (.registerWrite t reg v form) := Bounded.all _
theorem Bounded.rcFieldRead (t : SI) (what : HostRead) : Bounded.Statement (.rcFieldRead t what) := Bounded.all _
theorem Bounded.lowWordRead (t : SI) (off : Nat) : Bounded.Statement (.lowWordRead t off) := Bounded.all _
theorem Bounded.timSnapSiLoRead (t : SI) : Bounded.Statement (.timSnapSiLoRead t) := Bounded.all _
theorem Bounded.bobRdWrite (t : SI) (b : Fin 262144) (v : Word) : Bounded.Statement (.bobRdWrite t b v) := Bounded.all _
theorem Bounded.bobRelWrite (t : SI) (b : Fin 262144) (v : Word) : Bounded.Statement (.bobRelWrite t b v) := Bounded.all _
theorem Bounded.bobMarkWrite (t : SI) (b : Fin 262144) (v : Word) : Bounded.Statement (.bobMarkWrite t b v) := Bounded.all _
theorem Bounded.bobDupWrite (t : SI) (b : Fin 262144) (v : Word) : Bounded.Statement (.bobDupWrite t b v) := Bounded.all _
theorem Bounded.ringEnable (t : SI) (r : Fin 16) (v : Word) : Bounded.Statement (.ringEnable t r v) := Bounded.all _
theorem Bounded.ringDisable (t : SI) (r : Fin 16) (v : Word) : Bounded.Statement (.ringDisable t r v) := Bounded.all _
theorem Bounded.sqTailWrite (t : SI) (r : Fin 16) (v : Word) : Bounded.Statement (.sqTailWrite t r v) := Bounded.all _
theorem Bounded.cqHeadWrite (t : SI) (r : Fin 16) (v : Word) : Bounded.Statement (.cqHeadWrite t r v) := Bounded.all _
theorem Bounded.hstWinDbHiWrite (t : SI) (v : Word) : Bounded.Statement (.hstWinDbHiWrite t v) := Bounded.all _
theorem Bounded.containmentRelease (t : SI) : Bounded.Statement (.containmentRelease t) := Bounded.all _
theorem Bounded.msixVectorUnmask (t : SI) (what : MsixUnmask) : Bounded.Statement (.msixVectorUnmask t what) := Bounded.all _
theorem Bounded.bar2Read (t : SI) (x : Fin 1073741824) (kind : ReadKind) : Bounded.Statement (.bar2Read t x kind) := Bounded.all _
theorem Bounded.busMasterEnableClear (t : SI) : Bounded.Statement (.busMasterEnableClear t) := Bounded.all _
theorem Bounded.busMasterEnableSet (t : SI) : Bounded.Statement (.busMasterEnableSet t) := Bounded.all _
theorem Bounded.d3hotEntry (t : SI) : Bounded.Statement (.d3hotEntry t) := Bounded.all _
theorem Bounded.d0Entry (t : SI) : Bounded.Statement (.d0Entry t) := Bounded.all _
theorem Bounded.functionLevelReset (t : SI) : Bounded.Statement (.functionLevelReset t) := Bounded.all _
theorem Bounded.hotReset (t : SI) (linkDown : Bool) : Bounded.Statement (.hotReset t linkDown) := Bounded.all _
theorem Bounded.fundamentalReset (t : SI) : Bounded.Statement (.fundamentalReset t) := Bounded.all _
theorem Bounded.pcieLinkDown (t : SI) : Bounded.Statement (.pcieLinkDown t) := Bounded.all _
theorem Bounded.pcieLinkUp (t : SI) (speed : Fin 7) (width : Fin 32) (flit : Bool) : Bounded.Statement (.pcieLinkUp t speed width flit) := Bounded.all _
theorem Bounded.fatalErrorFreeze (t : SI) (cause : Fin 32) : Bounded.Statement (.fatalErrorFreeze t cause) := Bounded.all _
theorem Bounded.completionReceived (t : SI) (tag : Fin 1024) (st : CplStatus) (data : List Byte) : Bounded.Statement (.completionReceived t tag st data) := Bounded.all _
theorem Bounded.completionTimeout (t : SI) (tag : Fin 1024) : Bounded.Statement (.completionTimeout t tag) := Bounded.all _
theorem Bounded.tagQuarantineEnd (t : SI) (tag : Fin 1024) : Bounded.Statement (.tagQuarantineEnd t tag) := Bounded.all _
theorem Bounded.nop (t : SI) (p : Packet) : Bounded.Statement (.nop t p) := Bounded.all _
theorem Bounded.getInfo (t : SI) (p : Packet) : Bounded.Statement (.getInfo t p) := Bounded.all _
theorem Bounded.resetRegion (t : SI) (p : Packet) : Bounded.Statement (.resetRegion t p) := Bounded.all _
theorem Bounded.softReset (t : SI) (p : Packet) : Bounded.Statement (.softReset t p) := Bounded.all _
theorem Bounded.setFailsafePolicy (t : SI) (p : Packet) : Bounded.Statement (.setFailsafePolicy t p) := Bounded.all _
theorem Bounded.setRef (t : SI) (p : Packet) : Bounded.Statement (.setRef t p) := Bounded.all _
theorem Bounded.setEpoch (t : SI) (p : Packet) : Bounded.Statement (.setEpoch t p) := Bounded.all _
theorem Bounded.setSt (t : SI) (p : Packet) : Bounded.Statement (.setSt t p) := Bounded.all _
theorem Bounded.setReturnPolicy (t : SI) (p : Packet) : Bounded.Statement (.setReturnPolicy t p) := Bounded.all _
theorem Bounded.schedule (t : SI) (p : Packet) : Bounded.Statement (.schedule t p) := Bounded.all _
theorem Bounded.unschedule (t : SI) (p : Packet) : Bounded.Statement (.unschedule t p) := Bounded.all _
theorem Bounded.setThreshold (t : SI) (p : Packet) : Bounded.Statement (.setThreshold t p) := Bounded.all _
theorem Bounded.setInputMode (t : SI) (p : Packet) : Bounded.Statement (.setInputMode t p) := Bounded.all _
theorem Bounded.setDeskew (t : SI) (p : Packet) : Bounded.Statement (.setDeskew t p) := Bounded.all _
theorem Bounded.calDeskew (t : SI) (p : Packet) : Bounded.Statement (.calDeskew t p) := Bounded.all _
theorem Bounded.calInterp (t : SI) (p : Packet) : Bounded.Statement (.calInterp t p) := Bounded.all _
theorem Bounded.setInterval (t : SI) (p : Packet) : Bounded.Statement (.setInterval t p) := Bounded.all _
theorem Bounded.loadPattern (t : SI) (p : Packet) : Bounded.Statement (.loadPattern t p) := Bounded.all _
theorem Bounded.arm (t : SI) (p : Packet) : Bounded.Statement (.arm t p) := Bounded.all _
theorem Bounded.disarm (t : SI) (p : Packet) : Bounded.Statement (.disarm t p) := Bounded.all _
theorem Bounded.forceTack (t : SI) (p : Packet) : Bounded.Statement (.forceTack t p) := Bounded.all _
theorem Bounded.setTrigout (t : SI) (p : Packet) : Bounded.Statement (.setTrigout t p) := Bounded.all _
theorem Bounded.setUnit (t : SI) (p : Packet) : Bounded.Statement (.setUnit t p) := Bounded.all _
theorem Bounded.setPortRole (t : SI) (p : Packet) : Bounded.Statement (.setPortRole t p) := Bounded.all _
theorem Bounded.cascadeDiscover (t : SI) (p : Packet) : Bounded.Statement (.cascadeDiscover t p) := Bounded.all _
theorem Bounded.setReduction (t : SI) (p : Packet) : Bounded.Statement (.setReduction t p) := Bounded.all _
theorem Bounded.setLookback (t : SI) (p : Packet) : Bounded.Statement (.setLookback t p) := Bounded.all _
theorem Bounded.setWindowPolicy (t : SI) (p : Packet) : Bounded.Statement (.setWindowPolicy t p) := Bounded.all _
theorem Bounded.exportWindow (t : SI) (p : Packet) : Bounded.Statement (.exportWindow t p) := Bounded.all _
theorem Bounded.startRun (t : SI) (p : Packet) : Bounded.Statement (.startRun t p) := Bounded.all _
theorem Bounded.stopRun (t : SI) (p : Packet) : Bounded.Statement (.stopRun t p) := Bounded.all _
theorem Bounded.setDecoder (t : SI) (p : Packet) : Bounded.Statement (.setDecoder t p) := Bounded.all _
theorem Bounded.createBobbin (t : SI) (p : Packet) : Bounded.Statement (.createBobbin t p) := Bounded.all _
theorem Bounded.destroyBobbin (t : SI) (p : Packet) : Bounded.Statement (.destroyBobbin t p) := Bounded.all _
theorem Bounded.route (t : SI) (p : Packet) : Bounded.Statement (.route t p) := Bounded.all _
theorem Bounded.rewind (t : SI) (p : Packet) : Bounded.Statement (.rewind t p) := Bounded.all _
theorem Bounded.setCompression (t : SI) (p : Packet) : Bounded.Statement (.setCompression t p) := Bounded.all _
theorem Bounded.setSigning (t : SI) (p : Packet) : Bounded.Statement (.setSigning t p) := Bounded.all _
theorem Bounded.replay (t : SI) (p : Packet) : Bounded.Statement (.replay t p) := Bounded.all _
theorem Bounded.setDramMap (t : SI) (p : Packet) : Bounded.Statement (.setDramMap t p) := Bounded.all _
theorem Bounded.train (t : SI) (p : Packet) : Bounded.Statement (.train t p) := Bounded.all _
theorem Bounded.migrateRank (t : SI) (p : Packet) : Bounded.Statement (.migrateRank t p) := Bounded.all _
theorem Bounded.scrub (t : SI) (p : Packet) : Bounded.Statement (.scrub t p) := Bounded.all _
theorem Bounded.setHkSeq (t : SI) (p : Packet) : Bounded.Statement (.setHkSeq t p) := Bounded.all _
theorem Bounded.hkCal (t : SI) (p : Packet) : Bounded.Statement (.hkCal t p) := Bounded.all _
theorem Bounded.getAttestation (t : SI) (p : Packet) : Bounded.Statement (.getAttestation t p) := Bounded.all _
theorem Bounded.rotateEsk (t : SI) (p : Packet) : Bounded.Statement (.rotateEsk t p) := Bounded.all _
theorem Bounded.auth (t : SI) (p : Packet) : Bounded.Statement (.auth t p) := Bounded.all _
theorem Bounded.updateFirmware (t : SI) (p : Packet) : Bounded.Statement (.updateFirmware t p) := Bounded.all _
theorem Bounded.zeroize (t : SI) (p : Packet) : Bounded.Statement (.zeroize t p) := Bounded.all _
theorem Bounded.jobSuspend (t : SI) (p : Packet) : Bounded.Statement (.jobSuspend t p) := Bounded.all _
theorem Bounded.jobResume (t : SI) (p : Packet) : Bounded.Statement (.jobResume t p) := Bounded.all _
theorem Bounded.jobCancel (t : SI) (p : Packet) : Bounded.Statement (.jobCancel t p) := Bounded.all _
theorem Bounded.jobStatus (t : SI) (p : Packet) : Bounded.Statement (.jobStatus t p) := Bounded.all _
theorem Bounded.readLog (t : SI) (p : Packet) : Bounded.Statement (.readLog t p) := Bounded.all _
theorem Bounded.jobDequeue (t : SI) (job : Nat) : Bounded.Statement (.jobDequeue t job) := Bounded.all _
theorem Bounded.jobSuspendPoint (t : SI) (job : Nat) : Bounded.Statement (.jobSuspendPoint t job) := Bounded.all _
theorem Bounded.jobEnd (t : SI) (job : Nat) (work : JobWork) : Bounded.Statement (.jobEnd t job work) := Bounded.all _
theorem Bounded.epochInPulse (t : SI) (fine : Fin 64) (rising : Bool) (cycles : Nat) (lost : Bool) : Bounded.Statement (.epochInPulse t fine rising cycles lost) := Bounded.all _
theorem Bounded.slewEnd (t : SI) : Bounded.Statement (.slewEnd t) := Bounded.all _
theorem Bounded.epochInMiss (t : SI) : Bounded.Statement (.epochInMiss t) := Bounded.all _
theorem Bounded.refclkAbsent (t : SI) : Bounded.Statement (.refclkAbsent t) := Bounded.all _
theorem Bounded.refFreqMeasurement (t : SI) (hz : Nat) : Bounded.Statement (.refFreqMeasurement t hz) := Bounded.all _
theorem Bounded.anchorBoundary (t : SI) (passes : List LanePass) (disagree : List (Fin 1024 × Nat)) : Bounded.Statement (.anchorBoundary t passes disagree) := Bounded.all _
theorem Bounded.epochBoundary (t : SI) : Bounded.Statement (.epochBoundary t) := Bounded.all _
theorem Bounded.epochOutPulseEnd (t : SI) : Bounded.Statement (.epochOutPulseEnd t) := Bounded.all _
theorem Bounded.synthesiserLockLoss (t : SI) : Bounded.Statement (.synthesiserLockLoss t) := Bounded.all _
theorem Bounded.synthesiserRelock (t : SI) : Bounded.Statement (.synthesiserRelock t) := Bounded.all _
theorem Bounded.timeTransfer (t : SI) (port : Fin 16) (m : TtMessage) : Bounded.Statement (.timeTransfer t port m) := Bounded.all _
theorem Bounded.schedulerEntryDue (t : SI) (entry : Fin 256) : Bounded.Statement (.schedulerEntryDue t entry) := Bounded.all _
theorem Bounded.edgeDetected (t : SI) (ch : Fin 1024) (balls : Int × Int) (glitch : Bool) (raw raw2 : Nat) : Bounded.Statement (.edgeDetected t ch balls glitch raw raw2) := Bounded.all _
theorem Bounded.intervalTimeout (t : SI) (unit : Fin 64) : Bounded.Statement (.intervalTimeout t unit) := Bounded.all _
theorem Bounded.settleWindowEnd (t : SI) (ch : Fin 1024) : Bounded.Statement (.settleWindowEnd t ch) := Bounded.all _
theorem Bounded.inputOutOfRange (t : SI) (ch : Fin 1024) : Bounded.Statement (.inputOutOfRange t ch) := Bounded.all _
theorem Bounded.outOfRangeEnd (t : SI) (ch : Fin 1024) : Bounded.Statement (.outOfRangeEnd t ch) := Bounded.all _
theorem Bounded.deskewDoubtEnd (t : SI) (ch : Fin 1024) : Bounded.Statement (.deskewDoubtEnd t ch) := Bounded.all _
theorem Bounded.burstSramResume (t : SI) (block : Fin 64) : Bounded.Statement (.burstSramResume t block) := Bounded.all _
theorem Bounded.burstSramParityError (t : SI) (block : Fin 64) (firstFrame lastFrame : Nat) : Bounded.Statement (.burstSramParityError t block firstFrame lastFrame) := Bounded.all _
theorem Bounded.flushIntervalExpiry (t : SI) (source : Nat) : Bounded.Statement (.flushIntervalExpiry t source) := Bounded.all _
theorem Bounded.selfVerifyComplete (t : SI) (region : Fin 4) (ok : Bool) : Bounded.Statement (.selfVerifyComplete t region ok) := Bounded.all _
theorem Bounded.stagingResume (t : SI) (region : Fin 4) : Bounded.Statement (.stagingResume t region) := Bounded.all _
theorem Bounded.stagingDramWriteComplete (t : SI) (seg : Nat) : Bounded.Statement (.stagingDramWriteComplete t seg) := Bounded.all _
theorem Bounded.loadIntervalEnd (t : SI) : Bounded.Statement (.loadIntervalEnd t) := Bounded.all _
theorem Bounded.slotEvaluation (t : SI) (q : Fin 2) (slots : Nat) : Bounded.Statement (.slotEvaluation t q slots) := Bounded.all _
theorem Bounded.disarmShutdownEnd (t : SI) : Bounded.Statement (.disarmShutdownEnd t) := Bounded.all _
theorem Bounded.trigInEdge (t : SI) (pin : Fin 8) (level : Bool) (fine : Fin 64) : Bounded.Statement (.trigInEdge t pin level fine) := Bounded.all _
theorem Bounded.trigOutAssert (t : SI) (pin : Fin 8) : Bounded.Statement (.trigOutAssert t pin) := Bounded.all _
theorem Bounded.trigOutPulseEnd (t : SI) (pin : Fin 8) : Bounded.Statement (.trigOutPulseEnd t pin) := Bounded.all _
theorem Bounded.cancelPattern (t : SI) (pin : Fin 8) : Bounded.Statement (.cancelPattern t pin) := Bounded.all _
theorem Bounded.idle (t : SI) (port : Fin 16) (w : IdleBlock) : Bounded.Statement (.idle t port w) := Bounded.all _
theorem Bounded.cascadeLinkDown (t : SI) (port : Fin 16) (cause : LinkDownCause) : Bounded.Statement (.cascadeLinkDown t port cause) := Bounded.all _
theorem Bounded.retransmitTimeout (t : SI) (port : Fin 16) : Bounded.Statement (.retransmitTimeout t port) := Bounded.all _
theorem Bounded.armMessage (t : SI) (port : Fin 16) (m : CasMsg) : Bounded.Statement (.armMessage t port m) := Bounded.all _
theorem Bounded.disarmMessage (t : SI) (port : Fin 16) (m : CasMsg) : Bounded.Statement (.disarmMessage t port m) := Bounded.all _
theorem Bounded.cascadeCommandDue (t : SI) : Bounded.Statement (.cascadeCommandDue t) := Bounded.all _
theorem Bounded.fire (t : SI) (port : Fin 16) (m : CasMsg) : Bounded.Statement (.fire t port m) := Bounded.all _
theorem Bounded.basteMessage (t : SI) (port : Fin 16) (m : CasMsg) : Bounded.Statement (.basteMessage t port m) := Bounded.all _
theorem Bounded.sewMessage (t : SI) (port : Fin 16) (m : CasMsg) : Bounded.Statement (.sewMessage t port m) := Bounded.all _
theorem Bounded.unpickMessage (t : SI) (port : Fin 16) (m : CasMsg) : Bounded.Statement (.unpickMessage t port m) := Bounded.all _
theorem Bounded.discover (t : SI) (port : Fin 16) (m : CasMsg) : Bounded.Statement (.discover t port m) := Bounded.all _
theorem Bounded.report (t : SI) (port : Fin 16) (m : CasMsg) : Bounded.Statement (.report t port m) := Bounded.all _
theorem Bounded.armResult (t : SI) (port : Fin 16) (m : CasMsg) : Bounded.Statement (.armResult t port m) := Bounded.all _
theorem Bounded.isolated (t : SI) (port : Fin 16) (m : CasMsg) : Bounded.Statement (.isolated t port m) := Bounded.all _
theorem Bounded.rejoined (t : SI) (port : Fin 16) (m : CasMsg) : Bounded.Statement (.rejoined t port m) := Bounded.all _
theorem Bounded.doubtMessage (t : SI) (port : Fin 16) (m : CasMsg) : Bounded.Statement (.doubtMessage t port m) := Bounded.all _
theorem Bounded.remoteBasteExpiry (t : SI) (origin : BitVec 14) (number : BitVec 16) : Bounded.Statement (.remoteBasteExpiry t origin number) := Bounded.all _
theorem Bounded.stateSampleComplete (t : SI) (region : Fin 4) (clock : Fin 16) : Bounded.Statement (.stateSampleComplete t region clock) := Bounded.all _
theorem Bounded.statsWindowEnd (t : SI) (region : Fin 4) : Bounded.Statement (.statsWindowEnd t region) := Bounded.all _
theorem Bounded.windowSegmentRead (t : SI) (slot : Fin 64) (part : Fin 16) (read : SegRead) : Bounded.Statement (.windowSegmentRead t slot part read) := Bounded.all _
theorem Bounded.windowClose (t : SI) (slot : Fin 64) : Bounded.Statement (.windowClose t slot) := Bounded.all _
theorem Bounded.runShutdownEnd (t : SI) : Bounded.Statement (.runShutdownEnd t) := Bounded.all _
theorem Bounded.decoderMessageComplete (t : SI) (engine : Fin 64) : Bounded.Statement (.decoderMessageComplete t engine) := Bounded.all _
theorem Bounded.cdrLockLoss (t : SI) (engine : Fin 64) : Bounded.Statement (.cdrLockLoss t engine) := Bounded.all _
theorem Bounded.smbusTimeout (t : SI) (engine : Fin 64) : Bounded.Statement (.smbusTimeout t engine) := Bounded.all _
theorem Bounded.segmentHashComplete (t : SI) (stream : Fin 4096) : Bounded.Statement (.segmentHashComplete t stream) := Bounded.all _
theorem Bounded.signatureIntervalExpiry (t : SI) (stream : Fin 4096) : Bounded.Statement (.signatureIntervalExpiry t stream) := Bounded.all _
theorem Bounded.segmentDelivered (t : SI) (b : Fin 262144) (badWords : List Nat) : Bounded.Statement (.segmentDelivered t b badWords) := Bounded.all _
theorem Bounded.oweTimeout (t : SI) (b : Fin 262144) (seg : Nat) : Bounded.Statement (.oweTimeout t b seg) := Bounded.all _
theorem Bounded.backlogSegmentRead (t : SI) (b : Fin 262144) (read : SegRead) : Bounded.Statement (.backlogSegmentRead t b read) := Bounded.all _
theorem Bounded.rewindComplete (t : SI) (b : Fin 262144) : Bounded.Statement (.rewindComplete t b) := Bounded.all _
theorem Bounded.duplicateTimeout (t : SI) (b : Fin 262144) : Bounded.Statement (.duplicateTimeout t b) := Bounded.all _
theorem Bounded.contextParityError (t : SI) (b : Fin 262144) : Bounded.Statement (.contextParityError t b) := Bounded.all _
theorem Bounded.dramReadComplete (t : SI) (port : Fin 11) (addr : Nat) (channel : Fin 4) (before : List DramReq) (kind : ReadKind) (ageNs : Nat) :
    Bounded.Statement (.dramReadComplete t port addr channel before kind ageNs) := Bounded.all _
theorem Bounded.migrationBlockCopied (t : SI) (lost : List Nat) (spareBad : Bool) : Bounded.Statement (.migrationBlockCopied t lost spareBad) := Bounded.all _
theorem Bounded.refreshInterval (t : SI) : Bounded.Statement (.refreshInterval t) := Bounded.all _
theorem Bounded.dimmTemperatureRead (t : SI) (celsius : List Int) : Bounded.Statement (.dimmTemperatureRead t celsius) := Bounded.all _
theorem Bounded.selfRefreshEntry (t : SI) : Bounded.Statement (.selfRefreshEntry t) := Bounded.all _
theorem Bounded.selfRefreshExit (t : SI) : Bounded.Statement (.selfRefreshExit t) := Bounded.all _
theorem Bounded.dqsCompensation (t : SI) : Bounded.Statement (.dqsCompensation t) := Bounded.all _
theorem Bounded.rowIdleClose (t : SI) (bank : Nat) : Bounded.Statement (.rowIdleClose t bank) := Bounded.all _
theorem Bounded.patrolScrub (t : SI) (addr : Nat) (channel rank : Fin 4) (kind : ReadKind) : Bounded.Statement (.patrolScrub t addr channel rank kind) := Bounded.all _
theorem Bounded.logRetry (t : SI) (onChipOk : Bool) (dramOk : Bool) : Bounded.Statement (.logRetry t onChipOk dramOk) := Bounded.all _
theorem Bounded.tamperNAssert (t : SI) : Bounded.Statement (.tamperNAssert t) := Bounded.all _
theorem Bounded.tamperNRelease (t : SI) : Bounded.Statement (.tamperNRelease t) := Bounded.all _
theorem Bounded.svcEnAssert (t : SI) : Bounded.Statement (.svcEnAssert t) := Bounded.all _
theorem Bounded.svcEnDeassert (t : SI) : Bounded.Statement (.svcEnDeassert t) := Bounded.all _
theorem Bounded.svcUnlock (t : SI) (v : Word) : Bounded.Statement (.svcUnlock t v) := Bounded.all _
theorem Bounded.zeroizationEraseComplete (t : SI) : Bounded.Statement (.zeroizationEraseComplete t) := Bounded.all _
theorem Bounded.fikGenerated (t : SI) : Bounded.Statement (.fikGenerated t) := Bounded.all _
theorem Bounded.authChallengeExpiry (t : SI) (ring : Fin 16) : Bounded.Statement (.authChallengeExpiry t ring) := Bounded.all _
theorem Bounded.authLockoutEnd (t : SI) : Bounded.Statement (.authLockoutEnd t) := Bounded.all _
theorem Bounded.firmwareSwapPoint (t : SI) (startOk : Bool) : Bounded.Statement (.firmwareSwapPoint t startOk) := Bounded.all _
theorem Bounded.seamUnsettled (t : SI) (seam : Fin 13) (region : Fin 4) (agree : Bool) : Bounded.Statement (.seamUnsettled t seam region agree) := Bounded.all _
theorem Bounded.seamUnsettledTimeout (t : SI) (seam : Fin 13) : Bounded.Statement (.seamUnsettledTimeout t seam) := Bounded.all _
theorem Bounded.seamOverrunDiscard (t : SI) (region : Fin 4) : Bounded.Statement (.seamOverrunDiscard t region) := Bounded.all _
theorem Bounded.seamClockStopped (t : SI) (seam : Fin 13) (region : Fin 4) : Bounded.Statement (.seamClockStopped t seam region) := Bounded.all _
theorem Bounded.seamClockStopTimeout (t : SI) (seam : Fin 13) : Bounded.Statement (.seamClockStopTimeout t seam) := Bounded.all _
theorem Bounded.seamClockResumed (t : SI) (seam : Fin 13) : Bounded.Statement (.seamClockResumed t seam) := Bounded.all _
theorem Bounded.regionWatchdog (t : SI) (region : Fin 4) : Bounded.Statement (.regionWatchdog t region) := Bounded.all _
theorem Bounded.regionIntakeEnd (t : SI) (region : Fin 4) : Bounded.Statement (.regionIntakeEnd t region) := Bounded.all _
theorem Bounded.regionWriteDrainEnd (t : SI) (region : Fin 4) (unfinished : List Nat) (dropped : Nat) : Bounded.Statement (.regionWriteDrainEnd t region unfinished dropped) := Bounded.all _
theorem Bounded.regionReinitEnd (t : SI) (region : Fin 4) : Bounded.Statement (.regionReinitEnd t region) := Bounded.all _
theorem Bounded.temperatureCheck (t : SI) (celsius : List Int) : Bounded.Statement (.temperatureCheck t celsius) := Bounded.all _
theorem Bounded.supplyCheck (t : SI) (microvolts : List Nat) : Bounded.Statement (.supplyCheck t microvolts) := Bounded.all _
theorem Bounded.configParityCheck (t : SI) (found : Bool) (copyBad : Bool) : Bounded.Statement (.configParityCheck t found copyBad) := Bounded.all _
theorem Bounded.configParityRepair (t : SI) (values : List Byte) : Bounded.Statement (.configParityRepair t values) := Bounded.all _
theorem Bounded.controlCoreWatchdog (t : SI) : Bounded.Statement (.controlCoreWatchdog t) := Bounded.all _
theorem Bounded.coreRestartComplete (t : SI) : Bounded.Statement (.coreRestartComplete t) := Bounded.all _
theorem Bounded.softResetComplete (t : SI) (failedTest : Fin 8) : Bounded.Statement (.softResetComplete t failedTest) := Bounded.all _
theorem Bounded.hkReading (t : SI) (slice : Fin 3) (raw : Int) (lost : Bool) : Bounded.Statement (.hkReading t slice raw lost) := Bounded.all _
theorem Bounded.hkIntervalTrigger (t : SI) : Bounded.Statement (.hkIntervalTrigger t) := Bounded.all _
theorem Bounded.hkWake (t : SI) : Bounded.Statement (.hkWake t) := Bounded.all _
theorem Bounded.hkCalPass (t : SI) (slice : Fin 3) (gain : Fin 5) (integ : Fin 6) (zero : Int) (fullScale : Int) : Bounded.Statement (.hkCalPass t slice gain integ zero fullScale) := Bounded.all _
theorem Bounded.configSpaceUp (t : SI) : Bounded.Statement (.configSpaceUp t) := Bounded.all _
theorem Bounded.selfTestsComplete (t : SI) (failedTest : Fin 8) : Bounded.Statement (.selfTestsComplete t failedTest) := Bounded.all _
theorem Bounded.firmwareSelected (t : SI) (flash : BootFlash) : Bounded.Statement (.firmwareSelected t flash) := Bounded.all _
theorem Bounded.initialSynthLock (t : SI) : Bounded.Statement (.initialSynthLock t) := Bounded.all _
theorem Bounded.initialLockTimeout (t : SI) : Bounded.Statement (.initialLockTimeout t) := Bounded.all _
theorem Bounded.readySet (t : SI) : Bounded.Statement (.readySet t) := Bounded.all _
theorem Bounded.supplyCollapse (t : SI) : Bounded.Statement (.supplyCollapse t) := Bounded.all _
theorem Bounded.supplyRecovered (t : SI) : Bounded.Statement (.supplyRecovered t) := Bounded.all _
theorem Bounded.perstNRelease (t : SI) : Bounded.Statement (.perstNRelease t) := Bounded.all _
theorem Bounded.blockLockAchieved (t : SI) (port : Fin 16) : Bounded.Statement (.blockLockAchieved t port) := Bounded.all _
theorem Bounded.blockLockLoss (t : SI) (port : Fin 16) : Bounded.Statement (.blockLockLoss t port) := Bounded.all _
theorem Bounded.badCrcMessage (t : SI) (port : Fin 16) (cutThrough : Option (Fin 16 × CasMsg)) : Bounded.Statement (.badCrcMessage t port cutThrough) := Bounded.all _

end Sys2Proof.Laws
end

