-- ==== Sys2Proof/Tests/Slice0.lean ====
section
/-! SUPPORT. The model's own tests: an ill-formed term for each check of WellFormed, a few steps with results from the spec or from published test vectors,
and for each statement of Certificates/Slice0 states and operands that meet its hypotheses, clause by clause. -/

set_option Elab.async false

namespace Sys2Proof.Tests

open Sys2Proof.Machine Sys2Proof.Safety

/-! ### WellFormed refuses each ill-formed term -/

/-- Bytes of small numbers. -/
def bytes (l : List Nat) : List Byte := l.map (BitVec.ofNat 8)

/-- n zero bytes. -/
def zeros (n : Nat) : List Byte := List.replicate n 0

/-- A packet on ring 1 with TAG 7. -/
def pkt (ps : List Byte) : Packet := { ring := 1, tag := 7, flags := 0, atSt := 0, reservedSet := false, params := ps }

/-- R430: 4,097 parameter bytes are too many, 4,096 are not. -/
theorem test_long_packet_refused : (pkt (zeros 4097)).wellFormed = false ∧ (Instr.nop 0 (pkt (zeros 4096))).wellFormed = true := by decide +kernel

theorem test_unaligned_bar0_write_refused : (Instr.registerWrite 0 (.bar0 2) 0 {}).wellFormed = false := by decide
theorem test_unaligned_bar4_write_refused : (Instr.registerWrite 0 (.bar4 6) 0 {}).wellFormed = false := by decide
theorem test_unaligned_read_refused : (Instr.rcFieldRead 0 { reg := .bar0 5 }).wellFormed = false ∧ (Instr.lowWordRead 0 3).wellFormed = false := by decide
theorem test_long_completion_refused : (Instr.completionReceived 0 3 .success (zeros 4097)).wellFormed = false := by decide +kernel
theorem test_no_slots_refused : (Instr.slotEvaluation 0 0 0).wellFormed = false := by decide
theorem test_bad_word_number_refused : (Instr.segmentDelivered 0 3 [8180]).wellFormed = false := by decide
theorem test_frames_backwards_refused : (Instr.burstSramParityError 0 3 5 4).wellFormed = false := by decide
theorem test_seven_diodes_refused : (Instr.temperatureCheck 0 (List.replicate 7 20)).wellFormed = false := by decide
theorem test_seventeen_rails_refused : (Instr.supplyCheck 0 (List.replicate 17 0)).wellFormed = false := by decide

/-- No row of the table gives bits, so no word spells a command. -/
theorem test_no_word_decodes : decodeTableWord 32 1 = none := rfl

/-! ### A few results from outside the model -/

/-- CRC-32C of "123456789", the check value published with the polynomial. -/
theorem test_crc32c_check : crc32c (bytes [0x31, 0x32, 0x33, 0x34, 0x35, 0x36, 0x37, 0x38, 0x39]) = 0xE3069283 := by decide +kernel

/-- CRC-8 with polynomial 0x07 of "123456789" is 0xF4, as published. -/
theorem test_crc8_check : crc8 (bytes [0x31, 0x32, 0x33, 0x34, 0x35, 0x36, 0x37, 0x38, 0x39]) = 0xF4 := by decide +kernel

/-- CRC-16 with polynomial 0x1021 and initial value 0xFFFF of "123456789" is 0x29B1, as published. -/
theorem test_crc16_check : crc16 (bytes [0x31, 0x32, 0x33, 0x34, 0x35, 0x36, 0x37, 0x38, 0x39]) = 0x29B1 := by decide +kernel

/-- SHA-256 of "abc", the first word of the vector in FIPS 180-4. -/
theorem test_sha256_abc : (sha256 (bytes [0x61, 0x62, 0x63])).take 4 = bytes [0xba, 0x78, 0x16, 0xbf] := by decide +kernel

/-- AES-256, the vector of FIPS 197, C.3; CMAC with AES-256 of 64 bytes, example 4 of NIST SP 800-38B, D.3. -/
theorem test_aes256 : aes256 0x000102030405060708090a0b0c0d0e0f101112131415161718191a1b1c1d1e1f 0x00112233445566778899aabbccddeeff =
    0x8ea2b7ca516745bfeafc49904b496089 := by decide +kernel
theorem test_keyCmac : keyCmac 0x603deb1015ca71be2b73aef0857d77811f352c073b6108d72d9810a30914dff4
    0x6bc1bee22e409f96e93d7e117393172aae2d8a571e03ac9c9eb76fac45af8e5130c81c46a35ce411e5fbc1191a0a52eff69f2445df4f9b17ad2b417be66c3710 =
    0xe1992190549f6ed5696a2c056c315410 := by decide +kernel

/-- CTR_DRBG with AES-256 and derivation function: the second output of 64 bytes of the first vector of NIST CAVP (no reseed, no prediction resistance), its first
four bytes. -/
theorem test_drbg : (((Drbg.start
      0x36401940fa8b1fba91a1661f211d78a0b9389a74e5bccfece8d766af1a6d3b14496f25b0f1301b4f501be30380a137eb).generate 64).2.generate 64).1.take 4 =
    bytes [0x58, 0x62, 0xeb, 0x38] := by decide +kernel

/-- What a wrapped secret unwraps to (R459). -/
theorem test_unwrap : kwpUnwrap 0x603deb1015ca71be2b73aef0857d77811f352c073b6108d72d9810a30914dff4
    (kwpWrap 0x603deb1015ca71be2b73aef0857d77811f352c073b6108d72d9810a30914dff4 5) = 5 := by decide +kernel

/-- ECDSA over P-256 with SHA-256 of "sample": private key and number of RFC 6979, A.2.5, give its r. -/
theorem test_ecdsa_sign : (ecdsaPair 0xC9AFA9D845BA75166B5C215767B1D6934E50C3DB36E89B127B8A622B120F6721
      0xA6E3C57DD01ABE90086538398355DD4C3B17AA873382B0F24D6129493D8AAD60 (bytes [0x73, 0x61, 0x6d, 0x70, 0x6c, 0x65])) =
    some (0xEFD48B2AACB6A8FD1140DD9CD45E81D69D2C877B56AAF991C34D0EA84EAF3716,
      0xF7CB1C942D657C41D436C7A1B6E29F65F3E900DBB9AFF4064DC4AB2F843ACDA8) := by decide +kernel

/-- ECDSA over P-256 with SHA-256 of "sample", the signature of RFC 6979, A.2.5. -/
theorem test_ecdsa_sample :
    let u := beBytes 32 0x60FED4BA255A9D31C961EB74C6356D68C049B8923B61FA6CE669622E60F29FB6 ++ beBytes 32 0x7903FE1008B8BC99A41AE9E95628BC64F2F1B20C2D7E9F5177A3C294D4462299
    ecdsaVerify u (bytes [0x73, 0x61, 0x6d, 0x70, 0x6c, 0x65]) (beBytes 32 0xEFD48B2AACB6A8FD1140DD9CD45E81D69D2C877B56AAF991C34D0EA84EAF3716)
      (beBytes 32 0xF7CB1C942D657C41D436C7A1B6E29F65F3E900DBB9AFF4064DC4AB2F843ACDA8) = true := by decide +kernel

/-- R2, R37: 1 ms at 4.000 GS/s is 4,000,000 slots; 2 µs are 8,000. -/
theorem test_slots_of_time : slotsOfNs 4000000 1000000 = 4000000 ∧ slotsOfNs 4000000 2000 = 8000 := by decide

/-! ### A machine that is ready -/

/-- What acceptance asks, as one Bool. -/
def acceptable (s : State) (t : SI) (o : OpSpec) (p : Packet) : Bool :=
  s.startup.ready && s.startup.step = 8 && s.safe.softReset.isNone && !s.safe.coreDown && !s.safe.swapping &&
    s.cmd.rings.all (fun e => e.2.fetched.isEmpty) && (s.ring p.ring.val).enable && !(s.ring p.ring.val).stopped && !bit p.flags.toNat 0 &&
    (o.early (entered s t p) (s.ring p.ring.val).role (packetCtx o.opcode p) p).isNone && p.atSt = 0 && decide (o.adapt (entered s t p) p = (p, false)) &&
    (o.late (entered s t p) (packetCtx o.opcode p)).isNone && !o.defers (taken s t p) p.params

theorem quiet_of {s : State} (h : (s.startup.ready && s.startup.step = 8 && s.safe.softReset.isNone && !s.safe.coreDown && !s.safe.swapping &&
    s.cmd.rings.all (fun e => e.2.fetched.isEmpty)) = true) : quiet s := by
  simp only [Bool.and_eq_true, decide_eq_true_eq, Bool.not_eq_true', Option.isNone_iff_eq_none] at h
  obtain ⟨⟨⟨⟨⟨h1, h2⟩, h3⟩, h4⟩, h5⟩, h6⟩ := h
  exact ⟨h1, h2, h3, h4, h5, h6⟩

theorem accepted_of {s : State} {t : SI} {o : OpSpec} {p : Packet} (h : acceptable s t o p = true) : accepted s t o p := by
  unfold acceptable at h
  simp only [Bool.and_eq_true, Bool.not_eq_true', Option.isNone_iff_eq_none, decide_eq_true_eq] at h
  obtain ⟨⟨⟨⟨⟨⟨⟨⟨⟨⟨⟨⟨⟨h1, h2⟩, h3⟩, h4⟩, h5⟩, h6⟩, h7⟩, h8⟩, h9⟩, h10⟩, h11⟩, h12⟩, h13⟩, h14⟩ := h
  exact ⟨⟨h1, h2, h3, h4, h5, h6⟩, h7, h8, fun c => absurd c (by simp [h9]), h10, h11, h12, h13, h14⟩

/-- The machine after start-up, with ring 1 enabled for the role: 2 is Crypto Officer. -/
def started (role : Nat) : State :=
  { State.reset with
    startup := { State.reset.startup with step := 8, ready := true }
    safe := { State.reset.safe with quiet := false, tempLimit := 105 }
    time := { State.reset.time with running := true, si := 1000, epoch := { nominal := some 1000 } }
    pcie := { State.reset.pcie with configUp := true, retryStatus := false, linkUp := true, bme := true, speed := 5, width := 16 }
    log := { State.reset.log with onchipOnly := false }
    dram := { State.reset.dram with usable := 64, trained := true, physRanks := 2, logRanks := 2 }
    cmd := { State.reset.cmd with rings := [(1, { enable := true, role := role, cqLog2 := 7, sqLog2 := 7, sqBase := 0x10000, cqBase := 0x20000 })] } }

def ready : State := started 2

/-- Little-endian field of w bytes. -/
def fld (w n : Nat) : List Byte := leBytes w n

theorem ready_quiet : quiet ready := quiet_of (by decide)

/-! ### States and operands that meet the statements' hypotheses

One theorem per statement, clause by clause. A clause with no hypothesis beyond another's needs no witness of its own. -/

theorem all_of_none {α : Type} {o : Option α} {P : α → Prop} (h : o = none) : ∀ v, o = some v → P v := by
  intro v hv; rw [h] at hv; cases hv

theorem all_of_some {α : Type} {o : Option α} {P : α → Prop} {a : α} (h : o = some a) (p : P a) : ∀ v, o = some v → P v := by
  intro v hv; rw [h] at hv; cases hv; exact p

/-- A load interval ends at slot 1,001: a command to put at the front of a queue. -/
def queued : State := { ready with pending := [.loadIntervalEnd 1001, .stagingResume 1002 0] }

theorem step_queued : ∃ s', step queued = .next s' := by
  have e : step queued = execLoadIntervalEnd 1001 { queued with pending := [.stagingResume 1002 0] } := rfl
  rw [e]
  unfold execLoadIntervalEnd
  dsimp only
  split <;> exact ⟨_, rfl⟩

theorem witness_StepsTakeOneCommand : State.reset.pending = [] ∧ queued.pending = .loadIntervalEnd 1001 :: [.stagingResume 1002 0] ∧
    ∃ s', step queued = .next s' := ⟨by decide, by decide, step_queued⟩

theorem witness_DramBytesStayCanonical : memoryCanonical queued ∧ memoryCanonical { queued with dram.mem := [(5, 3), (9, 1)] } ∧ ∃ s', step queued = .next s' :=
  ⟨by unfold memoryCanonical; decide +kernel, by unfold memoryCanonical; decide +kernel, step_queued⟩

theorem witness_SlotIndexNeverDecreases : (queued.pending = .loadIntervalEnd 1001 :: [.stagingResume 1002 0] ∧
      (∀ t, Instr.loadIntervalEnd 1001 ≠ .fundamentalReset t) ∧ (∀ t, Instr.loadIntervalEnd 1001 ≠ .supplyCollapse t) ∧
      (∀ t, Instr.loadIntervalEnd 1001 ≠ .initialSynthLock t ∨ queued.startup.step ≠ 5) ∧
      (∀ t, Instr.loadIntervalEnd 1001 ≠ .initialLockTimeout t ∨ queued.startup.step ≠ 5) ∧ ∃ s', step queued = .next s') ∧
    (ready.time.running = true ∧ ready.time.si ≤ 1000) ∧ ({ State.reset with startup.step := 5 } : State).startup.step = 5 :=
  ⟨⟨by decide, by simp, by simp, by simp, by simp, step_queued⟩, by decide, rfl⟩

theorem witness_RegisterAccesses : ready.barWrites = true ∧ State.reset.barWrites = false ∧ ready.barAnswers = true ∧
    hostWritable (0xA0028 / 4 * 4) = true ∧ hostWritable (0xA002A / 4 * 4) = true ∧ 0xA002A % 4 ≠ 0 ∧
    ready.pcie.configUp = true ∧ ready.pcie.linkUp = true ∧ ready.pcie.d3hot = false ∧ ready.startup.ready = true ∧
    (let s : State := { ready with pcie.cto := 5, pcie.lateCpl := 65535 }
     1 ≤ s.pcie.cto ∧ 65535 ≤ s.pcie.lateCpl ∧ s.pcie.cto < 65536 ∧ s.pcie.lateCpl < 65536) ∧
    ready.configAnswers = true ∧ (State.reset.configAnswers = false ∧ State.reset.pcie.linkUp = false) ∧
    (let s : State := { ready with pcie.configUp := false }
     s.configAnswers = false ∧ s.pcie.linkUp = true) ∧ 0xB0008 % 8 = 0 := by decide +kernel

theorem witness_HighWordsAreLatched : 0x10004 % 4 = 0 ∧ isLow 0x10004 = true ∧ ready.pcie.configUp = true ∧ ready.pcie.linkUp = true ∧
    ready.pcie.d3hot = false ∧ ready.startup.ready = true := by decide +kernel

/-- Ring control values: ENABLE with 256-entry rings, with a completion ring out of range. -/
def enableOk : Word := BitVec.ofNat 32 (2 ^ 31 + 8 * 65536 + 8 * 256)
def enableBad : Word := BitVec.ofNat 32 (2 ^ 31 + 31 * 65536 + 8 * 256)

theorem witness_CommandRings : quiet ready ∧ ready.barWrites = true ∧
    ((ready.ring 2).enable = false ∧ ringSizesOk (enableOk.toNat % 2 ^ 31) = true) ∧
    ((ready.ring 2).enable = false ∧ ringSizesOk (enableBad.toNat % 2 ^ 31) = false) ∧ (ready.ring 1).enable = true ∧
    (let x := ready.ring 1
     let n := 2 ^ x.sqLog2
     let m := 2 ^ x.cqLog2
     let dist := fun (w a b : Nat) => ((a : Int) - (b : Int)) % (w : Int)
     (n < 2 * n ∧ dist (2 * n) n x.sqHead ≤ n ∧ dist (2 * n) n x.sqTail ≤ n - dist (2 * n) x.sqTail x.sqHead) ∧
     ¬(n + 1 < 2 * n ∧ dist (2 * n) (n + 1 : Nat) x.sqHead ≤ n ∧ dist (2 * n) (n + 1 : Nat) x.sqTail ≤ n - dist (2 * n) x.sqTail x.sqHead) ∧
     (0 < 2 * m ∧ dist (2 * m) x.cqTail 0 ≤ dist (2 * m) x.cqTail x.cqHead) ∧
     ¬(1 < 2 * m ∧ dist (2 * m) x.cqTail 1 ≤ dist (2 * m) x.cqTail x.cqHead)) :=
  ⟨ready_quiet, by decide +kernel⟩

theorem witness_WindowShowsDram : ready.barWrites = true ∧ State.reset.barWrites = false ∧ ready.barAnswers = true ∧ ready.startup.ready = true ∧
    (let s : State := { ready with startup.ready := false }
     s.barAnswers = true ∧ s.startup.ready = false) ∧
    (let s : State := { ready with pcie.winBase := 2 ^ 36 }
     s.dram.usable * 2 ^ 30 ≤ s.pcie.winBase + 0 ∨ (17 ≤ s.dram.usable ∧ s.dram.reserved + 0x430000000 ≤ s.pcie.winBase + 0)) ∧
    ¬(ready.dram.usable * 2 ^ 30 ≤ ready.pcie.winBase + 0 ∨ (17 ≤ ready.dram.usable ∧ ready.dram.reserved + 0x430000000 ≤ ready.pcie.winBase + 0)) ∧
    (ready.dram.selfRefresh = false ∧ (ready.dram.isUnbacked 0 || (tfind ready.dram.markers (0 / 8 * 8)).isSome) = false) ∧
    (let s : State := { ready with dram.selfRefresh := true, dram.markers := [(0, 1)] }
     s.dram.selfRefresh = true ∧ (s.dram.isUnbacked 0 || (tfind s.dram.markers (0 / 8 * 8)).isSome) = true ∧
       s.dram.poisonEvent ≠ some ((s.moment 1001).time.si / 2 ^ 20)) := by
  decide +kernel

/-- Event 5 signals vector 3, event 6 vector 9 with WAKE; both vectors pend. -/
def signals : State := { ready with
  events := { ready.events with
    map := [(5, { enable := true, vector := 3 }), (6, { enable := true, wake := true, vector := 9 })]
    table := [(3, { masked := false, addr := 0x1000 })], pba := [3, 9] }
  pcie := { ready.pcie with msixEn := true, pmeEn := true } }

theorem witness_EventsAndMessages : (let none_ := { signals with events.pba := [] }
    let m := fun (s : State) (n : Nat) => (tfind s.events.map n).getD {}
    let shut := fun (s : State) (n : Nat) => s.pcie.msixEn = false ∨ s.pcie.fnMask = true ∨ ((tfind s.events.table (m s n).vector).getD {}).masked = true ∨
      s.pcie.bme = false ∨ s.pcie.d3hot = true ∨ s.pcie.linkUp = false ∨ s.pcie.frozen = true
    ((m signals 7).wake = false ∧ (m signals 7).enable = false) ∧
    ((m signals 5).wake = false ∧ (m signals 5).enable = true ∧ (m signals 5).vector ∈ signals.events.pba) ∧
    (none_.pcie.d3hot = false ∧ (m none_ 6).enable = true ∧ (m none_ 6).vector ∉ none_.events.pba ∧ shut none_ 6) ∧
    ((m none_ 5).wake = false ∧ (m none_ 5).enable = true ∧ (m none_ 5).vector ∉ none_.events.pba ∧ ¬shut none_ 5) ∧
    (let d3 := { signals with pcie.d3hot := true }
     (m d3 6).wake = true ∧ d3.pcie.d3hot = true ∧ d3.pcie.pmeEn = true ∧ d3.pcie.frozen = false)) ∧
    signals.msixWrites = true ∧ signals.configAnswers = true := by decide +kernel

/-- A read request under way. -/
def reading : Request := { use := .header 1, addr := 4096, len := 64 }

theorem witness_HostLinkAndDelivery : (ready.configAnswers = true ∧ ready.pcie.bme = true ∧ ready.tags.outstanding = [] ∧ ready.pcie.quiesced = false) ∧
    ({ ready with tags.outstanding := [(1, reading)] } : State).tags.outstanding ≠ [] ∧
    (let s : State := { ready with pcie.bme := false }
     quiet s ∧ s.configAnswers = true ∧ s.pcie.bme = false) ∧
    (ready.pcie.d3hot = false ∧ ready.pcie.linkUp = true ∧ ready.pcie.withdrawsClock = false) ∧
    (let s : State := { ready with pcie.clockPm := true }
     s.configAnswers = true ∧ s.pcie.d3hot = false ∧ s.pcie.withdrawsClock = true) ∧ ({ ready with pcie.configUp := false } : State).configAnswers = false ∧
    (let s : State := { ready with pcie.d3hot := true }
     quiet s ∧ s.configAnswers = true ∧ s.pcie.d3hot = true ∧ (s.ring 1).enable = true ∧ (s.ring 1).cqLog2 ≠ 0 ∧
       ({ ring := 1, tag := 3, status := 0 } : CplEntry).status ≠ stInternal) ∧
    (let s : State := { ready with pcie.linkUp := false }
     quiet s ∧ s.pcie.linkUp = false ∧ (6 : Fin 7).val ≠ 0) := by
  refine ⟨?_, ?_, ⟨quiet_of ?_, ?_⟩, ?_, ?_, ?_, ⟨quiet_of ?_, ?_⟩, quiet_of ?_, ?_⟩ <;> decide +kernel

theorem witness_ContainmentFreezesAndReleases : ((4 : Fin 32).val ≠ 14 ∧ (4 : Fin 32).val ≠ 16 ∧ ready.pcie.configUp = true ∧ ready.pcie.retryStatus = false ∧
      ready.pcie.frozen = false ∧ ready.pcie.aerSeverity.getLsbD 4 = true) ∧
    ((0 : Fin 32).val ≠ 14 ∧ (0 : Fin 32).val ≠ 16 ∧ ready.pcie.aerSeverity.getLsbD 0 = false) ∧ ((14 : Fin 32).val = 14 ∨ (14 : Fin 32).val = 16) ∧
    (let s : State := { ready with pcie.frozen := true, pcie.cause := 4 }
     quiet s ∧ s.pcie.frozen = true ∧ s.pcie.linkUp = true ∧ s.pcie.aerStatus.getLsbD s.pcie.cause = false) ∧
    (let s : State := { ready with pcie.frozen := true, pcie.cause := 4, pcie.aerStatus := 16 }
     s.pcie.frozen = true ∧ (s.pcie.linkUp = false ∨ s.pcie.aerStatus.getLsbD s.pcie.cause = true)) := by
  refine ⟨?_, ?_, ?_, ⟨quiet_of ?_, ?_⟩, ?_⟩ <;> decide +kernel

theorem witness_HostAndFundamentalResets : (let a : Bobbin := { sizeLog2 := 16, wr := 100, rd := 50, rel := 50, ring := [(50, {})], queue := [{ seg := {} }] }
    let s : State := { ready with cap.runState := 1, bob.tab := [(0, a), (1, { a with loc1 := true })] }
    (s.pcie.retain = true ∨ s.cap.runState = 0) ∧ s.configAnswers = true ∧ s.pcie.configUp = true ∧
      (tfind s.bob.tab 0 = some a ∧ a.loc1 = false) ∧ tfind s.bob.tab 1 = some { a with loc1 := true }) ∧
    (State.reset.startup.step = 1 ∧ State.reset.startup.collapsed = false) ∧
    (let s : State := { State.reset with startup.collapsed := true }
     s.startup.step = 1 ∧ s.startup.collapsed = true) ∧ ready.startup.step ≠ 1 := by decide +kernel

/-- Ring 1's read waits under tag 3 with the tail at 5; a header of an opcode and a length of parameters. -/
def awaits (q : Request) : State := { ready with tags.outstanding := [(3, q)], cmd.rings := [(1, { (ready.ring 1) with sqTail := 5, fetching := true })] }
def headerOf (len : Nat) : List Byte := fld 2 1 ++ fld 2 9 ++ fld 2 len ++ zeros 58
def paramsRead : Request := { use := .params 1 (headerOf 64), addr := 4096, len := 64 }

theorem awaits_come (q : Request) : quiet (awaits q) ∧ tfind (awaits q).tags.outstanding 3 = some q ∧ (awaits q).pcie.bme = true ∧
    (awaits q).pcie.frozen = false := ⟨quiet_of rfl, rfl, rfl, rfl⟩

theorem witness_ReadsComplete_contents : (let s := awaits reading
      let r := s.ring 1
      let waits := modDist (2 * r.sqSize) r.sqTail r.sqHead
      reading.use = .header 1 ∧ reading.len = 64 ∧ reading.retried = false ∧ reading.orphan = false ∧
      ((headerOf 0).length = 64 ∧ paramLen (headerOf 0) = 0 ∧ waits ≠ 0) ∧
      ((headerOf 4096).length = 64 ∧ paramLen (headerOf 4096) ≤ 4096 ∧ waits < 1 + (paramLen (headerOf 4096) + 63) / 64) ∧
      ((headerOf 4097).length = 64 ∧ 4096 < paramLen (headerOf 4097))) ∧
    (paramsRead.use = .params 1 (headerOf 64) ∧ (zeros 64).length = paramsRead.len ∧ 64 ≤ (headerOf 64).length ∧
      paramLen (headerOf 64) = (headerOf 64).length - 64 + paramsRead.len) ∧
    ({ reading with retried := true } : Request).retried = true ∧ CplStatus.poisoned ≠ .success := by decide +kernel

theorem witness_ReadsCompleteOrTimeOut : tfind ready.tags.outstanding 3 = none ∧
    (let s : State := { ready with tags.outstanding := [(3, reading)], pcie.bme := false }
     tfind s.tags.outstanding 3 = some reading ∧ s.pcie.bme = false ∧ reading.orphan = false) ∧
    (let s : State := { ready with tags.outstanding := [(3, reading)] }
     tfind s.tags.outstanding 3 = some reading ∧ quiet s ∧ reading.retried = false ∧ reading.orphan = false ∧
       (s.moment 1001).time.si < reading.issuedAt + slotsOfNs s.time.ref.rateKhz reading.timeoutNs ∧
       reading.issuedAt + slotsOfNs s.time.ref.rateKhz reading.timeoutNs ≤ (s.moment 200000000).time.si) ∧
    (let s : State := { ready with tags.quarantined := [(3, 1001)] }
     tfind s.tags.quarantined 3 = some 1001 ∧ 1001 ≤ (s.moment 1001).time.si ∧ quiet s ∧ (s.moment 1000).time.si < 1001) := by
  refine ⟨?_, ?_, ⟨?_, quiet_of ?_, ?_⟩, ?_, ?_, quiet_of ?_, ?_⟩ <;> decide +kernel

/-- Four channels: settling, in range and levels, deskewing and out of range, just enabled. -/
def cellsOn : State := { ready with cells := [
  (3, { enable := true }), (4, { input := some (1000000000, 0) }),
  (10, { enable := true, firstSample := true, enabledAt := 1008, enableLog := [(1008, true)] }),
  (5, { enable := true, level := true, doubtOpen := true, settleUntil := some 1001, doubt := { settling := true } }),
  (6, { enable := true, level := true, lanes := [{ good := true, s1 := 10240 }, { good := true, s1 := 10240 }, {}] }),
  (7, { enable := true, deskewUntil := some 1002, doubtOpen := true, doubt := { deskew := true, oor := true } }),
  (8, { enable := true, firstSample := true, enabledAt := 1000 })] }

/-- Channels 3 and 4 get thresholds 1,489 (channel 3's own) and 99; channels 3 to 5 modes 1, 3 and 0; channels 3 and 4 deskews 0 and -1. -/
def thresholds : Packet := pkt (fld 2 3 ++ fld 2 2 ++ bytes [1, 255, 0, 0] ++ fld 2 1489 ++ fld 2 99)
def inputModes : Packet := pkt (fld 2 3 ++ fld 2 3 ++ bytes [1, 0, 0, 0] ++ bytes [1, 3, 0])
def deskews : Packet := pkt (fld 2 3 ++ fld 2 2 ++ bytes [1, 0, 0, 0] ++ fld 2 0 ++ fld 2 65535)

theorem witness_ChannelSettings :
    (accepted cellsOn 1001 opSetThreshold thresholds ∧ (cellsOn.cell 3).thresh = pField thresholds.params 8 2 ∧
      (cellsOn.cell 4).thresh ≠ pField thresholds.params 10 2) ∧
    (accepted cellsOn 1001 opSetInputMode inputModes ∧
      ((pField inputModes.params 8 1).testBit 0 = (cellsOn.cell 3).enable ∧ (pField inputModes.params 8 1).testBit 1 = (cellsOn.cell 3).diff ∧
        (pField inputModes.params 8 1).testBit 2 = (cellsOn.cell 3).term50) ∧
      ((pField inputModes.params 9 1).testBit 0 = true ∧ (cellsOn.cell 4).enable = false ∧ (cellsOn.cell 4).input = some (1000000000, 0)) ∧
      ((pField inputModes.params 10 1).testBit 0 = false ∧ (cellsOn.cell 5).enable = true)) ∧
    (accepted cellsOn 1001 opSetDeskew deskews ∧ toSigned 16 (pField deskews.params 8 2) = (cellsOn.cell 3).deskew ∧
      toSigned 16 (pField deskews.params 10 2) ≠ (cellsOn.cell 4).deskew) := by
  refine ⟨⟨accepted_of ?_, ?_⟩, ⟨accepted_of ?_, ?_⟩, accepted_of ?_, ?_⟩ <;> decide +kernel

theorem witness_ChannelDoubtCauses : ((cellsOn.cell 5).settleUntil = some 1001 ∧ (cellsOn.moment 1000).time.si < 1001 ∧ 1001 ≤ (cellsOn.moment 1001).time.si) ∧
    ((cellsOn.cell 7).deskewUntil = some 1002 ∧ (cellsOn.moment 1001).time.si < 1002 ∧ 1002 ≤ (cellsOn.moment 1002).time.si) ∧
    (cellsOn.cell 4).enable = false ∧ ((cellsOn.cell 3).enable = true ∧ (cellsOn.cell 3).doubt.oor = false) ∧ (cellsOn.cell 7).doubt.oor = true := by
  decide +kernel

/-- A ball voltage of 1 V and one of -1 V: single-ended, with code 1,489, above and below the switching point by more than any hysteresis (R84, R85). -/
def high (g : Bool) : CellInput := { vp := 1000000000, vn := 0, glitch := g, raw := 20, raw2 := 40 }
def low : CellInput := { vp := -1000000000, vn := 0, glitch := false, raw := 20, raw2 := 40 }

theorem witness_EdgesAreReported : (let on := fun (ch : Nat) (t : SI) => (cellsOn.cell ch).enabledFor t
    let level := fun (ch : Nat) (v : CellInput) =>
      let x := cellsOn.cell ch
      let above := 4095 * (v.vp + 2000000000) - (x.thresh : Int) * 5500000000
      if 4095 * 500000 * (x.hyst : Int) < above then true else if above < -(4095 * 500000 * (x.hyst : Int)) then false else x.level
    (on 9 1002 = false ∧ (cellsOn.cell 9).enable = false) ∧
    (on 10 1002 = false ∧ (cellsOn.cell 10).enable = true ∧ (cellsOn.cell 10).firstSample = true) ∧
    ((cellsOn.cell 8).firstSample = true ∧ 1000 = (cellsOn.cell 8).enabledAt ∧ on 8 1000 = true ∧ low.glitch = false) ∧
    (on 3 1002 = true ∧ (cellsOn.cell 3).firstSample = false ∧ (cellsOn.cell 3).diff = false ∧ (cellsOn.cell 3).cmpAt = 0 ∧
      level 3 low = (cellsOn.cell 3).level ∧ level 3 (high false) ≠ (cellsOn.cell 3).level ∧ (cellsOn.cell 3).serve 1002 = none) ∧
    (on 6 1002 = true ∧ (cellsOn.cell 6).firstSample = false ∧ level 6 low ≠ (cellsOn.cell 6).level ∧ ((cellsOn.cell 6).serve 1002).isSome = true ∧
      level 6 (high true) = (cellsOn.cell 6).level ∧ (high true).glitch = true) ∧
    (on 5 1002 = true ∧ (cellsOn.cell 5).firstSample = false ∧ (cellsOn.cell 5).level = true ∧ level 5 (high true) = true ∧
      (cellsOn.cell 5).serve 1002 = none)) ∧
    (¬∃ b, cellsOn.time.gatedFrom = some b ∧ b ≤ 1002) ∧
    (∃ b, ({ cellsOn with time.gatedFrom := some 1002 } : State).time.gatedFrom = some b ∧ b ≤ 1002) := by
  refine ⟨by decide +kernel, ?_, 1002, rfl, Nat.le_refl _⟩
  have e : cellsOn.time.gatedFrom = none := by decide +kernel
  simp [e]

/-- A unit that waits for the stop of a start at slot 1,000. -/
def begun : IvlEdge := { time := 64 * 1000, isStart := true, settle := false, coarse := false }
def laterSet : IvlSet := { enable := true, pairing := true, startCh := 3, stopCh := 4, startSlope := 0, stopSlope := 1, decim := 2, maxSpan := 4096 }
def measuring : State := { ready with ivls := [(5, { enable := true, starts := [begun], maxSpan := 10 }), (6, {}), (7, { next := [(1008, laterSet)] })] }
def intervalSet : Packet := pkt (bytes [5, 3] ++ fld 2 3 ++ fld 2 4 ++ bytes [0, 1, 2, 0, 0, 0] ++ fld 4 4096)

theorem witness_IntervalUnits : accepted cellsOn 1001 opSetInterval intervalSet ∧ ((measuring.ivl 6).enable = false ∧ (measuring.ivl 6).next = []) ∧
    ((measuring.ivl 7).enable = false ∧ (measuring.ivl 7).buf = [] ∧ (measuring.ivl 7).next = [(1008, laterSet)] ∧
      64 * 1008 ≤ 64 * ((measuring.moment 1043).time.si - 32)) ∧
    ((measuring.ivl 5).enable = true ∧ (measuring.ivl 5).buf = [] ∧ (measuring.ivl 5).starts = [begun] ∧ (measuring.ivl 5).pairing = false ∧
      begun.time + 64 * (measuring.ivl 5).maxSpan < 64 * ((measuring.moment 1043).time.si - 32) ∧
      64 * ((measuring.moment 1042).time.si - 32) ≤ begun.time + 64 * (measuring.ivl 5).maxSpan ∧ (measuring.ivl 5).next = [] ∧ (measuring.ivl 5).timeout ≤ 65535) := by
  refine ⟨accepted_of ?_, ?_⟩ <;> decide +kernel

def frameEntry (k : Nat) : FrameEntry := { frame := k, edges := [{ cell := 3, slot := 2, fine := 1, level := true }] }

/-- Block 2 holds three frames, block 5 one; block 3 discards from frame 602 on. -/
def buffered : State := { ready with
  time.si := 10000
  blocks := [
    (2, { entries := [frameEntry 600, frameEntry 601, frameEntry 602], fill := 4000000, drained := 625 }), (5, { entries := [frameEntry 624], fill := 100, drained := 624 }),
    (3, { entries := [frameEntry 600, frameEntry 601], fill := 262000, drained := 621, discardFrom := some 602 })]
  cap.runState := 1 }

theorem witness_BurstSramDiscardsEnd : (let at_ := fun (t : SI) => (buffered.moment t).boundary
    let y := fun (b : Nat) (t : SI) => ((buffered.moment t).advanceBlock b (at_ t - 1)).block b
    let free := fun (b : Nat) (t : SI) => ((y b t).drainTo (at_ t / 16)).1.fill + 65536 ≤ 262144
    let z := ((buffered.moment 10000).advanceBlock 2 (buffered.moment 10000).time.si).block 2
    ¬free 2 10000 ∧ (y 5 10000).discardFrom = none ∧ (free 3 200001 ∧ (y 3 200001).discardFrom = some 602) ∧
    (∀ e ∈ z.entries, e.frame < 700 ∨ 701 < e.frame) ∧ (∃ e ∈ z.entries, 601 ≤ e.frame ∧ e.frame ≤ 601)) := by
  decide +kernel

def someRec : Rec := { words := [0, 1] }

/-- Source 67,108,864 has an open segment, two segments are staged, region 1 has one to verify and discards. -/
def writing : State := { ready with
  data := { ready.data with
    sources := [(67108864, { opened := some { since := 980, flush := 64, items := [.plain someRec] } })]
    staging := [{ seg := { seg := 9, source := 67108864, items := [.plain someRec] } }, { seg := { seg := 8, source := 7, items := [.plain someRec] }, inDram := true }] }
  regions := [(1, { closed := [{ seg := { seg := 4, source := 3, items := [.plain someRec] }, waits := true }], discardFrom := some 50 }),
    (2, { closed := [{ seg := { seg := 4, source := 3, items := [.plain (recDoubtEnd 0 5 7)], form := 1, coded := stage1 [.plain (recDoubtEnd 0 5 7)] }
                       waits := true }] })] }

theorem witness_SegmentsCloseAndReachDram : (let x := fun (t : SI) => (writing.moment t).advanceBlocks
    let o : OpenSeg := { since := 980, flush := 64, items := [.plain someRec] }
    (((x 1001).data.source 67108864).opened = some o ∧ (x 1001).time.si < o.since + o.flush) ∧
    (((x 1064).data.source 67108864).opened = some o ∧ o.since + o.flush ≤ (x 1064).time.si ∧ o.items ≠ [] ∧ 4 ≤ srcClass 67108864 ∧
      ((x 1064).data.source 67108864).waiting = []) ∧
    (∀ c ∈ (writing.region 0).closed, c.waits = false) ∧ ((writing.region 1).closed.find? (fun y => y.waits)).isSome = true ∧
    ((writing.region 2).closed.find? (fun y => y.waits)).any (fun c => c.seg.verifies) = true ∧
    (x 1064).data.fill + 4194304 ≤ 67108864 ∧ ((x 1064).region 0).discardFrom = none ∧ ((x 1064).region 1).discardFrom = some 50 ∧
    (∀ g ∈ writing.data.staging, g.seg.seg = 8 → g.inDram = true) ∧
    (writing.data.staging.find? (fun y => y.seg.seg = 9 && !y.inDram)).isSome = true) ∧
    (let s : State := { writing with data.staging := List.replicate 1100 { seg := { seg := 9, items := [.plain { words := List.replicate 8000 0 }] } } }
     67108864 < (s.moment 1064).advanceBlocks.data.fill + 4194304) := by decide +kernel

def sampleAt : PendingSample :=
  { clock := 2, cfg := { clk := 3, slope := 0, setup := 4, hold := 5, ofs := 0, mask := 0xff }, time := 64 * 995, settle := false, coarse := false }
def reducing : State := { ready with cap.runState := 1, regions := [(1, { cfg := { statsOn := true, statLog2 := 6 }, statStart := 0, samples := [sampleAt] })] }

theorem witness_LoadsAndReductions : (let g := reducing.region 1
    let w := (g.statStart / 2 ^ (g.cfg.statLog2 + 4) + 1) * 2 ^ (g.cfg.statLog2 + 4)
    let due := ((sampleAt.time : Int) + sampleAt.cfg.ofs + sampleAt.cfg.hold).toNat / 1024 * 16 + 64
    let taken := fun (t : SI) => (((reducing.moment t).drainClocks 1 (reducing.moment t).boundary).region 1).samples
    g.clockBuf = [] ∧ ((∀ x ∈ taken 1055, x.clock ≠ 3) ∧ (taken 1055).find? (fun y => y.clock = 2) = some sampleAt ∧ (taken 1056).find? (fun y => y.clock = 2) = some sampleAt) ∧ (reducing.moment 1055).time.si < due ∧ due ≤ (reducing.moment 1056).time.si ∧
    (reducing.moment 1071).time.si < w + 48 ∧ g.cfg.statsOn = true ∧ reducing.cap.runState = 1 ∧ w + 48 ≤ (reducing.moment 1072).time.si) ∧
    ((writing.moment 3999999).time.si < writing.data.loadFrom + 4000000 ∧ writing.data.loadFrom + 4000000 ≤ (writing.moment 4000000).time.si) ∧
    (reducing.region 0).cfg.statsOn = false ∧ ready.cap.runState = 0 := by decide +kernel

def nopRow : OpcodeRow := { opcode := 0x0001, any := false, user := true, crypto := true, service := true, doubt := 1, sched := true }
def infoRow : OpcodeRow := { opcode := 0x0002, any := true, user := true, crypto := true, service := true, doubt := 1, sched := false }
def epochRow : OpcodeRow := { opcode := 0x0102, any := false, user := true, crypto := true, service := false, doubt := 0, sched := true }

theorem witness_PacketsAreRefusedInOrder : (nopRow ∈ opcodeRows ∧ packetCommand nopRow.opcode 1001 (pkt []) = some (.nop 1001 (pkt [])) ∧ quiet ready ∧
      (ready.ring 1).enable = true ∧ (ready.ring 1).stopped = false ∧ (ready.ring 1).cqLog2 ≠ 0 ∧ (pkt []).flags.toNat.testBit 0 = false) ∧
    (let p : Packet := { pkt [] with flags := 4 }
     ¬(p.reservedSet = false ∧ p.flags.toNat ≤ 1) ∧ p.flags.toNat.testBit 0 = false) ∧
    ((pkt []).reservedSet = false ∧ (pkt []).flags.toNat ≤ 1) ∧
    (¬nopRow.permits ((started 0).ring 1).role ∧ quiet (started 0)) ∧
    (infoRow ∈ opcodeRows ∧ infoRow.permits (ready.ring 1).role ∧ ({ pkt [] with atSt := 5 } : Packet).atSt ≠ 0 ∧ infoRow.sched = false) ∧
    (let s : State := { ready with safe.causes := 4 }
     epochRow ∈ opcodeRows ∧ epochRow.permits (s.ring 1).role ∧ (pkt []).atSt = 0 ∧ epochRow.opcode ≠ 0x0110 ∧ epochRow.doubt = 0 ∧ s.safe.causes ≠ 0 ∧ quiet s) := by
  refine ⟨⟨?_, ?_, ready_quiet, ?_⟩, ?_, ?_, ⟨?_, quiet_of ?_⟩, ⟨?_, ?_⟩, ?_, ?_, ?_, ?_, ?_, ?_, quiet_of ?_⟩ <;> (try unfold OpcodeRow.permits) <;> decide +kernel

def epochSet : Packet := pkt (fld 4 1000 ++ bytes [1, 8, 0, 0])
def label : Packet := pkt (zeros 8 ++ fld 5 77 ++ zeros 15)
def returns : Packet := pkt (fld 4 4000 ++ bytes [20, 0, 0, 0] ++ fld 4 5 ++ fld 4 0)
def trigoutSet : Packet := pkt (bytes [0x82] ++ zeros 7 ++ bytes [3, 7, 4, 0] ++ fld 4 100 ++ bytes [3, 7, 4, 0] ++ fld 4 100 ++ zeros 32 ++ bytes [3, 7, 4, 0] ++ fld 4 100 ++
  bytes [3, 7, 4, 0] ++ fld 4 100)
def policySet : Packet := pkt (bytes [3, 1, 15, 1] ++ zeros 4 ++ fld 8 1000 ++ fld 8 2000)
def routeSet : Packet := pkt (fld 4 0 ++ fld 4 4 ++ bytes [1, 0] ++ zeros 6)

/-- The commands that change a setting and nothing else. Every other command packet is shown to be accepted in the witness of the statement on its own
effect, further down. -/
theorem witness_AcceptedCommandsAreRecorded : (ready.ring 1).cqLog2 ≠ 0 ∧ accepted ready 1001 opNop (pkt []) ∧ accepted ready 1001 opSetEpoch epochSet ∧
    accepted ready 1001 opSetSt label ∧ accepted ready 1001 opSetReturn returns ∧ accepted cellsOn 1001 opSetThreshold thresholds ∧
    accepted cellsOn 1001 opSetInputMode inputModes ∧ accepted cellsOn 1001 opSetDeskew deskews ∧ accepted ready 1001 opSetInterval intervalSet ∧
    accepted ready 1001 opSetTrigout trigoutSet ∧ accepted ready 1001 opSetWindowPolicy policySet ∧
    accepted { ready with bob.tab := [(4, { sizeLog2 := 16, ringAddr := 4096 })], bob.routes := [(0, [4])] } 1001 opRoute routeSet := by
  refine ⟨?_, accepted_of ?_, accepted_of ?_, accepted_of ?_, accepted_of ?_, accepted_of ?_, accepted_of ?_, accepted_of ?_, accepted_of ?_, accepted_of ?_, accepted_of ?_,
    accepted_of ?_⟩ <;> decide +kernel

/-- SCRUB waits as job 9. -/
def waitingJob : Job := { id := 9, state := .queued, ctx := { opcode := 0x912, params := zeros 32, ring := 1, reply := some (1, 3) } }
def oneJob (j : Job) : State := { ready with cmd := { ready.cmd with jobs := [j] } }
/-- A job of another kind. -/
def jobOf (opcode : Nat) (st : JobState) (ps : List Byte) : Job := { waitingJob with state := st, ctx := { waitingJob.ctx with opcode := opcode, params := ps } }

/-- Job 9 waits and the log holds two entries. -/
def asked : State := { oneJob waitingJob with log := { ready.log with
  entries := [{ sequence := 2 ^ 40 + 5, body := {} }, { sequence := 2 ^ 40 + 6, body := {}, lost := true }], release := 2 ^ 40 + 5, count := 6 } }
def readEntries (release : Nat) : Packet := pkt (fld 8 (2 ^ 40 + 6) ++ fld 8 64 ++ fld 4 4 ++ bytes [release, 0, 0, 0])
def job9 : Packet := pkt (fld 4 9 ++ zeros 4)

theorem witness_QueriesAnswer : (asked.ring 1).cqLog2 ≠ 0 ∧
    (accepted asked 1001 opGetInfo (pkt (zeros 8)) ∧ pField (pkt (zeros 8)).params 0 1 = 0) ∧
    (accepted asked 1001 opGetInfo (pkt (bytes [1] ++ zeros 7)) ∧ pField (pkt (bytes [1] ++ zeros 7)).params 0 1 = 1) ∧
    (accepted asked 1001 opGetInfo (pkt (bytes [2] ++ zeros 7)) ∧ pField (pkt (bytes [2] ++ zeros 7)).params 0 1 = 2) ∧
    (accepted asked 1001 opJobStatus job9 ∧ asked.job (pField job9.params 0 4) = some waitingJob) ∧
    (accepted asked 1001 opReadLog (readEntries 0) ∧ (pField (readEntries 0).params 20 1).testBit 0 = false) ∧
    (accepted asked 1001 opReadLog (readEntries 1) ∧ (pField (readEntries 1).params 20 1).testBit 0 = true) := by
  refine ⟨?_, ⟨accepted_of ?_, ?_⟩, ⟨accepted_of ?_, ?_⟩, ⟨accepted_of ?_, ?_⟩, ⟨accepted_of ?_, ?_⟩, ⟨accepted_of ?_, ?_⟩, accepted_of ?_, ?_⟩ <;> decide +kernel

theorem witness_JobControl : (let j := { waitingJob with state := JobState.queued }
    ((oneJob j).ring 1).cqLog2 ≠ 0 ∧ (oneJob j).job (pField job9.params 0 4) = some j ∧ accepted (oneJob j) 1001 opJobSuspend job9 ∧
      accepted (oneJob j) 1001 opJobCancel job9 ∧ j.state = .queued ∧ j.ctx.opcode ≠ 0x0B10 ∧ j.ctx.opcode ≠ 0x0910) ∧
    (let j := { waitingJob with state := JobState.running }
     (oneJob j).job (pField job9.params 0 4) = some j ∧ accepted (oneJob j) 1001 opJobSuspend job9 ∧ accepted (oneJob j) 1001 opJobCancel job9 ∧ j.state = .running) ∧
    (let j := { waitingJob with state := JobState.suspended }
     (oneJob j).job (pField job9.params 0 4) = some j ∧ accepted (oneJob j) 1001 opJobResume job9 ∧ j.state = .suspended ∧ j.ctx.opcode ≠ 0x0410) ∧
    (let j := jobOf 0x0410 .suspended (fld 8 4096 ++ fld 4 64 ++ fld 2 100 ++ zeros 2)
     (oneJob j).job (pField job9.params 0 4) = some j ∧ accepted (oneJob j) 1001 opJobResume job9 ∧ j.state = .suspended ∧ j.ctx.opcode = 0x0410 ∧ j.fromQueued = false) ∧
    (let j := jobOf 0x0911 .queued (bytes [1, 0] ++ zeros 6)
     let s : State := { oneJob j with dram.ranks := [(4, { state := 4, logical := 2 })] }
     s.job (pField job9.params 0 4) = some j ∧ accepted s 1001 opJobCancel job9 ∧ j.state = .queued ∧ j.ctx.opcode = 0x0911 ∧
       (s.dram.rank (pField j.ctx.params 0 1) (pField j.ctx.params 1 1)).state = 4 ∧
       ((oneJob j).dram.rank (pField j.ctx.params 0 1) (pField j.ctx.params 1 1)).state ≠ 4) := by
  refine ⟨⟨?_, ?_, accepted_of ?_, accepted_of ?_, ?_⟩, ⟨?_, accepted_of ?_, accepted_of ?_, ?_⟩, ⟨?_, accepted_of ?_, ?_⟩, ⟨?_, accepted_of ?_, ?_⟩, ?_, accepted_of ?_, ?_⟩ <;>
    decide +kernel

theorem witness_JobsRunToTheirEnd : (let s := oneJob waitingJob
     quiet s ∧ s.job 9 = some waitingJob ∧ waitingJob.state = .queued ∧ waitingJob.ctx.opcode ∉ [0x0510, 0x0910, 0x0911, 0x0A10] ∧
       (∀ x ∈ s.cmd.jobs, x.ctx.opcode = waitingJob.ctx.opcode → x.id = 9) ∧ (∀ j, s.job 11 = some j → j.state ≠ .queued) ∧ (∀ j, s.job 9 = some j → j.state ≠ .running)) ∧
    (let s : State := { oneJob waitingJob with cmd.jobs := [waitingJob, { waitingJob with id := 10, state := .running }] }
     quiet s ∧ s.job 9 = some waitingJob ∧ ∃ x ∈ s.cmd.jobs, x.ctx.opcode = waitingJob.ctx.opcode ∧ x.id ≠ 9 ∧ x.state = .running) ∧
    (let j := { waitingJob with state := .running, suspendReq := [{ opcode := 0xC01, reply := some (1, 5) }] }
     let s := oneJob j
     quiet s ∧ s.job 9 = some j ∧ j.state = .running ∧ j.ctx.opcode ∉ [0x0910, 0x0B10] ∧ j.suspendReq ≠ [] ∧ j.cancelReq = [] ∧ s.safe.softBegun = false ∧
       j.ctx.opcode = 0x0912) ∧
    (let j := { waitingJob with state := .running, ctx := { waitingJob.ctx with opcode := 0x0211 }, suspendReq := [{ opcode := 0xC01, reply := some (1, 5) }] }
     quiet (oneJob j) ∧ (oneJob j).job 9 = some j ∧ j.ctx.opcode = 0x0211 ∧ 1001 % 1048576 ≠ 0 ∧ 1048576 % 1048576 = 0) ∧
    (let j := { waitingJob with state := .running, ctx := { waitingJob.ctx with opcode := 0x0210, params := fld 2 3 ++ fld 2 2 ++ zeros 28 } }
     quiet (oneJob j) ∧ (oneJob j).job 9 = some j ∧ j.state = .running ∧ pField j.ctx.params 4 1 ≠ 1 ∧ pField j.ctx.params 12 1 ≠ 1) := by
  refine ⟨⟨quiet_of ?_, ?_, ?_, ?_, ?_, all_of_none ?_, all_of_some (a := waitingJob) ?_ ?_⟩, ⟨quiet_of ?_, ?_⟩, ⟨quiet_of ?_, ?_⟩, ⟨quiet_of ?_, ?_⟩,
    quiet_of ?_, ?_⟩ <;> decide +kernel

/-- SCHEDULE of NOP, for one time or repeating. -/
def schedule (count period : Nat) : Packet :=
  pkt (fld 12 (2 ^ 90) ++ fld 4 count ++ fld 12 period ++ zeros 4 ++ fld 2 1 ++ fld 2 33 ++ fld 2 0 ++ fld 2 0 ++ fld 12 0 ++ zeros 44)
def entry : SchedEntry := { due := 0, accepted := 0, order := 4, packet := pkt [], opcode := 1, reply := some (1, 3) }
def planned (e : SchedEntry) : State := { ready with time := { ready.time with si := 100000 }, sched := { entries := [(0, e)], nextOrder := 5 } }

theorem witness_ScheduledCommands : (let now := fun (e : SchedEntry) => ((planned e).moment 100001).stNow ((planned e).moment 100001).boundary
    let runs := fun (e : SchedEntry) => e.due ≤ now e ∧ e.accepted + 80000 ≤ ((planned e).moment 100001).boundary ∧ ∀ x ∈ (planned e).sched.entries, e.order ≤ x.2.order
    (accepted (planned entry) 100001 opSchedule (schedule 1 0) ∧ accepted (planned entry) 100001 opSchedule (schedule 3 (2 ^ 50)) ∧
      ((planned entry).ring 1).cqLog2 ≠ 0 ∧ now entry < pField (schedule 1 0).params 0 12 ∧ now entry < pField (schedule 3 (2 ^ 50)).params 0 12) ∧
    (let e := { entry with due := 2 ^ 120 }
     accepted (planned e) 100001 opUnschedule (pkt (zeros 8)) ∧ pField (pkt (zeros 8)).params 0 1 = 0 ∧
       (planned e).sched.entries.filter (fun x => x.1 = pField (pkt (zeros 8)).params 4 2) = [(pField (pkt (zeros 8)).params 4 2, e)]) ∧
    (quiet (planned entry) ∧ tfind (planned entry).sched.entries 1 = none ∧ tfind (planned entry).sched.entries 0 = some entry ∧ runs entry ∧ entry.opcode = 0x0001 ∧
      (planned entry).log.canReserve 1 = true ∧ entry.repeats = false) ∧
    (let e := { entry with due := 2 ^ 120 }
     quiet (planned e) ∧ tfind (planned e).sched.entries 0 = some e ∧ now e < e.due) ∧
    (let e := { entry with repeats := true, count := 0, first := 0, period := 2 ^ 46 }
     quiet (planned e) ∧ tfind (planned e).sched.entries 0 = some e ∧ runs e ∧ e.repeats = true ∧ e.count = 0 ∧ 0 < e.period) ∧
    (let e := { entry with opcode := 0x0102, packet := epochSet }
     let s : State := { planned e with safe.causes := 2 }
     quiet s ∧ tfind s.sched.entries 0 = some e ∧ runs e ∧ e.opcode = 0x0102 ∧ e.repeats = false ∧ s.safe.causes ≠ 0)) := by
  refine ⟨⟨accepted_of ?_, accepted_of ?_, ?_⟩, ⟨accepted_of ?_, ?_⟩, ⟨quiet_of ?_, ?_⟩, ⟨quiet_of ?_, ?_⟩, ⟨quiet_of ?_, ?_⟩, quiet_of ?_, ?_⟩ <;> decide +kernel

/-- SET_REF: frequency, rate, SYN_MODE, TIME_SRC, REFOUT_DIV, EPOCH_OUT_W, EPOCH_IN_DELAY, TT_ASYM. -/
def refSet (freq rate mode src w : Nat) : Packet := pkt (fld 4 freq ++ fld 4 rate ++ bytes [mode, src, 0, w] ++ fld 4 5 ++ fld 4 6 ++ zeros 12)

/-- LOCKED to a 10 MHz reference, the last pulse at slot 990. -/
def locked : State := { ready with time := { ready.time with
  ref := { refFreq := 10000000 }, state := .locked, refValid := true, lastPulse := some (64 * 990), epoch := { nominal := some 10000000 }, refHz := 10000000 } }

theorem witness_TimeSettings : (let f := fun (p : Packet) => pField p.params
    let old := locked.time.ref
    let rate := fun (p : Packet) => if f p 4 4 = 0 then old.rateKhz else f p 4 4
    let relocks := fun (p : Packet) => rate p ≠ old.rateKhz ∨ ¬(f p 8 1 = 1 ↔ old.synMode = true)
    (accepted locked 1001 opSetRef (refSet 10000000 0 0 0 3) ∧ ¬relocks (refSet 10000000 0 0 0 3) ∧ f (refSet 10000000 0 0 0 3) 0 4 = old.refFreq ∧
      (f (refSet 10000000 0 0 0 3) 9 1 = 1 ↔ old.timeSrc = true)) ∧
    (accepted locked 1001 opSetRef (refSet 0 0 0 1 3) ∧ ¬relocks (refSet 0 0 0 1 3) ∧ f (refSet 0 0 0 1 3) 0 4 ≠ old.refFreq ∧
      ¬(f (refSet 0 0 0 1 3) 9 1 = 1 ↔ old.timeSrc = true)) ∧
    (accepted locked 1001 opSetRef (refSet 10000000 4100000 0 0 3) ∧ relocks (refSet 10000000 4100000 0 0 3)) ∧
    (accepted locked 1001 opSetEpoch (pkt (fld 4 10000000 ++ bytes [1, 8, 0, 0])) ∧ (f (pkt (fld 4 10000000 ++ bytes [1, 8, 0, 0])) 4 1 = 1) ∧
      locked.time.epoch.falling = false) ∧
    (accepted locked 1001 opSetEpoch (pkt (fld 4 10000000 ++ bytes [0, 8, 0, 0])) ∧ some (f (pkt (fld 4 10000000 ++ bytes [0, 8, 0, 0])) 0 4) = locked.time.epoch.nominal ∧
      f (pkt (fld 4 10000000 ++ bytes [0, 8, 0, 0])) 4 1 = 0)) ∧
    accepted locked 1001 opSetSt label ∧ accepted { locked with time.state := .free } 1001 opSetSt (pkt (bytes [1] ++ zeros 7 ++ fld 5 77 ++ zeros 3 ++ fld 12 (2 ^ 95))) ∧
    accepted locked 1001 opSetReturn returns := by
  refine ⟨⟨⟨accepted_of ?_, ?_⟩, ⟨accepted_of ?_, ?_⟩, ⟨accepted_of ?_, ?_⟩, ⟨accepted_of ?_, ?_⟩, accepted_of ?_, ?_⟩, accepted_of ?_, accepted_of ?_, accepted_of ?_⟩ <;>
    decide +kernel

theorem witness_ReferencePulses : (let off := fun (s : State) (cycles : Nat) => ((cycles : Int) - ((s.time.misses + 1) * 10000000 : Nat)).natAbs
    (true ≠ locked.time.epoch.falling ∧ locked.time.ref.timeSrc = false ∧ locked.safe.quiet = false ∧ false = locked.time.epoch.falling) ∧
    (let s : State := { locked with time.state := .free, time.lastPulse := none }
     s.time.state = .free ∧ s.time.refValid = true ∧ s.time.epoch.nominal ≠ none ∧ s.time.lastPulse = none) ∧
    (let s : State := { locked with time.state := .free, time.refValid := false }
     s.time.state = .free ∧ s.time.refValid = false) ∧
    (let s : State := { locked with time.state := .acquire, time.pulses := 4 }
     s.time.state = .acquire ∧ s.time.epoch.nominal = some 10000000 ∧ s.time.lastPulse ≠ none ∧ off s 10000001 ≤ s.time.epoch.tol) ∧
    (locked.time.state = .locked ∧ locked.time.epoch.nominal = some 10000000 ∧ locked.time.lastPulse ≠ none ∧ off locked 10000000 ≤ locked.time.epoch.tol) ∧
    (locked.time.state ≠ .free ∧ locked.time.epoch.tol < off locked 9000000 ∧ locked.time.slips = []) ∧
    (let s : State := { locked with time.misses := 2 }
     s.time.ref.timeSrc = false ∧ s.time.state ≠ .free ∧ s.time.lastPulse ≠ none ∧ s.time.epoch.nominal ≠ none ∧ s.time.misses = 2 ∧ s.time.state ≠ .coast) ∧
    (let hz := 9000000
     locked.time.ref.refFreq < ((hz : Int) - locked.time.ref.refFreq).natAbs * 10000) ∧
    (let hz := 10001000
     ¬(locked.time.ref.refFreq = 0 ∨ hz = 0 ∨ locked.time.ref.refFreq < ((hz : Int) - locked.time.ref.refFreq).natAbs * 10000)) ∧
    ¬(locked.time.ref.synMode = true ∧ locked.time.running = true) ∧
    (let s : State := { locked with time.ref.synMode := true }
     s.time.ref.synMode = true ∧ s.time.running = true) ∧
    locked.time.slew = none ∧
    (let s : State := { locked with time.slew := some { delta := 10 ^ 40, ppm := 20, startSi := 999, began := 999 } }
     s.time.slew ≠ none ∧ (s.moment 1001).time.remaining (s.moment 1001).boundary ≠ 0) ∧
    (let s : State := { locked with time.slew := some { delta := 0, ppm := 20, startSi := 900, began := 900 } }
     s.time.slew ≠ none ∧ (s.moment 1001).time.remaining (s.moment 1001).boundary = 0)) := by decide +kernel

def stepWaits : PendingStep := { cause := 0, delta := 77 }

theorem witness_AnchorsAndEpochs : (quiet locked ∧ 1001 % 1048576 ≠ 0) ∧
    (1048576 % 1048576 = 0 ∧ locked.time.running = true ∧ (locked.data.anchors.head?).map (fun e => e.1) ≠ some 1048576 ∧ locked.time.pending = none ∧
      locked.time.labelStep = none ∧ locked.time.tt.parentStep = none) ∧
    (let s : State := { locked with time.pending := some { stepWaits with target := some 999 }, time.tgen := 255, time.refoutOn := true, cap.runState := 1 }
     quiet s ∧ s.time.running = true ∧ (s.data.anchors.head?).map (fun e => e.1) ≠ some 1048576 ∧ s.time.pending = some { stepWaits with target := some 999 } ∧
       s.time.labelStep = none ∧ s.time.tt.parentStep = none) ∧
    (let p : PendingStep := { cause := 1, delta := -44, lock := some (1000, 5000) }
     let s : State := { locked with time.pending := some p, time.tgen := 25, time.state := .acquire }
     quiet s ∧ s.time.running = true ∧ (s.data.anchors.head?).map (fun e => e.1) ≠ some 1048576 ∧ s.time.pending = some p ∧
       s.time.labelStep = none ∧ s.time.tt.parentStep = none) ∧
    (locked.hk.enabled = false ∧ ready.time.reported ≠ 2) ∧
    (let s : State := { locked with time.ref.epochOutW := 3 }
     s.hk.enabled = false ∧ s.time.reported = 2 ∧ s.safe.causes = 0 ∧ s.time.ref.epochOutW ≠ 0) ∧
    locked.time.loopDue = none ∧ locked.time.epochOutHigh = false ∧
    (let s : State := { locked with time.epochOutHigh := true, time.epochOutUntil := 1100 }
     s.time.epochOutHigh = true ∧ (s.moment 1099).time.si < s.time.epochOutUntil ∧ s.time.epochOutUntil ≤ (s.moment 1100).time.si) := by
  refine ⟨⟨quiet_of ?_, ?_⟩, ?_, ⟨quiet_of ?_, ?_⟩, ⟨quiet_of ?_, ?_⟩, ?_⟩ <;> decide +kernel

/-- The first time-transfer message of a link, from unit 9. -/
def ttFirst : TtHeader := { origin := 9, linkSeq := 0 }

theorem witness_SynthesiserAndTransfer : (locked.time.running = true ∧ locked.time.gatedFrom = none ∧ locked.safe.causes = 0 ∧ State.reset.time.running = false ∧
      locked.startup.lateLock = false) ∧
    (let s : State := { locked with time.gatedFrom := some 900, safe.causes := 9 }
     s.time.gatedFrom ≠ none ∧ s.startup.lateLock = false) ∧
    (let s : State := { locked with time.gatedFrom := some 900, safe.causes := 9, startup.lateLock := true }
     s.time.gatedFrom ≠ none ∧ s.startup.lateLock = true) ∧
    ((TtMessage.request ttFirst 5).header = some ttFirst ∧ (locked.port 3).state ≠ 2 ∧ (locked.port 3).role ≠ 2) ∧
    (let s : State := { locked with cas.ports := [(3, { role := 2, state := 2 })] }
     (s.port 3).role = 2 ∧ (s.port 3).state = 2 ∧ ttFirst.linkSeq = nextSeq s 3 ∧ ttFirst.origin ≠ s.cas.unitId ∧ (s.port 3).queue = [] ∧
       (s.port 3).unacked.length < 64) ∧
    (let s : State := { locked with cas.ports := [(3, { role := 2, state := 2, rxValid := true, rxSeq := 7 })] }
     (s.port 3).state = 2 ∧ ¬ttFirst.linkSeq = nextSeq s 3) ∧
    ((∀ h fine, TtMessage.failed ≠ .request h fine) ∧ locked.cas.upPort ≠ some 3) ∧
    (let s : State := { locked with time.ref.timeSrc := true, cas.ports := [(3, { role := 1, state := 2 })], time.tt.failed := 1 }
     s.time.ref.timeSrc = true ∧ s.cas.upPort = some 3 ∧ s.time.tt.failed = 1 ∧ s.time.state = .locked ∧ (s.port 3).state = 2 ∧
       ttFirst.linkSeq = nextSeq s 3 ∧ ttFirst.origin ≠ s.cas.unitId) := by
  refine ⟨?_, ?_, ?_, ?_, ?_, ?_, ⟨fun _ _ => nofun, ?_⟩, ?_⟩ <;> decide +kernel

/-- LOAD_PATTERN into the sequencer 0 image: flags and sections. -/
def pattern (flags n : Nat) (sections : List Byte) : Packet := pkt (bytes [0, flags] ++ fld 2 n ++ zeros 4 ++ sections)
def oneStitch : List Byte := bytes [4, 0] ++ fld 2 96 ++ bytes [1, 0, 0, 0, 0, 0, 1] ++ zeros 89

theorem witness_PatternsAreLoaded : (ready.ring 1).cqLog2 ≠ 0 ∧
    (accepted ready 1001 opLoadPattern (pattern 0 0 []) ∧ pField (pattern 0 0 []).params 2 2 = 0 ∧ (pField (pattern 0 0 []).params 1 1).testBit 0 = false ∧
      (pField (pattern 0 0 []).params 1 1).testBit 1 = false) ∧
    accepted ready 1001 opLoadPattern (pattern 1 0 []) ∧ (accepted ready 1001 opLoadPattern (pattern 0 1 oneStitch) ∧ pField (pattern 0 1 oneStitch).params 2 2 ≠ 0) ∧
    (accepted ready 1001 opLoadPattern (pattern 3 1 oneStitch) ∧ (pField (pattern 3 1 oneStitch).params 1 1).testBit 1 = true) := by
  refine ⟨?_, ⟨accepted_of ?_, ?_⟩, accepted_of ?_, ⟨accepted_of ?_, ?_⟩, accepted_of ?_, ?_⟩ <;> decide +kernel

/-- A run is active and sequencer 0 has a pending program. -/
def running : State := { ready with cap.runState := 1, seq0 := { ready.seq0 with pendingOk := true, pendingId := 77, counters := [(1, 4)], tackNo := 5 } }
def armSet (flags : Nat) : Packet := pkt (bytes [0, flags, 0, 0] ++ fld 4 0)
def forceSet : Packet := pkt (bytes [0, 1, 3] ++ zeros 5)
/-- A run with a window policy 3, which FORCE_TACK names. -/
def forcing : State := { running with cap.policies := [(3, { valid := true, regions := 15 })] }

theorem witness_ArmDisarmAndForce : (accepted running 1001 opArm (armSet 1) ∧ running.seq0.armed = false) ∧
    (accepted { running with seq0.armed := true } 1001 opArm (armSet 3) ∧ accepted { running with seq0.armed := true } 1001 opDisarm (pkt (zeros 8)) ∧
      running.seq0.halted = false ∧ running.seq0.uneval = 0) ∧
    accepted running 1001 opDisarm (pkt (zeros 8)) ∧
    (accepted forcing 1001 opForceTack forceSet ∧ forcing.seq0.armed = false ∧ forcing.seq0.stopAt = none) ∧
    (let s : State := { forcing with seq0.armed := true, seq0.next := 900 }
     accepted s 1001 opForceTack forceSet ∧ s.seq0.armed = true ∧ s.seq0.halted = false ∧ s.seq0.stopAt = none ∧ s.seq0.uneval = 0 ∧
       s.seq0.next ≤ (s.moment 1001).boundary) ∧
    (accepted running 1001 opForceTack (pkt (zeros 8)) ∧ (pField (pkt (zeros 8)).params 1 1).testBit 0 = false ∧ (pField (pkt (zeros 8)).params 1 1).testBit 1 = false) := by
  refine ⟨⟨accepted_of ?_, ?_⟩, ⟨accepted_of ?_, accepted_of ?_, ?_⟩, accepted_of ?_, ⟨accepted_of ?_, ?_⟩, ⟨accepted_of ?_, ?_⟩, accepted_of ?_, ?_⟩ <;> decide +kernel

/-- Sequencer 0 evaluates slot 816 in the FRM cycle of frame 62, with the branches of stitch 0. -/
def always : Branch := { ctrl := 1, fire := 1, next := 3 }
def evaluating (l : List Branch) : State := { running with seq0 := { running.seq0 with
  armed := true, counters := [], active := { stitches := [(0, l)] }, next := 816, cycleFrame := 62 } }

theorem witness_SlotsAreEvaluated : (quiet running ∧ running.engines = [] ∧ running.cutEngines = [] ∧ running.seq0.armed = false ∧ running.seq0.stopAt = none ∧ running.seq1.armed = false ∧
      running.seq1.stopAt = none) ∧
    (let q := fun (l : List Branch) => (evaluating l).seq0
     let set := fun (l : List Branch) => (q l).armed = true ∧ (q l).halted = false ∧ (q l).stopAt = none ∧ (q l).uneval = 0 ∧ (q l).cycleFrame = (q l).next / 16 + 11 ∧
       (q l).cycleSlots < 32 ∧ (q l).cycleTrans < 4 ∧ 16 * (q l).cycleFrame ≤ ((evaluating l).moment 1001).time.si ∧ (q l).active.terms = [] ∧
       (q l).active.counters = [] ∧ (q l).counters = [] ∧ (q l).bastes = [] ∧ (q l).rearm = [] ∧ (q l).forced = []
     (quiet (evaluating []) ∧ (evaluating []).engines = [] ∧ (evaluating []).cutEngines = [] ∧ set [] ∧ (tfind (q []).active.stitches (q []).stitch).getD [] = []) ∧
     (quiet (evaluating [always]) ∧ set [always] ∧ (tfind (q [always]).active.stitches (q [always]).stitch).getD [] = [always] ∧ always.ctrl.testBit 0 = true ∧
       (∀ u ∈ always.terms, u.testBit 7 = false) ∧ always.fire = 1 ∧ always.ctrOp = 0 ∧ always.tmrOp = 0 ∧ always.drive = 0 ∧ always.misc = 0 ∧
       (q [always]).holdFrom = none)) := by
  refine ⟨⟨quiet_of ?_, ?_⟩, ⟨quiet_of ?_, ?_⟩, quiet_of ?_, ?_⟩ <;> decide +kernel

theorem witness_PinEdgesAndShutdowns : ({ running with seq0.armed := true } : State).seq0.armed = true ∧ (quiet running ∧ running.seq0.stopAt = none) ∧
    (let s : State := { running with seq0.stopAt := some 960, seq0.next := 950 }
     quiet s ∧ s.seq0.stopAt = some 960 ∧ s.seq0.uneval = 0 ∧ s.seq0.halted = false ∧ s.seq0.next < 960) ∧
    (let s : State := { running with seq0.stopAt := some 960, seq0.next := 960 }
     quiet s ∧ s.seq0.stopAt = some 960 ∧ 960 ≤ s.seq0.next ∧ s.seq0.armed = false ∧ s.seq0.halted = false ∧ s.seq0.uneval = 0 ∧ s.seq0.bastes = [] ∧
       s.seq0.forced = [] ∧ s.seq0.rearm = [] ∧ s.cmd.deferredArm = none) ∧
    (let c : Ctx := { opcode := 0x310, params := zeros 8, reply := some (1, 9), ring := 1 }
     let s : State := { running with seq0.stopAt := some 960, seq0.next := 960, cmd.deferredArm := some c }
     quiet s ∧ s.cmd.deferredArm = some c ∧ pField c.params 1 1 = 0 ∧ pField c.params 4 4 = 0 ∧ s.cap.runState = 1 ∧ s.safe.causes = 0 ∧ c.origin.kind = 0 ∧
       s.cas.role ≠ 2) ∧ ({ running with cas.ports := [(3, { role := 1, state := 2 })], cas.localArm := true } : State).cas.role = 2 := by
  refine ⟨?_, ⟨quiet_of ?_, ?_⟩, ⟨quiet_of ?_, ?_⟩, ⟨quiet_of ?_, ?_⟩, ⟨quiet_of ?_, ?_⟩, ?_⟩ <;> decide +kernel

/-- Pin 1 of TRIG_OUT. -/
def withPin (o : TrigOut) : State := { running with pins.out := [(1, o), (2, { active := true })] }
def pulse : DuePulse := { at_ := 1000, aligned := false, late := true, baste := some (1, 2) }
def owed : Basted := { key := (1, 2), began := 900, fin := 950, at_ := 1000 }

theorem witness_TriggerOutputs : (let b := fun (s : State) => (s.moment 1001).boundary
    (accepted (withPin {}) 1001 opSetTrigout trigoutSet ∧ (pField trigoutSet.params 0 1).testBit 1 = true) ∧
    (let s : State := { withPin {} with safe.causes := 1 }
     s.safe.causes ≠ 0) ∧
    (let s := withPin { width := 4, due := [{ pulse with at_ := 1009 }] }
     (s.out 1).guardUntil ≤ b s ∧ ∀ e ∈ (s.out 1).due, b s < e.at_) ∧
    (let s := withPin { width := 4, due := [pulse] }
     s.safe.causes = 0 ∧ (s.out 1).due = [pulse] ∧ pulse.at_ ≤ b s ∧ (s.out 1).guardUntil ≤ b s ∧ (s.out 1).active = false ∧ (s.out 1).cancels = []) ∧
    (let s := withPin { width := 4, due := [pulse], guardUntil := 1040 }
     s.safe.causes = 0 ∧ (s.out 1).cancels = [] ∧ b s < (s.out 1).guardUntil) ∧
    (let s := withPin { width := 4, due := [pulse], cancels := [owed], until_ := 1000 }
     let from_ := max (max owed.at_ (if 0 < (s.out 1).until_ then (s.out 1).until_ + 32 else 0)) (s.out 1).guardUntil
     s.safe.causes = 0 ∧ (s.out 1).cancels = [owed] ∧ from_ ≤ b s + 32 ∧ b s < from_) ∧
    (let s := withPin { width := 4, due := [pulse], active := true, until_ := b (withPin {}) }
     (s.out 1).due = [pulse] ∧ pulse.at_ ≤ b s ∧ (s.out 1).guardUntil ≤ b s ∧ (s.out 1).active = true ∧ (s.out 1).until_ ≤ b s) ∧
    (let s := withPin { active := true, until_ := b (withPin {}) + 1 }
     b s < (s.out 1).until_) ∧
    (let s := withPin { active := true, until_ := b (withPin {}) }
     (s.out 1).active = true ∧ (s.out 1).until_ ≤ b s) ∧
    (let s := withPin { width := 4, cancels := [owed], until_ := 970, shown := [{ owed with began := 960 }] }
     let from_ := max (max owed.at_ (if 0 < (s.out 1).until_ then (s.out 1).until_ + 32 else 0)) (s.out 1).guardUntil
     s.safe.causes = 0 ∧ (s.out 1).cancels = [owed] ∧ from_ ≤ b s ∧ (s.out 1).active = false ∧ ∃ e ∈ (s.out 1).shown, owed.began < e.began) ∧
    (let s := withPin { width := 4, cancels := [owed], until_ := 970, shown := [{ owed with began := 800 }] }
     ∀ e ∈ (s.out 1).shown, e.began ≤ owed.began)) := by
  refine ⟨⟨accepted_of ?_, ?_⟩, ?_⟩ <;> decide +kernel

/-- Unit 5 at depth 1 with the given ports. -/
def linked (l : List (Nat × Port)) : State := { ready with cas := { ready.cas with ports := l, unitId := 5, depth := 1 } }

theorem witness_UnitAndPortRoles : accepted (linked []) 1001 opSetUnit (pkt (fld 2 77 ++ bytes [15, 3] ++ zeros 4)) ∧
    accepted (linked [(0, { role := 1, state := 2 }), (1, { role := 2, state := 2 })]) 1001 opSetPortRole (pkt (fld 4 (1 + 4 * 2) ++ zeros 4)) ∧
    (let s := linked [(0, { role := 1, state := 2 }), (1, { role := 2, state := 2 })]
     let p := pkt (fld 4 (2 + 4 * 2) ++ zeros 4)
     accepted s 1001 opSetPortRole p ∧ (∀ n, n < 16 → pField p.params 0 4 / 4 ^ n % 4 ≠ 1) ∧ ∀ n, 16 ≤ n → (s.port n).role ≠ 1) := by
  refine ⟨accepted_of ?_, accepted_of ?_, accepted_of ?_, ?_, fun n h => ?_⟩
  · decide +kernel
  · decide +kernel
  · decide +kernel
  · decide +kernel
  · have h0 : ¬(0 = n) := by omega
    have h1 : ¬(1 = n) := by omega
    simp [State.port, linked, tfind, h0, h1]

/-- An IDLE block that acknowledges message 4. -/
def idleFrom (r : Fin 4) (d : Fin 8) : IdleBlock := { ackSeq := 4, ackValid := true, nak := false, role := r, unitId := 9, depth := d }
def casMsg : CasMsg := { flags := 1, origin := 9, dir := 1, linkSeq := 0, a := 0, b := 0, c := 0, d := 3 }
def sentMsg (n : Nat) : OutMsg := { type := 8, msg := { casMsg with linkSeq := BitVec.ofNat 8 n }, cls := 1 }
def training : Port := { role := 1, state := 1, blockLock := true }
def upPort : Port := { role := 1, state := 2, blockLock := true, unacked := [sentMsg 3, sentMsg 4, sentMsg 5] }

/-- A port that has received and sent fifteen IDLEs. -/
def trainedPort : Port := { training with idles := 15, idle := (linked [(3, training)]).idleWord 3, idlesTx := 15 }

theorem witness_CascadeLinks_comesUp : (let s := linked [(3, trainedPort)]
    let p := s.port 3
    p.role ≠ 0 ∧ p.blockLock = true ∧ p.fell = false ∧ p.state ≠ 2 ∧ p.role + (idleFrom 2 3).role.val = 3 ∧ (idleFrom 2 3).depth.val ≤ 3 ∧ 15 ≤ p.idles ∧
      p.idle = s.idleWord 3 ∧ 16 ≤ p.idlesTx + 1 ∧ p.queue = []) := by decide +kernel

theorem witness_CascadeLinks_cutThrough : (let s := linked [(3, upPort), (4, { role := 2, state := 2 })]
    let m : CasMsg := casMsg
    (s.port 3).state = 2 ∧ (s.port 3).role ≠ 0 ∧ (s.port 3).lockLostAt = none ∧ 4 ∈ s.routes m ∧ (s.port 4).state = 2 ∧ (s.port 4).queue = [] ∧
      (s.port 4).unacked.length < 64) := by decide +kernel

theorem witness_CascadeLinks : (let trains := fun (p : Port) => p.role ≠ 0 ∧ p.blockLock = true ∧ p.fell = false ∧ p.state ≠ 2
    let roles := fun (p : Port) (w : IdleBlock) => (w.role.val = 1 ∨ w.role.val = 2) ∧ p.role + w.role.val = 3
    ((linked []).port 3).role = 0 ∧ ((linked []).port 3).blockLock = false ∧ ((linked [(3, training)]).port 3) = training ∧
    (trains training ∧ ¬roles training (idleFrom 1 0)) ∧ (roles training (idleFrom 2 4) ∧ 3 < (idleFrom 2 4).depth.val ∧ (idleFrom 2 4).depth.val ≠ 7) ∧
    (roles training (idleFrom 2 7) ∧ (idleFrom 2 7).depth.val = 7) ∧
    (roles training (idleFrom 2 3) ∧ (idleFrom 2 3).depth.val ≤ 3 ∧ { training with idles := 14 }.idles < 15) ∧
    (upPort.role ≠ 0 ∧ upPort.blockLock = true ∧ upPort.fell = false ∧ upPort.state = 2 ∧ (idleFrom 2 3).nak = false ∧ upPort.queue = [] ∧ (idleFrom 2 3).ackValid = true ∧
      upPort.unacked = [sentMsg 3] ++ sentMsg 4 :: [sentMsg 5] ∧ (sentMsg 4).msg.linkSeq = (idleFrom 2 3).ackSeq ∧
      (∀ y ∈ [sentMsg 3], y.msg.linkSeq ≠ (idleFrom 2 3).ackSeq) ∧ upPort.unacked ≠ [] ∧ upPort.sameRetry < 15 ∧ 15 ≤ { upPort with sameRetry := 15 }.sameRetry) ∧
    (let s := linked [(3, { upPort with lockLostAt := some 0 })]
     (s.port 3).state = 2 ∧ 0 + slotsOfNs s.time.ref.rateKhz 1000 ≤ (s.moment 5000).time.si ∧
       (s.port 3).ackAt + slotsOfNs s.time.ref.rateKhz 2000 ≤ (s.moment 10000).time.si) ∧
    ({ linked [(3, { upPort with role := 2 })] with cas.depth := 4 } : State).cas.depth = 4 ∧
    (({ upPort with unacked := [{ type := 7, msg := { casMsg with flags := 0 }, cls := 0 }] } : Port).unacked.any (fun m => m.type = 7 && m.msg.flags = 0)) = true ∧
    { upPort with state := 5, fell := true }.fell = true ∧ training.state ≠ 2) := by decide +kernel

theorem witness_MessagesOutOfOrder : Instr.discover 1001 3 casMsg ∈ [Instr.armMessage 1001 3 casMsg, .disarmMessage 1001 3 casMsg, .fire 1001 3 casMsg,
      .basteMessage 1001 3 casMsg, .sewMessage 1001 3 casMsg, .unpickMessage 1001 3 casMsg, .discover 1001 3 casMsg, .report 1001 3 casMsg, .armResult 1001 3 casMsg,
      .isolated 1001 3 casMsg, .rejoined 1001 3 casMsg, .doubtMessage 1001 3 casMsg] ∧ ((linked []).port 3).state ≠ 2 ∧
    (let p : Port := { upPort with rxValid := true, rxSeq := 3 }
     p.state = 2 ∧ casMsg.linkSeq ≠ nextSeq (linked [(3, p)]) 3) ∧
    (upPort.state = 2 ∧ (7 : BitVec 8) ≠ nextSeq (linked [(3, upPort)]) 3) := by decide +kernel

/-- Port 3 upstream, port 4 downstream. -/
def between : State := linked [(3, { role := 1, state := 2 }), (4, { role := 2, state := 2 })]
def dueCmd (arm : Bool) : CasCmd := { arm := arm, due := 0, number := 3, master := 9 }
def farMsg : CasMsg := { casMsg with a := 1, b := 0xffffffffffffffff, c := 0xffffffff }

theorem witness_CascadeCommands : (takesMessage between 4 casMsg ∧ (between.port 4).role ≠ 1) ∧
    (takesMessage between 3 farMsg ∧ (between.port 3).role = 1 ∧ farMsg.origin ≠ between.cas.unitId ∧
      ¬(16 ≤ (between.moment 1001).boundary ∧ CasMsg.st farMsg ≤ (between.moment 1001).stNow ((between.moment 1001).boundary - 16)) ∧
      between.cas.commands.length < 8 ∧ between.log.canReserve 1 = true) ∧
    (takesMessage between 3 casMsg ∧ casMsg.origin ≠ between.cas.unitId ∧ 16 ≤ (between.moment 1001).boundary ∧
      CasMsg.st casMsg ≤ (between.moment 1001).stNow ((between.moment 1001).boundary - 16)) ∧
    (quiet between ∧ ∀ y ∈ between.cas.commands, (between.moment 1001).stNow (between.moment 1001).boundary < y.due) ∧
    (let s : State := { between with cas.commands := [dueCmd false], seq0.armed := true }
     quiet s ∧ s.cas.commands = [dueCmd false] ∧ (dueCmd false).due ≤ (s.moment 1001).stNow (s.moment 1001).boundary ∧ (dueCmd false).arm = false ∧
       s.seq0.armed = true ∧ s.seq0.halted = false ∧ s.seq0.uneval = 0) ∧
    (let s : State := { between with cas.commands := [dueCmd true], cap.runState := 1 }
     quiet s ∧ s.cas.commands = [dueCmd true] ∧ (dueCmd true).due ≤ (s.moment 1001).stNow (s.moment 1001).boundary ∧ (dueCmd true).arm = true ∧
       (dueCmd true).load = false ∧ s.safe.causes = 0 ∧ s.cap.runState = 1 ∧ s.seq0.stopAt = none ∧ s.seq0.armed = false ∧ s.seq0.halted = false) ∧
    (let s : State := { between with cas.commands := [dueCmd true], safe.causes := 3 }
     quiet s ∧ s.cas.commands = [dueCmd true] ∧ (dueCmd true).arm = true ∧ s.safe.causes ≠ 0) ∧ between.cas.role = 2 ∧
    (let s := linked [(4, { role := 2, state := 2 })]
     takesMessage s 4 casMsg ∧ s.cas.role ≠ 2 ∧ casMsg.origin ≠ s.cas.unitId) ∧
    (let s := linked [(4, { role := 2, state := 2 })]
     takesMessage s 4 { casMsg with origin := 5 } ∧ s.cas.role ≠ 2 ∧ ({ casMsg with origin := 5 } : CasMsg).origin = s.cas.unitId) := by
  refine ⟨⟨?_, ?_⟩, ⟨?_, ?_⟩, ⟨?_, ?_⟩, ⟨quiet_of ?_, ?_⟩, ⟨quiet_of ?_, ?_⟩, ⟨quiet_of ?_, ?_⟩, ⟨quiet_of ?_, ?_⟩, ?_, ⟨?_, ?_⟩, ?_, ?_⟩ <;> (try unfold takesMessage) <;>
    decide +kernel

def basted (n st : Nat) : RemoteBaste := { origin := 9, number := n, st := st, tgen := 0, a := 0, si := 500, fine := 0 }

theorem witness_FiresAndRemoteBastes : (takesMessage between 3 casMsg ∧ delivers between casMsg ∧ between.cas.remote.length < 256 ∧ between.cap.runState ≠ 1) ∧
    (takesMessage between 3 { casMsg with origin := 5 } ∧ ¬delivers between { casMsg with origin := 5 }) ∧
    (let s : State := { between with cas.remote := (List.range 256).map (fun n => basted (100 + n) 0) }
     takesMessage s 3 casMsg ∧ delivers s casMsg ∧ 256 ≤ s.cas.remote.length) ∧
    between.cas.remote.find? (fun r => decide (r.origin = 9 ∧ r.number = 3)) = none ∧
    (let s : State := { between with cap.runState := 1, cas.remote := [basted 3 (2 ^ 96)] }
     s.cas.remote.find? (fun r => decide (r.origin = 9 ∧ r.number = 3)) = some (basted 3 (2 ^ 96)) ∧
       (s.moment 1001).stNow (s.moment 1001).boundary < (s.moment 1001).expiry (basted 3 (2 ^ 96))) ∧
    (let s : State := { between with cap.runState := 1, cas.remote := [basted 3 0], time.si := 10 ^ 13 }
     s.cas.remote.find? (fun r => decide (r.origin = 9 ∧ r.number = 3)) = some (basted 3 0) ∧
       (s.moment 1001).expiry (basted 3 0) ≤ (s.moment 1001).stNow (s.moment 1001).boundary) := by
  refine ⟨⟨?_, ?_, ?_⟩, ⟨?_, ?_⟩, ⟨?_, ?_, ?_⟩, ?_⟩ <;> (try unfold takesMessage) <;> (try unfold delivers) <;> decide +kernel

/-- CASCADE_DISCOVER runs. -/
def discovering : Job := { id := 2, state := .running, ctx := { opcode := 0x410, params := fld 8 4096 ++ fld 4 64 ++ fld 2 100 ++ zeros 2 } }

theorem witness_TreeMessages : (let s := linked [(3, { role := 1, state := 2 })]
     takesMessage s 3 casMsg ∧ (s.port 3).role = 1 ∧ s.cas.upPort = some 3 ∧ s.cas.downPorts = [] ∧ (s.port 3).queue = [] ∧ (s.port 3).unacked.length < 64 ∧ s.cas.role = 2 ∧
       (s.port 3).linkDoubt = 0 ∧ delivers s casMsg ∧ casMsg.flags.getLsbD 0 = true ∧ ({ casMsg with flags := 0 } : CasMsg).flags.getLsbD 0 = false) ∧
    (let s := linked [(3, { role := 2, state := 2 })]
     takesMessage s 3 casMsg ∧ (s.port 3).role ≠ 1 ∧ s.cas.role ≠ 2 ∧ s.discovery = none) ∧
    (let s : State := { linked [(3, { role := 2, state := 2 })] with cmd.jobs := [discovering] }
     takesMessage s 3 casMsg ∧ s.cas.role ≠ 2 ∧ s.discovery = some discovering ∧ discovering.state = .running ∧ 16 * (s.cas.discoverWritten + 1) ≤ pField discovering.ctx.params 8 4) ∧
    (let s : State := { linked [(3, { role := 2, state := 2 })] with cmd.jobs := [{ discovering with state := .suspended }] }
     takesMessage s 3 casMsg ∧ s.cas.role ≠ 2 ∧ s.discovery = some { discovering with state := .suspended }) ∧
    (let s := linked [(3, { role := 1, state := 2, linkDoubt := 2 })]
     takesMessage s 3 casMsg ∧ (s.port 3).role = 1 ∧ (s.port 3).linkDoubt = 2) ∧
    (let s := linked [(3, { role := 1, state := 2 })]
     let m : CasMsg := { casMsg with origin := 5 }
     takesMessage s 3 m ∧ (s.port 3).role = 1 ∧ m.origin = s.cas.unitId) ∧
    (takesMessage between 3 { casMsg with origin := 5 } ∧ ¬delivers between { casMsg with origin := 5 }) := by
  refine ⟨⟨?_, ?_, ?_, ?_, ?_, ?_, ?_, ?_, ?_, ?_⟩, ⟨?_, ?_⟩, ⟨?_, ?_⟩, ⟨?_, ?_⟩, ⟨?_, ?_⟩, ⟨?_, ?_⟩, ?_, ?_⟩ <;> (try unfold takesMessage) <;> (try unfold delivers) <;> decide +kernel

/-- SET_REDUCTION: region, kind, enable, number, then the body. -/
def reductionSet (region kind on n : Nat) (body : List Byte) : Packet := pkt (bytes [region, kind, on, n, 0, 0, 0, 0] ++ body)
def lookbackSet : Packet := pkt (fld 4 40 ++ fld 4 4 ++ bytes [16, 16, 16, 16, 50] ++ zeros 11)

theorem witness_ReductionSettings : accepted ready 1001 opSetReduction (reductionSet 1 0 1 0 (bytes [3] ++ zeros 7)) ∧
    accepted ready 1001 opSetReduction (reductionSet 255 1 1 2 (bytes [3, 0] ++ fld 2 5 ++ fld 2 6 ++ fld 2 65535 ++ zeros 8 ++ bytes [255] ++ zeros 31)) ∧
    accepted ready 1001 opSetReduction (reductionSet 2 2 1 0 (bytes [20] ++ zeros 7 ++ bytes [255] ++ zeros 31)) ∧
    accepted ready 1001 opSetReduction (reductionSet 3 3 1 0 (fld 2 5 ++ zeros 6)) ∧
    accepted { ready with dram.free := 64 } 1001 opSetLookback lookbackSet ∧ accepted ready 1001 opSetWindowPolicy policySet := by
  refine ⟨accepted_of ?_, accepted_of ?_, accepted_of ?_, accepted_of ?_, accepted_of ?_, accepted_of ?_⟩ <;> decide +kernel

/-- Rings of history are set up; a run that ended at slot 900 shuts down. -/
def history : State := { ready with cells := [(3, { enable := true, level := true })], cap.lbGib := 4, cap.redGib := 1 }
def stopping : State := { history with cap.runState := 2, cap.runB := 64, cap.runE := 900, log := { history.log with reserved := 2 } }

theorem witness_RunsStartAndStop : (accepted history 1001 opStartRun (pkt (fld 4 7 ++ zeros 4)) ∧ (history.moment 1001).boundary % 1048576 ≠ 0) ∧
    (accepted history 1001 opStopRun (pkt (zeros 8)) ∧ history.cap.runState ≠ 1) ∧
    (let s : State := { history with cap.runState := 1, cap.runB := 64, seq0.armed := true }
     accepted s 1001 opStopRun (pkt (zeros 8)) ∧ s.cap.runState = 1 ∧ s.seq0.uneval = 0 ∧ s.seq0.halted = false) ∧
    (quiet history ∧ history.cap.runState ≠ 2) ∧
    (let s : State := { stopping with cap.runE := 938 }
     s.cap.runState = 2 ∧ (s.moment 1001).time.si < s.cap.runE + 64) ∧
    (quiet stopping ∧ stopping.cap.runState = 2 ∧ stopping.seq0.stopAt = none ∧ stopping.cap.runE + 64 ≤ (stopping.moment 1001).time.si ∧ stopping.cap.flushed = false ∧
      stopping.cmd.deferredStart = none) ∧
    (let s : State := { stopping with cap.flushed := true, data := { stopping.data with staging := [{ seg := { source := 0 }, inDram := false }] } }
     quiet s ∧ s.cap.flushed = true ∧ s.runDrained = false) ∧
    (let s : State := { stopping with cap.flushed := true }
     quiet s ∧ s.cap.flushed = true ∧ s.runDrained = true ∧ s.streams = [] ∧ s.cmd.deferredStart = none) := by
  refine ⟨⟨accepted_of ?_, ?_⟩, ⟨accepted_of ?_, ?_⟩, ⟨accepted_of ?_, ?_⟩, ⟨quiet_of ?_, ?_⟩, ?_, ⟨quiet_of ?_, ?_⟩, ⟨quiet_of ?_, ?_⟩, quiet_of ?_, ?_⟩ <;>
    decide +kernel

/-- A window of policy 3 over region 0, open in slot 2, with one segment in history. -/
def exportSet : Packet := pkt (fld 8 160 ++ fld 8 320 ++ bytes [3, 15, 1] ++ zeros 13)
def kept : Seg := { seg := 7, source := 0, items := [.plain { words := [0, 1], span := some (200, 210) }] }
def part : WPart := { region := 0, red := 0, start := 160, pos := 160 }
def window : WSlot := { state := 2, policy := 3, opened := true, regions := 1, id := 8, reqStart := 160, reqEnd := 400, parts := [part], runB := 64 }
def exporting (w : WSlot) : State := { history with
  time := { history.time with si := 100000 }
  cap := { history.cap with runState := 1, runB := 64, policies := [(3, { valid := true, regions := 1 })], slots := [(2, w)] }
  data := { history.data with lookback := [(0, { segs := [kept] })] }
  bob := { history.bob with tab := [(0, { sizeLog2 := 20, ringAddr := 4096 })], routes := [(winSource 3, [0])] } }

theorem witness_WindowsAreDelivered : (let s := exporting window
     let cut := kept.windowCut window part (Config.lz4Block s.freeCtr)
     accepted s 100001 opExportWindow exportSet ∧ s.cmd.jobs.any (fun j => j.ctx.opcode = 0x0510 && j.state = .queued) = false ∧ s.cap.freeSlot = some 0 ∧ quiet s ∧
       s.cap.slot 2 = some window ∧ 2 ≤ window.state ∧ window.exportJob = none ∧ window.opened = true ∧ window.parts[0]? = some part ∧ part.lost = [] ∧
       s.nextHistory window part = some kept ∧ cut.items ≠ [] ∧ s.dram.foundIn (s.segAccesses kept) {} = .clean ∧
       cut.uncompLen ≤ payloadMax ∧ (s.moment 100001).windowRoom window.policy cut.len = true ∧
       ¬(window.parts.all ((s.moment 100001).partDone window) = true)) ∧
    (let s : State := { exporting window with cmd.jobs := [{ id := 3, ctx := { opcode := 0x510 } }] }
     accepted s 100001 opExportWindow exportSet ∧ s.cmd.jobs.any (fun j => j.ctx.opcode = 0x0510 && j.state = .queued) = true) ∧
    (let w := { window with state := 1 }
     quiet (exporting w) ∧ ∀ v, (exporting w).cap.slot 2 = some v → v.state < 2) ∧
    (let w := { window with parts := [{ part with read := [(0, 8)] }] }
     let s := exporting w
     quiet s ∧ s.cap.slot 2 = some w ∧ w.parts[0]? = some { part with read := [(0, 8)] } ∧ s.nextHistory w { part with read := [(0, 8)] } = none) ∧
    (let s : State := { exporting window with bob := { tab := [(0, { sizeLog2 := 8, ringAddr := 4096, wr := 250 })], routes := [(winSource 3, [0])] } }
     quiet s ∧ s.nextHistory window part = some kept ∧
       (s.moment 100001).windowRoom window.policy (kept.windowCut window part (Config.lz4Block s.freeCtr)).len = false) ∧
    (let w := { window with parts := [] }
     let s := exporting w
     quiet s ∧ s.cap.slot 2 = some w ∧ 2 ≤ w.state ∧ w.exportJob = none ∧ w.parts.all ((s.moment 100001).partDone w) = true ∧
       (s.moment 100001).windowRoom w.policy 256 = true) := by
  refine ⟨⟨accepted_of ?_, ?_, ?_, quiet_of ?_, ?_⟩, ⟨accepted_of ?_, ?_⟩, ⟨quiet_of ?_, all_of_some (a := { window with state := 1 }) ?_ ?_⟩, ⟨quiet_of ?_, ?_⟩,
    ⟨quiet_of ?_, ?_⟩, quiet_of ?_, ?_⟩ <;> decide +kernel

/-- SET_DECODER for engine 4 as UART; engines 5 to be tested. -/
def inputWord (n : Nat) : List Byte := fld 2 (0x8000 + n)
def decoderSet (gang on : Nat) : Packet :=
  pkt (bytes [4, on, 7, gang] ++ fld 2 3 ++ fld 2 4 ++ fld 2 5 ++ zeros 6 ++ inputWord 3 ++ zeros 10 ++ inputWord 7 ++ zeros 114 ++ bytes [1] ++ zeros 31)
def withEngine (e : Engine) : State := { ready with engines := [(5, e)], time := { ready.time with si := 100000 } }
def laneEngine : Engine := { enable := true, protocol := 6, inputs := [some 3], body := fld 4 1000000 ++ bytes [0, 8, 0xbc, 0, 0] ++ zeros 23
                             st := { lock := true, last := 6000000, period := 65536 * 100, boundary := 10 ^ 15 } }
def busEngine : Engine := { enable := true, protocol := 2, inputs := [some 3, some 4], body := bytes [0, 1, 25] ++ zeros 29, st := { inMsg := true, t0 := 64 }
                            base := [false, true] }

theorem witness_DecodersWork : (accepted ready 1001 opSetDecoder (decoderSet 1 1) ∧ accepted ready 1001 opSetDecoder (decoderSet 4 1) ∧ (ready.region 0).past = []) ∧
    (({} : Engine).works = false ∧ ({} : Engine).done = []) ∧ (({ done := [{}] } : Engine).works = false ∧ ({ done := [{}] } : Engine).done = [{}]) ∧
    (let e : Engine := { enable := true, protocol := 0, done := [{}] }
     e.works = true ∧ e.done = [{}] ∧ e.protocol ≠ 6 ∧ e.protocol ≠ 2) ∧
    (let s := withEngine laneEngine
     s.engine 5 = laneEngine ∧ laneEngine.protocol = 6 ∧ laneEngine.works = true ∧ laneEngine.buf = [] ∧ laneEngine.ready = [] ∧
       (laneEngine.lanePoint.any (fun q => q.2 && decide (q.1 < 64 * ((s.moment 100001).time.si + 1)))) = true) ∧
    (let s : State := { withEngine busEngine with time.si := 200000000 }
     s.engine 5 = busEngine ∧ busEngine.protocol = 2 ∧ busEngine.works = true ∧ busEngine.buf = [] ∧ busEngine.ready = [] ∧ busEngine.fresh = [] ∧
       ((busEngine.i2cPoint s.time.hz).any (fun q => decide (q < 64 * ((s.moment 200000001).time.si + 1)))) = true) := by
  refine ⟨⟨accepted_of ?_, accepted_of ?_, ?_⟩, ?_⟩ <;> decide +kernel

def late : State := { ready with time.si := 500000 }
def nominal : List Nat := (List.range 16).map railNominal

def failsafeSet : Packet := pkt (bytes [1, 90, 7, 0, 0, 0, 0, 0])

/-- SET_FAILSAFE_POLICY's parameter check for a chip of grade E or not. -/
def failsafeCheck (g : Bool) (p : List Byte) : Bool :=
  !(p.length = 8) || !pBits p 0 1 || !pIn p 1 1 60 (if g then 110 else 105) || !pIn p 2 1 3 8 || !pZero p 3 5

/-- SET_FAILSAFE_POLICY is accepted whatever the grade of the chip. -/
theorem failsafe_acceptable : ∀ g : Bool,
    acceptable late 500001 { opSetFailsafe with bad := fun _ c => failsafeCheck g c.params } failsafeSet = true := by decide +kernel

theorem witness_SeamsMonitorsAndDoubt : (let essential := fun (k : Nat) => k ∈ [2, 3, 4, 5, 8, 9]
    let bad := fun (uv : List Nat) => (List.range 16).filter (fun k => railBad late.safe.supplyTol k (uv.getD k (railNominal k)))
    let ms := slotsOfNs late.time.ref.rateKhz 1000000
    ((3 : Fin 13).val ≠ 0 ∧ (late.seam 3).unsettled = false ∧ essential 3 ∧ ¬essential 1) ∧
    (let s : State := { late with safe.seams := [(3, { unsettled := true, stopped := true })], safe.causes := 8 }
     (s.seam 3).unsettled = true ∧ (s.seam 3).stopped = true ∧ (s.seam 3).unsettledAt + ms ≤ (s.moment 5000000).time.si ∧
       (s.seam 3).stoppedAt + ms ≤ (s.moment 5000000).time.si ∧ (s.moment 500001).time.si < (s.seam 3).unsettledAt + ms) ∧
    (let s : State := { late with safe.seams := [(3, { unsettled := true }), (4, { stopped := true })] }
     (s.seam 3).unsettled = true ∧ ∃ e ∈ tput s.safe.seams 3 { (s.seam 3) with unsettled := false }, essential e.1 ∧ (e.2.unsettled = true ∨ e.2.stopped = true)) ∧
    (let s : State := { late with safe.seams := [(3, { unsettled := true })] }
     ∀ e ∈ tput s.safe.seams 3 { (s.seam 3) with unsettled := false }, essential e.1 → e.2.unsettled = false ∧ e.2.stopped = false) ∧
    (let limit : Int := late.safe.tempLimit
     (∃ k, k < 8 ∧ limit < ((List.replicate 8 50).set 3 106).getD k (0 : Int)) ∧ (∀ k, k < 8 → (List.replicate 8 (99 : Int)).getD k 0 < limit - 5) ∧
       ¬(∃ k, k < 8 ∧ limit < (List.replicate 8 (100 : Int)).getD k 0) ∧ ¬∀ k, k < 8 → (List.replicate 8 (100 : Int)).getD k 0 < limit - 5) ∧
    (let s : State := { late with safe.coolSince := some 1000, safe.supplyGoodSince := some 1000, time.si := 4001000 }
     s.safe.coolSince.getD 0 + ms ≤ (s.moment 4001000).time.si ∧ s.safe.supplyGoodSince.getD 0 + ms ≤ (s.moment 4001000).time.si) ∧
    ((late.moment 500001).time.si < late.safe.coolSince.getD (late.moment 500001).time.si + ms ∧ bad nominal = [] ∧ bad (nominal.set 3 0) ≠ [] ∧
      ¬∃ e ∈ (bad (nominal.set 3 0)).map (fun k => (k, (tfind late.safe.supplyBad k).getD 500001)), e.2 + slotsOfNs late.time.ref.rateKhz 10000 ≤ 500001) ∧
    (let s : State := { late with safe.supplyBad := [(3, 1)] }
     ∃ e ∈ (bad (nominal.set 3 0)).map (fun k => (k, (tfind s.safe.supplyBad k).getD 500001)), e.2 + slotsOfNs s.time.ref.rateKhz 10000 ≤ 500001)) ∧
    accepted late 500001 opSetFailsafe failsafeSet ∧ late.safe.causes.getLsbD 4 = false ∧
    (let s : State := { late with safe.causes := 0x16 }
     s.safe.causes.getLsbD 4 = true ∧ s.safe.copyBad = false) ∧ late.log.onchipBad = false ∧ late.log.ends = [] ∧ (late.log.onchipBad || !false) = true := by
  refine ⟨?_, accepted_of (failsafe_acceptable Config.gradeE), ?_⟩ <;> decide +kernel

/-- Region 1 as given. -/
def regional (g : Region) : State := { ready with regions := [(1, g), (2, {})], cap.runState := 1 }
def unverified : ClosedSeg := { seg := { seg := 5 }, waits := true, closedAt := 300 }
def reset900 : RegionReset := { m := 900, defaults := true }
def reset600 : RegionReset := { m := 600, defaults := true }
def drained600 : RegionReset := { m := 600, defaults := true, intake := false }

theorem witness_RegionResets : (accepted (regional {}) 1001 opResetRegion (pkt (bytes [1, 1] ++ zeros 6)) ∧ quiet (regional {}) ∧ ((regional {}).region 1).rst = none ∧
      (∀ y ∈ ((regional {}).region 1).closed, y.waits = false)) ∧
    (let s := regional { rst := some reset900, rstState := 1 }
     quiet s ∧ (s.region 1).rst = some reset900 ∧ reset900.intake = true ∧ (s.moment 1001).time.si < reset900.m + 256) ∧
    (let s := regional { rst := some reset600, rstState := 1 }
     (s.region 1).rst = some reset600 ∧ reset600.intake = true ∧ reset600.m + 256 ≤ (s.moment 1001).time.si) ∧
    (let s := regional { rst := some drained600, rstState := 1, closed := [unverified] }
     quiet s ∧ (s.region 1).rst = some drained600 ∧ drained600.intake = false ∧ (s.region 1).rstState = 1 ∧ (s.moment 1001).time.si < drained600.m + 40000 ∧
       drained600.m + 40000 ≤ (s.moment 40600).time.si) ∧
    (let s := regional { rst := some drained600, rstState := 2 }
     quiet s ∧ (s.region 1).rst = some drained600 ∧ (s.region 1).rstState = 2 ∧ (s.moment 1001).boundary % 1048576 ≠ 0) ∧
    (let s := regional { closed := [unverified] }
     (s.region 1).closed.find? (fun y => y.waits) = some unverified ∧ s.safe.quiet = false ∧ (s.region 1).rstState = 0 ∧
       unverified.closedAt + 128 ≤ (s.moment 1001).time.si) ∧
    (let c := { unverified with closedAt := 900 }
     let s := regional { closed := [c] }
     (s.region 1).closed.find? (fun y => y.waits) = some c ∧ (s.moment 1001).time.si < c.closedAt + 128) := by
  refine ⟨⟨accepted_of ?_, quiet_of ?_, ?_⟩, ⟨quiet_of ?_, ?_⟩, ?_, ⟨quiet_of ?_, ?_⟩, ⟨quiet_of ?_, ?_⟩, ?_⟩ <;> decide +kernel

def softResetSet : Packet := pkt (fld 4 0x54464F53 ++ zeros 4)
def swapped : Update := { job := 3, ring := 1, slotB := true, length := 4, digest := 0, activate := true, raiseFloor := true }
def softCtx : Ctx := { opcode := 17, reply := some (1, 3) }
def softening : State := { ready with safe := { ready.safe with softReset := some softCtx, softBegun := true, causes := 0xff, quiet := true } }

/-- No ring but ring 1 exists, and it has fetched nothing. -/
theorem nothing_fetched {s : State} (h : s.cmd.rings = ready.cmd.rings) : ∀ n, (s.ring n).fetched = [] := by
  intro n
  by_cases e : n = 1
  · subst e; simp [State.ring, h, ready, started, tfind]
  · have e' : ¬(1 = n) := fun x => e x.symm
    simp [State.ring, h, ready, started, tfind, e']

theorem witness_SoftResetRestartAndSwap :
    (let s := regional { rst := some reset900, rstState := 1 }
     accepted s 1001 opSoftReset softResetSet ∧ ∃ e ∈ s.regions, e.2.rst ≠ none) ∧
    (accepted running 1001 opSoftReset softResetSet ∧ running.safe.softBegun = false ∧ (∀ e ∈ running.regions, e.2.rst = none) ∧ running.cmd.jobs = [] ∧
      running.cap.runState = 1) ∧
    (ready.startup.step ≠ 6 ∧ (∀ n, (ready.ring n).fetched = []) ∧ ready.safe.softReset = none ∧ quiet ready ∧ ready.cmd.jobs = [] ∧ ready.streams = [] ∧
      ready.cmd.deferredArm = none ∧ ready.cmd.deferredStart = none ∧ ready.safe.coreDown = false ∧ ready.sec.update = none) ∧
    (let s : State := { softening with cap.runState := 1 }
     s.startup.step ≠ 6 ∧ (∀ n, (s.ring n).fetched = []) ∧ s.safe.softReset = some softCtx ∧ s.safe.softBegun = true ∧ s.cap.runState ≠ 0) ∧
    (softening.startup.step ≠ 6 ∧ (∀ n, (softening.ring n).fetched = []) ∧ softening.safe.softReset = some softCtx ∧ softening.safe.softBegun = true ∧
      softening.cap.runState = 0 ∧ softening.seq0.stopAt = none) ∧
    (let s : State := { ready with safe.coreDown := true, safe.causes := 0x40 }
     s.startup.step ≠ 6 ∧ (∀ n, (s.ring n).fetched = []) ∧ s.safe.softReset = none ∧ s.safe.coreDown = true) ∧
    (let s : State := { ready with safe.swapping := true, sec.update := some swapped }
     s.startup.step ≠ 6 ∧ (∀ n, (s.ring n).fetched = []) ∧ s.safe.softReset = none ∧ s.sec.update = some swapped ∧ s.safe.swapping = true ∧
       s.cas.discoverHeld = []) := by
  refine ⟨⟨accepted_of ?_, ?_⟩, ⟨accepted_of ?_, ?_⟩, ⟨?_, nothing_fetched ?_, ?_, ready_quiet, ?_⟩, ⟨?_, nothing_fetched ?_, ?_⟩, ⟨?_, nothing_fetched ?_, ?_⟩,
    ⟨?_, nothing_fetched ?_, ?_⟩, ?_, nothing_fetched ?_, ?_⟩ <;> decide +kernel

/-- The P-256 base point, the public key of private key 1. -/
def basePoint : BitVec 512 := keyOf (beBytes 32 p256g.1 ++ beBytes 32 p256g.2)

/-- A firmware image of four bytes with SVN 3, laid out as R471 says, signed outside the model with private key 1. -/
def bootImage : List Byte :=
  fld 4 0x57464B53 ++ fld 2 1 ++ bytes [3, 0] ++ fld 4 9 ++ fld 4 4 ++ sha256 (bytes [1, 2, 3, 4]) ++ zeros 144 ++
    beBytes 32 0x7640617e32ab1669d633b7c1edb758002f6966a33e0bd13f6556b739204d2129 ++
    beBytes 32 0x24ab6e38725e1be733692ec0818b999a3bf063e68df01f1f5676eeb432dbcaea ++ bytes [1, 2, 3, 4]

/-- Start-up at step n. -/
def startingUp (n : Nat) : State := { State.reset with startup := { step := n } }

theorem witness_StartUpSteps : (startingUp 2).startup.step = 2 ∧
    ((startingUp 3).startup.step ≠ 2 ∧ (startingUp 3).pcie.configUp = false ∧ (startingUp 3).startup.step = 3 ∧ (startingUp 3).startup.stopped = false ∧
      (3 : Fin 8).val ≠ 0 ∧ (startingUp 3).sec.zero = none ∧ (startingUp 3).sec.tamper = false) ∧
    ({ startingUp 3 with pcie.configUp := true } : State).pcie.configUp = true ∧
    (let s : State := { startingUp 3 with sec.tamper := true, sec.zero := some { cause := 2 } }
     s.sec.zero ≠ none ∧ s.sec.tamper = true) ∧
    ((startingUp 5).startup.step = 5 ∧ (startingUp 5).sec.error = false ∧ (startingUp 5).sec.update = none) ∧
    (let s : State := { startingUp 4 with sec.romKey := basePoint, sec.fwFloor := 3, sec.imageB := zeros 8 }
     let image := fun (m : List Byte) => m.take (256 + pField m 12 4)
     let acceptable := fun (m : List Byte) => imageFault s.sec.romKey (image m) s.sec.fwFloor = 0
     s.startup.step = 4 ∧ s.startup.stopped = false ∧ s.sec.preferB = false ∧
       acceptable (({ slotA := some bootImage } : BootFlash).slotA.getD s.sec.imageA) ∧ ¬acceptable (({ slotA := some bootImage } : BootFlash).slotB.getD s.sec.imageB)) ∧
    ((startingUp 7).startup.step = 7 ∧ (startingUp 7).startup.ready = false ∧ (∀ n, (startingUp 7).startup.calJob = some n → (startingUp 7).job n = none) ∧
      (∀ n, ((startingUp 7).ring n).fetched = []) ∧ ({ startingUp 7 with sec.failedSlot := true } : State).sec.failedSlot = true) := by
  refine ⟨?_, ?_, ?_, ?_, ?_, ?_, ?_, ?_, all_of_none ?_, fun n => ?_, ?_⟩
  case refine_10 => rfl
  all_goals decide +kernel

theorem witness_TimeIsCaptured : ready.pcie.configUp = true ∧ ready.pcie.linkUp = true ∧ ready.pcie.d3hot = false ∧ ready.startup.ready = true := by decide

/-- SET_HK_SEQ that loads two entries, started by the trigger source given. -/
def hkLoad (trig : Nat) : Packet :=
  pkt (bytes [0, 2, trig, 0] ++ fld 2 0 ++ fld 2 60 ++ fld 4 (if trig = 1 then 2000 else 0) ++ zeros 4 ++ bytes [3, 0, 2, 2, 9, 0x25, 1, 1])
def hkCorrect : Packet := pkt (bytes [1, 3, 2] ++ zeros 5 ++ fld 4 7 ++ fld 4 16777216 ++ fld 4 (2 ^ 32 - 1) ++ fld 4 16777217)
def hkTrigger : Packet := pkt (bytes [2] ++ zeros 7)
def hkOff : Packet := pkt (bytes [3] ++ zeros 7)
def hkIn (h : Hk) : State := { ready with hk := h }
def measured : HkEntry := { input := 3, gain := 2, integ := 1, readings := 1 }
def hkRuns : Hk := { enabled := true, running := true, powered := true, entries := [measured, { measured with input := 4 }], validLeft := 1, trig := 2, seqCount := 3 }
/-- A reading of every slice ends at slot 1,160. -/
def hkReads : Hk := { hkRuns with slices := [{ endsAt := some 1160 }, { endsAt := some 1160 }, { endsAt := some 1160 }] }
def calibrating : Job := { id := 2, state := .running, ctx := { opcode := 0xA10, params := zeros 8 } }

theorem witness_HousekeepingConverter : (let f := fun (p : Packet) => pField p.params
    let left := fun (h : Hk) => if (h.slice 0).settle then h.validLeft else h.validLeft - 1
    let reads := fun (h : Hk) => h.running = true ∧ 0 ∈ h.serving ∧ 0 < h.slices.length ∧ (h.slice 0).endsAt = some 1160 ∧ 1160 ≤ ((hkIn h).moment 1001).time.si + 160
    (accepted ready 1001 opSetHkSeq (hkLoad 0) ∧ f (hkLoad 0) 0 1 = 0 ∧ f (hkLoad 0) 2 1 ≤ 1 ∧ ready.hk.calJob = false) ∧
    (accepted ready 1001 opSetHkSeq (hkLoad 2) ∧ f (hkLoad 2) 0 1 = 0 ∧ 2 ≤ f (hkLoad 2) 2 1) ∧
    (accepted (hkIn hkRuns) 1001 opSetHkSeq hkCorrect ∧ f hkCorrect 0 1 = 1) ∧
    (accepted (hkIn hkRuns) 1001 opSetHkSeq hkTrigger ∧ f hkTrigger 0 1 = 2 ∧ hkRuns.pending = false ∧ hkRuns.running = true) ∧
    (let h := { hkRuns with running := false }
     accepted (hkIn h) 1001 opSetHkSeq hkTrigger ∧ h.pending = false ∧ h.running = false ∧ h.calJob = false ∧ h.powered = true) ∧
    (accepted (hkIn hkRuns) 1001 opSetHkSeq hkOff ∧ f hkOff 0 1 = 3) ∧
    (hkRuns.slice 0).endsAt = none ∧ ({ hkRuns with running := false } : Hk).running = false ∧
    (reads { hkReads with validLeft := 3 } ∧ left { hkReads with validLeft := 3 } ≠ 0 ∧ ready.safe.quiet = false) ∧
    (reads hkReads ∧ left hkReads = 0 ∧ hkReads.entry + 1 < hkReads.entries.length) ∧
    (let h := { hkReads with entry := 1 }
     reads h ∧ left h = 0 ∧ h.entries.length ≤ h.entry + 1 ∧ h.pending = false ∧ h.trig ≠ 0) ∧
    (let h := { hkReads with entry := 1, trig := 0 }
     reads h ∧ left h = 0 ∧ h.entries.length ≤ h.entry + 1 ∧ h.trig = 0 ∧ h.enabled = true ∧ h.calJob = false) ∧
    (hkRuns.trig ≠ 1 ∧ hkRuns.pending = false ∧ hkRuns.triggerAt = none) ∧
    (let h := { hkRuns with trig := 1, pending := true, triggerAt := some 1000 }
     h.enabled = true ∧ h.trig = 1 ∧ h.triggerAt = some 1000 ∧ 1000 ≤ ((hkIn h).moment 1001).time.si ∧ ((hkIn h).moment 999).time.si = 1000 ∧ h.pending = true) ∧
    (let h := { hkRuns with trig := 1, triggerAt := some 1000 }
     h.enabled = true ∧ h.trig = 1 ∧ h.triggerAt = some 1000 ∧ h.pending = false ∧ h.running = true) ∧
    (let h := { hkRuns with trig := 1, running := false, triggerAt := some 1002 }
     let soon := ((hkIn h).moment 1001).time.si + slotsOfNs (hkIn h).time.ref.rateKhz 200000
     h.enabled = true ∧ h.trig = 1 ∧ h.triggerAt = some 1002 ∧ ((hkIn h).moment 1001).time.si < 1002 ∧ 1002 ≤ ((hkIn h).moment 1002).time.si ∧ 1002 ≤ soon ∧
       soon < 9000000 ∧ h.pending = false ∧ h.running = false ∧ h.calJob = false) ∧
    (let h := { hkRuns with trig := 3, running := false }
     h.enabled = true ∧ h.running = false ∧ h.calJob = false ∧ ((hkIn h).moment 1001).hkSoon 200 = false) ∧
    (let h := { hkRuns with trig := 3, running := false }
     let s : State := { hkIn h with time := { locked.time with si := 3999999000 } }
     (s.moment 3999999001).hkSoon 200 = true) ∧
    (let h := { hkRuns with running := false, pending := true, triggerAt := some 1001 }
     h.enabled = true ∧ h.running = false ∧ h.calJob = false ∧ h.trig = 2 ∧ h.triggerAt = some 1001 ∧ 1001 ≤ ((hkIn h).moment 1001).time.si ∧ h.pending = true) ∧
    (hkRuns.calJob = false ∧ hkRuns.calSlice ≠ 1) ∧
    (let h := { hkRuns with calSlice := 1 }
     h.calJob = false ∧ h.enabled = true ∧ h.calSlice = 1 ∧ 6 * 2 + 1 ∈ h.pairs ∧ 1 < h.slices.length) ∧ hkPassOk 0 (2 ^ 23) = true ∧ hkPassOk 0 (2 ^ 24) = false ∧
    (let s : State := { hkIn { hkRuns with calJob := true } with cmd.jobs := [calibrating] }
     s.hk.calJob = true ∧ s.jobOf 0x0A10 = some calibrating ∧ calibrating.state = .running ∧ 1 < s.hk.slices.length ∧ (s.hk.slice 1).good = true)) ∧
    (∀ y, ({ hkIn { hkRuns with calJob := true } with cmd.jobs := [] } : State).jobOf 0x0A10 = some y → y.state ≠ .running) := by
  refine ⟨⟨⟨accepted_of ?_, ?_⟩, ⟨accepted_of ?_, ?_⟩, ⟨accepted_of ?_, ?_⟩, ⟨accepted_of ?_, ?_⟩, ⟨accepted_of ?_, ?_⟩, ⟨accepted_of ?_, ?_⟩, ?_, ?_, ?_, ?_, ?_, ?_, ?_, ?_, ?_, ?_, ?_, ?_, ?_,
    ?_, ?_⟩, all_of_none ?_⟩ <;> decide +kernel

def updating : Update := { job := 3, ring := 1, slotB := true, length := 64, digest := 0, activate := true, raiseFloor := true }
def updates : State := { ready with sec.update := some updating, cmd.jobs := [{ id := 3, state := .running, ctx := { opcode := 0xb10, ring := 1 } }] }
/-- Rank 0 of channel 1 is in use, rank 2 is its spare. -/
def ranked : State := { ready with dram.ranks := [(4, { state := 1, logical := 3 }), (6, { state := 2 })], dram.spares := true }
def replaySet : Packet := pkt (fld 8 4096 ++ fld 8 960 ++ bytes [1, 3] ++ zeros 2 ++ fld 4 0 ++ zeros 8)
def trainSet : Packet := pkt (bytes [1, 0, 5, 6] ++ zeros 4)
/-- A 64-byte read of address 4,096 by a port of the DRAM controller. -/
def asksFor (port : Fin 11) : DramReq := { port := port, write := false, addr := 4096, ageNs := 90 }
def migrateSet : Packet := pkt (bytes [1, 0] ++ fld 2 100 ++ zeros 4)

theorem witness_JobsBegin : accepted ready 1001 opCalDeskew (pkt (fld 2 3 ++ fld 2 9 ++ bytes [0, 0, 0, 0] ++ fld 2 16 ++ fld 2 0 ++ bytes [1] ++ zeros 3)) ∧
    accepted ready 1001 opCalInterp (pkt (fld 2 3 ++ fld 2 9 ++ bytes [1, 0, 0, 0])) ∧
    accepted ready 1001 opScrub (pkt (fld 8 0 ++ fld 8 1048576 ++ fld 2 100 ++ zeros 6)) ∧
    (let s : State := { ready with cas.ports := [(1, { role := 2, state := 2 })] }
     accepted s 1001 opCascadeDiscover (pkt (fld 8 4096 ++ fld 4 32 ++ fld 2 100 ++ zeros 2)) ∧ ∀ j ∈ s.cmd.jobs, j.id ≠ s.cmd.nextJob) ∧
    accepted ready 1001 opReplay replaySet ∧
    (let s : State := { ready with cmd.jobs := [{ id := 7, ctx := { opcode := 0x910 } }] }
     accepted s 1001 opTrain trainSet ∧ s.jobOf 0x0910 ≠ none) ∧
    (accepted ready 1001 opTrain trainSet ∧ ready.jobOf 0x0910 = none) ∧
    (let s : State := { ranked with cmd.jobs := [{ id := 7, ctx := { opcode := 0x911 } }] }
     accepted s 1001 opMigrateRank migrateSet ∧ s.jobOf 0x0911 ≠ none) ∧
    (accepted ranked 1001 opMigrateRank migrateSet ∧ ranked.dram.mig = none ∧ ranked.jobOf 0x0911 = none ∧ ranked.dram.spare (pField migrateSet.params 0 1) = some 2) ∧
    accepted ready 1001 opHkCal (pkt (bytes [1] ++ zeros 7)) ∧
    (accepted ready 1001 opUpdateFirmware (pkt (bytes [0, 3, 0, 0] ++ fld 4 0 ++ fld 4 0 ++ fld 4 64 ++ fld 32 99)) ∧
      pField (bytes [0, 3, 0, 0]) 0 1 = 0) ∧
    (accepted updates 1001 opUpdateFirmware (pkt (bytes [1, 0, 0, 0] ++ fld 4 3 ++ fld 4 0 ++ fld 4 64 ++ fld 32 0 ++ zeros 64)) ∧ updates.sec.update = some updating) ∧
    accepted updates 1001 opUpdateFirmware (pkt (bytes [2, 0, 0, 0] ++ fld 4 3 ++ fld 4 0 ++ fld 4 64 ++ fld 32 0)) := by
  refine ⟨accepted_of ?_, accepted_of ?_, accepted_of ?_, ⟨accepted_of ?_, ?_⟩, accepted_of ?_, ⟨accepted_of ?_, ?_⟩, ⟨accepted_of ?_, ?_⟩, ⟨accepted_of ?_, ?_⟩,
    ⟨accepted_of ?_, ?_⟩, accepted_of ?_, ⟨accepted_of ?_, ?_⟩, ⟨accepted_of ?_, ?_⟩, accepted_of ?_⟩ <;> decide +kernel

def migrating : Migration := { job := 3, channel := 1, source := 0, spare := 2 }
def dramSet : Packet := pkt (bytes [1, 0, 7, 8] ++ fld 4 12 ++ zeros 8)
def migrates (m : Migration) : State :=
  { ranked with dram.mig := some m, cmd.jobs := [{ id := 3, state := .running, ctx := { opcode := 0x911, reply := some (1, 3) } }] }

theorem witness_DramController_reads : (let mine := fun (s : State) (y : DramReq) => (s.dram.split y.addr).ch = 0 ∧ s.dram.accessible y.addr = true
    let marked := fun (s : State) => s.dram.isUnbacked 4096 = true ∨ s.dram.marker 4096 ≠ none
    let urg := fun (y : DramReq) => (ranked.moment 1001).urgency y.port.val y.ageNs
    let hit := fun (y : DramReq) => ((tfind ranked.dram.banks ((ranked.dram.split y.addr).bank (ranked.dram.serving y.addr))).getD {}).row = some (ranked.dram.split y.addr).row
    let second := fun (q r : DramReq) => urg q < urg r ∨ (urg q = urg r ∧ ((¬hit q ∧ hit r) ∨ ((hit q ↔ hit r) ∧ portOrder r.port.val < portOrder q.port.val)))
    (quiet ranked ∧ ranked.dram.trained = true ∧ mine ranked (asksFor 3) ∧ mine ranked (asksFor 4) ∧ (asksFor 3).write = false ∧ (asksFor 3).port ≠ (asksFor 4).port ∧
      (second (asksFor 3) (asksFor 4) ∨ second (asksFor 4) (asksFor 3)) ∧ ¬(second (asksFor 3) (asksFor 4) ∧ second (asksFor 4) (asksFor 3)) ∧ ¬marked ranked ∧
      ranked.dram.returns = [] ∧ ranked.dram.ordered = [] ∧ ranked.dram.mig = none) ∧
    (let s : State := { ranked with dram.refFrom := 1000 }
     (s.dram.selfRefresh = true ∨ ((s.moment 1001).time.si - s.dram.refFrom) / slotsOfNs s.time.ref.rateKhz (if s.dram.warm then 1950 else 3900) ≤ s.dram.refDone)) ∧
    (∀ y ∈ [{ asksFor 3 with addr := 2 ^ 40 }], ¬mine ranked y) ∧
    (let s : State := { ready with dram.markers := [(4096, 1)] }
     quiet s ∧ s.dram.trained = true ∧ mine s (asksFor 3) ∧ marked s ∧ (3 : Nat) ∉ [6, 7, 8]) ∧
    ({ asksFor 3 with write := true }.write = true ∧ ranked.dram.inBobbins 4096 = false) ∧
    (portTarget 3).any (fun y => decide (y < 65535)) = true ∧ ranked.dram.patrolHours ≠ 0 ∧ ranked.dram.selfRefresh = false ∧
    ranked.dram.serving 4096 = (0 : Fin 4).val) := by
  refine ⟨⟨quiet_of ?_, ?_⟩, ?_, ?_, ⟨quiet_of ?_, ?_⟩, ?_⟩ <;> decide +kernel

theorem witness_DramController_refreshes : (let due := fun (s : State) (t : SI) => ((s.moment t).time.si - s.dram.refFrom) / slotsOfNs s.time.ref.rateKhz (if s.dram.warm then 1950 else 3900)
    ready.dram.refDone < due ready 40000 ∧ ready.cap.runState = 0 ∧
    (let s : State := { ready with cap.runState := 1 }
     s.dram.refDone < due s 40000 ∧ s.cap.runState ≠ 0) ∧
    (let s : State := { ready with dram.refDone := 900 }
     ¬(s.dram.refDone < due s 40000 ∨ ((s.moment 40000).portsIdle = true ∧ s.dram.refDone < due s 40000 + 4)))) := by decide +kernel

theorem witness_DramController : (accepted ranked 1001 opSetDramMap dramSet ∧ quiet ranked ∧ ¬(ranked.dram.trained = false ∨ ranked.dram.usable * 1073741824 ≤ 4096)) ∧
    (accepted ranked 1001 opSetDramMap (pkt (bytes [255, 255, 7, 8] ++ fld 4 (2 ^ 32 - 1) ++ zeros 8))) ∧
    (quiet { ready with dram.trained := false } ∧ ({ ready with dram.trained := false } : State).dram.trained = false) ∧
    (let rank := (tfind ranked.dram.ranks 5).getD {}
     rank.state ≠ 1 ∧ rank.state ≠ 2 ∧ (3 : Fin 11).val ∉ [6, 7, 8]) ∧
    (let s : State := { ready with dram.ranks := [(0, { state := 1 })] }
     let key := 4 * (s.dram.split 4096).ch + s.dram.serving 4096
     quiet s ∧ ¬(s.dram.trained = false ∨ s.dram.usable * 1073741824 ≤ 4096) ∧ ((tfind s.dram.ranks key).getD {}).state = 1 ∧ s.freeSpare 0 = false) ∧
    (let s : State := { ranked with dram.ceThresh := 1 }
     s.dram.ceThresh ≠ 0 ∧ min (((tfind s.dram.ranks 4).getD {}).ce + 1) 4294967295 = s.dram.ceThresh) ∧
    (ready.dram.patrolHours ≠ 0 ∧ ready.dram.selfRefresh = false ∧ ready.dram.trained = true) ∧
    (let s : State := { ready with dram.selfRefresh := true }
     quiet s ∧ ¬(s.dram.patrolHours ≠ 0 ∧ s.dram.selfRefresh = false)) ∧ tfind ready.dram.banks 0 = none ∧
    (let s : State := { ready with dram.banks := [(0, { row := some 4 })], dram.page := 0 }
     tfind s.dram.banks 0 = some { row := some 4 } ∧ s.dram.page ≠ 1 ∧ 0 + slotsOfNs s.time.ref.rateKhz 2000 ≤ (s.moment 9000).time.si ∧
       (s.moment 1001).time.si < 0 + slotsOfNs s.time.ref.rateKhz 2000) ∧ (ready.moment 1001).dramIdle = false ∧
    (let s : State := { ready with dram.idleSince := 0, time.si := 400000000 }
     (s.moment 400000001).dramIdle = true) ∧
    (quiet ready ∧ ready.dram.mig = none) ∧
    (quiet (migrates migrating) ∧ (migrates migrating).dram.mig = some migrating ∧ (∃ j ∈ (migrates migrating).cmd.jobs, j.id = migrating.job ∧ j.state = .running) ∧
      migrating.pos + 1 < (migrates migrating).dram.rankMib ∧ migrating.source ≠ migrating.spare) ∧
    (let m := { migrating with pos := ranked.dram.rankMib - 1 }
     quiet (migrates m) ∧ (migrates m).dram.mig = some m ∧ m.source ≠ m.spare ∧ (migrates m).dram.rankMib ≤ m.pos + 1) ∧
    (let s : State := { migrates migrating with cmd.jobs := [] }
     quiet s ∧ s.dram.mig = some migrating ∧ ¬∃ j ∈ s.cmd.jobs, j.id = migrating.job ∧ j.state = .running) := by
  refine ⟨⟨accepted_of ?_, quiet_of ?_, ?_⟩, accepted_of ?_, ⟨quiet_of ?_, ?_⟩, ?_, ⟨quiet_of ?_, ?_⟩, ?_, ?_, ⟨quiet_of ?_, ?_⟩, ?_, ?_, ?_, ?_, ⟨quiet_of ?_, ?_⟩,
    ⟨quiet_of ?_, ?_⟩, ⟨quiet_of ?_, ?_⟩, quiet_of ?_, ?_⟩ <;> decide +kernel

def segOf (n words : Nat) : Seg := { seg := n, source := 0, items := [.plain { words := List.replicate words 7 }] }
def bobbin0 : Bobbin := { sizeLog2 := 16, ringAddr := 4096, wbAddr := 16, wr := 100, rd := 50, rel := 40, mark := 50, markValid := true, ring := [(40, segOf 1 3), (50, segOf 2 20)] }

/-- Bobbin 3 as given, bobbin 4 empty of segments, both with the evidence key in place. -/
def woven (b : Bobbin) : State := { ready with
  bob := { tab := [(3, b), (4, { bobbin0 with ring := [] })], routes := [(0, [4, 5])], area := [] }
  sec := { ready.sec with esk := true, eskId := 1, eskKey := 1 }
  data := { ready.data with staging := [{ seg := segOf 2 20 }, { seg := segOf 1 3 }] } }

def createSet (loc addr : Nat) : Packet := pkt (fld 4 9 ++ bytes [loc, 16, 5, 3] ++ fld 8 addr ++ fld 8 32 ++ fld 2 3 ++ fld 2 9 ++ zeros 4)
def signSet (op : Nat) : Packet := pkt (fld 2 7 ++ bytes [op, 0] ++ fld 4 3 ++ fld 2 6 ++ fld 2 8 ++ zeros 4)
def streamed (x : Stream) : State := { woven bobbin0 with streams := [(7, x)] }

/-- accepted_of for a row whose BAD_STATE check no evaluation decides: it is given apart. -/
theorem accepted_of_state {s : State} {t : SI} {o : OpSpec} {p : Packet} (h : acceptable s t { o with badState := fun _ _ => false } p = true)
    (b : o.badState (entered s t p) (packetCtx o.opcode p) = false) : accepted s t o p := by
  have a := accepted_of h
  refine ⟨a.quiet, a.enabled, a.running, a.fence, a.early, a.now, a.here, ?_, a.atOnce⟩
  have l := a.late
  simp only [OpSpec.late, Bool.false_eq_true, if_false] at l ⊢
  rw [b]
  exact l

/-- Where offset 0 is free a ring finds a place, whatever place the device chooses. -/
theorem place_found {x : Bobbins} {size ctr : Nat} (h : x.fits 0 size = true) : (x.place size ctr).isNone = false := by
  unfold Bobbins.place
  simp only [List.find?_cons, h]
  split <;> rfl

/-- CREATE_BOBBIN for a bobbin on the chip is accepted whatever place the device chooses. -/
theorem create_loc1_accepted : accepted (woven bobbin0) 1001 opCreateBobbin (createSet 1 0) := by
  refine accepted_of_state (by decide +kernel) ?_
  have h1 : (tfind (entered (woven bobbin0) 1001 (createSet 1 0)).bob.tab (pField (createSet 1 0).params 0 4)).isSome = false := by decide +kernel
  have h2 : (entered (woven bobbin0) 1001 (createSet 1 0)).dram.trained = true := by decide +kernel
  have h3 : (entered (woven bobbin0) 1001 (createSet 1 0)).bob.fits 0 (2 ^ pField (createSet 1 0).params 5 1) = true := by decide +kernel
  change createBobbinBadState (entered (woven bobbin0) 1001 (createSet 1 0)) (createSet 1 0).params = false
  simp only [createBobbinBadState, State.noRoom, h1, h2, place_found h3, Bool.not_true, Bool.or_false, Bool.and_false]

theorem witness_BobbinCommands : (accepted (woven bobbin0) 1001 opCreateBobbin (createSet 0 8192) ∧ pField (createSet 0 8192).params 4 1 = 0) ∧
    (accepted (woven bobbin0) 1001 opCreateBobbin (createSet 1 0) ∧ pField (createSet 1 0).params 4 1 = 1) ∧
    (accepted (woven bobbin0) 1001 opDestroyBobbin (pkt (fld 4 3 ++ zeros 4))) ∧
    (accepted (woven bobbin0) 1001 opRoute (pkt (fld 4 0 ++ fld 4 3 ++ bytes [0, 12] ++ zeros 6)) ∧
      accepted (woven bobbin0) 1001 opRoute (pkt (fld 4 0 ++ fld 4 4 ++ bytes [1, 0] ++ zeros 6)) ∧
      accepted (woven bobbin0) 1001 opRoute (pkt (fld 4 0 ++ fld 4 0 ++ bytes [2, 0] ++ zeros 6))) ∧
    (accepted (woven bobbin0) 1001 opRewind (pkt (fld 4 3 ++ bytes [0] ++ zeros 3)) ∧ accepted (woven bobbin0) 1001 opRewind (pkt (fld 4 3 ++ bytes [1] ++ zeros 3)) ∧
      tfind (woven bobbin0).bob.tab 3 = some bobbin0) ∧
    ((woven bobbin0).pcie.blocked = false ∧ bobbin0.wbAddr ≠ 0 ∧ pField (createSet 0 8192).params 16 8 ≠ 0 ∧ tfind (woven bobbin0).bob.oldRoutes 0 = none) ∧
    (let b := { bobbin0 with notify4k := 1, wr := 600, rd := 550 }
     accepted (woven b) 1001 opRewind (pkt (fld 4 3 ++ bytes [0] ++ zeros 3)) ∧ b.unread < b.notify4k * 512 ∧
       b.notify4k * 512 ≤ { b with rd := b.mark }.unread) ∧
    accepted (woven bobbin0) 1001 opSetCompression (pkt (fld 4 0 ++ fld 4 (2 ^ 32 - 1) ++ bytes [2] ++ zeros 7)) ∧
    accepted (woven bobbin0) 1001 opSetSigning (signSet 0) ∧ accepted (streamed { active := true, bobbin := 3 }) 1001 opSetSigning (signSet 1) ∧
    (accepted (streamed { active := true, bobbin := 3 }) 1001 opSetSigning (signSet 2) ∧ ((streamed { active := true, bobbin := 3 }).stream 7).closing = false) ∧
    (let s := streamed { active := true, bobbin := 3, closing := true, deferred := some {} }
     accepted s 1001 opSetSigning (signSet 2) ∧ (s.stream 7).closing = true) := by
  refine ⟨⟨accepted_of ?_, ?_⟩, ⟨create_loc1_accepted, ?_⟩, accepted_of ?_, ⟨accepted_of ?_, accepted_of ?_, accepted_of ?_⟩,
    ⟨accepted_of ?_, accepted_of ?_, ?_⟩, ?_, ⟨accepted_of ?_, ?_⟩, accepted_of ?_, accepted_of ?_, accepted_of ?_, ⟨accepted_of ?_, ?_⟩, accepted_of ?_, ?_⟩ <;>
    decide +kernel

theorem witness_BobbinPointers : (let s := woven bobbin0
     let d := fun (w : Nat) => bobbin0.dist w bobbin0.rel
     quiet s ∧ s.barWrites = true ∧ tfind s.bob.tab 5 = none ∧ tfind s.bob.tab 3 = some bobbin0 ∧ bobbin0.held = false ∧ bobbin0.rewinding = none ∧ bobbin0.skc256 = false ∧
       (100 < bobbin0.m2 ∧ d 100 ≤ bobbin0.used) ∧ ¬(101 < bobbin0.m2 ∧ d 101 ≤ bobbin0.used) ∧
       (50 < bobbin0.m2 ∧ d 50 ≤ bobbin0.dist bobbin0.rd bobbin0.rel ∧ (50, segOf 2 20) ∈ bobbin0.ring) ∧ bobbin0.dist bobbin0.rd bobbin0.rel < d 51) ∧
    ({ woven bobbin0 with pcie.linkUp := false } : State).barWrites = false ∧ ¬2 ^ 28 + 60 < bobbin0.m2 ∧ 3 ∉ (woven bobbin0).bob.cached ∧
    (let s : State := { woven bobbin0 with bob.cached := [3] }
     quiet s ∧ tfind s.bob.tab 3 = some bobbin0 ∧ 3 ∈ s.bob.cached) ∧
    (let b := { bobbin0 with held := true }
     quiet (woven b) ∧ tfind (woven b).bob.tab 3 = some b ∧ b.held = true) ∧
    (let b := { bobbin0 with skc256 := true }
     quiet (woven b) ∧ tfind (woven b).bob.tab 3 = some b ∧ b.skc256 = true ∧ b.dup = none ∧ b.held = false ∧ b.rewinding = none) ∧
    (let b := { bobbin0 with skc256 := true, dup := some (0, 60, 1000) }
     let wait := slotsOfNs (woven b).time.ref.rateKhz 2000
     quiet (woven b) ∧ tfind (woven b).bob.tab 3 = some b ∧ b.skc256 = true ∧ b.dup = some (0, 60, 1000) ∧ b.rewinding = none ∧ 60 < b.m2 ∧ b.dist 60 b.rel ≤ b.used ∧
       ((woven b).moment (1000 + wait)).time.si ≤ 1000 + wait ∧ 61 ≠ 60 ∧ ((woven b).moment 1001).time.si < 1000 + wait ∧
       1000 + wait < ((woven b).moment (1001 + wait)).time.si ∧ 1000 + wait ≤ ((woven b).moment (1000 + wait)).time.si) := by
  refine ⟨⟨quiet_of ?_, ?_⟩, ?_, ?_, ?_, ⟨quiet_of ?_, ?_⟩, ⟨quiet_of ?_, ?_⟩, ⟨quiet_of ?_, ?_⟩, quiet_of ?_, ?_⟩ <;> decide +kernel

def owing : QItem := { seg := segOf 9 4, owed := true, ready := false }

theorem witness_SegmentsAreDelivered : (let s := woven bobbin0
     quiet s ∧ tfind s.bob.tab 5 = none ∧ tfind s.bob.tab 3 = some bobbin0 ∧ bobbin0.next = none ∧ bobbin0.rewinding = none ∧
       bobbin0.queue.find? (fun e => e.isOwed && !e.ready) = none ∧ (s.stream 7).toHash = [] ∧ (s.stream 7).active = false) ∧
    (let b : Bobbin := { bobbin0 with queue := [{ seg := segOf 9 4 }, { seg := segOf 10 4 }] }
     let s := woven b
     quiet s ∧ tfind s.bob.tab 3 = some b ∧ s.ringStopped b = false ∧ b.next.any (fun e => decide (e.2.uncompLen ≤ payloadMax)) = true ∧ b.stream = none ∧ b.loc1 = false ∧
       (s.moment 1001).served false = some 3) ∧
    (let b : Bobbin := { bobbin0 with queue := [{ seg := segOf 9 4 }, { seg := segOf 10 4 }], loc1 := true }
     let s := woven b
     quiet s ∧ tfind s.bob.tab 3 = some b ∧ s.ringStopped b = false ∧ b.next.any (fun e => decide (e.2.uncompLen ≤ payloadMax)) = true ∧ b.stream = none ∧ b.loc1 = true ∧
       (s.moment 1001).served true = some 3) ∧
    (let q : QItem := { seg := segOf 9 4 }
     let b : Bobbin := { bobbin0 with queue := [q], spillMib := 1 }
     b.queue = [q] ∧ q.seg.seg = 9 ∧ srcClass q.seg.source ≠ 4 ∧ (woven b).ringStopped b = false ∧
       q.since + slotsOfNs (woven b).time.ref.rateKhz 100000 ≤ ((woven b).moment 500000).time.si ∧
       ((woven b).moment 1001).time.si < q.since + slotsOfNs (woven b).time.ref.rateKhz 100000 ∧ q.owed = false ∧ q.gap = none ∧ q.seg.audit = false ∧ b.dropping = false ∧
       8 * (q.copyFor b.provisional).len ≤ b.limit) ∧
    (let b : Bobbin := { bobbin0 with queue := [owing], spillMib := 1 }
     b.queue.find? (fun e => e.isOwed && !e.ready) = some owing ∧ (woven b).held owing = false ∧
       ({ woven b with data.special.segs := [segOf 9 4], data.lookback := [(0, { segs := [segOf 9 4] })] } : State).held owing = true ∧
       (woven b).dram.poisonEvent ≠ some (((woven b).moment 1001).time.si / 1048576)) ∧
    (let s : State := { woven { bobbin0 with queue := [owing] } with
       data.lookback := [(0, { segs := [segOf 9 4], places := [(9, 128)] })], dram.ranks := [(0, { state := 3 }), (1, { state := 3 })] }
     let as := (s.moment 1001).segAccesses owing.seg
     let kind := fun (r : SegRead) => s.dram.foundIn as r
     s.held owing = true ∧ kind {} = .clean ∧ kind { kind := .corrected } = .corrected ∧ kind { kind := .uncorrectable } = .uncorrectable ∧ as ≠ [] ∧
       (∀ a ∈ as, (s.dram.rank (s.dram.split a).ch (s.dram.serving a)).state ≠ 1 ∧ (s.dram.rank (s.dram.split a).ch (s.dram.serving a)).state ≠ 2) ∧
       ({ s.dram with markers := [(as.headD 0, 1)] } : Dram).foundIn as {} = .poisonMarker ∧
       ({ s.dram with markers := [(as.headD 0, 2)] } : Dram).foundIn as {} = .migrationMarker) ∧
    (let b : Bobbin := { bobbin0 with rewinding := some ([segOf 2 20], { opcode := 0x704, reply := some (1, 3) }, 50) }
     let s := woven b
     quiet s ∧ tfind s.bob.tab 3 = some b ∧ s.ringStopped b = false ∧ b.rewinding = some ([segOf 2 20], { opcode := 0x704, reply := some (1, 3) }, 50)) ∧
    (let y : Stream := { active := true, bobbin := 3, sigSegs := 3, sigMs := 1, toHash := [(9, 5, 60)] }
     quiet (streamed y) ∧ ((streamed y).stream 7).toHash = (9, 5, 60) :: [] ∧ ((streamed y).moment 1001).hashStopped 3 60 = false ∧ y.closeSeg ≠ some 9 ∧
       y.due = none ∧ ¬(y.closing = false ∧ (y.sigSegs ≤ y.hashedSince + 1 ∨ y.lastSig + y.sigMs * 4000000 ≤ ((streamed y).moment 1001).time.si)) ∧
       (streamed y).canSign = true) ∧
    (let y : Stream := { active := true, bobbin := 3, sigSegs := 1, sigMs := 1, toHash := [(9, 5, 60), (10, 7, 70)] }
     quiet (streamed y) ∧ ((streamed y).stream 7).toHash = (9, 5, 60) :: [(10, 7, 70)] ∧ ((streamed y).moment 1001).hashStopped 3 60 = false ∧
       y.closing = false ∧ y.sigSegs ≤ y.hashedSince + 1) ∧
    (let y : Stream := { active := true, bobbin := 3, sigSegs := 3, sigMs := 1, toHash := [(9, 5, 60)], due := some 1 }
     quiet (streamed y) ∧ y.due ≠ none) ∧
    (let y : Stream := { active := true, bobbin := 3, toHash := [(9, 5, 60)] }
     let s : State := { streamed y with bob.tab := [(3, { bobbin0 with held := true })] }
     quiet s ∧ (s.stream 7).toHash = (9, 5, 60) :: [] ∧ (s.moment 1001).hashStopped 3 60 = true) ∧
    (let y : Stream := { active := true, bobbin := 3, sigSegs := 10, sigMs := 1, toHash := [(9, 5, 60)], hashedSince := 3, hashed := 3 }
     let s : State := { streamed y with time := { ready.time with si := 5000000 } }
     y.active = true ∧ y.closing = false ∧ 0 < y.hashedSince ∧ y.lastSig + y.sigMs * 4000000 ≤ (s.moment 5000000).time.si ∧ y.toHash ≠ []) ∧
    (let y : Stream := { active := true, bobbin := 3, sigSegs := 10, sigMs := 1, hashedSince := 3, hashed := 3 }
     let s : State := { streamed y with time := { ready.time with si := 5000000 } }
     s.stream 7 = y ∧ y.active = true ∧ y.closing = false ∧ 0 < y.hashedSince ∧ y.lastSig + y.sigMs * 4000000 ≤ (s.moment 5000000).time.si ∧ 0 < y.hashed ∧
       s.canSign = true ∧ ({ s with sec.esk := false } : State).canSign = false) := by
  refine ⟨⟨quiet_of ?_, ?_⟩, ⟨quiet_of ?_, ?_⟩, ⟨quiet_of ?_, ?_⟩, ?_, ?_, ?_, ⟨quiet_of ?_, ?_⟩, ⟨quiet_of ?_, ?_⟩, ⟨quiet_of ?_, ?_⟩, ⟨quiet_of ?_, ?_⟩,
    ⟨quiet_of ?_, ?_⟩, ?_, ?_⟩ <;> decide +kernel

def challenge : Challenge := { id := 5, bits := 77 }
def certificate : EskCert := { id := 4, identity := 1, fikOrigin := 0, boot := 1, st := 5, tgen := 3, key := 4, idKey := 5, sig := 6 }
/-- AUTH: operation, role, challenge ID, signature, key. -/
def authSet (op role id : Nat) (r s k : List Byte) : Packet := pkt (bytes [op, role, 0, 0] ++ fld 4 id ++ r ++ s ++ k)
def secure (keys : Tab (BitVec 512)) : State := { ready with sec := { ready.sec with
  roleKeys := keys, challenges := [(1, challenge)], selftestOk := true, esk := true, certs := [certificate] } }
def bothKeys : State := secure [(1, basePoint), (2, basePoint)]
def attestSet (select id : Nat) : Packet := pkt (bytes [select, 0, 0, 0] ++ fld 4 id ++ fld 8 64 ++ fld 4 100000 ++ zeros 4 ++ zeros 16)

/-- accepted_of for a row whose parameter check no evaluation decides: it is given apart. -/
theorem accepted_of_params {s : State} {t : SI} {o : OpSpec} {p : Packet} (h : acceptable s t { o with bad := fun _ _ => false } p = true)
    (b : o.bad (entered s t p) (packetCtx o.opcode p) = false) : accepted s t o p := by
  have a := accepted_of h
  refine ⟨a.quiet, a.enabled, a.running, a.fence, ?_, a.now, a.here, a.late, a.atOnce⟩
  have l := a.early
  simp only [OpSpec.early, OpSpec.permits, OpSpec.gate] at l ⊢
  rw [b]
  exact l

/-- The two clauses on a valid response differ from the one on an invalid response in the signature only, which is over a message with the chip's serial number. No
evaluation shows that number (Config.serial), so no signature is written out here; test_ecdsa_sample shows that a good signature verifies. The identity certificate's
length is free too: witness_IdentityCertificate takes a buffer that holds it. -/
theorem witness_KeysRolesAndAttestation : (accepted bothKeys 1001 opAuth (authSet 0 0 0 (zeros 32) (zeros 32) (zeros 64)) ∧
      pField (authSet 0 0 0 (zeros 32) (zeros 32) (zeros 64)).params 0 1 = 0) ∧
    (let p := authSet 1 2 5 (zeros 32) (zeros 32) (zeros 64)
     accepted bothKeys 1001 opAuth p ∧ pField p.params 0 1 = 1 ∧ tfind bothKeys.sec.roleKeys (pField p.params 1 1) = some basePoint ∧ bothKeys.sec.lockoutUntil = none ∧
       ¬(pField p.params 1 1 = 3 ∧ bothKeys.sec.svcEn = false) ∧ tfind bothKeys.sec.challenges 1 = some challenge ∧ pField p.params 4 4 = challenge.id ∧
       min (bothKeys.sec.authFails + 1) 255 < 8) ∧
    (∀ m : List Byte, ¬ecdsaVerify (keyBytes basePoint) m (zeros 32) (zeros 32) = true) ∧
    (let p := authSet 1 2 6 (zeros 32) (zeros 32) (zeros 64)
     accepted bothKeys 1001 opAuth p ∧ (∀ c, tfind bothKeys.sec.challenges 1 = some c → pField p.params 4 4 ≠ c.id)) ∧
    (let s : State := { bothKeys with sec.challenges := [], sec.authFails := 7, sec.lockoutLevel := 2 }
     accepted s 1001 opAuth (authSet 1 2 6 (zeros 32) (zeros 32) (zeros 64)) ∧ tfind s.sec.challenges 1 = none ∧ 8 ≤ min (s.sec.authFails + 1) 255) ∧
    (let s := secure [(1, basePoint)]
     accepted s 1001 opAuth (authSet 1 2 5 (zeros 32) (zeros 32) (zeros 64)) ∧ tfind s.sec.roleKeys 2 = none ∧ tfind s.sec.challenges 1 = some challenge) ∧
    (let s := secure [(3, basePoint)]
     accepted s 1001 opAuth (authSet 1 3 5 (zeros 32) (zeros 32) (zeros 64)) ∧ tfind s.sec.roleKeys 3 = some basePoint ∧ s.sec.svcEn = false ∧ s.sec.lockoutUntil = none) ∧
    (let p := authSet 3 2 0 (zeros 32) (zeros 32) (keyBytes basePoint)
     accepted bothKeys 1001 opAuth p ∧ pField p.params 0 1 = 3 ∧ (bothKeys.ring 1).role = 2) ∧
    (accepted bothKeys 1001 opAuth (authSet 4 2 0 (zeros 32) (zeros 32) (zeros 64))) ∧
    (let s : State := { bothKeys with cmd := (started 1).cmd }
     accepted s 1001 opAuth (authSet 4 2 0 (zeros 32) (zeros 32) (zeros 64)) ∧ (s.ring 1).role ≠ 2 ∧ (s.ring 1).cqLog2 ≠ 0) ∧
    accepted bothKeys 1001 opAuth (authSet 5 0 0 (zeros 32) (zeros 32) (zeros 64)) ∧ accepted bothKeys 1001 opRotateEsk (pkt (zeros 8)) ∧
    (let s : State := { bothKeys with sec.challenges := [(4, { challenge with until_ := 1001 })], sec.lockoutUntil := some 1001 }
     tfind s.sec.challenges 4 = some { challenge with until_ := 1001 } ∧ tfind s.sec.challenges 5 = none ∧ 1001 ≤ (s.moment 1001).time.si ∧
       s.sec.lockoutUntil = some 1001 ∧ (s.moment 1000).time.si < 1001) ∧
    (accepted bothKeys 1001 opGetAttestation (attestSet 0 0) ∧ pField (attestSet 0 0).params 0 1 = 0) ∧
    (accepted bothKeys 1001 opGetAttestation (attestSet 2 4) ∧ pField (attestSet 2 4).params 0 1 = 2 ∧ bothKeys.sec.cert 4 = some certificate) := by
  refine ⟨⟨accepted_of ?_, ?_⟩, ⟨accepted_of ?_, ?_⟩, fun m => ?_, ⟨accepted_of ?_, all_of_some (a := challenge) ?_ ?_⟩, ⟨accepted_of ?_, ?_⟩, ⟨accepted_of ?_, ?_⟩, ⟨accepted_of ?_, ?_⟩,
    ⟨accepted_of ?_, ?_⟩, accepted_of ?_, ⟨accepted_of ?_, ?_⟩, accepted_of ?_, accepted_of ?_, ?_, ⟨accepted_of ?_, ?_⟩,
    accepted_of ?_, ?_⟩
  case refine_5 =>
    have h : leNat (zeros 32).reverse = 0 := by decide
    simp [ecdsaVerify, h]
  all_goals decide +kernel

/-- GET_ATTESTATION of the identity certificate, into a buffer of 1 GiB. -/
def identitySet : Packet := pkt (bytes [1, 0, 0, 0] ++ fld 4 0 ++ fld 8 64 ++ fld 4 1073741824 ++ zeros 4 ++ zeros 16)

theorem witness_IdentityCertificate (h : Config.certLength 1 ≤ 1073741824) :
    accepted bothKeys 1001 opGetAttestation identitySet ∧ pField identitySet.params 0 1 = 1 := by
  refine ⟨accepted_of_params (by decide +kernel) ?_, by decide +kernel⟩
  change attestBad (entered bothKeys 1001 identitySet) identitySet.params = false
  have h1 : (entered bothKeys 1001 identitySet).sec.identity = 1 := by decide +kernel
  have h2 : pField identitySet.params 0 1 = 1 := by decide +kernel
  have h3 : pField identitySet.params 16 4 = 1073741824 := by decide +kernel
  have h4 : identitySet.params.length = 40 := by decide +kernel
  have h5 : pField identitySet.params 8 8 % 64 = 0 := by decide +kernel
  have h6 : (pIn identitySet.params 0 1 0 2 && pZero identitySet.params 1 3 && pZero identitySet.params 20 4) = true := by decide +kernel
  simp only [Bool.and_eq_true] at h6
  simp [attestBad, State.attestLength, h1, h2, h3, h4, h5, h6, h]

def zeroizeSet : Packet := pkt (fld 4 0x5A45524F ++ zeros 4)

theorem witness_ZeroizationErasesSecrets : (accepted bothKeys 1001 opZeroize zeroizeSet ∧ bothKeys.sec.zero = none ∧ bothKeys.sec.tamper = false ∧ 4 ≤ bothKeys.startup.step ∧
      quiet bothKeys ∧ bothKeys.sec.svcEn = false ∧ bothKeys.sec.fikDue = false) ∧
    (let z : Zeroization := { cause := 2, openPort := true }
     let s : State := { bothKeys with sec.zero := some z, sec.svcEn := true }
     accepted s 1001 opZeroize zeroizeSet ∧ s.sec.zero = some z ∧ quiet s ∧ z.openPort = true ∧ s.sec.svcEn = true) ∧
    ({ bothKeys with sec.tamper := true } : State).sec.tamper = true ∧ State.reset.startup.step < 4 ∧
    (let s : State := { bothKeys with sec.svcEn := true }
     s.sec.svcEn = true ∧ s.sec.svcOpen = false ∧ s.sec.zero = none) ∧
    (let s : State := { bothKeys with sec.fikDue := true }
     s.sec.fikDue = true ∧ ¬(s.sec.zero ≠ none ∨ s.sec.tamper = true ∨ s.sec.svcOpen = true)) := by
  refine ⟨⟨accepted_of ?_, ?_, ?_, ?_, quiet_of ?_, ?_⟩, ⟨accepted_of ?_, ?_, quiet_of ?_, ?_⟩, ?_⟩ <;> decide +kernel

end Sys2Proof.Tests
end

/-! ### SI and its restarts (R11) -/

namespace Sys2Proof.Machine

/-- The commands that set SI to 0 in state s: a fundamental reset, a supply collapse, and the end of start-up step 5 (R416, R536, R538, R562). -/
def restartsSlots (i : Instr) (s : State) : Prop :=
  match i with
  | .fundamentalReset _ => True
  | .supplyCollapse _ => True
  | .initialSynthLock _ => s.startup.step = 5
  | .initialLockTimeout _ => s.startup.step = 5
  | _ => False

/-- Outside start-up step 5 INITIAL_SYNTH_LOCK only takes its moment. -/
theorem execInitialSynthLock_of_ne (t : SI) (s : State) (h : s.startup.step ≠ 5) : execInitialSynthLock t s = .next (s.moment t) := by
  simp [execInitialSynthLock, h]

/-- Outside start-up step 5 INITIAL_LOCK_TIMEOUT only takes its moment. -/
theorem execInitialLockTimeout_of_ne (t : SI) (s : State) (h : s.startup.step ≠ 5) : execInitialLockTimeout t s = .next (s.moment t) := by
  simp [execInitialLockTimeout, h]

/-- Outside start-up step 5 the end of that step keeps the order of time. -/
theorem kept_execInitialSynthLock (t : SI) (s : State) (h : s.startup.step ≠ 5) : KeptO s (execInitialSynthLock t s) := by
  rw [execInitialSynthLock_of_ne t s h]
  exact .next (kept_moment s t)

theorem kept_execInitialLockTimeout (t : SI) (s : State) (h : s.startup.step ≠ 5) : KeptO s (execInitialLockTimeout t s) := by
  rw [execInitialLockTimeout_of_ne t s h]
  exact .next (kept_moment s t)

/-- Every command that does not restart SI keeps the queue, the order of time and the form of the DRAM bytes: one kept lemma per row. -/
theorem kept_exec (i : Instr) (s : State) (h : ¬ restartsSlots i s) : KeptO s (exec i s) := by
  unfold exec
  cases i with
  | registerWrite => exact kept_execRegisterWrite _ _ _ _ _
  | rcFieldRead => exact kept_execRcFieldRead _ _ _
  | lowWordRead => exact kept_execLowWordRead _ _ _
  | timSnapSiLoRead => exact kept_execTimSnapSiLoRead _ _
  | bobRdWrite => exact kept_execBobRdWrite _ _ _ _
  | bobRelWrite => exact kept_execBobRelWrite _ _ _ _
  | bobMarkWrite => exact kept_execBobMarkWrite _ _ _ _
  | bobDupWrite => exact kept_execBobDupWrite _ _ _ _
  | ringEnable => exact kept_execRingEnable _ _ _ _
  | ringDisable => exact kept_execRingDisable _ _ _ _
  | sqTailWrite => exact kept_execSqTailWrite _ _ _ _
  | cqHeadWrite => exact kept_execCqHeadWrite _ _ _ _
  | hstWinDbHiWrite => exact kept_execHstWinDbHiWrite _ _ _
  | containmentRelease => exact kept_execContainmentRelease _ _
  | msixVectorUnmask => exact kept_execMsixVectorUnmask _ _ _
  | bar2Read => exact kept_execBar2Read _ _ _ _
  | busMasterEnableClear => exact kept_execBusMasterEnableClear _ _
  | busMasterEnableSet => exact kept_execBusMasterEnableSet _ _
  | d3hotEntry => exact kept_execD3hotEntry _ _
  | d0Entry => exact kept_execD0Entry _ _
  | functionLevelReset => exact kept_execFunctionLevelReset _ _
  | hotReset => exact kept_execHotReset _ _ _
  | fundamentalReset => exact absurd trivial h
  | pcieLinkDown => exact kept_execPcieLinkDown _ _
  | pcieLinkUp => exact kept_execPcieLinkUp _ _ _ _ _
  | fatalErrorFreeze => exact kept_execFatalErrorFreeze _ _ _
  | completionReceived => exact kept_execCompletionReceived _ _ _ _ _
  | completionTimeout => exact kept_execCompletionTimeout _ _ _
  | tagQuarantineEnd => exact kept_execTagQuarantineEnd _ _ _
  | nop => exact kept_execNop _ _ _
  | getInfo => exact kept_execGetInfo _ _ _
  | resetRegion => exact kept_execResetRegion _ _ _
  | softReset => exact kept_execSoftReset _ _ _
  | setFailsafePolicy => exact kept_execSetFailsafePolicy _ _ _
  | setRef => exact kept_execSetRef _ _ _
  | setEpoch => exact kept_execSetEpoch _ _ _
  | setSt => exact kept_execSetSt _ _ _
  | setReturnPolicy => exact kept_execSetReturnPolicy _ _ _
  | schedule => exact kept_execSchedule _ _ _
  | unschedule => exact kept_execUnschedule _ _ _
  | setThreshold => exact kept_execSetThreshold _ _ _
  | setInputMode => exact kept_execSetInputMode _ _ _
  | setDeskew => exact kept_execSetDeskew _ _ _
  | calDeskew => exact kept_execCalDeskew _ _ _
  | calInterp => exact kept_execCalInterp _ _ _
  | setInterval => exact kept_execSetInterval _ _ _
  | loadPattern => exact kept_execLoadPattern _ _ _
  | arm => exact kept_execArm _ _ _
  | disarm => exact kept_execDisarm _ _ _
  | forceTack => exact kept_execForceTack _ _ _
  | setTrigout => exact kept_execSetTrigout _ _ _
  | setUnit => exact kept_execSetUnit _ _ _
  | setPortRole => exact kept_execSetPortRole _ _ _
  | cascadeDiscover => exact kept_execCascadeDiscover _ _ _
  | setReduction => exact kept_execSetReduction _ _ _
  | setLookback => exact kept_execSetLookback _ _ _
  | setWindowPolicy => exact kept_execSetWindowPolicy _ _ _
  | exportWindow => exact kept_execExportWindow _ _ _
  | startRun => exact kept_execStartRun _ _ _
  | stopRun => exact kept_execStopRun _ _ _
  | setDecoder => exact kept_execSetDecoder _ _ _
  | createBobbin => exact kept_execCreateBobbin _ _ _
  | destroyBobbin => exact kept_execDestroyBobbin _ _ _
  | route => exact kept_execRoute _ _ _
  | rewind => exact kept_execRewind _ _ _
  | setCompression => exact kept_execSetCompression _ _ _
  | setSigning => exact kept_execSetSigning _ _ _
  | replay => exact kept_execReplay _ _ _
  | setDramMap => exact kept_execSetDramMap _ _ _
  | train => exact kept_execTrain _ _ _
  | migrateRank => exact kept_execMigrateRank _ _ _
  | scrub => exact kept_execScrub _ _ _
  | setHkSeq => exact kept_execSetHkSeq _ _ _
  | hkCal => exact kept_execHkCal _ _ _
  | getAttestation => exact kept_execGetAttestation _ _ _
  | rotateEsk => exact kept_execRotateEsk _ _ _
  | auth => exact kept_execAuth _ _ _
  | updateFirmware => exact kept_execUpdateFirmware _ _ _
  | zeroize => exact kept_execZeroize _ _ _
  | jobSuspend => exact kept_execJobSuspend _ _ _
  | jobResume => exact kept_execJobResume _ _ _
  | jobCancel => exact kept_execJobCancel _ _ _
  | jobStatus => exact kept_execJobStatus _ _ _
  | readLog => exact kept_execReadLog _ _ _
  | jobDequeue => exact kept_execJobDequeue _ _ _
  | jobSuspendPoint => exact kept_execJobSuspendPoint _ _ _
  | jobEnd => exact kept_execJobEnd _ _ _ _
  | epochInPulse => exact kept_execEpochInPulse _ _ _ _ _ _
  | slewEnd => exact kept_execSlewEnd _ _
  | epochInMiss => exact kept_execEpochInMiss _ _
  | refclkAbsent => exact kept_execRefclkAbsent _ _
  | refFreqMeasurement => exact kept_execRefFreqMeasurement _ _ _
  | anchorBoundary => exact kept_execAnchorBoundary _ _ _ _
  | epochBoundary => exact kept_execEpochBoundary _ _
  | epochOutPulseEnd => exact kept_execEpochOutPulseEnd _ _
  | synthesiserLockLoss => exact kept_execSynthesiserLockLoss _ _
  | synthesiserRelock => exact kept_execSynthesiserRelock _ _
  | timeTransfer => exact kept_execTimeTransfer _ _ _ _
  | schedulerEntryDue => exact kept_execSchedulerEntryDue _ _ _
  | edgeDetected => exact kept_execEdgeDetected _ _ _ _ _ _ _
  | intervalTimeout => exact kept_execIntervalTimeout _ _ _
  | settleWindowEnd => exact kept_execSettleWindowEnd _ _ _
  | inputOutOfRange => exact kept_execInputOutOfRange _ _ _
  | outOfRangeEnd => exact kept_execOutOfRangeEnd _ _ _
  | deskewDoubtEnd => exact kept_execDeskewDoubtEnd _ _ _
  | burstSramResume => exact kept_execBurstSramResume _ _ _
  | burstSramParityError => exact kept_execBurstSramParityError _ _ _ _ _
  | flushIntervalExpiry => exact kept_execFlushIntervalExpiry _ _ _
  | selfVerifyComplete => exact kept_execSelfVerifyComplete _ _ _ _
  | stagingResume => exact kept_execStagingResume _ _ _
  | stagingDramWriteComplete => exact kept_execStagingDramWriteComplete _ _ _
  | loadIntervalEnd => exact kept_execLoadIntervalEnd _ _
  | slotEvaluation => exact kept_execSlotEvaluation _ _ _ _
  | disarmShutdownEnd => exact kept_execDisarmShutdownEnd _ _
  | trigInEdge => exact kept_execTrigInEdge _ _ _ _ _
  | trigOutAssert => exact kept_execTrigOutAssert _ _ _
  | trigOutPulseEnd => exact kept_execTrigOutPulseEnd _ _ _
  | cancelPattern => exact kept_execCancelPattern _ _ _
  | idle => exact kept_execIdle _ _ _ _
  | cascadeLinkDown => exact kept_execCascadeLinkDown _ _ _ _
  | retransmitTimeout => exact kept_execRetransmitTimeout _ _ _
  | armMessage => exact kept_execArmMessage _ _ _ _
  | disarmMessage => exact kept_execDisarmMessage _ _ _ _
  | cascadeCommandDue => exact kept_execCascadeCommandDue _ _
  | fire => exact kept_execFire _ _ _ _
  | basteMessage => exact kept_execBasteMessage _ _ _ _
  | sewMessage => exact kept_execSewMessage _ _ _ _
  | unpickMessage => exact kept_execUnpickMessage _ _ _ _
  | discover => exact kept_execDiscover _ _ _ _
  | report => exact kept_execReport _ _ _ _
  | armResult => exact kept_execArmResult _ _ _ _
  | isolated => exact kept_execIsolated _ _ _ _
  | rejoined => exact kept_execRejoined _ _ _ _
  | doubtMessage => exact kept_execDoubtMessage _ _ _ _
  | remoteBasteExpiry => exact kept_execRemoteBasteExpiry _ _ _ _
  | stateSampleComplete => exact kept_execStateSampleComplete _ _ _ _
  | statsWindowEnd => exact kept_execStatsWindowEnd _ _ _
  | windowSegmentRead => exact kept_execWindowSegmentRead _ _ _ _ _
  | windowClose => exact kept_execWindowClose _ _ _
  | runShutdownEnd => exact kept_execRunShutdownEnd _ _
  | decoderMessageComplete => exact kept_execDecoderMessageComplete _ _ _
  | cdrLockLoss => exact kept_execCdrLockLoss _ _ _
  | smbusTimeout => exact kept_execSmbusTimeout _ _ _
  | segmentHashComplete => exact kept_execSegmentHashComplete _ _ _
  | signatureIntervalExpiry => exact kept_execSignatureIntervalExpiry _ _ _
  | segmentDelivered => exact kept_execSegmentDelivered _ _ _ _
  | oweTimeout => exact kept_execOweTimeout _ _ _ _
  | backlogSegmentRead => exact kept_execBacklogSegmentRead _ _ _ _
  | rewindComplete => exact kept_execRewindComplete _ _ _
  | duplicateTimeout => exact kept_execDuplicateTimeout _ _ _
  | contextParityError => exact kept_execContextParityError _ _ _
  | dramReadComplete => exact kept_execDramReadComplete _ _ _ _ _ _ _ _
  | migrationBlockCopied => exact kept_execMigrationBlockCopied _ _ _ _
  | refreshInterval => exact kept_execRefreshInterval _ _
  | dimmTemperatureRead => exact kept_execDimmTemperatureRead _ _ _
  | selfRefreshEntry => exact kept_execSelfRefreshEntry _ _
  | selfRefreshExit => exact kept_execSelfRefreshExit _ _
  | dqsCompensation => exact kept_execDqsCompensation _ _
  | rowIdleClose => exact kept_execRowIdleClose _ _ _
  | patrolScrub => exact kept_execPatrolScrub _ _ _ _ _ _
  | logRetry => exact kept_execLogRetry _ _ _ _
  | tamperNAssert => exact kept_execTamperNAssert _ _
  | tamperNRelease => exact kept_execTamperNRelease _ _
  | svcEnAssert => exact kept_execSvcEnAssert _ _
  | svcEnDeassert => exact kept_execSvcEnDeassert _ _
  | svcUnlock => exact kept_execSvcUnlock _ _ _
  | zeroizationEraseComplete => exact kept_execZeroizationEraseComplete _ _
  | fikGenerated => exact kept_execFikGenerated _ _
  | authChallengeExpiry => exact kept_execAuthChallengeExpiry _ _ _
  | authLockoutEnd => exact kept_execAuthLockoutEnd _ _
  | firmwareSwapPoint => exact kept_execFirmwareSwapPoint _ _ _
  | seamUnsettled => exact kept_execSeamUnsettled _ _ _ _ _
  | seamUnsettledTimeout => exact kept_execSeamUnsettledTimeout _ _ _
  | seamOverrunDiscard => exact kept_execSeamOverrunDiscard _ _ _
  | seamClockStopped => exact kept_execSeamClockStopped _ _ _ _
  | seamClockStopTimeout => exact kept_execSeamClockStopTimeout _ _ _
  | seamClockResumed => exact kept_execSeamClockResumed _ _ _
  | regionWatchdog => exact kept_execRegionWatchdog _ _ _
  | regionIntakeEnd => exact kept_execRegionIntakeEnd _ _ _
  | regionWriteDrainEnd => exact kept_execRegionWriteDrainEnd _ _ _ _ _
  | regionReinitEnd => exact kept_execRegionReinitEnd _ _ _
  | temperatureCheck => exact kept_execTemperatureCheck _ _ _
  | supplyCheck => exact kept_execSupplyCheck _ _ _
  | configParityCheck => exact kept_execConfigParityCheck _ _ _ _
  | configParityRepair => exact kept_execConfigParityRepair _ _ _
  | controlCoreWatchdog => exact kept_execControlCoreWatchdog _ _
  | coreRestartComplete => exact kept_execCoreRestartComplete _ _
  | softResetComplete => exact kept_execSoftResetComplete _ _ _
  | hkReading => exact kept_execHkReading _ _ _ _ _
  | hkIntervalTrigger => exact kept_execHkIntervalTrigger _ _
  | hkWake => exact kept_execHkWake _ _
  | hkCalPass => exact kept_execHkCalPass _ _ _ _ _ _ _
  | configSpaceUp => exact kept_execConfigSpaceUp _ _
  | selfTestsComplete => exact kept_execSelfTestsComplete _ _ _
  | firmwareSelected => exact kept_execFirmwareSelected _ _ _
  | initialSynthLock => exact kept_execInitialSynthLock _ _ h
  | initialLockTimeout => exact kept_execInitialLockTimeout _ _ h
  | readySet => exact kept_execReadySet _ _
  | supplyCollapse => exact absurd trivial h
  | supplyRecovered => exact kept_execSupplyRecovered _ _
  | perstNRelease => exact kept_execPerstNRelease _ _
  | blockLockAchieved => exact kept_execBlockLockAchieved _ _ _
  | blockLockLoss => exact kept_execBlockLockLoss _ _ _
  | badCrcMessage => exact kept_execBadCrcMessage _ _ _ _

/-- A command of which the four exceptions of R11 are excluded does not restart SI. -/
theorem not_restartsSlots {i : Instr} {s : State} (hf : ∀ t, i ≠ .fundamentalReset t) (hc : ∀ t, i ≠ .supplyCollapse t)
    (hl : ∀ t, i ≠ .initialSynthLock t ∨ s.startup.step ≠ 5) (ht : ∀ t, i ≠ .initialLockTimeout t ∨ s.startup.step ≠ 5) :
    ¬ restartsSlots i s := by
  unfold restartsSlots
  split
  · exact absurd rfl (hf _)
  · exact absurd rfl (hc _)
  · exact (hl _).resolve_left (fun h => h rfl)
  · exact (ht _).resolve_left (fun h => h rfl)
  · exact id

/-- While SI runs, a command that happens at a later slot finds SI there. -/
theorem si_moment (s : State) (t : SI) (hr : s.time.running = true) (ht : s.time.si ≤ t) : (s.moment t).time.si = t := by
  simp [Time.atSlot, hr, ht]

/-! ### What start-up and the doubt of the chip leave alone -/

/-- What the restart of SI turns on: the step of start-up, SI, whether it runs, and the causes of doubt. -/
def State.slotClock (s : State) : Nat × SI × Bool × BitVec 8 := (s.startup.step, s.time.si, s.time.running, s.safe.causes)

theorem Placed.slotClock {s s' : State} (h : Placed s s') : s'.slotClock = s.slotClock := by
  simp only [State.slotClock, h.startup, h.time, h.safe]

theorem Answered.slotClock {s s' : State} (h : Answered s s') : s'.slotClock = s.slotClock := by
  simp only [State.slotClock, h.startup, h.time, h.safe]

theorem slotClock_eq_iff {s : State} {k : Nat} {n : SI} {r : Bool} {c : BitVec 8} :
    s.slotClock = (k, n, r, c) ↔ s.startup.step = k ∧ s.time.si = n ∧ s.time.running = r ∧ s.safe.causes = c := by
  simp [State.slotClock]

/-- A fold of operations that each leave it alone leaves it alone. -/
theorem slotClock_foldl {β : Type} (f : State → β → State) (hf : ∀ s x, (f s x).slotClock = s.slotClock) (l : List β) (s : State) :
    (l.foldl f s).slotClock = s.slotClock := by
  induction l generalizing s with
  | nil => rfl
  | cons x rest ih => exact (ih _).trans (hf s x)

@[simp] theorem slotClock_post (s : State) (p : Posted) : (s.post p).slotClock = s.slotClock := (placed_post s p).slotClock

@[simp] theorem slotClock_raise (s : State) (n : Nat) : (s.raise n).slotClock = s.slotClock := (placed_raise s n).slotClock

@[simp] theorem slotClock_modPort (s : State) (n : Nat) (f : Port → Port) : (s.modPort n f).slotClock = s.slotClock := rfl

@[simp] theorem slotClock_sendIdle (s : State) (n : Nat) : (s.sendIdle n).slotClock = s.slotClock := by
  simp [State.sendIdle]

@[simp] theorem slotClock_putBlocks (s : State) (n : Nat) (x : Posted) : (s.putBlocks n x).slotClock = s.slotClock := by
  unfold State.putBlocks
  dsimp only
  split <;> simp

@[simp] theorem slotClock_transmit (s : State) (n type : Nat) (m : CasMsg) : (s.transmit n type m).slotClock = s.slotClock :=
  slotClock_putBlocks _ _ _

@[simp] theorem slotClock_stampSent (s : State) (type : Nat) (m : CasMsg) : (s.stampSent type m).slotClock = s.slotClock := by
  unfold State.stampSent
  split <;> rfl

@[simp] theorem slotClock_sendQueued (s : State) (n fuel : Nat) : (s.sendQueued n fuel).slotClock = s.slotClock := by
  induction fuel generalizing s with
  | zero => rfl
  | succ k ih =>
    unfold State.sendQueued
    dsimp only
    split
    · rfl
    · split
      · rfl
      · simp [ih]

@[simp] theorem slotClock_enqueue (s : State) (n type : Nat) (m : CasMsg) : (s.enqueue n type m).slotClock = s.slotClock := by
  unfold State.enqueue
  dsimp only
  split
  · simp
  · split <;> simp

@[simp] theorem slotClock_sendUp (s : State) (type : Nat) (m : CasMsg) : (s.sendUp type m).slotClock = s.slotClock := by
  unfold State.sendUp
  split <;> simp

@[simp] theorem slotClock_broadcast (s : State) (type : Nat) (m : CasMsg) : (s.broadcast type m).slotClock = s.slotClock :=
  slotClock_foldl _ (fun _ _ => slotClock_enqueue _ _ _ _) _ s

@[simp] theorem slotClock_originate (s : State) (type : Nat) (m : CasMsg) : (s.originate type m).slotClock = s.slotClock := by
  unfold State.originate
  split <;> simp

@[simp] theorem slotClock_sendDoubt (s : State) (begins : Bool) : (s.sendDoubt begins).slotClock = s.slotClock :=
  slotClock_originate _ _ _

@[simp] theorem slotClock_withdrawBastes (s : State) : s.withdrawBastes.slotClock = s.slotClock :=
  slotClock_foldl _ (fun _ _ => slotClock_originate _ _ _) _ _

@[simp] theorem slotClock_quietPins (s : State) : s.quietPins.slotClock = s.slotClock := rfl

@[simp] theorem slotClock_gateOutputs (s : State) : s.gateOutputs.slotClock = s.slotClock := by
  unfold State.gateOutputs
  dsimp only
  split
  · rfl
  · split <;> rfl

@[simp] theorem slotClock_driveFault (s : State) : s.driveFault.slotClock = s.slotClock := by
  unfold State.driveFault
  dsimp only
  split <;> rfl

/-- A doubt cause that begins is set among the causes; start-up and SI stay. -/
theorem slotClock_beginCauseAt (s : State) (k : Nat) (si : SI) :
    (s.beginCauseAt k si).slotClock = (s.startup.step, s.time.si, s.time.running, s.safe.causes ||| (1#8 <<< k)) := by
  unfold State.beginCauseAt
  dsimp only
  split
  next hold => rw [hold]; rfl
  next =>
    split
    · simp only [slotClock_withdrawBastes, slotClock_sendDoubt, slotClock_driveFault, slotClock_gateOutputs, slotClock_quietPins, slotClock_raise,
        (placed_placeActive _ _).slotClock]
      rfl
    · rw [slotClock_raise, (placed_placeActive _ _).slotClock]
      rfl

/-- A fundamental reset puts start-up at its first step, with SI at 0 and not running (R416). -/
theorem slotClock_execFundamentalReset (t : SI) (s : State) :
    ∃ s', execFundamentalReset t s = .next s' ∧ s'.slotClock = (1, 0, false, 0) :=
  ⟨_, rfl, slotClock_driveFault _⟩

/-- The reset that a supply collapse holds leaves the same (R562). -/
theorem slotClock_execSupplyCollapse (t : SI) (s : State) : ∃ s', execSupplyCollapse t s = .next s' ∧ s'.slotClock = (1, 0, false, 0) :=
  ⟨_, rfl, slotClock_driveFault _⟩

/-- Step 6 begins: TRAIN starts; SI and the causes of doubt stay. -/
theorem slotClock_startTraining (s : State) : s.startTraining.slotClock = (6, s.slotClock.2) :=
  (answered_startJob _ _ _ _).slotClock

/-- At the end of step 5 the sample clock starts with SI at 0 (R536). -/
theorem slotClock_execInitialSynthLock (t : SI) (s : State) (h : s.startup.step = 5) :
    ∃ s', execInitialSynthLock t s = .next s' ∧ s'.slotClock = (6, 0, true, s.safe.causes) :=
  ⟨_, if_neg (not_not_intro h), slotClock_startTraining _⟩

/-- Without the lock it starts on the backup frame clock, with SI at 0 and in doubt with cause [0] (R538). -/
theorem slotClock_execInitialLockTimeout (t : SI) (s : State) (h : s.startup.step = 5) :
    ∃ s', execInitialLockTimeout t s = .next s' ∧ s'.slotClock = (6, 0, true, s.safe.causes ||| 1) :=
  ⟨_, if_neg (not_not_intro h), (slotClock_startTraining _).trans (congrArg (fun c => (6, c.2)) (slotClock_beginCauseAt _ causeSynth 0))⟩

end Sys2Proof.Machine

namespace Sys2Proof.Proofs

open Sys2Proof.Machine Sys2Proof.Safety

/-- Settles O4: every command but the restarts keeps the order of time (`kept_exec`), and after each restart SI is 0 (`slotClock`). -/
theorem slotIndexNeverDecreases : Obligations.SlotIndexNeverDecreases := by
  unfold Obligations.SlotIndexNeverDecreases
  refine ⟨?ordered, si_moment, ?fundamental, ?collapse, ?firstLock⟩
  case ordered =>
    intro s s' c rest hq hf hc hl ht hs
    have hn : ¬ restartsSlots c { s with pending := rest } := not_restartsSlots hf hc hl ht
    have hx : exec c { s with pending := rest } = .next s' := by
      rw [← hs, step, hq]
    exact (kept_exec c _ hn s' hx).si
  case fundamental =>
    intro s t
    obtain ⟨a, ha, hc⟩ := slotClock_execFundamentalReset t s
    obtain ⟨hstep, hsi, hrun, -⟩ := slotClock_eq_iff.1 hc
    exact ⟨a, ha, hsi, hrun, hstep⟩
  case collapse =>
    intro s t
    obtain ⟨a, ha, hc⟩ := slotClock_execSupplyCollapse t s
    obtain ⟨hstep, hsi, hrun, -⟩ := slotClock_eq_iff.1 hc
    exact ⟨a, ha, hsi, hrun, hstep⟩
  case firstLock =>
    intro s t h
    obtain ⟨a, ha, hca⟩ := slotClock_execInitialSynthLock t s h
    obtain ⟨b, hb, hcb⟩ := slotClock_execInitialLockTimeout t s h
    obtain ⟨hstepA, hsiA, hrunA, -⟩ := slotClock_eq_iff.1 hca
    obtain ⟨hstepB, hsiB, hrunB, hcauses⟩ := slotClock_eq_iff.1 hcb
    exact ⟨⟨a, ha, hsiA, hrunA, hstepA⟩, b, hb, hsiB, hrunB, hstepB, hcauses⟩

end Sys2Proof.Proofs

/-! ### Low and high words (R8) -/

namespace Sys2Proof.Machine

/-- The low words of R8 by register block and offset in it. -/
theorem isLow_iff (o : Nat) : isLow o = true ↔
    (o / 0x10000 = 1 ∧ o % 0x10000 = 4) ∨
    (o / 0x10000 = 7 ∧ o % 0x10000 < 0x2000 ∧
      (o % 0x1000 = 0x20 ∨ o % 0x1000 = 0x28 ∨ ((0x40 ≤ o % 0x1000 ∧ o % 0x1000 < 0xC0) ∧ o % 8 = 0))) ∨
    (o / 0x10000 = 9 ∧ o % 0x10000 = 0x18) ∨
    (o / 0x10000 = 10 ∧ o % 0x10000 = 0x20) ∨
    (o / 0x10000 = 11 ∧ (o % 0x10000 = 0x408 ∨ o % 0x10000 = 0x410 ∨ (o % 0x10000 < 0x400 ∧ (o % 0x40 = 0 ∨ o % 0x40 = 8)))) ∨
    (o / 0x10000 = 15 ∧ (o % 0x10000 = 8 ∨ o % 0x10000 = 0x10 ∨
      ((0x40 ≤ o % 0x10000 ∧ o % 0x10000 < 0xC0) ∧ (o % 0x20 = 0 ∨ o % 0x20 = 8)) ∨
      ((0x200 ≤ o % 0x10000 ∧ o % 0x10000 < 0x400) ∧ (o % 0x20 = 4 ∨ o % 0x20 = 0xC)) ∨
      ((0x400 ≤ o % 0x10000 ∧ o % 0x10000 < 0x800) ∧ o % 0x10 = 8) ∨ o % 0x10000 = 0xC0C ∨ o % 0x10000 = 0xC14)) := by
  have hm : ∀ c, c ∣ 0x10000 → o % 0x10000 % c = o % c := fun c hc => Nat.mod_mod_of_dvd o hc
  have hm8 : o % 0x1000 % 8 = o % 8 := by omega
  unfold isLow
  dsimp only
  rw [hm 0x1000 (by decide), hm 0x40 (by decide), hm 0x20 (by decide), hm 0x10 (by decide), hm8]
  split <;> simp_all [or_assoc]

/-- No two neighbouring registers are both low words. -/
theorem isLow_add_four {o : Nat} (h : isLow o = true) : isLow (o + 4) = false := by
  rw [← Bool.not_eq_true, isLow_iff]
  rw [isLow_iff] at h
  omega

/-- A low word is no latched register itself. -/
theorem isLatched_of_isLow {o : Nat} (h : isLow o = true) : isLatched o = false := by
  have hb : 4 ≤ o → isLow (o - 4) = false := by
    intro h4
    by_contra hl
    have := isLow_add_four (Bool.not_eq_false _ ▸ hl)
    rw [Nat.sub_add_cancel h4, h] at this
    exact absurd this (by decide)
  have hi : ¬ ((o / 0x10000 = 7 ∧ o % 0x10000 < 0x2000) ∧ o % 0x1000 = 0x1C) := by
    rw [isLow_iff] at h
    omega
  simp only [isLatched, Bool.or_eq_false_iff, Bool.and_eq_false_imp, decide_eq_true_eq, decide_eq_false_iff_not, Bool.and_eq_true]
  exact ⟨hb, fun h7 hc => hi ⟨h7, hc⟩⟩

/-- The register above a low word is latched. -/
theorem isLatched_add_four {o : Nat} (h : isLow o = true) : isLatched (o + 4) = true := by
  simp [isLatched, h]

/-- No SRAM register lies at a low word or at its high word. -/
theorem sramAt_of_isLow {o k : Nat} (h : isLow o = true) (hk : k ≤ 4) : sramAt (o + k) = none := by
  rw [isLow_iff] at h
  exact if_neg (by omega)

@[simp] theorem State.modSeq_obs (s : State) (n : Nat) (f : Seq → Seq) : (s.modSeq n f).obs = s.obs := by
  unfold State.modSeq
  split <;> rfl

/-- What a read clears are counters: the answer of the latest read and the latched words stay. -/
@[simp] theorem State.regClear_obs (s : State) (o w : Nat) : (s.regClear o w).obs = s.obs := by
  unfold State.regClear
  dsimp only
  repeat' split
  all_goals simp [State.modSeam, State.modPort]

theorem State.modSeq_id (s : State) (n : Nat) (f : Seq → Seq) (hf : ∀ q, f q = q) : s.modSeq n f = s := by
  unfold State.modSeq
  simp [hf]

/-- The read of a high word clears nothing. -/
theorem State.regClear_add_four {o : Nat} (h : isLow o = true) (s : State) (w : Nat) : s.regClear (o + 4) w = s := by
  rw [isLow_iff] at h
  have hdiv : (o + 4) / 0x10000 = o / 0x10000 := by omega
  have hbar : ¬ 0x100000 ≤ o + 4 := by omega
  unfold State.regClear
  dsimp only
  rw [if_neg hbar, hdiv]
  rcases h with ⟨hb, hk⟩ | ⟨hb, hk, hq⟩ | ⟨hb, hk⟩ | ⟨hb, hk⟩ | ⟨hb, hk⟩ | ⟨hb, hk⟩ <;> simp only [hb]
  · simp only [show (o + 4) % 0x10000 = 8 by omega]
  · rw [if_neg (by omega)]
    refine State.modSeq_id _ _ _ fun q => ?_
    split
    · omega
    · omega
    · omega
    · rfl
  · simp only [show (o + 4) % 0x10000 = 0x1C by omega]
    rfl
  · simp only [show (o + 4) % 0x10000 = 0x24 by omega]
  · rw [if_neg (by omega), if_neg (by omega)]
  · split
    · split
      · omega
      · omega
      · rfl
    · rw [if_neg (by omega)]
      split
      · omega
      · omega
      · rfl

/-! ### What a read answers -/

/-- What a read of BAR0 answers, latches and clears, but for the snapshot and the SRAM registers (R5, R8, R10). -/
theorem State.hostRead_eq {s : State} {o : Nat} (w : Nat) (ha : s.barAnswers = true) (hr : s.startup.ready = true) (h4 : o % 4 = 0)
    (hn : o ≠ 0x60008) (hs : sramAt o = none) :
    s.hostRead o w = ({ s with obs := { s.obs with
      readData := w32 (s.readValue o w), readPoisoned := false
      latches := (latchedBy o).foldl (fun t h => tput t h (w32 (s.regLive h))) s.obs.latches } } : State).regClear o w := by
  have ho : o / 4 * 4 = o := by omega
  simp [State.hostRead, State.sramNow, ho, ha, hr, hn, hs]

/-- Nothing is counted at the moment of the read: it returns what the register shows. -/
@[simp] theorem State.readValue_zero (s : State) (o : Nat) : s.readValue o 0 = s.regRead o := by
  simp [State.readValue]

/-- A low word is read as it is. -/
theorem State.regRead_of_isLow {o : Nat} (h : isLow o = true) (s : State) : s.regRead o = s.regLive o := by
  simp [State.regRead, isLatched_of_isLow h]

/-- A high word is read as it was latched. -/
theorem State.readValue_add_four {o : Nat} (h : isLow o = true) (s : State) (w : Nat) :
    s.readValue (o + 4) w = ((tfind s.obs.latches (o + 4)).getD 0).toNat := by
  simp [State.readValue, State.regRead, State.regClear_add_four h, isLatched_add_four h]

/-- A read of a low word latches its high word. -/
theorem tfind_latchedBy {o : Nat} (h : isLow o = true) (f : Nat → Word) (t : Tab Word) :
    tfind ((latchedBy o).foldl (fun t h => tput t h (f h)) t) (o + 4) = some (f (o + 4)) := by
  unfold latchedBy
  rw [if_pos h]
  split
  · have hne : o + 4 ≠ o - 4 := by omega
    simp [tfind_tput_ne _ _ _ _ hne]
  · simp

/-- A high word latches nothing. -/
theorem latchedBy_add_four {o : Nat} (h : isLow o = true) : latchedBy (o + 4) = [] := by
  simp [latchedBy, isLow_add_four h]

/-- The snapshot register of R80 is neither a low word nor a high word of R8. -/
theorem ne_snapshot_of_isLow {o k : Nat} (h : isLow o = true) (hk : k ≤ 4) : o + k ≠ 0x60008 := by
  rw [isLow_iff] at h
  omega

theorem State.barAnswers_of {s : State} (hc : s.pcie.configUp = true) (hl : s.pcie.linkUp = true) (hd : s.pcie.d3hot = false) :
    s.barAnswers = true := by
  simp [State.barAnswers, hc, hl, hd]

/-- The read of a low word (R8). -/
theorem State.hostRead_low {s : State} {o : Nat} (h4 : o % 4 = 0) (h : isLow o = true) (ha : s.barAnswers = true) (hr : s.startup.ready = true) :
    (s.hostRead o).obs.readData = w32 (s.regLive o) ∧ tfind (s.hostRead o).obs.latches (o + 4) = some (w32 (s.regLive (o + 4))) := by
  rw [State.hostRead_eq 0 ha hr h4 (ne_snapshot_of_isLow h (Nat.zero_le 4)) (sramAt_of_isLow h (Nat.zero_le 4)), State.regClear_obs]
  refine ⟨?_, tfind_latchedBy h (fun k => w32 (s.regLive k)) _⟩
  rw [State.readValue_zero, State.regRead_of_isLow h]

/-- The read of a high word (R8). -/
theorem State.hostRead_high {s : State} {o : Nat} (w : Nat) (h4 : o % 4 = 0) (h : isLow o = true) (ha : s.barAnswers = true)
    (hr : s.startup.ready = true) :
    (s.hostRead (o + 4) w).obs.readData = (tfind s.obs.latches (o + 4)).getD 0 ∧ (s.hostRead (o + 4) w).obs.latches = s.obs.latches := by
  rw [State.hostRead_eq w ha hr (by omega) (ne_snapshot_of_isLow h le_rfl) (sramAt_of_isLow h le_rfl), State.regClear_obs,
    latchedBy_add_four h, State.readValue_add_four h]
  exact ⟨BitVec.ofNat_toNat _ _, rfl⟩

end Sys2Proof.Machine

namespace Sys2Proof.Proofs

open Sys2Proof.Machine Sys2Proof.Safety

/-- Settles O7: `State.hostRead_low` and `State.hostRead_high` at the moment of the read. -/
theorem highWordsAreLatched : Obligations.HighWordsAreLatched := by
  unfold Obligations.HighWordsAreLatched
  refine ⟨?low, ?high, ?reset⟩
  case low =>
    intro s t o h4 h hc hl hd hr
    exact ⟨_, rfl, State.hostRead_low h4 h (State.barAnswers_of hc hl hd) hr⟩
  case high =>
    intro s t o h4 h hc hl hd hr raced
    exact ⟨_, rfl, State.hostRead_high (s := s.moment t) _ h4 h (State.barAnswers_of hc hl hd) hr⟩
  case reset => decide

end Sys2Proof.Proofs

namespace Sys2Proof.Machine

/-! ### Discarded writes (R5, R6, R401, R402) -/

/-- The blocks in which the host writes nothing: the directory, the regions, TIM, SEQ, CAS, MEM, HKA, CAP, and what lies above the doorbells. -/
theorem hostWritable_eq_false {o : Nat}
    (h : o < 0x10000 ∨ (0x20000 ≤ o ∧ o < 0xA0000) ∨ (0xD0000 ≤ o ∧ o < 0xE0000) ∨ (0xF0000 ≤ o ∧ o < 0x100000) ∨ 0x900000 ≤ o) :
    hostWritable (o / 4 * 4) = false := by
  unfold hostWritable
  dsimp only
  rw [if_neg (by omega)]
  split
  · omega
  · omega
  · omega
  · omega
  · omega
  · rfl

/-- A write of BAR0 is the write at its moment, and the rings go on. -/
theorem exec_registerWrite_bar0 (s : State) (t : SI) (o : Nat) (v raced : Word) (whole : Bool) :
    exec (.registerWrite t (.bar0 o) v ⟨whole, raced⟩) s = .next ((s.moment t).hostWrite o v whole raced).pump := rfl

/-- A write of a register without a host-writable field is discarded. -/
theorem State.hostWrite_readOnly {s : State} {o : Nat} (h : hostWritable (o / 4 * 4) = false) (v : Word) (whole : Bool) (raced : Word) :
    s.hostWrite o v whole raced = s := by
  simp [State.hostWrite, h]

/-- While the host cannot write BAR0, every write of it is discarded. -/
theorem State.hostWrite_closed {s : State} (h : s.barWrites = false) (o : Nat) (v : Word) (whole : Bool) (raced : Word) :
    s.hostWrite o v whole raced = s := by
  simp [State.hostWrite, h]

/-- A write of a host-writable register that is not one whole aligned DW is discarded and counted. -/
theorem State.hostWrite_partial {s : State} {o : Nat} {whole : Bool} (hb : s.barWrites = true) (hw : hostWritable (o / 4 * 4) = true)
    (h : whole = false ∨ o % 4 ≠ 0) (v raced : Word) : s.hostWrite o v whole raced = s.barError := by
  rcases h with rfl | h
  · simp [State.hostWrite, hb, hw]
  · simp [State.hostWrite, hb, hw, h]

/-- A whole aligned write of a host-writable W1C register clears what is written as 1 and not set at the same moment (R9). -/
theorem State.hostWrite_clears {s : State} {o : Nat} (hb : s.barWrites = true) (hw : hostWritable o = true) (h4 : o % 4 = 0)
    (hc : clearsByOne o = true) (v raced : Word) : s.hostWrite o v true raced = s.writeBar0 o (v &&& ~~~raced) := by
  have ho : o / 4 * 4 = o := by omega
  simp [State.hostWrite, hb, ho, hw, h4, hc]

/-- The bits that a W1C write clears. -/
theorem getLsbD_cleared (v raced : Word) {k : Nat} (hk : k < 32) : (v &&& ~~~raced).getLsbD k = (v.getLsbD k && !raced.getLsbD k) := by
  simp [hk]

theorem State.writeBar0_chpStat (s : State) (v : Word) :
    s.writeBar0 0x10000 v = { s with safe := { s.safe with seen := s.safe.seen &&& ~~~(BitVec.ofNat 8 (v.toNat / 65536)) } } := rfl

theorem State.writeBar0_hstStat (s : State) (v : Word) :
    s.writeBar0 0xA0000 v = { s with pcie := { s.pcie with winRange := s.pcie.winRange && !v.getLsbD 13 } } := rfl

theorem State.writeBar0_secStat (s : State) (v : Word) :
    s.writeBar0 0xC0000 v = { s with sec := { s.sec with tamperLatched := s.sec.tamperLatched && !v.getLsbD 29 } } := rfl

/-- The register of event sources 32 k to 32 k + 31 among the blocks of BAR0 (R425). -/
theorem eventReg_place {o k : Nat} (hk : k < 24) (ho : o = 0xA0100 + 4 * k) :
    o < 0x100000 ∧ o / 0x10000 = 10 ∧ 0x100 ≤ o % 0x10000 ∧ o % 0x10000 < 0x160 ∧ (o % 0x10000 - 0x100) / 4 = k := by
  omega

theorem hostWritable_eventReg {o k : Nat} (hk : k < 24) (ho : o = 0xA0100 + 4 * k) : hostWritable o = true := by
  obtain ⟨hbar, hd, hlo, hhi, -⟩ := eventReg_place hk ho
  unfold hostWritable
  dsimp only
  rw [if_neg (by omega)]
  simp only [hd, hlo, hhi, and_self, decide_true, Bool.or_true]

theorem clearsByOne_eventReg {o k : Nat} (hk : k < 24) (ho : o = 0xA0100 + 4 * k) : clearsByOne o = true := by
  obtain ⟨hbar, hd, hlo, -, -⟩ := eventReg_place hk ho
  have hm : o % 0x10000 ≠ 0x28 ∧ o % 0x10000 ≠ 0x2C := by omega
  unfold clearsByOne
  rw [if_neg (by omega)]
  simp [hd, hm]

/-- The event registers hold 32 event sources each. -/
theorem State.writeBar0_events (s : State) (v : Word) {o k : Nat} (hk : k < 24) (ho : o = 0xA0100 + 4 * k) :
    s.writeBar0 o v = { s with events := { s.events with
      raised := s.events.raised.filter (fun n => !(decide (n / 32 = k) && v.getLsbD (n % 32))) } } := by
  obtain ⟨hbar, hd, hlo, -, hq⟩ := eventReg_place hk ho
  unfold State.writeBar0
  dsimp only
  rw [if_neg (by omega)]
  simp only [hd, hq]
  rw [if_neg (by omega), if_neg (by omega), if_neg (by omega)]

/-! ### Counters cleared on read (R5, R10) -/

/-- The read of a register that neither is latched nor latches. -/
theorem State.hostRead_plain {s : State} {o : Nat} (w : Nat) (ha : s.barAnswers = true) (hr : s.startup.ready = true) (h4 : o % 4 = 0)
    (hn : o ≠ 0x60008) (hs : sramAt o = none) (hl : latchedBy o = []) :
    s.hostRead o w = (s.answerRead (w32 (s.readValue o w))).regClear o w := by
  rw [State.hostRead_eq w ha hr h4 hn hs, hl]
  rfl

theorem State.regRead_of_not_latched {o : Nat} (h : isLatched o = false) (s : State) : s.regRead o = s.regLive o := by
  simp [State.regRead, h]

/-- A read at whose moment nothing occurs, of a register that is not latched either. -/
theorem State.hostRead_unraced {s : State} {o : Nat} (ha : s.barAnswers = true) (hr : s.startup.ready = true) (h4 : o % 4 = 0)
    (hn : o ≠ 0x60008) (hs : sramAt o = none) (hl : latchedBy o = []) (hh : isLatched o = false) :
    s.hostRead o = (s.answerRead (w32 (s.regLive o))).regClear o 0 := by
  rw [State.hostRead_plain 0 ha hr h4 hn hs hl, State.readValue_zero, State.regRead_of_not_latched hh]

/-- Nothing that occurs at the moment of the read stays behind. -/
@[simp] theorem kept_no_race (live hi lo : Nat) : Machine.kept 0 live hi lo = 0 := by
  simp [Machine.kept, bits]

/-- A register value field by field. -/
theorem regOf_cons (v lo w : Nat) (fs : List (Nat × Nat × Nat)) : regOf ((v, lo, w) :: fs) = v % 2 ^ w * 2 ^ lo + regOf fs := by
  simp [regOf]

theorem regOf_nil : regOf [] = 0 := rfl

/-- A flag fills its bit. -/
theorem regOf_flag (b : Bool) (k : Nat) (fs : List (Nat × Nat × Nat)) : regOf (rb b k :: fs) = b2n b * 2 ^ k + regOf fs := by
  have hb : b2n b % 2 = b2n b := by cases b <;> rfl
  rw [rb, regOf_cons, pow_one, hb]

theorem State.regLive_cto (s : State) : s.regLive 0xA0004 = s.pcie.cto % 65536 * 65536 + s.pcie.lateCpl % 65536 := by
  show regOf [(s.pcie.cto, 16, 16), (s.pcie.lateCpl, 0, 16)] = _
  simp only [regOf_cons, regOf_nil, Nat.reducePow, Nat.mul_one, Nat.add_zero]

theorem State.regLive_resets (s : State) : s.regLive 0xA0008 =
    s.pcie.cntLinkDown % 256 * 16777216 + s.pcie.cntHotReset % 256 * 65536 + s.pcie.cntFlr % 256 * 256 + s.pcie.cntFreeze % 256 := by
  show regOf [(s.pcie.cntLinkDown, 24, 8), (s.pcie.cntHotReset, 16, 8), (s.pcie.cntFlr, 8, 8), (s.pcie.cntFreeze, 0, 8)] = _
  simp only [regOf_cons, regOf_nil, Nat.reducePow, Nat.mul_one, Nat.add_zero, Nat.add_assoc]

theorem State.regLive_badCpl (s : State) : s.regLive 0xA000C = s.pcie.badCpl % 65536 * 65536 + s.pcie.barErr % 65536 := by
  show regOf [(s.pcie.badCpl, 16, 16), (s.pcie.barErr, 0, 16)] = _
  simp only [regOf_cons, regOf_nil, Nat.reducePow, Nat.mul_one, Nat.add_zero]

theorem State.regClear_cto (s : State) (w : Nat) : s.regClear 0xA0004 w =
    { s with pcie := { s.pcie with cto := Machine.kept w s.pcie.cto 31 16, lateCpl := Machine.kept w s.pcie.lateCpl 15 0 } } := rfl

theorem State.regClear_resets (s : State) (w : Nat) : s.regClear 0xA0008 w =
    { s with pcie := { s.pcie with
      cntLinkDown := Machine.kept w s.pcie.cntLinkDown 31 24, cntHotReset := Machine.kept w s.pcie.cntHotReset 23 16
      cntFlr := Machine.kept w s.pcie.cntFlr 15 8, cntFreeze := Machine.kept w s.pcie.cntFreeze 7 0 } } := rfl

theorem State.regClear_badCpl (s : State) (w : Nat) : s.regClear 0xA000C w =
    { s with pcie := { s.pcie with badCpl := Machine.kept w s.pcie.badCpl 31 16, barErr := Machine.kept w s.pcie.barErr 15 0 } } := rfl

/-- A read of 0xA0004 that answers v, at whose moment nothing occurs, clears its counters. -/
theorem State.answerRead_clear_cto (s : State) (v : Word) : (s.answerRead v).regClear 0xA0004 0 = { s with
    obs := { s.obs with readData := v, readPoisoned := false }
    pcie := { s.pcie with cto := 0, lateCpl := 0 } } := by
  rw [State.regClear_cto]
  simp only [kept_no_race, State.answerRead]

theorem State.hostRead_cto {s : State} (ha : s.barAnswers = true) (hr : s.startup.ready = true) :
    s.hostRead 0xA0004 = { s with
      obs := { s.obs with
        readData := w32 (s.pcie.cto % 65536 * 65536 + s.pcie.lateCpl % 65536)
        readPoisoned := false }
      pcie := { s.pcie with cto := 0, lateCpl := 0 } } := by
  rw [State.hostRead_unraced ha hr (by decide) (by decide) (by decide) (by decide) (by decide), State.regLive_cto, State.answerRead_clear_cto]

/-- A read of 0xA0008 that answers v, at whose moment nothing occurs, clears its counters. -/
theorem State.answerRead_clear_resets (s : State) (v : Word) : (s.answerRead v).regClear 0xA0008 0 = { s with
    obs := { s.obs with readData := v, readPoisoned := false }
    pcie := { s.pcie with cntLinkDown := 0, cntHotReset := 0, cntFlr := 0, cntFreeze := 0 } } := by
  rw [State.regClear_resets]
  simp only [kept_no_race, State.answerRead]

theorem State.hostRead_resets {s : State} (ha : s.barAnswers = true) (hr : s.startup.ready = true) :
    s.hostRead 0xA0008 = { s with
      obs := { s.obs with
        readData := w32 (s.pcie.cntLinkDown % 256 * 16777216 + s.pcie.cntHotReset % 256 * 65536 + s.pcie.cntFlr % 256 * 256 + s.pcie.cntFreeze % 256)
        readPoisoned := false }
      pcie := { s.pcie with cntLinkDown := 0, cntHotReset := 0, cntFlr := 0, cntFreeze := 0 } } := by
  rw [State.hostRead_unraced ha hr (by decide) (by decide) (by decide) (by decide) (by decide), State.regLive_resets, State.answerRead_clear_resets]

/-- A read of 0xA000C that answers v, at whose moment nothing occurs, clears its counters. -/
theorem State.answerRead_clear_badCpl (s : State) (v : Word) : (s.answerRead v).regClear 0xA000C 0 = { s with
    obs := { s.obs with readData := v, readPoisoned := false }
    pcie := { s.pcie with badCpl := 0, barErr := 0 } } := by
  rw [State.regClear_badCpl]
  simp only [kept_no_race, State.answerRead]

theorem State.hostRead_badCpl {s : State} (ha : s.barAnswers = true) (hr : s.startup.ready = true) :
    s.hostRead 0xA000C = { s with
      obs := { s.obs with
        readData := w32 (s.pcie.badCpl % 65536 * 65536 + s.pcie.barErr % 65536)
        readPoisoned := false }
      pcie := { s.pcie with badCpl := 0, barErr := 0 } } := by
  rw [State.hostRead_unraced ha hr (by decide) (by decide) (by decide) (by decide) (by decide), State.regLive_badCpl, State.answerRead_clear_badCpl]

/-- h and l of the counters at 0xA0004 occur at the moment of its read: it returns the counters without them and leaves them (R10). -/
theorem State.hostRead_cto_raced {s : State} (ha : s.barAnswers = true) (hr : s.startup.ready = true) {h l : Nat} (hh : h ≤ s.pcie.cto)
    (hl : l ≤ s.pcie.lateCpl) (hc : s.pcie.cto < 65536) (hp : s.pcie.lateCpl < 65536) :
    s.hostRead 0xA0004 (w32 (65536 * h + l)).toNat = { s with
      obs := { s.obs with readData := w32 ((s.pcie.cto - h) * 65536 + (s.pcie.lateCpl - l)), readPoisoned := false }
      pcie := { s.pcie with cto := h, lateCpl := l } } := by
  have hw : (w32 (65536 * h + l)).toNat = 65536 * h + l := by
    rw [w32, BitVec.toNat_ofNat]
    omega
  have hkh : Machine.kept (65536 * h + l) s.pcie.cto 31 16 = h := by
    simp only [Machine.kept, bits]
    omega
  have hkl : Machine.kept (65536 * h + l) s.pcie.lateCpl 15 0 = l := by
    simp only [Machine.kept, bits]
    omega
  have hv : s.readValue 0xA0004 (65536 * h + l) = (s.pcie.cto - h) * 65536 + (s.pcie.lateCpl - l) := by
    simp only [State.readValue, State.regRead_of_not_latched (show isLatched 0xA0004 = false by decide), State.regLive_cto, State.regClear_cto,
      kept_no_race, hkh, hkl]
    omega
  rw [hw, State.hostRead_plain _ ha hr (by decide) (by decide) (by decide) (by decide), hv, State.regClear_cto, State.answerRead, hkh, hkl]

/-! ### Configuration space, two DWs and the MSI-X structure (R398, R399, R401, R407) -/

theorem State.hostReadAt_config {s : State} (h : s.configAnswers = true) (x : ConfigReg) (w : Nat) :
    s.hostReadAt (.config x) w = s.answerRead (w32 (s.configRegister x)) := by
  simp [State.hostReadAt, State.onConfig, h]

/-- A configuration request before configuration space is up, or during a reset: retried where the link is up (R399). -/
theorem State.hostReadAt_config_unanswered {s : State} (h : s.configAnswers = false) (x : ConfigReg) (w : Nat) :
    s.hostReadAt (.config x) w = if s.pcie.linkUp then s.post .retryStatus else s := by
  simp [State.hostReadAt, State.onConfig, h]

theorem State.hostReadAt_bar4 {s : State} (ha : s.barAnswers = true) {o : Nat} (h4 : o % 4 = 0) (w : Nat) :
    s.hostReadAt (.bar4 o) w = s.answerRead (w32 (s.msixReg o)) := by
  have ho : o / 4 * 4 = o := by omega
  simp [State.hostReadAt, ha, ho]

/-- The vector control word of an MSI-X vector. -/
theorem State.msixReg_mask (s : State) {o v : Nat} (hv : v < 2048) (ho : o = 16 * v + 12) :
    s.msixReg o = b2n ((tfind s.events.table v).getD {}).masked := by
  have hi : o / 16 = v := by omega
  have hw : o % 16 / 4 = 3 := by omega
  unfold State.msixReg
  rw [if_pos (by omega), hi, hw]
  rfl

/-- The event map entry of an event source. -/
theorem State.msixReg_map (s : State) {o n : Nat} (hn : n < 768) (ho : o = 0xC000 + 4 * n) :
    s.msixReg o = b2n ((tfind s.events.map n).getD {}).enable * 2 ^ 31 +
      b2n ((tfind s.events.map n).getD {}).wake * 2 ^ 30 + ((tfind s.events.map n).getD {}).vector % 2048 := by
  have hi : (o - 0xC000) / 4 = n := by omega
  unfold State.msixReg
  rw [if_neg (by omega), if_neg (by omega), if_pos (by omega), hi]
  simp only [regOf_flag, regOf_cons, regOf_nil, Nat.reducePow, Nat.mul_one, Nat.add_zero, Nat.add_assoc]

/-- A read of two DWs answers the lower register and one more DW. -/
theorem State.hostReadTwo_obs {s : State} (ha : s.barAnswers = true) (o w wHigh : Nat) :
    (s.hostReadTwo o w wHigh).obs.readData = (s.hostRead o w).obs.readData ∧ (s.hostReadTwo o w wHigh).obs.readMore.length = 1 := by
  simp [State.hostReadTwo, ha]

end Sys2Proof.Machine

namespace Sys2Proof.Proofs

open Sys2Proof.Machine Sys2Proof.Safety

/-- Settles O6, clause by clause: writes that are discarded, W1C fields, RC fields, and the reads of configuration space, two DWs and BAR4. -/
theorem registerAccesses : Obligations.RegisterAccesses := by
  unfold Obligations.RegisterAccesses
  refine ⟨?writes, ?clears, ?counters, ?others⟩
  case writes =>
    intro s t o v raced whole
    refine ⟨fun ho => ?_, fun hb => ?_, fun hb hw hp => ?_, fun ha => ?_⟩
    · rw [exec_registerWrite_bar0, State.hostWrite_readOnly (hostWritable_eq_false ho)]
    · rw [exec_registerWrite_bar0, State.hostWrite_closed (s := s.moment t) hb]
    · rw [exec_registerWrite_bar0, State.hostWrite_partial (s := s.moment t) hb hw hp]
      rfl
    · exact if_pos ha
  case clears =>
    intro s t v raced hb clears
    have hbm : (s.moment t).barWrites = true := hb
    refine ⟨?_, ?_, ?_, fun k hk => ?_⟩
    · rw [exec_registerWrite_bar0, State.hostWrite_clears hbm (by decide) (by decide) (by decide), State.writeBar0_chpStat]
      rfl
    · rw [exec_registerWrite_bar0, State.hostWrite_clears hbm (by decide) (by decide) (by decide), State.writeBar0_hstStat,
        getLsbD_cleared v raced (by decide)]
      rfl
    · rw [exec_registerWrite_bar0, State.hostWrite_clears hbm (by decide) (by decide) (by decide), State.writeBar0_secStat,
        getLsbD_cleared v raced (by decide)]
      rfl
    · rw [exec_registerWrite_bar0, State.hostWrite_clears hbm (hostWritable_eventReg hk rfl) (by omega) (clearsByOne_eventReg hk rfl),
        State.writeBar0_events _ _ hk rfl]
      simp only [getLsbD_cleared v raced (Nat.mod_lt _ (by decide : 0 < 32))]
      rfl
  case counters =>
    intro s t hc hl hd hr
    have ha : (s.moment t).barAnswers = true := State.barAnswers_of hc hl hd
    exact ⟨congrArg Host.Outcome.next (State.hostRead_cto ha hr), congrArg Host.Outcome.next (State.hostRead_resets ha hr),
      congrArg Host.Outcome.next (State.hostRead_badCpl ha hr),
      fun h l hh hl hc hp => congrArg Host.Outcome.next (State.hostRead_cto_raced ha hr hh hl hc hp)⟩
  case others =>
    intro s t raced reads
    refine ⟨fun ha => ⟨?_, ?_, ?_, ?_⟩, fun ha hl x => ?_, fun ha hl x => ?_, fun ha o racedHigh ho => ?_, fun hc hl hd => ⟨fun v hv => ?_, fun n hn => ?_⟩⟩
    · exact congrArg Host.Outcome.next (State.hostReadAt_config (s := s.moment t) ha _ _)
    · exact congrArg Host.Outcome.next (State.hostReadAt_config (s := s.moment t) ha _ _)
    · exact congrArg Host.Outcome.next (State.hostReadAt_config (s := s.moment t) ha _ _)
    · exact congrArg Host.Outcome.next (State.hostReadAt_config (s := s.moment t) ha _ _)
    · exact congrArg Host.Outcome.next ((State.hostReadAt_config_unanswered (s := s.moment t) ha x _).trans (if_neg (by simp [hl])))
    · exact congrArg Host.Outcome.next ((State.hostReadAt_config_unanswered (s := s.moment t) ha x _).trans (if_pos hl))
    · exact ⟨_, rfl, _, rfl, State.hostReadTwo_obs (s := s.moment t) ha _ _ _⟩
    · refine congrArg Host.Outcome.next ((State.hostReadAt_bar4 (s := s.moment t) (State.barAnswers_of hc hl hd) (by omega) _).trans ?_)
      rw [State.msixReg_mask _ hv rfl]
      rfl
    · refine congrArg Host.Outcome.next ((State.hostReadAt_bar4 (s := s.moment t) (State.barAnswers_of hc hl hd) (by omega) _).trans ?_)
      rw [State.msixReg_map _ hn rfl]
      rfl

end Sys2Proof.Proofs

/-! ### What the reductions and the taps of an edge leave alone (R17, R18, R99) -/

namespace Sys2Proof.Machine

open Sys2Proof.Safety

/-- s' comes from s by what the state and statistics reductions do: records placed, events raised and the regions' own buffers and counters changed,
but no region's settings. -/
structure Reduced (s s' : State) : Prop where
  still : s'.still = s.still
  cfg : ∀ r, (s'.region r).cfg = (s.region r).cfg
  raised : ∀ n, n ∈ s.events.raised → n ∈ s'.events.raised
  posted : ∃ l, s'.obs.posted = l ++ s.obs.posted

theorem Placed.reduced {s s' : State} (h : Placed s s') : Reduced s s' := ⟨h.still, h.cfg, h.raised, h.posted⟩

theorem Reduced.refl (s : State) : Reduced s s := (Placed.refl s).reduced

theorem Reduced.trans {a b c : State} (h : Reduced a b) (k : Reduced b c) : Reduced a c := by
  obtain ⟨l, hl⟩ := h.posted
  obtain ⟨m, hm⟩ := k.posted
  exact ⟨k.still.trans h.still, fun r => (k.cfg r).trans (h.cfg r), fun n hn => k.raised n (h.raised n hn), m ++ l, by
    rw [hm, hl, List.append_assoc]⟩

/-- The same, the last step named first. -/
theorem Reduced.after {a b c : State} (k : Reduced b c) (h : Reduced a b) : Reduced a c := h.trans k

theorem Reduced.foldl {β : Type} (f : State → β → State) (hf : ∀ s x, Reduced s (f s x)) (l : List β) (s : State) : Reduced s (l.foldl f s) := by
  induction l generalizing s with
  | nil => exact Reduced.refl s
  | cons x rest ih => exact (hf s x).trans (ih _)

theorem reduced_modRegion (s : State) (r : Nat) (f : Region → Region) (hf : (f (s.region r)).cfg = (s.region r).cfg) : Reduced s (s.modRegion r f) := by
  refine ⟨rfl, fun k => ?_, fun _ h => h, [], rfl⟩
  rw [State.modRegion_region]
  split
  next h => rw [hf, h]
  next => rfl

theorem Reduced.time {s s' : State} (h : Reduced s s') : s'.time = s.time := (congrArg (fun x : State => x.time) h.still :)

/-- What the reductions do leaves what onlyPlaces says: apart from the regions it is what placing records leaves. -/
theorem Reduced.only {x s' : State} (h : Reduced x s') : onlyPlaces x s' := by
  have hp : Placed { x with regions := s'.regions } s' := ⟨h.still, fun _ => rfl, h.raised, h.posted⟩
  exact ⟨hp.only.rest, h.cfg, h.raised, h.posted⟩

/-! ### State reduction (R208 to R211) -/

theorem clockEdge_cfg (g : Region) (k : Nat) (c : StateClock) (e : SeqEdge) : (g.clockEdge k c e).1.cfg = g.cfg := by
  unfold Region.clockEdge
  extract_lets f n g'
  split <;> rfl

theorem reduced_clockEdges (s : State) (r : Nat) (e : SeqEdge) : Reduced s (s.clockEdges r e) := by
  unfold State.clockEdges
  refine Reduced.foldl _ (fun s c => ?_) _ s
  have hg := reduced_modRegion s r (fun _ => ((s.region r).clockEdge c.1 c.2 e).1) (clockEdge_cfg _ _ _ _)
  dsimp only
  split
  · split
    · exact (placed_raiseIf _ _ _).reduced.after ((placed_place _ _ _).reduced.after ((reduced_modRegion _ _ _ rfl).after hg))
    · exact hg
  · exact Reduced.refl s

theorem reduced_drainClocks (s : State) (r : Nat) (b : SI) : Reduced s (s.drainClocks r b) :=
  (Reduced.foldl _ (fun _ _ => reduced_clockEdges _ _ _) _ _).after (reduced_modRegion s r _ rfl)

theorem reduced_stateEdge (s : State) (e : SeqEdge) : Reduced s (s.stateEdge e) :=
  (reduced_drainClocks _ _ _).after (reduced_modRegion s _ _ rfl)

theorem reduced_finishSample (s : State) (r : Nat) (x : PendingSample) : Reduced s (s.finishSample r x) :=
  (placed_raiseIf _ _ _).reduced.after ((placed_place _ _ _).reduced.after (reduced_modRegion s r _ rfl))

/-- With no clock edge waiting, no sample is taken. -/
theorem drainClocks_samples (s : State) (r : Nat) (b : SI) (h : (s.region r).clockBuf = []) :
    ((s.drainClocks r b).region r).samples = (s.region r).samples := by
  unfold State.drainClocks
  rw [h, List.filter_nil, List.foldl_nil, State.modRegion_region, if_pos rfl]

/-- Placing records leaves the pending samples. -/
theorem Placed.samples {s s' : State} (h : Placed s s') (r : Nat) : (s'.region r).samples = (s.region r).samples :=
  (congrArg (fun g : Region => g.samples) (h.region r) :)

/-- A sample that completes is no longer pending. -/
theorem finishSample_samples (s : State) (r : Nat) (x : PendingSample) :
    ((s.finishSample r x).region r).samples = (s.region r).samples.erase x := by
  unfold State.finishSample
  obtain ⟨rc, viol⟩ := s.sampleRec r x
  rw [(placed_raiseIf _ _ _).samples, (placed_place _ _ _).samples, State.modRegion_region, if_pos rfl]

/-- The slot at which a sample is due, from its instant and HOLD (R209). -/
theorem PendingSample.due_eq (x : PendingSample) : x.due = ((x.time : Int) + x.cfg.ofs + x.cfg.hold).toNat / 1024 * 16 + 64 := by
  rw [PendingSample.due, floor16, Nat.div_div_eq_div_mul]

/-! ### Statistics (R212 to R214) -/

theorem reduced_advanceStats (s : State) (r : Nat) (h : FineTime) : Reduced s (s.advanceStats r h) := reduced_modRegion s r _ rfl

theorem reduced_statEdge (s : State) (e : SeqEdge) : Reduced s (s.statEdge e) := by
  refine reduced_modRegion s _ _ ?_
  dsimp only
  split <;> rfl

theorem reduced_endStats (s : State) (r : Nat) (ks : List Nat) (b : SI) (cut again : Bool) : Reduced s (s.endStats r ks b cut again) :=
  (Reduced.foldl _ (fun _ _ => (placed_place _ _ _).reduced) _ _).after (reduced_modRegion s r _ rfl)

theorem reduced_finishCut (s : State) (r : Nat) : Reduced s (s.finishCut r) := by
  unfold State.finishCut
  split
  · exact Reduced.refl s
  · exact (Reduced.foldl _ (fun _ _ => (placed_place _ _ _).reduced) _ _).after (reduced_modRegion s r _ rfl)

theorem reduced_finishEnded (s : State) (r : Nat) (x : SI) : Reduced s (s.finishEnded r x) :=
  Reduced.foldl _ (fun _ _ => reduced_finishCut _ _) _ s

theorem reduced_nextStats (s : State) (r : Nat) (w : SI) : Reduced s (s.nextStats r w) :=
  (reduced_modRegion _ r _ rfl).after ((reduced_endStats _ r _ w false true).after
    ((reduced_advanceStats _ r _).after (reduced_finishEnded s r w)))

/-- The window that follows begins where the ended one ends. -/
theorem nextStats_statStart (s : State) (r : Nat) (w : SI) : ((s.nextStats r w).region r).statStart = w := by
  unfold State.nextStats
  rw [State.modRegion_region, if_pos rfl]

/-! ### What the rows of R37, R209 and R212 do -/

/-- Megabytes rounded up, saturating at 16 bits. -/
theorem unitsUp_megabytes (n : Nat) : unitsUp 16 1000000 n = min ((n + 999999) / 1000000) 65535 := by
  rw [unitsUp, Nat.add_sub_assoc (by decide)]
  norm_num

/-- With no pending sample of the clock, the row only takes the edges of the region's clocks. -/
theorem exec_stateSampleComplete_none {s : State} {t : SI} {r : Fin 4} {k : Fin 16}
    (h : ∀ x ∈ (((s.moment t).drainClocks r.val (s.moment t).boundary).region r.val).samples, x.clock ≠ k.val) :
    exec (.stateSampleComplete t r k) s = .next ((s.moment t).drainClocks r.val (s.moment t).boundary) := by
  have hn := List.find?_eq_none.2 (fun x hx hk => h x hx (of_decide_eq_true hk))
  show execStateSampleComplete t r k s = _
  unfold execStateSampleComplete
  dsimp only
  rw [hn]

/-- The clock's oldest pending sample completes once it is due. -/
theorem exec_stateSampleComplete_some {s : State} {t : SI} {r : Fin 4} {k : Fin 16} {x : PendingSample}
    (h : (((s.moment t).drainClocks r.val (s.moment t).boundary).region r.val).samples.find? (fun y => y.clock = k.val) = some x) :
    exec (.stateSampleComplete t r k) s =
      if (s.moment t).time.si < x.due then .next ((s.moment t).drainClocks r.val (s.moment t).boundary)
      else .next (((s.moment t).drainClocks r.val (s.moment t).boundary).finishSample r.val x) := by
  show execStateSampleComplete t r k s = _
  unfold execStateSampleComplete
  dsimp only
  rw [h, (reduced_drainClocks _ _ _).time]

/-- A statistics window does not end while statistics are off, without a run, or before its last frame has left the alignment buffer. -/
theorem exec_statsWindowEnd_early {s : State} {t : SI} {r : Fin 4}
    (h : (s.region r.val).cfg.statsOn = false ∨ s.cap.runState = 0 ∨ (s.moment t).time.si < (s.region r.val).statEnd + 48) :
    exec (.statsWindowEnd t r) s = .next (s.moment t) := by
  refine if_pos ?_
  have e : (s.moment t).region r.val = s.region r.val := rfl
  rw [e, State.moment_cap]
  rcases h with h | h | h
  · simp [h]
  · simp [h]
  · rw [decide_eq_true h, Bool.or_true]

/-- In a run the window ends once its last frame has left the alignment buffer. -/
theorem exec_statsWindowEnd_due {s : State} {t : SI} {r : Fin 4} (hon : (s.region r.val).cfg.statsOn = true) (hrun : s.cap.runState = 1)
    (h : (s.region r.val).statEnd + 48 ≤ (s.moment t).time.si) :
    exec (.statsWindowEnd t r) s = .next ((s.moment t).nextStats r.val (s.region r.val).statEnd) := by
  refine if_neg ?_
  have e : (s.moment t).region r.val = s.region r.val := rfl
  rw [e, State.moment_cap, hon, hrun, decide_eq_false (Nat.not_lt.2 h)]
  simp

end Sys2Proof.Machine

namespace Sys2Proof.Proofs

open Sys2Proof.Machine Sys2Proof.Safety

/-- Settles O21: the load row by its definition, the two reductions by what they leave alone (`Reduced`) and by what becomes of the sample and of the
window's start. -/
theorem loadsAndReductions : Obligations.LoadsAndReductions := by
  unfold Obligations.LoadsAndReductions
  refine ⟨fun s t => ⟨fun h => if_pos h, fun h => ?load⟩, fun s t r k => ⟨(reduced_drainClocks _ _ _).only, drainClocks_samples (s.moment t) _ _,
    exec_stateSampleComplete_none, fun x hx => ⟨fun h => ?waits, fun h => ?due⟩, exec_statsWindowEnd_early, fun hon hrun h => ?window⟩⟩
  case load =>
    refine (if_neg (Nat.not_lt.2 h)).trans ?_
    simp only [unitsUp_megabytes]
    rfl
  case waits =>
    rw [exec_stateSampleComplete_some hx, x.due_eq, if_pos h]
  case due =>
    rw [← x.due_eq] at h
    refine ⟨_, (exec_stateSampleComplete_some hx).trans (if_neg (Nat.not_lt.2 h)), ?_, finishSample_samples _ _ _⟩
    exact ((reduced_drainClocks _ _ _).trans (reduced_finishSample _ _ _)).only
  case window =>
    exact ⟨_, exec_statsWindowEnd_due hon hrun h, (reduced_nextStats _ _ _).only, nextStats_statStart _ _ _⟩

end Sys2Proof.Proofs

/-! ### The burst SRAM (R26, R27) -/

namespace Sys2Proof.Machine

open Sys2Proof.Safety

/-- A block brought up to a slot has the block itself changed and what has drained placed. -/
theorem advanceBlock_placed (s : State) (b : Nat) (now : SI) : ∃ y : Block, Placed (s.modBlock b (fun _ => y)) (s.advanceBlock b now) :=
  ⟨_, Placed.foldl _ (fun _ _ => placed_placeEntry _ _ _) _ _⟩

theorem advanceBlock_only (s : State) (b : Nat) (now : SI) : onlyPlaces { s with blocks := (s.advanceBlock b now).blocks } (s.advanceBlock b now) := by
  obtain ⟨y, h⟩ := advanceBlock_placed s b now
  rw [h.blocks]
  exact h.only

/-- s' comes from s by placing records and changing block b by f. -/
theorem Placed.modBlock_only {s s' : State} {b : Nat} {f : Block → Block} (h : Placed (s.modBlock b f) s') :
    (onlyPlaces { s with blocks := s'.blocks } s' ∧ ∀ k, k ≠ b → s'.block k = s.block k) ∧ s'.block b = f (s.block b) := by
  have hb : ∀ k, s'.block k = (s.modBlock b f).block k := fun k => by simp only [State.block, h.blocks]
  refine ⟨⟨?_, fun k hk => ?_⟩, ?_⟩
  · rw [h.blocks]
    exact h.only
  · rw [hb, State.modBlock_block, if_neg hk]
  · rw [hb, State.modBlock_block, if_pos rfl]

theorem blockSelvedge_of_none {s : State} {b : Nat} (h : (s.block b).discardFrom = none) (e : SI) : s.blockSelvedge b e = s := by
  unfold State.blockSelvedge
  rw [h]

/-- A discard that ends at slot e leaves its block writing again, and counts where it held a slot (R26). -/
theorem blockSelvedge_placed {s : State} {b f : Nat} (h : (s.block b).discardFrom = some f) (e : SI) :
    Placed (s.modBlock b (fun x => { x with discardFrom := none, ovfCnt := if 16 * f < e then min (x.ovfCnt + 1) 255 else x.ovfCnt }))
      (s.blockSelvedge b e) := by
  unfold State.blockSelvedge
  rw [h]
  dsimp only
  split
  next => exact placed_place _ _ _
  next => exact Placed.refl _

/-- The state that BURST_SRAM_RESUME finds: its block up to the slot before the present frame boundary. -/
def State.beforeResume (s : State) (b : Nat) : State := s.advanceBlock b (s.boundary - 1)

/-- While 64 KiB are not free at the frame boundary, the encoder does not resume. -/
theorem exec_burstSramResume_full {s : State} {t : SI} {b : Fin 64}
    (h : ¬ ((((s.moment t).beforeResume b.val).block b.val).drainTo ((s.moment t).boundary / 16)).1.fill + 65536 ≤ 262144) :
    exec (.burstSramResume t b) s = .next ((s.moment t).beforeResume b.val) := by
  show execBurstSramResume t b s = _
  unfold execBurstSramResume burstSize
  exact if_pos (Nat.not_le.1 h)

/-- With 64 KiB free, the discard ends with the last frame below the one that the encoder takes up. -/
theorem exec_burstSramResume_free {s : State} {t : SI} {b : Fin 64}
    (h : ((((s.moment t).beforeResume b.val).block b.val).drainTo ((s.moment t).boundary / 16)).1.fill + 65536 ≤ 262144) :
    exec (.burstSramResume t b) s = .next (((s.moment t).beforeResume b.val).blockSelvedge b.val
      (16 * max ((s.moment t).boundary / 16 - 4) (((s.moment t).beforeResume b.val).block b.val).nextFrame)) := by
  show execBurstSramResume t b s = _
  unfold execBurstSramResume burstSize
  exact if_neg (Nat.not_lt.2 h)

/-- The state that BURST_SRAM_PARITY_ERROR finds: its block up to the present slot. -/
def State.beforeParity (s : State) (b : Nat) : State := s.advanceBlock b s.time.si

/-- The block without the entries of frames lo to hi. -/
def Block.without (x : Block) (lo hi : Nat) : Block := { x with entries := x.entries.filter (fun e => decide (e.frame < lo ∨ hi < e.frame)) }

/-- A bad word that holds no entry of a frame in the burst SRAM changes nothing (R27). -/
theorem exec_burstSramParityError_good {s : State} {t : SI} {b : Fin 64} {lo hi : Nat}
    (h : ∀ e ∈ (((s.moment t).beforeParity b.val).block b.val).entries, e.frame < lo ∨ hi < e.frame) :
    exec (.burstSramParityError t b lo hi) s = .next ((s.moment t).beforeParity b.val) := by
  refine if_neg fun hany => ?_
  obtain ⟨e, hm, hw⟩ := List.any_eq_true.1 hany
  have hin := of_decide_eq_true hw
  have hout := h e hm
  omega

/-- One that holds some removes them, and the POISON selvedge is placed (R27). -/
theorem exec_burstSramParityError_bad {s : State} {t : SI} {b : Fin 64} {lo hi : Nat}
    (h : ∃ e ∈ (((s.moment t).beforeParity b.val).block b.val).entries, lo ≤ e.frame ∧ e.frame ≤ hi) :
    ∃ s', exec (.burstSramParityError t b lo hi) s = .next s' ∧
      Placed (((s.moment t).beforeParity b.val).modBlock b.val (fun x => x.without lo hi)) s' := by
  obtain ⟨e, hm, hw⟩ := h
  refine ⟨_, if_pos (List.any_eq_true.2 ⟨e, hm, decide_eq_true hw⟩), ?_⟩
  have hf : ∀ f : Nat, (!decide (lo ≤ f ∧ f ≤ hi)) = decide (f < lo ∨ hi < f) := fun f => by
    rw [← decide_not]
    exact decide_eq_decide.2 (by omega)
  simp only [hf]
  exact placed_place _ _ _

end Sys2Proof.Machine

namespace Sys2Proof.Proofs

open Sys2Proof.Machine Sys2Proof.Safety

/-- Settles O19: both rows advance the block first (`advanceBlock_only`); then the discard ends (`blockSelvedge_placed`), or the entries of the bad word
go (`exec_burstSramParityError_bad`). -/
theorem burstSramDiscardsEnd : Obligations.BurstSramDiscardsEnd := by
  unfold Obligations.BurstSramDiscardsEnd
  intro s t b lo hi at_ x y free end_ z others
  refine ⟨advanceBlock_only _ _ _, advanceBlock_only _ _ _, exec_burstSramResume_full, fun hn => ?writes, fun f hfree hd => ?resumes,
    exec_burstSramParityError_good, fun he => ?bad⟩
  case writes =>
    by_cases hfree : free
    · exact (exec_burstSramResume_free hfree).trans (congrArg Host.Outcome.next (blockSelvedge_of_none hn _))
    · exact exec_burstSramResume_full hfree
  case resumes =>
    exact ⟨_, exec_burstSramResume_free hfree, (blockSelvedge_placed hd _).modBlock_only⟩
  case bad =>
    obtain ⟨s', hs, hp⟩ := exec_burstSramParityError_bad he
    exact ⟨s', hs, hp.modBlock_only⟩

end Sys2Proof.Proofs

/-! ### The taps of an edge (R17, R18) -/

namespace Sys2Proof.Machine

/-- s with what the taps of w hold: burst SRAMs, interval units, decode engines, the live sequencer, edges kept for a start, and the deskew measurement. -/
def State.withTaps (s w : State) : State :=
  { s with
    blocks := w.blocks, ivls := w.ivls, engines := w.engines, cutEngines := w.cutEngines, seq0 := w.seq0
    cap := { s.cap with early := w.cap.early }, cmd := { s.cmd with deskew := w.cmd.deskew } }

/-- s' comes from s by what the taps do: what the reductions do, and their own contents. -/
def Worked (s s' : State) : Prop := Reduced (s.withTaps s') s'

theorem Reduced.withTaps {s s' : State} (h : Reduced s s') (w : State) : Reduced (s.withTaps w) (s'.withTaps w) :=
  ⟨congrArg (fun x : State => x.withTaps w) h.still, h.cfg, h.raised, h.posted⟩

theorem Reduced.worked {s s' : State} (h : Reduced s s') : Worked s s' := h.withTaps s'

theorem Placed.worked {s s' : State} (h : Placed s s') : Worked s s' := h.reduced.worked

theorem Worked.refl (s : State) : Worked s s := Reduced.refl s

theorem Worked.trans {a b c : State} (h : Worked a b) (k : Worked b c) : Worked a c := (Reduced.withTaps h c).trans k

/-- The same, the last step named first. -/
theorem Worked.after {a b c : State} (k : Worked b c) (h : Worked a b) : Worked a c := h.trans k

theorem Worked.foldl {β : Type} (f : State → β → State) (hf : ∀ s x, Worked s (f s x)) (l : List β) (s : State) : Worked s (l.foldl f s) := by
  induction l generalizing s with
  | nil => exact Worked.refl s
  | cons x rest ih => exact (hf s x).trans (ih _)

theorem Worked.cells {s s' : State} (h : Worked s s') : s'.cells = s.cells := (congrArg (fun x : State => x.cells) h.still :)

theorem worked_modBlock (s : State) (b : Nat) (f : Block → Block) : Worked s (s.modBlock b f) := Reduced.refl _
theorem worked_modIvl (s : State) (n : Nat) (f : Ivl → Ivl) : Worked s (s.modIvl n f) := Reduced.refl _
theorem worked_modEngine (s : State) (n : Nat) (f : Engine → Engine) : Worked s (s.modEngine n f) := Reduced.refl _
theorem worked_seqEdge (s : State) (e : SeqEdge) : Worked s (s.seqEdge e) := Reduced.refl _
theorem worked_engineEdge (s : State) (e : SeqEdge) : Worked s (s.engineEdge e) := Reduced.refl _
theorem worked_keepEarly (s : State) (e : SeqEdge) : Worked s (s.keepEarly e) := Reduced.refl _

/-! #### Burst SRAMs -/

theorem worked_advanceBlock (s : State) (b : Nat) (now : SI) : Worked s (s.advanceBlock b now) := by
  obtain ⟨y, h⟩ := advanceBlock_placed s b now
  exact h.worked.after (worked_modBlock s b _)

/-- What works at another slot, and comes back to the present one, works. -/
theorem Worked.atSlot {s y : State} {x : SI} (h : Worked { s with time := { s.time with si := x } } y) :
    Worked s { y with time := { y.time with si := s.time.si } } :=
  ⟨congrArg (fun z : State => { z with time := { z.time with si := s.time.si } }) h.still, h.cfg, h.raised, h.posted⟩

theorem worked_blockAtFrame (s : State) (b f : Nat) : Worked s (s.blockAtFrame b f) := (worked_advanceBlock _ b _).atSlot

theorem worked_drainBlocks (s : State) (now fuel : Nat) : Worked s (s.drainBlocks now fuel) := by
  induction fuel generalizing s with
  | zero => exact Worked.refl s
  | succ k ih =>
    unfold State.drainBlocks
    split
    · exact Worked.refl s
    · exact (ih _).after (worked_blockAtFrame s _ _)

theorem worked_advanceBlocks (s : State) : Worked s s.advanceBlocks :=
  (placed_releaseAll _).worked.after ((Worked.foldl _ (fun _ _ => worked_advanceBlock _ _ _) _ _).after (worked_drainBlocks s _ _))

/-! #### Interval units -/

theorem worked_ivlResult (s : State) (n : Nat) (x : IvlResult) : Worked s (s.ivlResult n x) := by
  unfold State.ivlResult
  extract_lets u r reported s1 q known s2 s3 d s4
  have h1 : Worked s s1 := worked_modIvl s n _
  have h3 : Worked s s3 := (placed_raise _ _).worked.after ((worked_modIvl s1 n _).after h1)
  split
  · exact h1
  · split
    · split
      · exact h3
      · exact (placed_place _ _ _).worked.after h3
    · exact (placed_place _ _ _).worked.after ((worked_modIvl s1 n _).after h1)

theorem worked_advanceIvlOnce (s : State) (n : Nat) (h : FineTime) : Worked s (s.advanceIvlOnce n h) :=
  (Worked.foldl _ (fun _ _ => worked_ivlResult _ _ _) _ _).after (worked_modIvl s n _)

theorem worked_ivlTo (s : State) (n : Nat) (h : FineTime) : Worked s (s.ivlTo n h) := by
  unfold State.ivlTo
  split
  · exact worked_advanceIvlOnce s n h
  · exact Worked.refl s

theorem worked_advanceIvl (s : State) (n : Nat) (h : FineTime) (fuel : Nat) : Worked s (s.advanceIvl n h fuel) := by
  induction fuel generalizing s with
  | zero => exact worked_ivlTo s n h
  | succ k ih =>
    unfold State.advanceIvl
    split
    · exact worked_ivlTo s n h
    · split
      · exact (ih _).after ((worked_modIvl _ n _).after (worked_ivlTo s n _))
      · exact worked_ivlTo s n h

theorem worked_advanceIvls (s : State) : Worked s s.advanceIvls := Worked.foldl _ (fun _ _ => worked_advanceIvl _ _ _ _) _ s

theorem worked_ivlEdge (s : State) (e : SeqEdge) : Worked s (s.ivlEdge e) := by
  refine Worked.foldl _ (fun s x => ?_) _ s
  dsimp only
  split
  · exact worked_modIvl s _ _
  · exact Worked.refl s

/-! #### Decode engines -/

theorem worked_messageDone (s : State) (n : Nat) (m : Msg) : Worked s (s.messageDone n m) := by
  unfold State.messageDone
  extract_lets r bad once s1 s2 f known s3
  have h2 : Worked s s2 := (placed_raiseIf _ _ _).worked.after (worked_modEngine s n _)
  have h3 : Worked s s3 := (placed_raise _ _).worked.after ((worked_modEngine s2 n _).after h2)
  split
  · exact h2
  · split
    · exact (worked_modEngine s2 n _).after h2
    · split
      · exact h3
      · exact (placed_place _ _ _).worked.after h3

theorem worked_frameSkipped (s : State) (n f : Nat) : Worked s (s.frameSkipped n f) := by
  unfold State.frameSkipped
  extract_lets r once s1 s2
  have h1 : Worked s s1 := worked_modEngine s n _
  have h2 : Worked s1 s2 := by
    show Worked s1 (if _ then _ else _)
    split
    · exact (placed_place _ _ _).worked
    · exact Worked.refl s1
  exact (placed_raiseIf _ _ _).worked.after (h2.after h1)

/-- The live sequencer's own contents. -/
theorem worked_seq0 (s : State) (q : Seq) : Worked s { s with seq0 := q } := Reduced.refl _

theorem worked_harvestOf (s : State) (n : Nat) (e : Engine) : Worked s (s.harvestOf n e) :=
  (placed_raiseIf _ _ _).worked.after ((Worked.foldl _ (fun _ _ => worked_messageDone _ _ _) _ _).after
    ((Worked.foldl _ (fun _ _ => worked_frameSkipped _ _ _) _ _).after (worked_seq0 s _)))

theorem worked_harvest (s : State) (n : Nat) : Worked s (s.harvest n) := (worked_harvestOf _ n _).after (worked_modEngine s n _)

theorem worked_advanceEngine (s : State) (n : Nat) (h : FineTime) : Worked s (s.advanceEngine n h) := by
  unfold State.advanceEngine
  split
  · exact (worked_harvest _ n).after (worked_modEngine s n _)
  · exact Worked.refl s

theorem worked_finishCutEngine (s : State) (x : Nat × SI × Engine) : Worked s (s.finishCutEngine x) :=
  (worked_modEngine _ _ _).after (worked_harvestOf s _ _)

/-- The engines that something has replaced. -/
theorem worked_cutEngines (s : State) (l : List (Nat × SI × Engine)) : Worked s { s with cutEngines := l } := Reduced.refl _

theorem worked_finishCutEngines (s : State) (sel : Nat × SI × Engine → Bool) : Worked s (s.finishCutEngines sel) :=
  (Worked.foldl _ worked_finishCutEngine _ _).after (worked_cutEngines s _)

theorem worked_advanceEngines (s : State) : Worked s s.advanceEngines :=
  (Worked.foldl _ (fun _ _ => worked_advanceEngine _ _ _) _ _).after (worked_finishCutEngines s _)

/-! #### The measurement of CAL_DESKEW (R101) -/

theorem worked_deskewEdge (s : State) (c : Nat) (u : FineTime) (level : Bool) : Worked s (s.deskewEdge c u level) := by
  unfold State.deskewEdge
  split
  · exact Worked.refl s
  · dsimp only
    split
    · exact Worked.refl s
    · exact Reduced.refl _

/-! #### An edge at every tap -/

/-- s' comes from s by what an edge of channel c does behind its cell: the taps, and the level with which the run begins. No other cell changes. -/
structure Tapped (c : Nat) (s s' : State) : Prop where
  rest : Worked { s with cells := s'.cells } s'
  others : ∀ k, k ≠ c → s'.cell k = s.cell k
  own : ∃ l, s'.cell c = { s.cell c with levelAtEnable := l }

/-- The cells apart, what works goes on working. -/
theorem Worked.withCells {s s' : State} (h : Worked s s') (x : Tab Cell) : Worked { s with cells := x } { s' with cells := x } :=
  ⟨congrArg (fun z : State => { z with cells := x }) h.still, h.cfg, h.raised, h.posted⟩

theorem Worked.tapped {s s' : State} (h : Worked s s') (c : Nat) : Tapped c s s' := by
  have hc : ∀ k, s'.cell k = s.cell k := fun k => by simp only [State.cell, h.cells]
  exact ⟨h.withCells s'.cells, fun k _ => hc k, _, hc c⟩

theorem Tapped.refl (c : Nat) (s : State) : Tapped c s s := (Worked.refl s).tapped c

theorem Tapped.trans {c : Nat} {a b d : State} (h : Tapped c a b) (k : Tapped c b d) : Tapped c a d := by
  obtain ⟨l, hl⟩ := h.own
  obtain ⟨m, hm⟩ := k.own
  exact ⟨(h.rest.withCells d.cells).trans k.rest, fun j hj => (k.others j hj).trans (h.others j hj), m, by rw [hm, hl]⟩

theorem Tapped.foldl {β : Type} {c : Nat} (f : State → β → State) (l : List β) (hf : ∀ s, ∀ x ∈ l, Tapped c s (f s x)) (s : State) :
    Tapped c s (l.foldl f s) := by
  induction l generalizing s with
  | nil => exact Tapped.refl c s
  | cons x rest ih => exact (hf s x (.head _)).trans (ih (fun s y hy => hf s y (.tail _ hy)) _)

/-- The level with which the run begins. -/
theorem tapped_levelAtEnable (s : State) (c : Nat) (l : Bool) : Tapped c s (s.modCell c (fun y => { y with levelAtEnable := l })) := by
  refine ⟨Worked.refl _, fun k hk => ?_, l, ?_⟩
  · rw [State.modCell_cell, if_neg hk]
  · rw [State.modCell_cell, if_pos rfl]

theorem tapped_beforeRun (s : State) (e : SeqEdge) : Tapped e.ch s (s.beforeRun e) :=
  (tapped_levelAtEnable s e.ch e.level).trans (((worked_engineEdge _ e).after (reduced_modRegion _ (chRegion e.ch) _ rfl).worked).tapped e.ch)

theorem tapped_tapEdge (s : State) (e : SeqEdge) : Tapped e.ch s (s.tapEdge e) := by
  unfold State.tapEdge
  split
  · exact tapped_beforeRun s e
  · split
    · exact (worked_keepEarly s e).tapped e.ch
    · extract_lets b s1 s2 s3 s4
      have h1 : Worked s s1 := (worked_advanceBlock _ b _).after (worked_advanceBlocks s)
      have h3 : Worked s s3 := (reduced_statEdge _ e).worked.after ((worked_modBlock s1 b _).after h1)
      have h4 : Worked s3 s4 := by
        refine (worked_engineEdge _ e).after ?_
        split
        · exact Worked.refl s3
        · exact (reduced_stateEdge s3 e).worked
      exact ((worked_seqEdge _ e).after ((worked_ivlEdge _ e).after (h4.after h3))).tapped e.ch

/-! ### What a cell reports (R84 to R87, R95, R98 to R100) -/

/-- The fine code from what the lane measured and the spans of its pass (R95). -/
theorem Lane.fineCode_eq (l : Lane) (raw : Nat) :
    l.fineCode raw = (max 0 (min 63 ((128 * (1024 * (raw : Int) - l.s1 + l.span) + l.span) / (2 * l.span))) : Int).toNat := by
  have h : 2 * (64 * (1024 * (raw : Int) + l.span - l.s1)) + l.span = 128 * (1024 * (raw : Int) - l.s1 + l.span) + l.span := by ring
  rw [Lane.fineCode, clampInt, h, Nat.cast_mul, Nat.cast_ofNat]

theorem Cell.take_of_serve {x : Cell} {t : SI} {k : Nat} (h : x.serve t = some k) (raw : Nat) :
    x.take t raw = (x.modLane k (fun l => { l with lastEdge := 64 * t + (x.lanes.getD k {}).fineCode raw, lastSlot := some t }),
      (x.lanes.getD k {}).fineCode raw, false) := by
  unfold Cell.take
  rw [h]

theorem Cell.take_of_serve_none {x : Cell} {t : SI} (h : x.serve t = none) (raw : Nat) :
    x.take t raw = ({ x with coarseCnt := min (x.coarseCnt + 1) 255 }, 0, true) := by
  unfold Cell.take
  rw [h]
  rfl

/-- Taking an edge changes a cell's lanes and COARSE_CNT alone. -/
theorem Cell.take_fst (x : Cell) (t : SI) (raw : Nat) : ∃ l n, (x.take t raw).1 = { x with lanes := l, coarseCnt := n } := by
  cases h : x.serve t with
  | none => exact ⟨_, _, congrArg Prod.fst (x.take_of_serve_none h raw)⟩
  | some k => exact ⟨_, _, congrArg Prod.fst (x.take_of_serve h raw)⟩

theorem crowd_some (x : Cell) (t : SI) (u l : FineTime) : (crowd x t u (some l)).1 = if x.deskewAt ≤ t ∧ u ≤ l then l + 1 else u := by
  simp only [crowd, Bool.and_eq_true, decide_eq_true_eq]
  split <;> rfl

/-- A change of level is one edge. -/
theorem Cell.detect_change {x : Cell} {level : Bool} (h : level ≠ x.level) (c : Nat) (t : SI) (glitch : Bool) (fine fine2 : Nat) :
    ∃ e : SeqEdge, e.ch = c ∧ x.detect c t level glitch fine fine2 =
      ({ (x.take t fine).1 with level := level, lastTime := some (crowd x t (x.deskewed t (x.take t fine).2.1) x.lastTime).1 }, [e]) := by
  refine ⟨_, ?_, if_pos (bne_iff_ne.2 h)⟩
  rfl

/-- Without a change of level or a glitch there is no edge. -/
theorem Cell.detect_same (x : Cell) (c : Nat) (t : SI) (fine fine2 : Nat) : x.detect c t x.level false fine fine2 = (x, []) := by
  simp [Cell.detect]

/-- A glitch that no lane sees is no edge. -/
theorem Cell.detect_glitch_unserved {x : Cell} {t : SI} (h : x.serve t = none) (c fine fine2 : Nat) :
    x.detect c t x.level true fine fine2 = (x, []) := by
  simp [Cell.detect, Cell.glitch, h]

/-- A glitch that a lane serves is two edges, after which the level is as before. -/
theorem Cell.detect_glitch_served {x : Cell} {t : SI} {k : Nat} (h : x.serve t = some k) (c fine fine2 : Nat) :
    ∃ (e f : SeqEdge) (y : Cell), e.ch = c ∧ f.ch = c ∧ x.detect c t x.level true fine fine2 = (y, [e, f]) ∧ y.level = x.level ∧
      y.anchorEdges = x.anchorEdges := by
  obtain ⟨l, n, h1⟩ := x.take_fst t fine
  obtain ⟨m, j, h2⟩ := (x.take t fine).1.take_fst t fine2
  have hd : x.detect c t x.level true fine fine2 = x.glitch c t fine fine2 := by simp [Cell.detect]
  unfold Cell.glitch at hd
  rw [h] at hd
  refine ⟨_, _, _, ?_, ?_, hd, ?_, ?_⟩
  · rfl
  · rfl
  · exact (congrArg (fun z : Cell => z.level) (h2.trans (by rw [h1])) :)
  · exact (congrArg (fun z : Cell => z.anchorEdges) (h2.trans (by rw [h1])) :)

/-- Edges that a cell reports, p being the cell and the edges, reach the taps (R17, R18). -/
theorem tapped_edges {s : State} {c : Nat} {t : SI} {level glitch : Bool} {fine fine2 : Nat} {p : Cell × List SeqEdge}
    (hp : (s.cell c).detect c t level glitch fine fine2 = p) (hc : ∀ e ∈ p.2, e.ch = c) :
    Tapped c (s.modCell c (fun _ => { p.1 with anchorEdges := p.1.anchorEdges + p.2.length })) (s.edges c t level glitch fine fine2) := by
  unfold State.edges
  rw [hp]
  have hw := fun s : State => (worked_advanceEngines _).after (worked_advanceIvls s)
  refine Tapped.trans ?_ ((hw _).tapped c)
  refine Tapped.trans ((Worked.foldl _ (fun s e => worked_deskewEdge s e.ch e.time e.level) p.2 _).tapped c) ?_
  exact Tapped.foldl _ _ (fun s e he => hc e he ▸ tapped_tapEdge s e) _

/-- Without an edge only the taps go on. -/
theorem worked_edges_none {s : State} {c : Nat} {t : SI} {level glitch : Bool} {fine fine2 : Nat}
    (hp : (s.cell c).detect c t level glitch fine fine2 = (s.cell c, [])) :
    Worked (s.modCell c (fun x => x)) (s.edges c t level glitch fine fine2) := by
  unfold State.edges
  rw [hp]
  exact (worked_advanceEngines _).after (worked_advanceIvls _)

end Sys2Proof.Machine

/-! ### EDGE_DETECTED (R84 to R87, R98) -/

namespace Sys2Proof.Machine

open Sys2Proof.Safety

/-- The cell with ball voltages v as its latest input. -/
def Cell.seen (x : Cell) (v : CellInput) : Cell := { x with input := some (v.vp, v.vn) }

@[simp] theorem State.moment_cell (s : State) (t : SI) (c : Nat) : (s.moment t).cell c = s.cell c := rfl

@[simp] theorem Time.atSlot_gatedAt (x : Time) (t u : SI) (now : SI → Time) : (x.atSlot t now).gatedAt u = x.gatedAt u := rfl

theorem Time.gatedAt_iff {x : Time} {t : SI} : x.gatedAt t = true ↔ ∃ b, x.gatedFrom = some b ∧ b ≤ t := by
  unfold Time.gatedAt
  cases x.gatedFrom <;> simp

/-- s' is s but for cell c, the taps, and records placed. -/
def edgeFrame (c : Nat) (s s' : State) : Prop :=
  (∀ k, k ≠ c → s'.cell k = s.cell k) ∧ onlyPlaces ({ s with cells := s'.cells }.withTaps s') s'

/-- The cell itself may change before the taps take an edge of it and after. -/
theorem Tapped.frame {s x : State} {c : Nat} {f g : Cell → Cell} (h : Tapped c (s.modCell c f) x) : edgeFrame c s (x.modCell c g) := by
  refine ⟨fun k hk => ?_, Reduced.only (h.rest.withCells (x.modCell c g).cells)⟩
  rw [State.modCell_cell, if_neg hk, h.others k hk, State.modCell_cell, if_neg hk]

/-- Between, only the level with which the run begins changes in it. -/
theorem Tapped.own_cell {s x : State} {c : Nat} {f g : Cell → Cell} (h : Tapped c (s.modCell c f) x) :
    ∃ l, (x.modCell c g).cell c = g { f (s.cell c) with levelAtEnable := l } := by
  obtain ⟨l, hl⟩ := h.own
  exact ⟨l, by rw [State.modCell_cell, if_pos rfl, hl, State.modCell_cell, if_pos rfl]⟩

section Row
variable {s : State} {t : SI} {ch : Fin 1024} {v : CellInput}

/-- A sample of a disabled channel is only kept, unless the channel waits for its first one. -/
theorem rowEdgeDetected_disabled (hoff : (s.cell ch.val).enabledFor t = false) (h : ((s.cell ch.val).enable && (s.cell ch.val).firstSample) = false) :
    rowEdgeDetected t ch v s = (s.moment t).modCell ch.val (fun y => y.seen v) := by
  simp only [rowEdgeDetected, State.moment_cell, hoff, h, Bool.not_false, if_true, Bool.false_eq_true, if_false]
  rfl

/-- A channel that is enabled later takes its first level from the input before (R87). -/
theorem rowEdgeDetected_beforeEnabling (hoff : (s.cell ch.val).enabledFor t = false) (he : (s.cell ch.val).enable = true)
    (hf : (s.cell ch.val).firstSample = true) :
    rowEdgeDetected t ch v s = ((s.moment t).modCell ch.val (fun y => { y with
      level := y.comparator.first (v.vp, v.vn), levelAtEnable := y.comparator.first (v.vp, v.vn) })).modCell ch.val (fun y => y.seen v) := by
  simp only [rowEdgeDetected, State.moment_cell, hoff, he, hf, Bool.not_false, Bool.and_self, if_true]
  rfl

/-- A sample of a gated channel is only kept (R29, R56). -/
theorem rowEdgeDetected_gated (hon : (s.cell ch.val).enabledFor t = true) (hg : s.time.gatedAt t = true) :
    rowEdgeDetected t ch v s = (s.moment t).modCell ch.val (fun y => y.seen v) := by
  simp only [rowEdgeDetected, State.moment_cell, State.moment_time, Time.atSlot_gatedAt, hon, hg, Bool.not_true, Bool.false_eq_true, if_false, if_true]
  rfl

/-- The first sample, at the enabling slot, sets the level by the switching point alone (R87). -/
theorem rowEdgeDetected_first (hon : (s.cell ch.val).enabledFor t = true) (hg : s.time.gatedAt t = false) (hf : (s.cell ch.val).firstSample = true)
    (ht : t = (s.cell ch.val).enabledAt) :
    rowEdgeDetected t ch v s =
      ((s.moment t).fixLevel ch.val (((s.cell ch.val).comparatorAt t).first (v.vp, v.vn))).modCell ch.val (fun y => y.seen v) := by
  simp only [rowEdgeDetected, State.earlySample, State.moment_cell, State.moment_time, Time.atSlot_gatedAt, hon, hg, hf, ← ht, Bool.not_true,
    Bool.false_eq_true, if_false, if_true]
  rfl

/-- A later sample is reported as the comparator then stands (R85). -/
theorem rowEdgeDetected_reports (hon : (s.cell ch.val).enabledFor t = true) (hg : s.time.gatedAt t = false) (hf : (s.cell ch.val).firstSample = false) :
    rowEdgeDetected t ch v s = ((s.moment t).edges ch.val t (((s.cell ch.val).comparatorAt t).sample (s.cell ch.val).level (v.vp, v.vn))
      v.glitch v.raw v.raw2).modCell ch.val (fun y => y.seen v) := by
  simp only [rowEdgeDetected, State.moment_cell, State.moment_time, Time.atSlot_gatedAt, hon, hg, hf, Bool.not_true, Bool.false_eq_true, if_false]
  rfl

/-- Where the comparator's level and the glitch give the cell p.1 and the edges p.2, those reach the taps. -/
theorem rowEdgeDetected_tapped (hon : (s.cell ch.val).enabledFor t = true) (hg : s.time.gatedAt t = false) (hf : (s.cell ch.val).firstSample = false)
    {level : Bool} (hl : ((s.cell ch.val).comparatorAt t).sample (s.cell ch.val).level (v.vp, v.vn) = level) {p : Cell × List SeqEdge}
    (hp : (s.cell ch.val).detect ch.val t level v.glitch v.raw v.raw2 = p) (hc : ∀ e ∈ p.2, e.ch = ch.val) :
    edgeFrame ch.val (s.moment t) (rowEdgeDetected t ch v s) ∧ ∃ l, (rowEdgeDetected t ch v s).cell ch.val =
      ({ p.1 with anchorEdges := p.1.anchorEdges + p.2.length, levelAtEnable := l } : Cell).seen v := by
  rw [rowEdgeDetected_reports hon hg hf, hl]
  have ht := tapped_edges (s := s.moment t) hp hc
  exact ⟨ht.frame, ht.own_cell⟩

/-- Where they give no edge, the cell keeps all but its input. -/
theorem rowEdgeDetected_unchanged (hon : (s.cell ch.val).enabledFor t = true) (hg : s.time.gatedAt t = false) (hf : (s.cell ch.val).firstSample = false)
    {level : Bool} (hl : ((s.cell ch.val).comparatorAt t).sample (s.cell ch.val).level (v.vp, v.vn) = level)
    (hp : (s.cell ch.val).detect ch.val t level v.glitch v.raw v.raw2 = (s.cell ch.val, [])) :
    edgeFrame ch.val (s.moment t) (rowEdgeDetected t ch v s) ∧ (rowEdgeDetected t ch v s).cell ch.val = (s.cell ch.val).seen v := by
  rw [rowEdgeDetected_reports hon hg hf, hl]
  have hw := worked_edges_none (s := s.moment t) hp
  refine ⟨(hw.tapped ch.val).frame, ?_⟩
  rw [State.modCell_cell, if_pos rfl, State.cell, hw.cells, State.modCell_cells, tfind_tmod_self]
  rfl

/-- A change of level is reported: at the time and with the COARSE_CNT that the serving lane, or none, gives it, and as one more edge. -/
theorem rowEdgeDetected_change (hon : (s.cell ch.val).enabledFor t = true) (hg : s.time.gatedAt t = false) (hf : (s.cell ch.val).firstSample = false)
    {level : Bool} (hl : ((s.cell ch.val).comparatorAt t).sample (s.cell ch.val).level (v.vp, v.vn) = level) (hne : level ≠ (s.cell ch.val).level) :
    edgeFrame ch.val (s.moment t) (rowEdgeDetected t ch v s) ∧
      let x := s.cell ch.val
      let y := (rowEdgeDetected t ch v s).cell ch.val
      y.level = level ∧ y.lastTime = some (crowd x t (x.deskewed t (x.take t v.raw).2.1) x.lastTime).1 ∧ y.anchorEdges = x.anchorEdges + 1 ∧
        y.coarseCnt = (x.take t v.raw).1.coarseCnt := by
  obtain ⟨e, he, hd⟩ := Cell.detect_change hne ch.val t v.glitch v.raw v.raw2
  obtain ⟨hframe, l, hown⟩ := rowEdgeDetected_tapped hon hg hf hl hd (by simp [he])
  obtain ⟨m, n, htake⟩ := (s.cell ch.val).take_fst t v.raw
  dsimp only
  rw [hown]
  exact ⟨hframe, rfl, rfl, (congrArg (fun z : Cell => z.anchorEdges + 1) htake :), rfl⟩

end Row

/-- The level that a channel had from its enabling on is the cell's own. -/
theorem fixLevel_cell (s : State) (c k : Nat) (l : Bool) :
    (s.fixLevel c l).cell k = if k = c then { s.cell c with level := l, levelAtEnable := l, firstSample := false } else s.cell k :=
  State.modCell_cell s c k (fun y => { y with level := l, levelAtEnable := l, firstSample := false })

end Sys2Proof.Machine

namespace Sys2Proof.Proofs

open Sys2Proof.Machine Sys2Proof.Safety

/-- Settles O17: a sample that is not reported leaves the cell's input and level alone to change; of a reported one, `Cell.detect` gives the edges, and
`Tapped` what they do behind the cell. -/
theorem edgesAreReported : Obligations.EdgesAreReported := by
  unfold Obligations.EdgesAreReported
  intro s t ch v x on gated run above g half level seen d raw shown fine others frame reports edge
  have hshown : ∀ f, shown f = (crowd x t (x.deskewed t f) x.lastTime).1 := fun f => by
    simp only [shown]
    cases x.lastTime with
    | none => rfl
    | some l => exact (crowd_some x t _ l).symm
  have hgated : s.time.gatedAt t = true ↔ gated := Time.gatedAt_iff
  have hclear : ¬gated → s.time.gatedAt t = false := fun h => Bool.eq_false_iff.2 (fun hg => h (hgated.1 hg))
  have hsame : reports → x.detect ch.val t level v.glitch v.raw v.raw2 = (x, []) → ∃ s', run = .next s' ∧ frame s' ∧ s'.cell ch.val = seen x :=
    fun ⟨hon, hg, hf⟩ hd => ⟨_, rfl, rowEdgeDetected_unchanged hon (hclear hg) hf rfl hd⟩
  have hchange : reports → level ≠ x.level → ∃ s', run = .next s' ∧ edge (x.take t v.raw).2.1 (x.take t v.raw).1.coarseCnt s' := by
    rintro ⟨hon, hg, hf⟩ hl
    have h := rowEdgeDetected_change hon (hclear hg) hf rfl hl
    dsimp only at h
    rw [← hshown] at h
    exact ⟨_, rfl, h⟩
  refine ⟨?kept, ?before, ?first, ?same, ?served, ?unserved, ?unseen, ?glitch⟩
  case kept =>
    rintro (⟨hoff, h⟩ | ⟨hon, hg⟩)
    · exact congrArg Host.Outcome.next (rowEdgeDetected_disabled hoff (Bool.and_eq_false_iff.2 h))
    · exact congrArg Host.Outcome.next (rowEdgeDetected_gated hon (hgated.2 hg))
  case before =>
    intro hoff he hf
    refine ⟨_, congrArg Host.Outcome.next (rowEdgeDetected_beforeEnabling hoff he hf), rfl, fun c hc => ?_, ?_⟩
    · simp only [State.modCell_cell, if_neg hc, State.moment_cell]
    · simp only [State.modCell_cell, if_pos, State.moment_cell]
      rfl
  case first =>
    intro hon hg hf ht
    refine ⟨_, congrArg Host.Outcome.next (rowEdgeDetected_first hon (hclear hg) hf ht), rfl, fun c hc => ?_, ?_⟩
    · simp only [State.modCell_cell, fixLevel_cell, if_neg hc, State.moment_cell]
    · simp only [State.modCell_cell, fixLevel_cell, if_pos, State.moment_cell]
      rfl
  case same =>
    intro hr hl hgl
    exact hsame hr (by rw [hl, hgl, Cell.detect_same])
  case served =>
    intro k hr hl hk
    have := hchange hr hl
    rwa [Cell.take_of_serve hk, Lane.fineCode_eq] at this
  case unserved =>
    intro hr hl hk
    have := hchange hr hl
    rwa [Cell.take_of_serve_none hk] at this
  case unseen =>
    intro hr hl hgl hk
    exact hsame hr (by rw [hl, hgl, Cell.detect_glitch_unserved hk])
  case glitch =>
    rintro k ⟨hon, hg, hf⟩ hl hgl hk
    obtain ⟨e, f, y, he, hf', hd, hy, hn⟩ := Cell.detect_glitch_served hk ch.val v.raw v.raw2
    obtain ⟨hframe, m, hown⟩ := rowEdgeDetected_tapped hon (hclear hg) hf hl (hgl ▸ hd) (by simp [he, hf'])
    refine ⟨_, rfl, hframe, ?_⟩
    rw [hown]
    exact ⟨hy, congrArg (· + 2) hn⟩

end Sys2Proof.Proofs

/-! ### Station time at the moment of a command (R42, R48, R80) -/

namespace Sys2Proof.Machine

/-- Station time at slot x, with its own log of the coasting flag and its own view. -/
def Time.placedAt (t : Time) (x : SI) (log : List (SI × Bool)) (view : Snap) : Time := { t with si := x, coastLog := log, view := view }

theorem Time.atSlot_eq (t : Time) (x : SI) (now : SI → Time) :
    t.atSlot x now = t.placedAt (t.atSlot x now).si (t.atSlot x now).coastLog (t.atSlot x now).view := rfl

/-- A step of ST does not look at the present slot. -/
theorem Time.placedAt_stepped (t : Time) (x : SI) (log : List (SI × Bool)) (view : Snap) (p : PendingStep) (b : SI) :
    (t.placedAt x log view).stepped p b = (t.stepped p b).placedAt x log view := rfl

theorem Time.placedAt_looped (t : Time) (x : SI) (log : List (SI × Bool)) (view : Snap) (b : SI) :
    (t.placedAt x log view).looped b = (t.looped b).placedAt x log view := by
  obtain ⟨⟩ := t
  unfold Time.looped Time.placedAt
  dsimp only
  split
  · rfl
  · split
    · rfl
    · rfl

theorem Time.placedAt_steps (l : List PendingStep) (t : Time) (x : SI) (log : List (SI × Bool)) (view : Snap) (b : SI) :
    l.foldl (fun t p => t.stepped p b) (t.placedAt x log view) = (l.foldl (fun t p => t.stepped p b) t).placedAt x log view := by
  induction l generalizing t with
  | nil => rfl
  | cons p rest ih => exact ih (t.stepped p b)

/-- Station time as a record of boundary b carries it does not depend on the slot of the command that looks. -/
theorem State.moment_timeFor (s : State) (t b : SI) :
    (s.moment t).timeFor b = (s.timeFor b).placedAt (s.moment t).time.si (s.moment t).time.coastLog (s.moment t).time.view := by
  unfold State.timeFor
  have ha : (s.moment t).anchored b = s.anchored b := rfl
  have hw : (s.moment t).time.waiting = s.time.waiting := rfl
  rw [ha, hw]
  split
  · rw [State.moment_time, Time.atSlot_eq, Time.placedAt_steps, Time.placedAt_looped]
    rfl
  · rfl

/-- What the snapshot registers would show of a boundary does not depend on it either. -/
theorem Time.placedAt_viewAt (t : Time) (x : SI) (log : List (SI × Bool)) (view : Snap) (b : SI) :
    (t.placedAt x log view).viewAt b = t.viewAt b := rfl

theorem State.moment_viewAt (s : State) (t b : SI) : ((s.moment t).timeFor b).viewAt b = (s.timeFor b).viewAt b := by
  rw [State.moment_timeFor, Time.placedAt_viewAt]

/-! ### The snapshot registers (R80) -/

/-- What the read of TIM_SNAP_SI_LO at slot t captures. -/
def State.captured (s : State) (t : SI) : Snap :=
  let b := floor16 (s.moment t).time.si
  if s.time.si ≤ b ∨ (s.moment t).time.si = b then ((s.moment t).timeFor b).viewAt b else s.time.view

theorem State.captured_eq (s : State) (t : SI) :
    (if floor16 (s.moment t).time.si = (s.moment t).time.si then ((s.moment t).timeFor (s.moment t).time.si).viewAt (s.moment t).time.si
      else (s.moment t).time.view) = s.captured t := by
  have hv : (s.moment t).time.view = if s.time.si ≤ floor16 (s.moment t).time.si then
      (s.timeFor (floor16 (s.moment t).time.si)).viewAt (floor16 (s.moment t).time.si) else s.time.view := rfl
  rw [State.captured, hv, ← s.moment_viewAt t]
  by_cases hb : floor16 (s.moment t).time.si = (s.moment t).time.si
  · rw [if_pos hb, if_pos (Or.inr hb.symm), hb]
  · rw [if_neg hb]
    simp only [Ne.symm hb, or_false]

/-- The read of TIM_SNAP_SI_LO captures the frame boundary at or before it. -/
theorem State.moment_snapshot (s : State) (t : SI) :
    (s.moment t).snapshot = { s.moment t with time := { (s.moment t).time with snap := s.captured t } } :=
  congrArg (fun c => { s.moment t with time := { (s.moment t).time with snap := c } }) (s.captured_eq t)

/-- The registers of the snapshot have no field that a read clears. -/
theorem State.regClear_snapshot (s : State) {o : Nat} (h : 0x60008 ≤ o ∧ o ≤ 0x6001C) (w : Nat) : s.regClear o w = s := by
  have hd : o / 0x10000 = 6 := by omega
  unfold State.regClear
  dsimp only
  rw [if_neg (by omega)]
  simp only [hd]
  split
  · omega
  · omega
  · omega
  · rfl

theorem State.hostRead_snapshot {s : State} (ha : s.barAnswers = true) (hr : s.startup.ready = true) :
    s.hostRead 0x60008 = { s.snapshot with obs := { s.obs with readData := w32 (loWord s.snapshot.time.snap.si), readPoisoned := false } } := by
  have hv : s.snapshot.regLive 0x60008 = loWord s.snapshot.time.snap.si := rfl
  have hs : ∀ x : State, x.sramNow 0x60008 = x := fun x => rfl
  have hl : latchedBy 0x60008 = [] := by decide
  unfold State.hostRead
  rw [ha]
  simp only [Nat.reduceDiv, Nat.reduceMul, hr, Bool.not_true, Bool.false_eq_true, if_false, or_true, if_true, hs, hl, List.foldl_nil,
    State.readValue_zero, State.regRead_of_not_latched (show isLatched 0x60008 = false by decide), hv]
  exact State.regClear_snapshot _ (by decide) 0

/-- A later register of the snapshot shows what was captured, whatever occurs at the moment of the read. -/
theorem State.hostRead_captured {s : State} {o : Nat} (w : Nat) (ha : s.barAnswers = true) (hr : s.startup.ready = true)
    (ho : 0x6000C ≤ o ∧ o ≤ 0x6001C) (h4 : o % 4 = 0) : s.hostRead o w = s.answerRead (w32 (s.regLive o)) := by
  have hc := fun x : State => x.regClear_snapshot (o := o) (by omega)
  have hlow : ∀ k, o / 0x10000 = 6 → isLow (o - k) = false ∨ o < k + 0x60000 := fun k hk => by
    by_cases hlt : o < k + 0x60000
    · exact .inr hlt
    · refine .inl (Bool.eq_false_iff.2 fun h => ?_)
      rw [isLow_iff] at h
      omega
  have hd : o / 0x10000 = 6 := by omega
  have hl : latchedBy o = [] := by
    have h0 := (hlow 0 hd).resolve_right (by omega)
    rw [Nat.sub_zero] at h0
    simp [latchedBy, h0]
  have hh : isLatched o = false := by
    have h4' := (hlow 4 hd).resolve_right (by omega)
    simp [isLatched, h4', hd]
  rw [State.hostRead_plain w ha hr h4 (by omega) (if_neg (by omega)) hl, hc]
  unfold State.readValue
  rw [hc, hc, Nat.sub_self, Nat.sub_zero, State.regRead_of_not_latched hh]

end Sys2Proof.Machine

namespace Sys2Proof.Proofs

open Sys2Proof.Machine Sys2Proof.Safety

/-- Settles O52: what is captured is `State.captured`, and the other registers show the snapshot as it stands. -/
theorem timeIsCaptured : Obligations.TimeIsCaptured := by
  unfold Obligations.TimeIsCaptured
  intro s t hc hl hd hr x b q u now reads
  have ha : x.barAnswers = true := State.barAnswers_of hc hl hd
  have hread : ∀ o v, 0x6000C ≤ o → o ≤ 0x6001C → o % 4 = 0 → x.regLive o = v → reads o v := fun o v hlo hhi h4 hv raced => by
    rw [← hv]
    exact congrArg Host.Outcome.next (State.hostRead_captured _ ha hr ⟨hlo, hhi⟩ h4)
  refine ⟨?captures, hread _ _ (by decide) (by decide) (by decide) rfl, hread _ _ (by decide) (by decide) (by decide) rfl,
    hread _ _ (by decide) (by decide) (by decide) rfl, hread _ _ (by decide) (by decide) (by decide) rfl, ?flags⟩
  case captures =>
    refine congrArg Host.Outcome.next ((State.hostRead_snapshot ha hr).trans ?_)
    rw [State.moment_snapshot]
    rfl
  case flags =>
    refine hread _ _ (by decide) (by decide) (by decide) ?_
    show regOf [(q.tgen, 24, 8), rb q.coasting 16, (q.state, 0, 3)] = _
    simp only [regOf_flag, regOf_cons, regOf_nil, Nat.reducePow, Nat.mul_one, Nat.add_zero, Nat.add_assoc]

end Sys2Proof.Proofs

/-! ### A child with two upstream ports out of order (R63, R187) -/

namespace Sys2Proof.Machine

/-- A unit that takes its time from its upstream port, whose table of ports names two such ports with the higher number first: port 5 is its upstream
port until port 3 changes and moves to the front. -/
def State.twoUpstream : State :=
  { time.ref.timeSrc := true
    cas.ports := [(5, { role := 1 }), (3, { role := 1, state := 2 })] }

/-- An info message of unit 9 that names an uncertainty of 1 ps. -/
def firstInfo : TtMessage := .info { origin := 9, linkSeq := 0 } 1 0 0 0 0

/-- Port 3 takes the message, becomes the upstream port by doing so, and the unit uses what the message brings. -/
theorem twoUpstream_uses_info : ∃ s', exec (.timeTransfer 0 3 firstInfo) .twoUpstream = .next s' ∧ s'.time.tt.parentU = 1 :=
  ⟨_, rfl, by decide⟩

end Sys2Proof.Machine

namespace Sys2Proof.Proofs

open Sys2Proof.Machine Sys2Proof.Safety

/-- Refutes O32: a unit whose upstream port is not the port that brings a message is to leave its station time alone, but taking the message on port 3
moves that port to the front of an unordered table of ports, where it is the upstream port (`State.twoUpstream`). -/
theorem not_synthesiserAndTransfer : ¬ Obligations.SynthesiserAndTransfer := by
  unfold Obligations.SynthesiserAndTransfer
  intro h
  obtain ⟨-, -, -, -, -, -, -, -, -, hother, -⟩ := h .twoUpstream 0 3 firstInfo
  obtain ⟨s', hs, hlink, -⟩ := hother (fun _ _ => nofun) (by decide)
  obtain ⟨s'', hs', hu⟩ := twoUpstream_uses_info
  have he : s' = s'' := Host.Outcome.next.inj (hs.symm.trans hs')
  have ht : s'.time = (State.twoUpstream.moment 0).time := (congrArg (fun x : State => x.time) hlink.rest :)
  rw [← he, ht] at hu
  exact absurd hu (by decide)

end Sys2Proof.Proofs

/-! ### What placing records, gating outputs and raising alarms leave of station time (R45, R48, R59) -/

namespace Sys2Proof.Machine

open Sys2Proof.Safety

/-- Station time but for its outputs and the alarm of U, which follow by themselves. -/
def Time.core (t : Time) : Time := { t with outActive := false, refoutOn := false, alarmed := false }

/-- s' comes from s by placing records and raising events while station time becomes y, its outputs and its alarm following. -/
structure Steered (s : State) (y : Time) (s' : State) : Prop where
  placed : Placed { s with time := s'.time } s'
  time : s'.time.core = y.core

/-- What places records does so under any station time. -/
theorem Placed.setTime {s s' : State} (h : Placed s s') (x : Time) : Placed { s with time := x } { s' with time := x } :=
  ⟨congrArg (fun z : State => { z with time := x }) h.still, h.region, h.raised, h.posted⟩

theorem Placed.steered {s s' : State} (h : Placed s s') : Steered s s.time s' := by
  refine ⟨?_, by rw [h.time]⟩
  rw [h.time]
  exact h

/-- Station time set by hand. -/
theorem steered_set (s : State) (y : Time) : Steered s y { s with time := y } := ⟨Placed.refl _, rfl⟩

theorem Steered.trans {a b c : State} {y z : Time} (h : Steered a y b) (k : Steered b z c) : Steered a z c :=
  ⟨(h.placed.setTime c.time).trans k.placed, k.time⟩

/-- What leaves station time alone may follow. -/
theorem Steered.followed {a b c : State} {y : Time} (h : Steered a y b) (k : Steered b b.time c) : Steered a y c :=
  ⟨(h.trans k).placed, k.time.trans h.time⟩

theorem Steered.placing {a b c : State} {y : Time} (h : Steered a y b) (k : Placed b c) : Steered a y c := h.followed k.steered

/-! #### The operations -/

/-- The outputs gated by hand. -/
theorem steered_outputs (s : State) (a r : Bool) : Steered s s.time { s with time := { s.time with outActive := a, refoutOn := r } } :=
  ⟨Placed.refl _, rfl⟩

theorem steered_gateOutputs (s : State) : Steered s s.time s.gateOutputs := by
  have hoff := steered_outputs s false false
  unfold State.gateOutputs
  dsimp only
  split
  · exact (Placed.refl s).steered
  · split
    · exact hoff.placing (placed_post _ _)
    · exact hoff

theorem steered_retime (s : State) (f : Time → Time) : Steered s (f s.time) (s.retime f) := by
  unfold State.retime
  extract_lets s1
  have h1 : Steered s (f s.time) s1 := steered_set s _
  split
  · exact h1
  · exact (h1.followed (steered_gateOutputs s1)).placing (placed_raise _ _)

theorem steered_checkUnc (s : State) : Steered s s.time s.checkUnc := by
  unfold State.checkUnc
  dsimp only
  refine Steered.placing ?_ (placed_raiseIf _ _ _)
  exact ⟨Placed.refl _, rfl⟩

/-- Station time without the slew in progress, as it stands at slot b (R50). -/
def Time.cut (t : Time) (b : SI) : Time :=
  match t.slew with
  | none => t
  | some _ => ({ t.rebase b with slew := none } : Time).freshOffsets

theorem placed_cutSlew (s : State) (b : SI) : Placed { s with time := s.time.cut b } (s.cutSlew b) := by
  cases h : s.time.slew with
  | none =>
    have hs : s.cutSlew b = s := by rw [State.cutSlew, h]
    have ht : s.time.cut b = s.time := by rw [Time.cut, h]
    rw [hs, ht]
    exact Placed.refl s
  | some w =>
    have ht : s.time.cut b = ({ s.time.rebase b with slew := none } : Time).freshOffsets := by rw [Time.cut, h]
    rw [ht, State.cutSlew, h]
    exact (placed_raise _ _).after (placed_placeActive _ _)

theorem steered_cutSlew (s : State) (b : SI) : Steered s (s.time.cut b) (s.cutSlew b) := (steered_set s _).placing (placed_cutSlew s b)

/-- A change of station time after a slew is cut short. -/
theorem steered_cutSlew_retime {s : State} {b : SI} {f : Time → Time} {y : Time} (hy : f (s.time.cut b) = y) :
    Steered s y ((s.cutSlew b).retime f) := by
  subst hy
  have h := steered_retime (s.cutSlew b) f
  rw [(placed_cutSlew s b).time] at h
  exact (steered_cutSlew s b).trans h

/-- A slew that is cut short leaves everything of station time but its mapping and the offsets. -/
theorem Time.cut_eq (t : Time) (b : SI) :
    ∃ m p w o, t.cut b = { t with map := m, past := p, slew := w, tt := { t.tt with offsets := o } } := by
  unfold Time.cut
  split
  · exact ⟨t.map, t.past, t.slew, t.tt.offsets, rfl⟩
  · exact ⟨_, _, _, _, rfl⟩

/-! #### Losses and returns (R41, R43, R49 to R51) -/

/-- What losing, accepting and following the reference leave alone. -/
def Time.apart (t : Time) : Time :=
  { t.core with
    map := {}, past := [], loopDue := none, state := .free, pulses := 0, lastPulse := none, misses := 0, slips := [], phasePs := 0
    uLoss := 0, lossSi := 0, growth := 0, bound := 0, pending := none, labelStep := none, slew := none, label := none, labelOfs := none
    labelHeld := false, lossCnt := 0, tt := { t.tt with offsets := [] } }

/-- s' comes from s by placing records, raising events, and what the unit does with its reference. -/
structure Tracked (s s' : State) : Prop where
  placed : Placed { s with time := s'.time } s'
  apart : s'.time.apart = s.time.apart

theorem Steered.tracked {s s' : State} {y : Time} (h : Steered s y s') (hy : y.apart = s.time.apart) : Tracked s s' :=
  ⟨h.placed, (congrArg Time.apart h.time : s'.time.core.apart = y.core.apart).trans hy⟩

theorem Placed.tracked {s s' : State} (h : Placed s s') : Tracked s s' := h.steered.tracked rfl

theorem Tracked.trans {a b c : State} (h : Tracked a b) (k : Tracked b c) : Tracked a c :=
  ⟨(h.placed.setTime c.time).trans k.placed, k.apart.trans h.apart⟩

/-- The same, the last step named first. -/
theorem Tracked.after {a b c : State} (k : Tracked b c) (h : Tracked a b) : Tracked a c := h.trans k

/-- Station time set by hand, what is apart staying. -/
theorem tracked_set (s : State) (y : Time) (hy : y.apart = s.time.apart) : Tracked s { s with time := y } := ⟨Placed.refl _, hy⟩

theorem Time.cut_apart (t : Time) (b : SI) : (t.cut b).apart = t.apart := by
  obtain ⟨m, p, w, o, h⟩ := t.cut_eq b
  rw [h]
  rfl

theorem tracked_retime (s : State) (f : Time → Time) (hf : (f s.time).apart = s.time.apart) : Tracked s (s.retime f) :=
  (steered_retime s f).tracked hf

theorem tracked_checkUnc (s : State) : Tracked s s.checkUnc := (steered_checkUnc s).tracked rfl

theorem tracked_cutSlew (s : State) (b : SI) : Tracked s (s.cutSlew b) := (steered_cutSlew s b).tracked (s.time.cut_apart b)

theorem tracked_returnWith (s : State) (d : Int) : Tracked s (s.returnWith d) := by
  unfold State.returnWith
  dsimp only
  split
  · exact (placed_raise _ _).tracked.after ((placed_raise _ _).tracked.after ((placed_placeActive _ _).tracked.after
      ((tracked_retime _ _ rfl).after (tracked_cutSlew s _))))
  · exact (placed_raise _ _).tracked.after ((tracked_retime _ _ rfl).after (tracked_cutSlew s _))

/-- Where a state falls when the reference is lost: FREE and ACQUIRE to FREE, the traced states coast (R41, R43). -/
def DpllState.fallen (st : DpllState) : DpllState := if st = .free ∨ st = .acquire then .free else .coast

/-- Station time after a loss at boundary b in ACQUIRE or a traced state. -/
def Time.lost (t : Time) (b : SI) : Time :=
  { t.cut b with
    state := if t.state = .acquire then .free else .coast, pulses := 0, pending := (t.cut b).pending.filter (fun p => p.cause = 3)
    labelHeld := t.state = .returnStep && (t.cut b).label.isSome, uLoss := t.u b, lossSi := b, growth := (t.cut b).policy.holdover
    lossCnt := satInc 8 (t.cut b).lossCnt }

/-- Station time after a loss at boundary b. -/
def Time.withoutReference (t : Time) (b : SI) : Time := if t.state = .free ∨ t.state = .coast then { t with pulses := 0 } else t.lost b

theorem Time.lost_apart (t : Time) (b : SI) : (t.lost b).apart = t.apart := t.cut_apart b

theorem Time.lost_lossCnt (t : Time) (b : SI) : (t.lost b).lossCnt = min (t.lossCnt + 1) 255 := by
  obtain ⟨m, p, w, o, h⟩ := t.cut_eq b
  rw [Time.lost, h]
  rfl

theorem Time.withoutReference_apart (t : Time) (b : SI) : (t.withoutReference b).apart = t.apart := by
  unfold Time.withoutReference
  split
  · rfl
  · exact t.lost_apart b

theorem Time.withoutReference_state (t : Time) (b : SI) : (t.withoutReference b).state = t.state.fallen := by
  unfold Time.withoutReference DpllState.fallen
  split
  next h => rcases h with h | h <;> simp [h]
  next h =>
    rw [not_or] at h
    simp only [Time.lost, h.1, false_or]

theorem Time.withoutReference_of_traced {t : Time} (hf : t.state ≠ .free) (hc : t.state ≠ .coast) (b : SI) : t.withoutReference b = t.lost b :=
  if_neg (by simp [hf, hc])

/-- Of what a loss changes, the pulse last accepted and the count of misses are no part. -/
theorem Time.withoutReference_pulse (t : Time) (b : SI) :
    (t.withoutReference b).lastPulse = t.lastPulse ∧ (t.withoutReference b).misses = t.misses ∧ (t.withoutReference b).pulses = 0 := by
  unfold Time.withoutReference
  split
  · exact ⟨rfl, rfl, rfl⟩
  · obtain ⟨m, p, w, o, h⟩ := t.cut_eq b
    rw [Time.lost, h]
    exact ⟨rfl, rfl, rfl⟩

theorem loseReference_of_traced {s : State} (hf : s.time.state ≠ .free) (hc : s.time.state ≠ .coast) (b : SI) :
    ∃ x, Steered s (s.time.lost b) x ∧ s.loseReference b = x.raise 36 := by
  unfold State.loseReference Time.lost
  cases hst : s.time.state with
  | free => exact absurd hst hf
  | coast => exact absurd hst hc
  | acquire | locked | returnSlew | returnStep =>
    refine ⟨_, ?_, rfl⟩
    exact steered_cutSlew_retime rfl

theorem loseReference_of_untraced {s : State} (h : s.time.state = .free ∨ s.time.state = .coast) (b : SI) :
    s.loseReference b = { s with time := { s.time with pulses := 0 } } := by
  unfold State.loseReference
  rcases h with h | h <;> rw [h]

theorem steered_loseReference (s : State) (b : SI) : Steered s (s.time.withoutReference b) (s.loseReference b) := by
  by_cases h : s.time.state = .free ∨ s.time.state = .coast
  · rw [loseReference_of_untraced h, Time.withoutReference, if_pos h]
    exact steered_set s _
  · rw [Time.withoutReference, if_neg h]
    rw [not_or] at h
    obtain ⟨x, hx, he⟩ := loseReference_of_traced h.1 h.2 b
    rw [he]
    exact hx.placing (placed_raise _ _)

/-- The loss of a reference that the unit followed raises event 36. -/
theorem loseReference_event {s : State} (hf : s.time.state ≠ .free) (hc : s.time.state ≠ .coast) (b : SI) :
    36 ∈ (s.loseReference b).events.raised := by
  obtain ⟨x, -, he⟩ := loseReference_of_traced hf hc b
  rw [he]
  exact raise_mem x 36

theorem tracked_loseReference (s : State) (b : SI) : Tracked s (s.loseReference b) :=
  (steered_loseReference s b).tracked (s.time.withoutReference_apart b)

end Sys2Proof.Machine

/-! ### Pulses of EPOCH_IN (R39 to R43) -/

namespace Sys2Proof.Machine

open Sys2Proof.Safety

/-- The pulse at fine code `fine` of the present slot is the last one accepted. -/
def Time.marked (t : Time) (fine : Nat) : Time := { t with lastPulse := some (64 * t.si + fine), misses := 0, slips := [] }

theorem Time.takeLabel_eq (t : Time) (v : Int) : ∃ l o, t.takeLabel v = { t with label := l, labelOfs := o } := by
  unfold Time.takeLabel
  split
  · exact ⟨t.label, t.labelOfs, rfl⟩
  · exact ⟨_, _, rfl⟩

theorem Time.compareLabel_eq (t : Time) (v : Int) : ∃ l h st, t.compareLabel v = { t with label := l, labelHeld := h, labelStep := st } := by
  unfold Time.compareLabel
  split
  · exact ⟨t.label, t.labelHeld, t.labelStep, rfl⟩
  · exact ⟨_, _, _, rfl⟩

theorem tracked_loopAt (s : State) (l : LoopSet) : Tracked s (s.loopAt l) :=
  (placed_tick _).tracked.after (tracked_set s _ rfl)

theorem loop_time (s : State) (fine : Nat) :
    ∃ l n, (s.loop fine).time = { s.time with loopDue := some l, bound := n } := ⟨_, _, rfl⟩

/-- Station time set by hand and then changed. -/
theorem steered_set_retime {s : State} {x y : Time} {f : Time → Time} (hy : f x = y) : Steered s y (({ s with time := x } : State).retime f) := by
  subst hy
  exact (steered_set s x).trans (steered_retime { s with time := x } f)

section Accepted
variable {s : State} {fine : Nat} {spaced : Bool}

/-- In FREE the first pulse of a valid reference begins ACQUIRE. -/
theorem acceptPulse_first (h : s.time.state = .free) (hv : s.time.refValid = true) (hn : s.time.epoch.nominal ≠ none) :
    ∃ l o, Steered s { s.time.marked fine with label := l, labelOfs := o, state := .acquire, pulses := 1 } (s.acceptPulse fine spaced) := by
  obtain ⟨l, o, ht⟩ := (s.time.marked fine).takeLabel_eq (s.time.pulseSt s.time.si fine)
  have he : s.acceptPulse fine spaced = ({ s with time := (s.time.marked fine).takeLabel (s.time.pulseSt s.time.si fine) } : State).retime
      (fun t => { t with state := .acquire, pulses := 1 }) := by
    unfold State.acceptPulse
    rw [h]
    refine if_pos (Bool.and_eq_true_iff.2 ⟨?_, ?_⟩)
    · exact (congrArg Time.refValid ht).trans hv
    · exact (congrArg (fun t : Time => t.epoch.nominal.isSome) ht).trans (Option.isSome_iff_ne_none.2 hn)
  rw [he, ht]
  exact ⟨l, o, steered_set_retime rfl⟩

/-- Without a valid reference the unit stays in FREE. -/
theorem acceptPulse_unreferenced (h : s.time.state = .free) (hv : s.time.refValid = false) :
    ∃ l o, Steered s { s.time.marked fine with label := l, labelOfs := o } (s.acceptPulse fine spaced) := by
  obtain ⟨l, o, ht⟩ := (s.time.marked fine).takeLabel_eq (s.time.pulseSt s.time.si fine)
  have he : s.acceptPulse fine spaced = { s with time := (s.time.marked fine).takeLabel (s.time.pulseSt s.time.si fine) } := by
    unfold State.acceptPulse
    rw [h]
    refine if_neg fun hc => ?_
    have hr := (congrArg Time.refValid ht).trans hv
    exact absurd ((Bool.and_eq_true_iff.1 hc).1.symm.trans hr) (by decide)
  rw [he, ht]
  exact ⟨l, o, steered_set s _⟩

/-- In ACQUIRE a pulse counts on where it follows the one before at the nominal spacing; the fifth asks for the step that ends ACQUIRE. -/
theorem acceptPulse_acquire (h : s.time.state = .acquire) :
    ∃ (l : Option Nat) (o : Option Int) (u : Nat) (d : Int) (r : Nat),
      Steered s { s.time.marked fine with
        label := l, labelOfs := o, bound := u, pulses := if spaced then s.time.pulses + 1 else 1
        pending := if 5 ≤ (if spaced then s.time.pulses + 1 else 1) then some { cause := 1, delta := d, lock := some (s.time.si, r) }
          else s.time.pending.filter (fun p => p.cause = 3) } (s.acceptPulse fine spaced) := by
  obtain ⟨l, o, ht⟩ := (s.time.marked fine).takeLabel_eq (s.time.pulseSt s.time.si fine)
  have he : ∃ (u : Nat) (d : Int) (r : Nat), s.acceptPulse fine spaced = ({ s with time :=
      { (s.time.marked fine).takeLabel (s.time.pulseSt s.time.si fine) with
        bound := u, pulses := if spaced then ((s.time.marked fine).takeLabel (s.time.pulseSt s.time.si fine)).pulses + 1 else 1
        pending := if 5 ≤ (if spaced then ((s.time.marked fine).takeLabel (s.time.pulseSt s.time.si fine)).pulses + 1 else 1) then
            some { cause := 1, delta := d, lock := some (s.time.si, r) }
          else ((s.time.marked fine).takeLabel (s.time.pulseSt s.time.si fine)).pending.filter (fun p => p.cause = 3) } } : State).tick := by
    unfold State.acceptPulse
    rw [h]
    exact ⟨_, _, _, rfl⟩
  obtain ⟨u, d, r, he⟩ := he
  rw [he, ht]
  exact ⟨l, o, u, d, r, (steered_set s _).placing (placed_tick _)⟩

/-- In LOCKED the loop measures, and a label is compared. -/
theorem acceptPulse_locked (h : s.time.state = .locked) :
    ∃ l h' st w u, Steered s { s.time.marked fine with label := l, labelHeld := h', labelStep := st, loopDue := some w, bound := u }
      (s.acceptPulse fine spaced) := by
  obtain ⟨w, u, hl⟩ := loop_time s fine
  obtain ⟨l, h', st, ht⟩ := ((s.loop fine).time.marked fine).compareLabel_eq (s.time.pulseSt s.time.si fine)
  have he : s.acceptPulse fine spaced = { s.loop fine with time := ((s.loop fine).time.marked fine).compareLabel (s.time.pulseSt s.time.si fine) } := by
    unfold State.acceptPulse
    rw [h]
    rfl
  rw [he, ht, hl]
  exact ⟨l, h', st, w, u, placed_tick _, rfl⟩

end Accepted

/-- The third slip of a run changes nothing but what the unit does with its reference. -/
theorem tracked_newPhase (s : State) (fine : Nat) : Tracked s (s.newPhase fine) := by
  have hmark : ∀ x : State, Tracked x { x with time := x.time.marked fine } := fun x => tracked_set x _ rfl
  have hagain : ∀ (x : State) (l : LoopSet) (d : Int), Tracked x ((x.loopAt l).returnWith d) := fun x l d =>
    (tracked_returnWith _ d).after (tracked_loopAt x l)
  unfold State.newPhase
  dsimp only
  split
  · exact (Placed.refl s).tracked
  · exact tracked_set s _ rfl
  · split
    · exact (hagain _ _ _).after (hmark s)
    · exact (Placed.refl s).tracked
  · exact (hagain _ _ _).after (hmark s)

/-! #### EPOCH_IN_PULSE -/

/-- The pulse reaches the unit, and its edge is the active one of a unit that follows EPOCH_IN. -/
def State.seesPulse (s : State) (rising lost : Bool) : Prop :=
  (lost = false ∨ s.safe.quiet = true) ∧ rising ≠ s.time.epoch.falling ∧ s.time.ref.timeSrc = false

/-- The state in which a slip at `cycles` has been counted, before a run of three defines a new phase (R40). -/
def State.slips (s : State) (fine cycles nom : Nat) : State :=
  let v := s.time.pulseSt s.time.si fine
  ({ s with time := { s.time with
    slipCnt := satInc 8 s.time.slipCnt, slips := cycles :: slipRun nom s.time.epoch.tol cycles s.time.slips
    pulses := if s.time.state = DpllState.coast then 0 else s.time.pulses
    phasePs := sat32 (s.time.toPsReg (nearestEpoch v - v)) } } : State).raise 39

/-- A slip (R40). -/
def State.slipped (s : State) (fine cycles nom : Nat) : State :=
  if 3 ≤ (cycles :: slipRun nom s.time.epoch.tol cycles s.time.slips).length then (s.slips fine cycles nom).newPhase fine
  else s.slips fine cycles nom

section Pulse
variable {s : State} {t : SI} {fine : Fin 64} {rising lost : Bool} {cycles nom : Nat}

theorem exec_epochInPulse_lost (hl : lost = true) (hq : s.safe.quiet = false) :
    exec (.epochInPulse t fine rising cycles lost) s = .next ((s.moment t).seamLost 1) :=
  if_pos (Bool.and_eq_true_iff.2 ⟨hl, by simp [hq]⟩)

theorem exec_epochInPulse_inactive (hl : lost = false) (h : rising = s.time.epoch.falling ∨ s.time.ref.timeSrc = true) :
    exec (.epochInPulse t fine rising cycles lost) s = .next (s.moment t) := by
  subst hl
  refine if_pos (Bool.or_eq_true_iff.2 ?_)
  exact h.imp_left decide_eq_true

/-- What an active edge does, by whether a position is expected of it. -/
theorem exec_epochInPulse_active (h : s.seesPulse rising lost) : exec (.epochInPulse t fine rising cycles lost) s =
    match (s.moment t).time.epoch.nominal, (s.moment t).time.state = .free || (s.moment t).time.lastPulse.isNone with
    | some nom, false =>
      if ((cycles : Int) - (((s.moment t).time.misses + 1) * nom : Nat)).natAbs ≤ (s.moment t).time.epoch.tol then
        .next ((s.moment t).acceptPulse fine.val (decide (((cycles : Int) - nom).natAbs ≤ 1))).checkUnc
      else .next ((s.moment t).slipped fine.val cycles nom).checkUnc
    | _, _ => .next ((s.moment t).acceptPulse fine.val false).checkUnc := by
  obtain ⟨hl, he, hsrc⟩ := h
  have h1 : ¬ (lost && !(s.moment t).safe.quiet) = true := by
    rcases hl with hl | hl <;> simp [hl]
  have h2 : ¬ (decide (rising = (s.moment t).time.epoch.falling) || (s.moment t).time.ref.timeSrc) = true := by
    rw [Bool.or_eq_true_iff, decide_eq_true_iff]
    exact not_or.2 ⟨he, by simp [Time.atSlot, hsrc]⟩
  show execEpochInPulse t fine rising cycles lost s = _
  unfold execEpochInPulse
  dsimp only
  rw [if_neg h1, if_neg h2]
  rfl

/-- Where no position is expected every active edge is accepted. -/
theorem exec_epochInPulse_unplaced (h : s.seesPulse rising lost)
    (hp : s.time.state = .free ∨ s.time.lastPulse = none ∨ s.time.epoch.nominal = none) :
    exec (.epochInPulse t fine rising cycles lost) s = .next ((s.moment t).acceptPulse fine.val false).checkUnc := by
  rw [exec_epochInPulse_active h]
  split
  next nom hn hx =>
    rw [Bool.or_eq_false_iff, decide_eq_false_iff_not] at hx
    rcases hp with hp | hp | hp
    · exact absurd hp hx.1
    · exact absurd (hx.2.symm.trans (congrArg Option.isNone hp)) (by decide)
    · exact absurd (hn.symm.trans hp) (by simp)
  next => rfl

/-- Where one is expected, an edge within the tolerance is accepted, and any other is a slip. -/
theorem exec_epochInPulse_placed (h : s.seesPulse rising lost) (hf : s.time.state ≠ .free) (hl : s.time.lastPulse ≠ none)
    (hn : s.time.epoch.nominal = some nom) : exec (.epochInPulse t fine rising cycles lost) s =
      if ((cycles : Int) - ((s.time.misses + 1) * nom : Nat)).natAbs ≤ s.time.epoch.tol then
        .next ((s.moment t).acceptPulse fine.val (decide (((cycles : Int) - nom).natAbs ≤ 1))).checkUnc
      else .next ((s.moment t).slipped fine.val cycles nom).checkUnc := by
  have hx : (decide ((s.moment t).time.state = .free) || (s.moment t).time.lastPulse.isNone) = false :=
    Bool.or_eq_false_iff.2 ⟨decide_eq_false hf, Option.isNone_eq_false_iff.2 (Option.isSome_iff_ne_none.2 hl)⟩
  have hn' : (s.moment t).time.epoch.nominal = some nom := hn
  rw [exec_epochInPulse_active h, hx, hn']
  rfl

end Pulse

theorem tracked_slipped (s : State) (fine cycles nom : Nat) : Tracked (s.slips fine cycles nom) (s.slipped fine cycles nom) := by
  unfold State.slipped
  split
  · exact tracked_newPhase _ _
  · exact (Placed.refl _).tracked

/-- The first slip of a run changes neither the state nor the pulse last accepted. -/
theorem slipped_first {s : State} (h : s.time.slips = []) (fine cycles nom : Nat) : s.slipped fine cycles nom = s.slips fine cycles nom := by
  unfold State.slipped
  rw [h]
  exact if_neg (by simp [slipRun])

/-! ### Misses and losses of REFCLK (R40, R41) -/

/-- The state in which a miss has been counted. -/
def State.missed (s : State) : State :=
  ({ s with time := { s.time with
    missCnt := satInc 8 s.time.missCnt, misses := s.time.misses + 1, pulses := if s.time.state = DpllState.coast then 0 else s.time.pulses } } : State).raise 38

section Miss
variable {s : State} {t : SI}

theorem exec_epochInMiss_none (h : s.time.ref.timeSrc = true ∨ s.time.state = .free ∨ s.time.lastPulse = none ∨ s.time.epoch.nominal = none) :
    exec (.epochInMiss t) s = .next (s.moment t) := by
  refine if_pos ?_
  rw [Bool.or_eq_true_iff, Bool.or_eq_true_iff, Bool.or_eq_true_iff]
  rcases h with h | h | h | h
  · exact .inl (.inl (.inl h))
  · exact .inl (.inl (.inr (decide_eq_true h)))
  · exact .inl (.inr (Option.isNone_iff_eq_none.2 h))
  · exact .inr (Option.isNone_iff_eq_none.2 h)

theorem exec_epochInMiss_due (hs : s.time.ref.timeSrc = false) (hf : s.time.state ≠ .free) (hl : s.time.lastPulse ≠ none)
    (hn : s.time.epoch.nominal ≠ none) : exec (.epochInMiss t) s =
      .next (if s.time.misses + 1 = 3 then (s.moment t).missed.loseReference (s.moment t).missed.boundary else (s.moment t).missed).checkUnc := by
  refine if_neg ?_
  rw [Bool.or_eq_true_iff, Bool.or_eq_true_iff, Bool.or_eq_true_iff]
  rintro (((h | h) | h) | h)
  · exact absurd (h.symm.trans hs) (by decide)
  · exact hf (of_decide_eq_true h)
  · exact hl (Option.isNone_iff_eq_none.1 h)
  · exact hn (Option.isNone_iff_eq_none.1 h)

end Miss

theorem freqGood_eq_false_iff {ref hz : Nat} : freqGood ref hz = false ↔ ref = 0 ∨ hz = 0 ∨ ref < ((hz : Int) - ref).natAbs * 10000 := by
  unfold freqGood
  rw [Bool.and_eq_false_iff, Bool.and_eq_false_iff]
  simp only [ne_eq, decide_not, Bool.not_eq_false', decide_eq_true_eq, decide_eq_false_iff_not, not_le, or_assoc]

/-- Station time without a valid REFCLK: no pulse is expected at any position. -/
def Time.unclocked (t : Time) : Time := { t with refValid := false, lastPulse := none, misses := 0, slips := [] }

/-- Station time after REFCLK is no longer valid at boundary b. -/
def Time.withoutClock (t : Time) (b : SI) : Time :=
  if t.refValid then (if t.ref.timeSrc then t.unclocked else t.unclocked.withoutReference b) else t

theorem loseClock_eq (s : State) : s.loseClock = if s.time.refValid then
    (if s.time.ref.timeSrc then { s with time := s.time.unclocked } else ({ s with time := s.time.unclocked } : State).loseReference s.boundary)
  else s := rfl

theorem steered_loseClock (s : State) : Steered s (s.time.withoutClock s.boundary) s.loseClock := by
  rw [loseClock_eq, Time.withoutClock]
  split
  · split
    · exact steered_set s _
    · exact (steered_set s _).trans (steered_loseReference { s with time := s.time.unclocked } _)
  · exact (Placed.refl s).steered

/-- What the loss of REFCLK leaves alone, but for REFCLK itself. -/
theorem Time.withoutClock_apart (t : Time) (b : SI) : (t.withoutClock b).apart = { t.apart with refValid := false } := by
  unfold Time.withoutClock
  split
  · split
    · rfl
    · exact Time.withoutReference_apart _ b
  next h =>
    have hv : t.refValid = false := Bool.eq_false_iff.2 h
    rw [← hv]
    rfl

theorem Time.withoutClock_state_of_untied {t : Time} (h : t.refValid = false ∨ t.ref.timeSrc = true) (b : SI) :
    (t.withoutClock b).state = t.state := by
  unfold Time.withoutClock
  rcases h with h | h
  · rw [if_neg (by simp [h])]
  · rw [if_pos h]
    split <;> rfl

theorem Time.withoutClock_of_traced {t : Time} (hv : t.refValid = true) (hs : t.ref.timeSrc = false) (hf : t.state ≠ .free) (hc : t.state ≠ .coast)
    (b : SI) : t.withoutClock b = t.unclocked.lost b := by
  unfold Time.withoutClock
  rw [if_pos hv, if_neg (by simp [hs])]
  exact Time.withoutReference_of_traced (t := t.unclocked) hf hc b

theorem loseClock_event {s : State} (hv : s.time.refValid = true) (hs : s.time.ref.timeSrc = false) (hf : s.time.state ≠ .free)
    (hc : s.time.state ≠ .coast) : 36 ∈ s.loseClock.events.raised := by
  rw [loseClock_eq, if_pos hv, if_neg (by simp [hs])]
  exact loseReference_event (s := { s with time := s.time.unclocked }) hf hc _

end Sys2Proof.Machine

/-! ### Messages on the cascade's links (R180 to R185) -/

namespace Sys2Proof.Machine

open Sys2Proof.Safety

/-- s' comes from s by what the cascade's ports do: their own contents change, and messages and records leave. -/
def Linked (s s' : State) : Prop := Placed { s with cas := s'.cas } s'

/-- What places records does so under any state of the cascade. -/
theorem Placed.setCas {s s' : State} (h : Placed s s') (x : Cascade) : Placed { s with cas := x } { s' with cas := x } :=
  ⟨congrArg (fun z : State => { z with cas := x }) h.still, h.region, h.raised, h.posted⟩

theorem Placed.linked {s s' : State} (h : Placed s s') : Linked s s' := h.setCas s'.cas

theorem Linked.refl (s : State) : Linked s s := Placed.refl s

theorem Linked.trans {a b c : State} (h : Linked a b) (k : Linked b c) : Linked a c := (Placed.setCas h c.cas).trans k

/-- The same, the last step named first. -/
theorem Linked.after {a b c : State} (k : Linked b c) (h : Linked a b) : Linked a c := h.trans k

theorem Linked.foldl {β : Type} (f : State → β → State) (hf : ∀ s x, Linked s (f s x)) (l : List β) (s : State) : Linked s (l.foldl f s) := by
  induction l generalizing s with
  | nil => exact Linked.refl s
  | cons x rest ih => exact (hf s x).trans (ih _)

/-- The cascade's own contents set by hand. -/
theorem linked_set (s : State) (x : Cascade) : Linked s { s with cas := x } := Placed.refl _

theorem linked_modPort (s : State) (n : Nat) (f : Port → Port) : Linked s (s.modPort n f) := linked_set s _

theorem linked_sendIdle (s : State) (n : Nat) : Linked s (s.sendIdle n) := (placed_post _ _).linked.after (linked_modPort s n _)

theorem linked_putBlocks (s : State) (n : Nat) (x : Posted) : Linked s (s.putBlocks n x) := by
  have h : Linked s ((s.modPort n (fun p => { p with txRun := p.txRun + 1 })).post x) := (placed_post _ _).linked.after (linked_modPort s n _)
  unfold State.putBlocks
  dsimp only
  split
  · exact (linked_sendIdle _ _).after h
  · exact h

theorem linked_stampSent (s : State) (type : Nat) (m : CasMsg) : Linked s (s.stampSent type m) := by
  unfold State.stampSent
  split
  · exact linked_set s _
  · exact Linked.refl s

theorem linked_sendQueued (s : State) (n fuel : Nat) : Linked s (s.sendQueued n fuel) := by
  induction fuel generalizing s with
  | zero => exact Linked.refl s
  | succ k ih =>
    unfold State.sendQueued
    dsimp only
    split
    · exact Linked.refl s
    · split
      · exact Linked.refl s
      · exact (ih _).after ((linked_stampSent _ _ _).after ((linked_putBlocks _ _ _).after (linked_modPort s n _)))

theorem linked_enqueue (s : State) (n type : Nat) (m : CasMsg) : Linked s (s.enqueue n type m) := by
  unfold State.enqueue
  dsimp only
  split
  · exact linked_modPort s n _
  · split
    · exact (placed_raise _ _).linked.after (linked_modPort s n _)
    · exact (linked_sendQueued _ _ _).after (linked_modPort s n _)

theorem linked_broadcast (s : State) (type : Nat) (m : CasMsg) : Linked s (s.broadcast type m) :=
  Linked.foldl _ (fun _ _ => linked_enqueue _ _ _ _) _ s

theorem linked_sendUp (s : State) (type : Nat) (m : CasMsg) : Linked s (s.sendUp type m) := by
  unfold State.sendUp
  split
  · exact Linked.refl s
  · exact linked_enqueue _ _ _ _

theorem linked_originate (s : State) (type : Nat) (m : CasMsg) : Linked s (s.originate type m) := by
  unfold State.originate
  split
  · exact linked_sendUp _ _ _
  · exact linked_broadcast _ _ _

/-! ### The gated clock and doubt (R55, R56, R251, R502 to R504) -/

/-- s with what a loss of the synthesiser can change in w. -/
def State.withGate (s w : State) : State :=
  { s with time := w.time, safe := w.safe, seq0 := w.seq0, pins := w.pins, cas := w.cas, engines := w.engines, cutEngines := w.cutEngines }

/-- s' comes from s by placing records and what the gated clock and doubt do, while station time becomes y, its outputs and its alarm following. -/
structure Gated (s : State) (y : Time) (s' : State) : Prop where
  placed : Placed (s.withGate s') s'
  time : s'.time.core = y.core
  soft : s'.safe.softReset = s.safe.softReset

theorem Placed.withGate {s s' : State} (h : Placed s s') (w : State) : Placed (s.withGate w) (s'.withGate w) :=
  ⟨congrArg (fun z : State => z.withGate w) h.still, h.region, h.raised, h.posted⟩

theorem Steered.gated {s s' : State} {y : Time} (h : Steered s y s') : Gated s y s' := ⟨h.placed.withGate s', h.time, congrArg Safe.softReset h.placed.safe⟩

theorem Placed.gated {s s' : State} (h : Placed s s') : Gated s s.time s' := h.steered.gated

theorem Linked.gated {s s' : State} (h : Linked s s') : Gated s s.time s' := by
  have h : Placed { s with cas := s'.cas } s' := h
  exact ⟨h.withGate s', congrArg Time.core h.time, congrArg Safe.softReset h.safe⟩

/-! What the gated clock and doubt change, set by hand. -/

theorem gated_setSafe (s : State) {x : Safe} (hx : x.softReset = s.safe.softReset) : Gated s s.time { s with safe := x } := ⟨Placed.refl _, rfl, hx⟩

theorem gated_setTimeSeq (s : State) (y : Time) (q : Seq) : Gated s y { s with time := y, seq0 := q } := ⟨Placed.refl _, rfl, rfl⟩

theorem gated_setEngines (s : State) (x : Tab Engine) (l : List (Nat × SI × Engine)) : Gated s s.time { s with engines := x, cutEngines := l } :=
  ⟨Placed.refl _, rfl, rfl⟩

theorem Gated.trans {a b c : State} {y z : Time} (h : Gated a y b) (k : Gated b z c) : Gated a z c :=
  ⟨(h.placed.withGate c).trans k.placed, k.time, k.soft.trans h.soft⟩

/-- What leaves station time alone may follow. -/
theorem Gated.followed {a b c : State} {y : Time} (h : Gated a y b) (k : Gated b b.time c) : Gated a y c :=
  ⟨(h.trans k).placed, k.time.trans h.time, k.soft.trans h.soft⟩

theorem Gated.placing {a b c : State} {y : Time} (h : Gated a y b) (k : Placed b c) : Gated a y c := h.followed k.gated

theorem Gated.foldl {β : Type} (f : State → β → State) (hf : ∀ s x, Gated s s.time (f s x)) (l : List β) (s : State) :
    Gated s s.time (l.foldl f s) := by
  induction l generalizing s with
  | nil => exact (Placed.refl s).gated
  | cons x rest ih => exact (hf s x).followed (ih _)

theorem gated_quietPins (s : State) : Gated s s.time s.quietPins := by
  refine ⟨⟨rfl, fun _ => rfl, fun _ h => h, ?_⟩, rfl, rfl⟩
  exact ⟨_, rfl⟩

theorem gated_driveFault (s : State) : Gated s s.time s.driveFault := by
  unfold State.driveFault
  dsimp only
  split
  · exact (Placed.refl s).gated
  · exact (gated_setSafe s (x := { s.safe with fault := s.inDoubt || s.startup.stopped || s.startup.collapsed }) rfl).placing (placed_post _ _)

theorem gated_withdrawBastes (s : State) : Gated s s.time s.withdrawBastes := by
  unfold State.withdrawBastes
  dsimp only
  exact (gated_setTimeSeq s s.time _).followed (Gated.foldl _ (fun _ _ => (linked_originate _ _ _).gated) _ _)

theorem gated_beginCauseAt (s : State) (k : Nat) (si : SI) : Gated s s.time (s.beginCauseAt k si) := by
  unfold State.beginCauseAt
  dsimp only
  split
  · exact (Placed.refl s).gated
  · have h : ∀ (x : Safe) (r : Rec), x.softReset = s.safe.softReset → Gated s s.time (({ s with safe := x } : State).placeActive r) := fun x r hx =>
      (gated_setSafe s hx).placing (placed_placeActive _ _)
    split
    · refine ((((((h _ _ ?_).placing (placed_raise _ _)).followed (gated_quietPins _)).followed (steered_gateOutputs _).gated).followed
        (gated_driveFault _)).followed (linked_originate _ _ _).gated).followed (gated_withdrawBastes _)
      rfl
    · refine (h _ _ ?_).placing (placed_raise _ _)
      rfl

theorem gated_cutEngine (s : State) (n : Nat) (b : SI) : Gated s s.time (s.cutEngine n b) := by
  unfold State.cutEngine
  dsimp only
  split
  · exact (Placed.refl s).gated
  · exact (gated_setEngines s _ _).placing (placed_raiseIf _ _ _)

theorem gated_desync (s : State) (sel : Nat → Bool) (b : SI) : Gated s s.time (s.desync sel b) :=
  Gated.foldl _ (fun _ _ => gated_cutEngine _ _ _) _ s

/-- Station time after the synthesiser has lost lock, the cells being gated from boundary b. -/
def Time.gatedAfter (t : Time) (b : SI) : Time := { t with synLock := false, synLoss := satInc 8 t.synLoss, gatedFrom := some b }

/-- The cells lose the clock at the next frame boundary, with event 40. -/
theorem gated_gateCells {s : State} (h : s.time.gatedFrom = none) :
    Gated s (s.time.gatedAfter s.boundary) s.gateCells ∧ 40 ∈ s.gateCells.events.raised := by
  have he : ∃ x, Gated s (s.time.gatedAfter s.boundary) x ∧ s.loseSynth = x.raise 40 := by
    unfold State.loseSynth
    rw [h]
    exact ⟨_, (gated_setTimeSeq s (s.time.gatedAfter s.boundary) _).followed (gated_beginCauseAt _ _ _), rfl⟩
  obtain ⟨x, hx, he⟩ := he
  have hg : s.gateCells = (x.raise 40).desync (fun _ => true) s.boundary := by
    unfold State.gateCells
    rw [h, ← he]
    rfl
  rw [hg]
  have hd := gated_desync (x.raise 40) (fun _ => true) s.boundary
  exact ⟨(hx.placing (placed_raise _ _)).followed hd, hd.placed.raised 40 (raise_mem x 40)⟩

theorem gateCells_of_gated {s : State} (h : s.time.gatedFrom ≠ none) : s.gateCells = s := by
  unfold State.gateCells
  exact if_pos (Option.isSome_iff_ne_none.2 h)

end Sys2Proof.Machine

namespace Sys2Proof.Machine

open Sys2Proof.Safety

/-! ### The rows of the reference (R39 to R43, R55) -/

theorem steered_checked {s s' : State} {y : Time} (h : Steered s y s') : Steered s y s'.checkUnc := h.followed (steered_checkUnc s')

/-- s' comes from s by placing records and by a change of station time that leaves SI, the settings and the timestep generation. -/
structure OnTime (s s' : State) : Prop where
  placed : Placed { s with time := s'.time } s'
  si : s'.time.si = s.time.si
  ref : s'.time.ref = s.time.ref
  epoch : s'.time.epoch = s.time.epoch
  tgen : s'.time.tgen = s.time.tgen

theorem OnTime.trans {a b c : State} (h : OnTime a b) (k : OnTime b c) : OnTime a c :=
  ⟨(h.placed.setTime c.time).trans k.placed, k.si.trans h.si, k.ref.trans h.ref, k.epoch.trans h.epoch, k.tgen.trans h.tgen⟩

theorem Tracked.onTime {s s' : State} (h : Tracked s s') : OnTime s s' :=
  ⟨h.placed, (congrArg Time.si h.apart :), (congrArg Time.ref h.apart :), (congrArg Time.epoch h.apart :), (congrArg Time.tgen h.apart :)⟩

theorem OnTime.frame {s s' : State} (h : OnTime s s') :
    onlyPlaces { s with time := s'.time } s' ∧ s'.time.si = s.time.si ∧ s'.time.ref = s.time.ref ∧ s'.time.epoch = s.time.epoch ∧
      s'.time.tgen = s.time.tgen :=
  ⟨h.placed.only, h.si, h.ref, h.epoch, h.tgen⟩

theorem Steered.onTime {s s' : State} {y : Time} (h : Steered s y s') (hs : y.si = s.time.si) (hr : y.ref = s.time.ref) (he : y.epoch = s.time.epoch)
    (hg : y.tgen = s.time.tgen) : OnTime s s' :=
  ⟨h.placed, (congrArg Time.si h.time :).trans hs, (congrArg Time.ref h.time :).trans hr, (congrArg Time.epoch h.time :).trans he,
    (congrArg Time.tgen h.time :).trans hg⟩

/-- A pulse lost at a seam is noted there (R492). -/
theorem placed_seamLost (s : State) (n : Nat) : Placed { s with safe := (s.seamLost n).safe } (s.seamLost n) := by
  have h : Placed { s with safe := { s.safe with seams := tmod s.safe.seams n {} (fun m => { m with overrun := true, lost := satInc 16 m.lost }) } }
    (s.seamLost n) := placed_raise _ 8
  rw [h.safe]
  exact h

/-- Station time in which a slip at `cycles` has been counted. -/
def Time.slipsAt (t : Time) (fine cycles nom : Nat) : Time :=
  let v := t.pulseSt t.si fine
  { t with
    slipCnt := satInc 8 t.slipCnt, slips := cycles :: slipRun nom t.epoch.tol cycles t.slips
    pulses := if t.state = DpllState.coast then 0 else t.pulses, phasePs := sat32 (t.toPsReg (nearestEpoch v - v)) }

theorem steered_slips (s : State) (fine cycles nom : Nat) : Steered s (s.time.slipsAt fine cycles nom) (s.slips fine cycles nom) :=
  (steered_set s _).placing (placed_raise _ 39)

/-- Station time in which a miss has been counted. -/
def Time.missed (t : Time) : Time :=
  { t with missCnt := satInc 8 t.missCnt, misses := t.misses + 1, pulses := if t.state = DpllState.coast then 0 else t.pulses }

theorem placed_missed (s : State) : Placed { s with time := s.time.missed } s.missed := placed_raise _ 38

/-- The state in which REF_HZ shows n. -/
def State.showsHz (s : State) (n : Nat) : State := { s with time := { s.time with refHz := n } }

theorem onTime_showsHz (s : State) (n : Nat) : OnTime s (s.showsHz n) := ⟨Placed.refl _, rfl, rfl, rfl, rfl⟩

theorem exec_refclkAbsent (s : State) (t : SI) : exec (.refclkAbsent t) s = .next ((s.moment t).showsHz 0).loseStation.checkUnc := rfl

theorem exec_refFreqMeasurement_good {s : State} {hz : Nat} (h : freqGood s.time.ref.refFreq hz = true) (t : SI) :
    exec (.refFreqMeasurement t hz) s =
      .next ({ s.moment t with time := { (s.moment t).time with refHz := min hz 4294967295, refValid := true } } : State).checkUnc :=
  if_pos h

theorem exec_refFreqMeasurement_bad {s : State} {hz : Nat} (h : freqGood s.time.ref.refFreq hz = false) (t : SI) :
    exec (.refFreqMeasurement t hz) s = .next ((s.moment t).showsHz (min hz 4294967295)).loseStation.checkUnc :=
  if_neg (Bool.eq_false_iff.1 h)

/-- What the loss of REFCLK leaves of a unit: no valid reference, and a traced state lost with event 36. -/
structure Unclocked (q : Time) (s' : State) : Prop where
  refValid : s'.time.refValid = false
  lost : q.refValid = true → q.ref.timeSrc = false → q.state ≠ .free → q.state ≠ .coast →
    s'.time.state = (if q.state = .acquire then .free else .coast) ∧ 36 ∈ s'.events.raised ∧ s'.time.lossCnt = min (q.lossCnt + 1) 255
  kept : q.refValid = false ∨ q.ref.timeSrc = true → s'.time.state = q.state

theorem unclocked_loseClock (s : State) : Unclocked s.time s.loseClock := by
  have h := steered_loseClock s
  have ha := Time.withoutClock_apart s.time s.boundary
  refine ⟨?_, fun hv hs hf hc => ⟨?_, loseClock_event hv hs hf hc, ?_⟩, fun hu => ?_⟩
  · exact (congrArg Time.refValid h.time :).trans (congrArg Time.refValid ha :)
  · rw [Time.withoutClock_of_traced hv hs hf hc] at h
    exact (congrArg Time.state h.time :)
  · rw [Time.withoutClock_of_traced hv hs hf hc] at h
    exact (congrArg Time.lossCnt h.time :).trans (Time.lost_lossCnt _ _)
  · exact (congrArg Time.state h.time :).trans (Time.withoutClock_state_of_untied hu _)

/-- What follows may change neither the state nor the count of losses. -/
theorem Unclocked.followed {q : Time} {a b : State} (h : Unclocked q a)
    (ht : b.time.refValid = a.time.refValid ∧ b.time.state = a.time.state ∧ b.time.lossCnt = a.time.lossCnt)
    (he : ∀ n, n ∈ a.events.raised → n ∈ b.events.raised) : Unclocked q b := by
  obtain ⟨hv, hs, hc⟩ := ht
  refine ⟨hv.trans h.refValid, fun h1 h2 h3 h4 => ?_, fun hu => hs.trans (h.kept hu)⟩
  obtain ⟨k1, k2, k3⟩ := h.lost h1 h2 h3 h4
  exact ⟨hs.trans k1, he _ k2, hc.trans k3⟩

/-- The loss of REFCLK leaves all but the reference. -/
theorem loseClock_kept (s : State) : OnTime s s.loseClock ∧ s.loseClock.time.refHz = s.time.refHz ∧ s.loseClock.time.running = s.time.running ∧
    s.loseClock.time.gatedFrom = s.time.gatedFrom := by
  have h := steered_loseClock s
  have ha := Time.withoutClock_apart s.time s.boundary
  exact ⟨h.onTime (congrArg Time.si ha :) (congrArg Time.ref ha :) (congrArg Time.epoch ha :) (congrArg Time.tgen ha :),
    (congrArg Time.refHz h.time :).trans (congrArg Time.refHz ha :), (congrArg Time.running h.time :).trans (congrArg Time.running ha :),
    (congrArg Time.gatedFrom h.time :).trans (congrArg Time.gatedFrom ha :)⟩

/-- The synthesiser of the unit loses lock with REFCLK (R55). -/
def Time.coherent (t : Time) : Prop := t.ref.synMode = true ∧ t.running = true

theorem loseStation_incoherent {s : State} (h : ¬ s.time.coherent) : s.loseStation = s.loseClock := by
  obtain ⟨hk, -, hr, -⟩ := loseClock_kept s
  refine if_neg fun hc => h ?_
  rw [Bool.and_eq_true_iff, hk.ref, hr] at hc
  exact hc

theorem loseStation_coherent {s : State} (h : s.time.coherent) : s.loseStation = s.loseClock.gateCells := by
  obtain ⟨hk, -, hr, -⟩ := loseClock_kept s
  refine if_pos ?_
  rw [Bool.and_eq_true_iff, hk.ref, hr]
  exact h

/-- The cells are gated from the next frame boundary on, with event 40, or are already. -/
structure GatesCells (s s' : State) : Prop where
  frame : onlyPlaces (s.withGate s') s'
  gated : s'.time.gatedFrom ≠ none
  began : s.time.gatedFrom = none → s'.time.synLock = false ∧ s'.time.gatedFrom = some s.boundary ∧ 40 ∈ s'.events.raised

/-- What gating the cells leaves of station time. -/
theorem gateCells_time (s : State) : ∃ y, Gated s y s.gateCells ∧ y.state = s.time.state ∧ y.refValid = s.time.refValid ∧ y.lossCnt = s.time.lossCnt ∧
    y.refHz = s.time.refHz := by
  by_cases h : s.time.gatedFrom = none
  · exact ⟨_, (gated_gateCells h).1, rfl, rfl, rfl, rfl⟩
  · rw [gateCells_of_gated h]
    exact ⟨_, (Placed.refl s).gated, rfl, rfl, rfl, rfl⟩

theorem gateCells_gates (s : State) : GatesCells s s.gateCells := by
  by_cases h : s.time.gatedFrom = none
  · obtain ⟨hg, he⟩ := gated_gateCells h
    have hf : s.gateCells.time.gatedFrom = some s.boundary := (congrArg Time.gatedFrom hg.time :)
    refine ⟨hg.placed.only, ?_, fun _ => ⟨(congrArg Time.synLock hg.time :), hf, he⟩⟩
    rw [hf]
    exact Option.some_ne_none _
  · rw [gateCells_of_gated h]
    exact ⟨(Placed.refl s).gated.placed.only, h, fun hn => absurd hn h⟩

/-- What REF_HZ shows is no part of the loss. -/
theorem unclocked_showsHz {s s' : State} {n : Nat} (h : Unclocked (s.showsHz n).time s') : Unclocked s.time s' := ⟨h.refValid, h.lost, h.kept⟩

/-- What a unit whose synthesiser does not follow REFCLK does when REFCLK is lost. -/
theorem loseStation_of_incoherent {s : State} (h : ¬ s.time.coherent) (n : Nat) :
    OnTime s (s.showsHz n).loseStation.checkUnc ∧ (s.showsHz n).loseStation.checkUnc.time.refHz = n ∧
      Unclocked s.time (s.showsHz n).loseStation.checkUnc := by
  have hc := steered_checkUnc (s.showsHz n).loseClock
  obtain ⟨hk, hhz, -, -⟩ := loseClock_kept (s.showsHz n)
  rw [loseStation_incoherent (s := s.showsHz n) h]
  refine ⟨((onTime_showsHz s n).trans hk).trans (tracked_checkUnc _).onTime, (congrArg Time.refHz hc.time :).trans hhz, ?_⟩
  refine unclocked_showsHz ((unclocked_loseClock (s.showsHz n)).followed
    ⟨(congrArg Time.refValid hc.time :), (congrArg Time.state hc.time :), (congrArg Time.lossCnt hc.time :)⟩ hc.placed.raised)

/-- What a reference-coherent unit does. -/
theorem loseStation_of_coherent {s : State} (h : s.time.coherent) (n : Nat) :
    GatesCells s (s.showsHz n).loseStation.checkUnc ∧ (s.showsHz n).loseStation.checkUnc.time.refHz = n ∧
      Unclocked s.time (s.showsHz n).loseStation.checkUnc := by
  obtain ⟨hk, hhz, -, hgf⟩ := loseClock_kept (s.showsHz n)
  obtain ⟨y, hg, hst, hv, hlc, hyz⟩ := gateCells_time (s.showsHz n).loseClock
  have hc := steered_checkUnc (s.showsHz n).loseClock.gateCells
  have hG := gateCells_gates (s.showsHz n).loseClock
  have hb : (s.showsHz n).loseClock.boundary = s.boundary := congrArg ceil16 hk.si
  have hall := hg.followed hc.gated
  rw [loseStation_coherent (s := s.showsHz n) h]
  refine ⟨⟨?_, ?_, fun hn => ?_⟩, (congrArg Time.refHz hall.time :).trans (hyz.trans hhz), ?_⟩
  · exact ((steered_set s _).trans ⟨hk.placed, rfl⟩).gated.trans hall |>.placed.only
  · exact fun hn => hG.gated ((congrArg Time.gatedFrom hc.time :).symm.trans hn)
  · obtain ⟨h1, h2, h3⟩ := hG.began (hgf.trans hn)
    rw [hb] at h2
    exact ⟨(congrArg Time.synLock hc.time :).trans h1, (congrArg Time.gatedFrom hc.time :).trans h2, hc.placed.raised _ h3⟩
  · refine unclocked_showsHz ((unclocked_loseClock (s.showsHz n)).followed
      ⟨(congrArg Time.refValid hall.time :).trans hv, (congrArg Time.state hall.time :).trans hst, (congrArg Time.lossCnt hall.time :).trans hlc⟩
      hall.placed.raised)

/-- Station time after a miss at slot boundary b: the third in a row loses the reference. -/
def Time.afterMiss (t : Time) (b : SI) : Time := if t.misses + 1 = 3 then t.missed.withoutReference b else t.missed

theorem steered_afterMiss (s : State) :
    Steered s (s.time.afterMiss s.missed.boundary) (if s.time.misses + 1 = 3 then s.missed.loseReference s.missed.boundary else s.missed) := by
  have hm : Steered s s.time.missed s.missed := (steered_set s _).placing (placed_missed s)
  unfold Time.afterMiss
  split
  · have h := steered_loseReference s.missed s.missed.boundary
    rw [(placed_missed s).time] at h
    exact hm.trans h
  · exact hm

theorem Time.afterMiss_apart (t : Time) (b : SI) : (t.afterMiss b).apart = { t.apart with missCnt := satInc 8 t.missCnt } := by
  unfold Time.afterMiss
  split
  · exact t.missed.withoutReference_apart b
  · rfl

theorem Time.afterMiss_misses (t : Time) (b : SI) : (t.afterMiss b).misses = t.misses + 1 := by
  unfold Time.afterMiss
  split
  · exact (t.missed.withoutReference_pulse b).2.1
  · rfl

theorem Time.afterMiss_of_few {t : Time} (h : t.misses ≠ 2) (b : SI) : t.afterMiss b = t.missed := if_neg (by omega)

theorem Time.afterMiss_third {t : Time} (h : t.misses = 2) (hf : t.state ≠ .free) (hc : t.state ≠ .coast) (b : SI) :
    t.afterMiss b = t.missed.lost b :=
  (if_pos (by omega)).trans (Time.withoutReference_of_traced (t := t.missed) hf hc b)

/-- A miss raises event 38, whatever follows it. -/
theorem missed_raised (s : State) :
    38 ∈ (if s.time.misses + 1 = 3 then s.missed.loseReference s.missed.boundary else s.missed).events.raised := by
  split
  · exact (tracked_loseReference _ _).placed.raised _ (raise_mem _ 38)
  · exact raise_mem _ 38

/-- A REFCLK frequency out of range fails the test, and only that. -/
theorem freqGood_of_not_bad {ref hz : Nat} (h : ¬ (ref = 0 ∨ hz = 0 ∨ ref < ((hz : Int) - ref).natAbs * 10000)) : freqGood ref hz = true := by
  rwa [← freqGood_eq_false_iff, Bool.not_eq_false] at h

/-- Station time in which no slew is left at slot b. -/
def Time.endSlew (t : Time) (b : SI) : Time := ({ t.rebase b with slew := none, state := .locked } : Time).freshOffsets

/-- The end of slew w at the next slot boundary, with its record. -/
def State.slewEnded (s : State) (w : Slew) : State :=
  let x := s.retime (fun t => t.endSlew s.boundary)
  x.placeActive (recSlew s.boundary (x.timeFor s.boundary).tgen 2 w.ppm 0)

theorem steered_slewEnded (s : State) (w : Slew) : Steered s (s.time.endSlew s.boundary) (s.slewEnded w) :=
  (steered_retime s (fun t => t.endSlew s.boundary)).placing (placed_placeActive _ _)

section SlewEnd
variable {s : State} {t : SI}

theorem exec_slewEnd_none (h : s.time.slew = none) : exec (.slewEnd t) s = .next (s.moment t) := by
  show execSlewEnd t s = _
  unfold execSlewEnd
  dsimp only
  rw [show (s.moment t).time.slew = none from h]

theorem exec_slewEnd_slewing (h : s.time.slew ≠ none) (hr : (s.moment t).time.remaining (s.moment t).boundary ≠ 0) :
    exec (.slewEnd t) s = .next (s.moment t) := by
  obtain ⟨w, hw⟩ := Option.ne_none_iff_exists'.1 h
  show execSlewEnd t s = _
  unfold execSlewEnd
  dsimp only
  rw [show (s.moment t).time.slew = some w from hw]
  exact if_pos hr

/-- A slew that has nothing left ends in LOCKED, with event 35. -/
theorem exec_slewEnd_ended (h : s.time.slew ≠ none) (hr : (s.moment t).time.remaining (s.moment t).boundary = 0) : ∃ x,
    Steered (s.moment t) ((s.moment t).time.endSlew (s.moment t).boundary) x ∧ exec (.slewEnd t) s = .next (x.raise 35).checkUnc := by
  obtain ⟨w, hw⟩ := Option.ne_none_iff_exists'.1 h
  have he : exec (.slewEnd t) s = .next (((s.moment t).slewEnded w).raise 35).checkUnc := by
    show execSlewEnd t s = _
    unfold execSlewEnd
    dsimp only
    rw [show (s.moment t).time.slew = some w from hw]
    exact if_neg (not_not.2 hr)
  exact ⟨_, (steered_slewEnded _ w), he⟩

end SlewEnd

/-! What the rows of O30 say of a pulse that is accepted, of a slip and of a miss. -/

/-- The pulse at fine code `fine` is accepted: it is the last one, and no miss stands. -/
structure Accepts (x : State) (fine : Nat) (s' : State) : Prop where
  onTime : OnTime x s'
  lastPulse : s'.time.lastPulse = some (64 * x.time.si + fine)
  misses : s'.time.misses = 0
  slipCnt : s'.time.slipCnt = x.time.slipCnt

/-- Station time that is as `Time.marked` says but for the reference's state, pulses and corrections. -/
theorem Steered.accepts {x s' : State} {y : Time} {fine : Nat} (h : Steered x y s') (hy : y.apart = x.time.apart)
    (hm : y.lastPulse = some (64 * x.time.si + fine) ∧ y.misses = 0) : Accepts x fine s' :=
  ⟨(h.tracked hy).onTime, (congrArg Time.lastPulse h.time :).trans hm.1, (congrArg Time.misses h.time :).trans hm.2,
    (congrArg Time.slipCnt h.time :).trans (congrArg Time.slipCnt hy :)⟩

section Rows
variable {x : State} {fine cycles nom : Nat} {spaced : Bool}

theorem accepts_first (h : x.time.state = .free) (hv : x.time.refValid = true) (hn : x.time.epoch.nominal ≠ none) :
    Accepts x fine (x.acceptPulse fine spaced).checkUnc ∧ (x.acceptPulse fine spaced).checkUnc.time.state = .acquire ∧
      (x.acceptPulse fine spaced).checkUnc.time.pulses = 1 := by
  obtain ⟨l, o, k⟩ := acceptPulse_first (fine := fine) (spaced := spaced) h hv hn
  have k := steered_checked k
  exact ⟨k.accepts rfl ⟨rfl, rfl⟩, (congrArg Time.state k.time :), (congrArg Time.pulses k.time :)⟩

theorem accepts_unreferenced (h : x.time.state = .free) (hv : x.time.refValid = false) :
    Accepts x fine (x.acceptPulse fine spaced).checkUnc ∧ (x.acceptPulse fine spaced).checkUnc.time.state = .free := by
  obtain ⟨l, o, k⟩ := acceptPulse_unreferenced (fine := fine) (spaced := spaced) h hv
  have k := steered_checked k
  exact ⟨k.accepts rfl ⟨rfl, rfl⟩, (congrArg Time.state k.time :).trans h⟩

theorem accepts_acquire (h : x.time.state = .acquire) : Accepts x fine (x.acceptPulse fine spaced).checkUnc ∧
    (x.acceptPulse fine spaced).checkUnc.time.state = .acquire ∧
    (x.acceptPulse fine spaced).checkUnc.time.pulses = (if spaced then x.time.pulses + 1 else 1) ∧
    (5 ≤ (x.acceptPulse fine spaced).checkUnc.time.pulses →
      ∃ d l, (x.acceptPulse fine spaced).checkUnc.time.pending = some { cause := 1, delta := d, lock := some (x.time.si, l) }) := by
  obtain ⟨l, o, u, d, r, k⟩ := acceptPulse_acquire (fine := fine) (spaced := spaced) h
  have k := steered_checked k
  have hp : (x.acceptPulse fine spaced).checkUnc.time.pulses = (if spaced then x.time.pulses + 1 else 1) := (congrArg Time.pulses k.time :)
  refine ⟨k.accepts rfl ⟨rfl, rfl⟩, (congrArg Time.state k.time :).trans h, hp, fun h5 => ⟨d, r, ?_⟩⟩
  exact (congrArg Time.pending k.time :).trans (if_pos (le_of_le_of_eq h5 hp))

theorem accepts_locked (h : x.time.state = .locked) : Accepts x fine (x.acceptPulse fine spaced).checkUnc ∧
    (x.acceptPulse fine spaced).checkUnc.time.state = .locked ∧ (x.acceptPulse fine spaced).checkUnc.time.pending = x.time.pending ∧
    (x.acceptPulse fine spaced).checkUnc.time.map = x.time.map ∧ (x.acceptPulse fine spaced).checkUnc.time.loopDue ≠ none := by
  obtain ⟨l, h', st, w, u, k⟩ := acceptPulse_locked (fine := fine) (spaced := spaced) h
  have k := steered_checked k
  have hw : (x.acceptPulse fine spaced).checkUnc.time.loopDue = some w := (congrArg Time.loopDue k.time :)
  refine ⟨k.accepts rfl ⟨rfl, rfl⟩, (congrArg Time.state k.time :).trans h, (congrArg Time.pending k.time :), (congrArg Time.map k.time :), ?_⟩
  rw [hw]
  exact Option.some_ne_none w

theorem slipped_row : OnTime x (x.slipped fine cycles nom).checkUnc ∧ (x.slipped fine cycles nom).checkUnc.time.slipCnt = min (x.time.slipCnt + 1) 255 ∧
    39 ∈ (x.slipped fine cycles nom).checkUnc.events.raised ∧
    (x.time.slips = [] → (x.slipped fine cycles nom).checkUnc.time.state = x.time.state ∧
      (x.slipped fine cycles nom).checkUnc.time.lastPulse = x.time.lastPulse) := by
  have h := steered_slips x fine cycles nom
  have hk := tracked_slipped x fine cycles nom
  have hu := tracked_checkUnc (x.slipped fine cycles nom)
  refine ⟨((h.onTime rfl rfl rfl rfl).trans hk.onTime).trans hu.onTime, ?_, ?_, fun he => ?_⟩
  · exact (congrArg Time.slipCnt (hu.apart.trans hk.apart) :).trans (congrArg Time.slipCnt h.time :)
  · exact hu.placed.raised _ (hk.placed.raised _ (raise_mem _ 39))
  · rw [slipped_first he]
    have h := steered_checked h
    exact ⟨(congrArg Time.state h.time :), (congrArg Time.lastPulse h.time :)⟩

/-- The state after a miss. -/
def State.misses (x : State) : State := (if x.time.misses + 1 = 3 then x.missed.loseReference x.missed.boundary else x.missed).checkUnc

theorem steered_misses (x : State) : Steered x (x.time.afterMiss x.missed.boundary) x.misses := steered_checked (steered_afterMiss x)

theorem misses_counts (x : State) : OnTime x x.misses ∧ x.misses.time.missCnt = min (x.time.missCnt + 1) 255 ∧
    x.misses.time.misses = x.time.misses + 1 ∧ 38 ∈ x.misses.events.raised := by
  have h := steered_misses x
  have ha := x.time.afterMiss_apart x.missed.boundary
  refine ⟨h.onTime (congrArg Time.si ha :) (congrArg Time.ref ha :) (congrArg Time.epoch ha :) (congrArg Time.tgen ha :), ?_, ?_, ?_⟩
  · exact (congrArg Time.missCnt h.time :).trans (congrArg Time.missCnt ha :)
  · exact (congrArg Time.misses h.time :).trans (x.time.afterMiss_misses _)
  · exact (steered_checkUnc _).placed.raised _ (missed_raised x)

theorem misses_state (h : x.time.misses ≠ 2) : x.misses.time.state = x.time.state := by
  have k := steered_misses x
  rw [Time.afterMiss_of_few h] at k
  exact (congrArg Time.state k.time :)

theorem misses_third (h : x.time.misses = 2) (hf : x.time.state ≠ .free) (hc : x.time.state ≠ .coast) :
    36 ∈ x.misses.events.raised ∧ x.misses.time.state = (if x.time.state = .acquire then .free else .coast) := by
  have k := steered_misses x
  have hm : x.missed.time.state = x.time.state := (congrArg Time.state (placed_missed x).time :)
  rw [Time.afterMiss_third h hf hc] at k
  refine ⟨?_, (congrArg Time.state k.time :)⟩
  have h3 : x.time.misses + 1 = 3 := congrArg (· + 1) h
  unfold State.misses
  rw [if_pos h3]
  exact (steered_checkUnc _).placed.raised _ (loseReference_event (hm.trans_ne hf) (hm.trans_ne hc) _)

end Rows

end Sys2Proof.Machine

namespace Sys2Proof.Proofs

open Sys2Proof.Machine Sys2Proof.Safety

/-- Settles O30. Each row is station time set to a value named by a definition (`Time.marked`, `Time.slipsAt`, `Time.afterMiss`, `Time.withoutClock`,
`Time.gatedAfter`, `Time.endSlew`), its outputs and its alarm following by themselves (`Steered`), and records placed. -/
theorem referencePulses : Obligations.ReferencePulses := by
  unfold Obligations.ReferencePulses
  intro s t fine edge lost cycles hz nom x q run onTime active off marked bad gone coherent gates
  have hon : ∀ {s' : State}, OnTime x s' → onTime s' := OnTime.frame
  have hmark : ∀ {s' : State}, Accepts x fine.val s' → onTime s' ∧ marked s' := fun h => ⟨hon h.onTime, h.lastPulse, h.misses, h.slipCnt⟩
  have hgone : ∀ {s' : State}, Unclocked x.time s' → gone s' := fun h => ⟨h.refValid, h.lost, h.kept⟩
  have hgates : ∀ {s' : State}, GatesCells x s' → gates s' := fun h => ⟨h.frame, h.gated, h.began⟩
  refine ⟨fun hl hq => ?lost, exec_epochInPulse_inactive, fun ha hf hv hn => ?first, fun ha hf hv => ?unreferenced,
    fun ha hst hn hl ho => ?acquire, fun ha hst hn hl ho => ?locked, fun ha hf hn hl ho => ?slip, exec_epochInMiss_none,
    fun hs hf hl hn => ?miss, fun hc => ?absent, fun hc => ?absentCoherent, fun hb hc => ?badFreq, fun hb hc => ?badFreqCoherent, fun hb => ?goodFreq,
    exec_slewEnd_none, exec_slewEnd_slewing, fun h0 hr => ?slewEnds⟩
  case lost =>
    exact ⟨_, exec_epochInPulse_lost hl hq, (placed_seamLost x 1).only, raise_mem _ 8, (placed_raise _ 8).safe⟩
  case first =>
    obtain ⟨h, hst, hp⟩ := accepts_first (x := x) (fine := fine.val) (spaced := false) hf hv hn
    exact ⟨_, exec_epochInPulse_unplaced ha (.inl hf), (hmark h).1, (hmark h).2, hst, hp⟩
  case unreferenced =>
    obtain ⟨h, hst⟩ := accepts_unreferenced (x := x) (fine := fine.val) (spaced := false) hf hv
    exact ⟨_, exec_epochInPulse_unplaced ha (.inl hf), (hmark h).1, (hmark h).2, hst⟩
  case acquire =>
    have hf : q.state ≠ .free := by rw [hst]; decide
    obtain ⟨h, hst, hp, h5⟩ := accepts_acquire (x := x) (fine := fine.val) (spaced := decide (((cycles : Int) - nom).natAbs ≤ 1)) hst
    refine ⟨_, (exec_epochInPulse_placed ha hf hl hn).trans (if_pos ho), (hmark h).1, (hmark h).2, hst, hp.trans ?_, h5⟩
    simp only [decide_eq_true_eq]
    rfl
  case locked =>
    have hf : q.state ≠ .free := by rw [hst]; decide
    obtain ⟨h, hr⟩ := accepts_locked (x := x) (fine := fine.val) (spaced := decide (((cycles : Int) - nom).natAbs ≤ 1)) hst
    exact ⟨_, (exec_epochInPulse_placed ha hf hl hn).trans (if_pos ho), (hmark h).1, (hmark h).2, hr⟩
  case slip =>
    obtain ⟨h, hr⟩ := slipped_row (x := x) (fine := fine.val) (cycles := cycles) (nom := nom)
    exact ⟨_, (exec_epochInPulse_placed ha hf hl hn).trans (if_neg (not_le.2 ho)), hon h, hr⟩
  case miss =>
    obtain ⟨h, hm, hn', he⟩ := misses_counts x
    exact ⟨_, exec_epochInMiss_due hs hf hl hn, hon h, hm, hn', he, misses_state (x := x), fun h2 hc => misses_third (x := x) h2 hf hc⟩
  case absent =>
    obtain ⟨ho, hz, hr⟩ := loseStation_of_incoherent (s := x) hc 0
    exact ⟨_, exec_refclkAbsent s t, hon ho, hz, hgone hr⟩
  case absentCoherent =>
    obtain ⟨hg, hz, hr⟩ := loseStation_of_coherent (s := x) hc 0
    exact ⟨_, exec_refclkAbsent s t, hgates hg, hz, hgone hr⟩
  case badFreq =>
    obtain ⟨ho, hz, hr⟩ := loseStation_of_incoherent (s := x) hc (min hz 4294967295)
    exact ⟨_, exec_refFreqMeasurement_bad (freqGood_eq_false_iff.2 hb) t, hon ho, hz, hgone hr⟩
  case badFreqCoherent =>
    obtain ⟨hg, hz, hr⟩ := loseStation_of_coherent (s := x) hc (min hz 4294967295)
    exact ⟨_, exec_refFreqMeasurement_bad (freqGood_eq_false_iff.2 hb) t, hgates hg, hz, hgone hr⟩
  case goodFreq =>
    have h := steered_checked (steered_set x { x.time with refHz := min hz 4294967295, refValid := true })
    exact ⟨_, exec_refFreqMeasurement_good (freqGood_of_not_bad hb) t, hon (h.onTime rfl rfl rfl rfl), (congrArg Time.refHz h.time :),
      (congrArg Time.refValid h.time :), (congrArg Time.state h.time :)⟩
  case slewEnds =>
    obtain ⟨y, hy, he⟩ := exec_slewEnd_ended h0 hr
    have h := steered_checked (hy.placing (placed_raise y 35))
    exact ⟨_, he, hon (h.onTime rfl rfl rfl rfl), (congrArg Time.slew h.time :), (congrArg Time.state h.time :),
      (steered_checkUnc _).placed.raised _ (raise_mem y 35)⟩

end Sys2Proof.Proofs

/-! ### Settings of the reference (R52 to R54, R58, R74 to R77) -/

namespace Sys2Proof.Machine

open Sys2Proof.Safety

/-! #### Answering a command leaves the jobs -/

/-- The jobs, and the ID of the next one. -/
def State.jobTable (s : State) : List Job × Nat := (s.cmd.jobs, s.cmd.nextJob)

theorem Placed.jobTable {s s' : State} (h : Placed s s') : s'.jobTable = s.jobTable := congrArg (fun c : Cmd => (c.jobs, c.nextJob)) h.cmd

theorem change_jobTable (s : State) (o : Origin) (opcode status : Nat) (params : List Byte) (si : SI) :
    (s.change o opcode status params si).jobTable = s.jobTable :=
  (placed_raiseIf _ _ _).jobTable.trans (placed_place _ _ _).jobTable

theorem writeEntry_jobTable (s : State) (e : CplEntry) : (s.writeEntry e).jobTable = s.jobTable :=
  (placed_raise _ _).jobTable.trans (placed_postBytes _ _ _).jobTable

theorem postEntry_jobTable (s : State) (e : CplEntry) : (s.postEntry e).jobTable = s.jobTable := by
  have h := (placed_raiseIf s (decide (e.status = stInternal)) 7).jobTable
  unfold State.postEntry
  dsimp only
  split
  · exact h
  · split
    · split
      · exact (writeEntry_jobTable _ _).trans h
      · exact h
    · split
      · exact h
      · exact (writeEntry_jobTable _ _).trans h

theorem complete_jobTable (s : State) (c : Ctx) (status jobId : Nat) (result : List Nat) : (s.complete c status jobId result).jobTable = s.jobTable := by
  unfold State.complete
  split
  · rfl
  next ring tag _ =>
    have h : (if fenceEntry c status jobId then s.modRing ring (fun r => { r with unreplied := r.unreplied - 1 }) else s).jobTable = s.jobTable := by
      split <;> rfl
    dsimp only
    split
    · exact h
    · exact (postEntry_jobTable _ _).trans h

theorem completeLogged_jobTable (s : State) (c : Ctx) (status jobId : Nat) (result : List Nat) :
    (s.completeLogged c status jobId result).jobTable = s.jobTable := by
  unfold State.completeLogged
  split
  · rfl
  · exact complete_jobTable _ _ _ _ _

theorem finish_jobTable (s : State) (c : Ctx) (result : List Nat) : (s.finish c result).jobTable = s.jobTable :=
  (completeLogged_jobTable _ _ _ _ _).trans (change_jobTable _ _ _ _ _ _)

theorem issue_jobTable (s : State) (q : Request) : (s.issue q).jobTable = s.jobTable := by
  unfold State.issue
  dsimp only
  split
  · rfl
  · split <;> rfl

theorem fetchRing_jobTable (s : State) (n : Nat) : (s.fetchRing n).jobTable = s.jobTable := by
  unfold State.fetchRing
  split
  · exact issue_jobTable _ _
  · rfl

/-- With no packet waiting, the rings start no job. -/
theorem pump_jobTable (s : State) (h : ∀ n, (s.ring n).fetched = []) : s.pump.jobTable = s.jobTable := by
  unfold State.pump
  dsimp only
  rw [examine_none s h]
  generalize List.range 16 = l
  induction l generalizing s with
  | nil => rfl
  | cons n rest ih => exact (ih (s.fetchRing n) (fun k => ((answered_fetchRing s n).fetched k).trans (h k))).trans (fetchRing_jobTable s n)

/-- With nothing waiting, going on is the rings' going on. -/
theorem goOn_eq_pump {s : State} (hs : s.startup.step ≠ 6) (hr : s.safe.softReset = none) : s.goOn = s.pump := by
  have e1 : s.startupGoesOn = s := by simp [State.startupGoesOn, hs]
  have e2 : s.maybeSoft = s := by simp [State.maybeSoft, hr]
  unfold State.goOn
  rw [e1, e2]

/-- A job that the device or a packet starts. -/
theorem startJob_jobTable (s : State) (c : Ctx) (st : JobState) (extra : Nat) : (s.startJob c st extra).jobTable =
    (s.cmd.jobs ++ [({ id := s.cmd.nextJob, state := st, ctx := c, seen := s.time.si, since := s.time.si } : Job)], nextJobId s.cmd.nextJob) := by
  unfold State.startJob
  exact (complete_jobTable _ _ _ _ _).trans (change_jobTable _ _ _ _ _ _)

/-! #### What answering leaves after a change of station time, and after the gated clock -/

/-- What answers a command does so under any station time. -/
theorem Answered.setTime {s s' : State} (h : Answered s s') (x : Time) : Answered { s with time := x } { s' with time := x } :=
  ⟨congrArg (fun z : State => { z with time := x }) h.settled, h.region, h.raised, h.posted, h.fetched⟩

theorem Answered.withGate {s s' : State} (h : Answered s s') (w : State) : Answered (s.withGate w) (s'.withGate w) :=
  ⟨congrArg (fun z : State => z.withGate w) h.settled, h.region, h.raised, h.posted, h.fetched⟩

theorem Answered.gate_eq {a b : State} (h : Answered a b) (x : State) : x.withGate b = x.withGate a :=
  (congrArg (fun z : State => x.withGate z) h.settled :)

/-- An accepted packet whose effect is a change of station time and then answering. -/
theorem packetIn_retimed {s : State} {t : SI} {o : OpSpec} {p : Packet} (h : accepted s t o p) {x e : State} (hx : Placed { taken s t p with time := x.time } x)
    (he : Answered x e) (ho : o.effect (packetCtx o.opcode p) (taken s t p) = e) :
    Answered { s.moment t with time := (s.packetIn t o p).time } (s.packetIn t o p) ∧ (s.packetIn t o p).time = x.time ∧
      (s.packetIn t o p).jobTable = e.jobTable := by
  have hq := h.quiet
  have hb : Answered { s.moment t with time := x.time } e := ((taken_answered s t p).setTime x.time).trans (hx.answered.trans he)
  have hf : ∀ n, (e.ring n).fetched = [] := fun n => (hb.fetched n).trans (quiet_fetched s hq n)
  have hs : e.startup.step ≠ 6 := by rw [hb.startup]; exact ne_of_eq_of_ne hq.step (by decide)
  have hr : e.safe.softReset = none := by rw [hb.safe]; exact hq.soft
  have hg := answered_goOn e hs hr hf
  rw [packetIn_accepted s t o p h, ho]
  have ht : e.goOn.time = x.time := hg.time.trans hb.time
  refine ⟨?_, ht, ?_⟩
  · rw [ht]
    exact hb.trans hg
  · rw [goOn_eq_pump hs hr]
    exact pump_jobTable e hf

/-- An accepted packet whose effect is what the gated clock and doubt do, and then answering. -/
theorem packetIn_regated {s : State} {t : SI} {o : OpSpec} {p : Packet} (h : accepted s t o p) {x e : State} {y : Time} (hx : Gated (taken s t p) y x)
    (he : Answered x e) (ho : o.effect (packetCtx o.opcode p) (taken s t p) = e) :
    Answered ((s.moment t).withGate (s.packetIn t o p)) (s.packetIn t o p) ∧ (s.packetIn t o p).time = x.time ∧
      (s.packetIn t o p).jobTable = e.jobTable := by
  have hq := h.quiet
  have hb : Answered ((s.moment t).withGate x) e := ((taken_answered s t p).withGate x).trans (hx.placed.answered.trans he)
  have hf : ∀ n, (e.ring n).fetched = [] := fun n => (hb.fetched n).trans (quiet_fetched s hq n)
  have hs : e.startup.step ≠ 6 := by rw [hb.startup]; exact ne_of_eq_of_ne hq.step (by decide)
  have hr : e.safe.softReset = none := by rw [hb.safe]; exact hx.soft.trans hq.soft
  have hg := answered_goOn e hs hr hf
  have hw : (s.moment t).withGate e.goOn = (s.moment t).withGate x := (hg.gate_eq _).trans (hb.gate_eq _)
  rw [packetIn_accepted s t o p h, ho]
  refine ⟨?_, hg.time.trans hb.time, ?_⟩
  · rw [hw]
    exact hb.trans hg
  · rw [goOn_eq_pump hs hr]
    exact pump_jobTable e hf

end Sys2Proof.Machine

/-! #### What the settings' commands do to station time -/

namespace Sys2Proof.Machine

open Sys2Proof.Safety

/-- Of station time, what the settings' commands say: the state, the pulse last accepted, the settings, and the gated clock. -/
def Time.seen (t : Time) : Time :=
  { state := t.state, lastPulse := t.lastPulse, refValid := t.refValid, ref := t.ref, epoch := t.epoch, policy := t.policy, gatedFrom := t.gatedFrom }

/-- s' comes from s by placing records and changes of station time, of which v is then seen. -/
structure Seen (s : State) (v : Time) (s' : State) : Prop where
  placed : Placed { s with time := s'.time } s'
  time : s'.time.seen = v

theorem Steered.seen {s s' : State} {y : Time} (h : Steered s y s') : Seen s y.seen s' := ⟨h.placed, (congrArg Time.seen h.time :)⟩

theorem Seen.refl (s : State) : Seen s s.time.seen s := ⟨Placed.refl s, rfl⟩

/-- Station time set by hand. -/
theorem Seen.set {a b : State} {v w y : Time} (h : Seen a v b) (hy : y.seen = w) : Seen a w { b with time := y } := ⟨h.placed.setTime y, hy⟩

theorem Seen.gated {s s' : State} {v : Time} (h : Seen s v s') : Gated s s'.time s' := ⟨h.placed.withGate s', rfl, congrArg Safe.softReset h.placed.safe⟩

/-- What leaves alone what is seen may follow. -/
theorem Seen.followed {a b c : State} {v : Time} (h : Seen a v b) (k : Seen b b.time.seen c) : Seen a v c :=
  ⟨(h.placed.setTime c.time).trans k.placed, k.time.trans h.time⟩

theorem Seen.placing {a b c : State} {v : Time} (h : Seen a v b) (k : Placed b c) : Seen a v c := h.followed k.steered.seen

/-- What of the reference a loss by new settings leaves: FREE and ACQUIRE at FREE, a traced state coasting, and no pulse expected (R52). -/
def Time.reset (v : Time) : Time := { v with state := v.state.fallen, lastPulse := none, refValid := false }

theorem Time.withoutReference_seen (t : Time) (b : SI) : (t.withoutReference b).seen = { t.seen with state := t.state.fallen } := by
  have hs := t.withoutReference_state b
  have ha := t.withoutReference_apart b
  have hp := (t.withoutReference_pulse b).1
  have hv : (t.withoutReference b).refValid = t.refValid := (congrArg Time.refValid ha :)
  have hr : (t.withoutReference b).ref = t.ref := (congrArg Time.ref ha :)
  have he : (t.withoutReference b).epoch = t.epoch := (congrArg Time.epoch ha :)
  have hq : (t.withoutReference b).policy = t.policy := (congrArg Time.policy ha :)
  have hg : (t.withoutReference b).gatedFrom = t.gatedFrom := (congrArg Time.gatedFrom ha :)
  unfold Time.seen
  rw [hs, hp, hv, hr, he, hq, hg]

theorem seen_resetReference (s : State) (b : SI) : Seen s s.time.seen.reset (s.resetReference b) := by
  have h := (steered_loseReference s b).seen
  rw [Time.withoutReference_seen] at h
  refine h.set ?_
  have h1 := h.time
  exact congrArg (fun v : Time => { v with lastPulse := none, refValid := false }) h1

theorem seen_nominal (s : State) (b : SI) : Seen s s.time.seen (s.nominal b) := by
  unfold State.nominal
  split
  · exact (Seen.refl s).set rfl
  · exact Seen.refl s

/-! ##### SET_REF -/

/-- New settings of the reference are a loss of it (R52). -/
def setRefLoses (old r : RefCfg) : Bool := decide (r.refFreq ≠ old.refFreq) || r.timeSrc != old.timeSrc

/-- What is seen of a new sample rate at boundary b. -/
def Time.rerates (v : Time) (b : SI) (old new : Nat) : Time := if new = old then v else { v with lastPulse := v.lastPulse.map (rescaled b old new) }

/-- What is seen after SET_REF at boundary b. -/
def Time.setsRef (v : Time) (b : SI) (r : RefCfg) : Time :=
  { (if setRefLoses v.ref r then v.reset else v).rerates b v.ref.rateKhz r.rateKhz with ref := r }

theorem seen_loses (s : State) (r : RefCfg) (b : SI) :
    Seen s (if setRefLoses s.time.ref r then s.time.seen.reset else s.time.seen) (if setRefLoses s.time.ref r then s.resetReference b else s) := by
  split
  · exact seen_resetReference s _
  · exact Seen.refl s

theorem Seen.rerates {s x : State} {v : Time} (h : Seen s v x) (b : SI) (old new : Nat) :
    Seen s (v.rerates b old new) (if new = old then x else { x with time := x.time.newSlots b old new }) := by
  unfold Time.rerates
  split
  · exact h
  · exact h.set (congrArg (fun v : Time => { v with lastPulse := v.lastPulse.map (rescaled b old new) }) h.time)

theorem Seen.retime {s x : State} {v : Time} {f : Time → Time} (g : Time → Time) (h : Seen s v x) (hf : ∀ t, (f t).seen = g t.seen) :
    Seen s (g v) (x.retime f) := by
  have hr := (steered_retime x f).seen
  refine ⟨(h.placed.setTime _).trans hr.placed, ?_⟩
  rw [hr.time, hf, h.time]

theorem placed_postIf (s : State) (c : Bool) (r : Posted) : Placed s (if c then s.post r else s) := by
  split
  · exact placed_post s r
  · exact Placed.refl s

theorem seen_setRefTime (p : List Byte) (s : State) : Seen s (s.time.seen.setsRef s.boundary (refOf p s.time.ref)) (setRefTime p s) := by
  have h2 := (seen_loses s (refOf p s.time.ref) s.boundary).rerates s.boundary s.time.ref.rateKhz (refOf p s.time.ref).rateKhz
  unfold setRefTime
  dsimp only
  exact ((h2.retime (fun v => { v with ref := refOf p s.time.ref }) (fun _ => rfl)).placing (placed_postIf _ _ _)).followed (seen_nominal _ _)

/-- A new REF_FREQ or TIME_SRC, and no other setting of SET_REF, is a loss. -/
theorem setRefLoses_iff {old r : RefCfg} : setRefLoses old r = true ↔ r.refFreq ≠ old.refFreq ∨ r.timeSrc ≠ old.timeSrc := by
  unfold setRefLoses
  rw [Bool.or_eq_true_iff, decide_eq_true_iff, bne_iff_ne]

/-- SET_REF makes the synthesiser relock for a new rate or SYN_MODE. -/
theorem setRefRelocks_iff {t : Time} {p : List Byte} :
    setRefRelocks t p = true ↔ (refOf p t.ref).rateKhz ≠ t.ref.rateKhz ∨ (refOf p t.ref).synMode ≠ t.ref.synMode := by
  unfold setRefRelocks
  rw [Bool.or_eq_true_iff, decide_eq_true_iff, bne_iff_ne]

theorem setRef_of_kept {s : State} {p : List Byte} (h : setRefRelocks s.time p = false) : setRef p s = setRefTime p s := if_neg (ne_true_of_eq_false h)

theorem setRef_of_relock {s : State} {p : List Byte} (h : setRefRelocks s.time p = true) : setRef p s = ((setRefTime p s).gateCells).startCal 0 := if_pos h

/-- A field that is 1 or not is a Boolean. -/
theorem decide_eq_iff_eq {a : Prop} [Decidable a] {b : Bool} : decide a = b ↔ a = (b = true) := by
  rw [eq_iff_iff, Bool.eq_iff_iff, decide_eq_true_iff]

/-- What SET_REF leaves of station time, as O29 says it. -/
structure SetsRef (q : Time) (b : SI) (r : RefCfg) (t : Time) : Prop where
  ref : t.ref = r
  epoch : t.epoch = q.epoch
  policy : t.policy = q.policy
  lost : r.refFreq ≠ q.ref.refFreq ∨ r.timeSrc ≠ q.ref.timeSrc → t.state = q.state.fallen ∧ t.lastPulse = none ∧ t.refValid = false
  kept : r.refFreq = q.ref.refFreq → r.timeSrc = q.ref.timeSrc →
    t.state = q.state ∧ t.lastPulse = if r.rateKhz = q.ref.rateKhz then q.lastPulse else q.lastPulse.map (rescaled b q.ref.rateKhz r.rateKhz)

theorem Time.rerates_eq (v : Time) (b : SI) (old new : Nat) :
    v.rerates b old new = { v with lastPulse := if new = old then v.lastPulse else v.lastPulse.map (rescaled b old new) } := by
  unfold Time.rerates
  split <;> rfl

theorem setsRef_of_seen {q t : Time} {b : SI} {r : RefCfg} {g : Option SI} (h : t.seen = { q.seen.setsRef b r with gatedFrom := g }) : SetsRef q b r t := by
  have hset : ∀ w : Time, (if setRefLoses q.ref r then q.seen.reset else q.seen) = w → t.seen = { w with
      ref := r, gatedFrom := g, lastPulse := if r.rateKhz = q.ref.rateKhz then w.lastPulse else w.lastPulse.map (rescaled b q.ref.rateKhz r.rateKhz) } := by
    rintro w rfl
    rw [h, Time.setsRef, Time.rerates_eq]
    rfl
  have hep : t.epoch = q.epoch ∧ t.policy = q.policy := by
    split at hset
    · exact ⟨(congrArg Time.epoch (hset _ rfl) :), (congrArg Time.policy (hset _ rfl) :)⟩
    · exact ⟨(congrArg Time.epoch (hset _ rfl) :), (congrArg Time.policy (hset _ rfl) :)⟩
  refine ⟨(congrArg Time.ref (hset _ rfl) :), hep.1, hep.2, fun hl => ?_, fun hf hs => ?_⟩
  · have h := hset _ (if_pos (setRefLoses_iff.2 hl))
    exact ⟨(congrArg Time.state h :), (congrArg Time.lastPulse h :).trans (ite_self _), (congrArg Time.refValid h :)⟩
  · have h := hset _ (if_neg (by rw [setRefLoses_iff]; exact not_or.2 ⟨not_not.2 hf, not_not.2 hs⟩))
    exact ⟨(congrArg Time.state h :), (congrArg Time.lastPulse h :)⟩

/-- New settings leave the gated clock. -/
theorem Time.setsRef_gated (v : Time) (b : SI) (r : RefCfg) : v.setsRef b r = { v.setsRef b r with gatedFrom := v.gatedFrom } := by
  unfold Time.setsRef
  rw [Time.rerates_eq]
  split <;> rfl

theorem gatedFrom_of_setsRef {q t : Time} {b : SI} {r : RefCfg} (h : t.seen = q.seen.setsRef b r) : t.gatedFrom = q.gatedFrom := by
  rw [Time.setsRef_gated] at h
  exact (congrArg Time.gatedFrom h :)

/-- Gating the cells changes nothing else that is seen. -/
theorem gateCells_seen (s : State) : ∃ y g, Gated s y s.gateCells ∧ s.gateCells.time.seen = { s.time.seen with gatedFrom := g } := by
  by_cases h : s.time.gatedFrom = none
  · obtain ⟨hg, -⟩ := gated_gateCells h
    exact ⟨_, _, hg, (congrArg Time.seen hg.time :)⟩
  · rw [gateCells_of_gated h]
    exact ⟨_, s.time.gatedFrom, (Placed.refl s).gated, rfl⟩

/-- The calibration job that a relock starts runs at once where no other one is active. -/
theorem startCal_eq (s : State) (flags : Nat) : s.startCal flags =
    s.startJob { origin := firmware, opcode := 0x0211, params := calAllParams flags }
      (if s.cmd.jobs.any (fun j => j.ctx.opcode = 0x0211) then .queued else .running) 0 := by
  unfold State.startCal State.jobOf
  rw [List.isSome_find?]

theorem jobs_of_table {a b : State} (h : a.jobTable = b.jobTable) : a.cmd.jobs = b.cmd.jobs := congrArg Prod.fst h

/-- A table that holds one more job says that the job has started. -/
theorem jobStarted_of_table {s s' : State} {c : Ctx} {st : JobState} {x y : SI}
    (h : s'.jobTable = (s.cmd.jobs ++ [({ id := s.cmd.nextJob, state := st, ctx := c, seen := x, since := y } : Job)], nextJobId s.cmd.nextJob)) :
    jobStarted s s' c.opcode c.params st := by
  refine ⟨congrArg Prod.snd h, { id := s.cmd.nextJob, state := st, ctx := c, seen := x, since := y }, ?_, rfl, rfl, rfl, rfl⟩
  rw [show s'.cmd.jobs = _ from congrArg Prod.fst h]
  exact List.mem_append_right _ (List.mem_singleton.2 rfl)

/-! ##### SET_EPOCH -/

/-- The input of EPOCH_IN that SET_EPOCH sets. -/
def epochOf (p : List Byte) : EpochCfg := { nominal := some (pField p 0 4), falling := pField p 4 1 = 1, tol := pField p 5 1 }

/-- New cycles or a new edge are a loss of the reference. -/
def setEpochLoses (old e : EpochCfg) : Bool := e.nominal ≠ old.nominal || e.falling != old.falling

theorem setEpochLoses_iff {old e : EpochCfg} : setEpochLoses old e = true ↔ e.nominal ≠ old.nominal ∨ e.falling ≠ old.falling := by
  unfold setEpochLoses
  rw [Bool.or_eq_true_iff, decide_eq_true_iff, bne_iff_ne]

theorem seen_setEpochTime (p : List Byte) (s : State) :
    Seen s { (if setEpochLoses s.time.epoch (epochOf p) then s.time.seen.reset else s.time.seen) with epoch := epochOf p } (setEpochTime p s) := by
  have h1 : Seen s (if setEpochLoses s.time.epoch (epochOf p) then s.time.seen.reset else s.time.seen)
      (if setEpochLoses s.time.epoch (epochOf p) then s.resetReference s.boundary else s) := by
    split
    · exact seen_resetReference s _
    · exact Seen.refl s
  unfold setEpochTime
  dsimp only
  refine Seen.followed (h1.set ?_) (seen_nominal _ _)
  exact congrArg (fun v : Time => { v with epoch := epochOf p }) h1.time

/-- What SET_EPOCH leaves of station time, as O29 says it. -/
structure SetsEpoch (q : Time) (e : EpochCfg) (t : Time) : Prop where
  epoch : t.epoch = e
  ref : t.ref = q.ref
  policy : t.policy = q.policy
  lost : e.nominal ≠ q.epoch.nominal ∨ e.falling ≠ q.epoch.falling → t.state = q.state.fallen ∧ t.lastPulse = none ∧ t.refValid = false
  kept : e.nominal = q.epoch.nominal → e.falling = q.epoch.falling → t.state = q.state ∧ t.lastPulse = q.lastPulse

theorem setsEpoch_of_seen {q t : Time} {e : EpochCfg}
    (h : t.seen = { (if setEpochLoses q.epoch e then q.seen.reset else q.seen) with epoch := e }) : SetsEpoch q e t := by
  by_cases hl : setEpochLoses q.epoch e = true
  · rw [if_pos hl] at h
    have hn := setEpochLoses_iff.1 hl
    exact ⟨(congrArg Time.epoch h :), (congrArg Time.ref h :), (congrArg Time.policy h :),
      fun _ => ⟨(congrArg Time.state h :), (congrArg Time.lastPulse h :), (congrArg Time.refValid h :)⟩,
      fun h1 h2 => absurd hn (not_or.2 ⟨not_not.2 h1, not_not.2 h2⟩)⟩
  · rw [if_neg hl] at h
    exact ⟨(congrArg Time.epoch h :), (congrArg Time.ref h :), (congrArg Time.policy h :), fun hn => absurd (setEpochLoses_iff.2 hn) hl,
      fun _ _ => ⟨(congrArg Time.state h :), (congrArg Time.lastPulse h :)⟩⟩

/-! ##### SET_ST and SET_RETURN_POLICY -/

/-- Station time after SET_ST: a label, or the step to a given ST. -/
def Time.setsSt (t : Time) (p : List Byte) : Time :=
  if pField p 0 1 = 0 then { t with label := some (pField p 8 5), labelHeld := false }
  else { t with pending := some { cause := 3, target := some (pField p 16 12) } }

/-- SET_ST changes station time alone. -/
theorem setStTime_eq (p : List Byte) (s : State) : setStTime p s = { s with time := s.time.setsSt p } := by
  unfold Time.setsSt
  unfold setStTime
  split <;> rfl

/-- The policy that SET_RETURN_POLICY sets. -/
def policyOf (p : List Byte) : ReturnPolicy := { slewWindow := pField p 0 4, slewRate := pField p 4 1, holdover := pField p 8 4, uncAlarm := pField p 12 4 }

/-- A new policy leaves the state, a slew in progress and the mapping. -/
theorem steered_setReturnTime (p : List Byte) (s : State) :
    ∃ u x g, Steered s { s.time with uLoss := u, lossSi := x, growth := g, policy := policyOf p } (setReturnTime p s) := by
  unfold setReturnTime
  exact ⟨_, _, _, steered_checked (steered_set s _)⟩

/-- What SET_RETURN_POLICY leaves of station time, as O29 says it. -/
structure SetsPolicy (q : Time) (c : ReturnPolicy) (t : Time) : Prop where
  state : t.state = q.state
  slew : t.slew = q.slew
  map : t.map = q.map
  policy : t.policy = c

theorem setsPolicy_of_core {q t : Time} {c : ReturnPolicy} {u : Nat} {x : SI} {g : Nat}
    (h : t.core = ({ q with uLoss := u, lossSi := x, growth := g, policy := c } : Time).core) : SetsPolicy q c t :=
  ⟨(congrArg Time.state h :), (congrArg Time.slew h :), (congrArg Time.map h :), (congrArg Time.policy h :)⟩

end Sys2Proof.Machine

namespace Sys2Proof.Proofs

open Sys2Proof.Machine Sys2Proof.Safety

/-- Settles O29. Of each command's effect only what O29 speaks of is followed (`Time.seen`): a loss by new settings (`Time.reset`), the last pulse in slots of
the new length (`Time.rerates`), and the gated clock with its calibration job. -/
theorem timeSettings : Obligations.TimeSettings := by
  unfold Obligations.TimeSettings
  intro s t p f old rate relocks fallen lost set ep
  have hsrc : (refOf p.params old).timeSrc = old.timeSrc ↔ (f 9 1 = 1) = (old.timeSrc = true) := decide_eq_iff_eq
  have hrelocks : setRefRelocks (taken s t p).time p.params = true ↔ relocks := setRefRelocks_iff.trans (or_congr_right (not_congr decide_eq_iff_eq))
  have hset : ∀ {s' : State}, SetsRef s.time (s.moment t).boundary (refOf p.params old) s'.time → set s' := fun h =>
    ⟨h.ref, h.epoch, h.policy, fun hl => h.lost (hl.imp_right (not_congr hsrc).2), fun hf hs => h.kept hf (hsrc.2 hs)⟩
  refine ⟨fun h hr => ?ref, fun h hr => ?relock, fun h => ?epoch, fun h => ?st, fun h => ?policy⟩
  case ref =>
    have hx := seen_setRefTime p.params (taken s t p)
    have ho : opSetRef.effect (packetCtx opSetRef.opcode p) (taken s t p) =
        (setRefTime p.params (taken s t p)).finish (packetCtx opSetRef.opcode p) [] :=
      congrArg (fun x : State => x.finish (packetCtx opSetRef.opcode p) []) (setRef_of_kept (Bool.eq_false_iff.2 ((not_congr hrelocks).2 hr)))
    obtain ⟨ha, ht, hj⟩ := packetIn_retimed h hx.placed (answered_finish _ _ _) ho
    have hv := hx.time
    rw [← ht] at hv
    have hg : (s.packetIn t opSetRef p).time.gatedFrom = s.time.gatedFrom := gatedFrom_of_setsRef hv
    refine ⟨_, rfl, ha.only, hset (setsRef_of_seen (hv.trans (Time.setsRef_gated _ _ _))), ?_, hg⟩
    exact jobs_of_table (a := s.packetIn t opSetRef p) (hj.trans ((finish_jobTable _ _ _).trans hx.placed.jobTable))
  case relock =>
    have hx := seen_setRefTime p.params (taken s t p)
    have ho : opSetRef.effect (packetCtx opSetRef.opcode p) (taken s t p) =
        (((setRefTime p.params (taken s t p)).gateCells).startCal 0).finish (packetCtx opSetRef.opcode p) [] :=
      congrArg (fun x : State => x.finish (packetCtx opSetRef.opcode p) []) (setRef_of_relock (hrelocks.2 hr))
    obtain ⟨y, g, hg, hgs⟩ := gateCells_seen (setRefTime p.params (taken s t p))
    have he : Answered (setRefTime p.params (taken s t p)).gateCells
        ((((setRefTime p.params (taken s t p)).gateCells).startCal 0).finish (packetCtx opSetRef.opcode p) []) :=
      (answered_startJob _ _ _ _).trans (answered_finish _ _ _)
    obtain ⟨ha, ht, hj⟩ := packetIn_regated h (hx.gated.trans hg) he ho
    rw [hx.time, ← ht] at hgs
    have hgated := (gateCells_gates (setRefTime p.params (taken s t p))).gated
    rw [← ht] at hgated
    rw [finish_jobTable, startCal_eq, startJob_jobTable] at hj
    have hcmd : (setRefTime p.params (taken s t p)).gateCells.cmd = (taken s t p).cmd := (hx.gated.trans hg).placed.cmd
    rw [hcmd] at hj
    exact ⟨_, rfl, ha.only, hset (setsRef_of_seen hgs), hgated, jobStarted_of_table (s := s) hj⟩
  case epoch =>
    have hx := seen_setEpochTime p.params (taken s t p)
    obtain ⟨ha, ht, -⟩ := packetIn_retimed h hx.placed (answered_finish _ (packetCtx opSetEpoch.opcode p) []) rfl
    have hv := hx.time
    rw [← ht] at hv
    have hs := setsEpoch_of_seen hv
    exact ⟨_, rfl, ha.only, hs.epoch, hs.ref, hs.policy, hs.lost, hs.kept⟩
  case st =>
    have he := answered_finish (setStTime p.params (taken s t p)) (packetCtx opSetSt.opcode p) []
    rw [setStTime_eq] at he
    obtain ⟨ha, ht, -⟩ := packetIn_retimed h (Placed.refl _) he (congrArg (fun x : State => x.finish (packetCtx opSetSt.opcode p) []) (setStTime_eq _ _))
    rw [ht] at ha
    exact ⟨_, rfl, ha.only⟩
  case policy =>
    obtain ⟨u, x, g, hx⟩ := steered_setReturnTime p.params (taken s t p)
    obtain ⟨ha, ht, -⟩ := packetIn_retimed h hx.placed (answered_finish _ (packetCtx opSetReturn.opcode p) []) rfl
    have hv := hx.time
    rw [← ht] at hv
    have hs := setsPolicy_of_core hv
    exact ⟨_, rfl, ha.only, hs.state, hs.slew, hs.map, hs.policy⟩

end Sys2Proof.Proofs

/-! ### Anchor boundaries (R45, R47, R62, R91, R93) -/

namespace Sys2Proof.Machine

open Sys2Proof.Safety

/-- What the buffers, engines, cells and ports never change at an anchor boundary, everything else standing at one fixed value. -/
def State.steady (s : State) : State :=
  { time := s.time, startup := s.startup, safe := s.safe, dram := s.dram, sched := s.sched, sec := s.sec, hk := s.hk, pins := s.pins, cap := s.cap
    streams := s.streams, data := { anchors := s.data.anchors }, cmd := { rings := s.cmd.rings } }

/-- s' comes from s by what the buffers, engines, cells and ports do: recorded events stay recorded. -/
structure Steady (s s' : State) : Prop where
  steady : s'.steady = s.steady
  raised : ∀ n, n ∈ s.events.raised → n ∈ s'.events.raised

theorem Steady.refl (s : State) : Steady s s := ⟨rfl, fun _ h => h⟩

theorem Steady.trans {a b c : State} (h : Steady a b) (k : Steady b c) : Steady a c := ⟨k.steady.trans h.steady, fun n hn => k.raised n (h.raised n hn)⟩

/-- The same, the last step named first. -/
theorem Steady.after {a b c : State} (k : Steady b c) (h : Steady a b) : Steady a c := h.trans k

theorem Steady.foldl {β : Type} (f : State → β → State) (hf : ∀ s x, Steady s (f s x)) (l : List β) (s : State) : Steady s (l.foldl f s) := by
  induction l generalizing s with
  | nil => exact Steady.refl s
  | cons x rest ih => exact (hf s x).trans (ih _)

theorem Placed.steadyBy {s s' : State} (h : Placed s s') : Steady s s' := ⟨(congrArg State.steady h.still :), h.raised⟩

theorem Reduced.steadyBy {s s' : State} (h : Reduced s s') : Steady s s' := ⟨(congrArg State.steady h.still :), h.raised⟩

theorem Linked.steadyBy {s s' : State} (h : Linked s s') : Steady s s' := by
  have h : Placed { s with cas := s'.cas } s' := h
  exact ⟨(congrArg State.steady h.still :), h.raised⟩

/-! #### Burst SRAMs, interval units and decode engines -/

theorem steady_modBlock (s : State) (b : Nat) (f : Block → Block) : Steady s (s.modBlock b f) := ⟨rfl, fun _ h => h⟩

theorem steady_modIvl (s : State) (n : Nat) (f : Ivl → Ivl) : Steady s (s.modIvl n f) := ⟨rfl, fun _ h => h⟩

theorem steady_modEngine (s : State) (n : Nat) (f : Engine → Engine) : Steady s (s.modEngine n f) := ⟨rfl, fun _ h => h⟩

theorem steady_modCell (s : State) (c : Nat) (f : Cell → Cell) : Steady s (s.modCell c f) := ⟨rfl, fun _ h => h⟩

theorem steady_modJob (s : State) (n : Nat) (f : Job → Job) : Steady s (s.modJob n f) := ⟨rfl, fun _ h => h⟩

theorem steady_advanceBlock (s : State) (b : Nat) (now : SI) : Steady s (s.advanceBlock b now) := by
  obtain ⟨y, h⟩ := advanceBlock_placed s b now
  exact h.steadyBy.after (steady_modBlock s b _)

/-- What is held at another slot is held at the present one. -/
theorem Steady.atSlot {s y : State} {x : SI} (h : Steady { s with time := { s.time with si := x } } y) :
    Steady s { y with time := { y.time with si := s.time.si } } :=
  ⟨(congrArg (fun z : State => { z with time := { z.time with si := s.time.si } }) h.steady :), h.raised⟩

theorem steady_drainBlocks (s : State) (now fuel : Nat) : Steady s (s.drainBlocks now fuel) := by
  induction fuel generalizing s with
  | zero => exact Steady.refl s
  | succ k ih =>
    unfold State.drainBlocks
    split
    · exact Steady.refl s
    next b f _ => exact (ih _).after (steady_advanceBlock _ b _).atSlot

theorem steady_advanceBlocks (s : State) : Steady s s.advanceBlocks :=
  (placed_releaseAll _).steadyBy.after ((Steady.foldl _ (fun _ _ => steady_advanceBlock _ _ _) _ _).after (steady_drainBlocks s _ _))

theorem steady_ivlResult (s : State) (n : Nat) (x : IvlResult) : Steady s (s.ivlResult n x) := by
  unfold State.ivlResult
  extract_lets u r reported s1 q known s2 s3 d s4
  have h1 : Steady s s1 := steady_modIvl s n _
  have h3 : Steady s s3 := (placed_raise _ _).steadyBy.after ((steady_modIvl s1 n _).after h1)
  split
  · exact h1
  · split
    · split
      · exact h3
      · exact (placed_place _ _ _).steadyBy.after h3
    · exact (placed_place _ _ _).steadyBy.after ((steady_modIvl s1 n _).after h1)

theorem steady_ivlTo (s : State) (n : Nat) (h : FineTime) : Steady s (s.ivlTo n h) := by
  unfold State.ivlTo
  split
  · exact (Steady.foldl _ (fun _ _ => steady_ivlResult _ _ _) _ _).after (steady_modIvl s n _)
  · exact Steady.refl s

theorem steady_advanceIvl (s : State) (n : Nat) (h : FineTime) (fuel : Nat) : Steady s (s.advanceIvl n h fuel) := by
  induction fuel generalizing s with
  | zero => exact steady_ivlTo s n h
  | succ k ih =>
    unfold State.advanceIvl
    split
    · exact steady_ivlTo s n h
    · split
      · exact (ih _).after ((steady_modIvl _ n _).after (steady_ivlTo s n _))
      · exact steady_ivlTo s n h

theorem steady_messageDone (s : State) (n : Nat) (m : Msg) : Steady s (s.messageDone n m) := by
  unfold State.messageDone
  extract_lets r bad once s1 s2 f known s3
  have h2 : Steady s s2 := (placed_raiseIf _ _ _).steadyBy.after (steady_modEngine s n _)
  have h3 : Steady s s3 := (placed_raise _ _).steadyBy.after ((steady_modEngine s2 n _).after h2)
  split
  · exact h2
  · split
    · exact (steady_modEngine s2 n _).after h2
    · split
      · exact h3
      · exact (placed_place _ _ _).steadyBy.after h3

theorem steady_frameSkipped (s : State) (n f : Nat) : Steady s (s.frameSkipped n f) := by
  unfold State.frameSkipped
  extract_lets r once s1 s2
  have h1 : Steady s s1 := steady_modEngine s n _
  have h2 : Steady s1 s2 := by
    show Steady s1 (if _ then _ else _)
    split
    · exact (placed_place _ _ _).steadyBy
    · exact Steady.refl s1
  exact (placed_raiseIf _ _ _).steadyBy.after (h2.after h1)

theorem steady_seq0 (s : State) (q : Seq) : Steady s { s with seq0 := q } := ⟨rfl, fun _ h => h⟩

theorem steady_harvestOf (s : State) (n : Nat) (e : Engine) : Steady s (s.harvestOf n e) :=
  (placed_raiseIf _ _ _).steadyBy.after ((Steady.foldl _ (fun _ _ => steady_messageDone _ _ _) _ _).after
    ((Steady.foldl _ (fun _ _ => steady_frameSkipped _ _ _) _ _).after (steady_seq0 s _)))

theorem steady_advanceEngine (s : State) (n : Nat) (h : FineTime) : Steady s (s.advanceEngine n h) := by
  unfold State.advanceEngine
  split
  · exact (steady_harvestOf _ n _).after ((steady_modEngine _ n _).after (steady_modEngine s n _))
  · exact Steady.refl s

theorem steady_cutEngines (s : State) (l : List (Nat × SI × Engine)) : Steady s { s with cutEngines := l } := ⟨rfl, fun _ h => h⟩

theorem steady_advanceEngines (s : State) : Steady s s.advanceEngines :=
  (Steady.foldl _ (fun _ _ => steady_advanceEngine _ _ _) _ _).after
    ((Steady.foldl _ (fun _ _ => (steady_modEngine _ _ _).after (steady_harvestOf _ _ _)) _ _).after (steady_cutEngines s _))

theorem steady_drainMessages (s : State) (sel : Nat → Bool) : Steady s (s.drainMessages sel) :=
  Steady.foldl _ (fun _ _ => (Steady.foldl _ (fun _ _ => (placed_place _ _ _).steadyBy) _ _).after (steady_modEngine _ _ _)) _ s

theorem steady_advanceIvls (s : State) : Steady s s.advanceIvls := Steady.foldl _ (fun _ _ => steady_advanceIvl _ _ _ _) _ s

/-! #### Reductions, channel doubt and lanes -/

theorem reduced_completeReductions (s : State) : Reduced s s.completeReductions := by
  refine Reduced.foldl _ (fun s r => ?_) _ s
  extract_lets s1 s2 g last
  have h2 : Reduced s s2 := (reduced_finishEnded _ r _).after ((Reduced.foldl _ (fun _ _ => reduced_finishSample _ _ _) _ _).after (reduced_drainClocks s r _))
  split
  · exact h2
  · refine Reduced.after (Reduced.foldl _ (fun s _ => ?_) _ _) h2
    split
    · exact reduced_nextStats s r _
    · exact Reduced.refl s

theorem steady_placeCh (s : State) (c : Nat) (r : Rec) : Steady s (s.placeCh c r) := (placed_place _ _ _).steadyBy

theorem steady_setDoubt (s : State) (c : Nat) (d : ChDoubt) (x : SI) : Steady s (s.setDoubt c d x) := by
  unfold State.setDoubt
  extract_lets cell old new opens closes joins s1 s2
  have h2 : Steady s s2 := by
    show Steady s (if _ then _ else _)
    split <;> exact ⟨rfl, fun _ h => h⟩
  split
  · exact (steady_placeCh _ _ _).after h2
  · split
    · exact (steady_placeCh _ _ _).after h2
    · split
      · exact (steady_placeCh _ _ _).after h2
      · exact h2

theorem steady_checkStuck (s : State) (x : SI) (c dis : Nat) : Steady s (s.checkStuck x c dis) := by
  have h1 : ∀ f : Cell → Cell, Steady s (s.modCell c f) := steady_modCell s c
  unfold State.checkStuck
  dsimp only
  split
  · exact h1 _
  · split
    · exact (placed_raise _ _).steadyBy.after ((steady_setDoubt _ c _ _).after (h1 _))
    · split
      · exact (steady_setDoubt _ c _ _).after (h1 _)
      · exact h1 _

theorem steady_checkStuckAll (s : State) (x : SI) (dis : List (Fin 1024 × Nat)) : Steady s (s.checkStuckAll x dis) :=
  Steady.foldl _ (fun _ _ => steady_checkStuck _ _ _ _) _ s

theorem steady_laneBoundary (s : State) (b : SI) (c : Nat) (ps : List LanePass) : Steady s (s.laneBoundary b c ps) := by
  unfold State.laneBoundary
  dsimp only
  split
  · split
    · exact Steady.refl s
    · exact (placed_raiseIf _ _ _).steadyBy.after (steady_modCell s c _)
  · split
    · exact Steady.refl s
    · exact (placed_raiseIf _ _ _).steadyBy.after ((steady_modJob _ _ _).after (steady_modCell s c _))

theorem Steady.setJobs {s x : State} (h : Steady s x) (l : List Job) : Steady s { x with cmd := { x.cmd with jobs := l } } := ⟨h.steady, h.raised⟩

/-- The cells of `l`, one after the other. -/
theorem steady_lanesOf (s : State) (b : SI) (ps : List LanePass) (l : List Nat) : Steady s (l.foldl (fun s c => s.laneBoundary b c ps) s) :=
  Steady.foldl _ (fun s c => steady_laneBoundary s b c ps) l s

theorem steady_lanesBoundary (s : State) (b : SI) (ps : List LanePass) : Steady s (s.lanesBoundary b ps) := by
  have h := (steady_lanesOf s b ps (List.range 1024)).setJobs
  unfold State.lanesBoundary
  split
  · exact Steady.refl s
  · exact h _

theorem linked_requestTime (s : State) : Linked s s.requestTime := by
  unfold State.requestTime
  split
  · exact Linked.refl s
  · split
    · exact linked_enqueue _ _ _ _
    · exact Linked.refl s

end Sys2Proof.Machine

/-! ### The records and steps of an anchor boundary (R47, R48, R50, R51) -/

namespace Sys2Proof.Machine

open Sys2Proof.Safety

/-- s' comes from s by what is steady, and by changes of station time and of the ANCHORs kept. -/
def Anchored (s s' : State) : Prop := Steady { s with time := s'.time, data := s'.data } s'

theorem Steady.setTimeData {s s' : State} (h : Steady s s') (t : Time) (d : Data) :
    Steady { s with time := t, data := d } { s' with time := t, data := d } :=
  ⟨(congrArg (fun z : State => { z with time := t, data := { anchors := d.anchors } }) h.steady :), h.raised⟩

theorem Anchored.trans {a b c : State} (h : Anchored a b) (k : Anchored b c) : Anchored a c := (h.setTimeData c.time c.data).trans k

/-- The same, the last step named first. -/
theorem Anchored.after {a b c : State} (k : Anchored b c) (h : Anchored a b) : Anchored a c := h.trans k

theorem Steady.anchored {s s' : State} (h : Steady s s') : Anchored s s' := h.setTimeData s'.time s'.data

theorem anchored_set (s : State) (t : Time) (d : Data) : Anchored s { s with time := t, data := d } := Steady.refl _

theorem Steered.anchored {s s' : State} {y : Time} (h : Steered s y s') : Anchored s s' := h.placed.steadyBy.anchored.after (anchored_set s s'.time s.data)

theorem Steady.time {s s' : State} (h : Steady s s') : s'.time = s.time := (congrArg State.time h.steady :)

theorem Steady.anchors {s s' : State} (h : Steady s s') : s'.data.anchors = s.data.anchors := (congrArg (fun z : State => z.data.anchors) h.steady :)

/-- What of a state O31 says that an anchor boundary leaves. -/
theorem Anchored.kept {s s' : State} (h : Anchored s s') : s'.dram = s.dram ∧ s'.sched = s.sched ∧ s'.sec = s.sec ∧ s'.hk = s.hk ∧ s'.pins = s.pins ∧
    s'.cap = s.cap ∧ s'.streams = s.streams := by
  have h : Steady { s with time := s'.time, data := s'.data } s' := h
  exact ⟨(congrArg State.dram h.steady :), (congrArg State.sched h.steady :), (congrArg State.sec h.steady :), (congrArg State.hk h.steady :),
    (congrArg State.pins h.steady :), (congrArg State.cap h.steady :), (congrArg State.streams h.steady :)⟩

/-- A quiet state is one with nothing waiting after an anchor boundary too. -/
theorem Anchored.idle {s s' : State} (h : Anchored s s') (hq : quiet s) :
    s'.startup.step ≠ 6 ∧ s'.safe.softReset = none ∧ ∀ n, (s'.ring n).fetched = [] := by
  have h : Steady { s with time := s'.time, data := s'.data } s' := h
  have hs : s'.startup = s.startup := (congrArg State.startup h.steady :)
  have hf : s'.safe = s.safe := (congrArg State.safe h.steady :)
  have hr : s'.cmd.rings = s.cmd.rings := (congrArg (fun z : State => z.cmd.rings) h.steady :)
  refine ⟨?_, ?_, fun n => ?_⟩
  · rw [hs, hq.step]
    decide
  · rw [hf, hq.soft]
  · unfold State.ring
    rw [hr]
    exact quiet_fetched s hq n

/-! #### Before the records -/

/-- The buffers, engines and reductions at an anchor boundary, before its records. -/
def State.beforeAnchor (s : State) : State :=
  ((((s.advanceBlocks).advanceIvls).advanceEngines).drainMessages (fun _ => true)).completeReductions

theorem steady_beforeAnchor (s : State) : Steady s s.beforeAnchor :=
  (reduced_completeReductions _).steadyBy.after ((steady_drainMessages _ _).after ((steady_advanceEngines _).after
    ((steady_advanceIvls _).after (steady_advanceBlocks s))))

/-! #### The records -/

/-- The slots of the ANCHORs kept, the latest first. -/
def State.lastAnchor (s : State) : Option SI := (s.data.anchors.head?).map (fun e => e.1)

theorem Steady.lastAnchor {s s' : State} (h : Steady s s') : s'.lastAnchor = s.lastAnchor := congrArg (fun l => (l.head?).map (fun e => e.1)) h.anchors

theorem Steered.lastAnchor {s s' : State} {y : Time} (h : Steered s y s') : s'.lastAnchor = s.lastAnchor := (congrArg State.lastAnchor h.placed.still :)

theorem steady_slewAt (s : State) (b : SI) : Steady s (s.slewAt b) := by
  unfold State.slewAt
  split
  · exact Steady.refl s
  · split
    · exact Steady.refl s
    · exact (placed_placeActive _ _).steadyBy

/-- The ANCHOR is kept in the directory, and changes nothing else but records. -/
theorem putAnchor_anchored (s : State) (b : SI) (x y : Bool) :
    Anchored s (s.putAnchor b x y) ∧ (s.putAnchor b x y).time = s.time ∧ (s.putAnchor b x y).lastAnchor = some b ∧
      ∀ n, n ∈ s.events.raised → n ∈ (s.putAnchor b x y).events.raised := by
  have h := placed_placeActive s (recAnchor s.time b x y)
  exact ⟨(anchored_set _ _ _).after h.steadyBy.anchored, h.time, rfl, h.raised⟩

/-- The records of an anchor boundary whose ANCHOR is not kept yet, after its steps. -/
theorem anchorRecords_steps {s : State} {b : SI} (h : s.anchored b = false) :
    Anchored (s.anchorSteps b) (s.anchorRecords b) ∧ (s.anchorRecords b).time = (s.anchorSteps b).time ∧ (s.anchorRecords b).lastAnchor = some b := by
  have he : s.anchorRecords b = if (s.anchorSteps b).cap.runState = 2 && (s.anchorSteps b).cap.runE = b then (s.anchorSteps b).noteAnchor b
      else ((s.anchorSteps b).slewAt b).putAnchor b false false := by
    unfold State.anchorRecords
    rw [h]
    rfl
  rw [he]
  split
  · exact ⟨anchored_set _ _ _, rfl, rfl⟩
  · obtain ⟨ha, ht, hl, -⟩ := putAnchor_anchored ((s.anchorSteps b).slewAt b) b false false
    have hs := steady_slewAt (s.anchorSteps b) b
    exact ⟨hs.anchored.trans ha, ht.trans hs.time, hl⟩

/-- The alarm of U is all that its check changes of station time. -/
theorem checkUnc_time (s : State) : ∃ c, s.checkUnc.time = { s.time with alarmed := c } := ⟨_, (placed_raiseIf _ _ _).time⟩

/-- An anchor boundary whose ANCHOR is not kept yet: its steps, and what leaves them. -/
theorem anchorActions_steps {s : State} {b : SI} (ps : List LanePass) (dis : List (Fin 1024 × Nat)) (h : s.beforeAnchor.anchored b = false) :
    Anchored (s.beforeAnchor.anchorSteps b) (s.anchorActions b ps dis) ∧
      (∃ c, (s.anchorActions b ps dis).time = { (s.beforeAnchor.anchorSteps b).time with alarmed := c }) ∧
      (s.anchorActions b ps dis).lastAnchor = some b := by
  obtain ⟨ha, ht, hl⟩ := anchorRecords_steps h
  have hr := (linked_requestTime (s.beforeAnchor.anchorRecords b)).steadyBy
  have hu := steered_checkUnc (s.beforeAnchor.anchorRecords b).requestTime
  obtain ⟨c, hc⟩ := checkUnc_time (s.beforeAnchor.anchorRecords b).requestTime
  have hz : Steady (s.beforeAnchor.anchorRecords b).requestTime.checkUnc (s.anchorActions b ps dis) :=
    (steady_lanesBoundary _ b ps).after (steady_checkStuckAll _ b dis)
  refine ⟨((ha.trans hr.anchored).trans hu.anchored).trans hz.anchored, ⟨c, ?_⟩, ?_⟩
  · rw [hz.time, hc, hr.time, ht]
  · rw [hz.lastAnchor, hu.lastAnchor, hr.lastAnchor, hl]

end Sys2Proof.Machine

/-! #### Station time at an anchor boundary (R42, R48, R566) -/

namespace Sys2Proof.Machine

open Sys2Proof.Safety

/-- A slew has accumulated nothing at the slot from which it is counted. -/
theorem StMap.slewed_start (m : StMap) (o : Option Slew) (x : SI) (h : ∀ w, o = some w → w.startSi = x) : m.slewed o x 0 = 0 := by
  cases o with
  | none => rfl
  | some w =>
    have hx := h w rfl
    unfold StMap.slewed
    simp only [hx, Nat.sub_self, Nat.mul_zero, Nat.zero_add, Nat.zero_mul, Nat.zero_div, Nat.cast_zero, neg_zero]
    split
    · exact max_eq_right (le_of_lt ‹_›)
    · exact min_eq_right (not_lt.1 ‹_›)

/-- ST at the slot from which the mapping runs. -/
theorem Time.stAt_start (t : Time) (b : SI) (h : t.map.si0 = b) (hw : ∀ w, t.slew = some w → w.startSi = b) : t.stAt b = t.map.st0 := by
  unfold Time.stAt Time.stFine Time.mapAt
  rw [if_pos (le_of_eq h)]
  simp only [h, sub_self, zero_mul, StMap.slewed_start t.map t.slew b hw]
  simp

/-- The slew in progress is counted from slot b on after the mapping is moved there. -/
theorem Time.rebase_slew (t : Time) (b : SI) : ∀ w, (t.rebase b).slew = some w → w.startSi = b := by
  intro w hw
  obtain ⟨v, -, rfl⟩ := Option.map_eq_some_iff.1 (show t.slew.map _ = some w from hw)
  rfl

/-- A change of rate leaves ST where it is. -/
theorem Time.setRate_stAt (t : Time) (b : SI) (r : Nat) : (t.setRate b r).stAt b = t.stAt b :=
  Time.stAt_start _ b rfl (t.rebase_slew b)

/-- What the loop applies leaves all but the mapping and what the loop keeps. -/
theorem Time.looped_eq (t : Time) (b : SI) : ∃ m p w x, t.looped b = { t with map := m, past := p, slew := w, tt := x, loopDue := none } := by
  unfold Time.looped
  split
  next h => exact ⟨t.map, t.past, t.slew, t.tt, by rw [← h]⟩
  · split
    · exact ⟨_, _, _, _, rfl⟩
    · exact ⟨_, _, _, _, rfl⟩

theorem Time.looped_stAt (t : Time) (b : SI) : (t.looped b).stAt b = t.stAt b := by
  unfold Time.looped
  split
  · rfl
  next l _ =>
    split
    · rfl
    · exact t.setRate_stAt b _

/-- Nothing that the loop has found leaves the mapping alone. -/
theorem Time.looped_of_none {t : Time} (h : t.loopDue = none) (b : SI) : t.looped b = t := by
  unfold Time.looped
  rw [h]

/-- Station time in which no step waits. -/
def Time.unwaiting (t : Time) (offsets : List Int) : Time :=
  { t with pending := none, labelStep := none, tt := { t.tt with parentStep := none, offsets := offsets } }

theorem Time.waiting_none {t : Time} (h1 : t.pending = none) (h2 : t.labelStep = none) (h3 : t.tt.parentStep = none) : t.waiting = [] := by
  unfold Time.waiting
  rw [h1, h2, h3]
  rfl

theorem Time.waiting_one {t : Time} {p : PendingStep} (h1 : t.pending = some p) (h2 : t.labelStep = none) (h3 : t.tt.parentStep = none) :
    t.waiting = [p] := by
  unfold Time.waiting
  rw [h1, h2, h3]
  rfl

/-- ST after a step. -/
theorem Time.stepped_stAt (t : Time) (p : PendingStep) (b : SI) : (t.stepped p b).stAt b = t.stAt b + t.stepDelta p b :=
  Time.stAt_start _ b rfl (t.rebase_slew b)

/-- A step to a given ST reaches it, and one by Δ adds it and what the loop's rate has added since the pulse (R42, R48). -/
theorem Time.add_stepDelta (t : Time) (p : PendingStep) (b : SI) : t.stAt b + t.stepDelta p b = match p.target with
    | some st => stKeep st
    | none => t.stAt b + p.delta + t.lockDrift p b := by
  unfold Time.stepDelta
  cases p.target with
  | none => exact (add_assoc _ _ _).symm
  | some st => exact add_sub_cancel (t.stAt b) (stKeep st)

/-! #### The steps -/

section Steps
variable {s : State} {b : SI}

theorem anchorSteps_none (h : s.time.waiting = []) :
    s.anchorSteps b = { s with time := (s.time.unwaiting s.time.tt.offsets).looped b } := by
  unfold State.anchorSteps
  rw [h]
  rfl

theorem gateOutputs_refoutOn (h : s.time.refoutOn = false) : s.gateOutputs.time.refoutOn = false := by
  unfold State.gateOutputs
  dsimp only
  split
  · exact h
  · split <;> rfl

/-- Where REFOUT is off, a change of station time leaves it off. -/
theorem retime_refoutOn {f : Time → Time} (h : (f s.time).refoutOn = false) : (s.retime f).time.refoutOn = false := by
  unfold State.retime
  dsimp only
  split
  · exact h
  · rw [(placed_raise _ 32).time]
    exact gateOutputs_refoutOn h

/-- The record of a step is kept with those of its boundary. -/
theorem anchored_stepRecs (s : State) (l : List (SI × Rec)) : Anchored s { s with data := { s.data with stepRecs := l } } := anchored_set s _ _

/-- A step of ST leaves the station time that `Time.stepped` says, with REFOUT off, and raises event 33. -/
theorem applyStep_anchored (p : PendingStep) : Anchored s (s.applyStep p b) ∧ 33 ∈ (s.applyStep p b).events.raised ∧
    (s.applyStep p b).time.core = (s.time.stepped p b).core ∧ (s.applyStep p b).time.refoutOn = false := by
  unfold State.applyStep
  extract_lets delta r s1 kept s2 on s3
  have h1 : Placed s s1 := placed_placeActive s r
  have ht : s2.time = s.time := h1.time
  have h3 : Steered s2 (s2.time.stepped p b) s3 := steered_retime s2 (fun t => t.stepped p b)
  have h4 : Placed s3 ((if on then s3.post (.pin 10 false) else s3).raise 33) := (placed_raise _ _).after (placed_postIf s3 on _)
  refine ⟨((h1.steadyBy.anchored.trans (anchored_stepRecs s1 _)).trans h3.anchored).trans h4.steadyBy.anchored, raise_mem _ 33, ?_, ?_⟩
  · rw [h4.time, h3.time, ht]
  · rw [h4.time]
    exact retime_refoutOn rfl

theorem anchorSteps_one {p : PendingStep} (h : s.time.waiting = [p]) : Anchored s (s.anchorSteps b) ∧ 33 ∈ (s.anchorSteps b).events.raised ∧
    ∃ y, (s.anchorSteps b).time = Time.looped y b ∧ y.core = ((s.time.unwaiting []).stepped p b).core ∧ y.refoutOn = false := by
  have he : s.anchorSteps b = { ({ s with time := s.time.unwaiting [] } : State).applyStep p b with
      time := (({ s with time := s.time.unwaiting [] } : State).applyStep p b).time.looped b } := by
    unfold State.anchorSteps
    rw [h]
    rfl
  obtain ⟨ha, hr, ht, hf⟩ := applyStep_anchored (s := { s with time := s.time.unwaiting [] }) (b := b) p
  rw [he]
  exact ⟨((anchored_set s _ s.data).trans ha).trans (anchored_set _ _ _), hr, _, rfl, ht, hf⟩

end Steps

/-! #### The row -/

section Row
variable {s : State} {t : SI} {ps : List LanePass} {dis : List (Fin 1024 × Nat)}

theorem exec_anchorBoundary_none (h : t % 1048576 ≠ 0 ∨ s.time.running = false) : exec (.anchorBoundary t ps dis) s = .next (s.moment t).goOn := by
  refine congrArg (fun x : State => Host.Outcome.next x.goOn) (if_pos ?_)
  rw [Bool.or_eq_true_iff, decide_eq_true_iff, Bool.not_eq_true']
  exact h

theorem exec_anchorBoundary_due (h : t % 1048576 = 0) (hr : s.time.running = true) :
    exec (.anchorBoundary t ps dis) s = .next ((s.moment t).anchorActions t ps dis).goOn := by
  refine congrArg (fun x : State => Host.Outcome.next x.goOn) (if_neg ?_)
  rw [Bool.or_eq_true_iff, decide_eq_true_iff, Bool.not_eq_true', not_or]
  exact ⟨not_not.2 h, ne_false_of_eq_true hr⟩

end Row

/-- Going on with nothing waiting leaves all but answers. -/
theorem Anchored.goesOn {s s' : State} (h : Anchored s s') (hq : quiet s) : Answered s' s'.goOn := by
  obtain ⟨h1, h2, h3⟩ := h.idle hq
  exact answered_goOn s' h1 h2 h3

/-- What of a state O31 says that an anchor boundary leaves, when the rings have gone on. -/
theorem Answered.kept {a b : State} (h : Answered a b) : b.dram = a.dram ∧ b.sched = a.sched ∧ b.sec = a.sec ∧ b.hk = a.hk ∧ b.pins = a.pins ∧
    b.cap = a.cap ∧ b.streams = a.streams ∧ b.lastAnchor = a.lastAnchor :=
  ⟨h.dram, h.sched, h.sec, h.hk, h.pins, h.cap, h.streams, (congrArg State.lastAnchor h.settled :)⟩

/-- An anchor boundary whose ANCHOR is not kept yet: what O31 says of all but station time, the steps and what the checks leave of station time, and the
events of the steps. -/
structure AnchorRow (x : State) (b : SI) (s' : State) : Prop where
  kept : s'.dram = x.dram ∧ s'.sched = x.sched ∧ s'.sec = x.sec ∧ s'.hk = x.hk ∧ s'.pins = x.pins ∧ s'.cap = x.cap ∧ s'.streams = x.streams
  anchor : s'.lastAnchor = some b
  time : ∃ c, s'.time = { (x.beforeAnchor.anchorSteps b).time with alarmed := c }
  raised : ∀ n, n ∈ (x.beforeAnchor.anchorSteps b).events.raised → n ∈ s'.events.raised

theorem Anchored.raised {s s' : State} (h : Anchored s s') : ∀ n, n ∈ s.events.raised → n ∈ s'.events.raised := by
  have h : Steady { s with time := s'.time, data := s'.data } s' := h
  exact h.raised

theorem State.anchored_of_ne {s : State} {b : SI} (h : s.lastAnchor ≠ some b) : s.anchored b = false := decide_eq_false h

/-- The part of O31's rows that names what stays. -/
theorem AnchorRow.said {x s' : State} {b : SI} (h : AnchorRow x b s') (hsi : s'.time.si = x.time.si) (href : s'.time.ref = x.time.ref) :
    s'.time.si = x.time.si ∧ s'.time.ref = x.time.ref ∧ s'.dram = x.dram ∧ s'.sched = x.sched ∧ s'.sec = x.sec ∧ s'.hk = x.hk ∧
      s'.pins = x.pins ∧ s'.cap = x.cap ∧ s'.streams = x.streams ∧ s'.lastAnchor = some b := by
  obtain ⟨k1, k2, k3, k4, k5, k6, k7⟩ := h.kept
  exact ⟨hsi, href, k1, k2, k3, k4, k5, k6, k7, h.anchor⟩

/-- What leaves the steps of an anchor boundary, and then the rings, leaves what O31 says. -/
theorem AnchorRow.of_steps {x w : State} {b : SI} (hq : quiet x) (hx : Anchored x (x.beforeAnchor.anchorSteps b))
    (ha : Anchored (x.beforeAnchor.anchorSteps b) w) (ht : ∃ c, w.time = { (x.beforeAnchor.anchorSteps b).time with alarmed := c })
    (hl : w.lastAnchor = some b) : AnchorRow x b w.goOn := by
  have hall := hx.trans ha
  have hg := hall.goesOn hq
  obtain ⟨k1, k2, k3, k4, k5, k6, k7⟩ := hall.kept
  obtain ⟨g1, g2, g3, g4, g5, g6, g7, g8⟩ := hg.kept
  obtain ⟨c, ht⟩ := ht
  have hk : w.goOn.dram = x.dram ∧ w.goOn.sched = x.sched ∧ w.goOn.sec = x.sec ∧ w.goOn.hk = x.hk ∧ w.goOn.pins = x.pins ∧
      w.goOn.cap = x.cap ∧ w.goOn.streams = x.streams :=
    ⟨g1.trans k1, g2.trans k2, g3.trans k3, g4.trans k4, g5.trans k5, g6.trans k6, g7.trans k7⟩
  have ht' : w.goOn.time = { (x.beforeAnchor.anchorSteps b).time with alarmed := c } := hg.time.trans ht
  have hr : ∀ n, n ∈ (x.beforeAnchor.anchorSteps b).events.raised → n ∈ w.goOn.events.raised := fun n hn => hg.raised n (ha.raised n hn)
  exact ⟨hk, g8.trans hl, ⟨c, ht'⟩, hr⟩

theorem quiet_moment {s : State} (h : quiet s) (t : SI) : quiet (s.moment t) := ⟨h.ready, h.step, h.soft, h.up, h.swap, h.waiting⟩

theorem anchorRow {x : State} {b : SI} (ps : List LanePass) (dis : List (Fin 1024 × Nat)) (hq : quiet x) (h : x.lastAnchor ≠ some b)
    (hs : Anchored x.beforeAnchor (x.beforeAnchor.anchorSteps b)) : AnchorRow x b (x.anchorActions b ps dis).goOn := by
  have hb := steady_beforeAnchor x
  obtain ⟨ha, ht, hl⟩ := anchorActions_steps ps dis (State.anchored_of_ne (hb.lastAnchor.trans_ne h))
  exact AnchorRow.of_steps hq (hb.anchored.trans hs) ha ht hl

/-- What O31 says of station time at an anchor boundary at which no step falls. -/
structure Unstepped (q : Time) (b : SI) (y : Time) : Prop where
  tgen : y.tgen = q.tgen
  st : y.stAt b = q.stAt b
  loopDue : y.loopDue = none
  map : q.loopDue = none → y.map = q.map
  state : y.state = q.state
  stepCnt : y.stepCnt = q.stepCnt

theorem unstepped_time {q y : Time} {b : SI} {l : List Int} {c : Bool} (h : y = { (q.unwaiting l).looped b with alarmed := c }) :
    y.si = q.si ∧ y.ref = q.ref ∧ Unstepped q b y := by
  obtain ⟨m, p, w, x, he⟩ := (q.unwaiting l).looped_eq b
  have hst : y.stAt b = q.stAt b := by
    rw [h]
    exact Time.looped_stAt _ b
  have hm : q.loopDue = none → y.map = q.map := fun hn => by
    rw [h, Time.looped_of_none (t := q.unwaiting l) hn]
    rfl
  rw [he] at h
  subst h
  exact ⟨rfl, rfl, rfl, hst, rfl, hm, rfl, rfl⟩

/-- What O31 says of station time at an anchor boundary at which step p falls. -/
structure Stepped (q : Time) (p : PendingStep) (b : SI) (y : Time) : Prop where
  pending : y.pending = none
  tgen : y.tgen = nextTgen q.tgen
  stepCnt : y.stepCnt = min (q.stepCnt + 1) 255
  state : y.state = if p.cause = 0 ∨ p.cause = 1 then .locked else q.state
  refoutOn : y.refoutOn = false
  st : y.stAt b = q.stAt b + q.stepDelta p b

theorem stepped_time {q y z : Time} {p : PendingStep} {b : SI} {c : Bool} (hz : z.core = ((q.unwaiting []).stepped p b).core)
    (hf : z.refoutOn = false) (h : y = { z.looped b with alarmed := c }) : y.si = q.si ∧ y.ref = q.ref ∧ Stepped q p b y := by
  obtain ⟨m, o, w, x, he⟩ := z.looped_eq b
  have hst : y.stAt b = q.stAt b + q.stepDelta p b := by
    have h1 : y.stAt b = z.stAt b := by
      rw [h]
      exact Time.looped_stAt z b
    have h2 : z.stAt b = ((q.unwaiting []).stepped p b).stAt b := (congrArg (fun t : Time => t.stAt b) hz :)
    rw [h1, h2, Time.stepped_stAt]
    rfl
  have hs : z.state = if p.cause = 0 ∨ p.cause = 1 then .locked else q.state := by
    refine (congrArg Time.state hz :).trans ?_
    unfold Time.stepped
    simp only [Bool.or_eq_true, decide_eq_true_eq]
    rfl
  rw [he] at h
  subst h
  exact ⟨(congrArg Time.si hz :), (congrArg Time.ref hz :), (congrArg Time.pending hz :), (congrArg Time.tgen hz :),
    (congrArg Time.stepCnt hz :), hs, hf, hst⟩

/-! #### EPOCH_OUT (R59, R61) -/

/-- Without housekeeping an epoch boundary only drives the outputs. -/
theorem epochHk_of_disabled {s : State} (h : s.hk.enabled = false) : s.epochHk = s := if_neg (by simp [h])

theorem epochOut_none {s : State} (h : s.time.reported ≠ 2 ∨ s.safe.causes ≠ 0) : s.epochOut = s := by
  refine if_pos ?_
  rw [Bool.or_eq_true_iff, decide_eq_true_iff]
  exact h.imp_right decide_eq_true

/-- REFOUT starts or resumes at this epoch boundary (R61). -/
def State.startsRefout (s : State) : Bool :=
  !s.time.refoutOn && decide (s.time.ref.refoutDiv ≠ 0) && decide (s.time.refHzOf ≠ 0) &&
    (nearestEpoch (s.time.stAt s.time.si) / (epochUnits : Int)).toNat % s.time.refoutM = 0

/-- A LOCKED unit that is not in doubt drives EPOCH_OUT for its full width. -/
theorem epochOut_drives {s : State} (h : s.time.reported = 2) (hc : s.safe.causes = 0) (hw : s.time.ref.epochOutW ≠ 0) :
    s.epochOut = { s with
      time := { s.time with
        outActive := true, epochOutHigh := true, epochOutUntil := s.time.si + slotsOfNs s.time.ref.rateKhz (100 * s.time.ref.epochOutW)
        refoutOn := s.time.refoutOn || s.startsRefout }
      obs := { s.obs with posted := (if s.startsRefout then [.pin 10 true] else []) ++ .pin 9 true :: s.obs.posted } } := by
  have hn : ¬ (decide (s.time.reported ≠ 2) || s.inDoubt) = true := by
    rw [Bool.or_eq_true_iff, decide_eq_true_iff, not_or]
    exact ⟨not_not.2 h, by simp [State.inDoubt, hc]⟩
  have hp : decide (s.time.ref.epochOutW ≠ 0) = true := decide_eq_true hw
  unfold State.epochOut State.startsRefout
  dsimp only
  rw [if_neg hn, hp]
  generalize (!s.time.refoutOn && decide (s.time.ref.refoutDiv ≠ 0) && decide (s.time.refHzOf ≠ 0) &&
    decide ((nearestEpoch (s.time.stAt s.time.si) / (epochUnits : Int)).toNat % s.time.refoutM = 0)) = starts
  cases starts <;> rfl

section EpochOut
variable {s : State} {t : SI}

theorem exec_epochOutPulseEnd_none (h : s.time.epochOutHigh = false ∨ (s.moment t).time.si < s.time.epochOutUntil) :
    exec (.epochOutPulseEnd t) s = .next (s.moment t) := by
  refine if_neg ?_
  rw [Bool.and_eq_true_iff, decide_eq_true_iff, not_and_or, not_le]
  exact h.imp_left ne_true_of_eq_false

theorem exec_epochOutPulseEnd_ends (h : s.time.epochOutHigh = true) (hu : s.time.epochOutUntil ≤ (s.moment t).time.si) :
    exec (.epochOutPulseEnd t) s =
      .next (({ s.moment t with time := { (s.moment t).time with epochOutHigh := false } } : State).post (.pin 9 false)) :=
  if_pos (Bool.and_eq_true_iff.2 ⟨h, decide_eq_true hu⟩)

end EpochOut

end Sys2Proof.Machine

namespace Sys2Proof.Proofs

open Sys2Proof.Machine Sys2Proof.Safety

/-- Settles O31. At an anchor boundary the buffers, engines, cells and ports leave station time (`Steady`), its steps and what the loop applies are
`Time.stepped` and `Time.looped`, and ST runs on through the loop's change of rate. -/
theorem anchorsAndEpochs : Obligations.AnchorsAndEpochs := by
  unfold Obligations.AnchorsAndEpochs
  intro s t ps dis p x q run fresh kept w drift
  have hkept : ∀ {s' : State}, AnchorRow x t s' → s'.time.si = x.time.si → s'.time.ref = x.time.ref → kept s' := AnchorRow.said
  refine ⟨fun hq h => ?none, fun hq hf h1 h2 h3 => ?unstepped, fun hq hf h1 h2 h3 => ?stepped, fun hk h => ?noEpoch,
    fun hk hr hc hw => ?epoch, fun h => ?noEnd, fun h1 h2 => ?pulseEnd⟩
  case none =>
    exact ⟨_, exec_anchorBoundary_none h, (answered_goOn x (by rw [show x.startup.step = 8 from hq.step]; decide) hq.soft (quiet_fetched s hq)).only⟩
  case unstepped =>
    obtain ⟨hd, hrun, hne⟩ := hf
    have hb := (steady_beforeAnchor x).time
    have hw : x.beforeAnchor.time.waiting = [] := by
      rw [hb]
      exact Time.waiting_none (t := x.time) h1 h2 h3
    have he := anchorSteps_none (b := t) hw
    have hr := anchorRow (x := x) ps dis (quiet_moment hq t) hne (by rw [he]; exact anchored_set _ _ _)
    obtain ⟨c, ht⟩ := hr.time
    rw [he, hb] at ht
    obtain ⟨hsi, href, hu⟩ := unstepped_time (q := x.time) ht
    exact ⟨(x.anchorActions t ps dis).goOn, exec_anchorBoundary_due hd hrun, hkept hr hsi href, hu.tgen, hu.st, hu.loopDue, hu.map, hu.state, hu.stepCnt⟩
  case stepped =>
    obtain ⟨hd, hrun, hne⟩ := hf
    have hb := (steady_beforeAnchor x).time
    have hw : x.beforeAnchor.time.waiting = [p] := by
      rw [hb]
      exact Time.waiting_one (t := x.time) h1 h2 h3
    obtain ⟨ha, h33, z, hz, hcore, hoff⟩ := anchorSteps_one (b := t) hw
    have hr := anchorRow (x := x) ps dis (quiet_moment hq t) hne ha
    obtain ⟨c, ht⟩ := hr.time
    rw [hz] at ht
    rw [hb] at hcore
    obtain ⟨hsi, href, hu⟩ := stepped_time (q := x.time) hcore hoff ht
    exact ⟨(x.anchorActions t ps dis).goOn, exec_anchorBoundary_due hd hrun, hkept hr hsi href, hu.pending, hu.tgen, hu.stepCnt, hr.raised _ h33,
      hu.state, hu.refoutOn, hu.st.trans (Time.add_stepDelta x.time p t)⟩
  case noEpoch =>
    refine congrArg Host.Outcome.next ?_
    rw [show (s.moment t).epochOut = s.moment t from epochOut_none h]
    exact epochHk_of_disabled hk
  case epoch =>
    have he : x.epochOut = _ := epochOut_drives (s := x) hr hc hw
    refine ⟨x.epochOut, congrArg Host.Outcome.next (epochHk_of_disabled ?_), if x.startsRefout then [.pin 10 true] else [], q.refoutOn || x.startsRefout,
      he, fun hon => ?_⟩
    · rw [he]
      exact hk
    · have hs : x.startsRefout = false := by
        unfold State.startsRefout
        rw [show x.time.refoutOn = true from hon]
        rfl
      rw [hs, hon]
      exact ⟨rfl, rfl⟩
  case noEnd => exact exec_epochOutPulseEnd_none h
  case pulseEnd => exact exec_epochOutPulseEnd_ends h1 h2

end Sys2Proof.Proofs

/-! ### The record and the entry of an answered command (R431, R445, R447) -/

namespace Sys2Proof.Machine

open Sys2Proof.Safety

/-! #### The audit log -/

theorem Log.add_eq (l : Log) (e : LogEntry) :
    (l.add e).count = l.count + 1 ∧ (l.add e).unwritable = l.unwritable ∧ (l.add e).onchipBad = l.onchipBad ∧ (l.add e).ends = l.ends := by
  unfold Log.add Log.keep Log.putOnchip
  cases l.unwritable <;> cases l.onchipBad <;> exact ⟨rfl, rfl, rfl, rfl⟩

/-- A CHANGE record counts, and leaves what waits for its record and whether the log can be written. -/
theorem change_log (s : State) (o : Origin) (opcode status : Nat) (params : List Byte) (si : SI) :
    (s.change o opcode status params si).log.count = s.log.count + 1 ∧ (s.change o opcode status params si).log.unwritable = s.log.unwritable ∧
      (s.change o opcode status params si).log.onchipBad = s.log.onchipBad ∧ (s.change o opcode status params si).log.ends = s.log.ends := by
  have h : ∃ e b, (s.change o opcode status params si).log = { s.log.add e with lowRaised := b } :=
    ⟨_, _, (placed_raiseIf _ _ _).log.trans (placed_place _ _ _).log⟩
  obtain ⟨e, b, h⟩ := h
  rw [h]
  exact Log.add_eq s.log e

theorem change_cmd (s : State) (o : Origin) (opcode status : Nat) (params : List Byte) (si : SI) :
    (s.change o opcode status params si).cmd = s.cmd := (placed_raiseIf _ _ _).cmd.trans (placed_place _ _ _).cmd

theorem postEntry_log (s : State) (e : CplEntry) : (s.postEntry e).log = s.log := by
  have h := (placed_raiseIf s (decide (e.status = stInternal)) 7).log
  have hw : ∀ x : State, (x.writeEntry e).log = x.log := fun x => (placed_raise _ _).log.trans (placed_postBytes _ _ _).log
  unfold State.postEntry
  dsimp only
  split
  · exact h
  · split
    · split
      · exact (hw _).trans h
      · exact h
    · split
      · exact h
      · exact (hw _).trans h

/-- The FENCE counter of the ring alone changes before an entry is posted. -/
def State.unfenced (s : State) (c : Ctx) (status jobId ring : Nat) : State :=
  if fenceEntry c status jobId then s.modRing ring (fun r => { r with unreplied := r.unreplied - 1 }) else s

theorem complete_eq {s : State} {c : Ctx} {ring : Nat} {tag : BitVec 16} (h : c.reply = some (ring, tag)) (status jobId : Nat) (result : List Nat) :
    s.complete c status jobId result = if c.lost then s.unfenced c status jobId ring else (s.unfenced c status jobId ring).postEntry
      { ring := ring, tag := tag, status := status, interim := statusInterim status, sched := c.sched, opcode := c.opcode, jobId := jobId,
        result := result } := by
  unfold State.complete
  rw [h]
  rfl

theorem unfenced_log (s : State) (c : Ctx) (status jobId ring : Nat) : (s.unfenced c status jobId ring).log = s.log := by
  unfold State.unfenced
  split <;> rfl

theorem complete_log (s : State) (c : Ctx) (status jobId : Nat) (result : List Nat) : (s.complete c status jobId result).log = s.log := by
  cases hr : c.reply with
  | none =>
    unfold State.complete
    rw [hr]
  | some r =>
    obtain ⟨ring, tag⟩ := r
    rw [complete_eq hr]
    split
    · exact unfenced_log s _ _ _ _
    · exact (postEntry_log _ _).trans (unfenced_log s _ _ _ _)

theorem completeLogged_count (s : State) (c : Ctx) (status jobId : Nat) (result : List Nat) :
    (s.completeLogged c status jobId result).log.count = s.log.count := by
  unfold State.completeLogged
  split
  · rfl
  · rw [complete_log]

theorem finish_count (s : State) (c : Ctx) (result : List Nat) : (s.finish c result).log.count = s.log.count + 1 :=
  (completeLogged_count _ _ _ _ _).trans (change_log _ _ _ _ _ _).1

/-! #### The rings go on -/

theorem issue_log_hold (s : State) (q : Request) : (s.issue q).log = s.log ∧ (s.issue q).cmd.hold = s.cmd.hold := by
  unfold State.issue
  dsimp only
  split
  · exact ⟨rfl, rfl⟩
  · split <;> exact ⟨rfl, rfl⟩

theorem fetchRing_log_hold (s : State) (n : Nat) : (s.fetchRing n).log = s.log ∧ (s.fetchRing n).cmd.hold = s.cmd.hold := by
  unfold State.fetchRing
  split
  · exact issue_log_hold _ _
  · exact ⟨rfl, rfl⟩

/-- With no packet waiting, the rings leave the log and the hold store. -/
theorem pump_log_hold (s : State) (h : ∀ n, (s.ring n).fetched = []) : s.pump.log = s.log ∧ s.pump.cmd.hold = s.cmd.hold := by
  unfold State.pump
  dsimp only
  rw [examine_none s h]
  generalize List.range 16 = l
  induction l generalizing s with
  | nil => exact ⟨rfl, rfl⟩
  | cons n rest ih =>
    obtain ⟨h1, h2⟩ := ih (s.fetchRing n) (fun k => ((answered_fetchRing s n).fetched k).trans (h k))
    obtain ⟨k1, k2⟩ := fetchRing_log_hold s n
    exact ⟨h1.trans k1, h2.trans k2⟩

/-! #### Entries given -/

/-- Entries may have been written out between s and s', but the hold store is as it was. -/
def Silent (s s' : State) : Prop := (∃ l, s'.obs.posted = l ++ s.obs.posted) ∧ s'.cmd.hold = s.cmd.hold

/-- On the way from s to s' an entry of which P holds has been written out, or has come to wait in the hold store behind what waited there. -/
def Told (P : CplEntry → Prop) (s s' : State) : Prop :=
  ∃ (e : CplEntry) (l : List Posted) (h : List CplEntry), s'.obs.posted = l ++ s.obs.posted ∧ s'.cmd.hold = s.cmd.hold ++ h ∧
    (e ∈ h ∨ ∃ addr phase, Posted.completion e addr (e.bytes phase) ∈ l) ∧ P e

theorem Placed.silent {s s' : State} (h : Placed s s') : Silent s s' := ⟨h.posted, congrArg Cmd.hold h.cmd⟩

theorem Silent.told {P : CplEntry → Prop} {a b c : State} (h : Silent a b) (k : Told P b c) : Told P a c := by
  obtain ⟨⟨m, hm⟩, hh⟩ := h
  obtain ⟨e, l, g, hl, hg, he, hp⟩ := k
  exact ⟨e, l ++ m, g, by rw [hl, hm, List.append_assoc], by rw [hg, hh], he.imp_right (fun ⟨a, f, hf⟩ => ⟨a, f, List.mem_append_left _ hf⟩), hp⟩

theorem Told.silent {P : CplEntry → Prop} {a b c : State} (h : Told P a b) (k : Silent b c) : Told P a c := by
  obtain ⟨e, l, g, hl, hg, he, hp⟩ := h
  obtain ⟨⟨m, hm⟩, hh⟩ := k
  exact ⟨e, m ++ l, g, by rw [hm, hl, List.append_assoc], by rw [hh, hg], he.imp_right (fun ⟨a, f, hf⟩ => ⟨a, f, List.mem_append_right _ hf⟩), hp⟩

/-- An entry that is written gives itself. -/
theorem writeEntry_told (s : State) (e : CplEntry) : Told (fun x => ∃ w, x = { e with waited := w }) s (s.writeEntry e) := by
  have h : Told (fun x => ∃ w, x = { e with waited := w }) s
      ((s.modRing e.ring (fun x => { x with cqTail := (x.cqTail + 1) % (2 * x.cqSize) })).postBytes
        (.completion { e with waited := false } ((s.ring e.ring).cqBase + 32 * ((s.ring e.ring).cqTail % (s.ring e.ring).cqSize))
          (e.bytes (!bit (s.ring e.ring).cqTail (s.ring e.ring).cqLog2))) 32) :=
    ⟨{ e with waited := false }, [_], [], rfl, (List.append_nil _).symm, .inr ⟨_, _, List.mem_singleton.2 rfl⟩, false, rfl⟩
  exact h.silent (placed_raise _ _).silent

theorem holdEntry_told (s : State) (e : CplEntry) : Told (fun x => ∃ w, x = { e with waited := w }) s (s.holdEntry e) :=
  ⟨{ e with waited := e.waited || !(s.ring e.ring).cqRoom }, [], [_], rfl, rfl, .inl (List.mem_singleton.2 rfl), _, rfl⟩

/-- An entry for an enabled ring that has a completion queue is given. -/
theorem postEntry_told {s : State} {e : CplEntry} (hq : (s.ring e.ring).cqLog2 ≠ 0) (he : (s.ring e.ring).enable = true) :
    Told (fun x => ∃ w, x = { e with waited := w }) s (s.postEntry e) := by
  have h := (placed_raiseIf s (decide (e.status = stInternal)) 7).silent
  unfold State.postEntry
  dsimp only
  rw [if_neg hq, he, Bool.not_true, if_neg Bool.false_ne_true]
  split
  · exact h.told (holdEntry_told _ e)
  · exact h.told (writeEntry_told _ e)

theorem unfenced_ring (s : State) (c : Ctx) (status jobId ring : Nat) :
    ∃ u, (s.unfenced c status jobId ring).ring ring = { s.ring ring with unreplied := u } := by
  unfold State.unfenced
  split
  · rw [State.modRing_ring, if_pos rfl]
    exact ⟨_, rfl⟩
  · exact ⟨_, rfl⟩

theorem unfenced_silent (s : State) (c : Ctx) (status jobId ring : Nat) : Silent s (s.unfenced c status jobId ring) := by
  unfold State.unfenced
  split
  · exact ⟨⟨[], rfl⟩, rfl⟩
  · exact ⟨⟨[], rfl⟩, rfl⟩

/-- The completion entry of a command whose ring is enabled and has a completion queue is given. -/
theorem complete_told {s : State} {c : Ctx} {ring : Nat} {tag : BitVec 16} (h : c.reply = some (ring, tag)) (hl : c.lost = false)
    (hq : (s.ring ring).cqLog2 ≠ 0) (he : (s.ring ring).enable = true) (status jobId : Nat) (result : List Nat) :
    Told (fun x => x.ring = ring ∧ x.tag = tag ∧ x.opcode = c.opcode ∧ x.status = status ∧ x.result = result) s (s.complete c status jobId result) := by
  obtain ⟨u, hu⟩ := unfenced_ring s c status jobId ring
  rw [complete_eq h, hl, if_neg Bool.false_ne_true]
  obtain ⟨x, l, g, h1, h2, h3, w, rfl⟩ := (unfenced_silent s c status jobId ring).told (postEntry_told (e := {
    ring := ring, tag := tag, status := status, interim := statusInterim status, sched := c.sched, opcode := c.opcode, jobId := jobId, result := result })
    (by rw [hu]; exact hq) (by rw [hu]; exact he))
  exact ⟨_, l, g, h1, h2, h3, rfl, rfl, rfl, rfl, rfl⟩

end Sys2Proof.Machine

/-! ### The scheduler (R67 to R73, R78, R79) -/

namespace Sys2Proof.Machine

open Sys2Proof.Safety

/-- What answers a command does so under any scheduler table. -/
theorem Answered.setSched {s s' : State} (h : Answered s s') (x : Sched) : Answered { s with sched := x } { s' with sched := x } :=
  ⟨congrArg (fun z : State => { z with sched := x }) h.settled, h.region, h.raised, h.posted, h.fetched⟩

theorem Placed.setSched {s s' : State} (h : Placed s s') (x : Sched) : Placed { s with sched := x } { s' with sched := x } :=
  ⟨congrArg (fun z : State => { z with sched := x }) h.still, h.region, h.raised, h.posted⟩

/-- Answering leaves the ST of a boundary, and the boundary. -/
theorem Answered.stNow {s s' : State} (h : Answered s s') (b : SI) : s'.stNow b = s.stNow b := (congrArg (fun z : State => z.stNow b) h.settled :)

theorem Answered.boundary {s s' : State} (h : Answered s s') : s'.boundary = s.boundary := congrArg (fun t : Time => ceil16 t.si) h.time

theorem Answered.silent {s s' : State} (h : Answered s s') (hh : s'.cmd.hold = s.cmd.hold) : Silent s s' := ⟨h.posted, hh⟩

/-- With no packet waiting, the rings go on and answer nothing. -/
theorem pump_silent (s : State) (h : ∀ n, (s.ring n).fetched = []) : Silent s s.pump := (answered_pump s h).silent (pump_log_hold s h).2

/-- An accepted packet whose effect is a change of the table and then answering. -/
theorem packetIn_rescheduled {s : State} {t : SI} {o : OpSpec} {p : Packet} (h : accepted s t o p) {x : Sched} {e : State}
    (he : Answered { taken s t p with sched := x } e) (ho : o.effect (packetCtx o.opcode p) (taken s t p) = e) :
    Answered { s.moment t with sched := x } (s.packetIn t o p) ∧ Silent e (s.packetIn t o p) ∧ (s.packetIn t o p).log = e.log := by
  have hq := h.quiet
  have hb : Answered { s.moment t with sched := x } e := ((taken_answered s t p).setSched x).trans he
  have hf : ∀ n, (e.ring n).fetched = [] := fun n => (hb.fetched n).trans (quiet_fetched s hq n)
  have hs : e.startup.step ≠ 6 := by rw [hb.startup]; exact ne_of_eq_of_ne hq.step (by decide)
  have hr : e.safe.softReset = none := by rw [hb.safe]; exact hq.soft
  rw [packetIn_accepted s t o p h, ho]
  refine ⟨hb.trans (answered_goOn e hs hr hf), ?_⟩
  rw [goOn_eq_pump hs hr]
  exact ⟨pump_silent e hf, (pump_log_hold e hf).1⟩

/-! #### How a command's end is given -/

theorem completeLogged_late {s : State} (h : (s.log.unwritable && s.log.onchipBad) = true) (c : Ctx) (status jobId : Nat) (result : List Nat) :
    (s.completeLogged c status jobId result).log.ends = s.log.ends ++ [{ ctx := c, status := status, jobId := jobId, result := result }] := by
  unfold State.completeLogged
  rw [if_pos h]

theorem completeLogged_now {s : State} (h : (s.log.unwritable && s.log.onchipBad) = false) (c : Ctx) (status jobId : Nat) (result : List Nat) :
    s.completeLogged c status jobId result = s.complete c status jobId result := if_neg (ne_true_of_eq_false h)

/-- The state in which the CHANGE record of a command has been made at the present boundary (R445). -/
def State.recorded (s : State) (c : Ctx) : State := s.change c.origin c.opcode c.okStatus c.params s.boundary

theorem answered_recorded (s : State) (c : Ctx) : Answered s (s.recorded c) := answered_change _ _ _ _ _ _

theorem recorded_cmd (s : State) (c : Ctx) : (s.recorded c).cmd = s.cmd := change_cmd _ _ _ _ _ _

theorem recorded_log (s : State) (c : Ctx) : (s.recorded c).log.count = s.log.count + 1 ∧ (s.recorded c).log.unwritable = s.log.unwritable ∧
    (s.recorded c).log.onchipBad = s.log.onchipBad ∧ (s.recorded c).log.ends = s.log.ends := change_log _ _ _ _ _ _

section Ends
variable {s x s' : State} {p : Packet} {op : Nat} {result : List Nat}

/-- A packet that has taken effect ends with OK, in a state x of s's log, rings and hold store. -/
theorem ends_finish (hlog : x.log = s.log) (hhold : x.cmd.hold = s.cmd.hold) (hpost : x.obs.posted = s.obs.posted)
    (hq : (x.ring p.ring.val).cqLog2 ≠ 0) (he : (x.ring p.ring.val).enable = true)
    (hs : Silent (x.finish (packetCtx op p) result) s') (hl : s'.log = (x.finish (packetCtx op p) result).log) :
    ends s s' p op 0x00 (fun w => w = result) := by
  obtain ⟨-, hw, ho, hends⟩ := recorded_log x (packetCtx op p)
  have hcmd := recorded_cmd x (packetCtx op p)
  have hcond : ((x.recorded (packetCtx op p)).log.unwritable && (x.recorded (packetCtx op p)).log.onchipBad) = (s.log.unwritable && s.log.onchipBad) := by
    rw [hw, ho, hlog]
  have hfin : x.finish (packetCtx op p) result = (x.recorded (packetCtx op p)).completeLogged (packetCtx op p) stOk 0 result := rfl
  unfold ends
  split
  next h =>
    refine ⟨[{ ctx := packetCtx op p, status := stOk, jobId := 0, result := result }], ?_, _, List.mem_singleton.2 rfl, rfl, rfl, rfl, rfl⟩
    rw [hl, hfin, completeLogged_late (hcond.trans h), hends, hlog]
  next h =>
    have hring : (x.recorded (packetCtx op p)).ring p.ring.val = x.ring p.ring.val :=
      congrArg (fun c : Cmd => (tfind c.rings p.ring.val).getD {}) hcmd
    have htold := complete_told (s := x.recorded (packetCtx op p)) (c := packetCtx op p) rfl rfl
      (by rw [hring]; exact hq) (by rw [hring]; exact he) stOk 0 result
    rw [← completeLogged_now (hcond.trans (Bool.eq_false_iff.2 h)), ← hfin] at htold
    have hx : Silent s (x.recorded (packetCtx op p)) := by
      obtain ⟨l, hl⟩ := (answered_recorded x (packetCtx op p)).posted
      exact ⟨⟨l, by rw [hl, hpost]⟩, by rw [hcmd, hhold]⟩
    exact (hx.told htold).silent hs

end Ends

/-! #### SCHEDULE -/

/-- The entry number that SCHEDULE takes is the lowest free one. -/
theorem Sched.free_eq {x : Sched} {n : Nat} (h : x.free = some n) :
    n < 256 ∧ tfind x.entries n = none ∧ ∀ m, m < n → tfind x.entries m ≠ none := by
  obtain ⟨hn, hm, hl⟩ := List.find?_range_eq_some.1 h
  refine ⟨List.mem_range.1 hm, Option.isNone_iff_eq_none.1 hn, fun m hlt he => ?_⟩
  have := hl m hlt
  rw [he] at this
  exact absurd this (by decide)

/-- The entry that SCHEDULE puts into the table (R67, R78). -/
def scheduledEntry (s : State) (c : Ctx) : SchedEntry :=
  { due := pField c.params 0 12, accepted := s.time.si, order := s.sched.nextOrder, packet := (embedded c.ring c.params).2, opcode := pField c.params 32 2
    reply := some (c.home, (embedded c.ring c.params).2.tag), repeats := pField c.params 12 4 ≠ 1, first := pField c.params 0 12
    count := pField c.params 12 4, period := pField c.params 16 12 }

/-- The table after SCHEDULE with entry number k. -/
def State.scheduledAt (s : State) (c : Ctx) (k : Nat) : Sched :=
  { s.sched with entries := tput s.sched.entries k (scheduledEntry s c), nextOrder := s.sched.nextOrder + 1 }

/-- The state in which SCHEDULE has put its entry into the table. -/
def State.scheduling (s : State) (c : Ctx) (k : Nat) : State := { s with sched := s.scheduledAt c k }

/-- An entry that is not due yet waits in the table. -/
theorem scheduleEffect_waits {s : State} {c : Ctx} {k : Nat} (hf : s.sched.free = some k) (hd : s.stNow s.boundary < pField c.params 0 12) :
    scheduleEffect c s = (s.scheduling c k).finish c [k] := by
  have hn : ((s.scheduling c k).finish c [k]).entryDue (scheduledEntry s c)
      ((s.scheduling c k).finish c [k]).boundary = false := by
    have ha := answered_finish (s.scheduling c k) c [k]
    refine decide_eq_false ?_
    rw [ha.stNow, ha.boundary]
    exact not_le.2 hd
  unfold scheduleEffect
  rw [hf]
  change (match schedSpec (pField c.params 32 2) with
    | some o => if ((s.scheduling c k).finish c [k]).entryDue (scheduledEntry s c)
        ((s.scheduling c k).finish c [k]).boundary then _ else _
    | none => _) = _
  split
  · exact if_neg (ne_true_of_eq_false hn)
  · rfl

/-! #### UNSCHEDULE -/

/-- SELECT 0 names the entry of the number given. -/
theorem unscheduled_number {s : State} {p : List Byte} (h : pField p 0 1 = 0) :
    unscheduled s p = s.sched.entries.filter (fun x => x.1 = pField p 4 2) := by
  unfold unscheduled
  rw [h]
  rfl

/-- UNSCHEDULE of one entry whose due boundary has not begun takes it out. -/
theorem answered_unscheduleEffect {s : State} {c : Ctx} {k : Nat} {e : SchedEntry} (h : unscheduled s c.params = [(k, e)]) (hb : s.begun e = false) :
    Answered { s with sched := { s.sched with entries := s.sched.entries.filter (fun x => x.1 ≠ k) } } (unscheduleEffect c s) := by
  have hes : (unscheduled s c.params).filter (fun x => !s.begun x.2) = [(k, e)] := by
    rw [h]
    simp [hb]
  have hentries : s.sched.entries.filter (fun x => !([(k, e)] : List (Nat × SchedEntry)).any (fun y => y.1 = x.1)) =
      s.sched.entries.filter (fun x => x.1 ≠ k) := by
    simp [eq_comm]
  unfold unscheduleEffect
  rw [hes]
  dsimp only
  rw [hentries]
  refine (answered_finish _ _ _).after (Answered.foldl _ (fun s e => ?_) _ _)
  split
  · split
    · exact Answered.refl s
    · exact answered_postEntry _ _
  · exact Answered.refl s

/-! #### Executions -/

/-- A repeating entry goes on at the first time of its grid that is not reached yet (R72). -/
theorem SchedEntry.advance_grid (e : SchedEntry) (now : Nat) (hp : 0 < e.period) :
    e.done < (e.advance now).done ∧ now < e.first + (e.advance now).done * e.period ∧
      ((e.advance now).done = e.done + 1 ∨ e.first + ((e.advance now).done - 1) * e.period ≤ now) := by
  by_cases h : now < e.first
  · have hm : (e.advance now).done = e.done + 1 := if_pos (by simp [h])
    rw [hm]
    exact ⟨Nat.lt_succ_self _, lt_of_lt_of_le h (Nat.le_add_right _ _), .inl rfl⟩
  · have hm : (e.advance now).done = max (e.done + 1) ((now - e.first) / e.period + 1) := if_neg (by simp [h, hp.ne'])
    have hdiv : (now - e.first) / e.period * e.period ≤ now - e.first := Nat.div_mul_le_self _ _
    have hlt : now - e.first < ((now - e.first) / e.period + 1) * e.period := by
      rw [Nat.mul_comm]
      exact Nat.lt_mul_div_succ _ hp
    have hmax := Nat.mul_le_mul_right e.period (le_max_right (e.done + 1) ((now - e.first) / e.period + 1))
    rw [hm]
    refine ⟨lt_of_lt_of_le (Nat.lt_succ_self _) (le_max_left _ _), by omega, ?_⟩
    rcases max_choice (e.done + 1) ((now - e.first) / e.period + 1) with hc | hc
    · exact .inl hc
    · rw [hc, Nat.add_sub_cancel]
      exact .inr (by omega)

/-- The context of entry k as it executes. -/
def SchedEntry.ctx (e : SchedEntry) (k : Nat) (late : Bool) : Ctx :=
  { origin := { kind := 2, id := k }, reply := if e.repeats then none else e.reply, opcode := e.opcode, params := e.packet.params, sched := true
    late := late || e.casLate, ring := e.packet.ring.val }

/-- The table as entry k executes at ST `now`: it leaves, or waits for its next time. -/
def Sched.executed (x : Sched) (k : Nat) (e : SchedEntry) (now : Nat) : Sched :=
  { x with entries := if e.repeats && (e.count = 0 || decide ((e.advance now).done < e.count)) then tput x.entries k (e.advance now) else tdel x.entries k }

/-- The state in which entry k is carried out or refused. -/
def State.executing (s : State) (k : Nat) (e : SchedEntry) (late : Bool) (b : SI) : State :=
  let x : State := { s with sched := s.sched.executed k e (s.stNow b) }
  if late then x.schedLate else x

/-- An entry of an opcode whose due ST a cascade's root does not adapt. -/
theorem executeEntry_eq {o : OpSpec} (ho : ∀ s p, o.adapt s p = (p, false)) (s : State) (k : Nat) (e : SchedEntry) (late : Bool) (b : SI) :
    s.executeEntry o k e late b = match (o.gate (s.executing k e late b) (e.ctx k late)).or (o.late (s.executing k e late b) (e.ctx k late)) with
      | some st => (((if st = stLogFull then (s.executing k e late b).countLogFull else s.executing k e late b).schedFail).change
          { kind := 2, id := k } e.opcode st e.packet.params b).completeLogged (e.ctx k late) st 0 []
      | none => o.carry (e.ctx k late) (s.executing k e late b) := by
  unfold State.executeEntry
  dsimp only
  rw [ho, ite_self]
  change (match (o.gate (s.executing k e late b) (e.ctx k late)).or (o.late (s.executing k e late b) (e.ctx k late)) with
    | some st => _
    | none => if e.packet.atSt ≠ e.packet.atSt then _ else _) = _
  split
  · rfl
  · exact if_neg (not_not.2 rfl)

/-- The table with one more late execution, or as it is. -/
def Sched.countLate (x : Sched) (late : Bool) : Sched := if late then { x with lateCnt := satInc 8 x.lateCnt } else x

theorem placed_executing (s : State) (k : Nat) (e : SchedEntry) (late : Bool) (b : SI) :
    Placed { s with sched := (s.sched.executed k e (s.stNow b)).countLate late } (s.executing k e late b) := by
  unfold State.executing Sched.countLate
  cases late with
  | false => exact Placed.refl _
  | true => exact placed_raise _ 42

theorem executing_raised {s : State} {k : Nat} {e : SchedEntry} {late : Bool} {b : SI} (h : late = true) :
    42 ∈ (s.executing k e late b).events.raised := by
  subst h
  exact raise_mem _ 42

/-- An entry for a single time leaves the table. -/
theorem Sched.executed_once {x : Sched} {k : Nat} {e : SchedEntry} {now : Nat} (h : e.repeats = false) :
    (x.executed k e now).entries = tdel x.entries k := if_neg (by simp [h])

/-- An entry that repeats without end waits for its next time. -/
theorem Sched.executed_again {x : Sched} {k : Nat} {e : SchedEntry} {now : Nat} (h : e.repeats = true) (hc : e.count = 0) :
    (x.executed k e now).entries = tput x.entries k (e.advance now) := if_pos (by simp [h, hc])

/-- The table with one more execution that failed. -/
def Sched.countFail (x : Sched) : Sched := { x with failCnt := satInc 8 x.failCnt }

theorem placed_schedFail (s : State) : Placed { s with sched := s.sched.countFail } s.schedFail := placed_raise _ 43

/-- A NOP is carried out in doubt too, where the log takes its record. -/
theorem executeEntry_nop {s : State} {k : Nat} {e : SchedEntry} {late : Bool} {b : SI} (h : s.log.canReserve 1 = true) :
    s.executeEntry opNop k e late b = (s.executing k e late b).finish (e.ctx k late) [] := by
  have hlog : (s.executing k e late b).log.canReserve 1 = true := by
    rw [(placed_executing s k e late b).log]
    exact h
  have hg : opNop.gate (s.executing k e late b) (e.ctx k late) = none := by
    unfold OpSpec.gate
    rw [if_neg (by simp [opNop, inDoubtYes]), if_neg (by simp [opNop, hlog])]
  have hl : opNop.late (s.executing k e late b) (e.ctx k late) = none := rfl
  rw [executeEntry_eq (fun _ _ => rfl), hg, hl]
  rfl

/-- The state after a command that doubt refuses. -/
def State.doubted (x : State) (k : Nat) (e : SchedEntry) (late : Bool) (b : SI) : State :=
  ((x.executing k e late b).schedFail.change { kind := 2, id := k } e.opcode stDoubt e.packet.params b).completeLogged (e.ctx k late) stDoubt 0 []

/-- What doubt refuses is recorded with its status, and ends. -/
theorem executeEntry_doubt {s : State} {o : OpSpec} {k : Nat} {e : SchedEntry} {late : Bool} {b : SI} (ho : ∀ s p, o.adapt s p = (p, false))
    (hd : ∀ s p, o.doubtOk s p = false) (h : s.safe.causes ≠ 0) : s.executeEntry o k e late b = s.doubted k e late b := by
  have hin : (s.executing k e late b).inDoubt = true := by
    unfold State.inDoubt
    rw [(placed_executing s k e late b).safe]
    exact decide_eq_true h
  have hg : o.gate (s.executing k e late b) (e.ctx k late) = some stDoubt := by
    unfold OpSpec.gate
    rw [if_pos (by rw [hin, hd]; rfl)]
  rw [executeEntry_eq ho, hg]
  rfl

section Due
variable {s : State} {t : SI} {k : Fin 256} {e : SchedEntry}

theorem exec_schedulerEntryDue_free (h : tfind s.sched.entries k.val = none) : exec (.schedulerEntryDue t k) s = .next (s.moment t) := by
  show execSchedulerEntryDue t k s = _
  unfold execSchedulerEntryDue
  dsimp only
  rw [show tfind (s.moment t).sched.entries k.val = none from h]

theorem exec_schedulerEntryDue_early (h : tfind s.sched.entries k.val = some e) (hd : (s.moment t).stNow (s.moment t).boundary < e.due) :
    exec (.schedulerEntryDue t k) s = .next (s.moment t) := by
  have hn : ¬ ((s.moment t).entryReady e (s.moment t).boundary && (s.moment t).entryFirst e (s.moment t).boundary) = true := by
    unfold State.entryReady State.entryDue
    rw [decide_eq_false (not_le.2 hd)]
    simp
  show execSchedulerEntryDue t k s = _
  unfold execSchedulerEntryDue
  dsimp only
  rw [show tfind (s.moment t).sched.entries k.val = some e from h]
  dsimp only
  split
  · rfl
  · exact if_neg hn

/-- Entry e has come due, is prepared, and was accepted first of all. -/
def dueFirst (s : State) (t : SI) (e : SchedEntry) : Prop :=
  e.due ≤ (s.moment t).stNow (s.moment t).boundary ∧ e.accepted + 80000 ≤ (s.moment t).boundary ∧ ∀ x ∈ s.sched.entries, e.order ≤ x.2.order

/-- Entry e was due at the boundary before. -/
def dueBefore (s : State) (t : SI) (e : SchedEntry) : Bool :=
  decide (16 ≤ (s.moment t).boundary) && (s.moment t).entryDue e ((s.moment t).boundary - 16)

theorem exec_schedulerEntryDue_due {o : OpSpec} (hq : quiet s) (h : tfind s.sched.entries k.val = some e) (ho : schedSpec e.opcode = some o)
    (hr : dueFirst s t e) : exec (.schedulerEntryDue t k) s =
      .next ((s.moment t).executeEntry o k.val e (dueBefore s t e) (s.moment t).boundary).pump := by
  obtain ⟨hd, hp, hf⟩ := hr
  have hready : (s.moment t).entryReady e (s.moment t).boundary = true := by
    unfold State.entryReady State.entryDue
    rw [decide_eq_true hd, decide_eq_true (show e.accepted + prepSlots ≤ _ from hp), show (s.moment t).safe.swapping = false from hq.swap,
      show (s.moment t).safe.coreDown = false from hq.up]
    rfl
  have hfirst : (s.moment t).entryFirst e (s.moment t).boundary = true :=
    List.all_eq_true.2 fun x hx => Bool.or_eq_true_iff.2 (.inl (decide_eq_true (hf x hx)))
  show execSchedulerEntryDue t k s = _
  unfold execSchedulerEntryDue
  dsimp only
  rw [show tfind (s.moment t).sched.entries k.val = some e from h]
  dsimp only
  rw [ho]
  exact if_pos (Bool.and_eq_true_iff.2 ⟨hready, hfirst⟩)

end Due

/-- What a quiet state's execution that only answers leaves, when the rings have gone on. -/
theorem pump_rescheduled {s r : State} {t : SI} {x : Sched} (hq : quiet s) (h : Answered { s.moment t with sched := x } r) :
    Answered r r.pump ∧ r.pump.log = r.log := by
  have hf : ∀ n, (r.ring n).fetched = [] := fun n => (h.fetched n).trans (quiet_fetched s hq n)
  exact ⟨answered_pump r hf, (pump_log_hold r hf).1⟩

/-! #### The rows -/

theorem leNat_lt (l : List Byte) : leNat l < 256 ^ l.length := by
  induction l with
  | nil => exact Nat.one_pos
  | cons b rest ih =>
    have hb := b.isLt
    have hc : leNat (b :: rest) = b.toNat + 256 * leNat rest := rfl
    rw [hc, List.length_cons, pow_succ]
    omega

/-- A field of bytes cut out is a field of what they are cut from. -/
theorem pField_pBytes (p : List Byte) {ofs n i k : Nat} (h : i + k ≤ n) : pField (pBytes p ofs n) i k = pField p (ofs + i) k := by
  unfold pField pBytes
  rw [List.drop_take, List.take_take, List.drop_drop, min_eq_left (by omega)]

theorem pField_two_lt (p : List Byte) (ofs : Nat) : pField p ofs 2 < 2 ^ 16 :=
  lt_of_lt_of_le (leNat_lt _) (Nat.pow_le_pow_right (n := 256) (by decide) (List.length_take_le 2 _))

/-- The TAG of the embedded packet is that of its header. -/
theorem embedded_tag (r : Nat) (p : List Byte) : (embedded r p).2.tag.toNat = pField p 34 2 := by
  have h : (embedded r p).2.tag.toNat = pField (pBytes p 32 64) 2 2 % 2 ^ 16 := rfl
  rw [h, pField_pBytes p (by decide), Nat.mod_eq_of_lt (pField_two_lt p _)]

theorem embedded_ring (r : Fin 16) (p : List Byte) : (embedded r.val p).2.ring = r := Fin.ext (Nat.mod_eq_of_lt r.isLt)

/-- A packet that passes steps 9 and 10 of R435. -/
theorem late_none {o : OpSpec} {s : State} {c : Ctx} (h : o.late s c = none) : o.badState s c = false ∧ o.busy s c = false := by
  unfold OpSpec.late at h
  split at h
  · exact absurd h (by simp)
  · split at h
    · exact absurd h (by simp)
    · split at h
      · exact absurd h (by simp)
      · exact ⟨Bool.eq_false_iff.2 ‹_›, Bool.eq_false_iff.2 ‹_›⟩

/-- Of its ring, an accepted packet changes two counters. -/
theorem taken_ring (s : State) (t : SI) (p : Packet) : ∃ u a, (taken s t p).ring p.ring.val = { s.ring p.ring.val with unreplied := u, accepted := a } := by
  unfold taken entered
  rw [State.modRing_ring, if_pos rfl, State.modRing_ring, if_pos rfl]
  exact ⟨_, _, rfl⟩

/-- SCHEDULE's own entry is given. -/
theorem ends_scheduling {s s' : State} {t : SI} {p : Packet} {n : Nat} (he : (s.ring p.ring.val).enable = true) (hq : (s.ring p.ring.val).cqLog2 ≠ 0)
    (hs : Silent (((taken s t p).scheduling (packetCtx 0x0110 p) n).finish (packetCtx 0x0110 p) [n]) s')
    (hl : s'.log = (((taken s t p).scheduling (packetCtx 0x0110 p) n).finish (packetCtx 0x0110 p) [n]).log) :
    ends s s' p 0x0110 0x00 (fun w => w = [n]) := by
  obtain ⟨u, a, hring⟩ := taken_ring s t p
  have hring' : ((taken s t p).scheduling (packetCtx 0x0110 p) n).ring p.ring.val = _ := hring
  refine ends_finish (x := (taken s t p).scheduling (packetCtx 0x0110 p) n) rfl rfl rfl ?_ ?_ hs hl
  · rw [hring']
    exact hq
  · rw [hring']
    exact he

theorem Sched.countLate_eq (x : Sched) (late : Bool) :
    x.countLate late = { x with lateCnt := if late then min (x.lateCnt + 1) 255 else x.lateCnt } := by
  cases late <;> rfl

/-- A state after an execution of entry k at boundary b: what O28 says of the table, of the log and of the rest. -/
structure Executed (x : State) (k : Nat) (e : SchedEntry) (late : Bool) (b : SI) (fails : Nat) (s' : State) : Prop where
  frame : onlyAnswers { x with sched := s'.sched } s'
  sched : s'.sched = { x.sched with
    entries := (x.sched.executed k e (x.stNow b)).entries, failCnt := fails, lateCnt := if late then min (x.sched.lateCnt + 1) 255 else x.sched.lateCnt }
  raised : late = true → 42 ∈ s'.events.raised
  count : s'.log.count = x.log.count + 1

section
variable {x s' : State} {k : Nat} {e : SchedEntry} {late : Bool} {b : SI} {fails : Nat} (h : Executed x k e late b fails s')
include h

theorem Executed.entries : s'.sched.entries = (x.sched.executed k e (x.stNow b)).entries := (congrArg Sched.entries h.sched :)

theorem Executed.failCnt : s'.sched.failCnt = fails := (congrArg Sched.failCnt h.sched :)

theorem Executed.nextOrder : s'.sched.nextOrder = x.sched.nextOrder := (congrArg Sched.nextOrder h.sched :)

theorem Executed.lateCnt : s'.sched.lateCnt = if late then min (x.sched.lateCnt + 1) 255 else x.sched.lateCnt := (congrArg Sched.lateCnt h.sched :)

end

section Executed
variable {s : State} {t : SI} {k : Nat} {e : SchedEntry} {late : Bool} {b : SI}

/-- What leaves of an execution the table x, its record and event 42, and then the rings. -/
theorem executed_of {r : State} {x : Sched} {fails : Nat} (hq : quiet s) (h : Answered { s.moment t with sched := x } r)
    (hx : x = { s.sched with
      entries := (s.sched.executed k e ((s.moment t).stNow b)).entries, failCnt := fails
      lateCnt := if late then min (s.sched.lateCnt + 1) 255 else s.sched.lateCnt })
    (hr : late = true → 42 ∈ r.events.raised) (hc : r.log.count = s.log.count + 1) :
    Executed (s.moment t) k e late b fails r.pump ∧ ∀ n, n ∈ r.events.raised → n ∈ r.pump.events.raised := by
  obtain ⟨hp, hlog⟩ := pump_rescheduled hq h
  have ha := h.trans hp
  refine ⟨⟨?_, ha.sched.trans hx, fun hl => hp.raised _ (hr hl), (congrArg Log.count hlog).trans hc⟩, hp.raised⟩
  rw [ha.sched]
  exact ha.only

/-- A NOP that is carried out. -/
theorem executed_nop (hq : quiet s) :
    Executed (s.moment t) k e late b s.sched.failCnt (((s.moment t).executing k e late b).finish (e.ctx k late) []).pump := by
  have hp := placed_executing (s.moment t) k e late b
  have hf := answered_finish ((s.moment t).executing k e late b) (e.ctx k late) []
  refine (executed_of hq (hp.answered.trans hf) (Sched.countLate_eq _ _) (fun hl => hf.raised _ (executing_raised hl)) ?_).1
  rw [finish_count, hp.log]
  rfl

/-- A command that doubt refuses is counted in FAIL_CNT, with event 43. -/
theorem executed_doubt (hq : quiet s) : Executed (s.moment t) k e late b (min (s.sched.failCnt + 1) 255) ((s.moment t).doubted k e late b).pump ∧
    43 ∈ ((s.moment t).doubted k e late b).pump.events.raised := by
  have hp := placed_executing (s.moment t) k e late b
  have hfail := placed_schedFail ((s.moment t).executing k e late b)
  have hch := answered_change ((s.moment t).executing k e late b).schedFail { kind := 2, id := k } e.opcode stDoubt e.packet.params b
  have hend : Answered _ ((s.moment t).doubted k e late b) := answered_completeLogged _ (e.ctx k late) stDoubt 0 []
  have hall := ((hp.setSched ((s.moment t).executing k e late b).sched.countFail).trans hfail).answered.trans (hch.trans hend)
  have hx := executed_of (k := k) (e := e) (late := late) (b := b) (fails := min (s.sched.failCnt + 1) 255) hq hall ?_
    (fun hl => hend.raised _ (hch.raised _ (hfail.raised _ (executing_raised hl)))) ?_
  · exact ⟨hx.1, hx.2 _ (hend.raised _ (hch.raised _ (raise_mem _ 43)))⟩
  · rw [hp.sched, Sched.countLate_eq]
    rfl
  · unfold State.doubted
    rw [completeLogged_count, (change_log _ _ _ _ _ _).1, hfail.log, hp.log]
    rfl

end Executed

end Sys2Proof.Machine

namespace Sys2Proof.Proofs

open Sys2Proof.Machine Sys2Proof.Safety

/-- Settles O28. SCHEDULE and UNSCHEDULE are a change of the table and an answer (`packetIn_rescheduled`); an execution is the table of `Sched.executed`, the
late count, and what the command's gate lets through or doubt refuses (`Executed`). -/
theorem scheduledCommands : Obligations.ScheduledCommands := by
  unfold Obligations.ScheduledCommands
  intro s t p k e f b now ready late counted
  have hnop : ∀ {op : Nat}, op = 0x0001 → schedSpec op = some opNop := by
    rintro _ rfl
    rfl
  have hepoch : ∀ {op : Nat}, op = 0x0102 → schedSpec op = some opSetEpoch := by
    rintro _ rfl
    rfl
  have hlate : dueBefore s t e = true ↔ late := by
    unfold dueBefore
    rw [Bool.and_eq_true_iff, decide_eq_true_iff]
    exact and_congr_right fun _ => decide_eq_true_iff
  have hcounted : ∀ {s' : State}, Executed (s.moment t) k.val e (dueBefore s t e) b s.sched.failCnt s' → counted s' := fun h =>
    ⟨h.failCnt, h.nextOrder, h.lateCnt.trans (if_congr hlate rfl rfl),
      fun hl => h.raised (hlate.2 hl)⟩
  refine ⟨fun h hq hd => ?schedule, fun h h0 hone => ?unschedule, fun _ => exec_schedulerEntryDue_free, fun _ => exec_schedulerEntryDue_early,
    fun hq hk hr ho hl => ?nop, fun hq hk hr ho hrep hc => ?doubt⟩
  case schedule =>
    obtain ⟨n, hn⟩ := Option.isSome_iff_exists.1 (Option.isNone_eq_false_iff.1 (late_none h.late).2)
    have hx := answered_finish ((taken s t p).scheduling (packetCtx 0x0110 p) n) (packetCtx 0x0110 p) [n]
    obtain ⟨ha, hsil, hlog⟩ := packetIn_rescheduled h hx (scheduleEffect_waits (s := taken s t p) hn hd)
    obtain ⟨hlt, hfree, hleast⟩ := Sched.free_eq hn
    have hsched := ha.sched
    have hends := ends_scheduling (n := n) h.enabled hq hsil hlog
    have hcount : (s.packetIn t opSchedule p).log.count = s.log.count + 1 := (congrArg Log.count hlog).trans (finish_count _ _ _)
    refine ⟨s.packetIn t opSchedule p, rfl, ?_, hcount, n, hlt, hfree, hleast, hends, congrArg Sched.nextOrder hsched,
      scheduledEntry (taken s t p) (packetCtx 0x0110 p), congrArg Sched.entries hsched, ?_⟩
    · rw [hsched]
      exact ha.only
    · exact ⟨rfl, rfl, rfl, rfl, embedded_ring _ _, embedded_tag _ _, rfl, rfl, rfl, rfl, decide_eq_true_iff⟩
  case unschedule =>
    have hk : unscheduled (taken s t p) p.params = [(f 4 2, e)] := (unscheduled_number h0).trans hone
    have hbad : unscheduleBadState (taken s t p) p.params = false := (late_none h.late).1
    have hb : (taken s t p).begun e = false := by
      unfold unscheduleBadState at hbad
      rw [hk, show pField p.params 0 1 = 0 from h0] at hbad
      simpa using hbad
    obtain ⟨ha, -, -⟩ := packetIn_rescheduled h (answered_unscheduleEffect (c := packetCtx 0x0111 p) hk hb) rfl
    exact ⟨_, rfl, ha.only⟩
  case nop =>
    have hrun := exec_schedulerEntryDue_due (t := t) hq hk (hnop ho) hr
    rw [executeEntry_nop (s := s.moment t) hl] at hrun
    have hx := executed_nop (t := t) (k := k.val) (e := e) (late := dueBefore s t e) (b := (s.moment t).boundary) hq
    refine ⟨_, hrun, hx.frame, hcounted hx, hx.count, fun hrep => ?_, fun hrep hc hp => ?_⟩
    · exact hx.entries.trans (Sched.executed_once hrep)
    · obtain ⟨h1, h2, h3⟩ := e.advance_grid now hp
      exact ⟨_, h1, h2, h3, hx.entries.trans (Sched.executed_again hrep hc)⟩
  case doubt =>
    have hrun := exec_schedulerEntryDue_due (t := t) hq hk (hepoch ho) hr
    rw [executeEntry_doubt (s := s.moment t) (fun _ _ => rfl) (fun _ _ => rfl) hc] at hrun
    obtain ⟨hx, h43⟩ := executed_doubt (t := t) (k := k.val) (e := e) (late := dueBefore s t e) (b := (s.moment t).boundary) hq
    exact ⟨_, hrun, hx.frame, hx.failCnt, h43, hx.entries.trans (Sched.executed_once hrep), hx.count⟩

end Sys2Proof.Proofs

/-! ### One cell changed (R88, R89, R92, R100) -/

namespace Sys2Proof.Machine

open Sys2Proof.Safety

/-- s' comes from s by a change of the cells, and by what placing records and the reductions change. -/
def Celled (s s' : State) : Prop := Reduced { s with cells := s'.cells } s'

/-- The cells apart, what the reductions do stays. -/
theorem Reduced.setCells {s s' : State} (h : Reduced s s') (x : Tab Cell) : Reduced { s with cells := x } { s' with cells := x } :=
  ⟨congrArg (fun z : State => { z with cells := x }) h.still, h.cfg, h.raised, h.posted⟩

theorem Reduced.celled {s s' : State} (h : Reduced s s') : Celled s s' := h.setCells s'.cells

theorem Reduced.cells {s s' : State} (h : Reduced s s') : s'.cells = s.cells := (congrArg (fun x : State => x.cells) h.still :)

theorem Reduced.cell {s s' : State} (h : Reduced s s') (k : Nat) : s'.cell k = s.cell k := by simp only [State.cell, h.cells]

theorem Celled.refl (s : State) : Celled s s := Reduced.refl s

theorem Celled.trans {a b c : State} (h : Celled a b) (k : Celled b c) : Celled a c := (Reduced.setCells h c.cells).trans k

/-- The same, the last step named first. -/
theorem Celled.after {a b c : State} (k : Celled b c) (h : Celled a b) : Celled a c := h.trans k

theorem Celled.foldl {β : Type} (f : State → β → State) (hf : ∀ s x, Celled s (f s x)) (l : List β) (s : State) : Celled s (l.foldl f s) := by
  induction l generalizing s with
  | nil => exact Celled.refl s
  | cons x rest ih => exact (hf s x).trans (ih _)

theorem Celled.time {s s' : State} (h : Celled s s') : s'.time = s.time := (congrArg (fun x : State => x.time) (Reduced.still h) :)

/-- s' comes from s by making channel c's cell y, and by what placing records and the reductions change. No other cell changes. -/
structure CellSet (c : Nat) (y : Cell) (s s' : State) : Prop where
  rest : Celled s s'
  others : ∀ k, k ≠ c → s'.cell k = s.cell k
  own : s'.cell c = y

theorem cellSet_modCell (s : State) (c : Nat) (f : Cell → Cell) : CellSet c (f (s.cell c)) s (s.modCell c f) :=
  ⟨Reduced.refl _, fun k hk => by rw [State.modCell_cell, if_neg hk], by rw [State.modCell_cell, if_pos rfl]⟩

theorem Reduced.cellSet {s s' : State} (h : Reduced s s') (c : Nat) : CellSet c (s.cell c) s s' := ⟨h.celled, fun k _ => h.cell k, h.cell c⟩

theorem CellSet.trans {c : Nat} {y z : Cell} {a b d : State} (h : CellSet c y a b) (k : CellSet c z b d) : CellSet c z a d :=
  ⟨h.rest.trans k.rest, fun j hj => (k.others j hj).trans (h.others j hj), k.own⟩

/-- What changes no cell may follow. -/
theorem CellSet.reduced {c : Nat} {y : Cell} {a b d : State} (h : CellSet c y a b) (k : Reduced b d) : CellSet c y a d :=
  ⟨h.rest.trans k.celled, fun j hj => (k.cell j).trans (h.others j hj), (k.cell c).trans h.own⟩

/-- What making a cell another leaves, as the statements say it. -/
theorem CellSet.only {c : Nat} {y : Cell} {x s' : State} (h : CellSet c y x s') :
    onlyPlaces { x with cells := s'.cells } s' ∧ ∀ k, k ≠ c → s'.cell k = x.cell k := ⟨Reduced.only h.rest, h.others⟩

/-! #### The bracket of channel doubt (R89) -/

theorem ChDoubt.causes_eq_zero (d : ChDoubt) : d.causes = 0 ↔ (d.settling || d.stuck || d.oor || d.deskew) = false := by
  obtain ⟨_ | _, _ | _, _ | _, _ | _⟩ := d <;> decide

/-- The cell with doubt d: the bracket of an enabled channel opens with the first cause, and it closes with the last. -/
def Cell.doubted (x : Cell) (d : ChDoubt) : Cell :=
  { x with doubt := d, doubtOpen := if d.settling || d.stuck || d.oor || d.deskew then x.doubtOpen || x.enable else false }

/-- The same, what holds of the causes put in for them. -/
theorem Cell.doubted_eq {x : Cell} {d : ChDoubt} {b : Bool} (h : (d.settling || d.stuck || d.oor || d.deskew) = b) :
    x.doubted d = { x with doubt := d, doubtOpen := if b then x.doubtOpen || x.enable else false } := by
  subst h
  rfl

/-- Where the bracket opens and closes, as the operation has it. -/
theorem Cell.doubtOpen_eq (x : Cell) (d : ChDoubt) :
    ((x.doubtOpen || (x.enable && !x.doubtOpen && decide (d.causes ≠ 0))) && !(x.doubtOpen && decide (d.causes = 0))) = (x.doubted d).doubtOpen := by
  have hd := d.causes_eq_zero
  unfold Cell.doubted
  cases hc : d.settling || d.stuck || d.oor || d.deskew with
  | false =>
    have h0 : d.causes = 0 := hd.2 hc
    simp [h0]
  | true =>
    have h0 : d.causes ≠ 0 := fun h => by simp [hd.1 h] at hc
    cases x.doubtOpen <;> simp [h0]

theorem placed_placeCh (s : State) (c : Nat) (r : Rec) : Placed s (s.placeCh c r) := placed_place _ _ _

theorem cellSet_setDoubt (s : State) (c : Nat) (d : ChDoubt) (x : SI) : CellSet c ((s.cell c).doubted d) s (s.setDoubt c d x) := by
  unfold State.setDoubt
  extract_lets cell old new opens closes joins s1 s2
  have hy : ({ s.cell c with doubt := d, doubtOpen := (cell.doubtOpen || opens) && !closes } : Cell) = (s.cell c).doubted d :=
    congrArg (fun o => ({ s.cell c with doubt := d, doubtOpen := o } : Cell)) ((s.cell c).doubtOpen_eq d)
  have h1 : CellSet c ((s.cell c).doubted d) s s1 := hy ▸ cellSet_modCell s c (fun y => { y with doubt := d, doubtOpen := (y.doubtOpen || opens) && !closes })
  have h2 : CellSet c ((s.cell c).doubted d) s s2 := by
    show CellSet c _ s (if _ then _ else _)
    split
    · exact h1.reduced (reduced_modRegion s1 _ _ rfl)
    · exact h1
  split
  · exact h2.reduced (placed_placeCh _ _ _).reduced
  · split
    · exact h2.reduced (placed_placeCh _ _ _).reduced
    · split
      · exact h2.reduced (placed_placeCh _ _ _).reduced
      · exact h2

/-- A cell changed by f, and then in doubt d. -/
theorem cellSet_modCell_setDoubt (s : State) (c : Nat) (f : Cell → Cell) (d : ChDoubt) (x : SI) :
    CellSet c ((f (s.cell c)).doubted d) s ((s.modCell c f).setDoubt c d x) := by
  have h := cellSet_setDoubt (s.modCell c f) c d x
  rw [State.modCell_cell, if_pos rfl] at h
  exact (cellSet_modCell s c f).trans h

/-! #### The rows that begin and end a cause -/

section Rows
variable {s : State} {t : SI} {ch : Fin 1024} {u : SI}

/-- Before the end of its settle window the channel waits. -/
theorem exec_settleWindowEnd_early (h : ∀ u, (s.cell ch.val).settleUntil = some u → (s.moment t).time.si < u) :
    exec (.settleWindowEnd t ch) s = .next (s.moment t) := by
  show execSettleWindowEnd t ch s = _
  unfold execSettleWindowEnd
  simp only [State.moment_cell]
  split
  · rfl
  next u hu => exact if_pos (h u hu)

theorem exec_settleWindowEnd_due (hu : (s.cell ch.val).settleUntil = some u) (h : u ≤ (s.moment t).time.si) :
    exec (.settleWindowEnd t ch) s = .next (((s.moment t).modCell ch.val (fun y => { y with settleUntil := none })).setDoubt ch.val
      { (s.cell ch.val).doubt with settling := false } u) := by
  show execSettleWindowEnd t ch s = _
  unfold execSettleWindowEnd
  simp only [State.moment_cell, hu]
  exact if_neg (Nat.not_lt.2 h)

/-- Before the end of the doubt of its deskew the channel waits. -/
theorem exec_deskewDoubtEnd_early (h : ∀ u, (s.cell ch.val).deskewUntil = some u → (s.moment t).time.si < u) :
    exec (.deskewDoubtEnd t ch) s = .next (s.moment t) := by
  show execDeskewDoubtEnd t ch s = _
  unfold execDeskewDoubtEnd
  simp only [State.moment_cell]
  split
  · rfl
  next u hu => exact if_pos (h u hu)

theorem exec_deskewDoubtEnd_due (hu : (s.cell ch.val).deskewUntil = some u) (h : u ≤ (s.moment t).time.si) :
    exec (.deskewDoubtEnd t ch) s = .next (((s.moment t).modCell ch.val (fun y => { y with deskewUntil := none })).setDoubt ch.val
      { (s.cell ch.val).doubt with deskew := false } u) := by
  show execDeskewDoubtEnd t ch s = _
  unfold execDeskewDoubtEnd
  simp only [State.moment_cell, hu]
  exact if_neg (Nat.not_lt.2 h)

/-- A disabled channel, or one that is out of range already, is not found out of range. -/
theorem exec_inputOutOfRange_none (h : (s.cell ch.val).enable = false ∨ (s.cell ch.val).doubt.oor = true) :
    exec (.inputOutOfRange t ch) s = .next (s.moment t) := by
  refine if_pos ?_
  rw [State.moment_cell, Bool.or_eq_true_iff, Bool.not_eq_true']
  exact h

theorem exec_inputOutOfRange_begins (he : (s.cell ch.val).enable = true) (ho : (s.cell ch.val).doubt.oor = false) :
    exec (.inputOutOfRange t ch) s = .next (((s.moment t).setDoubt ch.val { (s.cell ch.val).doubt with oor := true } (s.moment t).boundary).raise
      (regionEvent (chRegion ch.val) 2)) := by
  refine if_neg ?_
  simp [he, ho]

theorem exec_outOfRangeEnd_none (ho : (s.cell ch.val).doubt.oor = false) : exec (.outOfRangeEnd t ch) s = .next (s.moment t) :=
  if_neg (ne_true_of_eq_false ho)

theorem exec_outOfRangeEnd_ends (ho : (s.cell ch.val).doubt.oor = true) :
    exec (.outOfRangeEnd t ch) s = .next ((s.moment t).setDoubt ch.val { (s.cell ch.val).doubt with oor := false } (s.moment t).boundary) :=
  if_pos ho

end Rows

end Sys2Proof.Machine

namespace Sys2Proof.Proofs

open Sys2Proof.Machine Sys2Proof.Safety

/-- Settles O16: each row makes the channel's cell another by `State.setDoubt`, whose bracket is that of `Cell.doubted`. -/
theorem channelDoubtCauses : Obligations.ChannelDoubtCauses := by
  unfold Obligations.ChannelDoubtCauses
  intro s t ch x si only
  refine ⟨exec_settleWindowEnd_early, fun u hu h => ?settled, exec_deskewDoubtEnd_early, fun u hu h => ?deskewed, exec_inputOutOfRange_none,
    fun he ho => ?outOfRange, exec_outOfRangeEnd_none, fun ho => ?inRange⟩
  case settled =>
    have hx := cellSet_modCell_setDoubt (s.moment t) ch.val (fun y => { y with settleUntil := none }) { x.doubt with settling := false } u
    refine ⟨_, exec_settleWindowEnd_due hu h, hx.only, hx.own.trans (Cell.doubted_eq ?_)⟩
    simp only [Bool.false_or]
  case deskewed =>
    have hx := cellSet_modCell_setDoubt (s.moment t) ch.val (fun y => { y with deskewUntil := none }) { x.doubt with deskew := false } u
    refine ⟨_, exec_deskewDoubtEnd_due hu h, hx.only, hx.own.trans (Cell.doubted_eq ?_)⟩
    rw [Bool.or_false, Bool.or_assoc, Bool.or_comm]
  case outOfRange =>
    have hx := (cellSet_setDoubt (s.moment t) ch.val { x.doubt with oor := true } (s.moment t).boundary).reduced
      (placed_raise _ (regionEvent (chRegion ch.val) 2)).reduced
    refine ⟨_, exec_inputOutOfRange_begins he ho, hx.only, hx.own.trans ((Cell.doubted_eq (b := true) ?_).trans ?_), raise_mem _ _⟩
    · simp
    · rw [State.moment_cell, he]
      simp [x]
  case inRange =>
    have hx := cellSet_setDoubt (s.moment t) ch.val { x.doubt with oor := false } (s.moment t).boundary
    refine ⟨_, exec_outOfRangeEnd_ends ho, hx.only, hx.own.trans (Cell.doubted_eq ?_)⟩
    rw [Bool.or_false, Bool.or_comm x.doubt.settling]

end Sys2Proof.Proofs

/-! ### Settings that are given to several channels, and their answer (R100, R109 to R111) -/

namespace Sys2Proof.Machine

open Sys2Proof.Safety

/-! #### A command that sets something and ends -/

/-- s' comes from s by what the reductions do and by answering commands. Packets that wait stay as they are. -/
structure Served (s s' : State) : Prop where
  settled : s'.settled = s.settled
  cfg : ∀ r, (s'.region r).cfg = (s.region r).cfg
  raised : ∀ n, n ∈ s.events.raised → n ∈ s'.events.raised
  posted : ∃ l, s'.obs.posted = l ++ s.obs.posted
  fetched : ∀ n, (s'.ring n).fetched = (s.ring n).fetched

theorem Answered.served {s s' : State} (h : Answered s s') : Served s s' := ⟨h.settled, h.cfg, h.raised, h.posted, h.fetched⟩

theorem Reduced.served {s s' : State} (h : Reduced s s') : Served s s' := by
  have hc : s'.cmd = s.cmd := (congrArg (fun x : State => x.cmd) h.still :)
  exact ⟨congrArg (fun x : State => { x with log := {}, cmd := {}, tags := {} }) h.still, h.cfg, h.raised, h.posted, fun n => by simp only [State.ring, hc]⟩

theorem Served.trans {a b c : State} (h : Served a b) (k : Served b c) : Served a c := by
  obtain ⟨l, hl⟩ := h.posted
  obtain ⟨m, hm⟩ := k.posted
  exact ⟨k.settled.trans h.settled, fun r => (k.cfg r).trans (h.cfg r), fun n hn => k.raised n (h.raised n hn),
    ⟨m ++ l, by rw [hm, hl, List.append_assoc]⟩, fun n => (k.fetched n).trans (h.fetched n)⟩

/-- Apart from the regions it is what answering leaves. -/
theorem Served.only {x s' : State} (h : Served x s') : onlyAnswers x s' := by
  have ha : Answered { x with regions := s'.regions } s' := ⟨h.settled, fun _ => rfl, h.raised, h.posted, h.fetched⟩
  exact ⟨ha.only.rest, h.cfg, h.raised, h.posted⟩

theorem Served.cells {s s' : State} (h : Served s s') : s'.cells = s.cells := (congrArg (fun x : State => x.cells) h.settled :)
theorem Served.ivls {s s' : State} (h : Served s s') : s'.ivls = s.ivls := (congrArg (fun x : State => x.ivls) h.settled :)
theorem Served.engines {s s' : State} (h : Served s s') : s'.engines = s.engines := (congrArg (fun x : State => x.engines) h.settled :)
theorem Served.cutEngines {s s' : State} (h : Served s s') : s'.cutEngines = s.cutEngines := (congrArg (fun x : State => x.cutEngines) h.settled :)
theorem Served.seq0 {s s' : State} (h : Served s s') : s'.seq0 = s.seq0 := (congrArg (fun x : State => x.seq0) h.settled :)
theorem Served.cell {s s' : State} (h : Served s s') (c : Nat) : s'.cell c = s.cell c := by simp only [State.cell, h.cells]

/-- A ring that has taken a packet counts it as not yet answered, and as accepted (R434, R435). -/
def State.counted (s : State) (n : Nat) : State :=
  (s.modRing n (fun r => { r with unreplied := r.unreplied + 1 })).modRing n (fun r => { r with accepted := satInc 16 r.accepted })

theorem taken_eq (s : State) (t : SI) (p : Packet) : taken s t p = (s.moment t).counted p.ring.val := rfl

theorem answered_counted (s : State) (n : Nat) : Answered s (s.counted n) :=
  (Answered.modRing s n (fun r => { r with unreplied := r.unreplied + 1 }) (fun _ => rfl)).trans (Answered.modRing _ _ _ (fun _ => rfl))

/-- In a quiet state, going on after what answering and the reductions do only fetches. -/
theorem Served.goesOn {x e : State} (h : Served x e) (hq : quiet x) : Served x e.goOn := by
  have hs : e.startup = x.startup := (congrArg (fun z : State => z.startup) h.settled :)
  have hr : e.safe = x.safe := (congrArg (fun z : State => z.safe) h.settled :)
  refine h.trans (answered_goOn e ?_ ?_ fun n => (h.fetched n).trans (quiet_fetched x hq n)).served
  · rw [hs, hq.step]
    decide
  · rw [hr, hq.soft]

/-- An accepted packet of a command that sets something and ends: m is the state in which the new settings stand. -/
theorem packetIn_simply {s m : State} {t : SI} {o : OpSpec} {p : Packet} {f : List Byte → State → State} (h : accepted s t o p)
    (ho : o.effect = simply f) (hm : quiet m) (hf : Reduced (m.counted p.ring.val) (f p.params (taken s t p))) : Served m (s.packetIn t o p) := by
  have he : o.effect (packetCtx o.opcode p) (taken s t p) = (f p.params (taken s t p)).finish (packetCtx o.opcode p) [] := by
    rw [ho]
    rfl
  rw [packetIn_accepted s t o p h, he]
  exact (((answered_counted m _).served.trans hf.served).trans (answered_finish _ _ _).served).goesOn hm

/-- The same of a command that changes cells alone. -/
theorem packetIn_celled {s : State} {t : SI} {o : OpSpec} {p : Packet} {f : List Byte → State → State} (h : accepted s t o p)
    (ho : o.effect = simply f) (hf : Celled (taken s t p) (f p.params (taken s t p))) :
    onlyAnswers { s.moment t with cells := (s.packetIn t o p).cells } (s.packetIn t o p) ∧
      ∀ c, (s.packetIn t o p).cell c = (f p.params (taken s t p)).cell c := by
  obtain ⟨hready, hstep, hsoft, hup, hswap, hwaiting⟩ := h.quiet
  have hx := packetIn_simply (m := { s.moment t with cells := (f p.params (taken s t p)).cells }) h ho
    ⟨hready, hstep, hsoft, hup, hswap, hwaiting⟩ hf
  refine ⟨?_, hx.cell⟩
  rw [hx.cells]
  exact hx.only

/-! #### The channels that a command names (R109) -/

theorem modeEntries_keys (p : List Byte) (size : Nat) : (modeEntries p size).map Prod.fst = (List.range (pField p 2 2)).map (pField p 0 2 + ·) := by
  simp [modeEntries, Function.comp_def]

theorem modeEntries_nodup (p : List Byte) (size : Nat) : ((modeEntries p size).map Prod.fst).Nodup := by
  rw [modeEntries_keys]
  exact List.nodup_range.map fun _ _ h => Nat.add_left_cancel h

/-- A channel outside the range has no entry. -/
theorem not_mem_modeEntries {p : List Byte} {size c : Nat} (h : c < pField p 0 2 ∨ pField p 0 2 + pField p 2 2 ≤ c) :
    c ∉ (modeEntries p size).map Prod.fst := by
  rw [modeEntries_keys, List.mem_map]
  rintro ⟨k, hk, rfl⟩
  have := List.mem_range.1 hk
  omega

/-- The value that a command gives to the k-th of its channels: `size` bytes, one entry for all or one each. -/
def modeValue (p : List Byte) (size k : Nat) : Nat := pField p (8 + (if pField p 4 1 = 1 then k * size else 0)) size

/-- The k-th channel of the range has the entry whose number is the value for it. -/
theorem mem_modeEntries {p : List Byte} {k : Nat} (size : Nat) (h : k < pField p 2 2) :
    ∃ bs, leNat bs = modeValue p size k ∧ (pField p 0 2 + k, bs) ∈ modeEntries p size :=
  ⟨_, rfl, List.mem_map.2 ⟨k, List.mem_range.2 h, rfl⟩⟩

/-- Steps that each set one channel's cell, to one that has relation R to the cell before: of several channels, each is set once, and every other cell
stays. -/
theorem foldl_cellSet {β : Type} {key : β → Nat} {f : State → β → State} {R : β → Cell → Cell → Prop} {T : Time}
    (hf : ∀ s e, s.time = T → ∃ y, CellSet (key e) y s (f s e) ∧ R e (s.cell (key e)) y) {l : List β} (hn : (l.map key).Nodup) {s : State}
    (ht : s.time = T) :
    Celled s (l.foldl f s) ∧ (∀ e ∈ l, R e (s.cell (key e)) ((l.foldl f s).cell (key e))) ∧
      ∀ c, c ∉ l.map key → (l.foldl f s).cell c = s.cell c := by
  induction l generalizing s with
  | nil => exact ⟨Celled.refl s, nofun, fun _ _ => rfl⟩
  | cons a rest ih =>
    rw [List.map_cons, List.nodup_cons] at hn
    obtain ⟨ha, hn⟩ := hn
    obtain ⟨y, hy, hR⟩ := hf s a ht
    obtain ⟨hrest, hin, hout⟩ := ih hn (hy.rest.time.trans ht)
    refine ⟨hy.rest.trans hrest, fun e he => ?_, fun c hc => ?_⟩
    · rcases List.mem_cons.1 he with rfl | he
      · rw [List.foldl_cons, hout _ ha, hy.own]
        exact hR
      · have hne : key e ≠ key a := fun h => ha (h ▸ List.mem_map_of_mem he)
        rw [← hy.others _ hne]
        exact hin e he
    · rw [List.map_cons, List.mem_cons, not_or] at hc
      exact (hout c hc.2).trans (hy.others c hc.1)

/-- A command that gives each named channel its value, one step each. -/
theorem modeEntries_foldl {p : List Byte} {size : Nat} {f : State → Nat × List Byte → State} {R : Nat → Cell → Cell → Prop} {T : Time}
    (hf : ∀ s e, s.time = T → ∃ y, CellSet e.1 y s (f s e) ∧ R (leNat e.2) (s.cell e.1) y) {s : State} (ht : s.time = T) :
    Celled s ((modeEntries p size).foldl f s) ∧
      (∀ k, k < pField p 2 2 → R (modeValue p size k) (s.cell (pField p 0 2 + k)) (((modeEntries p size).foldl f s).cell (pField p 0 2 + k))) ∧
      ∀ c, (c < pField p 0 2 ∨ pField p 0 2 + pField p 2 2 ≤ c) → ((modeEntries p size).foldl f s).cell c = s.cell c := by
  obtain ⟨hrest, hin, hout⟩ := foldl_cellSet (key := Prod.fst) (R := fun e => R (leNat e.2)) hf (modeEntries_nodup p size) ht
  refine ⟨hrest, fun k hk => ?_, fun c hc => hout c (not_mem_modeEntries hc)⟩
  obtain ⟨bs, hv, hm⟩ := mem_modeEntries size hk
  exact hv ▸ hin _ hm

/-! #### SET_THRESHOLD and SET_DESKEW -/

/-- The cell whose settle window opens or restarts at boundary b, at the sample rate khz (R88). -/
def Cell.settling (x : Cell) (b : SI) (khz : Nat) : Cell :=
  ({ x with settleFrom := if x.doubt.settling then x.settleFrom else b, settleUntil := some (b + settleSlots khz) } : Cell).doubted
    { x.doubt with settling := true }

theorem cellSet_openSettle (s : State) (c : Nat) (b : SI) : CellSet c ((s.cell c).settling b s.time.ref.rateKhz) s (s.openSettle c b) :=
  cellSet_modCell_setDoubt s c (fun y => { y with
    settleFrom := if (s.cell c).doubt.settling then y.settleFrom else b
    settleUntil := some (b + settleSlots s.time.ref.rateKhz) }) _ b

/-- The cell with threshold and hysteresis put in force at boundary b, opening its settle window where something changes. -/
def Cell.rethreshold (x : Cell) (b : SI) (khz code hyst : Nat) : Cell :=
  if code = x.thresh ∧ hyst = x.hyst then x else (x.setComparator b { diff := x.diff, thresh := code, hyst := hyst }).settling b khz

/-- One channel's threshold at boundary b; HYST 255 keeps its hysteresis. -/
def State.putThreshold (s : State) (b : SI) (h c code : Nat) : State :=
  let x := s.cell c
  let hyst := if h = 255 then x.hyst else h
  if code = x.thresh && hyst = x.hyst then s
  else (s.modCell c (fun y => y.setComparator b { diff := y.diff, thresh := code, hyst := hyst })).openSettle c b

theorem setThreshold_eq (p : List Byte) (s : State) :
    setThreshold p s = (modeEntries p 2).foldl (fun s' e => s'.putThreshold s.boundary (pField p 5 1) e.1 (leNat e.2)) s := rfl

theorem cellSet_putThreshold (s : State) (b : SI) (h c code : Nat) :
    CellSet c ((s.cell c).rethreshold b s.time.ref.rateKhz code (if h = 255 then (s.cell c).hyst else h)) s (s.putThreshold b h c code) := by
  unfold State.putThreshold Cell.rethreshold
  simp only [Bool.and_eq_true, decide_eq_true_eq]
  generalize (if h = 255 then (s.cell c).hyst else h) = hyst
  split
  · exact (Reduced.refl s).cellSet c
  · have h1 := cellSet_modCell s c (fun y => y.setComparator b { diff := y.diff, thresh := code, hyst := hyst })
    have h2 := h1.trans (cellSet_openSettle _ c b)
    rw [h1.own] at h2
    exact h2

/-- The cell with deskew d in force from boundary b on. -/
def Cell.newDeskew (x : Cell) (b : SI) (d : Int) : Cell :=
  { x with oldDeskew := if x.deskewAt = b then x.oldDeskew else x.deskew, deskewAt := b, deskew := d, deskewUntil := some (b + 48) }

/-- The cell whose deskew becomes d at boundary b, in doubt for 3 frames where that changes it (R100). -/
def Cell.redeskew (x : Cell) (b : SI) (d : Int) : Cell := if d = x.deskew then x else (x.newDeskew b d).doubted { x.doubt with deskew := true }

theorem cellSet_putDeskew (s : State) (b : SI) (c : Nat) (d : Int) : CellSet c ((s.cell c).redeskew b d) s (s.putDeskew b c d) := by
  unfold State.putDeskew Cell.redeskew
  dsimp only
  split
  · exact (Reduced.refl s).cellSet c
  · exact cellSet_modCell_setDoubt s c (fun y => y.newDeskew b d) _ b

end Sys2Proof.Machine

/-! ### SET_INPUT_MODE (R88, R89, R110, R143) -/

namespace Sys2Proof.Machine

open Sys2Proof.Safety

/-! #### The cell -/

/-- The bracket of a channel that is disabled is closed. -/
theorem cellSet_bracketDisable (s : State) (c : Nat) (b : SI) : CellSet c { s.cell c with doubtOpen := false } s (s.bracketDisable c b) := by
  unfold State.bracketDisable
  split
  · exact (cellSet_modCell s c (fun y => { y with doubtOpen := false })).reduced (placed_placeCh _ _ _).reduced
  next h =>
    have h0 : ({ s.cell c with doubtOpen := false } : Cell) = s.cell c := by
      rw [← Bool.eq_false_iff.2 h]
    rw [h0]
    exact (Reduced.refl s).cellSet c

/-- The cell with the settings of entry e in force from boundary b on: `was` says that it was enabled before, and l is the level of its first sample
(R87, R110). -/
def Cell.switchMode (y : Cell) (b : SI) (e : Nat) (was l : Bool) : Cell :=
  let enables := bit e 0 && !was
  let turns := enables || (!bit e 0 && was)
  { y.setComparator b { y.comparator with diff := bit e 1 } with
    term50 := bit e 2, enable := bit e 0
    enableLog := if turns then enableLogged y.enableLog b (bit e 0) else y.enableLog
    enabledAt := if turns then b else y.enabledAt
    firstSample := if enables then true else y.firstSample
    level := if enables then l else y.level
    levelAtEnable := if enables then l else y.levelAtEnable
    lastTime := if enables then none else y.lastTime }

/-- The level of a cell's first sample under entry e: by the latest input where there is one (R87). -/
def Cell.firstLevel (x : Cell) (e : Nat) (free : Bool) : Bool := (x.input.map ({ x.comparator with diff := bit e 1 } : Comparator).first).getD free

/-- The cell whose bracket closes where entry e disables it (R89). -/
def Cell.disabledBy (x : Cell) (e : Nat) : Cell := if !bit e 0 && x.enable then { x with doubtOpen := false } else x

/-- Entry e opens a settle window: it enables the channel or changes its mode or termination (R88). -/
def Cell.unsettledBy (x : Cell) (e : Nat) : Bool := bit e 0 && !x.enable || (bit e 1 != x.diff || bit e 2 != x.term50)

/-- The cell after entry e of SET_INPUT_MODE at boundary b, at the sample rate khz. -/
def Cell.remode (x : Cell) (b : SI) (khz e : Nat) (l : Bool) : Cell :=
  let y := (x.disabledBy e).switchMode b e x.enable l
  if x.unsettledBy e then y.settling b khz else y

theorem cellSet_setMode (s : State) (b : SI) (c e : Nat) :
    ∃ free, CellSet c ((s.cell c).remode b s.time.ref.rateKhz e ((s.cell c).firstLevel e free)) s (s.setMode b c e) := by
  unfold State.setMode
  extract_lets x on changed enables disables g l s1 s2 s3
  refine ⟨(Config.otherByte c s.freeCtr).getLsbD 0, ?_⟩
  have h1 : CellSet c x s s1 := by
    show CellSet c x s (if _ then _ else _)
    split
    · exact (placed_tick s).reduced.cellSet c
    · exact (Reduced.refl s).cellSet c
  have h2 : CellSet c (x.disabledBy e) s s2 := by
    have hb := h1.trans (cellSet_bracketDisable s1 c b)
    rw [h1.own] at hb
    show CellSet c (if disables then _ else _) s (if disables then _ else _)
    split
    · exact hb
    · exact h1
  have h3 : CellSet c ((x.disabledBy e).switchMode b e x.enable l) s s3 := by
    have h := h2.trans (cellSet_modCell s2 c (fun y => y.switchMode b e x.enable l))
    rw [h2.own] at h
    exact h
  have h4 := h3.trans (cellSet_openSettle s3 c b)
  rw [h3.own, h3.rest.time] at h4
  show CellSet c (if x.unsettledBy e then _ else _) s (if enables || changed then _ else _)
  rw [show (enables || changed) = x.unsettledBy e from rfl]
  split
  · exact h4
  · exact h3

/-! #### What the statement says of the cell -/

/-- The settings of cell y are those that entry e gives, and the others are those of x. -/
def Cell.holdsMode (x : Cell) (e : Nat) (y : Cell) : Prop :=
  y.enable = e.testBit 0 ∧ y.diff = e.testBit 1 ∧ y.term50 = e.testBit 2 ∧ y.thresh = x.thresh ∧ y.hyst = x.hyst ∧ y.deskew = x.deskew

/-- Cell y is cell x after entry e at boundary b, at the sample rate khz, as R88, R89 and R110 have it. -/
structure ModeSet (b : SI) (khz e : Nat) (x y : Cell) : Prop where
  holds : x.holdsMode e y
  settles : ((e.testBit 0 = true ∧ x.enable = false) ∨ e.testBit 1 ≠ x.diff ∨ e.testBit 2 ≠ x.term50) →
    y.settleUntil = some (b + settleSlots khz) ∧ y.doubt = { x.doubt with settling := true }
  enabled : e.testBit 0 = true → x.enable = false → y.firstSample = true ∧ y.enabledAt = b ∧
    ∀ v, x.input = some v → y.level = ({ diff := e.testBit 1, thresh := x.thresh, hyst := x.hyst } : Comparator).first v
  disabled : e.testBit 0 = false → x.enable = true → y.doubtOpen = false ∧ y.enabledAt = b
  kept : e.testBit 0 = x.enable → e.testBit 1 = x.diff → e.testBit 2 = x.term50 → y.settleUntil = x.settleUntil ∧ y.doubt = x.doubt

theorem Cell.disabledBy_eq (x : Cell) (e : Nat) :
    ∃ o, x.disabledBy e = { x with doubtOpen := o } ∧ (e.testBit 0 = false → x.enable = true → o = false) := by
  unfold Cell.disabledBy
  split
  · exact ⟨false, rfl, fun _ _ => rfl⟩
  next h => exact ⟨x.doubtOpen, rfl, fun he hx => absurd (by simp [bit, he, hx]) h⟩

/-- A settle window leaves the bracket of a disabled channel closed. -/
theorem Cell.settling_eq (x : Cell) (b : SI) (khz : Nat) :
    ∃ f o, x.settling b khz = { x with
      settleFrom := f, settleUntil := some (b + settleSlots khz), doubt := { x.doubt with settling := true }, doubtOpen := o } ∧
      (x.enable = false → x.doubtOpen = false → o = false) := by
  refine ⟨_, _, rfl, fun he ho => ?_⟩
  simp [he, ho]

theorem Cell.unsettledBy_iff {x : Cell} {e : Nat} :
    x.unsettledBy e = true ↔ (e.testBit 0 = true ∧ x.enable = false) ∨ e.testBit 1 ≠ x.diff ∨ e.testBit 2 ≠ x.term50 := by
  simp [Cell.unsettledBy, bit]

theorem modeSet_remode (x : Cell) (b : SI) (khz e : Nat) (free : Bool) : ModeSet b khz e x (x.remode b khz e (x.firstLevel e free)) := by
  obtain ⟨o, hd, ho⟩ := x.disabledBy_eq e
  have hl : ∀ v, x.input = some v → x.firstLevel e free = ({ diff := e.testBit 1, thresh := x.thresh, hyst := x.hyst } : Comparator).first v :=
    fun v hv => by rw [Cell.firstLevel, hv]; rfl
  have hu := x.unsettledBy_iff (e := e)
  unfold Cell.remode
  rw [hd]
  generalize x.firstLevel e free = l at hl
  dsimp only
  split
  next h =>
    obtain ⟨f, q, hs, hq⟩ := (({ x with doubtOpen := o } : Cell).switchMode b e x.enable l).settling_eq b khz
    rw [hs]
    refine ⟨⟨rfl, rfl, rfl, rfl, rfl, rfl⟩, fun _ => ⟨rfl, rfl⟩, fun he hx => ?_, fun he hx => ⟨hq he (ho he hx), ?_⟩, fun h0 h1 h2 => ?_⟩
    · simp only [Cell.switchMode, bit, he, hx, Bool.not_false, Bool.and_self, if_true, Bool.true_or, true_and]
      exact hl
    · simp [Cell.switchMode, bit, he, hx]
    · have := hu.1 h
      simp [h0, h1, h2] at this
  next h =>
    refine ⟨⟨rfl, rfl, rfl, rfl, rfl, rfl⟩, fun hc => absurd (hu.2 hc) h, fun he hx => absurd (hu.2 (.inl ⟨he, hx⟩)) h,
      fun he hx => ⟨ho he hx, ?_⟩, fun _ _ _ => ⟨rfl, rfl⟩⟩
    simp [Cell.switchMode, bit, he, hx]

/-! #### The sequencer, the statistics and the decode engines behind the cells -/

/-- s' comes from s by what the reductions do, and by a change of the live sequencer and of the decode engines. -/
def Rewired (s s' : State) : Prop := Reduced { s with engines := s'.engines, cutEngines := s'.cutEngines, seq0 := s'.seq0 } s'

theorem Reduced.setWires {s s' : State} (h : Reduced s s') (e : Tab Engine) (l : List (Nat × SI × Engine)) (q : Seq) :
    Reduced { s with engines := e, cutEngines := l, seq0 := q } { s' with engines := e, cutEngines := l, seq0 := q } :=
  ⟨congrArg (fun z : State => { z with engines := e, cutEngines := l, seq0 := q }) h.still, h.cfg, h.raised, h.posted⟩

theorem Reduced.rewired {s s' : State} (h : Reduced s s') : Rewired s s' := h.setWires _ _ _

theorem Rewired.refl (s : State) : Rewired s s := Reduced.refl s

theorem Rewired.trans {a b c : State} (h : Rewired a b) (k : Rewired b c) : Rewired a c := (Reduced.setWires h c.engines c.cutEngines c.seq0).trans k

/-- The same, the last step named first. -/
theorem Rewired.after {a b c : State} (k : Rewired b c) (h : Rewired a b) : Rewired a c := h.trans k

theorem Rewired.foldl {β : Type} (f : State → β → State) (hf : ∀ s x, Rewired s (f s x)) (l : List β) (s : State) : Rewired s (l.foldl f s) := by
  induction l generalizing s with
  | nil => exact Rewired.refl s
  | cons x rest ih => exact (hf s x).trans (ih _)

theorem rewired_set (s : State) (e : Tab Engine) (l : List (Nat × SI × Engine)) (q : Seq) :
    Rewired s { s with engines := e, cutEngines := l, seq0 := q } := Reduced.refl _

theorem rewired_modEngine (s : State) (n : Nat) (f : Engine → Engine) : Rewired s (s.modEngine n f) := rewired_set s _ _ _

theorem rewired_cutEngine (s : State) (n : Nat) (b : SI) : Rewired s (s.cutEngine n b) := by
  unfold State.cutEngine
  dsimp only
  split
  · exact Rewired.refl s
  · exact (placed_raiseIf _ _ _).reduced.rewired.after (rewired_set s _ _ _)

theorem rewired_inputSwitched (s : State) (n c : Nat) (b : SI) : Rewired s (s.inputSwitched n c b) := by
  unfold State.inputSwitched
  extract_lets e off x
  refine (rewired_modEngine x n _).after ?_
  show Rewired s (if _ then _ else _)
  split
  · exact Rewired.refl s
  · split
    · exact (rewired_modEngine _ n _).after (rewired_cutEngine s n b)
    · exact rewired_modEngine s n _

theorem rewired_decodersInput (s : State) (c : Nat) (b : SI) : Rewired s (s.decodersInput c b) :=
  Rewired.foldl _ (fun _ _ => rewired_inputSwitched _ _ _ _) _ s

theorem reduced_switchStats (s : State) (c : Nat) (b : SI) (on : Bool) : Reduced s (s.switchStats c b on) := by
  have ha := reduced_advanceStats s (chRegion c) (64 * b)
  unfold State.switchStats
  dsimp only
  split
  · exact ha
  · split
    · exact (reduced_modRegion _ _ _ rfl).after ha
    · split
      · exact (reduced_modRegion _ _ _ rfl).after ha
      · exact ha

theorem rewired_switched (s : State) (b : SI) (was : Bool) (c : Nat) : Rewired s (s.switched b was c) := by
  unfold State.switched
  extract_lets on s1 s2
  have h1 : Rewired s s1 := by
    show Rewired s (if _ then _ else _)
    split
    · exact rewired_set s _ _ _
    · exact Rewired.refl s
  have h2 : Rewired s1 s2 := by
    show Rewired s1 (if _ then _ else _)
    split
    · exact (reduced_modRegion s1 _ _ rfl).rewired
    · exact Rewired.refl s1
  split
  · exact Rewired.refl s
  · exact (reduced_switchStats _ c b on).rewired.after ((rewired_decodersInput _ c b).after (h2.after h1))

theorem rewired_setInputMode (p : List Byte) (s : State) : Rewired (setInputCells p s) (setInputMode p s) :=
  Rewired.foldl _ (fun _ _ => rewired_switched _ _ _ _) _ _

/-- An accepted SET_INPUT_MODE: its effect on the cells, and on what lies behind them. -/
theorem packetIn_setInputMode {s : State} {t : SI} {p : Packet} (h : accepted s t opSetInputMode p)
    (hf : Celled (taken s t p) (setInputCells p.params (taken s t p))) :
    onlyAnswers { s.moment t with
      cells := (s.packetIn t opSetInputMode p).cells, engines := (s.packetIn t opSetInputMode p).engines
      cutEngines := (s.packetIn t opSetInputMode p).cutEngines, seq0 := (s.packetIn t opSetInputMode p).seq0 } (s.packetIn t opSetInputMode p) ∧
      ∀ c, (s.packetIn t opSetInputMode p).cell c = (setInputCells p.params (taken s t p)).cell c := by
  obtain ⟨hready, hstep, hsoft, hup, hswap, hwaiting⟩ := h.quiet
  have hw := rewired_setInputMode p.params (taken s t p)
  have hc : (setInputMode p.params (taken s t p)).cells = (setInputCells p.params (taken s t p)).cells :=
    (congrArg (fun x : State => x.cells) (Reduced.still hw) :)
  have hx := packetIn_simply (m := { s.moment t with
    cells := (setInputMode p.params (taken s t p)).cells, engines := (setInputMode p.params (taken s t p)).engines
    cutEngines := (setInputMode p.params (taken s t p)).cutEngines, seq0 := (setInputMode p.params (taken s t p)).seq0 }) h rfl
    ⟨hready, hstep, hsoft, hup, hswap, hwaiting⟩ (by rw [hc]; exact (Reduced.setWires hf _ _ _).trans hw)
  refine ⟨?_, fun c => (hx.cell c).trans (by simp only [State.cell, hc])⟩
  rw [hx.cells, hx.engines, hx.cutEngines, hx.seq0]
  exact hx.only

/-! #### What the statement says of thresholds and deskews -/

theorem Cell.rethreshold_eq (x : Cell) (b : SI) (khz code h : Nat) :
    let y := x.rethreshold b khz code h
    y.thresh = code ∧ y.hyst = h ∧ y.deskew = x.deskew ∧ y.enable = x.enable ∧ (x.thresh = code → x.hyst = h → y = x) ∧
      ((x.thresh ≠ code ∨ x.hyst ≠ h) → y.settleUntil = some (b + settleSlots khz) ∧ y.doubt = { x.doubt with settling := true }) := by
  unfold Cell.rethreshold
  split
  next hsame =>
    obtain ⟨rfl, rfl⟩ := hsame
    exact ⟨rfl, rfl, rfl, rfl, fun _ _ => rfl, fun hne => absurd hne (by simp)⟩
  next hne => exact ⟨rfl, rfl, rfl, rfl, fun hc hh => absurd ⟨hc.symm, hh.symm⟩ hne, fun _ => ⟨rfl, rfl⟩⟩

theorem Cell.redeskew_eq (x : Cell) (b : SI) (d : Int) :
    let y := x.redeskew b d
    y.deskew = d ∧ y.thresh = x.thresh ∧ y.enable = x.enable ∧ (d = x.deskew → y = x) ∧
      (d ≠ x.deskew → y.deskewAt = b ∧ y.deskewUntil = some (b + 48) ∧ y.doubt = { x.doubt with deskew := true }) := by
  unfold Cell.redeskew
  split
  next hsame => exact ⟨hsame.symm, rfl, rfl, fun _ => rfl, fun hne => absurd hsame hne⟩
  next hne => exact ⟨rfl, rfl, rfl, fun h => absurd h hne, fun _ => ⟨rfl, rfl, rfl⟩⟩

end Sys2Proof.Machine

namespace Sys2Proof.Proofs

open Sys2Proof.Machine Sys2Proof.Safety

/-- Settles O15: each command sets the cells of its range one after the other (`modeEntries_foldl`), each to a cell that is known, and SET_INPUT_MODE
then tells the sequencer, the statistics and the decode engines (`Rewired`). -/
theorem channelSettings : Obligations.ChannelSettings := by
  unfold Obligations.ChannelSettings
  intro s t p first n entry b window others
  refine ⟨fun h => ?threshold, fun h => ?mode, fun h => ?deskew⟩
  case threshold =>
    obtain ⟨hrest, hin, hout⟩ := modeEntries_foldl (p := p.params) (size := 2) (s := taken s t p)
      (f := fun s' e => s'.putThreshold (taken s t p).boundary (pField p.params 5 1) e.1 (leNat e.2))
      (R := fun v x y => y = x.rethreshold b s.time.ref.rateKhz v (if pField p.params 5 1 = 255 then x.hyst else pField p.params 5 1))
      (fun s' e ht => ⟨_, cellSet_putThreshold s' _ _ e.1 _, by rw [ht]; rfl⟩) rfl
    obtain ⟨honly, hcell⟩ := packetIn_celled (f := setThreshold) h rfl hrest
    refine ⟨_, rfl, honly, fun c hc => (hcell c).trans (hout c hc), fun k hk => ?_⟩
    dsimp only
    rw [(hcell _).trans (hin k hk)]
    exact Cell.rethreshold_eq _ _ _ _ _
  case mode =>
    obtain ⟨hrest, hin, hout⟩ := modeEntries_foldl (p := p.params) (size := 1) (s := taken s t p)
      (f := fun s' e => s'.setMode (taken s t p).boundary e.1 (leNat e.2)) (R := ModeSet b s.time.ref.rateKhz)
      (fun s' e ht => by
        obtain ⟨free, hm⟩ := cellSet_setMode s' (taken s t p).boundary e.1 (leNat e.2)
        exact ⟨_, hm, by rw [ht]; exact modeSet_remode _ _ _ _ _⟩) rfl
    obtain ⟨honly, hcell⟩ := packetIn_setInputMode h hrest
    refine ⟨_, rfl, honly, fun c hc => (hcell c).trans (hout c hc), fun k hk => ?_⟩
    obtain ⟨⟨h1, h2, h3, h4, h5, h6⟩, hsettles, hen, hdis, hkept⟩ := hin k hk
    dsimp only
    rw [hcell]
    exact ⟨h1, h2, h3, h4, h5, h6, hsettles, hen, hdis, hkept⟩
  case deskew =>
    obtain ⟨hrest, hin, hout⟩ := modeEntries_foldl (p := p.params) (size := 2) (s := taken s t p)
      (f := fun s' e => s'.putDeskew (taken s t p).boundary e.1 (toSigned 16 (leNat e.2)))
      (R := fun v x y => y = x.redeskew b (toSigned 16 v)) (fun s' e _ => ⟨_, cellSet_putDeskew s' _ e.1 _, rfl⟩) rfl
    obtain ⟨honly, hcell⟩ := packetIn_celled (f := setDeskewCells) h rfl hrest
    refine ⟨_, rfl, honly, fun c hc => (hcell c).trans (hout c hc), fun k hk => ?_⟩
    dsimp only
    rw [(hcell _).trans (hin k hk)]
    exact Cell.redeskew_eq _ _ _

end Sys2Proof.Proofs

/-! ### Interval units (R99, R104, R105, R114) -/

namespace Sys2Proof.Machine

open Sys2Proof.Safety

/-! #### One unit brought up to a time -/

/-- s' comes from s by a change of interval unit n, and by what the reductions do. No other unit changes. -/
structure IvlSteps (n : Nat) (s s' : State) : Prop where
  rest : Reduced { s with ivls := s'.ivls } s'
  others : ∀ k, k ≠ n → s'.ivl k = s.ivl k

theorem Reduced.setIvls {s s' : State} (h : Reduced s s') (x : Tab Ivl) : Reduced { s with ivls := x } { s' with ivls := x } :=
  ⟨congrArg (fun z : State => { z with ivls := x }) h.still, h.cfg, h.raised, h.posted⟩

theorem Reduced.ivlSteps {s s' : State} (h : Reduced s s') (n : Nat) : IvlSteps n s s' := by
  have hi : s'.ivls = s.ivls := (congrArg (fun x : State => x.ivls) h.still :)
  exact ⟨h.setIvls s'.ivls, fun k _ => by simp only [State.ivl, hi]⟩

theorem IvlSteps.refl (n : Nat) (s : State) : IvlSteps n s s := (Reduced.refl s).ivlSteps n

theorem IvlSteps.trans {n : Nat} {a b c : State} (h : IvlSteps n a b) (k : IvlSteps n b c) : IvlSteps n a c :=
  ⟨(h.rest.setIvls c.ivls).trans k.rest, fun j hj => (k.others j hj).trans (h.others j hj)⟩

/-- The same, the last step named first. -/
theorem IvlSteps.after {n : Nat} {a b c : State} (k : IvlSteps n b c) (h : IvlSteps n a b) : IvlSteps n a c := h.trans k

theorem IvlSteps.foldl {β : Type} {n : Nat} (f : State → β → State) (hf : ∀ s x, IvlSteps n s (f s x)) (l : List β) (s : State) :
    IvlSteps n s (l.foldl f s) := by
  induction l generalizing s with
  | nil => exact IvlSteps.refl n s
  | cons x rest ih => exact (hf s x).trans (ih _)

theorem ivlSteps_modIvl (s : State) (n : Nat) (f : Ivl → Ivl) : IvlSteps n s (s.modIvl n f) :=
  ⟨Reduced.refl _, fun k hk => by rw [State.modIvl_ivl, if_neg hk]⟩

theorem ivlSteps_ivlResult (s : State) (n : Nat) (x : IvlResult) : IvlSteps n s (s.ivlResult n x) := by
  unfold State.ivlResult
  extract_lets u r reported s1 q known s2 s3 d s4
  have h1 : IvlSteps n s s1 := ivlSteps_modIvl s n _
  have h3 : IvlSteps n s s3 := ((placed_raise _ _).reduced.ivlSteps n).after ((ivlSteps_modIvl s1 n _).after h1)
  split
  · exact h1
  · split
    · split
      · exact h3
      · exact ((placed_place _ _ _).reduced.ivlSteps n).after h3
    · exact ((placed_place _ _ _).reduced.ivlSteps n).after ((ivlSteps_modIvl s1 n _).after h1)

theorem ivlSteps_ivlTo (s : State) (n : Nat) (h : FineTime) : IvlSteps n s (s.ivlTo n h) := by
  unfold State.ivlTo
  split
  · exact (IvlSteps.foldl _ (fun _ _ => ivlSteps_ivlResult _ n _) _ _).after (ivlSteps_modIvl s n _)
  · exact IvlSteps.refl n s

theorem ivlSteps_advanceIvl (s : State) (n : Nat) (h : FineTime) (fuel : Nat) : IvlSteps n s (s.advanceIvl n h fuel) := by
  induction fuel generalizing s with
  | zero => exact ivlSteps_ivlTo s n h
  | succ k ih =>
    unfold State.advanceIvl
    split
    · exact ivlSteps_ivlTo s n h
    · split
      · exact (ih _).after ((ivlSteps_modIvl _ n _).after (ivlSteps_ivlTo s n _))
      · exact ivlSteps_ivlTo s n h

/-! #### SET_INTERVAL -/

/-- An accepted packet of a command that sets unit n and ends. -/
theorem packetIn_ivlSteps {s : State} {t : SI} {o : OpSpec} {p : Packet} {f : List Byte → State → State} {n : Nat} (h : accepted s t o p)
    (ho : o.effect = simply f) (hf : IvlSteps n (taken s t p) (f p.params (taken s t p))) :
    onlyAnswers { s.moment t with ivls := (s.packetIn t o p).ivls } (s.packetIn t o p) ∧
      ∀ k, (s.packetIn t o p).ivl k = (f p.params (taken s t p)).ivl k := by
  obtain ⟨hready, hstep, hsoft, hup, hswap, hwaiting⟩ := h.quiet
  have hx := packetIn_simply (m := { s.moment t with ivls := (f p.params (taken s t p)).ivls }) h ho
    ⟨hready, hstep, hsoft, hup, hswap, hwaiting⟩ hf.rest
  refine ⟨?_, fun k => by simp only [State.ivl, hx.ivls]⟩
  rw [hx.ivls]
  exact hx.only

/-- The settings that SET_INTERVAL gives. -/
def ivlSetOf (p : List Byte) : IvlSet :=
  { enable := bit (pField p 1 1) 0, pairing := bit (pField p 1 1) 1, startCh := pField p 2 2, stopCh := pField p 4 2
    startSlope := pField p 6 1, stopSlope := pField p 7 1, decim := pField p 8 1, maxSpan := pField p 12 4 }

/-- The settings wait for their boundary behind those given before. -/
theorem setInterval_next (p : List Byte) (s : State) :
    ((setInterval p s).ivl (pField p 0 1)).next.getLast? = some (s.boundary, ivlSetOf p) := by
  unfold setInterval
  rw [State.modIvl_ivl, if_pos rfl]
  exact List.getLast?_concat

theorem ivlSteps_setInterval (p : List Byte) (s : State) : IvlSteps (pField p 0 1) s (setInterval p s) :=
  (ivlSteps_modIvl _ _ _).after (ivlSteps_advanceIvl s _ _ _)

/-- The registers show the settings last given, and everything else of the unit at 0. -/
theorem Ivl.shown_of_next {u : Ivl} {b : SI} {g : IvlSet} (h : u.next.getLast? = some (b, g)) : u.shown = g.unit [] [] := by
  rw [Ivl.shown, h]
  rfl

/-! #### A unit on which no edge waits -/

/-- A unit with no stop to serve a start lets it wait for MAX_SPAN (R104, R105). -/
theorem Ivl.limit_unserved {u : Ivl} (h : u.pairing = false ∨ u.stops = []) (e : IvlEdge) : u.limit e = ((e.time + 64 * u.maxSpan : Nat) : Int) := by
  have hn : (if u.pairing then u.earlier e else none) = none := by
    rcases h with h | h
    · simp [h]
    · simp [Ivl.earlier, h]
  rw [Ivl.limit, hn]
  rfl

theorem Ivl.earlier_of_paired {u : Ivl} (h : u.pairing = false ∨ u.stops = []) (hp : u.pairing = true) (e : IvlEdge) : u.earlier e = none := by
  have hs : u.stops = [] := h.resolve_left (ne_false_of_eq_true hp)
  simp [Ivl.earlier, hs]

/-- The unit at fine time t, where no stop serves its starts: those older than MAX_SPAN are discarded and counted. -/
def Ivl.aged (u : Ivl) (t : FineTime) : Ivl :=
  { u with
    starts := u.starts.filter (fun e => decide (t ≤ e.time + 64 * u.maxSpan))
    timeout := satAdd 16 u.timeout (u.starts.filter (fun e => decide (e.time + 64 * u.maxSpan < t))).length }

theorem Ivl.expire_unserved {u : Ivl} (h : u.pairing = false ∨ u.stops = []) (t : FineTime) : u.expire t = (u.aged t, []) := by
  unfold Ivl.expire Ivl.aged
  simp only [Ivl.limit_unserved h, Nat.cast_lt, Nat.cast_le]
  split
  next hp => simp [Ivl.earlier_of_paired h hp]
  next => rfl

/-- A unit with no edge waiting takes none. -/
theorem Ivl.edges_none {u : Ivl} (hb : u.buf = []) (t : FineTime) :
    ({ u with buf := u.buf.filter (fun e => decide (t ≤ e.time)) } : Ivl).edges (u.buf.filter (fun e => decide (e.time < t))) = (u, []) := by
  obtain ⟨⟩ := u
  subst hb
  rfl

/-- With no edge waiting, a unit that is enabled only lets its starts grow old. -/
theorem State.ivlTo_unserved {s : State} {n : Nat} (he : (s.ivl n).enable = true) (hb : (s.ivl n).buf = [])
    (h : (s.ivl n).pairing = false ∨ (s.ivl n).stops = []) (t : FineTime) : s.ivlTo n t = s.modIvl n (fun _ => (s.ivl n).aged t) := by
  unfold State.ivlTo
  rw [if_pos he]
  simp only [State.advanceIvlOnce, Ivl.edges_none hb, Ivl.expire_unserved h, List.append_nil, List.foldl_nil]

/-- The one start that waits is discarded. -/
theorem Ivl.aged_old {u : Ivl} {e : IvlEdge} (hs : u.starts = [e]) {t : FineTime} (h : e.time + 64 * u.maxSpan < t) :
    u.aged t = { u with starts := [], timeout := min (u.timeout + 1) 65535 } := by
  simp [Ivl.aged, hs, h, Nat.not_le.2 h, satAdd]

/-- Where no start is too old, nothing is counted. -/
theorem Ivl.aged_young {u : Ivl} {t : FineTime} (h : ∀ e ∈ u.starts, t ≤ e.time + 64 * u.maxSpan) (hm : u.timeout ≤ 65535) : u.aged t = u := by
  have hkeep : u.starts.filter (fun e => decide (t ≤ e.time + 64 * u.maxSpan)) = u.starts :=
    List.filter_eq_self.2 fun e he => decide_eq_true (h e he)
  have hnone : u.starts.filter (fun e => decide (e.time + 64 * u.maxSpan < t)) = [] :=
    List.filter_eq_nil_iff.2 fun e he => by simpa using h e he
  have hcount : satAdd 16 u.timeout 0 = u.timeout := Nat.min_eq_left hm
  rw [Ivl.aged, hkeep, hnone, List.length_nil, hcount]

theorem State.ivlTo_disabled {s : State} {n : Nat} (h : (s.ivl n).enable = false) (t : FineTime) : s.ivlTo n t = s :=
  if_neg (ne_true_of_eq_false h)

/-- A unit for which no settings wait is brought up under those that it has. -/
theorem State.advanceIvl_set {s : State} {n : Nat} (h : (s.ivl n).next = []) (t : FineTime) (fuel : Nat) : s.advanceIvl n t fuel = s.ivlTo n t := by
  cases fuel with
  | zero => rfl
  | succ k => rw [State.advanceIvl, h]

/-- A disabled unit takes the one set of settings that wait, once their boundary has passed, and goes on under them. -/
theorem State.advanceIvl_due {s : State} {n : Nat} {b : SI} {g : IvlSet} (he : (s.ivl n).enable = false) (hn : (s.ivl n).next = [(b, g)])
    {t : FineTime} (h : 64 * b ≤ t) (fuel : Nat) :
    s.advanceIvl n t (fuel + 1) = (s.modIvl n (fun u => g.unit u.buf [])).ivlTo n t := by
  rw [State.advanceIvl, hn]
  dsimp only
  rw [if_pos h, State.ivlTo_disabled he]
  refine State.advanceIvl_set ?_ t fuel
  rw [State.modIvl_ivl, if_pos rfl]
  rfl

/-- A unit on which no edge waits, and of which no start is too old, stays as it is. -/
theorem State.ivlTo_still {s : State} {n : Nat} {t : FineTime} (hb : (s.ivl n).buf = []) (h : (s.ivl n).pairing = false ∨ (s.ivl n).stops = [])
    (hs : ∀ e ∈ (s.ivl n).starts, t ≤ e.time + 64 * (s.ivl n).maxSpan) (hm : (s.ivl n).timeout ≤ 65535) :
    s.ivlTo n t = { s with ivls := (s.ivlTo n t).ivls } ∧ ∀ k, (s.ivlTo n t).ivl k = s.ivl k := by
  by_cases he : (s.ivl n).enable = true
  · rw [State.ivlTo_unserved he hb h, Ivl.aged_young hs hm]
    refine ⟨rfl, fun k => ?_⟩
    rw [State.modIvl_ivl]
    split
    next hk => rw [hk]
    next => rfl
  · rw [State.ivlTo_disabled (Bool.eq_false_iff.2 he)]
    exact ⟨rfl, fun _ => rfl⟩

end Sys2Proof.Machine

namespace Sys2Proof.Proofs

open Sys2Proof.Machine Sys2Proof.Safety

/-- Settles O18: SET_INTERVAL changes its unit alone (`IvlSteps`); without an edge that waits, a unit is its starts, and those that no stop serves grow
old (`State.ivlTo_unserved`). -/
theorem intervalUnits : Obligations.IntervalUnits := by
  unfold Obligations.IntervalUnits
  intro s t p u e b g f x h others set fresh
  have hset : (s.moment t).ivl u.val = x := rfl
  have hrun : exec (.intervalTimeout t u) s = .next ((s.moment t).advanceIvl u.val h) := rfl
  have hgoes : x.next = [] → exec (.intervalTimeout t u) s = .next ((s.moment t).ivlTo u.val h) := fun hn =>
    hrun.trans (congrArg Host.Outcome.next (State.advanceIvl_set (s := s.moment t) hn h 8))
  refine ⟨fun ha => ?given, fun he hn => ?disabled, fun he hn hb hs hp hold => ?old, fun he hn hb hs hp hyoung hmax => ?young,
    fun he hb hn hdue => ?due⟩
  case given =>
    have hi := ivlSteps_setInterval p.params (taken s t p)
    obtain ⟨honly, hivl⟩ := packetIn_ivlSteps ha rfl hi
    have hnext := setInterval_next p.params (taken s t p)
    rw [← hivl] at hnext
    exact ⟨_, rfl, honly, fun k hk => (hivl k).trans (hi.others k hk), hnext, Ivl.shown_of_next hnext⟩
  case disabled => exact (hgoes hn).trans (congrArg Host.Outcome.next (State.ivlTo_disabled (s := s.moment t) he h))
  case old =>
    rw [hgoes hn, State.ivlTo_unserved (s := s.moment t) he hb hp, hset, Ivl.aged_old hs hold]
    rfl
  case young => exact ⟨_, hgoes hn, State.ivlTo_still (s := s.moment t) hb hp (by simpa [hset, hs] using hyoung) hmax⟩
  case due =>
    have hown : ((s.moment t).modIvl u.val (fun v => g.unit v.buf [])).ivl u.val = g.unit [] [] := by
      rw [State.modIvl_ivl, if_pos rfl, hset, hb]
    obtain ⟨hrest, hivl⟩ := State.ivlTo_still (t := h) (congrArg Ivl.buf hown) (.inr (congrArg Ivl.stops hown)) (by rw [hown]; nofun)
      (by rw [hown]; exact Nat.zero_le _)
    refine ⟨_, hrun.trans (congrArg Host.Outcome.next (State.advanceIvl_due (s := s.moment t) he hn hdue 7)), hrest, fun k hk => ?_,
      (hivl u.val).trans hown⟩
    rw [hivl, State.modIvl_ivl, if_neg hk]
    rfl

end Sys2Proof.Proofs

/-! ### Jobs that start, are suspended and end (R101, R102, R441 to R444) -/

namespace Sys2Proof.Machine

open Sys2Proof.Safety

/-! #### Answering leaves the jobs, and those that have ended -/

/-- Of the commands' part of the state, what answering never changes: all but the rings and the entries that wait. -/
def State.desk (s : State) : Cmd := { s.cmd with rings := [], hold := [] }

theorem Placed.desk {s s' : State} (h : Placed s s') : s'.desk = s.desk := congrArg (fun c : Cmd => { c with rings := [], hold := [] }) h.cmd

theorem change_desk (s : State) (o : Origin) (opcode status : Nat) (params : List Byte) (si : SI) :
    (s.change o opcode status params si).desk = s.desk := congrArg (fun c : Cmd => { c with rings := [], hold := [] }) (change_cmd s o opcode status params si)

theorem writeEntry_desk (s : State) (e : CplEntry) : (s.writeEntry e).desk = s.desk := (placed_raise _ _).desk.trans (placed_postBytes _ _ _).desk

theorem postEntry_desk (s : State) (e : CplEntry) : (s.postEntry e).desk = s.desk := by
  have h := (placed_raiseIf s (decide (e.status = stInternal)) 7).desk
  unfold State.postEntry
  dsimp only
  split
  · exact h
  · split
    · split
      · exact (writeEntry_desk _ _).trans h
      · exact h
    · split
      · exact h
      · exact (writeEntry_desk _ _).trans h

theorem unfenced_desk (s : State) (c : Ctx) (status jobId ring : Nat) : (s.unfenced c status jobId ring).desk = s.desk := by
  unfold State.unfenced
  split <;> rfl

theorem complete_desk (s : State) (c : Ctx) (status jobId : Nat) (result : List Nat) : (s.complete c status jobId result).desk = s.desk := by
  cases hr : c.reply with
  | none =>
    unfold State.complete
    rw [hr]
  | some r =>
    obtain ⟨ring, tag⟩ := r
    rw [complete_eq hr]
    split
    · exact unfenced_desk s _ _ _ _
    · exact (postEntry_desk _ _).trans (unfenced_desk s _ _ _ _)

theorem completeLogged_desk (s : State) (c : Ctx) (status jobId : Nat) (result : List Nat) : (s.completeLogged c status jobId result).desk = s.desk := by
  unfold State.completeLogged
  split
  · rfl
  · exact complete_desk _ _ _ _ _

theorem finish_desk (s : State) (c : Ctx) (result : List Nat) : (s.finish c result).desk = s.desk :=
  (completeLogged_desk _ _ _ _ _).trans (change_desk _ _ _ _ _ _)

/-- A fold of answers. -/
theorem desk_foldl {β : Type} (f : State → β → State) (hf : ∀ s x, (f s x).desk = s.desk) (l : List β) (s : State) : (l.foldl f s).desk = s.desk := by
  induction l generalizing s with
  | nil => rfl
  | cons x rest ih => exact (ih _).trans (hf s x)

theorem fetchRing_desk (s : State) (n : Nat) : (s.fetchRing n).desk = s.desk := by
  have hi : ∀ (x : State) (q : Request), (x.issue q).desk = x.desk := fun x q => by
    unfold State.issue
    dsimp only
    split
    · rfl
    · split <;> rfl
  unfold State.fetchRing
  split
  · exact hi _ _
  · rfl

/-- With no packet waiting, the rings leave the jobs. -/
theorem pump_desk (s : State) (h : ∀ n, (s.ring n).fetched = []) : s.pump.desk = s.desk := by
  unfold State.pump
  dsimp only
  rw [examine_none s h]
  exact desk_foldl _ fetchRing_desk _ s

/-! #### One job changed -/

theorem State.job_id {s : State} {n : Nat} {j : Job} (h : s.job n = some j) : j.id = n := by
  have hf : s.cmd.jobs.find? (fun x => decide (x.id = n)) = some j := h
  exact of_decide_eq_true (List.find?_some hf :)

theorem job_of_desk {a b : State} (h : a.desk = b.desk) (n : Nat) : a.job n = b.job n :=
  (congrArg (fun c : Cmd => c.jobs.find? (fun j : Job => decide (j.id = n))) h :)

/-- A job that is changed keeps its place. -/
theorem modJob_job {s : State} {n : Nat} {j : Job} {f : Job → Job} (hf : ∀ x, (f x).id = x.id) (h : s.job n = some j) :
    (s.modJob n f).job n = some (f j) := by
  have hp : ((fun x : Job => decide (x.id = n)) ∘ fun x => if x.id = n then f x else x) = fun x => decide (x.id = n) := by
    funext x
    simp only [Function.comp_apply]
    split
    next hx => rw [hf]
    next => rfl
  have hj := State.job_id h
  unfold State.job State.modJob
  rw [List.find?_map, hp, show s.cmd.jobs.find? _ = some j from h, Option.map_some, if_pos hj]

theorem answered_modJob (s : State) (n : Nat) (f : Job → Job) : Answered s (s.modJob n f) := Answered.of_fields rfl rfl rfl rfl rfl

/-- What a row leaves in the end: x is the state that it finds with what it changes by itself, e the state in which its answers are given. -/
structure Row (x e s' : State) : Prop where
  answered : Answered x s'
  desk : s'.desk = e.desk
  raised : ∀ n, n ∈ e.events.raised → n ∈ s'.events.raised

/-- A state is quiet by its start-up, its safe state and its rings alone. -/
theorem quiet_of_fields {s s' : State} (hq : quiet s) (hstartup : s'.startup = s.startup) (hsafe : s'.safe = s.safe) (hcmd : s'.cmd = s.cmd) : quiet s' := by
  obtain ⟨hready, hstep, hsoft, hup, hswap, hwaiting⟩ := hq
  constructor
  · rwa [hstartup]
  · rwa [hstartup]
  · rwa [hsafe]
  · rwa [hsafe]
  · rwa [hsafe]
  · rwa [hcmd]

/-- In a quiet state the core goes on after a row. -/
theorem Answered.row {x e : State} (h : Answered x e) (hq : quiet x) : Row x e e.goOn := by
  have hf : ∀ n, (e.ring n).fetched = [] := fun n => (h.fetched n).trans (quiet_fetched x hq n)
  have hs : e.startup.step ≠ 6 := by
    rw [h.startup, hq.step]
    decide
  have hr : e.safe.softReset = none := by rw [h.safe, hq.soft]
  have hg := answered_goOn e hs hr hf
  refine ⟨h.trans hg, ?_, hg.raised⟩
  rw [goOn_eq_pump hs hr, pump_desk e hf]

theorem Row.job {x e s' : State} (h : Row x e s') (n : Nat) : s'.job n = e.job n := job_of_desk h.desk n

/-! #### JOB_DEQUEUE -/

section Rows
variable {s : State} {t : SI} {n : Nat} {j : Job}

theorem moment_job (s : State) (t : SI) (n : Nat) : (s.moment t).job n = s.job n := rfl

theorem exec_jobDequeue_none (h : ∀ j, s.job n = some j → j.state ≠ .queued) : exec (.jobDequeue t n) s = .next (s.moment t).goOn := by
  refine congrArg (fun x : State => Host.Outcome.next x.goOn) (?_ : rowJobDequeue t n s = _)
  unfold rowJobDequeue
  simp only [moment_job]
  split
  · rfl
  next j hj => exact if_neg (h j hj)

theorem exec_jobDequeue_queued (h : s.job n = some j) (hj : j.state = .queued) :
    exec (.jobDequeue t n) s = .next ((s.moment t).startQueued j).goOn := by
  refine congrArg (fun x : State => Host.Outcome.next x.goOn) (?_ : rowJobDequeue t n s = _)
  unfold rowJobDequeue
  simp only [moment_job, h]
  exact if_pos hj

/-- Nothing blocks a job that is the only one of its opcode. -/
theorem blocksStart_alone (h : s.job n = some j) (hone : ∀ x ∈ s.cmd.jobs, x.ctx.opcode = j.ctx.opcode → x.id = n) : s.blocksStart j = false := by
  have hid := State.job_id h
  unfold State.blocksStart
  rw [Bool.or_eq_false_iff, List.any_eq_false, Option.any_eq_false]
  refine ⟨fun x hx hb => ?_, fun x hx => ?_⟩
  · simp only [Bool.and_eq_true, decide_eq_true_eq] at hb
    exact hb.1.2 ((hone x hx hb.1.1).trans hid.symm)
  · have hop := List.find?_some hx
    simp only [Bool.and_eq_true, decide_eq_true_eq] at hop
    simpa using (hone x (List.mem_of_find?_eq_some hx) hop.1).trans hid.symm

/-- A running job of its opcode blocks it. -/
theorem blocksStart_running (h : s.job n = some j) (hrun : ∃ x ∈ s.cmd.jobs, x.ctx.opcode = j.ctx.opcode ∧ x.id ≠ n ∧ x.state = .running) :
    s.blocksStart j = true := by
  obtain ⟨x, hx, hop, hid, hst⟩ := hrun
  unfold State.blocksStart
  rw [Bool.or_eq_true_iff]
  refine .inl (List.any_eq_true.2 ⟨x, hx, ?_⟩)
  simp [hop, hst, State.job_id h, hid]

/-- A job of an opcode that has no start of its own begins to run. -/
theorem startQueued_free (hop : j.ctx.opcode ∉ [0x0510, 0x0910, 0x0911, 0x0A10]) (hb : s.blocksStart j = false) :
    s.startQueued j = s.modJob j.id (fun x => { x with state := .running, since := s.time.si }) := by
  simp only [List.mem_cons, List.not_mem_nil, or_false, not_or] at hop
  obtain ⟨h1, h2, h3, h4⟩ := hop
  unfold State.startQueued
  split
  · contradiction
  · contradiction
  · contradiction
  · contradiction
  · exact if_neg (ne_true_of_eq_false hb)

/-- One that is blocked waits on. -/
theorem startQueued_blocked (hop : j.ctx.opcode ≠ 0x0510) (hb : s.blocksStart j = true) : s.startQueued j = s := by
  unfold State.startQueued
  split
  · contradiction
  · exact if_pos hb
  · exact if_pos (Bool.or_eq_true_iff.2 (.inl hb))
  · exact if_pos hb
  · exact if_pos hb

/-! #### JOB_SUSPEND_POINT -/

/-- Only a running job reaches a suspend point, CAL_INTERP only at an anchor boundary (R102). -/
theorem exec_jobSuspendPoint_none (h : ∀ j, s.job n = some j → j.state = .running → j.ctx.opcode = 0x0211 ∧ t % 1048576 ≠ 0) :
    exec (.jobSuspendPoint t n) s = .next (s.moment t).goOn := by
  refine congrArg (fun x : State => Host.Outcome.next x.goOn) (?_ : rowJobSuspendPoint t n s = _)
  unfold rowJobSuspendPoint
  simp only [moment_job]
  split
  · rfl
  next j hj =>
    refine if_neg fun hc => ?_
    simp only [Bool.and_eq_true, decide_eq_true_eq, Bool.or_eq_true] at hc
    obtain ⟨hr, hp⟩ := hc
    obtain ⟨hop, ht⟩ := h j hj hr
    exact hp.elim (fun h => h hop) ht

theorem exec_jobSuspendPoint_reached (h : s.job n = some j) (hr : j.state = .running) (hp : j.ctx.opcode = 0x0211 → t % 1048576 = 0) :
    exec (.jobSuspendPoint t n) s = .next ((s.moment t).atSuspendPoint j).goOn := by
  refine congrArg (fun x : State => Host.Outcome.next x.goOn) (?_ : rowJobSuspendPoint t n s = _)
  unfold rowJobSuspendPoint
  simp only [moment_job, h]
  refine if_pos ?_
  simp only [Bool.and_eq_true, decide_eq_true_eq, Bool.or_eq_true]
  exact ⟨hr, Decidable.not_or_of_imp hp⟩

/-- Where only JOB_SUSPEND asked for it, the job is suspended. -/
theorem atSuspendPoint_suspends (hop : j.ctx.opcode ∉ [0x0910, 0x0B10]) (hs : j.suspendReq ≠ []) (hc : j.cancelReq = [])
    (hsoft : s.safe.softBegun = false) : s.atSuspendPoint j = s.suspendJob j := by
  simp only [List.mem_cons, List.not_mem_nil, or_false, not_or] at hop
  obtain ⟨htrain, hupdate⟩ := hop
  have hsus : s.suspendable j = true := by simp [State.suspendable, htrain, hupdate]
  simp [State.atSuspendPoint, htrain, hc, hsoft, hsus, hs]

/-- The DRAM part after a migration or a scrub has stopped: the time that self-refresh waits for begins anew (R377). -/
def State.pausedDram (s : State) (j : Job) : Dram :=
  if j.ctx.opcode ∈ [0x0911, 0x0912] then { s.dram with idleSince := s.time.si } else s.dram

theorem dramPauses_running (hr : j.state = .running) : s.dramPauses j = { s with dram := s.pausedDram j } := by
  unfold State.dramPauses State.pausedDram
  by_cases h : j.ctx.opcode = 0x0911 ∨ j.ctx.opcode = 0x0912
  · simp [hr, h]
  · simp [hr, h]

/-- A job's function that stops where it stands changes the cells of a calibration, and the DRAM part as its pause does. -/
theorem suspendWork_running (h : s.job n = some j) (hr : j.state = .running) :
    Answered { s with cells := (s.suspendWork j).cells, dram := s.pausedDram j } (s.suspendWork j) ∧
      (j.ctx.opcode ≠ 0x0211 → (s.suspendWork j).cells = s.cells) ∧ ∃ y, (s.suspendWork j).job n = some y ∧ y.ctx = j.ctx := by
  unfold State.suspendWork
  rw [dramPauses_running hr]
  have hid := State.job_id h
  subst hid
  split
  next hc =>
    refine ⟨answered_modJob (({ s with dram := s.pausedDram j } : State).stopPasses j) _ _, fun hne => absurd hc (by simp [hne]), ?_⟩
    exact ⟨_, modJob_job (s := ({ s with dram := s.pausedDram j } : State).stopPasses j) (fun _ => rfl) h, rfl⟩
  next => exact ⟨Answered.refl _, fun _ => rfl, j, h, rfl⟩

/-- The job is SUSPENDED, and what asked for it is answered (R444). -/
theorem suspendJob_running (h : s.job n = some j) (hr : j.state = .running) :
    Answered { s with cells := (s.suspendJob j).cells, dram := s.pausedDram j } (s.suspendJob j) ∧
      (j.ctx.opcode ≠ 0x0211 → (s.suspendJob j).cells = s.cells) ∧
      ∃ y, (s.suspendJob j).job n = some y ∧ y.state = .suspended ∧ y.suspendReq = [] ∧ y.ctx = j.ctx := by
  obtain ⟨hw, hcells, y, hy, hctx⟩ := suspendWork_running h hr
  have hid := State.job_id h
  have hf : ∀ (x : State) (c : Ctx), Answered x ((x.unreserve 1).finish c []) := fun x c => (answered_finish _ _ _).after (answered_unreserve _ _)
  have ha : Answered (s.suspendWork j) (s.suspendJob j) :=
    (Answered.foldl _ hf _ _).after (answered_modJob _ _ _)
  have hd := desk_foldl (fun (x : State) (c : Ctx) => (x.unreserve 1).finish c []) (fun x c => finish_desk (x.unreserve 1) c []) j.suspendReq
    ((s.suspendWork j).modJob j.id (fun x => { x with state := .suspended, fromQueued := j.state = .queued, suspendReq := [] }))
  rw [ha.cells]
  refine ⟨hw.trans ha, hcells, { y with state := .suspended, fromQueued := j.state = .queued, suspendReq := [] },
    (job_of_desk hd n).trans ?_, rfl, rfl, hctx⟩
  rw [hid]
  exact modJob_job (fun _ => rfl) hy

/-! #### JOB_END -/

theorem exec_jobEnd_none (h : ∀ j, s.job n = some j → j.state ≠ .running) (w : JobWork) : exec (.jobEnd t n w) s = .next (s.moment t).goOn := by
  refine congrArg (fun x : State => Host.Outcome.next x.goOn) (?_ : rowJobEnd t n w s = _)
  unfold rowJobEnd
  simp only [moment_job]
  split
  · rfl
  next j hj => exact if_neg (h j hj)

theorem exec_jobEnd_running (h : s.job n = some j) (hr : j.state = .running) (w : JobWork) :
    exec (.jobEnd t n w) s = .next ((s.moment t).workEnds j w).goOn := by
  refine congrArg (fun x : State => Host.Outcome.next x.goOn) (?_ : rowJobEnd t n w s = _)
  unfold rowJobEnd
  simp only [moment_job, h]
  exact if_pos hr

/-- The job as it is kept among the ended ones. -/
def Job.doneWith (j : Job) (ws : List Nat) : Job := { j with state := .done, result := ws, suspendReq := [], cancelReq := [] }

/-- A job that is DONE is no longer among the active ones, and is the latest of the ended ones. -/
theorem endJob_desk (h : s.job n = some j) (ws : List Nat) : (s.endJob n .done ws).desk = { s.desk with
    jobs := s.cmd.jobs.filter (fun x => x.id ≠ n)
    ended := (j.doneWith ws :: s.cmd.ended).take 64 } := by
  unfold State.endJob
  rw [h]
  dsimp only
  refine (placed_raise _ _).desk.trans ((completeLogged_desk _ _ _ _ _).trans ((change_desk _ _ _ _ _ _).trans ?_))
  refine (desk_foldl _ (fun x c => ?_) _ _).trans ((desk_foldl _ (fun x c => ?_) _ _).trans rfl)
  · exact complete_desk (x.unreserve 1) _ _ _ _
  · exact complete_desk (x.unreserve 1) _ _ _ _

theorem endJob_event (h : s.job n = some j) (ws : List Nat) : 4 ∈ (s.endJob n .done ws).events.raised := by
  unfold State.endJob
  rw [h]
  exact raise_mem _ 4

/-- What the core's going on leaves of a job that is DONE with result words ws. -/
theorem Row.done {x y s' : State} {ws : List Nat} (hx : Row x (y.endJob n .done ws) s') (h : y.job n = some j) :
    s'.job n = none ∧ 4 ∈ s'.events.raised ∧ ∃ j', s'.cmd.ended.head? = some j' ∧ j'.id = n ∧ j'.state = .done ∧ j'.result = ws := by
  have hd := hx.desk.trans (endJob_desk h ws)
  have hjobs : s'.cmd.jobs = y.cmd.jobs.filter (fun x => x.id ≠ n) := (congrArg Cmd.jobs hd :)
  have hended : s'.cmd.ended = (j.doneWith ws :: y.cmd.ended).take 64 := (congrArg Cmd.ended hd :)
  refine ⟨?_, hx.raised 4 (endJob_event h ws), j.doneWith ws, congrArg List.head? hended, (State.job_id h : j.id = n), rfl, rfl⟩
  unfold State.job
  rw [hjobs]
  refine List.find?_eq_none.2 fun x hm => ?_
  simpa using (List.mem_filter.1 hm).2

/-- The latest job of an opcode exists where a job of that opcode does. -/
theorem jobOf_some (h : s.job n = some j) : ∃ x, s.jobOf j.ctx.opcode = some x := by
  have hm : j ∈ s.cmd.jobs := List.mem_of_find?_eq_some h
  exact Option.isSome_iff_exists.1 (List.find?_isSome.2 ⟨j, hm, decide_eq_true rfl⟩)

/-- The DRAM part has its last work behind it at this moment (R377). -/
def State.idles (s : State) : State := { s with dram := { s.dram with idleSince := s.time.si } }

/-- A scrub that finds nothing more ends with what it has counted (R386, R390). -/
theorem workEnds_scrub (h : s.job n = some j) (hop : j.ctx.opcode = 0x0912) :
    s.workEnds j (.scrub []) = s.idles.endJob n .done (s.scrubWords j) := by
  have hid := State.job_id h
  unfold State.workEnds
  rw [hop, hid]
  rfl

/-! #### CAL_DESKEW over the calibration network (R101) -/

/-- The deskew found for channel c is a value in range. -/
def deskewGood (found : List (Nat × Option Int)) (c : Nat) : Bool :=
  match deskewFound found c with
  | some d => deskewOk d
  | none => false

/-- The measurement r is a value in range: no time-out. -/
def valueInRange : Option (Option Int) → Bool
  | some (some d) => decide (-2048 ≤ d ∧ d ≤ 2047)
  | _ => false

theorem deskewGood_map (found : List (Fin 1024 × Option Int)) (c : Nat) : deskewGood (found.map (fun e => (e.1.val, e.2))) c =
    valueInRange ((found.find? (fun e => decide (e.1.val = c))).map (fun e => e.2)) := by
  unfold deskewGood deskewFound
  rw [List.find?_map, Option.map_map]
  change (match ((found.find? (fun e => decide (e.1.val = c))).map (fun e => e.2)).getD none with | some d => deskewOk d | none => false) = _
  cases found.find? (fun e => decide (e.1.val = c)) with
  | none => rfl
  | some e =>
    obtain ⟨k, d⟩ := e
    cases d with
    | none => rfl
    | some d => exact (Bool.decide_and ..).symm

/-- The cells of the channels in l marked by v. -/
def State.markCal (s : State) (l : List Nat) (v : Nat → Bool) : State := l.foldl (fun s c => s.modCell c (fun y => { y with calFail := v c })) s

theorem markCal_eq (s : State) (l : List Nat) (v : Nat → Bool) : s.markCal l v = { s with cells := (s.markCal l v).cells } := by
  unfold State.markCal
  induction l generalizing s with
  | nil => rfl
  | cons c rest ih => exact ih _

theorem cell_of_cells {a b : State} (h : a.cells = b.cells) (c : Nat) : a.cell c = b.cell c := by
  unfold State.cell
  rw [h]

theorem markCal_cell (s : State) (l : List Nat) (v : Nat → Bool) (k : Nat) :
    (s.markCal l v).cell k = { s.cell k with calFail := if k ∈ l then v k else (s.cell k).calFail } := by
  induction l generalizing s with
  | nil => rfl
  | cons c rest ih =>
    refine (ih (s.modCell c (fun y => { y with calFail := v c }))).trans ?_
    rw [State.modCell_cell]
    by_cases hk : k = c
    · simp [hk]
    · simp [hk]

/-- The channels that the parameters of CAL_DESKEW name. -/
def deskewChannels (p : List Byte) : List Nat := (List.range (pField p 2 2)).map (fun k => pField p 0 2 + k)

theorem mem_deskewChannels {p : List Byte} {c : Nat} : c ∈ deskewChannels p ↔ pField p 0 2 ≤ c ∧ c < pField p 0 2 + pField p 2 2 := by
  simp only [deskewChannels, List.mem_map, List.mem_range]
  refine ⟨?_, fun ⟨h1, h2⟩ => ⟨c - pField p 0 2, by omega, by omega⟩⟩
  rintro ⟨k, hk, rfl⟩
  omega

/-- How many of the channels named pass p. -/
theorem deskewChannels_filter_length (ps : List Byte) (p : Nat → Bool) :
    ((deskewChannels ps).filter p).length = ((List.range (pField ps 2 2)).filter (fun k => p (pField ps 0 2 + k))).length := by
  rw [deskewChannels, List.filter_map, List.length_map]
  rfl

/-- Without APPLY the statuses and the counts are all that the measurement gives. -/
theorem endDeskew_statuses {p : List Byte} (hp : pField p 12 1 ≠ 1) (found : List (Nat × Option Int)) :
    ∃ ws, s.endDeskew p found = (s.markCal (deskewChannels p) (fun c => !((deskewChannels p).filter (deskewGood found)).contains c), ws, []) ∧
      ws.head? = some ((deskewChannels p).filter (deskewGood found)).length :=
  ⟨_, if_neg hp, rfl⟩

/-- Over the calibration network the values found end the job. -/
theorem workEnds_deskew (hop : j.ctx.opcode = 0x0210) (hsrc : pField j.ctx.params 4 1 ≠ 1) (found : List (Fin 1024 × Option Int)) :
    s.workEnds j (.deskew found) = s.endCalDeskew j (found.map (fun e => (e.1.val, e.2))) := by
  unfold State.workEnds
  rw [hop]
  exact if_neg hsrc

/-- The job ends with the cells marked. -/
theorem endCalDeskew_statuses (h : s.job n = some j) (hp : pField j.ctx.params 12 1 ≠ 1) (found : List (Nat × Option Int)) :
    ∃ y ws, s.endCalDeskew j found = y.endJob n .done ws ∧ Answered (s.markCal (deskewChannels j.ctx.params)
      (fun c => !((deskewChannels j.ctx.params).filter (deskewGood found)).contains c)) y ∧ y.job n = some j ∧
      ws.head? = some ((deskewChannels j.ctx.params).filter (deskewGood found)).length := by
  obtain ⟨ws, he, hws⟩ := endDeskew_statuses (s := s) hp found
  have hid := State.job_id h
  unfold State.endCalDeskew
  rw [he, hid]
  generalize (fun c => !((deskewChannels j.ctx.params).filter (deskewGood found)).contains c) = v
  have hj : (s.markCal (deskewChannels j.ctx.params) v).job n = some j := by rw [markCal_eq]; exact h
  refine ⟨_, ws, if_pos rfl, ?_, ?_, hws⟩
  · split
    · exact Answered.of_fields rfl rfl rfl rfl rfl
    · exact Answered.refl _
  · split
    · exact hj
    · exact hj

end Rows

end Sys2Proof.Machine

namespace Sys2Proof.Proofs

open Sys2Proof.Machine Sys2Proof.Safety

/-- Settles O27: what a row does to its job it does before the core goes on, and that leaves the jobs (`Row`); a job that ends is `Row.done`. -/
theorem jobsRunToTheirEnd : Obligations.JobsRunToTheirEnd := by
  unfold Obligations.JobsRunToTheirEnd
  intro s t n ok w found hq same chosen good
  have hm : quiet (s.moment t) := quiet_moment hq t
  have hgoes : ∀ {i : Instr}, exec i s = .next (s.moment t).goOn → answers i s (s.moment t) := fun h =>
    ⟨_, h, ((Answered.refl (s.moment t)).row hm).answered.only⟩
  refine ⟨fun h => hgoes (exec_jobDequeue_none h), fun j h hj hop hone => ?starts, fun j h hj hop hother => ?blocked,
    fun h => ⟨hgoes (exec_jobSuspendPoint_none fun j hj hr => absurd hr (h j hj)), hgoes (exec_jobEnd_none h _)⟩, fun j h hop ht => ?anchor,
    fun j h hr hop hp hs hc hsoft => ?suspends, fun j h hr hop => ⟨?words, ?scrub⟩, fun j h hr hop hsrc happly => ?deskew⟩
  case starts =>
    have hid := State.job_id h
    have hrun := exec_jobDequeue_queued (t := t) h hj
    rw [startQueued_free (s := s.moment t) hop (blocksStart_alone h hone), hid] at hrun
    have hx := (answered_modJob (s.moment t) n (fun x => { x with state := .running, since := (s.moment t).time.si })).row hm
    refine ⟨_, hrun, hx.answered.only, _, (hx.job n).trans (modJob_job (s := s.moment t) (fun _ => rfl) h), rfl⟩
  case blocked =>
    have hne : j.ctx.opcode ≠ 0x0510 := by simpa using hop
    have hrun := exec_jobDequeue_queued (t := t) h hj
    rw [startQueued_blocked (s := s.moment t) hne (blocksStart_running h hother)] at hrun
    exact hgoes hrun
  case anchor => exact hgoes (exec_jobSuspendPoint_none fun k hk _ => ⟨by rw [Option.some.inj (hk.symm.trans h)]; exact hop, ht⟩)
  case suspends =>
    have hrun := exec_jobSuspendPoint_reached (t := t) h hr hp
    rw [atSuspendPoint_suspends (s := s.moment t) hop hs hc hsoft] at hrun
    obtain ⟨ha, hcells, y, hy, hst, hreq, hctx⟩ := suspendJob_running (s := s.moment t) h hr
    have hx := ha.row (quiet_of_fields hm rfl rfl rfl)
    have hc := hx.answered.cells
    refine ⟨_, hrun, ?_, fun hne => hc.trans (hcells hne), y, (hx.job n).trans hy, hst, hreq, hctx⟩
    rw [hc]
    exact hx.answered.only
  case words =>
    have hrun := exec_jobEnd_running (t := t) h hr (.words ok w)
    have hw : (s.moment t).workEnds j (.words ok w) = s.moment t := by
      unfold State.workEnds
      rw [hop]
      rfl
    rw [hw] at hrun
    exact hgoes hrun
  case scrub =>
    have hrun := exec_jobEnd_running (t := t) h hr (.scrub [])
    rw [workEnds_scrub (s := s.moment t) h hop] at hrun
    obtain ⟨x, hxop⟩ := jobOf_some h
    rw [hop] at hxop
    have hwords : (s.moment t).scrubWords j = [pField j.ctx.params 8 8 / 1048576, x.result.getD 1 0, x.result.getD 2 0] := by
      have hx : (s.moment t).jobOf 0x0912 = some x := hxop
      simp [State.scrubWords, hx]
    have hrow := (answered_endJob (s.moment t).idles n .done ((s.moment t).scrubWords j)).row (quiet_of_fields hm rfl rfl rfl)
    obtain ⟨hgone, hev, j', hhead, hid, hst, hres⟩ := hrow.done h
    exact ⟨_, hrun, hrow.answered.only, hgone, hev, j', x, hhead, hxop, hid, hst, hres.trans hwords⟩
  case deskew =>
    have hgood : deskewGood (found.map (fun e => (e.1.val, e.2))) = good := funext (deskewGood_map found)
    have hrun := exec_jobEnd_running (t := t) h hr (.deskew found)
    obtain ⟨y, ws, hy, ha, hyj, hws⟩ := endCalDeskew_statuses (s := s.moment t) h happly (found.map (fun e => (e.1.val, e.2)))
    rw [workEnds_deskew (s := s.moment t) hop hsrc, hy] at hrun
    rw [hgood] at ha hws
    rw [markCal_eq] at ha
    have hrow := ((answered_endJob y n .done ws).after ha).row (quiet_of_fields hm rfl rfl rfl)
    have hcells := hrow.answered.cells
    obtain ⟨hgone, hev, j', hhead, hid, hst, hres⟩ := hrow.done hyj
    have hcell := fun c => (cell_of_cells hcells c).trans (markCal_cell (s.moment t) (deskewChannels j.ctx.params) _ c)
    refine ⟨_, hrun, ?_, hgone, hev, fun c => ?_, fun c => ?_, j', hhead, hid, hst, ?_⟩
    · rw [hcells]
      exact hrow.answered.only
    · rw [hcell c]
      rfl
    · rw [hcell c]
      by_cases hc : c ∈ deskewChannels j.ctx.params
      · have hin : chosen j c = true := decide_eq_true (mem_deskewChannels.1 hc)
        simp [hc, hin]
      · have hout : ¬ chosen j c = true := fun h => hc (mem_deskewChannels.2 (of_decide_eq_true h))
        rw [if_neg hout]
        exact if_neg hc
    · rw [hres, hws, deskewChannels_filter_length]

end Sys2Proof.Proofs

/-! ### Accepted packets of the trigger sequencer's commands (R434, R435, R445, R447) -/

namespace Sys2Proof.Machine

open Sys2Proof.Safety

/-! #### What acceptance says of the checks -/

/-- A packet that passes steps 5 and 7 of R435. -/
theorem early_none {o : OpSpec} {s : State} {role : Nat} {c : Ctx} {p : Packet} (h : o.early s role c p = none) :
    o.gate s c = none ∧ o.bad s c = false := by
  unfold OpSpec.early at h
  split at h
  · exact absurd h (by simp)
  · split at h
    · exact absurd h (by simp)
    · split at h
      · exact absurd h (by simp)
      · split at h
        · exact absurd h (by simp)
        next hg =>
          split at h
          · exact absurd h (by simp)
          next hb => exact ⟨hg, Bool.eq_false_iff.2 hb⟩

/-- Outside what doubt permits, step 5 of R435 lets no packet pass in doubt. -/
theorem gate_none {o : OpSpec} {s : State} {c : Ctx} (h : o.gate s c = none) (hd : o.doubtOk s c.params = false) : s.inDoubt = false := by
  unfold OpSpec.gate at h
  rw [hd] at h
  split at h
  · exact absurd h (by simp)
  next hc => simpa using hc

section Accepted
variable {s : State} {t : SI} {o : OpSpec} {p : Packet} (h : accepted s t o p)
include h

theorem accepted_bad : o.bad (entered s t p) (packetCtx o.opcode p) = false := (early_none h.early).2

theorem accepted_inDoubt (hd : o.doubtOk (entered s t p) p.params = false) : s.inDoubt = false :=
  (gate_none (c := packetCtx o.opcode p) (early_none h.early).1 hd :)

/-! #### How it ends -/

/-- An accepted packet: m is the state that it finds with what its effect changes by itself, e the state in which it has been answered. -/
theorem packetIn_row {m e : State} (ho : o.effect (packetCtx o.opcode p) (taken s t p) = e) (hm : quiet m) (he : Answered m e) :
    Row m e (s.packetIn t o p) ∧ Silent e (s.packetIn t o p) ∧ (s.packetIn t o p).log = e.log := by
  have hf : ∀ n, (e.ring n).fetched = [] := fun n => (he.fetched n).trans (quiet_fetched m hm n)
  have hs : e.startup.step ≠ 6 := by
    rw [he.startup, hm.step]
    decide
  have hr : e.safe.softReset = none := he.safe ▸ hm.soft
  rw [packetIn_accepted s t o p h, ho]
  refine ⟨he.row hm, ?_⟩
  rw [goOn_eq_pump hs hr]
  exact ⟨pump_silent e hf, (pump_log_hold e hf).1⟩

end Accepted

/-- What is answered after nothing has been told is answered from the start. -/
theorem Silent.ends {a b s' : State} {p : Packet} {op st : Nat} {W : List Nat → Prop} (h : Silent a b) (hl : b.log = a.log) (k : ends b s' p op st W) :
    ends a s' p op st W := by
  unfold Safety.ends at k ⊢
  rw [hl] at k
  split at k
  next hc =>
    rw [if_pos hc]
    exact k
  next hc =>
    rw [if_neg hc]
    exact h.told k

/-- An accepted packet whose effect ends in OK, from a state x in which its ring and the log are as it found them. -/
theorem packetIn_ends {s : State} {t : SI} {o : OpSpec} {p : Packet} (h : accepted s t o p) {x : State} {result : List Nat}
    (hs : Silent (x.finish (packetCtx o.opcode p) result) (s.packetIn t o p))
    (hl : (s.packetIn t o p).log = (x.finish (packetCtx o.opcode p) result).log)
    (hx : Silent s x) (hlog : x.log = s.log) (hcmd : x.cmd = (taken s t p).cmd) (hq : (s.ring p.ring.val).cqLog2 ≠ 0) :
    ends s (s.packetIn t o p) p o.opcode 0x00 (fun w => w = result) := by
  obtain ⟨u, a, hr⟩ := taken_ring s t p
  have hring : x.ring p.ring.val = { s.ring p.ring.val with unreplied := u, accepted := a } :=
    (congrArg (fun c : Cmd => (tfind c.rings p.ring.val).getD {}) hcmd).trans hr
  refine hx.ends hlog (ends_finish rfl rfl rfl ?_ ?_ hs hl)
  · rw [hring]
    exact hq
  · rw [hring]
    exact h.enabled

end Sys2Proof.Machine

/-! ### LOAD_PATTERN (R145, R153 to R159) -/

namespace Sys2Proof.Machine

open Sys2Proof.Safety

/-! #### Sequencers changed -/

theorem State.modSeq_sq_self (s : State) (k : Nat) (f : Seq → Seq) : (s.modSeq k f).sq k = f (s.sq k) := by
  unfold State.modSeq State.sq
  split <;> rfl

/-- The other sequencer stays. -/
theorem State.modSeq_sq_other (s : State) {k j : Nat} (f : Seq → Seq) (h : j = 0 ↔ k ≠ 0) : (s.modSeq k f).sq j = s.sq j := by
  unfold State.modSeq State.sq
  by_cases hk : k = 0
  · simp [hk, h]
  · simp [hk, h]

/-- Only the sequencers change. -/
theorem State.modSeq_eq (s : State) (k : Nat) (f : Seq → Seq) :
    s.modSeq k f = { s with seq0 := (s.modSeq k f).seq0, seq1 := (s.modSeq k f).seq1 } := by
  unfold State.modSeq
  split <;> rfl

theorem State.modSeq_log (s : State) (k : Nat) (f : Seq → Seq) : (s.modSeq k f).log = s.log := by rw [State.modSeq_eq]

theorem State.modSeq_cmd (s : State) (k : Nat) (f : Seq → Seq) : (s.modSeq k f).cmd = s.cmd := by rw [State.modSeq_eq]

theorem quiet_modSeq {s : State} (h : quiet s) (k : Nat) (f : Seq → Seq) : quiet (s.modSeq k f) := by
  rw [State.modSeq_eq]
  exact quiet_of_fields h rfl rfl rfl

/-- Counting a packet commutes with a change of a sequencer. -/
theorem State.counted_modSeq (s : State) (n k : Nat) (f : Seq → Seq) : (s.modSeq k f).counted n = (s.counted n).modSeq k f := by
  unfold State.modSeq
  split <;> rfl

theorem Answered.sq {s s' : State} (h : Answered s s') (k : Nat) : s'.sq k = s.sq k := by
  simp only [State.sq, h.seq0, h.seq1]

/-! #### The image -/

theorem parseSections_length {n : Nat} {bs : List Byte} {xs : List Section} (h : parseSections bs n = some xs) : xs.length = n := by
  induction n generalizing bs xs with
  | zero =>
    unfold parseSections at h
    split at h
    · exact Option.some.inj h ▸ rfl
    · exact absurd h (by simp)
  | succ k ih =>
    unfold parseSections at h
    dsimp only at h
    split at h
    · exact absurd h (by simp)
    · obtain ⟨r, hr, rfl⟩ := Option.map_eq_some_iff.1 h
      rw [List.length_cons, ih hr]

/-- The image that LOAD_PATTERN's sections are applied to: an empty one with CLEAR. -/
def loadBase (s : State) (p : List Byte) : Program := if bit (pField p 1 1) 0 then {} else (s.sq (pField p 0 1)).pending

/-- What a loaded image is: the sections named, applied to the base, and valid with COMMIT. -/
theorem loadImage_some {s : State} {p : List Byte} {g : Program} {xs : List Section} (h : loadImage s p = some (g, xs)) :
    pField p 0 1 ≤ 1 ∧ xs.length = pField p 2 2 ∧ g = xs.foldl Program.apply (loadBase s p) ∧ (bit (pField p 1 1) 1 = true → g.valid = true) := by
  unfold loadImage at h
  dsimp only at h
  split at h
  · exact absurd h (by simp)
  next hform =>
    split at h
    · exact absurd h (by simp)
    next ys hparse =>
      split at h
      · exact absurd h (by simp)
      · change (if bit (pField p 1 1) 1 && !(ys.foldl Program.apply (loadBase s p)).valid then none
          else some (ys.foldl Program.apply (loadBase s p), ys)) = some (g, xs) at h
        split at h
        · exact absurd h (by simp)
        next hvalid =>
          obtain ⟨rfl, rfl⟩ := Prod.mk.inj (Option.some.inj h)
          have hk : pIn p 0 1 0 1 = true := by
            simp only [Bool.or_eq_true, not_or, Bool.not_eq_true, Bool.not_eq_false'] at hform
            exact hform.1.1.1.2
          refine ⟨(of_decide_eq_true hk).2, parseSections_length hparse, rfl, fun hc => ?_⟩
          rw [hc, Bool.true_and, Bool.not_eq_true, Bool.not_eq_false'] at hvalid
          exact hvalid

theorem Program.imageId_ne_zero (g : Program) : g.imageId ≠ 0 := by
  unfold Program.imageId
  dsimp only
  split
  · decide
  next h => exact h

/-- The sequencer whose pending image has become g: `commit` and `touched` say that LOAD_PATTERN commits it and that it changes it. -/
def Seq.loaded (q : Seq) (g : Program) (commit touched : Bool) : Seq :=
  { q with
    pending := g, pendingOk := commit || (q.pendingOk && !touched)
    pendingId := if commit then g.imageId else if q.pendingOk && !touched then q.pendingId else 0 }

theorem loadPattern_eq {s : State} {c : Ctx} {g : Program} {xs : List Section} (h : loadImage s c.params = some (g, xs)) :
    ∃ f : Seq → Seq, f (s.sq (pField c.params 0 1)) =
        (s.sq (pField c.params 0 1)).loaded g (bit (pField c.params 1 1) 1) (bit (pField c.params 1 1) 0 || xs ≠ []) ∧
      loadPattern c s = (s.modSeq (pField c.params 0 1) f).finish c [xs.length, (f (s.sq (pField c.params 0 1))).pendingId] := by
  unfold loadPattern
  dsimp only
  rw [h]
  refine ⟨_, ?_, rfl⟩
  unfold Seq.loaded
  cases bit (pField c.params 1 1) 1 <;> rfl

end Sys2Proof.Machine

namespace Sys2Proof.Proofs

open Sys2Proof.Machine Sys2Proof.Safety

/-- Settles O33: LOAD_PATTERN makes the pending image of one sequencer the one that `loadImage_some` describes, and ends. -/
theorem patternsAreLoaded : Obligations.PatternsAreLoaded := by
  unfold Obligations.PatternsAreLoaded
  intro s t p hq h f k clear commit
  have hbad : (loadImage (taken s t p) p.params).isNone = false := accepted_bad h
  obtain ⟨⟨g, xs⟩, himage⟩ := Option.isSome_iff_exists.1 (Option.isNone_eq_false_iff.1 hbad)
  obtain ⟨hk, hlen, hg, hvalid⟩ := loadImage_some himage
  have hlen : xs.length = f 2 2 := hlen
  obtain ⟨load, hload, heff⟩ := loadPattern_eq (c := packetCtx 0x0301 p) himage
  have hload : load (s.sq k) = (s.sq k).loaded g commit (clear || xs ≠ []) := hload
  have heff : loadPattern (packetCtx 0x0301 p) (taken s t p) =
      ((taken s t p).modSeq k load).finish (packetCtx 0x0301 p) [xs.length, (load (s.sq k)).pendingId] := heff
  have hcounted : Answered ((s.moment t).modSeq k load) ((taken s t p).modSeq k load) := by
    rw [taken_eq, ← State.counted_modSeq]
    exact answered_counted _ _
  have hquiet : quiet ((s.moment t).modSeq k load) := quiet_modSeq (quiet_moment h.quiet t) k load
  obtain ⟨hrow, hsilent, hlog⟩ := packetIn_row h heff hquiet ((answered_finish _ _ _).after hcounted)
  have hsq := hrow.answered.sq
  have honly := hrow.answered.only
  rw [State.modSeq_eq, ← hrow.answered.seq0, ← hrow.answered.seq1] at honly
  refine ⟨_, rfl, honly, ?other, ?count, g, (load (s.sq k)).pendingOk, (load (s.sq k)).pendingId, ?image, ?ends, ?sections, ?commits, ?invalidates, ?keeps⟩
  case other =>
    rw [hsq]
    exact State.modSeq_sq_other _ load (by omega)
  case count =>
    rw [hlog, finish_count, State.modSeq_log]
    rfl
  case image =>
    rw [hsq, State.modSeq_sq_self]
    exact hload.trans (by rw [hload]; rfl)
  case ends =>
    rw [← hlen]
    refine packetIn_ends h hsilent hlog ⟨⟨[], ?_⟩, ?_⟩ (State.modSeq_log _ _ _) (State.modSeq_cmd _ _ _) hq
    · rw [State.modSeq_obs]
      rfl
    · rw [State.modSeq_cmd]
      rfl
  case sections =>
    intro h0
    have hxs : xs = [] := List.eq_nil_of_length_eq_zero (hlen.trans h0)
    rw [hg, hxs]
    rfl
  case commits =>
    intro hc
    rw [hload]
    simp only [Seq.loaded, hc, Bool.true_or, if_true, true_and]
    exact ⟨hvalid hc, g.imageId_ne_zero⟩
  case invalidates =>
    intro hc hchanged
    have htouched : (clear || xs ≠ []) = true := by
      rcases hchanged with hclear | hn
      · rw [hclear, Bool.true_or]
      · have hxs : xs ≠ [] := fun he => hn (by rw [← hlen, he]; rfl)
        simp [hxs]
    rw [hload, htouched]
    simp [Seq.loaded, hc]
  case keeps =>
    intro hc hclear h0
    have hxs : xs = [] := List.eq_nil_of_length_eq_zero (hlen.trans h0)
    rw [hload]
    simp [Seq.loaded, hc, hclear, hxs]

end Sys2Proof.Proofs

/-! ### TRIG_OUT pins (R148 to R151, R163, R175 to R178) -/

namespace Sys2Proof.Machine

open Sys2Proof.Safety

/-! #### One pin changed -/

/-- s' comes from s by a change of the pins, and by placing records. -/
def Pinned (s s' : State) : Prop := Placed { s with pins := s'.pins } s'

/-- What places records does so under any state of the pins. -/
theorem Placed.setPins {s s' : State} (h : Placed s s') (x : Pins) : Placed { s with pins := x } { s' with pins := x } :=
  ⟨congrArg (fun z : State => { z with pins := x }) h.still, h.region, h.raised, h.posted⟩

theorem Pinned.refl (s : State) : Pinned s s := Placed.refl s

theorem Pinned.trans {a b c : State} (h : Pinned a b) (k : Pinned b c) : Pinned a c := (Placed.setPins h c.pins).trans k

theorem Pinned.time {s s' : State} (h : Pinned s s') : s'.time = s.time := (Placed.time (s := { s with pins := s'.pins }) h :)

/-- s' comes from s by making pin n another, y, and by placing records. No other pin changes. -/
structure PinSet (n : Nat) (y : TrigOut) (s s' : State) : Prop where
  rest : Pinned s s'
  others : ∀ k, k ≠ n → s'.out k = s.out k
  own : s'.out n = y

/-- Pin n is y in the state P of the pins, and the others are as they were. -/
theorem pinSet_of_pins {n : Nat} {y : TrigOut} {P : Pins} {s s' : State} (h : Placed { s with pins := P } s') (hP : P.out = tput s.pins.out n y) :
    PinSet n y s s' := by
  have hpins : s'.pins = P := h.pins
  refine ⟨?_, fun k hk => ?_, ?_⟩
  · unfold Pinned
    rw [hpins]
    exact h
  · unfold State.out
    rw [hpins, hP, tfind_tput_ne _ _ _ _ hk]
  · unfold State.out
    rw [hpins, hP, tfind_tput_self, Option.getD_some]

theorem pinSet_modOut (s : State) (n : Nat) (f : TrigOut → TrigOut) : PinSet n (f (s.out n)) s (s.modOut n f) := pinSet_of_pins (Placed.refl _) rfl

theorem pinSet_refl (s : State) (n : Nat) : PinSet n (s.out n) s s := ⟨Pinned.refl s, fun _ _ => rfl, rfl⟩

/-- What changes no pin may follow. -/
theorem PinSet.placing {n : Nat} {y : TrigOut} {a b c : State} (h : PinSet n y a b) (k : Placed b c) : PinSet n y a c := by
  have hp : ∀ j, c.out j = b.out j := fun j => by simp only [State.out, k.pins]
  exact ⟨h.rest.trans (k.setPins c.pins), fun j hj => (hp j).trans (h.others j hj), (hp n).trans h.own⟩

/-- What making a pin another leaves, as the statements say it. -/
theorem PinSet.only {n : Nat} {y : TrigOut} {x s' : State} (h : PinSet n y x s') :
    onlyPlaces { x with pins := s'.pins } s' ∧ ∀ k, k ≠ n → s'.out k = x.out k := ⟨Placed.only h.rest, h.others⟩

/-- Steps that each change one pin, to one that has relation R to the pin before: of several pins, each is changed once, and every other pin stays. -/
theorem foldl_pinSet {β : Type} {key : β → Nat} {f : State → β → State} {R : β → TrigOut → TrigOut → Prop} {T : Time}
    (hf : ∀ s e, s.time = T → ∃ y, PinSet (key e) y s (f s e) ∧ R e (s.out (key e)) y) {l : List β} (hn : (l.map key).Nodup) {s : State}
    (ht : s.time = T) :
    Pinned s (l.foldl f s) ∧ (∀ e ∈ l, R e (s.out (key e)) ((l.foldl f s).out (key e))) ∧ ∀ k, k ∉ l.map key → (l.foldl f s).out k = s.out k := by
  induction l generalizing s with
  | nil => exact ⟨Pinned.refl s, nofun, fun _ _ => rfl⟩
  | cons a rest ih =>
    rw [List.map_cons, List.nodup_cons] at hn
    obtain ⟨ha, hn⟩ := hn
    obtain ⟨y, hy, hR⟩ := hf s a ht
    obtain ⟨hrest, hin, hout⟩ := ih hn (hy.rest.time.trans ht)
    refine ⟨hy.rest.trans hrest, fun e he => ?_, fun k hk => ?_⟩
    · rcases List.mem_cons.1 he with rfl | he
      · rw [List.foldl_cons, hout _ ha, hy.own]
        exact hR
      · have hne : key e ≠ key a := fun h => ha (h ▸ List.mem_map_of_mem he)
        rw [← hy.others _ hne]
        exact hin e he
    · rw [List.map_cons, List.mem_cons, not_or] at hk
      exact (hout k hk.2).trans (hy.others k hk.1)

/-! #### Doubt -/

theorem inDoubt_of_ne {s : State} (h : s.safe.causes ≠ 0) : s.inDoubt = true := decide_eq_true h

theorem inDoubt_of_eq {s : State} (h : s.safe.causes = 0) : s.inDoubt = false := decide_eq_false (not_not_intro h)

/-! #### SET_TRIGOUT (R163) -/

/-- The pin with the settings of entry y. -/
def TrigOut.settings (o : TrigOut) (y : List Byte) : TrigOut :=
  { o with
    source := pField y 0 1, basted := bit (pField y 1 1) 0, align := bit (pField y 1 1) 1, polarity := bit (pField y 1 1) 2, width := pField y 2 1
    delayNs := pField y 4 4 }

/-- The pin after entry y at slot x: where a setting changes, a pulse in progress ends. -/
def TrigOut.configured (o : TrigOut) (y : List Byte) (x : SI) : TrigOut :=
  if o.settings y = o then o else { o.settings y with active := false, cancelUntil := min o.cancelUntil x }

theorem pinSet_setPin (s : State) (n : Nat) (y : List Byte) : PinSet n ((s.out n).configured y s.time.si) s (s.setPin n y) := by
  by_cases hsame : (s.out n).settings y = s.out n
  · rw [TrigOut.configured, if_pos hsame, show s.setPin n y = s from if_pos hsame]
    exact pinSet_refl s n
  · have h := pinSet_modOut s n (fun _ => { (s.out n).settings y with active := false, cancelUntil := min (s.out n).cancelUntil s.time.si })
    rw [TrigOut.configured, if_neg hsame]
    unfold State.setPin
    dsimp only
    split
    next heq => exact absurd heq hsame
    next =>
      split
      · exact h
      · exact h.placing (placed_post _ _)

/-- Of the eight pins each takes its own entry, where the mask names it. -/
theorem setTrigout_outs (p : List Byte) (s : State) : Pinned s (setTrigout p s) ∧ ∀ n, n < 8 → (setTrigout p s).out n =
    if bit (pField p 0 1) n then (s.out n).configured (pBytes p (8 + 8 * n) 8) s.time.si else s.out n := by
  obtain ⟨hrest, hin, -⟩ := foldl_pinSet (l := (pRecords p 8 8 8).zipIdx) (key := Prod.snd) (T := s.time) (s := s)
    (f := fun s e => if bit (pField p 0 1) e.2 then s.setPin e.2 e.1 else s)
    (R := fun e x y => y = if bit (pField p 0 1) e.2 then x.configured e.1 s.time.si else x)
    (fun s' e ht => by
      split
      · exact ⟨_, pinSet_setPin s' e.2 e.1, by rw [ht]⟩
      · exact ⟨_, pinSet_refl s' e.2, rfl⟩)
    (by rw [List.zipIdx_map_snd]; exact List.nodup_range') rfl
  refine ⟨hrest, fun n hn => hin (pBytes p (8 + 8 * n) 8, n) ?_⟩
  rw [List.mem_zipIdx_iff_getElem?]
  simp [pRecords, hn]

/-- The entry of pin n among the parameters. -/
theorem settings_entry (o : TrigOut) (p : List Byte) (n : Nat) : o.settings (pBytes p (8 + 8 * n) 8) = { o with
    source := pField p (8 + 8 * n + 0) 1, basted := (pField p (8 + 8 * n + 1) 1).testBit 0, align := (pField p (8 + 8 * n + 1) 1).testBit 1
    polarity := (pField p (8 + 8 * n + 1) 1).testBit 2, width := pField p (8 + 8 * n + 2) 1, delayNs := pField p (8 + 8 * n + 4) 4 } := by
  unfold TrigOut.settings bit
  rw [pField_pBytes p (by decide), pField_pBytes p (by decide), pField_pBytes p (by decide), pField_pBytes p (by decide)]

/-! #### TRIG_OUT_ASSERT (R148, R149, R176) -/

theorem guardEnd_nil {x : TrigOut} (h : x.cancels = []) (b : SI) : x.guardEnd b = if b < x.guardUntil then some x.guardUntil else none := by
  rw [TrigOut.guardEnd, h, List.find?_nil]

theorem guardEnd_single {x : TrigOut} {c : Basted} {b : SI} (h : x.cancels = [c]) (hc : x.cancelFrom c ≤ b + 32) :
    x.guardEnd b = some (max (x.cancelFrom c) b + 64) := by
  rw [TrigOut.guardEnd, h, List.find?_singleton, if_pos (decide_eq_true hc)]

/-- The pin whose due pulses wait for the end g of its guard frames. -/
def TrigOut.heldTo (x : TrigOut) (b g : SI) : TrigOut :=
  { x with due := x.due.map (fun d => if d.at_ ≤ b then { d with at_ := g, late := d.late || d.aligned } else d) }

/-- The pin that has begun a pulse at boundary b for the due pulse d. -/
def TrigOut.asserted (x : TrigOut) (d : DuePulse) (b : SI) : TrigOut :=
  { x with
    active := true, began := b, until_ := max (b + 16 * x.width) (if x.active then x.until_ else 0)
    shown := match d.baste with
      | some k => x.shown ++ [{ key := k, began := b, fin := b + 16 * x.width }]
      | none => x.shown
    due := x.due.erase d }

/-- The pins when pin n has begun a pulse at boundary b for the due pulse d: one that merges into a pulse in progress is counted. -/
def State.shownPins (s : State) (n : Nat) (d : DuePulse) (b : SI) : Pins :=
  { s.pins with
    out := tput s.pins.out n ((s.out n).asserted d b), merged := if (s.out n).active then satInc 8 s.pins.merged else s.pins.merged }

/-- The pulse stands on the pin: event 135 tells that it merges, or the pin is driven. -/
def State.showPulse (s : State) (n : Nat) (d : DuePulse) (b : SI) : State :=
  if (s.out n).active then ({ s with pins := s.shownPins n d b } : State).raise 135
  else ({ s with pins := s.shownPins n d b } : State).post (.pin n (!(s.out n).polarity))

theorem placed_showPulse (s : State) (n : Nat) (d : DuePulse) (b : SI) : Placed { s with pins := s.shownPins n d b } (s.showPulse n d b) := by
  unfold State.showPulse
  split
  · exact placed_raise _ _
  · exact placed_post _ _

/-- The same pins with a late pulse counted. -/
def State.assertedPins (s : State) (n : Nat) (d : DuePulse) (b : SI) : Pins :=
  { s.shownPins n d b with late := if d.late then satInc 8 s.pins.late else s.pins.late }

theorem assertPulse_eq (s : State) (n : Nat) (d : DuePulse) (b : SI) : s.assertPulse n d b =
    if d.late then ({ s.showPulse n d b with pins := s.assertedPins n d b } : State).raise 134 else s.showPulse n d b := by
  have hshow : s.showPulse n d b = if (s.out n).active then
      ({ s with pins := { s.pins with out := tput s.pins.out n ((s.out n).asserted d b), merged := satInc 8 s.pins.merged } } : State).raise 135
    else ({ s with pins := { s.pins with out := tput s.pins.out n ((s.out n).asserted d b) } } : State).post (.pin n (!(s.out n).polarity)) := by
    unfold State.showPulse State.shownPins
    split <;> rfl
  have he : s.assertPulse n d b = if d.late then
      ({ s.showPulse n d b with pins := { (s.showPulse n d b).pins with late := satInc 8 (s.showPulse n d b).pins.late } } : State).raise 134
    else s.showPulse n d b := by
    rw [hshow]
    rfl
  rw [he, (placed_showPulse s n d b).pins]
  unfold State.assertedPins
  split
  · rfl
  · rfl

/-- What a pulse that begins leaves: its pin, the counters, and the event of a merged one, or the pin driven. -/
structure Asserts (n : Nat) (d : DuePulse) (b : SI) (s s' : State) : Prop where
  placed : Placed { s with pins := s.assertedPins n d b } s'
  merged : (s.out n).active = true → 135 ∈ s'.events.raised
  driven : (s.out n).active = false → .pin n (!(s.out n).polarity) ∈ s'.obs.posted
  late : d.late = true → 134 ∈ s'.events.raised

/-- The same, what counts as late apart. -/
theorem asserts_showPulse (s : State) (n : Nat) (d : DuePulse) (b : SI) (y : Pins) :
    Placed { s with pins := y } { s.showPulse n d b with pins := y } ∧ ((s.out n).active = true → 135 ∈ (s.showPulse n d b).events.raised) ∧
      ((s.out n).active = false → .pin n (!(s.out n).polarity) ∈ (s.showPulse n d b).obs.posted) := by
  refine ⟨(placed_showPulse s n d b).setPins y, fun h => ?_, fun h => ?_⟩
  · rw [State.showPulse, if_pos h]
    exact raise_mem _ _
  · rw [State.showPulse, if_neg (ne_true_of_eq_false h)]
    exact List.mem_cons_self

theorem asserts_assertPulse (s : State) (n : Nat) (d : DuePulse) (b : SI) : Asserts n d b s (s.assertPulse n d b) := by
  obtain ⟨hplaced, hmerged, hdriven⟩ := asserts_showPulse s n d b (s.assertedPins n d b)
  rw [assertPulse_eq]
  split
  next hl =>
    have hr := placed_raise ({ s.showPulse n d b with pins := s.assertedPins n d b } : State) 134
    obtain ⟨l, hp⟩ := hr.posted
    refine ⟨hplaced.trans hr, fun h => hr.raised _ (hmerged h), fun h => ?_, fun _ => raise_mem _ _⟩
    rw [hp]
    exact List.mem_append_right l (hdriven h)
  next hl =>
    have hpins : (s.showPulse n d b).pins = s.assertedPins n d b := by
      rw [(placed_showPulse s n d b).pins, State.assertedPins, if_neg hl]
      rfl
    rw [← hpins] at hplaced
    exact ⟨hpins ▸ hplaced, hmerged, hdriven, fun h => absurd h hl⟩

section Rows
variable {s : State} {t : SI} {pin : Fin 8}

/-- In doubt no pulse asserts. -/
theorem exec_trigOutAssert_doubt (h : s.safe.causes ≠ 0) : exec (.trigOutAssert t pin) s = .next (s.moment t) := by
  refine if_pos ?_
  exact inDoubt_of_ne h

/-- During a cancel pattern and its guard frames what is due waits for their end. -/
theorem exec_trigOutAssert_guarded {g : SI} (h : s.safe.causes = 0) (hg : (s.out pin.val).guardEnd (s.moment t).boundary = some g) :
    exec (.trigOutAssert t pin) s = .next ((s.moment t).modOut pin.val (fun x => x.heldTo (s.moment t).boundary g)) := by
  show execTrigOutAssert t pin s = _
  have hd : (s.moment t).inDoubt = false := inDoubt_of_eq h
  have hg : ((s.moment t).out pin.val).guardEnd (s.moment t).boundary = some g := hg
  unfold execTrigOutAssert
  simp only [hd, Bool.false_eq_true, if_false, hg]
  rfl

/-- Else the pulses that are due assert. -/
theorem exec_trigOutAssert_free (h : s.safe.causes = 0) (hg : (s.out pin.val).guardEnd (s.moment t).boundary = none) :
    exec (.trigOutAssert t pin) s = .next (((s.out pin.val).due.filter (fun d => decide (d.at_ ≤ (s.moment t).boundary))).foldl
      (fun s' d => s'.assertPulse pin.val d (s.moment t).boundary) (s.moment t)) := by
  show execTrigOutAssert t pin s = _
  have hd : (s.moment t).inDoubt = false := inDoubt_of_eq h
  have hg : ((s.moment t).out pin.val).guardEnd (s.moment t).boundary = none := hg
  unfold execTrigOutAssert
  simp only [hd, Bool.false_eq_true, if_false, hg]
  rfl

/-- The only due pulse of the pin asserts. -/
theorem exec_trigOutAssert_one {d : DuePulse} (h : s.safe.causes = 0) (hdue : (s.out pin.val).due = [d]) (hd : d.at_ ≤ (s.moment t).boundary)
    (hc : (s.out pin.val).cancels = []) (hg : (s.out pin.val).guardUntil ≤ (s.moment t).boundary) :
    exec (.trigOutAssert t pin) s = .next ((s.moment t).assertPulse pin.val d (s.moment t).boundary) := by
  rw [exec_trigOutAssert_free h (by rw [guardEnd_nil hc, if_neg (Nat.not_lt.2 hg)]), hdue]
  simp only [List.filter_cons, hd, decide_true, if_true, List.filter_nil, List.foldl_cons, List.foldl_nil]

/-! #### TRIG_OUT_PULSE_END (R148) -/

theorem exec_trigOutPulseEnd_none (h : (s.out pin.val).active = false ∨ (s.moment t).boundary < (s.out pin.val).until_) :
    exec (.trigOutPulseEnd t pin) s = .next (s.moment t) := by
  refine if_neg fun hc => ?_
  obtain ⟨ha, hu⟩ := Bool.and_eq_true_iff.1 hc
  rcases h with h | h
  · exact absurd ha (ne_true_of_eq_false h)
  · exact absurd (of_decide_eq_true hu) (Nat.not_le.2 h)

theorem exec_trigOutPulseEnd_ends (ha : (s.out pin.val).active = true) (hu : (s.out pin.val).until_ ≤ (s.moment t).boundary) :
    exec (.trigOutPulseEnd t pin) s =
      .next (((s.moment t).modOut pin.val (fun x => { x with active := false })).post (.pin pin.val (s.out pin.val).polarity)) := by
  refine if_pos (Bool.and_eq_true_iff.2 ⟨ha, decide_eq_true hu⟩)

/-! #### CANCEL_PATTERN (R176, R178) -/

/-- The cancel of the pin whose pattern can begin at boundary b. -/
def TrigOut.cancelDue (x : TrigOut) (b : SI) : Option Basted := x.cancels.find? (fun c => decide (x.cancelFrom c ≤ b))

theorem cancelDue_single {x : TrigOut} {c : Basted} (h : x.cancels = [c]) (b : SI) :
    x.cancelDue b = if x.cancelFrom c ≤ b then some c else none := by
  rw [TrigOut.cancelDue, h, List.find?_singleton]
  simp only [decide_eq_true_eq]

/-- In the guard frames of a pattern no other begins. -/
theorem cancelDue_guarded {x : TrigOut} {b : SI} (h : b < x.guardUntil) : x.cancelDue b = none :=
  List.find?_eq_none.2 fun _ _ hc => absurd (of_decide_eq_true hc) (Nat.not_le.2 (lt_of_lt_of_le h (le_max_right _ _)))

theorem exec_cancelPattern_none (h : (s.out pin.val).cancelDue (s.moment t).boundary = none) :
    exec (.cancelPattern t pin) s = .next (s.moment t) := by
  show execCancelPattern t pin s = _
  have h : ((s.moment t).out pin.val).cancels.find? (fun c => decide (((s.moment t).out pin.val).cancelFrom c ≤ (s.moment t).boundary)) = none := h
  unfold execCancelPattern
  simp only [h]

/-- In doubt, and during a pulse, no pattern begins. -/
theorem exec_cancelPattern_held (h : s.safe.causes ≠ 0 ∨ (s.out pin.val).active = true) : exec (.cancelPattern t pin) s = .next (s.moment t) := by
  show execCancelPattern t pin s = _
  unfold execCancelPattern
  dsimp only
  split
  · rfl
  · refine if_pos (Bool.or_eq_true_iff.2 (h.imp_left fun hd => ?_))
    exact inDoubt_of_ne hd

/-- The pin whose pattern for cancel c has begun at boundary b. -/
def TrigOut.cancelling (x : TrigOut) (c : Basted) (b : SI) : TrigOut :=
  { x with cancels := x.cancels.erase c, active := true, began := b, until_ := b + 32, cancelUntil := b + 32, guardUntil := b + 64 }

/-- A basted pulse that began after that of cancel c stands on the pin. -/
def TrigOut.ambiguous (x : TrigOut) (c : Basted) : Bool := x.shown.any (fun p => decide (c.began < p.began))

/-- The pins when the pattern for cancel c has begun on pin n at boundary b. -/
def State.cancellingPins (s : State) (n : Nat) (c : Basted) (b : SI) : Pins :=
  { s.pins with
    out := tput s.pins.out n ((s.out n).cancelling c b), cancels := satInc 8 s.pins.cancels
    ambig := if (s.out n).ambiguous c then satInc 8 s.pins.ambig else s.pins.ambig }

/-- The cancel pattern for c has begun on pin n at boundary b. -/
def State.beginCancel (s : State) (n : Nat) (c : Basted) (b : SI) : State :=
  ((({ s with pins := s.cancellingPins n c b } : State).post (.pin n (!(s.out n).polarity))).raise 140).raiseIf ((s.out n).ambiguous c) 141

theorem exec_cancelPattern_begins {c : Basted} (h : s.safe.causes = 0) (hc : (s.out pin.val).cancelDue (s.moment t).boundary = some c)
    (ha : (s.out pin.val).active = false) :
    exec (.cancelPattern t pin) s = .next ((s.moment t).beginCancel pin.val c (s.moment t).boundary) := by
  show execCancelPattern t pin s = _
  have hc : ((s.moment t).out pin.val).cancels.find? (fun c => decide (((s.moment t).out pin.val).cancelFrom c ≤ (s.moment t).boundary)) = some c := hc
  have hn : ((s.moment t).inDoubt || ((s.moment t).out pin.val).active) = false :=
    Bool.or_eq_false_iff.2 ⟨inDoubt_of_eq h, ha⟩
  unfold execCancelPattern
  simp only [hc, hn, Bool.false_eq_true, if_false]
  rfl

end Rows

end Sys2Proof.Machine

namespace Sys2Proof.Machine

open Sys2Proof.Safety

/-! #### The rows of TRIG_OUT, as the statements say them -/

section Rows
variable {s : State} {t : SI} {pin : Fin 8}

/-- What is due on the pin waits for the end g of its guard frames, and nothing else changes. -/
theorem pinSet_heldTo (s : State) (n : Nat) (b g : SI) : PinSet n ((s.out n).heldTo b g) s (s.modOut n (fun x => x.heldTo b g)) :=
  pinSet_modOut s n (fun x => x.heldTo b g)

/-- What the end of a pulse leaves. -/
theorem pinSet_pulseEnd (s : State) (n : Nat) (p : Posted) :
    PinSet n { s.out n with active := false } s ((s.modOut n (fun x => { x with active := false })).post p) :=
  (pinSet_modOut s n (fun x => { x with active := false })).placing (placed_post _ _)

/-- What a pulse that begins leaves of the pins. -/
theorem Asserts.pinSet {n : Nat} {d : DuePulse} {b : SI} {s s' : State} (h : Asserts n d b s s') : PinSet n ((s.out n).asserted d b) s s' :=
  pinSet_of_pins h.placed rfl

theorem Asserts.pins {n : Nat} {d : DuePulse} {b : SI} {s s' : State} (h : Asserts n d b s s') : s'.pins = s.assertedPins n d b := h.placed.pins

/-- The only due pulse is due no longer. -/
theorem TrigOut.asserted_due {x : TrigOut} {d : DuePulse} (h : x.due = [d]) (b : SI) : (x.asserted d b).due = [] := by
  simp [TrigOut.asserted, h]

/-- A pulse that begins on an inactive pin lasts WIDTH frames. -/
theorem TrigOut.asserted_inactive {x : TrigOut} {d : DuePulse} (h : x.due = [d]) (ha : x.active = false) (b : SI) : x.asserted d b = { x with
    active := true, began := b, until_ := b + 16 * x.width, due := [], shown := (x.asserted d b).shown } := by
  have hdue := x.asserted_due h b
  have huntil : (x.asserted d b).until_ = b + 16 * x.width := by
    rw [TrigOut.asserted, if_neg (ne_true_of_eq_false ha), Nat.max_zero]
  rw [← huntil, ← hdue]
  rfl

/-- An event raised, and a second one where c holds. -/
theorem raise_raiseIf (s : State) (n m : Nat) (c : Bool) : Placed s ((s.raise n).raiseIf c m) ∧ n ∈ ((s.raise n).raiseIf c m).events.raised ∧
    (c = true → m ∈ ((s.raise n).raiseIf c m).events.raised) := by
  refine ⟨(placed_raise s n).trans (placed_raiseIf _ c m), (placed_raiseIf (s.raise n) c m).raised n (raise_mem s n), fun hc => ?_⟩
  rw [State.raiseIf, if_pos hc]
  exact raise_mem _ _

/-- What a cancel pattern that begins leaves of the state s. -/
structure Cancels (n : Nat) (c : Basted) (b : SI) (s s' : State) : Prop where
  placed : Placed { s with pins := s.cancellingPins n c b } s'
  counted : 140 ∈ s'.events.raised
  ambiguous : (s.out n).ambiguous c = true → 141 ∈ s'.events.raised
  driven : .pin n (!(s.out n).polarity) ∈ s'.obs.posted

theorem cancels_beginCancel (s : State) (n : Nat) (c : Basted) (b : SI) : Cancels n c b s (s.beginCancel n c b) := by
  have hpost := placed_post ({ s with pins := s.cancellingPins n c b } : State) (.pin n (!(s.out n).polarity))
  obtain ⟨hplaced, hcounted, hambiguous⟩ := raise_raiseIf
    (({ s with pins := s.cancellingPins n c b } : State).post (.pin n (!(s.out n).polarity))) 140 141 ((s.out n).ambiguous c)
  obtain ⟨l, hl⟩ := hplaced.posted
  refine ⟨hpost.trans hplaced, hcounted, hambiguous, ?_⟩
  unfold State.beginCancel
  rw [hl]
  exact List.mem_append_right l List.mem_cons_self

end Rows

theorem Served.pins {s s' : State} (h : Served s s') : s'.pins = s.pins := (congrArg (fun z : State => z.pins) h.settled :)

/-- An accepted SET_TRIGOUT gives the masked pins their settings, and ends. -/
theorem packetIn_setTrigout {s : State} {t : SI} {p : Packet} (h : accepted s t opSetTrigout p) :
    onlyAnswers { s.moment t with pins := (s.packetIn t opSetTrigout p).pins } (s.packetIn t opSetTrigout p) ∧
      ∀ n, n < 8 → (s.packetIn t opSetTrigout p).out n =
        if bit (pField p.params 0 1) n then (s.out n).configured (pBytes p.params (8 + 8 * n) 8) (s.moment t).time.si else s.out n := by
  obtain ⟨hrest, hout⟩ := setTrigout_outs p.params (taken s t p)
  have hx := packetIn_simply (m := { s.moment t with pins := (setTrigout p.params (taken s t p)).pins }) h rfl (quiet_of_fields h.quiet rfl rfl rfl)
    (Placed.reduced hrest)
  have hpins : (s.packetIn t opSetTrigout p).pins = (setTrigout p.params (taken s t p)).pins := hx.pins
  refine ⟨?_, fun n hn => (congrArg (fun P : Pins => (tfind P.out n).getD {}) hpins).trans (hout n hn)⟩
  rw [hpins]
  exact hx.only

end Sys2Proof.Machine

namespace Sys2Proof.Proofs

open Sys2Proof.Machine Sys2Proof.Safety

/-- Settles O37: each row makes its pin another (`PinSet`): what is due waits or asserts (`asserts_assertPulse`), a pulse ends, a cancel pattern begins
(`cancels_beginCancel`). -/
theorem triggerOutputs : Obligations.TriggerOutputs := by
  unfold Obligations.TriggerOutputs
  intro s t p pin d c x b bits from_ held others
  refine ⟨fun h => ?settings, fun h => ?nothing, fun h0 hc hg => ?guarded, fun h0 hc hf => ?pattern, fun h0 hdue hd hc hg ha => ?asserts,
    fun h0 hdue hd hc hg ha => ?merges, exec_trigOutPulseEnd_none, fun ha hu => ?ends, fun h => ?noPattern, fun hc hf => ?early,
    fun h0 hc hf ha => ?begins⟩
  case settings =>
    obtain ⟨honly, hout⟩ := packetIn_setTrigout h
    refine ⟨_, rfl, honly, fun n hn => ?_⟩
    dsimp only
    rw [hout n hn, TrigOut.configured, settings_entry]
    by_cases hm : (pField p.params 0 1).testBit n = true
    · simp only [bit, hm, if_true, true_and, ne_eq, ite_not]
    · simp only [bit, hm, if_false, false_and, Bool.false_eq_true]
  case nothing =>
    rcases h with h | ⟨hc, hg, hd⟩
    · exact exec_trigOutAssert_doubt h
    · by_cases h0 : bits = 0
      · have hnone : x.due.filter (fun d => decide (d.at_ ≤ b)) = [] :=
          List.filter_eq_nil_iff.2 fun e he hle => absurd (of_decide_eq_true hle) (Nat.not_le.2 (hd e he))
        refine (exec_trigOutAssert_free h0 (by rw [guardEnd_nil hc, if_neg (Nat.not_lt.2 hg)])).trans ?_
        rw [hnone]
        rfl
      · exact exec_trigOutAssert_doubt h0
  case guarded =>
    have hx := pinSet_heldTo (s.moment t) pin.val b x.guardUntil
    exact ⟨_, exec_trigOutAssert_guarded h0 (by rw [guardEnd_nil hc, if_pos hg]), hx.only, hx.own⟩
  case pattern =>
    have hx := pinSet_heldTo (s.moment t) pin.val b (max from_ b + 64)
    exact ⟨_, exec_trigOutAssert_guarded h0 (guardEnd_single hc hf), hx.only, hx.own⟩
  case asserts =>
    have hx := asserts_assertPulse (s.moment t) pin.val d b
    refine ⟨_, exec_trigOutAssert_one h0 hdue hd hc hg, hx.pinSet.only, hx.pinSet.own.trans (TrigOut.asserted_inactive hdue ha b), hx.driven ha, ?_, ?_,
      hx.late⟩
    · rw [hx.pins]
      exact if_neg (ne_true_of_eq_false ha)
    · rw [hx.pins]
      rfl
  case merges =>
    have hx := asserts_assertPulse (s.moment t) pin.val d b
    refine ⟨_, exec_trigOutAssert_one h0 hdue hd hc hg, hx.pinSet.only, ?_, ?_, ?_, ?_, hx.merged ha⟩
    · rw [hx.pinSet.own]
      rfl
    · rw [hx.pinSet.own]
      exact congrArg (max (b + 16 * x.width)) (if_pos ha)
    · rw [hx.pinSet.own]
      exact TrigOut.asserted_due hdue b
    · rw [hx.pins]
      exact if_pos ha
  case ends =>
    have hx := pinSet_pulseEnd (s.moment t) pin.val (.pin pin.val x.polarity)
    exact ⟨_, exec_trigOutPulseEnd_ends ha hu, hx.only, hx.own, rfl⟩
  case noPattern =>
    rcases h with h | h | h | h
    · exact exec_cancelPattern_held (.inl h)
    · exact exec_cancelPattern_held (.inr h)
    · exact exec_cancelPattern_none (by rw [TrigOut.cancelDue, h, List.find?_nil])
    · exact exec_cancelPattern_none (cancelDue_guarded h)
  case early => exact exec_cancelPattern_none ((cancelDue_single hc b).trans (if_neg (Nat.not_le.2 hf)))
  case begins =>
    have hx := cancels_beginCancel (s.moment t) pin.val c b
    have hset : PinSet pin.val (x.cancelling c b) (s.moment t) ((s.moment t).beginCancel pin.val c b) := pinSet_of_pins hx.placed rfl
    have hpins := hx.placed.pins
    refine ⟨_, exec_cancelPattern_begins h0 ((cancelDue_single hc b).trans (if_pos hf)) ha, hset.only, ?_, congrArg Pins.cancels hpins, hx.counted,
      fun ⟨e, he, hlt⟩ => ?_, fun hall => (congrArg Pins.ambig hpins).trans ?_, hx.driven⟩
    · refine hset.own.trans ?_
      simp only [TrigOut.cancelling, hc, List.erase_cons_head]
    · have hamb : x.ambiguous c = true := List.any_eq_true.2 ⟨e, he, decide_eq_true hlt⟩
      exact ⟨(congrArg Pins.ambig hpins).trans (if_pos hamb), hx.ambiguous hamb⟩
    · refine if_neg fun h => ?_
      obtain ⟨e, he, hlt⟩ := List.any_eq_true.1 h
      exact absurd (of_decide_eq_true hlt) (Nat.not_lt.2 (hall e he))

end Sys2Proof.Proofs

/-! ### The live sequencer at rest, TRIG_IN pins, and the end of a shut-down (R121, R128, R145, R146) -/

namespace Sys2Proof.Machine

open Sys2Proof.Safety

/-- What places records does so under any state of the live sequencer. -/
theorem Placed.setSeq0 {s s' : State} (h : Placed s s') (q : Seq) : Placed { s with seq0 := q } { s' with seq0 := q } :=
  ⟨congrArg (fun z : State => { z with seq0 := q }) h.still, h.region, h.raised, h.posted⟩

/-! #### Nothing to do -/

theorem flushForced_nil {s : State} (h : s.seq0.forced = []) (u : SI) : s.flushForced 0 u = s := by
  have hs : ({ s with seq0 := { s.seq0 with forced := s.seq0.forced.filter (fun f => decide (u < f.1)) } } : State) = s := by
    rw [h, List.filter_nil, ← h]
  unfold State.flushForced
  rw [if_neg (by decide)]
  dsimp only
  rw [hs, h]
  rfl

theorem restarts_nil {s : State} {k : Nat} (h : (s.sq k).rearm = []) (x : SI) : s.restarts k x = s := by
  rw [State.restarts, h]
  rfl

theorem unpickAll_nil {s : State} {k : Nat} (h : (s.sq k).bastes = []) (b : SI) (reason : Nat) : s.unpickAll k b reason = s := by
  rw [State.unpickAll, Seq.byNumber, h]
  rfl

/-- The sequencer that neither is armed nor shuts down evaluates nothing. -/
theorem evaluates_none {q : Seq} (ha : q.armed = false) (hs : q.stopAt = none) : q.evaluates = false := by
  rw [Seq.evaluates, ha, hs]
  rfl

theorem more_none {q : Seq} (ha : q.armed = false) (hs : q.stopAt = none) : q.more = false := by
  rw [Seq.more, evaluates_none ha hs]
  rfl

/-! #### TRIG_IN (R128) -/

/-- Levels of the TRIG_IN pins with that of pin n set. -/
def pinLevels (v : BitVec 8) (n : Nat) (level : Bool) : BitVec 8 := if level then v ||| (1#8 <<< n) else v &&& ~~~(1#8 <<< n)

theorem pinLevels_getLsbD (v : BitVec 8) (level : Bool) {n : Nat} (h : n < 8) (k : Nat) :
    (pinLevels v n level).getLsbD k = if k = n then level else v.getLsbD k := by
  unfold pinLevels
  by_cases hk : k = n
  · subst hk
    cases level <;> simp [h]
  · rw [if_neg hk]
    by_cases h8 : k < 8
    · rcases Nat.lt_or_gt_of_ne hk with hlt | hgt
      · cases level <;> simp [h8, hlt]
      · cases level <;> simp [h8, Nat.sub_ne_zero_of_lt hgt]
    · rw [BitVec.getLsbD_of_ge _ _ (Nat.not_lt.1 h8), BitVec.getLsbD_of_ge _ _ (Nat.not_lt.1 h8)]

/-- What an idle sequencer forgets is in its buffers and levels. -/
theorem Seq.prune_eq (q : Seq) (now : SI) : ∃ lv es vs, q.prune now = { q with levels := lv, edges := es, events := vs } := by
  unfold Seq.prune
  split
  · exact ⟨_, _, _, rfl⟩
  · exact ⟨_, _, _, rfl⟩

theorem Seq.prune_evaluates {q : Seq} (h : q.evaluates = true) (now : SI) : q.prune now = q :=
  if_pos (Bool.or_eq_true_iff.2 (.inl h))

theorem exec_trigInEdge (s : State) (t : SI) (pin : Fin 8) (level : Bool) (fine : Fin 64) : exec (.trigInEdge t pin level fine) s = .next { s.moment t with
    seq0 := { s.seq0.prune (s.moment t).time.si with
      events := (s.seq0.prune (s.moment t).time.si).events ++ [{ kind := 1, src := pin.val, time := 64 * t + fine.val, level := level }] }
    pins := { s.pins with inLevels := pinLevels s.pins.inLevels pin.val level } } := rfl

/-! #### Shut-downs (R146) -/

theorem exec_disarmShutdownEnd (s : State) (t : SI) : exec (.disarmShutdownEnd t) s =
    .next (if s.seq0.drained then (s.moment t).endShutdown.releaseArm else s.moment t).goOn := rfl

/-- A shut-down has slots left to evaluate, or there is none. -/
theorem drained_none {q : Seq} (h : q.stopAt = none) : q.drained = false := by
  rw [Seq.drained, h]
  rfl

theorem limit_of_stopAt {q : Seq} {b : SI} (h : q.stopAt = some b) (hu : q.uneval = 0) : q.limit = some b := by
  simp only [Seq.limit, h, hu]

theorem drained_of_stopAt {q : Seq} {b : SI} (h : q.stopAt = some b) (hu : q.uneval = 0) (hh : q.halted = false) :
    q.drained = decide (b ≤ q.next) := by
  have he : q.evaluates = true := by rw [Seq.evaluates, h, Option.isSome_some, Bool.or_true]
  rw [Seq.drained, Seq.more, he, hh, limit_of_stopAt h hu, h]
  by_cases hlt : q.next < b
  · simp [hlt]
  · simp [hlt, Nat.not_lt.1 hlt]

/-- Nothing of the shut-down waits: it ends by itself. -/
theorem endShutdown_idle {s : State} {b : SI} (h : s.seq0.stopAt = some b) (hn : b ≤ s.seq0.next) (hu : s.seq0.uneval = 0) (hb : s.seq0.bastes = [])
    (hf : s.seq0.forced = []) (hr : s.seq0.rearm = []) : s.endShutdown = { s with seq0 := { s.seq0 with stopAt := none, rearm := [], held := 0 } } := by
  have hsq : s.sq 0 = s.seq0 := rfl
  unfold State.endShutdown
  simp only [h, hu, ne_eq, not_true_eq_false, decide_false, Bool.false_and, Bool.false_eq_true, if_false]
  rw [restarts_nil (by rw [hsq]; exact hr), unpickAll_nil (by rw [hsq]; exact hb), flushForced_nil hf, max_eq_left hn, ← hu]

/-- The state after a shut-down with nothing left has ended at slot t. -/
def State.rested (s : State) (t : SI) : State := { s.moment t with seq0 := { s.seq0 with stopAt := none, rearm := [], held := 0 } }

theorem quiet_rested {s : State} (h : quiet s) (t : SI) : quiet (s.rested t) := quiet_of_fields (quiet_moment h t) rfl rfl rfl

theorem exec_disarmShutdownEnd_idle {s : State} {b : SI} (t : SI) (h : s.seq0.stopAt = some b) (hn : b ≤ s.seq0.next) (hh : s.seq0.halted = false)
    (hu : s.seq0.uneval = 0) (hb : s.seq0.bastes = []) (hf : s.seq0.forced = []) (hr : s.seq0.rearm = []) :
    exec (.disarmShutdownEnd t) s = .next (s.rested t).releaseArm.goOn := by
  have hd : s.seq0.drained = true := by
    rw [drained_of_stopAt h hu hh]
    exact decide_eq_true hn
  rw [exec_disarmShutdownEnd, if_pos hd, endShutdown_idle (s := s.moment t) h hn hu hb hf hr]
  rfl

/-- No ARM waits. -/
theorem releaseArm_none {s : State} (h : s.cmd.deferredArm = none) : s.releaseArm = s := by
  rw [State.releaseArm, h]

/-- The state in which no ARM waits any longer. -/
def State.undeferred (s : State) : State := ({ s with cmd := { s.cmd with deferredArm := none } } : State).unreserve 2

theorem undeferred_answered (s : State) (q : Seq) : Answered { s with seq0 := q } { s.undeferred with seq0 := q } := Answered.of_fields rfl rfl rfl rfl rfl

theorem undeferred_deferredArm (s : State) : s.undeferred.cmd.deferredArm = none := rfl

/-- The deferred ARM that nothing refuses takes effect at the end of the present cycle. -/
theorem releaseArm_arms {s : State} {c : Ctx} (h : s.cmd.deferredArm = some c) (hd : s.inDoubt = false) (hc : childRefuses s c = false)
    (hb : armBlocked s (bit (pField c.params 1 1) 0) (bit (pField c.params 1 1) 1) (pField c.params 4 4) = false) :
    s.releaseArm = ((s.undeferred.armBy c s.cycleEnd).raiseIf (c.origin.kind = 1) 58).raise 133 := by
  have hc' : childRefuses s.undeferred c = false := hc
  have hb' : armBlocked s.undeferred (bit (pField c.params 1 1) 0)
    (bit (pField c.params 1 1) 1) (pField c.params 4 4) = false := hb
  have hd' : s.undeferred.inDoubt = false := hd
  have he : s.releaseArm = if s.undeferred.inDoubt then s.undeferred.armEnds c stDoubt
      else if childRefuses s.undeferred c || armBlocked s.undeferred (bit (pField c.params 1 1) 0) (bit (pField c.params 1 1) 1) (pField c.params 4 4) then
        s.undeferred.armEnds c stBadState
      else ((s.undeferred.armBy c s.cycleEnd).raiseIf (c.origin.kind = 1) 58).raise 133 := by
    unfold State.releaseArm
    rw [h]
    rfl
  rw [he, hd', hc', hb']
  rfl

/-! #### Arming (R143, R145) -/

/-- The image that an arming puts in force: the pending one with LOAD. -/
def Seq.image (q : Seq) (load : Bool) : Option (Program × Nat) := if load then some (q.pending, q.pendingId) else none

/-- The sequencer that is armed at boundary b: with RESTART while armed, the new start waits. -/
def Seq.armAt (q : Seq) (b : SI) (load : Bool) : Seq :=
  if q.armed then { q with rearm := q.rearm ++ [(b, q.image load)], activeId := q.armId load }
  else { ((q.absorb (b - 1)).1.start b (q.image load)) with cycleFrame := b / 16, cycleSlots := 0, cycleTrans := 0, held := 0 }

theorem armAt_eq (s : State) (b : SI) (load : Bool) : s.armAt b load = ({ s with seq0 := s.seq0.armAt b load } : State).raise 131 := by
  unfold State.armAt Seq.armAt
  dsimp only
  split <;> rfl

/-- What an arming puts in force: the pending program with LOAD, from boundary b on, with its counters and numbers at 0. -/
structure Armed (q : Seq) (b : SI) (load : Bool) (r : Seq) : Prop where
  armed : r.armed = true
  stopAt : r.stopAt = none
  from_ : r.from_ = b
  next : r.next = b
  active : r.active = if load then q.pending else q.active
  activeId : r.activeId = if load then q.pendingId else q.activeId
  stitch : r.stitch = r.active.startStitch
  stitchAt : r.stitchAt = r.active.startStitch
  counters : r.counters = []
  timers : r.timers = []
  tackNo : r.tackNo = 0
  basteNo : r.basteNo = 0
  pending : r.pending = q.pending
  rearm : r.rearm = []

theorem armed_armAt {q : Seq} (h : q.armed = false) (b : SI) (load : Bool) : Armed q b load (q.armAt b load) := by
  unfold Seq.armAt
  rw [if_neg (ne_true_of_eq_false h)]
  cases load <;> exact ⟨rfl, rfl, rfl, rfl, rfl, rfl, rfl, rfl, rfl, rfl, rfl, rfl, rfl, rfl⟩

theorem armAt_restart {q : Seq} (h : q.armed = true) (b : SI) (load : Bool) :
    q.armAt b load = { q with rearm := q.rearm ++ [(b, q.image load)], activeId := q.armId load } := if_pos h

theorem armAt_armed (q : Seq) (b : SI) (load : Bool) : (q.armAt b load).armed = true ∧ (q.armAt b load).activeId = q.armId load := by
  by_cases h : q.armed = true
  · rw [armAt_restart h]
    exact ⟨h, rfl⟩
  · have ha := armed_armAt (Bool.eq_false_iff.2 h) b load
    exact ⟨ha.armed, ha.activeId⟩

theorem finishAt_desk (s : State) (c : Ctx) (b : SI) (result : List Nat) : (s.finishAt c b result).desk = s.desk :=
  (completeLogged_desk _ _ _ _ _).trans (change_desk _ _ _ _ _ _)

/-- An arming changes the live sequencer, raises event 131, and answers. -/
theorem armBy_spec (s : State) (c : Ctx) (b : SI) :
    Answered { s with seq0 := s.seq0.armAt b (bit (pField c.params 1 1) 0) } (s.armBy c b) ∧ (s.armBy c b).desk = s.desk ∧
      131 ∈ (s.armBy c b).events.raised := by
  have hr := placed_raise ({ s with seq0 := s.seq0.armAt b (bit (pField c.params 1 1) 0) } : State) 131
  have hf := answered_finishAt (s.armAt b (bit (pField c.params 1 1) 0)) c b [(s.armAt b (bit (pField c.params 1 1) 0)).seq0.activeId]
  have he : s.armBy c b = (s.armAt b (bit (pField c.params 1 1) 0)).finishAt c b [(s.armAt b (bit (pField c.params 1 1) 0)).seq0.activeId] := rfl
  rw [he]
  refine ⟨?_, ?_, hf.raised _ ?_⟩
  · refine Answered.trans ?_ hf
    rw [armAt_eq]
    exact hr.answered
  · rw [finishAt_desk, armAt_eq]
    exact hr.desk
  · rw [armAt_eq]
    exact raise_mem _ _

/-- The sequencer that the deferred ARM of context c puts in force. -/
def State.released (s : State) (c : Ctx) : Seq := s.seq0.armAt s.cycleEnd (bit (pField c.params 1 1) 0)

/-- The deferred ARM stays with the rest of the desk. -/
theorem deferredArm_of_desk {a b : State} (h : a.desk = b.desk) : a.cmd.deferredArm = b.cmd.deferredArm := (congrArg Cmd.deferredArm h :)

/-- What the deferred ARM leaves when it takes effect, with events 131 and 133 (R146). -/
theorem releaseArm_row {s : State} {c : Ctx} (hq : quiet s) (h : s.cmd.deferredArm = some c) (hd : s.inDoubt = false) (hc : childRefuses s c = false)
    (hb : armBlocked s (bit (pField c.params 1 1) 0) (bit (pField c.params 1 1) 1) (pField c.params 4 4) = false) :
    Answered { s with seq0 := s.released c } s.releaseArm.goOn ∧ s.releaseArm.goOn.cmd.deferredArm = none ∧
      131 ∈ s.releaseArm.goOn.events.raised ∧ 133 ∈ s.releaseArm.goOn.events.raised := by
  obtain ⟨harm, hdesk, h131⟩ := armBy_spec s.undeferred c s.cycleEnd
  have hquiet : quiet ({ s with seq0 := s.released c } : State) := quiet_of_fields hq rfl rfl rfl
  have hlast := (placed_raiseIf (s.undeferred.armBy c s.cycleEnd) (c.origin.kind = 1) 58).trans (placed_raise _ 133)
  have hrow := (((undeferred_answered s (s.released c)).trans harm).trans hlast.answered).row hquiet
  rw [releaseArm_arms h hd hc hb]
  exact ⟨hrow.answered, (deferredArm_of_desk (hrow.desk.trans (hlast.desk.trans hdesk))).trans (undeferred_deferredArm s),
    hrow.raised _ (hlast.raised _ h131), hrow.raised _ (raise_mem _ _)⟩

/-- An arming of an idle sequencer that leaves the program as it is and gives no image ID is not blocked while a run is active. -/
theorem armBlocked_none {s : State} (hr : s.cap.runState = 1) (ha : s.seq0.armed = false) (hh : s.seq0.halted = false) (restart : Bool) :
    armBlocked s false restart 0 = false := by
  simp [armBlocked, hr, ha, hh]

end Sys2Proof.Machine

namespace Sys2Proof.Proofs

open Sys2Proof.Machine Sys2Proof.Safety

/-- Settles O36: an edge is an occurrence more (`exec_trigInEdge`); a shut-down with nothing left ends by itself (`endShutdown_idle`), and the ARM that
waits for it arms as any other does (`armBy_spec`). -/
theorem pinEdgesAndShutdowns : Obligations.PinEdgesAndShutdowns := by
  unfold Obligations.PinEdgesAndShutdowns
  intro s t pin level fine b c q run idle
  have hrests : quiet s → q.drained = false → answers (.disarmShutdownEnd t) s (s.moment t) := fun hq hd => by
    refine ⟨_, exec_disarmShutdownEnd s t, ?_⟩
    rw [if_neg (ne_true_of_eq_false hd)]
    exact ((Answered.refl (s.moment t)).row (quiet_moment hq t)).answered.only
  refine ⟨fun h => ?waits, ?edge, fun hq h => hrests hq (drained_none h), fun hq h hu hh hn => hrests hq ?going, fun hq h hn hidle hc => ?ends,
    fun hq h hn hidle hc h1 h4 hrun hdoubt hkind hlocal => ?arms⟩
  case waits =>
    have he : q.evaluates = true := by
      rcases h with h | h
      · rw [Seq.evaluates, h, Bool.true_or]
      · rw [Seq.evaluates, Option.isSome_iff_ne_none.2 h, Bool.or_true]
    refine (exec_trigInEdge s t pin level fine).trans ?_
    rw [Seq.prune_evaluates he]
    rfl
  case edge =>
    obtain ⟨lv, es, vs, hprune⟩ := q.prune_eq (s.moment t).time.si
    refine ⟨_, exec_trigInEdge s t pin level fine, rfl, ?_, fun k hk => ?_, ?_⟩
    · exact (pinLevels_getLsbD _ _ pin.isLt _).trans (if_pos rfl)
    · exact (pinLevels_getLsbD _ _ pin.isLt _).trans (if_neg hk)
    · rw [show s.seq0.prune (s.moment t).time.si = _ from hprune]
      exact ⟨rfl, rfl, rfl⟩
  case going =>
    rw [drained_of_stopAt h hu hh]
    exact decide_eq_false (Nat.not_le.2 hn)
  case ends =>
    obtain ⟨-, hh, hu, hb, hf, hr⟩ := hidle
    have hrun := exec_disarmShutdownEnd_idle t h hn hh hu hb hf hr
    rw [show (s.rested t).releaseArm = s.rested t from releaseArm_none hc] at hrun
    exact ⟨_, hrun, ((Answered.refl (s.rested t)).row (quiet_rested hq t)).answered.only⟩
  case arms =>
    obtain ⟨ha, hh, hu, hb, hf, hr⟩ := hidle
    have hload : bit (pField c.params 1 1) 0 = false := by rw [h1]; rfl
    have hrefuses : childRefuses (s.rested t) c = false := by
      have hlocal : (s.rested t).cas.role = 2 → (s.rested t).cas.localArm = true := hlocal
      unfold childRefuses
      by_cases hrole : (s.rested t).cas.role = 2
      · simp [hlocal hrole]
      · simp [hrole]
    have hblocked : armBlocked (s.rested t) (bit (pField c.params 1 1) 0) (bit (pField c.params 1 1) 1) (pField c.params 4 4) = false := by
      rw [hload, h4]
      exact armBlocked_none hrun ha hh _
    obtain ⟨hanswered, hnone, h131, h133⟩ := releaseArm_row (quiet_rested hq t) (show (s.rested t).cmd.deferredArm = some c from hc)
      (inDoubt_of_eq hdoubt) hrefuses hblocked
    have harmed : Armed (s.rested t).seq0 (s.rested t).cycleEnd false ((s.rested t).released c) := by
      rw [State.released, hload]
      exact armed_armAt (q := (s.rested t).seq0) ha _ _
    have hseq := hanswered.seq0
    refine ⟨_, exec_disarmShutdownEnd_idle t h hn hh hu hb hf hr, ?_, ?_, ?_, ?_, hnone, h131, h133⟩
    · rw [hseq]
      exact hanswered.only
    · rw [hseq]
      exact harmed.armed
    · rw [hseq]
      exact harmed.stopAt
    · rw [hseq]
      exact harmed.next

end Sys2Proof.Proofs

/-! ### Slots evaluated (R131 to R139, R150) -/

namespace Sys2Proof.Machine

open Sys2Proof.Safety

/-! #### What a fire drives -/

/-- s' comes from s by what a fire drives: pins and the cascade's ports change, and records are placed. -/
def Driven (s s' : State) : Prop := Placed { s with pins := s'.pins, cas := s'.cas } s'

theorem Placed.driven {s s' : State} (h : Placed s s') : Driven s s' := (h.setPins s'.pins).setCas s'.cas

theorem Linked.driven {s s' : State} (h : Linked s s') : Driven s s' := Placed.setPins h s'.pins

theorem Pinned.driven {s s' : State} (h : Pinned s s') : Driven s s' := Placed.setCas h s'.cas

theorem Driven.trans {a b c : State} (h : Driven a b) (k : Driven b c) : Driven a c := ((Placed.setPins h c.pins).setCas c.cas).trans k

theorem Driven.raised {a b : State} (h : Driven a b) {n : Nat} (hn : n ∈ a.events.raised) : n ∈ b.events.raised := Placed.raised h n hn

/-- Pulses decided in doubt or out of it. -/
theorem pinned_pulse (s : State) (sel : Nat → TrigOut → Bool) (tack : FineTime) (now : SI) (baste : Option (Nat × Nat)) :
    Pinned s (s.pulse sel tack now baste) ∧ (s.inDoubt = false → ∀ n, n < 8 → (s.pulse sel tack now baste).out n =
      if sel n (s.out n) then (s.out n).schedule s.time.ref.rateKhz tack now baste else s.out n) := by
  obtain ⟨hrest, hin, -⟩ := foldl_pinSet (l := List.range 8) (key := id) (T := s.time) (s := s)
    (f := fun s n => if sel n (s.out n) then s.modOut n (fun x => x.schedule s.time.ref.rateKhz tack now baste) else s)
    (R := fun n x y => y = if sel n x then x.schedule s.time.ref.rateKhz tack now baste else x)
    (fun s' n ht => by
      by_cases hs : sel n (s'.out n) = true
      · rw [if_pos hs]
        exact ⟨_, pinSet_modOut s' n _, by rw [ht]; exact (if_pos hs).symm⟩
      · rw [if_neg hs]
        exact ⟨_, pinSet_refl s' n, (if_neg hs).symm⟩)
    (by rw [List.map_id]; exact List.nodup_range) rfl
  unfold State.pulse
  by_cases hd : s.inDoubt = true
  · rw [if_pos hd]
    exact ⟨Pinned.refl s, fun h => absurd hd (ne_true_of_eq_false h)⟩
  · rw [if_neg hd]
    exact ⟨hrest, fun _ n hn => hin n (List.mem_range.2 hn)⟩

/-! #### Tacks of the live sequencer (R139) -/

/-- The sequencer that shows tack r, of a branch of a stitch, as its last one. -/
def Seq.showTack (q : Seq) (r : TackRef) (stitch branch : Nat) : Seq :=
  { q with lastStitch := stitch, lastBranch := branch, lastKind := r.kind, lastFine := r.fine, lastSi := r.si }

theorem placed_seqPlace (s : State) (r : Rec) : Placed s (s.seqPlace 0 r) := by
  unfold State.seqPlace
  rw [if_pos rfl]
  split
  · exact placed_placeProvisional _ _
  · exact placed_placeActive _ _

theorem placeTack_live (s : State) (x : TackRef × Rec) (stitch branch : Nat) :
    Placed { s with seq0 := s.seq0.showTack x.1 stitch branch } (s.placeTack 0 x stitch branch) ∧
      (x.1.kind < 2 → 128 ∈ (s.placeTack 0 x stitch branch).events.raised) := by
  have he : s.placeTack 0 x stitch branch =
      ({ s.seqPlace 0 x.2 with seq0 := (s.seqPlace 0 x.2).seq0.showTack x.1 stitch branch } : State).raiseIf (x.1.kind < 2) 128 := rfl
  have hplace := placed_seqPlace s x.2
  rw [he, hplace.seq0]
  refine ⟨(hplace.setSeq0 _).trans (placed_raiseIf _ _ _), fun hk => ?_⟩
  rw [State.raiseIf, if_pos (decide_eq_true hk)]
  exact raise_mem _ _

/-- The tack of a branch that becomes true with val in slot x. -/
def State.branchTack (s : State) (x : SI) (val : TermVal) : TackRef :=
  { si := x, fine := val.at_, seq := 0, kind := 0, origin := s.cas.unitId.toNat, number := (s.seq0.tackNo + 1) % 2 ^ 32 }

/-- The sequencer that has taken the number of tack r and holds off after it. -/
def Seq.holdOff (q : Seq) (r : TackRef) : Seq := { q with tackNo := r.number, holdFrom := some (64 * r.si + r.fine), holdBaste := none }

/-- The message of a fire, where it leaves. -/
def State.sendFires (s : State) (m : CasMsg) : State := if s.sends 0 then s.originate 3 m else s

theorem linked_sendFires (s : State) (m : CasMsg) : Linked s (s.sendFires m) := by
  unfold State.sendFires
  split
  · exact linked_originate _ _ _
  · exact Linked.refl s

/-- The tack has taken its number and its place among the records. -/
def State.placedTack (s : State) (x : SI) (val : TermVal) (j : Nat) : State :=
  ({ s with seq0 := s.seq0.holdOff (s.branchTack x val) } : State).placeTack 0
    (s.branchTack x val, recTack (s.branchTack x val) false false (s.gapAt 0 x) val.settle val.coarse false s.seq0.stitch j 0) s.seq0.stitch j

/-- Its pulses are decided. -/
def State.pulsedTack (s : State) (x : SI) (val : TermVal) (j : Nat) : State :=
  (s.placedTack x val j).pulse (fun _ p => bit p.source srcLive) (64 * x + val.at_) (s.placedTack x val j).cycleEnd none

theorem placedTack_live (s : State) (x : SI) (val : TermVal) (j : Nat) :
    Placed { s with seq0 := (s.seq0.holdOff (s.branchTack x val)).showTack (s.branchTack x val) s.seq0.stitch j } (s.placedTack x val j) ∧
      128 ∈ (s.placedTack x val j).events.raised := by
  obtain ⟨hplace, hraised⟩ := placeTack_live ({ s with seq0 := s.seq0.holdOff (s.branchTack x val) } : State)
    (s.branchTack x val, recTack (s.branchTack x val) false false (s.gapAt 0 x) val.settle val.coarse false s.seq0.stitch j 0) s.seq0.stitch j
  exact ⟨hplace, hraised Nat.two_pos⟩

/-- A tack with no window ends with its message. -/
theorem fireTack_eq (s : State) (x : SI) (val : TermVal) (j : Nat) {b : Branch} (hw : b.window = false) : s.fireTack 0 x val j b =
    (s.pulsedTack x val j).sendFires ((s.pulsedTack x val j).message (s.pulsedTack x val j).coastFlag (s.branchTack x val).number
      ((s.pulsedTack x val j).tackSt x val.at_) 0) := by
  have hk : (0 : Nat) ≠ 1 := by decide
  unfold State.fireTack State.nextTack
  simp only [hw, State.modSeq, State.sq, if_true, if_neg hk, Bool.false_eq_true, if_false]
  rfl

/-- A tack of the live sequencer with no window (R138, R139). -/
theorem fireTack_driven (s : State) (x : SI) (val : TermVal) (j : Nat) {b : Branch} (hw : b.window = false) :
    Driven { s with seq0 := (s.seq0.holdOff (s.branchTack x val)).showTack (s.branchTack x val) s.seq0.stitch j } (s.fireTack 0 x val j b) ∧
      128 ∈ (s.fireTack 0 x val j b).events.raised := by
  obtain ⟨hplace, hraised⟩ := placedTack_live s x val j
  have hpulse : Pinned (s.placedTack x val j) (s.pulsedTack x val j) := (pinned_pulse _ _ _ _ _).1
  have hsend : Driven (s.placedTack x val j) (s.fireTack 0 x val j b) := by
    rw [fireTack_eq s x val j hw]
    exact hpulse.driven.trans (linked_sendFires _ _).driven
  exact ⟨hplace.driven.trans hsend, hsend.raised hraised⟩

/-! #### The branch that a slot takes (R131 to R133) -/

/-- A branch with no valid term is true, at the start of the slot. -/
theorem eval_noTerms {b : Branch} (h : ∀ u ∈ b.terms, u.testBit 7 = false) (vals : Tab TermVal) : b.eval vals = { on := true } := by
  have hnone : b.terms.filter (fun t => bit t 7) = [] := List.filter_eq_nil_iff.2 fun u hu => ne_true_of_eq_false (h u hu)
  rw [Branch.eval, hnone]
  rfl

theorem choose_nil {q : Seq} (h : (tfind q.active.stitches q.stitch).getD [] = []) (vals : Tab TermVal) : q.choose vals = none := by
  rw [Seq.choose, h]
  rfl

/-- The first branch of the stitch is taken where it is true. -/
theorem choose_first {q : Seq} {b : Branch} {rest : List Branch} (h : (tfind q.active.stitches q.stitch).getD [] = b :: rest)
    (hvalid : b.ctrl.testBit 0 = true) (hterms : ∀ u ∈ b.terms, u.testBit 7 = false) (vals : Tab TermVal) :
    q.choose vals = some (0, b, { on := true }) := by
  rw [Seq.choose, h, List.zipIdx_cons, List.map_cons, List.find?_cons_of_pos]
  · rw [eval_noTerms hterms]
  · rw [eval_noTerms hterms]
    exact Bool.and_eq_true_iff.2 ⟨hvalid, rfl⟩

theorem allTerms_nil {q : Seq} (h : q.active.terms = []) (v : SlotView) : q.allTerms v = ([], q) := by
  rw [Seq.allTerms, h]
  rfl

/-- Counters at 0 that count nothing stay so. -/
theorem countersNext_nil {q : Seq} (h : q.counters = []) (ha : q.active.counters = []) : q.countersNext [] 0 = [] := by
  rw [Seq.countersNext, h, ha]
  rfl

/-- What the timers do in a slot is in the timers alone. -/
theorem timersNext_eq (q : Seq) (op : Nat) : ∃ ts on, q.timersNext op = { q with timers := ts, timersOn := on } := by
  unfold Seq.timersNext
  dsimp only
  split
  · split
    · exact ⟨_, _, rfl⟩
    · exact ⟨_, _, rfl⟩
  · split
    · exact ⟨_, _, rfl⟩
    · exact ⟨_, _, rfl⟩

/-- The sequencer at the end of slot x, in which it has taken no branch. -/
def Seq.passed (q : Seq) (x : SI) (vals : Tab TermVal) : Seq := { q.timersNext 0 with counters := q.countersNext vals 0, next := x + 1 }

/-- The sequencer that leaves its stitch by branch b. -/
def Seq.leave (q : Seq) (b : Branch) : Seq := { q with stitch := b.next % 16, transCnt := satInc 32 q.transCnt, cycleTrans := q.cycleTrans + 1 }

/-- The sequencer at the end of slot x, in which it has taken branch b. -/
def Seq.stepped (q : Seq) (b : Branch) (x : SI) (vals : Tab TermVal) : Seq :=
  { (q.leave b).timersNext b.tmrOp with counters := (q.leave b).countersNext vals b.ctrOp, next := x + 1 }

theorem passed_eq (q : Seq) (x : SI) (vals : Tab TermVal) :
    ∃ ts on, q.passed x vals = { q with timers := ts, timersOn := on, counters := q.countersNext vals 0, next := x + 1 } := by
  obtain ⟨ts, on, h⟩ := timersNext_eq q 0
  rw [Seq.passed, h]
  exact ⟨ts, on, rfl⟩

theorem stepped_eq (q : Seq) (b : Branch) (x : SI) (vals : Tab TermVal) : ∃ ts on, q.stepped b x vals =
    { q.leave b with timers := ts, timersOn := on, counters := (q.leave b).countersNext vals b.ctrOp, next := x + 1 } := by
  obtain ⟨ts, on, h⟩ := timersNext_eq (q.leave b) b.tmrOp
  rw [Seq.stepped, h]
  exact ⟨ts, on, rfl⟩

/-- The branch that the live sequencer takes in slot x, seen as v with the terms' values, and what it does. -/
def State.takeBranch (s : State) (x : SI) (v : SlotView) (vals : Tab TermVal) : State :=
  match s.seq0.choose vals with
  | none => { s with seq0 := s.seq0.passed x vals }
  | some (j, b, val) =>
    let s := ((s.fire 0 x val j b).resolveNew 0 v vals).branchActions 0 x val b
    let s := s.modSeq 0 (fun q => { (q.timersNext b.tmrOp) with counters := q.countersNext vals b.ctrOp, next := x + 1 })
    if bit b.misc 1 then s.stopAction 0 x else s

theorem takeBranch_none {s : State} {vals : Tab TermVal} (h : s.seq0.choose vals = none) (x : SI) (v : SlotView) :
    s.takeBranch x v vals = { s with seq0 := s.seq0.passed x vals } := by
  rw [State.takeBranch, h]

theorem resolveNew_nil {s : State} (h : s.seq0.bastes = []) (v : SlotView) (vals : Tab TermVal) : s.resolveNew 0 v vals = s := by
  have hb : (s.sq 0).bastes = [] := h
  rw [State.resolveNew, hb]
  rfl

/-- With nothing before it, a tack is never held off. -/
theorem fire_tack {s : State} {b : Branch} (hf : b.fire = 1) (hh : s.seq0.holdFrom = none) (x : SI) (val : TermVal) (j : Nat) :
    s.fire 0 x val j b = s.fireTack 0 x val j b := by
  have hheld : (s.sq 0).held' (64 * x + val.at_) = false := by
    have hh : (s.sq 0).holdFrom = none := hh
    rw [Seq.held', hh]
  unfold State.fire
  rw [hf]
  exact if_neg (ne_true_of_eq_false hheld)

/-- A branch that neither drives nor stops the run leaves its stitch. -/
theorem branchActions_leave {b : Branch} (h : b.drive = 0) (s : State) (x : SI) (val : TermVal) :
    s.branchActions 0 x val b = { s with seq0 := s.seq0.leave b } := by
  unfold State.branchActions
  rw [h]
  rfl

/-- A true branch that only fires a tack. -/
theorem takeBranch_tack {s : State} {vals : Tab TermVal} {val : TermVal} {j : Nat} {b : Branch} (hc : s.seq0.choose vals = some (j, b, val))
    (hf : b.fire = 1) (hd : b.drive = 0) (hm : b.misc = 0) (hh : s.seq0.holdFrom = none) (hb : s.seq0.bastes = []) (x : SI) (v : SlotView) :
    s.takeBranch x v vals = { s.fireTack 0 x val j b with seq0 := (s.fireTack 0 x val j b).seq0.stepped b x vals } := by
  have hw : b.window = false := by
    rw [Branch.window, hm]
    rfl
  have hseq : (s.fireTack 0 x val j b).seq0.bastes = [] := (congrArg Seq.bastes (Placed.seq0 (fireTack_driven s x val j hw).1)).trans hb
  rw [State.takeBranch, hc]
  dsimp only
  rw [fire_tack hf hh, resolveNew_nil hseq, branchActions_leave hd, hm]
  rfl

theorem Driven.setSeq0 {a b : State} (h : Driven a b) (q : Seq) : Driven { a with seq0 := q } { b with seq0 := q } := Placed.setSeq0 h q

/-- The sequencer at the end of slot x, in which branch b, the j-th of its stitch, has fired tack r. -/
def Seq.tacked (q : Seq) (r : TackRef) (j : Nat) (b : Branch) (x : SI) (vals : Tab TermVal) : Seq :=
  ((q.holdOff r).showTack r q.stitch j).stepped b x vals

theorem tacked_eq (q : Seq) (r : TackRef) (j : Nat) (b : Branch) (x : SI) (vals : Tab TermVal) : ∃ ts on cs, q.tacked r j b x vals =
    { ((q.holdOff r).showTack r q.stitch j).leave b with timers := ts, timersOn := on, counters := cs, next := x + 1 } := by
  obtain ⟨ts, on, h⟩ := stepped_eq ((q.holdOff r).showTack r q.stitch j) b x vals
  exact ⟨ts, on, _, h⟩

theorem takeBranch_driven {s : State} {vals : Tab TermVal} {val : TermVal} {j : Nat} {b : Branch} (hc : s.seq0.choose vals = some (j, b, val))
    (hf : b.fire = 1) (hd : b.drive = 0) (hm : b.misc = 0) (hh : s.seq0.holdFrom = none) (hb : s.seq0.bastes = []) (x : SI) (v : SlotView) :
    Driven { s with seq0 := s.seq0.tacked (s.branchTack x val) j b x vals } (s.takeBranch x v vals) ∧
      128 ∈ (s.takeBranch x v vals).events.raised := by
  have hw : b.window = false := by
    rw [Branch.window, hm]
    rfl
  obtain ⟨hfire, hraised⟩ := fireTack_driven s x val j hw
  rw [takeBranch_tack hc hf hd hm hh hb, Placed.seq0 hfire]
  exact ⟨hfire.setSeq0 _, hraised⟩

/-! #### One slot -/

/-- The live sequencer's slot x from where its buffers are ready. -/
def State.slotOf (s : State) (x : SI) : State :=
  let r := s.seq0.absorb x
  let v := s.view 0 x r.1 r.2.1 r.2.2
  let w := r.1.allTerms v
  ((({ s with seq0 := { w.2 with stitchAt := w.2.stitch } } : State).resolveBastes 0 v w.1).takeBranch x v w.1).flushForced 0 x

theorem evalSlot_eq (s : State) : s.evalSlot 0 = (((s.restarts 0 s.seq0.next).cutEdges 0 s.seq0.next).firstSlot 0 s.seq0.next).slotOf s.seq0.next := by
  unfold State.evalSlot State.slotOf
  rfl

theorem resolveBastes_nil {s : State} (h : s.seq0.bastes = []) (v : SlotView) (vals : Tab TermVal) : s.resolveBastes 0 v vals = s := by
  have hb : (s.sq 0).bastes = [] := h
  rw [State.resolveBastes, Seq.byNumber, hb]
  rfl

/-- With no terms and no bastes a slot takes in what has arrived, and a branch is taken. -/
theorem slotOf_plain {s : State} (ht : s.seq0.active.terms = []) (hb : s.seq0.bastes = []) (x : SI) : ∃ v, s.slotOf x =
    (({ s with seq0 := { (s.seq0.absorb x).1 with stitchAt := s.seq0.stitch } } : State).takeBranch x v []).flushForced 0 x := by
  have hterms : (s.seq0.absorb x).1.active.terms = [] := ht
  refine ⟨s.view 0 x (s.seq0.absorb x).1 (s.seq0.absorb x).2.1 (s.seq0.absorb x).2.2, ?_⟩
  rw [State.slotOf]
  dsimp only
  rw [allTerms_nil hterms, resolveBastes_nil]
  · rfl
  · exact hb

/-- The sequencer that has taken in what has arrived, its levels, buffers and matches being as given, at the start of its stitch. -/
def Seq.takenIn (q : Seq) (lv : Tab Bool) (es : List SeqEdge) (vs : List SeqEvent) (mt : Tab Bool) : Seq :=
  { q with levels := lv, edges := es, events := vs, matched := mt, stitchAt := q.stitch }

/-- What the first slot changes is in the levels, the buffers and the matches. -/
theorem firstSlot_eq (s : State) (x : SI) :
    ∃ lv es vs mt, s.firstSlot 0 x = { s with seq0 := { s.seq0 with levels := lv, edges := es, events := vs, matched := mt } } := by
  unfold State.firstSlot
  split
  · exact ⟨_, _, _, _, rfl⟩
  · split
    · exact ⟨_, _, _, _, rfl⟩
    · exact ⟨_, _, _, _, rfl⟩

/-- The evaluation of a slot with no terms, no bastes, no forced tacks and no arming that waits. -/
theorem evalSlot_plain {s : State} (hr : s.seq0.rearm = []) (ht : s.seq0.active.terms = []) (hb : s.seq0.bastes = []) :
    ∃ v lv es vs mt, s.evalSlot 0 = (({ s with seq0 := s.seq0.takenIn lv es vs mt } : State).takeBranch s.seq0.next v []).flushForced 0 s.seq0.next := by
  obtain ⟨lv, es, vs, mt, hfirst⟩ := firstSlot_eq s s.seq0.next
  have hcut : s.cutEdges 0 s.seq0.next = s := if_pos rfl
  have hr : (s.sq 0).rearm = [] := hr
  rw [evalSlot_eq, restarts_nil hr, hcut, hfirst]
  obtain ⟨v, hv⟩ := slotOf_plain (s := { s with seq0 := { s.seq0 with levels := lv, edges := es, events := vs, matched := mt } }) ht hb s.seq0.next
  exact ⟨v, _, _, _, _, hv⟩

/-! #### The slot in its FRM cycle (R136) -/

/-- The sequencer whose next slot can be evaluated at slot x, in the cycle that it is in, with nothing to judge but its stitch. -/
structure Seq.Ready (q : Seq) (x : SI) : Prop where
  armed : q.armed = true
  halted : q.halted = false
  stopAt : q.stopAt = none
  uneval : q.uneval = 0
  cycleFrame : q.cycleFrame = q.next / 16 + 11
  cycleSlots : q.cycleSlots < 32
  cycleTrans : q.cycleTrans < 4
  begun : 16 * q.cycleFrame ≤ x
  terms : q.active.terms = []
  sources : q.active.counters = []
  counters : q.counters = []
  bastes : q.bastes = []
  rearm : q.rearm = []
  forced : q.forced = []

theorem Seq.Ready.more {q : Seq} {x : SI} (h : q.Ready x) : q.more = true := by
  have hlimit : q.limit = none := by simp only [Seq.limit, h.stopAt, h.uneval]
  rw [Seq.more, Seq.evaluates, hlimit, h.armed, h.halted]
  rfl

theorem Seq.Ready.cycle {q : Seq} {x : SI} (h : q.Ready x) : q.cycle = q.cycleFrame := by
  have hopen : (decide (32 ≤ q.cycleSlots) || decide (4 ≤ q.cycleTrans)) = false := by
    rw [decide_eq_false (Nat.not_le.2 h.cycleSlots), decide_eq_false (Nat.not_le.2 h.cycleTrans)]
    rfl
  have hmax : q.cycle = max (q.next / 16 + 11) q.cycleFrame := by
    rw [Seq.cycle, hopen]
    rfl
  rw [hmax, h.cycleFrame, max_self]

/-- The sequencer at the end of a slot's evaluation. -/
def Seq.slotDone (q : Seq) : Seq := ({ q with cycleSlots := q.cycleSlots + 1 } : Seq).noteLag

/-- The lag noted is in the registers alone. -/
theorem slotDone_eq (q : Seq) : ∃ h l, q.slotDone = { q with cycleSlots := q.cycleSlots + 1, held := h, lagMax := l } := by
  unfold Seq.slotDone Seq.noteLag
  split
  · exact ⟨_, _, rfl⟩
  · exact ⟨_, _, rfl⟩

/-- The state at the end of a slot's evaluation. -/
def State.slotEnd (s : State) : State := { s with seq0 := s.seq0.slotDone }

theorem slotEnd_events (s : State) : s.slotEnd.events = s.events := rfl

theorem haltAtEnd_none {s : State} (h : s.seq0.uneval = 0) : s.haltAtEnd = s := by
  refine if_neg ?_
  simp [h]

theorem haltAtEnd_slotEnd {s : State} (h : s.seq0.uneval = 0) : s.slotEnd.haltAtEnd = s.slotEnd := by
  obtain ⟨a, l, hdone⟩ := slotDone_eq s.seq0
  have hlag : s.slotEnd.seq0.uneval = 0 := by
    rw [State.slotEnd, hdone]
    exact h
  exact haltAtEnd_none hlag

theorem liveSlot_ready {s : State} {x : SI} (h : s.seq0.Ready x) (hu : (s.evalSlot 0).seq0.uneval = 0) :
    s.liveSlot x = ((s.evalSlot 0).slotEnd, true) := by
  have hbegun : ¬ x / 16 < s.seq0.cycleFrame := Nat.not_lt.2 ((Nat.le_div_iff_mul_le (by decide)).2 (Nat.mul_comm 16 _ ▸ h.begun))
  have hslot : s.liveSlot x = ((s.evalSlot 0).slotEnd.haltAtEnd, true) := by
    unfold State.liveSlot
    simp only [h.more, h.cycle, hbegun, Bool.not_true, Bool.false_eq_true, if_false, ne_eq, not_true_eq_false]
    generalize s.evalSlot 0 = e
    rfl
  rw [hslot, haltAtEnd_slotEnd hu]

/-! #### The row SLOT_EVALUATION -/

theorem finishCutEngines_none {s : State} (h : s.cutEngines = []) (sel : Nat × SI × Engine → Bool) : s.finishCutEngines sel = s := by
  have hs : ({ s with cutEngines := [] } : State) = s := by rw [← h]
  rw [State.finishCutEngines, h]
  exact hs

theorem advanceEngines_none {s : State} (he : s.engines = []) (hc : s.cutEngines = []) : s.advanceEngines = s := by
  unfold State.advanceEngines State.advanceEnginesTo
  dsimp only
  rw [finishCutEngines_none hc, he]
  rfl

theorem fieldsBy_none {s : State} (he : s.engines = []) : s.fieldsBy = s.time.si := by
  unfold State.fieldsBy
  rw [he]
  show s.time.si - (0 - 160) = s.time.si
  rw [Nat.zero_sub, Nat.sub_zero]

theorem liveSlots_one {s s' : State} {x : SI} (h : s.liveSlot x = (s', true)) : s.liveSlots x 1 = s' := by
  rw [State.liveSlots, h]
  rfl

/-- The live sequencer evaluates where no decode engine is in use. -/
theorem exec_slotEvaluation_live {s : State} (t : SI) (slots : Nat) (he : s.engines = []) (hc : s.cutEngines = []) :
    exec (.slotEvaluation t 0 slots) s = .next ((s.moment t).liveSlots (s.moment t).time.si slots).goOn := by
  have hm : (s.moment t).advanceEngines = s.moment t := advanceEngines_none he hc
  have hf : (s.moment t).fieldsBy = (s.moment t).time.si := fieldsBy_none he
  have hrow : rowSlotEvaluation t 0 slots s = (s.moment t).liveSlots (s.moment t).time.si slots := by
    show (s.moment t).advanceEngines.liveSlots (s.moment t).fieldsBy slots = _
    rw [hm, hf]
  exact congrArg (fun x : State => Host.Outcome.next x.goOn) hrow

theorem liveSlots_none {s : State} (h : s.seq0.more = false) (x : SI) (n : Nat) : s.liveSlots x n = s := by
  cases n with
  | zero => rfl
  | succ n =>
    have hslot : s.liveSlot x = (s, false) := if_pos (by rw [h]; rfl)
    rw [State.liveSlots, hslot]

theorem Answered.setSeq0 {a b : State} (h : Answered a b) (q : Seq) : Answered { a with seq0 := q } { b with seq0 := q } :=
  ⟨congrArg (fun z : State => { z with seq0 := q }) h.settled, h.region, h.raised, h.posted, h.fetched⟩

/-- The lag noted at a slot's end leaves the rest of the sequencer. -/
structure Seq.Lagged (q r : Seq) : Prop where
  armed : r.armed = q.armed
  next : r.next = q.next
  stitch : r.stitch = q.stitch
  stitchAt : r.stitchAt = q.stitchAt
  counters : r.counters = q.counters
  tackNo : r.tackNo = q.tackNo
  transCnt : r.transCnt = q.transCnt
  holdFrom : r.holdFrom = q.holdFrom
  lastSi : r.lastSi = q.lastSi
  lastKind : r.lastKind = q.lastKind
  cycleSlots : r.cycleSlots = q.cycleSlots + 1

theorem lagged_slotDone (q : Seq) : q.Lagged q.slotDone := by
  obtain ⟨a, l, h⟩ := slotDone_eq q
  rw [h]
  exact ⟨rfl, rfl, rfl, rfl, rfl, rfl, rfl, rfl, rfl, rfl, rfl⟩

/-- One slot of a ready sequencer: its evaluation makes r of it, in a state e that is x but for records; the lag is noted. -/
theorem exec_slotEvaluation_ready {s x e : State} {t : SI} {r : Seq} (he : s.engines = []) (hc : s.cutEngines = [])
    (h : s.seq0.Ready (s.moment t).time.si) (hx : quiet x) (heval : (s.moment t).evalSlot 0 = e) (ha : Answered { x with seq0 := r } e)
    (hu : r.uneval = 0) : ∃ s', exec (.slotEvaluation t 0 1) s = .next s' ∧
      Answered { x with seq0 := s'.seq0 } s' ∧ r.Lagged s'.seq0 ∧ ∀ n, n ∈ e.events.raised → n ∈ s'.events.raised := by
  have hseq : e.seq0 = r := ha.seq0
  have hrun : (s.moment t).liveSlot (s.moment t).time.si = (e.slotEnd, true) := by
    rw [← heval] at hseq ⊢
    exact liveSlot_ready h ((congrArg Seq.uneval hseq).trans hu)
  have hdone : Answered { x with seq0 := r.slotDone } e.slotEnd := by
    rw [State.slotEnd, hseq]
    exact ha.setSeq0 _
  have hrow := hdone.row (quiet_of_fields hx rfl rfl rfl)
  have hlast : e.slotEnd.goOn.seq0 = r.slotDone := hrow.answered.seq0
  refine ⟨_, ?_, ?_, ?_, fun n hn => hrow.raised n ?_⟩
  · rw [exec_slotEvaluation_live t 1 he hc, liveSlots_one hrun]
  · rw [hlast]
    exact hrow.answered
  · rw [hlast]
    exact lagged_slotDone r
  · rw [slotEnd_events]
    exact hn

/-- The replay sequencer with no replay in progress. -/
theorem replaying_none {s : State} (h : ∀ j ∈ s.cmd.jobs, j.ctx.opcode ≠ 0x0810) : s.replaying = false := by
  refine List.any_eq_false.2 fun j hj => ?_
  simp [h j hj]

theorem replayGo_none {s : State} (h : s.replaying = false) : s.replayGo = s := by
  have hparse : ∀ n, s.replayParse (n + 1) = s := fun n => if_pos (by rw [h]; rfl)
  rw [State.replayGo, hparse]
  exact if_pos (by rw [h]; rfl)

theorem replaySlots_none {s : State} (h : s.replaying = false) (n : Nat) : s.replaySlots n = s := by
  cases n with
  | zero => rfl
  | succ n =>
    have hslot : s.replaySlot = (s, false) := if_pos (by rw [h]; rfl)
    rw [State.replaySlots, hslot]

theorem exec_slotEvaluation_replay {s : State} (t : SI) (slots : Nat) (h : ∀ j ∈ s.cmd.jobs, j.ctx.opcode ≠ 0x0810) :
    exec (.slotEvaluation t 1 slots) s = .next (s.moment t).goOn := by
  have hm : (s.moment t).replaying = false := replaying_none h
  have hrow : rowSlotEvaluation t 1 slots s = s.moment t := by
    show (s.moment t).replayGo.replaySlots slots = _
    rw [replayGo_none hm, replaySlots_none hm]
  exact congrArg (fun x : State => Host.Outcome.next x.goOn) hrow

/-! #### What a slot leaves -/

/-- r is the sequencer q after a slot in which it has taken no branch. -/
structure Seq.Passes (q r : Seq) : Prop where
  next : r.next = q.next + 1
  stitch : r.stitch = q.stitch
  stitchAt : r.stitchAt = q.stitch
  tackNo : r.tackNo = q.tackNo
  transCnt : r.transCnt = q.transCnt
  armed : r.armed = q.armed
  counters : r.counters = []
  cycleSlots : r.cycleSlots = q.cycleSlots
  uneval : r.uneval = q.uneval
  forced : r.forced = q.forced

theorem passes_passed {q : Seq} (hc : q.counters = []) (ha : q.active.counters = []) (lv : Tab Bool) (es : List SeqEdge) (vs : List SeqEvent) (mt : Tab Bool) :
    q.Passes ((q.takenIn lv es vs mt).passed q.next []) := by
  obtain ⟨ts, on, h⟩ := passed_eq (q.takenIn lv es vs mt) q.next []
  rw [countersNext_nil (q := q.takenIn lv es vs mt) hc ha] at h
  rw [h]
  exact ⟨rfl, rfl, rfl, rfl, rfl, rfl, rfl, rfl, rfl, rfl⟩

/-- r is the sequencer q after a slot in which branch b has fired a tack at the slot's start. -/
structure Seq.Tacks (q : Seq) (b : Branch) (r : Seq) : Prop where
  next : r.next = q.next + 1
  stitch : r.stitch = b.next % 16
  stitchAt : r.stitchAt = q.stitch
  tackNo : r.tackNo = (q.tackNo + 1) % 2 ^ 32
  transCnt : r.transCnt = satInc 32 q.transCnt
  holdFrom : r.holdFrom = some (64 * q.next)
  lastSi : r.lastSi = q.next
  lastKind : r.lastKind = 0
  uneval : r.uneval = q.uneval
  forced : r.forced = q.forced

theorem tacks_tacked (s : State) (lv : Tab Bool) (es : List SeqEdge) (vs : List SeqEvent) (mt : Tab Bool) (j : Nat) (b : Branch) (vals : Tab TermVal) :
    s.seq0.Tacks b ((s.seq0.takenIn lv es vs mt).tacked (s.branchTack s.seq0.next { on := true }) j b s.seq0.next vals) := by
  obtain ⟨ts, on, cs, h⟩ := tacked_eq (s.seq0.takenIn lv es vs mt) (s.branchTack s.seq0.next { on := true }) j b s.seq0.next vals
  rw [h]
  exact ⟨rfl, rfl, rfl, rfl, rfl, rfl, rfl, rfl, rfl, rfl⟩

/-- No branch is there: the slot passes. -/
theorem evalSlot_passes {s : State} {x : SI} (h : s.seq0.Ready x) (hstitch : (tfind s.seq0.active.stitches s.seq0.stitch).getD [] = []) :
    ∃ r, s.seq0.Passes r ∧ s.evalSlot 0 = { s with seq0 := r } := by
  obtain ⟨v, lv, es, vs, mt, he⟩ := evalSlot_plain h.rearm h.terms h.bastes
  have hpasses := passes_passed h.counters h.sources lv es vs mt
  refine ⟨_, hpasses, ?_⟩
  rw [he, takeBranch_none (s := { s with seq0 := s.seq0.takenIn lv es vs mt }) (choose_nil hstitch [])]
  exact flushForced_nil (s := { s with seq0 := (s.seq0.takenIn lv es vs mt).passed s.seq0.next [] }) (hpasses.forced.trans h.forced) _

/-- The first branch is true and fires a tack: the sequencer is in the branch's NEXT stitch. -/
theorem evalSlot_tacks {s : State} {x : SI} {b : Branch} {rest : List Branch} (h : s.seq0.Ready x)
    (hstitch : (tfind s.seq0.active.stitches s.seq0.stitch).getD [] = b :: rest) (hvalid : b.ctrl.testBit 0 = true)
    (hterms : ∀ u ∈ b.terms, u.testBit 7 = false) (hf : b.fire = 1) (hd : b.drive = 0) (hm : b.misc = 0) (hh : s.seq0.holdFrom = none) :
    ∃ r, s.seq0.Tacks b r ∧ Driven { s with seq0 := r } (s.evalSlot 0) ∧ 128 ∈ (s.evalSlot 0).events.raised := by
  obtain ⟨v, lv, es, vs, mt, he⟩ := evalSlot_plain h.rearm h.terms h.bastes
  have htacks := tacks_tacked s lv es vs mt 0 b []
  obtain ⟨hbranch, hraised⟩ := takeBranch_driven (s := { s with seq0 := s.seq0.takenIn lv es vs mt }) (choose_first hstitch hvalid hterms [])
    hf hd hm hh h.bastes s.seq0.next v
  have hforced : (({ s with seq0 := s.seq0.takenIn lv es vs mt } : State).takeBranch s.seq0.next v []).seq0.forced = [] :=
    (congrArg Seq.forced (Placed.seq0 hbranch)).trans (htacks.forced.trans h.forced)
  refine ⟨_, htacks, ?_⟩
  rw [he, flushForced_nil hforced]
  exact ⟨hbranch, hraised⟩

end Sys2Proof.Machine

namespace Sys2Proof.Proofs

open Sys2Proof.Machine Sys2Proof.Safety

/-- Settles O35: a slot of the live sequencer is its evaluation (`evalSlot_passes`, `evalSlot_tacks`) and the lag noted after it (`lagged_slotDone`). -/
theorem slotsAreEvaluated : Obligations.SlotsAreEvaluated := by
  unfold Obligations.SlotsAreEvaluated
  intro s t slots b rest hq he hc q ready stitch
  have hmoment := quiet_moment hq t
  have hready : ready → q.Ready (s.moment t).time.si := fun ⟨h1, h2, h3, h4, h5, h6, h7, h8, h9, h10, h11, h12, h13, h14⟩ =>
    ⟨h1, h2, h3, h4, h5, h6, h7, h8, h9, h10, h11, h12, h13, h14⟩
  refine ⟨fun ha hs => ?live, fun _ _ hj => ?replay, fun hr hstitch => ?passes, fun hr hstitch hvalid hterms hf hctr htmr hd hm hh => ?tacks⟩
  case live =>
    refine ⟨_, exec_slotEvaluation_live t slots he hc, ?_⟩
    rw [liveSlots_none (s := s.moment t) (more_none ha hs)]
    exact ((Answered.refl _).row hmoment).answered.only
  case replay => exact ⟨_, exec_slotEvaluation_replay t slots hj, ((Answered.refl _).row hmoment).answered.only⟩
  case passes =>
    have hr := hready hr
    obtain ⟨r, hp, heval⟩ := evalSlot_passes (s := s.moment t) hr hstitch
    obtain ⟨s', hrun, hanswered, hl, -⟩ := exec_slotEvaluation_ready he hc hr hmoment heval (Answered.refl _) (hp.uneval.trans hr.uneval)
    exact ⟨s', hrun, hanswered.only, hl.next.trans hp.next, hl.stitch.trans hp.stitch, hl.stitchAt.trans hp.stitchAt, hl.tackNo.trans hp.tackNo,
      hl.transCnt.trans hp.transCnt, hl.armed.trans (hp.armed.trans hr.armed), hl.counters.trans hp.counters,
      hl.cycleSlots.trans (congrArg (· + 1) hp.cycleSlots)⟩
  case tacks =>
    have hr := hready hr
    obtain ⟨r, hp, hdriven, hraised⟩ := evalSlot_tacks (s := s.moment t) hr hstitch hvalid hterms hf hd hm hh
    generalize heval : (s.moment t).evalSlot 0 = e at hdriven hraised
    obtain ⟨s', hrun, hanswered, hl, hkept⟩ := exec_slotEvaluation_ready he hc hr (x := { s.moment t with pins := e.pins, cas := e.cas })
      (quiet_of_fields hmoment rfl rfl rfl) heval (Placed.answered hdriven) (hp.uneval.trans hr.uneval)
    have honly := hanswered.only
    rw [← hanswered.pins, ← hanswered.cas] at honly
    exact ⟨s', hrun, honly, hl.next.trans hp.next, hl.stitch.trans hp.stitch, hl.stitchAt.trans hp.stitchAt, hl.tackNo.trans hp.tackNo,
      hl.transCnt.trans hp.transCnt, hl.holdFrom.trans hp.holdFrom, hl.lastSi.trans hp.lastSi, hl.lastKind.trans hp.lastKind, hkept _ hraised⟩

end Sys2Proof.Proofs

/-! ### ARM, DISARM and FORCE_TACK (R143 to R146, R160 to R162) -/

namespace Sys2Proof.Machine

open Sys2Proof.Safety

/-! #### ARM -/

/-- ARM ends once the sequencer is armed. -/
theorem armEffect_eq (c : Ctx) (s : State) : armEffect c s =
    (s.armAt s.boundary (bit (pField c.params 1 1) 0)).finish c [(s.armAt s.boundary (bit (pField c.params 1 1) 0)).seq0.activeId] := by
  have hb : (s.armAt s.boundary (bit (pField c.params 1 1) 0)).boundary = s.boundary := by
    rw [armAt_eq]
    exact (placed_raise _ 131).boundary
  unfold armEffect State.armBy State.finish
  rw [hb]

/-- The sequencer that an ARM with parameters p, taken at slot t, leaves. -/
def State.armedBy (s : State) (t : SI) (p : List Byte) : Seq := s.seq0.armAt (s.moment t).boundary (bit (pField p 1 1) 0)

theorem placed_armAt (s : State) (b : SI) (load : Bool) : Placed { s with seq0 := s.seq0.armAt b load } (s.armAt b load) ∧
    131 ∈ (s.armAt b load).events.raised := by
  rw [armAt_eq]
  exact ⟨placed_raise _ _, raise_mem _ _⟩

/-- The state of an accepted packet before its effect differs from the one at its slot in the packet's ring alone. -/
theorem taken_seq0 (s : State) (t : SI) (p : Packet) (q : Seq) : Answered { s.moment t with seq0 := q } { taken s t p with seq0 := q } :=
  (taken_answered s t p).setSeq0 q

section Arm
variable {s : State} {t : SI} {p : Packet} (h : accepted s t opArm p)
include h

/-- An accepted ARM arms the sequencer, and ends. -/
theorem packetIn_arm : Answered { s.moment t with seq0 := s.armedBy t p.params } (s.packetIn t opArm p) ∧
    131 ∈ (s.packetIn t opArm p).events.raised ∧ (s.packetIn t opArm p).log.count = s.log.count + 1 ∧
    ((s.ring p.ring.val).cqLog2 ≠ 0 → ends s (s.packetIn t opArm p) p 0x0310 0x00 (fun w => w = [(s.armedBy t p.params).activeId])) := by
  obtain ⟨hplaced, hraised⟩ := placed_armAt (taken s t p) (taken s t p).boundary (bit (pField p.params 1 1) 0)
  have hplaced : Placed { taken s t p with seq0 := s.armedBy t p.params } ((taken s t p).armAt (taken s t p).boundary (bit (pField p.params 1 1) 0)) :=
    hplaced
  have heff : armEffect (packetCtx 0x0310 p) (taken s t p) = _ := armEffect_eq (packetCtx 0x0310 p) (taken s t p)
  generalize hx : (taken s t p).armAt (taken s t p).boundary (bit (pField p.params 1 1) 0) = x at hplaced hraised
  have heff : armEffect (packetCtx 0x0310 p) (taken s t p) = x.finish (packetCtx 0x0310 p) [x.seq0.activeId] := by rw [← hx]; exact heff
  have hquiet : quiet ({ s.moment t with seq0 := s.armedBy t p.params } : State) := quiet_of_fields (quiet_moment h.quiet t) rfl rfl rfl
  have hfinish := answered_finish x (packetCtx 0x0310 p) [x.seq0.activeId]
  obtain ⟨hrow, hsilent, hlog⟩ := packetIn_row h heff hquiet (((taken_seq0 s t p _).trans hplaced.answered).trans hfinish)
  refine ⟨hrow.answered, hrow.raised _ (hfinish.raised _ hraised), ?_, fun hq => ?_⟩
  · rw [hlog, finish_count, hplaced.log]
    rfl
  · have hid : x.seq0.activeId = (s.armedBy t p.params).activeId := congrArg Seq.activeId hplaced.seq0
    rw [← hid]
    exact packetIn_ends h hsilent hlog hplaced.silent hplaced.log hplaced.cmd hq

end Arm

/-! #### The end of a doubt cause (R503) -/

/-- s' comes from s by the end of a doubt cause: the causes, FAULT_N, pins and the cascade's ports change, and records are placed. -/
structure Relieved (s s' : State) : Prop where
  placed : Placed { s with safe := s'.safe, pins := s'.pins, cas := s'.cas } s'
  safe : s'.safe = { s.safe with causes := s'.safe.causes, fault := s'.safe.fault }

theorem Placed.setSafe {s s' : State} (h : Placed s s') (x : Safe) : Placed { s with safe := x } { s' with safe := x } :=
  ⟨congrArg (fun z : State => { z with safe := x }) h.still, h.region, h.raised, h.posted⟩

theorem Driven.relieved {s s' : State} (h : Driven s s') : Relieved s s' := by
  have hplaced : Placed { s with pins := s'.pins, cas := s'.cas } s' := h
  have hsafe : s'.safe = s.safe := hplaced.safe
  refine ⟨Placed.setSafe h s'.safe, ?_⟩
  rw [hsafe]

theorem Relieved.trans {a b c : State} (h : Relieved a b) (k : Relieved b c) : Relieved a c := by
  refine ⟨(((h.placed.setSafe c.safe).setPins c.pins).setCas c.cas).trans k.placed, ?_⟩
  have hk := k.safe
  rw [h.safe] at hk
  exact hk

theorem relieved_setSafe (s : State) (causes : BitVec 8) (fault : Bool) : Relieved s { s with safe := { s.safe with causes := causes, fault := fault } } :=
  ⟨Placed.refl _, rfl⟩

theorem relieved_driveFault (s : State) : Relieved s s.driveFault := by
  unfold State.driveFault
  dsimp only
  split
  · exact (Placed.refl s).driven.relieved
  · exact (relieved_setSafe s s.safe.causes _).trans (placed_post _ _).driven.relieved

theorem pinned_forgetPulses (s : State) : Pinned s s.forgetPulses := Placed.refl _

theorem relieved_endCauseAt (s : State) (k : Nat) (si : SI) : Relieved s (s.endCauseAt k si) := by
  unfold State.endCauseAt
  dsimp only
  split
  · exact (Placed.refl s).driven.relieved
  · have hcauses := relieved_setSafe s (s.safe.causes &&& ~~~(1#8 <<< k)) s.safe.fault
    split
    · exact (((hcauses.trans ((placed_placeActive _ _).trans (placed_raise _ 1)).driven.relieved).trans
        (linked_originate _ _ _).driven.relieved).trans (relieved_driveFault _)).trans (pinned_forgetPulses _).driven.relieved
    · exact hcauses

theorem quiet_relieved {s s' : State} (hq : quiet s) (h : s'.safe = { s.safe with causes := s'.safe.causes, fault := s'.safe.fault })
    (hstartup : s'.startup = s.startup) (hcmd : s'.cmd = s.cmd) : quiet s' := by
  obtain ⟨hready, hstep, hsoft, hup, hswap, hwaiting⟩ := hq
  refine ⟨?_, ?_, ?_, ?_, ?_, ?_⟩
  · rw [hstartup, hready]
  · rw [hstartup, hstep]
  · rw [h]
    exact hsoft
  · rw [h]
    exact hup
  · rw [h]
    exact hswap
  · rw [hcmd, hwaiting]

/-! #### DISARM (R146) -/

/-- The sequencer that a DISARM at boundary b leaves: a halted one has nothing to evaluate; an armed one evaluates the slots below b. -/
def Seq.disarmed (q : Seq) (b : SI) : Seq :=
  if q.halted then { q with armed := false, halted := false, uneval := 0, held := 0, stopAt := none, rearm := [] }
  else if q.armed then { q with armed := false, stopAt := some b }
  else q

theorem disarmed_armed (q : Seq) (b : SI) : (q.disarmed b).armed = false := by
  unfold Seq.disarmed
  split
  · rfl
  · split
    · rfl
    next h => exact Bool.eq_false_iff.2 h

theorem disarmed_of_armed {q : Seq} (ha : q.armed = true) (hh : q.halted = false) (b : SI) : q.disarmed b = { q with armed := false, stopAt := some b } := by
  rw [Seq.disarmed, if_neg (ne_true_of_eq_false hh), if_pos ha]

theorem disarmed_of_idle {q : Seq} (ha : q.armed = false) (hh : q.halted = false) (b : SI) : q.disarmed b = q := by
  rw [Seq.disarmed, if_neg (ne_true_of_eq_false hh), if_neg (ne_true_of_eq_false ha)]

theorem relieved_disarmAt (s : State) (b : SI) : Relieved { s with seq0 := s.seq0.disarmed b } (s.disarmAt b) := by
  unfold State.disarmAt Seq.disarmed
  dsimp only
  split
  · exact (relieved_endCauseAt _ _ _).trans (placed_raise _ _).driven.relieved
  · split
    · split
      · exact (placed_raise _ 132).driven.relieved.trans (relieved_endCauseAt _ _ _)
      · exact (placed_raise _ 132).driven.relieved
    · exact (Placed.refl s).driven.relieved

/-- Of an armed sequencer with no frame left unevaluated: nothing of doubt changes. -/
theorem disarmAt_armed {s : State} (ha : s.seq0.armed = true) (hh : s.seq0.halted = false) (hu : s.seq0.uneval = 0) (b : SI) :
    Placed { s with seq0 := s.seq0.disarmed b } (s.disarmAt b) ∧ 132 ∈ (s.disarmAt b).events.raised := by
  have he : s.disarmAt b = ({ s with seq0 := { s.seq0 with armed := false, stopAt := some b } } : State).raise 132 := by
    unfold State.disarmAt
    simp only [ha, hh, hu, Bool.false_eq_true, if_false, if_true, ne_eq, not_true_eq_false]
  rw [he, disarmed_of_armed ha hh]
  exact ⟨placed_raise _ _, raise_mem _ _⟩

theorem disarmAt_idle {s : State} (ha : s.seq0.armed = false) (hh : s.seq0.halted = false) (b : SI) : s.disarmAt b = s := by
  unfold State.disarmAt
  simp only [ha, hh, Bool.false_eq_true, if_false]

/-! #### The deferred ARM cancelled (R440) -/

theorem cancelDeferred_desk (s : State) (c : Option Ctx) : (s.cancelDeferred c).desk = s.desk := by
  unfold State.cancelDeferred State.cancelAt
  split
  · rfl
  · exact (completeLogged_desk _ _ _ _ _).trans (change_desk _ _ _ _ _ _)

/-- A cancelled command makes a record. -/
theorem cancelDeferred_count (s : State) (c : Option Ctx) : (s.cancelDeferred c).log.count = s.log.count + (if c.isSome then 1 else 0) := by
  cases c with
  | none => rfl
  | some c => exact (completeLogged_count _ _ _ _ _).trans (change_log _ _ _ _ _ _).1

/-- The state in which no ARM is deferred any longer. -/
def State.dropArm (s : State) : State := { s with cmd := { s.cmd with deferredArm := none } }

theorem disarmEffect_eq (c : Ctx) (s : State) : disarmEffect c s = ((s.dropArm.disarmAt s.boundary).cancelDeferred s.cmd.deferredArm).finish c [] := rfl

/-- s with its live sequencer q, and what the end of a doubt cause can change as in w. -/
def State.withDoubt (s : State) (q : Seq) (w : State) : State := { s with seq0 := q, safe := w.safe, pins := w.pins, cas := w.cas }

theorem Answered.withDoubt {a b : State} (h : Answered a b) (q : Seq) (w : State) : Answered (a.withDoubt q w) (b.withDoubt q w) :=
  ⟨congrArg (fun z : State => z.withDoubt q w) h.settled, h.region, h.raised, h.posted, h.fetched⟩

theorem Answered.withDoubt_self {a w b : State} {q : Seq} (h : Answered (a.withDoubt q w) b) : Answered (a.withDoubt b.seq0 b) b := by
  have he : a.withDoubt b.seq0 b = a.withDoubt q w := by
    unfold State.withDoubt
    rw [h.seq0, h.safe, h.pins, h.cas]
    rfl
  rw [he]
  exact h

theorem withDoubt_same {s w : State} (q : Seq) (hsafe : w.safe = s.safe) (hpins : w.pins = s.pins) (hcas : w.cas = s.cas) :
    s.withDoubt q w = { s with seq0 := q } := by
  unfold State.withDoubt
  rw [hsafe, hpins, hcas]

section Disarm
variable {s : State} {t : SI} {p : Packet} (h : accepted s t opDisarm p)
include h

/-- What an accepted DISARM leaves, d being the state in which the sequencer is disarmed. -/
theorem packetIn_disarm {d : State} (hd : (taken s t p).dropArm.disarmAt (taken s t p).boundary = d) :
    Answered ((s.moment t).withDoubt (s.seq0.disarmed (s.moment t).boundary) d) (s.packetIn t opDisarm p) ∧
      (s.packetIn t opDisarm p).cmd.deferredArm = none ∧ (∀ n, n ∈ d.events.raised → n ∈ (s.packetIn t opDisarm p).events.raised) ∧
      (s.packetIn t opDisarm p).log.count = s.log.count + (if s.cmd.deferredArm.isSome then 2 else 1) := by
  have heff : disarmEffect (packetCtx 0x0311 p) (taken s t p) = (d.cancelDeferred s.cmd.deferredArm).finish (packetCtx 0x0311 p) [] := by
    rw [disarmEffect_eq, hd]
    rfl
  have hrelieved := relieved_disarmAt (taken s t p).dropArm (taken s t p).boundary
  rw [hd] at hrelieved
  have hplaced : Placed ((taken s t p).dropArm.withDoubt (s.seq0.disarmed (s.moment t).boundary) d) d := hrelieved.placed
  have hstart : Answered (s.moment t) (taken s t p).dropArm := (taken_answered s t p).trans (Answered.of_fields rfl rfl rfl rfl rfl)
  have hquiet : quiet ((s.moment t).withDoubt (s.seq0.disarmed (s.moment t).boundary) d) :=
    quiet_relieved (quiet_moment h.quiet t) hrelieved.safe rfl rfl
  have hcancel := answered_cancelDeferred d s.cmd.deferredArm
  have hfinish := answered_finish (d.cancelDeferred s.cmd.deferredArm) (packetCtx 0x0311 p) []
  obtain ⟨hrow, -, hlog⟩ := packetIn_row h heff hquiet
    ((((hstart.withDoubt (s.seq0.disarmed (s.moment t).boundary) d).trans hplaced.answered).trans hcancel).trans hfinish)
  refine ⟨hrow.answered, ?_, fun n hn => hrow.raised n (hfinish.raised n (hcancel.raised n hn)), ?_⟩
  · exact deferredArm_of_desk (b := (taken s t p).dropArm) (hrow.desk.trans ((finish_desk _ _ _).trans ((cancelDeferred_desk _ _).trans hplaced.desk)))
  · have hcount : d.log.count = s.log.count := congrArg Log.count hplaced.log
    rw [hlog, finish_count, cancelDeferred_count, hcount]
    split
    · rfl
    · rfl

end Disarm

/-! #### Windows requested (R221, R225, R226) -/

/-- s' comes from s by a window request: the capture unit changes, and records are placed. -/
def Windowed (s s' : State) : Prop := Placed { s with cap := s'.cap } s'

theorem Placed.setCap {s s' : State} (h : Placed s s') (x : Capture) : Placed { s with cap := x } { s' with cap := x } :=
  ⟨congrArg (fun z : State => { z with cap := x }) h.still, h.region, h.raised, h.posted⟩

theorem Windowed.cas {s s' : State} (h : Windowed s s') : s'.cas = s.cas := by
  have hplaced : Placed { s with cap := s'.cap } s' := h
  exact hplaced.cas

theorem Windowed.raised {s s' : State} (h : Windowed s s') {n : Nat} (hn : n ∈ s.events.raised) : n ∈ s'.events.raised := Placed.raised h n hn

theorem Linked.cap {s s' : State} (h : Linked s s') : s'.cap = s.cap := by
  have hplaced : Placed { s with cas := s'.cas } s' := h
  exact hplaced.cap

theorem Linked.raised {s s' : State} (h : Linked s s') {n : Nat} (hn : n ∈ s.events.raised) : n ∈ s'.events.raised := Placed.raised h n hn

/-- What leaves the capture unit in state x and then places records. -/
theorem windowed_of_cap {s s' : State} {x : Capture} (h : Placed { s with cap := x } s') : Windowed s s' := by
  have hcap : s'.cap = x := h.cap
  unfold Windowed
  rw [hcap]
  exact h

theorem windowed_refuseWindow (s : State) (policy : Nat) (r : TackRef) (reason : Nat) : Windowed s (s.refuseWindow policy r reason) :=
  windowed_of_cap (((placed_place s (winSource policy) (recRefused r policy reason)).setCap _).trans (placed_raise _ 14))

theorem windowed_openSlot (s : State) (k : Nat) (w : WSlot) (runB : SI) : Windowed s (s.openSlot k w runB) := windowed_of_cap (placed_raiseIf _ _ 15)

theorem windowed_requestWindow (s : State) (policy : Nat) (r : TackRef) : Windowed s (s.requestWindow policy r) := by
  unfold State.requestWindow
  dsimp only
  split
  · exact windowed_refuseWindow _ _ _ _
  · split
    · exact windowed_of_cap (Placed.refl _)
    · split
      · exact windowed_refuseWindow _ _ _ _
      · exact windowed_openSlot _ _ _ _

/-! #### FORCE_TACK (R162) -/

/-- The tack forced at slot b. -/
def State.forcedTack (s : State) (b : SI) : TackRef :=
  { si := b, fine := 0, seq := 0, kind := 1, origin := s.cas.unitId.toNat, number := (s.seq0.tackNo + 1) % 2 ^ 32 }

/-- The sequencer that has taken tack number n. -/
def Seq.numbered (q : Seq) (n : Nat) : Seq := { q with tackNo := n }

/-- The sequencer that has forced tack r. -/
def Seq.forces (q : Seq) (r : TackRef) : Seq := (q.numbered r.number).showTack r 0 0

/-- The forced tack f (slot, FLAGS, WPOL) has taken its number and its place among the records. -/
def State.placedForced (s : State) (f : SI × Nat × Nat) : State :=
  ({ s with seq0 := s.seq0.numbered (s.forcedTack f.1).number } : State).placeTack 0
    (s.forcedTack f.1, recTack (s.forcedTack f.1) (bit f.2.1 0) true false false false false 0 0 0) 0 0

/-- Its message, with FLAGS bit 1. -/
def State.sentForced (s : State) (f : SI × Nat × Nat) (n : Nat) : State :=
  if bit f.2.1 1 && s.sends 0 then s.originate 3 (s.message (1 + s.coastFlag) n (s.tackSt f.1 0) 0) else s

/-- Its window, with FLAGS bit 0. -/
def State.windowForced (s : State) (f : SI × Nat × Nat) (r : TackRef) : State := if bit f.2.1 0 then s.requestWindow f.2.2 r else s

theorem placeForced_eq (s : State) (f : SI × Nat × Nat) :
    s.placeForced f = ((s.placedForced f).sentForced f (s.forcedTack f.1).number).windowForced f (s.forcedTack f.1) := by
  unfold State.placeForced State.nextTack
  simp only [State.modSeq, State.sq, if_true]
  rfl

theorem placedForced_live (s : State) (f : SI × Nat × Nat) : Placed { s with seq0 := s.seq0.forces (s.forcedTack f.1) } (s.placedForced f) ∧
    128 ∈ (s.placedForced f).events.raised := by
  obtain ⟨hplace, hraised⟩ := placeTack_live ({ s with seq0 := s.seq0.numbered (s.forcedTack f.1).number } : State)
    (s.forcedTack f.1, recTack (s.forcedTack f.1) (bit f.2.1 0) true false false false false 0 0 0) 0 0
  have hkind : (s.forcedTack f.1).kind < 2 := Nat.one_lt_two
  refine ⟨hplace, ?_⟩
  unfold State.placedForced
  exact hraised hkind

theorem linked_sentForced (s : State) (f : SI × Nat × Nat) (n : Nat) : Linked s (s.sentForced f n) ∧ (bit f.2.1 1 = false → s.sentForced f n = s) := by
  unfold State.sentForced
  refine ⟨?_, fun h => by rw [h]; rfl⟩
  split
  · exact linked_originate _ _ _
  · exact Linked.refl s

theorem windowed_windowForced (s : State) (f : SI × Nat × Nat) (r : TackRef) :
    Windowed s (s.windowForced f r) ∧ (bit f.2.1 0 = false → s.windowForced f r = s) := by
  unfold State.windowForced
  refine ⟨?_, fun h => by rw [h]; rfl⟩
  split
  · exact windowed_requestWindow _ _ _
  · exact Placed.refl s

/-- What a forced tack that takes its place leaves. -/
structure Forced (f : SI × Nat × Nat) (s s' : State) : Prop where
  placed : Placed { s with seq0 := s.seq0.forces (s.forcedTack f.1), cas := s'.cas, cap := s'.cap } s'
  raised : 128 ∈ s'.events.raised
  cas : bit f.2.1 1 = false → s'.cas = s.cas
  cap : bit f.2.1 0 = false → s'.cap = s.cap

theorem forced_placeForced (s : State) (f : SI × Nat × Nat) : Forced f s (s.placeForced f) := by
  obtain ⟨hplaced, hraised⟩ := placedForced_live s f
  rw [placeForced_eq]
  generalize s.placedForced f = a at hplaced hraised
  obtain ⟨hlinked, hunsent⟩ := linked_sentForced a f (s.forcedTack f.1).number
  generalize a.sentForced f (s.forcedTack f.1).number = b at hlinked hunsent
  obtain ⟨hwindow, hnone⟩ := windowed_windowForced b f (s.forcedTack f.1)
  generalize b.windowForced f (s.forcedTack f.1) = c at hwindow hnone
  refine ⟨?_, hwindow.raised (hlinked.raised hraised), fun h => ?_, fun h => ?_⟩
  · rw [hwindow.cas]
    exact (((hplaced.setCas b.cas).trans hlinked).setCap c.cap).trans hwindow
  · rw [hwindow.cas, hunsent h]
    exact hplaced.cas
  · rw [hnone h, hlinked.cap]
    exact hplaced.cap

/-- A tack forced at boundary b waits for the evaluation of its slot. -/
def Seq.waits (q : Seq) (b : SI) : Bool :=
  q.evaluates && !q.halted && decide (q.next ≤ b) && (match q.limit with
    | none => true
    | some e => decide (q.next < e))

theorem waits_idle {q : Seq} (ha : q.armed = false) (hs : q.stopAt = none) (b : SI) : q.waits b = false := by
  rw [Seq.waits, evaluates_none ha hs]
  rfl

/-- In an armed sequencer with no end of evaluation in sight a tack waits where its slot has not been evaluated. -/
theorem waits_armed {q : Seq} (ha : q.armed = true) (hh : q.halted = false) (hs : q.stopAt = none) (hu : q.uneval = 0) {b : SI} (hb : q.next ≤ b) :
    q.waits b = true := by
  have hlimit : q.limit = none := by simp only [Seq.limit, hs, hu]
  rw [Seq.waits, Seq.evaluates, ha, hh, hlimit, decide_eq_true hb]
  rfl

/-- The forced tack of parameters p at boundary b. -/
def forcedOf (p : List Byte) (b : SI) : SI × Nat × Nat := (b, pField p 1 1, pField p 2 1)

/-- The pulses of a tack forced at the present boundary are decided. -/
def State.forcePulses (s : State) : State := s.pulse (fun _ x => bit x.source srcForced) (64 * s.boundary) s.boundary none

theorem forceTack_eq (p : List Byte) (s : State) : forceTack p s = if s.seq0.waits s.boundary then
    { s.forcePulses with seq0 := { s.forcePulses.seq0 with forced := s.forcePulses.seq0.forced ++ [forcedOf p s.boundary] } }
    else s.forcePulses.placeForced (forcedOf p s.boundary) := rfl

/-- s with its live sequencer q, and what a forced tack can change as in w. -/
def State.withForced (s : State) (q : Seq) (w : State) : State := { s with seq0 := q, pins := w.pins, cas := w.cas, cap := w.cap }

theorem Answered.withForced {a b : State} (h : Answered a b) (q : Seq) (w : State) : Answered (a.withForced q w) (b.withForced q w) :=
  ⟨congrArg (fun z : State => z.withForced q w) h.settled, h.region, h.raised, h.posted, h.fetched⟩

theorem Answered.withForced_self {a w b : State} {q : Seq} (h : Answered (a.withForced q w) b) : Answered (a.withForced b.seq0 b) b := by
  have he : a.withForced b.seq0 b = a.withForced q w := by
    unfold State.withForced
    rw [h.seq0, h.pins, h.cas, h.cap]
    rfl
  rw [he]
  exact h

theorem pinned_forcePulses (s : State) : Pinned s s.forcePulses := (pinned_pulse _ _ _ _ _).1

/-- A pulse more is due on each pin that takes forced tacks. -/
theorem forcePulses_out {s : State} (h : s.inDoubt = false) {n : Nat} (hn : n < 8) :
    (s.forcePulses.out n).due.length = (s.out n).due.length + (if (s.out n).source.testBit 1 then 1 else 0) ∧
      (s.forcePulses.out n).active = (s.out n).active := by
  have hout := (pinned_pulse s (fun _ x => bit x.source srcForced) (64 * s.boundary) s.boundary none).2 h n hn
  rw [State.forcePulses, hout]
  by_cases hb : (s.out n).source.testBit 1 = true
  · rw [if_pos hb, if_pos (show bit (s.out n).source srcForced = true from hb)]
    exact ⟨List.length_append, rfl⟩
  · rw [if_neg hb, if_neg (show ¬ bit (s.out n).source srcForced = true from hb)]
    exact ⟨rfl, rfl⟩

section
variable {s s' : State} (h : Pinned s s')
include h

theorem Pinned.seq0 : s'.seq0 = s.seq0 := (congrArg (fun x : State => x.seq0) (Placed.still h) :)

theorem Pinned.cas : s'.cas = s.cas := (congrArg (fun x : State => x.cas) (Placed.still h) :)

theorem Pinned.cap : s'.cap = s.cap := (congrArg (fun x : State => x.cap) (Placed.still h) :)

end

/-- What FORCE_TACK with parameters p leaves of the state s. -/
structure ForcesTack (p : List Byte) (s s' : State) : Prop where
  placed : Placed (s.withForced s'.seq0 s') s'
  pins : s'.pins = s.forcePulses.pins
  cas : bit (pField p 1 1) 1 = false → s'.cas = s.cas
  cap : bit (pField p 1 1) 0 = false → s'.cap = s.cap
  waits : s.seq0.waits s.boundary = true → s'.seq0 = { s.seq0 with forced := s.seq0.forced ++ [forcedOf p s.boundary] }
  forces : s.seq0.waits s.boundary = false → s'.seq0 = s.seq0.forces (s.forcedTack s.boundary) ∧ 128 ∈ s'.events.raised

/-- A forced tack leaves the sequencer armed as it is, with its program. -/
theorem ForcesTack.runs {p : List Byte} {s s' : State} (h : ForcesTack p s s') : s'.seq0.armed = s.seq0.armed ∧ s'.seq0.active = s.seq0.active := by
  by_cases hw : s.seq0.waits s.boundary = true
  · rw [h.waits hw]
    exact ⟨rfl, rfl⟩
  · rw [(h.forces (Bool.eq_false_iff.2 hw)).1]
    exact ⟨rfl, rfl⟩

/-- The tack that is forced does not depend on the pins. -/
theorem Pinned.forcedTack {s s' : State} (h : Pinned s s') (b : SI) : s'.forcedTack b = s.forcedTack b := by
  rw [State.forcedTack, h.cas, h.seq0]
  rfl

theorem forcesTack_forceTack (p : List Byte) (s : State) : ForcesTack p s (forceTack p s) := by
  have hpulses := pinned_forcePulses s
  have hplaced : Placed { s with pins := s.forcePulses.pins } s.forcePulses := hpulses
  rw [forceTack_eq]
  by_cases hw : s.seq0.waits s.boundary = true
  · rw [if_pos hw]
    refine ⟨((hplaced.setSeq0 _).setCas s.forcePulses.cas).setCap s.forcePulses.cap, rfl, fun _ => hpulses.cas, fun _ => hpulses.cap, fun _ => ?_,
      fun h => absurd hw (ne_true_of_eq_false h)⟩
    rw [hpulses.seq0]
  · rw [if_neg hw]
    have hf := forced_placeForced s.forcePulses (forcedOf p s.boundary)
    generalize s.forcePulses.placeForced (forcedOf p s.boundary) = w at hf
    have hall := (((hplaced.setSeq0 (s.forcePulses.seq0.forces (s.forcePulses.forcedTack s.boundary))).setCas w.cas).setCap w.cap).trans hf.placed
    have hseq : w.seq0 = s.forcePulses.seq0.forces (s.forcePulses.forcedTack s.boundary) := hall.seq0
    have hpins : w.pins = s.forcePulses.pins := hall.pins
    refine ⟨?_, hpins, fun h => (hf.cas h).trans hpulses.cas, fun h => (hf.cap h).trans hpulses.cap, fun h => absurd h hw, fun _ => ⟨?_, hf.raised⟩⟩
    · unfold State.withForced
      rw [hseq, hpins]
      exact hall
    · rw [hseq, hpulses.seq0, hpulses.forcedTack]

section Force
variable {s : State} {t : SI} {p : Packet} (h : accepted s t opForceTack p)
include h

/-- What an accepted FORCE_TACK leaves. -/
theorem packetIn_forceTack {w : State} (hw : forceTack p.params (taken s t p) = w) (hf : ForcesTack p.params (taken s t p) w) :
    Answered ((s.moment t).withForced w.seq0 w) (s.packetIn t opForceTack p) ∧
      (∀ n, n ∈ w.events.raised → n ∈ (s.packetIn t opForceTack p).events.raised) ∧ (s.packetIn t opForceTack p).log.count = s.log.count + 1 := by
  have heff : simply forceTack (packetCtx 0x0312 p) (taken s t p) = w.finish (packetCtx 0x0312 p) [] :=
    congrArg (fun z : State => z.finish (packetCtx 0x0312 p) []) hw
  have hquiet : quiet ((s.moment t).withForced w.seq0 w) := quiet_of_fields (quiet_moment h.quiet t) rfl rfl rfl
  have hfinish := answered_finish w (packetCtx 0x0312 p) []
  obtain ⟨hrow, -, hlog⟩ := packetIn_row h heff hquiet ((((taken_answered s t p).withForced w.seq0 w).trans hf.placed.answered).trans hfinish)
  refine ⟨hrow.answered, fun n hn => hrow.raised n (hfinish.raised n hn), ?_⟩
  rw [hlog, finish_count, hf.placed.log]
  rfl

end Force

end Sys2Proof.Machine

namespace Sys2Proof.Proofs

open Sys2Proof.Machine Sys2Proof.Safety

/-- Settles O34: ARM arms (`packetIn_arm`), DISARM ends evaluation (`packetIn_disarm`), FORCE_TACK decides pulses and numbers its tack or leaves it to
wait (`forcesTack_forceTack`). -/
theorem armDisarmAndForce : Obligations.ArmDisarmAndForce := by
  unfold Obligations.ArmDisarmAndForce
  intro s t p f q b load
  have harm : ∀ h : accepted s t opArm p, onlyAnswers { s.moment t with seq0 := (s.packetIn t opArm p).seq0 } (s.packetIn t opArm p) := fun h => by
    obtain ⟨hanswered, -⟩ := packetIn_arm h
    rw [hanswered.seq0]
    exact hanswered.only
  refine ⟨fun h => ?arm, fun h => ?disarm, fun h => ?force, fun h ha => ?arms, fun h ha => ?restarts, fun h ha hh hu => ?disarms, fun h ha hh => ?idle,
    fun h => ?forces⟩
  case arm =>
    obtain ⟨hanswered, hraised, hcount, -⟩ := packetIn_arm h
    obtain ⟨harmed, hid⟩ := armAt_armed q b load
    exact ⟨_, rfl, harm h, (congrArg Seq.armed hanswered.seq0).trans harmed, hraised, hcount, (congrArg Seq.activeId hanswered.seq0).trans hid⟩
  case disarm =>
    obtain ⟨hanswered, hnone, -, hcount⟩ := packetIn_disarm h rfl
    have honly := hanswered.withDoubt_self.only
    have htime := hanswered.time
    refine ⟨_, rfl, ?_, (congrArg Time.map htime :), hanswered.seq1, (congrArg Seq.armed hanswered.seq0).trans (disarmed_armed _ _), hnone, hcount⟩
    rw [htime]
    exact honly
  case force =>
    have hf := forcesTack_forceTack p.params (taken s t p)
    obtain ⟨hanswered, -, hcount⟩ := packetIn_forceTack h rfl hf
    obtain ⟨harmed, hactive⟩ := hf.runs
    exact ⟨_, rfl, hanswered.withForced_self.only, (congrArg Seq.armed hanswered.seq0).trans harmed, (congrArg Seq.active hanswered.seq0).trans hactive,
      hcount⟩
  case arms =>
    obtain ⟨hanswered, hraised, -, hends⟩ := packetIn_arm h
    have ha : Armed q b load (s.armedBy t p.params) := armed_armAt ha b load
    refine ⟨_, rfl, harm h, hraised, ?_⟩
    rw [hanswered.seq0]
    exact ⟨ha.armed, ha.from_, ha.next, ha.active, ha.activeId, ha.stitch, ha.stitchAt, ha.counters, ha.timers, ha.tackNo, ha.basteNo, ha.pending, ha.rearm,
      hends⟩
  case restarts =>
    obtain ⟨hanswered, hraised, -, hends⟩ := packetIn_arm h
    have hrestart : s.armedBy t p.params = { q with rearm := q.rearm ++ [(b, q.image load)], activeId := q.armId load } := armAt_restart ha b load
    refine ⟨_, rfl, hraised, ?_, ?_⟩
    · rw [hrestart] at hanswered
      exact hanswered.only
    · rw [hanswered.seq0]
      exact hends
  case disarms =>
    obtain ⟨hplaced, h132⟩ := disarmAt_armed (s := (taken s t p).dropArm) ha hh hu (taken s t p).boundary
    obtain ⟨hanswered, hnone, hraised, -⟩ := packetIn_disarm h rfl
    rw [withDoubt_same (s := s.moment t) _ hplaced.safe hplaced.pins hplaced.cas, disarmed_of_armed ha hh] at hanswered
    exact ⟨_, rfl, hraised _ h132, hnone, hanswered.only⟩
  case idle =>
    have hd := disarmAt_idle (s := (taken s t p).dropArm) ha hh (taken s t p).boundary
    obtain ⟨hanswered, hnone, -, -⟩ := packetIn_disarm h hd
    rw [disarmed_of_idle ha hh, withDoubt_same (s := s.moment t) (w := (taken s t p).dropArm) _ rfl rfl rfl] at hanswered
    exact ⟨_, rfl, hnone, hanswered.only⟩
  case forces =>
    have hf := forcesTack_forceTack p.params (taken s t p)
    obtain ⟨hanswered, hraised, -⟩ := packetIn_forceTack h rfl hf
    have hdoubt : s.inDoubt = false := accepted_inDoubt h rfl
    have hdoubt : (taken s t p).inDoubt = false := hdoubt
    have hout : ∀ n, (s.packetIn t opForceTack p).out n = (taken s t p).forcePulses.out n := fun n =>
      congrArg (fun P : Pins => (tfind P.out n).getD {}) (hanswered.pins.trans hf.pins)
    refine ⟨_, rfl, hanswered.withForced_self.only, fun n hn => ?_, fun ha hs => ?_, fun ha hh hs hu hb => ?_, fun h0 => ?_, fun h1 => ?_⟩
    · rw [hout]
      exact forcePulses_out hdoubt hn
    · obtain ⟨hseq, h128⟩ := hf.forces (waits_idle ha hs _)
      rw [hanswered.seq0]
      refine ⟨?_, ?_, ?_, hraised _ h128⟩
      · exact congrArg Seq.tackNo hseq
      · exact congrArg Seq.lastSi hseq
      · exact congrArg Seq.lastKind hseq
    · exact hanswered.seq0.trans (hf.waits (waits_armed ha hh hs hu hb))
    · exact hanswered.cap.trans (hf.cap h0)
    · exact hanswered.cas.trans (hf.cas h1)

end Sys2Proof.Proofs

/-! ### Ports and their IDLEs (R180) -/

namespace Sys2Proof.Machine

open Sys2Proof.Safety

/-! #### One port changed -/

theorem State.modPort_port (s : State) (n k : Nat) (f : Port → Port) : (s.modPort n f).port k = if k = n then f (s.port n) else s.port k := by
  unfold State.port State.modPort
  dsimp only
  rw [tfind_tmod]
  split
  · rfl
  · rfl

theorem State.modPort_port_self (s : State) (n : Nat) (f : Port → Port) : (s.modPort n f).port n = f (s.port n) := by
  rw [State.modPort_port, if_pos rfl]

theorem State.modPort_port_ne (s : State) {n k : Nat} (f : Port → Port) (h : k ≠ n) : (s.modPort n f).port k = s.port k := by
  rw [State.modPort_port, if_neg h]

/-- An entry that is found stands in the table. -/
theorem mem_of_tfind {α : Type} {t : Tab α} {k : Nat} {v : α} (h : tfind t k = some v) : (k, v) ∈ t := by
  induction t with
  | nil => cases h
  | cons e rest ih =>
    obtain ⟨j, w⟩ := e
    unfold tfind at h
    split at h
    next hj =>
      cases h
      rw [hj]
      exact List.mem_cons_self
    next => exact List.mem_cons_of_mem _ (ih h)

/-- A port with a role has an entry. -/
theorem mem_ports_of_role {s : State} {n : Nat} (h : (s.port n).role ≠ 0) : n ∈ s.cas.ports.map (fun e => e.1) := by
  unfold State.port at h
  cases hp : tfind s.cas.ports n with
  | none =>
    rw [hp] at h
    exact absurd rfl h
  | some p => exact List.mem_map_of_mem (mem_of_tfind hp)

/-! #### What IDLEs change -/

/-- s' comes from s by IDLEs that ports send: they leave, and each port notes its own. -/
structure Announced (s s' : State) : Prop where
  rest : s' = { s with cas := { s.cas with ports := s'.cas.ports }, obs := { s.obs with posted := s'.obs.posted } }
  idles : ∃ l, s'.obs.posted = l ++ s.obs.posted ∧ ∀ e ∈ l, ∃ k w, e = .tiuth k true [w]
  port : ∀ n, ∃ k run, s'.port n = { s.port n with idle := (s'.port n).idle, idlesTx := k, txRun := run }

theorem Announced.refl (s : State) : Announced s s := ⟨rfl, ⟨[], rfl, fun _ h => by cases h⟩, fun n => ⟨(s.port n).idlesTx, (s.port n).txRun, rfl⟩⟩

theorem Announced.trans {a b c : State} (h : Announced a b) (k : Announced b c) : Announced a c := by
  refine ⟨?_, ?_, fun n => ?_⟩
  · have hk := k.rest
    rw [h.rest] at hk
    exact hk
  · obtain ⟨l, hl, hidles⟩ := h.idles
    obtain ⟨m, hm, hmore⟩ := k.idles
    refine ⟨m ++ l, by rw [hm, hl, List.append_assoc], fun e he => ?_⟩
    exact (List.mem_append.1 he).elim (hmore e) (hidles e)
  · obtain ⟨i, run, hp⟩ := h.port n
    obtain ⟨j, run', hq⟩ := k.port n
    rw [hp] at hq
    exact ⟨j, run', hq⟩

section
variable {s s' : State} (h : Announced s s') (n : Nat)
include h

theorem Announced.role : (s'.port n).role = (s.port n).role := by
  obtain ⟨k, run, hp⟩ := h.port n
  rw [hp]

/-- The IDLE that a port is to send does not depend on those that have been sent. -/
theorem Announced.idleWord : s'.idleWord n = s.idleWord n := by
  obtain ⟨k, run, hp⟩ := h.port n
  have hunit : s'.cas.unitId = s.cas.unitId := (congrArg (fun x : State => x.cas.unitId) h.rest :)
  have hdepth : s'.cas.depth = s.cas.depth := (congrArg (fun x : State => x.cas.depth) h.rest :)
  unfold State.idleWord
  rw [hp, hunit, hdepth]

end

theorem sendIdle_port (s : State) (n k : Nat) : (s.sendIdle n).port k = if k = n then
    { s.port n with idlesTx := if (s.port n).idle = s.idleWord n then (s.port n).idlesTx + 1 else 1, idle := s.idleWord n, txRun := 0 } else s.port k :=
  s.modPort_port n k _

theorem announced_sendIdle (s : State) (n : Nat) : Announced s (s.sendIdle n) := by
  refine ⟨rfl, ⟨[.tiuth n true [s.idleWord n]], rfl, fun e he => ⟨n, s.idleWord n, List.mem_singleton.1 he⟩⟩, fun k => ?_⟩
  rw [sendIdle_port]
  split
  next hk =>
    rw [hk]
    exact ⟨_, _, rfl⟩
  next => exact ⟨(s.port k).idlesTx, (s.port k).txRun, rfl⟩

/-- Port n sends its IDLE where it is in use and its IDLE has changed. -/
def State.announceOn (s : State) (n : Nat) : State := if (s.port n).role ≠ 0 && (s.port n).idle ≠ s.idleWord n then s.sendIdle n else s

theorem announce_eq (s : State) : s.announce = (s.cas.ports.map (fun e => e.1)).foldl State.announceOn s := rfl

theorem announced_announceOn (s : State) (n : Nat) : Announced s (s.announceOn n) := by
  unfold State.announceOn
  split
  · exact announced_sendIdle s n
  · exact Announced.refl s

theorem announceOn_port_ne (s : State) {n k : Nat} (h : k ≠ n) : (s.announceOn n).port k = s.port k := by
  unfold State.announceOn
  split
  · rw [sendIdle_port, if_neg h]
  · rfl

theorem announceOn_idle {s : State} {n : Nat} (h : (s.port n).role ≠ 0) : ((s.announceOn n).port n).idle = s.idleWord n := by
  unfold State.announceOn
  split
  · rw [sendIdle_port, if_pos rfl]
  next hc => simpa [h] using hc

theorem announced_foldl (l : List Nat) (s : State) : Announced s (l.foldl State.announceOn s) := by
  induction l generalizing s with
  | nil => exact Announced.refl s
  | cons n rest ih => exact (announced_announceOn s n).trans (ih _)

theorem announced_announce (s : State) : Announced s s.announce := announced_foldl _ s

/-- A port in use that has its turn, or whose IDLE stands already, shows its IDLE. -/
theorem foldl_announceOn_idle (l : List Nat) {s : State} {n : Nat} (hr : (s.port n).role ≠ 0) (h : n ∈ l ∨ (s.port n).idle = s.idleWord n) :
    ((l.foldl State.announceOn s).port n).idle = s.idleWord n := by
  induction l generalizing s with
  | nil => exact h.resolve_left List.not_mem_nil
  | cons k rest ih =>
    have hk := announced_announceOn s k
    rw [List.foldl_cons, ← hk.idleWord n]
    refine ih (by rwa [hk.role]) ?_
    by_cases hn : n = k
    · rw [hk.idleWord, ← hn]
      exact .inr (announceOn_idle hr)
    · rw [hk.idleWord, announceOn_port_ne s hn]
      exact h.imp_left fun hm => (List.mem_cons.1 hm).resolve_left hn

theorem announce_idle {s : State} {n : Nat} (h : (s.port n).role ≠ 0) : (s.announce.port n).idle = s.idleWord n :=
  foldl_announceOn_idle _ h (.inl (mem_ports_of_role h))

/-- Bit 17 of an IDLE is NAK. -/
theorem idleWord_nak {s : State} {n : Nat} (h : (s.port n).nak = true) : (s.idleWord n).getLsbD 17 = true := by
  have hseq := (s.port n).rxSeq.isLt
  have hvalid : b2n (s.port n).rxValid ≤ 1 := by cases (s.port n).rxValid <;> decide
  unfold State.idleWord
  rw [BitVec.getLsbD_ofNat, h, Nat.testBit_eq_decide_div_mod_eq]
  have hone : b2n true = 1 := rfl
  rw [hone]
  simp only [Bool.and_eq_true, decide_eq_true_eq]
  omega

/-! #### Messages that a port takes or discards (R183) -/

/-- The state in which port n has taken the message of this LINK_SEQ. -/
def State.received (s : State) (n : Nat) (seq : BitVec 8) : State := (s.modPort n (fun p => { p with rxSeq := seq, rxValid := true, nak := false })).announce

theorem accept_down {s : State} {n : Nat} (h : (s.port n).state ≠ 2) (m : CasMsg) : s.accept n m = (s, false) := by
  have hup : (s.port n).up = false := decide_eq_false h
  unfold State.accept State.acceptSeq
  simp only [hup, Bool.not_false, if_true]

theorem accept_outOfOrder {s : State} {n : Nat} {m : CasMsg} (hup : (s.port n).state = 2) (h : m.linkSeq ≠ nextSeq s n) :
    s.accept n m = ((s.refuseMessage n).announce, false) := by
  have hup : (s.port n).up = true := decide_eq_true hup
  unfold nextSeq at h
  unfold State.accept State.acceptSeq
  simp only [hup, h, Bool.not_true, Bool.false_eq_true, if_false, ne_eq, not_false_eq_true, if_true]

theorem accept_takes {s : State} {n : Nat} {m : CasMsg} (h : takesMessage s n m) : s.accept n m = (s.received n m.linkSeq, true) := by
  obtain ⟨hup, hseq⟩ := h
  have hup : (s.port n).up = true := decide_eq_true hup
  unfold nextSeq at hseq
  unfold State.accept State.acceptSeq
  simp only [hup, ← hseq, Bool.not_true, Bool.false_eq_true, if_false, ne_eq, not_true_eq_false]
  rfl

/-- The commands that are messages of a cascade link, but for TIME_TRANSFER. -/
def messageCommands (t : SI) (port : Fin 16) (m : CasMsg) : List Instr :=
  [.armMessage t port m, .disarmMessage t port m, .fire t port m, .basteMessage t port m, .sewMessage t port m, .unpickMessage t port m,
    .discover t port m, .report t port m, .armResult t port m, .isolated t port m, .rejoined t port m, .doubtMessage t port m]

/-- Of a message that its port does not take nothing else is done, whatever its type: every row begins with the same check. -/
theorem exec_notTaken {s s' : State} {t : SI} {port : Fin 16} {m : CasMsg} (h : (s.moment t).accept port.val m = (s', false)) {c : Instr}
    (hc : c ∈ messageCommands t port m) : exec c s = .next s' := by
  simp only [messageCommands, List.mem_cons, List.not_mem_nil, or_false] at hc
  rcases hc with rfl | rfl | rfl | rfl | rfl | rfl | rfl | rfl | rfl | rfl | rfl | rfl
  all_goals
    simp only [exec, execArmMessage, execDisarmMessage, State.cascadeCommand, execFire, execBasteMessage, execSewMessage, execUnpickMessage, execDiscover,
      execReport, execArmResult, execIsolated, execRejoined, execDoubtMessage, h, Bool.not_false, Bool.true_or, if_true]

end Sys2Proof.Machine

namespace Sys2Proof.Proofs

open Sys2Proof.Machine Sys2Proof.Safety

/-- Settles O40: a message of any type goes through one check (`exec_notTaken`); what it discards leaves a NAK on its port, and the IDLE that
announces it (`announce_idle`). -/
theorem messagesOutOfOrder : Obligations.MessagesOutOfOrder := by
  unfold Obligations.MessagesOutOfOrder
  intro s t port m c p hc
  refine ⟨fun hdown => exec_notTaken (accept_down (s := s.moment t) hdown m) hc, fun hup hseq => ?_⟩
  have hrefused := announced_announce ((s.moment t).refuseMessage port.val)
  have hport : ((s.moment t).refuseMessage port.val).port port.val = { p with nak := true } := (s.moment t).modPort_port_self port.val _
  refine ⟨_, exec_notTaken (accept_outOfOrder (s := s.moment t) hup hseq) hc, ?_⟩
  obtain ⟨l, hposted, hidles⟩ := hrefused.idles
  refine ⟨l, ?_, hidles, ?_, fun hr => ?_⟩
  · have hrest := hrefused.rest
    rw [hposted] at hrest
    exact hrest
  · obtain ⟨k, run, he⟩ := hrefused.port port.val
    rw [hport] at he
    exact ⟨k, run, he⟩
  · rw [announce_idle (by rw [hport]; exact hr)]
    exact idleWord_nak (by rw [hport])

end Sys2Proof.Proofs

/-! ### Messages passed on (R184 to R191) -/

namespace Sys2Proof.Machine

open Sys2Proof.Safety

/-! #### The unit's role (R187, R202) -/

/-- A port whose role is k stands in the table. -/
theorem any_role_of_tfind {t : Tab Port} {n k : Nat} (hk : k ≠ 0) (h : ((tfind t n).getD {}).role = k) : t.any (fun e => e.2.role = k) = true := by
  cases hp : tfind t n with
  | none =>
    rw [hp] at h
    exact absurd h.symm hk
  | some p =>
    rw [hp] at h
    exact List.any_eq_true.2 ⟨(n, p), mem_of_tfind hp, decide_eq_true h⟩

/-- A port put back with the role it had leaves the roles that ports have. -/
theorem any_role_tput {t : Tab Port} {n k : Nat} {p : Port} (hk : k ≠ 0) (h : p.role = ((tfind t n).getD {}).role) :
    (tput t n p).any (fun e => e.2.role = k) = t.any (fun e => e.2.role = k) := by
  have hp : p.role = k → t.any (fun e => e.2.role = k) = true := fun hr => any_role_of_tfind hk (h.symm.trans hr)
  induction t with
  | nil =>
    have h0 : ¬ p.role = k := fun hr => Bool.false_ne_true (hp hr)
    simp [tput, h0]
  | cons e rest ih =>
    obtain ⟨j, w⟩ := e
    unfold tput
    split
    · by_cases hr : p.role = k
      · rw [hp hr, List.any_cons, decide_eq_true hr, Bool.true_or]
      · rw [List.any_cons, decide_eq_false hr, Bool.false_or]
    · split
      next hj =>
        have hw : p.role = w.role := by simpa [tfind, hj] using h
        simp only [List.any_cons, hw]
      next hj =>
        have hrest : p.role = ((tfind rest n).getD {}).role := by simpa [tfind, hj] using h
        rw [List.any_cons, List.any_cons, ih hrest fun hr => any_role_of_tfind hk (hrest.symm.trans hr)]

theorem isSome_upPort (c : Cascade) : c.upPort.isSome = c.ports.any (fun e => e.2.role = 1) := by
  unfold Cascade.upPort
  rw [Option.isSome_map]
  induction c.ports with
  | nil => rfl
  | cons e rest ih =>
    by_cases h : e.2.role = 1
    · simp [h]
    · simpa [h] using ih

/-- The unit's role is a matter of which roles its ports have. -/
theorem role_of_any {c d : Cascade} (h : ∀ k, k ≠ 0 → d.ports.any (fun e => e.2.role = k) = c.ports.any (fun e => e.2.role = k)) : d.role = c.role := by
  unfold Cascade.role
  rw [isSome_upPort, isSome_upPort, h 1 (by decide), h 2 (by decide)]

/-! #### What messages that leave change -/

/-- s' comes from s by messages that leave and bastes that are tracked: records and messages are placed, ports change but for their roles, and nothing else of
the cascade does. -/
structure Relayed (s s' : State) : Prop where
  placed : Placed { s with cas := { s.cas with ports := s'.cas.ports, forwarded := s'.cas.forwarded, timeSent := s'.cas.timeSent } } s'
  role : s'.cas.role = s.cas.role
  portRole : ∀ n, (s'.port n).role = (s.port n).role

theorem Placed.relayed {s s' : State} (h : Placed s s') : Relayed s s' := by
  have hports : ∀ n, s'.port n = s.port n := fun n => by
    unfold State.port
    rw [h.cas]
  refine ⟨?_, by rw [h.cas], fun n => by rw [hports]⟩
  rw [h.cas]
  exact h

theorem Relayed.refl (s : State) : Relayed s s := (Placed.refl s).relayed

section
variable {s s' : State} (h : Relayed s s')
include h

theorem Relayed.cas : s'.cas = { s.cas with ports := s'.cas.ports, forwarded := s'.cas.forwarded, timeSent := s'.cas.timeSent } := h.placed.cas

theorem Relayed.linked : Linked s s' := by
  unfold Linked
  rw [h.cas]
  exact h.placed

theorem Relayed.raised {n : Nat} (hn : n ∈ s.events.raised) : n ∈ s'.events.raised := h.placed.raised n hn

theorem Relayed.unitId : s'.cas.unitId = s.cas.unitId := by rw [h.cas]

theorem Relayed.commands : s'.cas.commands = s.cas.commands := by rw [h.cas]

theorem Relayed.armFail : s'.cas.armFail = s.cas.armFail := by rw [h.cas]

theorem Relayed.fireRx : s'.cas.fireRx = s.cas.fireRx := by rw [h.cas]

theorem Relayed.remote : s'.cas.remote = s.cas.remote := by rw [h.cas]

theorem Relayed.retroNoRun : s'.cas.retroNoRun = s.cas.retroNoRun := by rw [h.cas]

theorem Relayed.storeFull : s'.cas.storeFull = s.cas.storeFull := by rw [h.cas]

theorem Relayed.log : s'.log = s.log := h.placed.log

theorem Relayed.boundary : s'.boundary = s.boundary := h.placed.boundary

end

theorem Relayed.trans {a b c : State} (h : Relayed a b) (k : Relayed b c) : Relayed a c := by
  refine ⟨?_, k.role.trans h.role, fun n => (k.portRole n).trans (h.portRole n)⟩
  have hk := k.placed
  rw [h.cas] at hk
  exact (h.placed.setCas _).trans hk

/-- The same, the last step named first. -/
theorem Relayed.after {a b c : State} (k : Relayed b c) (h : Relayed a b) : Relayed a c := h.trans k

theorem Relayed.foldl {β : Type} (f : State → β → State) (hf : ∀ s x, Relayed s (f s x)) (l : List β) (s : State) : Relayed s (l.foldl f s) := by
  induction l generalizing s with
  | nil => exact Relayed.refl s
  | cons x rest ih => exact (hf s x).trans (ih _)

/-- One port changed but for its role. -/
theorem relayed_modPort (s : State) (n : Nat) {f : Port → Port} (hf : ∀ p, (f p).role = p.role) : Relayed s (s.modPort n f) := by
  refine ⟨Placed.refl _, role_of_any fun k hk => any_role_tput hk (hf _), fun k => ?_⟩
  rw [State.modPort_port]
  split
  next h => rw [hf, h]
  next => rfl

theorem relayed_sendIdle (s : State) (n : Nat) : Relayed s (s.sendIdle n) := (placed_post _ _).relayed.after (relayed_modPort s n (fun _ => rfl))

theorem relayed_announce (s : State) : Relayed s s.announce := by
  refine Relayed.foldl State.announceOn (fun s n => ?_) _ s
  unfold State.announceOn
  split
  · exact relayed_sendIdle s n
  · exact Relayed.refl s

theorem relayed_received (s : State) (n : Nat) (seq : BitVec 8) : Relayed s (s.received n seq) :=
  (relayed_announce _).after (relayed_modPort s n (fun _ => rfl))

theorem relayed_putBlocks (s : State) (n : Nat) (x : Posted) : Relayed s (s.putBlocks n x) := by
  have h : Relayed s ((s.modPort n (fun p => { p with txRun := p.txRun + 1 })).post x) :=
    (placed_post _ _).relayed.after (relayed_modPort s n (fun _ => rfl))
  unfold State.putBlocks
  dsimp only
  split
  · exact h.trans (relayed_sendIdle _ _)
  · exact h

theorem relayed_stampSent (s : State) (type : Nat) (m : CasMsg) : Relayed s (s.stampSent type m) := by
  unfold State.stampSent
  split
  · exact ⟨Placed.refl _, rfl, fun _ => rfl⟩
  · exact Relayed.refl s

theorem relayed_sendQueued (s : State) (n fuel : Nat) : Relayed s (s.sendQueued n fuel) := by
  induction fuel generalizing s with
  | zero => exact Relayed.refl s
  | succ k ih =>
    unfold State.sendQueued
    dsimp only
    split
    · exact Relayed.refl s
    · split
      · exact Relayed.refl s
      · exact (ih _).after ((relayed_stampSent _ _ _).after ((relayed_putBlocks _ _ _).after (relayed_modPort s n (fun _ => rfl))))

theorem relayed_enqueue (s : State) (n type : Nat) (m : CasMsg) : Relayed s (s.enqueue n type m) := by
  unfold State.enqueue
  dsimp only
  split
  · exact relayed_modPort s n (fun _ => rfl)
  · split
    · exact (placed_raise _ _).relayed.after (relayed_modPort s n (fun _ => rfl))
    · exact (relayed_sendQueued _ _ _).after (relayed_modPort s n (fun _ => rfl))

theorem relayed_sendDown (s : State) (type : Nat) (m : CasMsg) : Relayed s (s.sendDown type m) :=
  Relayed.foldl _ (fun _ _ => relayed_enqueue _ _ _ _) _ s

theorem relayed_broadcast (s : State) (type : Nat) (m : CasMsg) : Relayed s (s.broadcast type m) :=
  Relayed.foldl _ (fun _ _ => relayed_enqueue _ _ _ _) _ s

theorem relayed_sendUp (s : State) (type : Nat) (m : CasMsg) : Relayed s (s.sendUp type m) := by
  unfold State.sendUp
  split
  · exact Relayed.refl s
  · exact relayed_enqueue _ _ _ _

/-- A broadcast message passed on, and whether it is delivered (R188, R191). -/
theorem relayed_forward (s : State) (type : Nat) (m : CasMsg) : Relayed s (s.forward type m).1 ∧ ((s.forward type m).2 = true ↔ delivers s m) := by
  unfold State.forward delivers
  dsimp only
  split
  next hdir =>
    split
    next hr => exact ⟨relayed_sendUp s type m, by simp [hdir, hr]⟩
    next hr => exact ⟨relayed_broadcast s type m, by simp [hr]⟩
  next hdir => exact ⟨relayed_sendDown s type m, by simp [hdir]⟩

theorem relayed_track (s : State) (port : Nat) (m : CasMsg) : Relayed s (s.track port m) := by
  unfold State.track
  split
  · exact Relayed.refl s
  · exact ⟨Placed.refl _, rfl, fun _ => rfl⟩

theorem relayed_untrack (s : State) (m : CasMsg) : Relayed s (s.untrack m) := ⟨Placed.refl _, rfl, fun _ => rfl⟩

/-- Whom a message is delivered to does not depend on what has left before. -/
theorem Relayed.delivers {s s' : State} (h : Relayed s s') (m : CasMsg) : delivers s' m ↔ delivers s m := by
  unfold Safety.delivers
  rw [h.unitId, h.role]

/-- Station time does not depend on records that are placed. -/
theorem Placed.stNow {s s' : State} (h : Placed s s') (b : SI) : s'.stNow b = s.stNow b := by
  have hanchors : s'.data.anchors = s.data.anchors := (congrArg (fun x : State => x.data.anchors) h.still :)
  unfold State.stNow State.timeFor State.anchored
  rw [h.time, hanchors]

theorem Relayed.stNow {s s' : State} (h : Relayed s s') (b : SI) : s'.stNow b = s.stNow b := h.placed.stNow b

end Sys2Proof.Machine

/-! ### ARM and DISARM of the cascade (R189, R190) -/

namespace Sys2Proof.Machine

open Sys2Proof.Safety

/-! #### Arrival -/

theorem Placed.setLog {s s' : State} (h : Placed s s') (x : Log) : Placed { s with log := x } { s' with log := x } :=
  ⟨congrArg (fun z : State => { z with log := x }) h.still, h.region, h.raised, h.posted⟩

/-- What a cascade command that fails leaves: ARM_RESULT on its way up, and event 59. -/
theorem relayed_armFailed (s : State) (number status : Nat) : Relayed s (s.armFailed number status) ∧ 59 ∈ (s.armFailed number status).events.raised :=
  ⟨(relayed_sendUp _ _ _).trans (placed_raise _ _).relayed, raise_mem _ _⟩

/-- The command that an ARM or a DISARM brings (R190). -/
def casCommand (m : CasMsg) (arm : Bool) : CasCmd :=
  { arm := arm, load := m.a.getLsbD 0, restart := m.a.getLsbD 1, due := CasMsg.st m, number := m.d.toNat, master := m.origin.toNat }

/-- The due ST of a cascade command has passed: it lies at or before the boundary below the present one (R190). -/
def State.duePassed (s : State) (due : Nat) : Prop := 16 ≤ s.boundary ∧ due ≤ s.stNow (s.boundary - 16)

/-- The state that holds cascade command c, with a log entry reserved. -/
def State.holding (s : State) (c : CasCmd) : State :=
  { s with cas := { s.cas with commands := s.cas.commands ++ [c] }, log := { s.log with reserved := s.log.reserved + 1 } }

theorem holdCascade_held {s : State} {c : CasCmd} (hd : ¬ s.duePassed c.due) (hn : s.cas.commands.length < 8) (hl : s.log.canReserve 1 = true) :
    s.holdCascade c = s.holding c := by
  have hdue : ¬ (decide (c.due ≤ s.stNow (s.boundary - 16)) && decide (16 ≤ s.boundary)) = true := fun h => by
    simp only [Bool.and_eq_true, decide_eq_true_eq] at h
    exact hd h.symm
  unfold State.holdCascade
  rw [if_neg hdue, if_neg (Nat.not_le_of_lt hn), hl]
  rfl

theorem holdCascade_fails {s : State} {c : CasCmd} (h : s.duePassed c.due ∨ 8 ≤ s.cas.commands.length) :
    ∃ status, s.holdCascade c = s.armFailed c.number status := by
  unfold State.holdCascade
  split
  · exact ⟨_, rfl⟩
  next hdue =>
    have hfull : 8 ≤ s.cas.commands.length := h.resolve_left fun hd => by
      simp only [Bool.and_eq_true, decide_eq_true_eq] at hdue
      exact hdue hd.symm
    rw [if_pos hfull]
    exact ⟨_, rfl⟩

theorem Relayed.duePassed {s s' : State} (h : Relayed s s') (due : Nat) : s'.duePassed due ↔ s.duePassed due := by
  unfold State.duePassed
  rw [h.boundary, h.stNow]

/-- ARM or DISARM from a link that is no upstream port is taken and left. -/
theorem cascadeCommand_notUp {s : State} {n : Nat} {m : CasMsg} (h : takesMessage s n m) (hr : (s.port n).role ≠ 1) (type : Nat) (arm : Bool) :
    s.cascadeCommand n type m arm = s.received n m.linkSeq := by
  have hr : ((s.received n m.linkSeq).port n).role ≠ 1 := by rwa [(relayed_received s n m.linkSeq).portRole]
  unfold State.cascadeCommand
  rw [accept_takes h]
  simp only [hr, Bool.not_true, ne_eq, not_false_eq_true, decide_true, Bool.false_or, if_true]

/-- One from the upstream port, and another unit's, is passed on and then held or refused. -/
theorem cascadeCommand_up {s : State} {n : Nat} {m : CasMsg} (h : takesMessage s n m) (hr : (s.port n).role = 1) (hm : m.origin ≠ s.cas.unitId)
    (type : Nat) (arm : Bool) : ∃ y, Relayed s y ∧ s.cascadeCommand n type m arm = y.holdCascade (casCommand m arm) := by
  have hy := (relayed_received s n m.linkSeq).trans (relayed_sendDown _ type m)
  have hr : ((s.received n m.linkSeq).port n).role = 1 := by rwa [(relayed_received s n m.linkSeq).portRole]
  refine ⟨_, hy, ?_⟩
  unfold State.cascadeCommand
  rw [accept_takes h]
  rw [← hy.unitId] at hm
  simp only [hr, Bool.not_true, ne_eq, not_true_eq_false, decide_false, Bool.or_self, Bool.false_eq_true, if_false, hm]
  rfl

/-- The command that brings an ARM or a DISARM of the cascade. -/
theorem exec_cascadeCommand (s : State) (t : SI) (port : Fin 16) (m : CasMsg) (arm : Bool) :
    exec (if arm then .armMessage t port m else .disarmMessage t port m) s = .next ((s.moment t).cascadeCommand port.val (if arm then 1 else 2) m arm) := by
  cases arm <;> rfl

/-! #### The due command -/

/-- The state in which the one command that was held is applied. -/
def State.takesDue (s : State) (t : SI) : State := ({ s.moment t with cas := { s.cas with commands := [] } } : State).unreserve 1

theorem exec_cascadeCommandDue_none {s : State} {t : SI} (h : ∀ y ∈ s.cas.commands, (s.moment t).stNow (s.moment t).boundary < y.due) :
    exec (.cascadeCommandDue t) s = .next (s.moment t).goOn := by
  have hf : s.cas.commands.find? (fun c => decide (c.due ≤ (s.moment t).stNow (s.moment t).boundary)) = none :=
    List.find?_eq_none.2 fun y hy => by simpa using h y hy
  show execCascadeCommandDue t s = _
  unfold execCascadeCommandDue rowCascadeCommandDue
  dsimp only [State.moment_cas]
  rw [hf]

theorem exec_cascadeCommandDue_due {s : State} {t : SI} {c : CasCmd} (h : s.cas.commands = [c]) (hd : c.due ≤ (s.moment t).stNow (s.moment t).boundary) :
    exec (.cascadeCommandDue t) s = .next ((s.takesDue t).applyCascade c).goOn := by
  have hf : s.cas.commands.find? (fun c => decide (c.due ≤ (s.moment t).stNow (s.moment t).boundary)) = some c := by
    rw [h]
    exact List.find?_cons_of_pos (decide_eq_true hd)
  have he : s.cas.commands.erase c = [] := by rw [h, List.erase_cons_head]
  show execCascadeCommandDue t s = _
  unfold execCascadeCommandDue rowCascadeCommandDue
  dsimp only [State.moment_cas]
  rw [hf]
  dsimp only
  rw [he]
  rfl

/-- The state in which a due command is applied differs from the present one in the commands held and in the log. -/
theorem answered_takesDue (s : State) (t : SI) (q : Seq) :
    Answered { s.moment t with cas := { s.cas with commands := [] }, seq0 := q } { s.takesDue t with seq0 := q } := Answered.of_fields rfl rfl rfl rfl rfl

/-- DISARM of an armed sequencer with no frame left unevaluated, on any state. -/
theorem disarmEffect_armed {s : State} (c : Ctx) (ha : s.seq0.armed = true) (hh : s.seq0.halted = false) (hu : s.seq0.uneval = 0) :
    Answered { s with seq0 := { s.seq0 with armed := false, stopAt := some s.boundary } } (disarmEffect c s) ∧
      (disarmEffect c s).log.count = s.log.count + (if s.cmd.deferredArm.isSome then 2 else 1) := by
  obtain ⟨hplaced, -⟩ := disarmAt_armed (s := s.dropArm) ha hh hu s.boundary
  rw [disarmEffect_eq]
  generalize s.dropArm.disarmAt s.boundary = d at hplaced
  rw [show s.dropArm.seq0 = s.seq0 from rfl, disarmed_of_armed ha hh] at hplaced
  have hdrop : Answered { s with seq0 := { s.seq0 with armed := false, stopAt := some s.boundary } }
    { s.dropArm with seq0 := { s.seq0 with armed := false, stopAt := some s.boundary } } := Answered.of_fields rfl rfl rfl rfl rfl
  refine ⟨((hdrop.trans hplaced.answered).trans (answered_cancelDeferred d _)).trans (answered_finish _ _ _), ?_⟩
  rw [finish_count, cancelDeferred_count, hplaced.log]
  show s.log.count + _ + 1 = _
  split
  · rfl
  · rfl

theorem goOn_log {m e : State} (h : Answered m e) (hq : quiet m) : e.goOn.log = e.log := by
  have hf : ∀ n, (e.ring n).fetched = [] := fun n => (h.fetched n).trans (quiet_fetched m hq n)
  have hs : e.startup.step ≠ 6 := by
    rw [h.startup, hq.step]
    decide
  rw [goOn_eq_pump hs (h.safe ▸ hq.soft), (pump_log_hold e hf).1]

/-- An ARM of the cascade without LOAD names the active program and no image. -/
theorem casParams_arm {c : CasCmd} (ha : c.arm = true) (hl : c.load = false) : bit (pField (casCtx c).params 1 1) 0 = false := by
  show bit (pField (casParams c) 1 1) 0 = false
  unfold casParams
  rw [ha, hl]
  cases c.restart <;> decide

section Due
variable {s : State} {t : SI} {c : CasCmd} (hq : quiet s)
include hq

/-- A due DISARM ends the evaluation of an armed sequencer. -/
theorem applyCascade_disarms (hc : c.arm = false) (ha : s.seq0.armed = true) (hh : s.seq0.halted = false) (hu : s.seq0.uneval = 0) :
    let s' := ((s.takesDue t).applyCascade c).goOn
    Answered { s.moment t with
      cas := { s.cas with commands := [] }, seq0 := { s.seq0 with armed := false, stopAt := some (s.moment t).boundary } } s' ∧
      58 ∈ s'.events.raised ∧ s'.log.count = s.log.count + (if s.cmd.deferredArm.isSome then 2 else 1) := by
  obtain ⟨heff, hcount⟩ := disarmEffect_armed (s := s.takesDue t) (casCtx c) ha hh hu
  have he : (s.takesDue t).applyCascade c = (disarmEffect (casCtx c) (s.takesDue t)).raise 58 := by
    unfold State.applyCascade
    rw [hc]
    rfl
  have hall := ((answered_takesDue s t { s.seq0 with armed := false, stopAt := some (s.moment t).boundary }).trans heff).trans (placed_raise _ 58).answered
  have hquiet := quiet_of_fields (s' := { s.moment t with
    cas := { s.cas with commands := [] }, seq0 := { s.seq0 with armed := false, stopAt := some (s.moment t).boundary } }) (quiet_moment hq t) rfl rfl rfl
  have hrow := hall.row hquiet
  have hlog := goOn_log hall hquiet
  dsimp only
  rw [he]
  refine ⟨hrow.answered, hrow.raised _ (raise_mem _ _), ?_⟩
  rw [hlog, (placed_raise _ 58).log]
  exact hcount

/-- A due ARM without LOAD arms an idle sequencer while a run is active and the unit is not in doubt. -/
theorem applyCascade_arms (hc : c.arm = true) (hl : c.load = false) (hd : s.safe.causes = 0) (hr : s.cap.runState = 1) (hs : s.seq0.stopAt = none)
    (ha : s.seq0.armed = false) (hh : s.seq0.halted = false) :
    let s' := ((s.takesDue t).applyCascade c).goOn
    Answered { s.moment t with cas := { s.cas with commands := [] }, seq0 := s.seq0.armAt (s.moment t).boundary false } s' ∧
      58 ∈ s'.events.raised ∧ 131 ∈ s'.events.raised := by
  obtain ⟨heff, -, h131⟩ := armBy_spec (s.takesDue t) (casCtx c) (s.takesDue t).boundary
  have hdoubt : (s.takesDue t).inDoubt = false := inDoubt_of_eq hd
  have hdefers : armDefers (s.takesDue t) = false := by
    show s.seq0.stopAt.isSome = false
    rw [hs]
    rfl
  have hblocked : armBlocked (s.takesDue t) c.load c.restart 0 = false := by
    rw [hl]
    exact armBlocked_none hr ha hh c.restart
  have he : (s.takesDue t).applyCascade c = ((s.takesDue t).armBy (casCtx c) (s.takesDue t).boundary).raise 58 := by
    unfold State.applyCascade
    rw [hc, hdoubt, hdefers, hblocked]
    rfl
  rw [casParams_arm hc hl] at heff
  have hall := ((answered_takesDue s t (s.seq0.armAt (s.moment t).boundary false)).trans heff).trans (placed_raise _ 58).answered
  have hrow := hall.row (quiet_of_fields (quiet_moment hq t) rfl rfl rfl)
  dsimp only
  rw [he]
  exact ⟨hrow.answered, hrow.raised _ (raise_mem _ _), hrow.raised _ ((placed_raise _ 58).raised _ h131)⟩

/-- A due ARM fails in doubt. -/
theorem applyCascade_doubt (hc : c.arm = true) (hd : s.safe.causes ≠ 0) :
    let s' := ((s.takesDue t).applyCascade c).goOn
    Answered { s.moment t with cas := s'.cas } s' ∧ s'.cas.commands = [] ∧ 59 ∈ s'.events.raised := by
  have he : (s.takesDue t).applyCascade c = (s.takesDue t).armFailed c.number stDoubt := by
    unfold State.applyCascade
    rw [hc, show (s.takesDue t).inDoubt = true from inDoubt_of_ne hd]
    rfl
  obtain ⟨hfails, h59⟩ := relayed_armFailed (s.takesDue t) c.number stDoubt
  have hplaced : Placed { s.takesDue t with cas := ((s.takesDue t).armFailed c.number stDoubt).cas } ((s.takesDue t).armFailed c.number stDoubt) := hfails.linked
  have hdue : Answered { s.moment t with cas := ((s.takesDue t).armFailed c.number stDoubt).cas }
    { s.takesDue t with cas := ((s.takesDue t).armFailed c.number stDoubt).cas } := Answered.of_fields rfl rfl rfl rfl rfl
  have hrow := (hdue.trans hplaced.answered).row (quiet_of_fields (quiet_moment hq t) rfl rfl rfl)
  have hcas : ((s.takesDue t).armFailed c.number stDoubt).goOn.cas = _ := hrow.answered.cas
  dsimp only
  rw [he]
  refine ⟨?_, ?_, hrow.raised _ h59⟩
  · rw [hcas]
    exact hrow.answered
  · rw [hcas]
    exact hfails.commands

end Due

/-! #### ARM_RESULT -/

section
variable {s : State} {t : SI} {port : Fin 16} {m : CasMsg} (h : takesMessage (s.moment t) port.val m)
include h

theorem exec_armResult_child (hr : s.cas.role = 2) : exec (.armResult t port m) s = .next (((s.moment t).received port.val m.linkSeq).sendUp 8 m) := by
  have hr : ((s.moment t).received port.val m.linkSeq).cas.role = 2 := (relayed_received _ _ _).role.trans hr
  show execArmResult t port m s = _
  rw [execArmResult, accept_takes h]
  simp only [Bool.not_true, Bool.false_eq_true, if_false, hr, if_true]

theorem exec_armResult_own (hr : s.cas.role ≠ 2) (hm : m.origin = s.cas.unitId) :
    exec (.armResult t port m) s = .next ((s.moment t).received port.val m.linkSeq) := by
  have hy := relayed_received (s.moment t) port.val m.linkSeq
  have hr : ((s.moment t).received port.val m.linkSeq).cas.role ≠ 2 := by rwa [hy.role]
  have hm : m.origin = ((s.moment t).received port.val m.linkSeq).cas.unitId := hm.trans hy.unitId.symm
  show execArmResult t port m s = _
  rw [execArmResult, accept_takes h]
  dsimp only
  rw [if_neg (by decide), if_neg hr, if_pos hm]

/-- The root counts the failure of another unit. -/
theorem exec_armResult_counts (hr : s.cas.role ≠ 2) (hm : m.origin ≠ s.cas.unitId) : ∃ y, Relayed (s.moment t) y ∧
    exec (.armResult t port m) s = .next (({ y with cas := { y.cas with armFail := satInc 16 y.cas.armFail, lastFailUnit := m.origin } } : State).raise 60) := by
  have hy := relayed_received (s.moment t) port.val m.linkSeq
  have hr : ((s.moment t).received port.val m.linkSeq).cas.role ≠ 2 := by rwa [hy.role]
  have hm : m.origin ≠ ((s.moment t).received port.val m.linkSeq).cas.unitId := by rwa [hy.unitId]
  refine ⟨_, hy, ?_⟩
  show execArmResult t port m s = _
  rw [execArmResult, accept_takes h]
  dsimp only
  rw [if_neg (by decide), if_neg hr, if_neg hm]

end

end Sys2Proof.Machine

namespace Sys2Proof.Proofs

open Sys2Proof.Machine Sys2Proof.Safety

/-- Settles O41: what arrives is held or fails (`holdCascade_held`, `holdCascade_fails`); what is due disarms, arms or fails as the unit's own command would
(`applyCascade_disarms`, `applyCascade_arms`, `applyCascade_doubt`); the root counts the failures of others (`exec_armResult_counts`). -/
theorem cascadeCommands : Obligations.CascadeCommands := by
  unfold Obligations.CascadeCommands
  intro s t port m arm c x b q run mine passed held due
  refine ⟨fun h hr => ?notUp, fun ⟨h, hr, hm⟩ hp hn hl => ?held, fun ⟨h, hr, hm⟩ hp => ?fails, fun hq hn => ?none, fun hq ⟨hc, hd⟩ => ?disarms,
    fun hq ⟨hc, hd⟩ => ?arms, fun hq ⟨hc, hd⟩ => ?doubt, fun h hr => ?child, fun h hr hm => ?own, fun h hr hm => ?counts⟩
  case notUp =>
    have hy := relayed_received x port.val m.linkSeq
    refine ⟨_, exec_cascadeCommand s t port m arm, ?_⟩
    rw [cascadeCommand_notUp (s := x) h hr]
    exact ⟨Placed.only hy.linked, hy.commands⟩
  case held =>
    obtain ⟨y, hy, he⟩ := cascadeCommand_up (s := x) h hr hm (if arm then 1 else 2) arm
    have hn : y.cas.commands.length < 8 := by rwa [hy.commands]
    have hl : y.log.canReserve 1 = true := by rwa [hy.log]
    refine ⟨_, exec_cascadeCommand s t port m arm, ?_⟩
    rw [he, holdCascade_held (c := casCommand m arm) (mt (hy.duePassed _).1 hp) hn hl]
    have hplaced : Placed { x with cas := y.cas } y := hy.linked
    have hlog : y.log = s.log := hy.log
    refine ⟨Placed.only ?_, ?_⟩
    · have hh := (hplaced.setCas { y.cas with commands := y.cas.commands ++ [casCommand m arm] }).setLog { y.log with reserved := y.log.reserved + 1 }
      rw [hlog] at hh
      rw [State.holding, hlog]
      exact hh
    · show y.cas.commands ++ [casCommand m arm] = _
      rw [hy.commands]
      rfl
  case fails =>
    obtain ⟨y, hy, he⟩ := cascadeCommand_up (s := x) h hr hm (if arm then 1 else 2) arm
    obtain ⟨status, hf⟩ := holdCascade_fails (s := y) (c := casCommand m arm) (by rwa [hy.duePassed, hy.commands])
    obtain ⟨hz, h59⟩ := relayed_armFailed y (casCommand m arm).number status
    refine ⟨_, exec_cascadeCommand s t port m arm, ?_⟩
    rw [he, hf]
    exact ⟨Placed.only (hy.trans hz).linked, (hy.trans hz).commands, h59⟩
  case none => exact ⟨_, exec_cascadeCommandDue_none hn, ((Answered.refl x).row (quiet_moment hq t)).answered.only⟩
  case disarms =>
    intro ha harm hh hu
    obtain ⟨hanswered, h58, hcount⟩ := applyCascade_disarms (t := t) hq ha harm hh hu
    exact ⟨_, exec_cascadeCommandDue_due hc hd, hanswered.only, h58, hcount⟩
  case arms =>
    intro ha hl hsafe hr hs harm hh
    obtain ⟨hanswered, h58, h131⟩ := applyCascade_arms (t := t) hq ha hl hsafe hr hs harm hh
    have hseq := hanswered.seq0
    have hy := armed_armAt harm b false
    refine ⟨_, exec_cascadeCommandDue_due hc hd, ?_⟩
    dsimp only
    rw [hseq]
    exact ⟨hanswered.only, hy.armed, hy.from_, hy.active, h58, h131⟩
  case doubt =>
    intro ha hsafe
    obtain ⟨hanswered, hnone, h59⟩ := applyCascade_doubt (t := t) hq ha hsafe
    exact ⟨_, exec_cascadeCommandDue_due hc hd, hanswered.only, hnone, h59⟩
  case child =>
    have hy := (relayed_received x port.val m.linkSeq).trans (relayed_sendUp _ 8 m)
    exact ⟨_, exec_armResult_child (s := s) h hr, Placed.only hy.linked, hy.armFail⟩
  case own =>
    have hy := relayed_received x port.val m.linkSeq
    exact ⟨_, exec_armResult_own (s := s) h hr hm, Placed.only hy.linked, hy.armFail⟩
  case counts =>
    obtain ⟨y, hy, he⟩ := exec_armResult_counts (s := s) h hr hm
    have hraise := placed_raise ({ y with cas := { y.cas with armFail := satInc 16 y.cas.armFail, lastFailUnit := m.origin } } : State) 60
    have hcas := hraise.cas
    refine ⟨_, he, Placed.only ?_, ?_, ?_, raise_mem _ _⟩
    · exact (hy.linked.trans (linked_set y _)).trans hraise.linked
    · rw [hcas]
      show satInc 16 y.cas.armFail = _
      rw [hy.armFail]
      rfl
    · rw [hcas]

end Sys2Proof.Proofs

/-! ### FIRE, BASTE, SEW and UNPICK that are delivered (R175, R191 to R195) -/

namespace Sys2Proof.Machine

open Sys2Proof.Safety

/-! #### What a delivery changes outside the cascade -/

/-- s' comes from s by what retro-tacks and remote bastes do outside the cascade: occurrences and the latest tack of the live sequencer, pins and windows
change, and records are placed; the sequencer stays armed as it is, its tacks keep their numbers, and the run goes on. -/
structure Tacked (s s' : State) : Prop where
  placed : Placed { s with seq0 := s'.seq0, pins := s'.pins, cap := s'.cap } s'
  armed : s'.seq0.armed = s.seq0.armed
  tackNo : s'.seq0.tackNo = s.seq0.tackNo
  runState : s'.cap.runState = s.cap.runState

theorem Placed.tacked {s s' : State} (h : Placed s s') : Tacked s s' := by
  refine ⟨((h.setSeq0 s'.seq0).setPins s'.pins).setCap s'.cap, ?_, ?_, ?_⟩
  · rw [h.seq0]
  · rw [h.seq0]
  · rw [h.cap]

theorem Tacked.trans {a b c : State} (h : Tacked a b) (k : Tacked b c) : Tacked a c :=
  ⟨(((h.placed.setSeq0 c.seq0).setPins c.pins).setCap c.cap).trans k.placed, k.armed.trans h.armed, k.tackNo.trans h.tackNo, k.runState.trans h.runState⟩

/-- The same, the last step named first. -/
theorem Tacked.after {a b c : State} (k : Tacked b c) (h : Tacked a b) : Tacked a c := h.trans k

theorem Tacked.foldl {β : Type} (f : State → β → State) (hf : ∀ s x, Tacked s (f s x)) (l : List β) (s : State) : Tacked s (l.foldl f s) := by
  induction l generalizing s with
  | nil => exact (Placed.refl s).tacked
  | cons x rest ih => exact (hf s x).trans (ih _)

theorem Tacked.cas {s s' : State} (h : Tacked s s') : s'.cas = s.cas := h.placed.cas

theorem Tacked.raised {s s' : State} (h : Tacked s s') {n : Nat} (hn : n ∈ s.events.raised) : n ∈ s'.events.raised := h.placed.raised n hn

theorem Pinned.tacked {s s' : State} (h : Pinned s s') : Tacked s s' := by
  refine ⟨(Placed.setSeq0 h s'.seq0).setCap s'.cap, ?_, ?_, ?_⟩
  · rw [h.seq0]
  · rw [h.seq0]
  · rw [h.cap]

/-! #### Windows -/

/-- What changes windows and leaves the run as it is. -/
theorem Windowed.tacked {s s' : State} (h : Windowed s s') (hr : s'.cap.runState = s.cap.runState) : Tacked s s' := by
  have hplaced : Placed { s with cap := s'.cap } s' := h
  have hseq : s'.seq0 = s.seq0 := hplaced.seq0
  refine ⟨(hplaced.setSeq0 s'.seq0).setPins s'.pins, ?_, ?_, hr⟩
  · rw [hseq]
  · rw [hseq]

/-- The window slots and their counters changed by hand. -/
theorem tacked_setCap (s : State) {x : Capture} (hr : x.runState = s.cap.runState) : Tacked s { s with cap := x } := ⟨Placed.refl _, rfl, rfl, hr⟩

theorem Placed.runState {s s' : State} (h : Placed s s') : s'.cap.runState = s.cap.runState := by rw [h.cap]

theorem openSlot_runState (s : State) (k : Nat) (w : WSlot) (runB : SI) : (s.openSlot k w runB).cap.runState = s.cap.runState :=
  (placed_raiseIf _ _ 15).runState

theorem refuseWindow_runState (s : State) (policy : Nat) (r : TackRef) (reason : Nat) : (s.refuseWindow policy r reason).cap.runState = s.cap.runState :=
  (placed_raise _ 14).runState.trans (placed_place s (winSource policy) (recRefused r policy reason)).runState

theorem tacked_openSlot (s : State) (k : Nat) (w : WSlot) (runB : SI) : Tacked s (s.openSlot k w runB) :=
  (windowed_openSlot s k w runB).tacked (openSlot_runState s k w runB)

theorem requestWindow_runState (s : State) (policy : Nat) (r : TackRef) : (s.requestWindow policy r).cap.runState = s.cap.runState := by
  unfold State.requestWindow
  dsimp only
  split
  · exact refuseWindow_runState _ _ _ _
  · split
    · rfl
    · split
      · exact refuseWindow_runState _ _ _ _
      · exact openSlot_runState _ _ _ _

theorem tacked_requestWindow (s : State) (policy : Nat) (r : TackRef) : Tacked s (s.requestWindow policy r) :=
  (windowed_requestWindow s policy r).tacked (requestWindow_runState s policy r)

theorem tacked_reserveWindow (s : State) (policy : Nat) (t : SI) : Tacked s (s.reserveWindow policy t).1 := by
  unfold State.reserveWindow
  dsimp only
  split
  · exact (Placed.refl s).tacked
  · exact tacked_setCap s rfl

theorem tacked_releaseWindow (s : State) (slot : Option Nat) : Tacked s (s.releaseWindow slot) := by
  unfold State.releaseWindow
  split
  · exact (Placed.refl s).tacked
  · exact tacked_setCap s rfl

theorem tacked_openReserved (s : State) (k : Nat) (r : TackRef) : Tacked s (s.openReserved k r) := by
  unfold State.openReserved
  split
  · exact (Placed.refl s).tacked
  · exact tacked_openSlot _ _ _ _

/-! #### Pins and the live sequencer -/

theorem tacked_pulse (s : State) (sel : Nat → TrigOut → Bool) (tack : FineTime) (now : SI) (baste : Option (Nat × Nat)) :
    Tacked s (s.pulse sel tack now baste) := (pinned_pulse s sel tack now baste).1.tacked

theorem tacked_setPins (s : State) (x : Pins) : Tacked s { s with pins := x } := ⟨Placed.refl _, rfl, rfl, rfl⟩

theorem tacked_modOut (s : State) (n : Nat) (f : TrigOut → TrigOut) : Tacked s (s.modOut n f) := tacked_setPins s _

theorem tacked_resolvePins (s : State) (key : Nat × Nat) : Tacked s (s.resolvePins key) := Tacked.foldl _ (fun _ _ => tacked_modOut _ _ _) _ s

theorem tacked_unpickPin (s : State) (n : Nat) (key : Nat × Nat) : Tacked s (s.unpickPin n key) := by
  unfold State.unpickPin
  dsimp only
  split
  · exact ((tacked_modOut s n _).trans (tacked_setPins _ _)).trans (placed_raise _ 141).tacked
  · split
    · exact (Placed.refl s).tacked
    · split
      · exact (tacked_modOut s n _).trans (tacked_setPins _ _)
      · exact tacked_modOut s n _

theorem tacked_unpickPins (s : State) (key : Nat × Nat) : Tacked s (s.unpickPins key) := Tacked.foldl _ (fun _ _ => tacked_unpickPin _ _ _) _ s

/-- The live sequencer takes an occurrence, or shows a tack that is not its own. -/
theorem tacked_setSeq0 (s : State) {q : Seq} (ha : q.armed = s.seq0.armed) (hn : q.tackNo = s.seq0.tackNo) : Tacked s { s with seq0 := q } :=
  ⟨Placed.refl _, ha, hn, rfl⟩

theorem tacked_seqCascade (s : State) (kind src : Nat) : Tacked s (s.seqCascade kind src) := by
  unfold State.seqCascade
  split
  · exact (Placed.refl s).tacked
  · exact tacked_setSeq0 s rfl rfl

/-! #### FIRE and SEW -/

theorem retroTack_tacked (s : State) (m : CasMsg) (forced sew : Bool) (slot : Option Nat) :
    Tacked s (s.retroTack m forced sew slot) ∧ 139 ∈ (s.retroTack m forced sew slot).events.raised := by
  refine ⟨?_, raise_mem _ 139⟩
  unfold State.retroTack
  extract_lets u ref coasting s1 s2 s3 s4
  have h1 : Tacked s s1 := (placed_placeActive _ _).tacked
  have h2 : Tacked s1 s2 := tacked_setSeq0 s1 rfl rfl
  have h3 : Tacked s2 s3 := tacked_pulse _ _ _ _ _
  have h4 : Tacked s3 s4 := by
    show Tacked s3 (if _ then _ else _)
    split
    · exact tacked_releaseWindow _ _
    · split
      · exact tacked_openReserved _ _ _
      · exact tacked_requestWindow _ _ _
  exact (((h1.trans h2).trans h3).trans h4).trans (placed_raise _ 139).tacked

/-- What a FIRE or a SEW does once it is counted: a retro-tack in an active run, and else a count. -/
def State.retro (s : State) (m : CasMsg) (forced sew : Bool) (slot : Option Nat) : State :=
  if s.cap.runState ≠ 1 then (s.releaseWindow slot).retroNoRun else s.retroTack m forced sew slot

/-- What a FIRE or SEW that is delivered leaves, but for the bastes stored. -/
structure Fired (s s' : State) : Prop where
  tacked : Tacked { s with cas := s'.cas } s'
  fireRx : s'.cas.fireRx = min (s.cas.fireRx + 1) 65535
  remote : s'.cas.remote = s.cas.remote
  counted : 55 ∈ s'.events.raised
  noRun : s.cap.runState ≠ 1 → s'.cas.retroNoRun = min (s.cas.retroNoRun + 1) 65535 ∧ 62 ∈ s'.events.raised
  tack : s.cap.runState = 1 → s'.cas.retroNoRun = s.cas.retroNoRun ∧ 139 ∈ s'.events.raised

theorem Tacked.setCas {s s' : State} (h : Tacked s s') (x : Cascade) : Tacked { s with cas := x } { s' with cas := x } :=
  ⟨h.placed.setCas x, h.armed, h.tackNo, h.runState⟩

/-- The cascade's state that a step ends with may be named by that step's end. -/
theorem Tacked.ownCas {s s' : State} {x : Cascade} (h : Tacked { s with cas := x } s') : Tacked { s with cas := s'.cas } s' := by
  have hcas : s'.cas = x := h.cas
  rw [hcas]
  exact h

/-- The cascade unit that has counted a FIRE. -/
def Cascade.countFire (c : Cascade) : Cascade := { c with fireRx := satInc 16 c.fireRx }

/-- The cascade unit that has counted a delivery without a run. -/
def Cascade.countNoRun (c : Cascade) : Cascade := { c with retroNoRun := satInc 16 c.retroNoRun }

theorem tacked_fireDelivered (s : State) (m : CasMsg) : Tacked { s with cas := s.cas.countFire } (s.fireDelivered m) ∧
    55 ∈ (s.fireDelivered m).events.raised := by
  have h := tacked_seqCascade (({ s with cas := s.cas.countFire } : State).raise 55) 2 m.origin.toNat
  exact ⟨(placed_raise _ 55).tacked.trans h, h.raised (raise_mem _ 55)⟩

theorem tacked_retroNoRun (s : State) : Tacked { s with cas := s.cas.countNoRun } s.retroNoRun ∧ 62 ∈ s.retroNoRun.events.raised :=
  ⟨(placed_raise _ 62).tacked, raise_mem _ 62⟩

/-- A FIRE or SEW that is counted, and after what a sew does to its pins and records is a retro-tack, or finds no active run. -/
theorem fired_retro {s v : State} {m : CasMsg} (hv : Tacked (s.fireDelivered m) v) (forced sew : Bool) (slot : Option Nat) :
    Fired s (v.retro m forced sew slot) := by
  obtain ⟨hfire, h55⟩ := tacked_fireDelivered s m
  have hv := hfire.trans hv
  have h55 : 55 ∈ v.events.raised := Tacked.raised ‹Tacked (s.fireDelivered m) v› h55
  have hrun : v.cap.runState = s.cap.runState := hv.runState
  unfold State.retro
  by_cases hr : s.cap.runState = 1
  · rw [if_neg (by rw [hrun]; exact not_not_intro hr)]
    obtain ⟨htack, h139⟩ := retroTack_tacked v m forced sew slot
    have hall := hv.trans htack
    have hcas : (v.retroTack m forced sew slot).cas = s.cas.countFire := hall.cas
    exact ⟨hall.ownCas, congrArg Cascade.fireRx hcas, (congrArg Cascade.remote hcas :), htack.raised h55, fun h => absurd hr h,
      fun _ => ⟨(congrArg Cascade.retroNoRun hcas :), h139⟩⟩
  · rw [if_pos (by rw [hrun]; exact hr)]
    have hrelease := hv.trans (tacked_releaseWindow v slot)
    have h55 := (tacked_releaseWindow v slot).raised h55
    generalize v.releaseWindow slot = w at hrelease h55
    have hw : w.cas = s.cas.countFire := hrelease.cas
    obtain ⟨hnone, h62⟩ := tacked_retroNoRun w
    have hall := (hrelease.setCas w.cas.countNoRun).trans hnone
    have hcas : w.retroNoRun.cas = s.cas.countFire.countNoRun := by
      rw [hnone.cas, ← hw]
    exact ⟨hall.ownCas, congrArg Cascade.fireRx hcas, (congrArg Cascade.remote hcas :), hnone.raised h55,
      fun _ => ⟨congrArg Cascade.retroNoRun hcas, h62⟩, fun h => absurd h hr⟩

end Sys2Proof.Machine

/-! ### Remote bastes stored and resolved (R194, R195) -/

namespace Sys2Proof.Machine

open Sys2Proof.Safety

/-- Bastes stored by hand. -/
def State.setRemote (s : State) (l : List RemoteBaste) : State := { s with cas := { s.cas with remote := l } }

theorem Tacked.setRemote {s s' : State} (h : Tacked s s') (l : List RemoteBaste) : Tacked (s.setRemote l) (s'.setRemote l) := by
  unfold State.setRemote
  rw [h.cas]
  exact h.setCas _

/-- The bastes stored under another key than origin o and number n. -/
def State.otherBastes (s : State) (o n : Nat) : List RemoteBaste := s.cas.remote.filter (fun r => decide (¬(r.origin = o ∧ r.number = n)))

/-- Bastes are kept apart by origin and number. -/
theorem filter_otherKey (l : List RemoteBaste) (o n : Nat) :
    l.filter (fun x => x.origin ≠ o || x.number ≠ n) = l.filter (fun r => decide (¬(r.origin = o ∧ r.number = n))) := by
  refine List.filter_congr fun x _ => ?_
  rw [Bool.eq_iff_iff, Bool.or_eq_true, decide_eq_true_eq, decide_eq_true_eq, decide_eq_true_eq, not_and_or]

/-! #### BASTE -/

/-- What a BASTE that is delivered decides before it is stored: the occurrence, and pulses of basted pins. -/
def State.basteDecided (s : State) (m : CasMsg) : State :=
  (s.seqCascade 3 m.origin.toNat).pulse (fun _ p => bit p.source srcRetro && p.basted) (s.retroTime (CasMsg.st m)) (s.seqCascade 3 m.origin.toNat).boundary
    (some (m.origin.toNat, m.d.toNat))

theorem tacked_basteDecided (s : State) (m : CasMsg) : Tacked s (s.basteDecided m) := (tacked_seqCascade _ _ _).trans (tacked_pulse _ _ _ _ _)

/-- The record of message m's baste, with window slot `slot` reserved. -/
def State.basteRecord (s : State) (m : CasMsg) (slot : Option Nat) : Rec :=
  recBaste (s.retroTime (CasMsg.st m) / 64) (s.retroTime (CasMsg.st m) % 64) 0 0 0 m.d.toNat m.origin.toNat (1024 * m.a.toNat) slot.isSome true false false

/-- The window slot that a baste reserves, where the settings ask for one. -/
def State.basteReserved (s : State) (m : CasMsg) : State × Option Nat :=
  if (s.basteDecided m).cas.preopen && (s.basteDecided m).cas.retroWin && (s.basteDecided m).cap.runState = 1 then
    (s.basteDecided m).reserveWindow (s.basteDecided m).cas.retroWpol (s.retroTime (CasMsg.st m) / 64)
  else (s.basteDecided m, none)

theorem tacked_basteReserved (s : State) (m : CasMsg) : Tacked s (s.basteReserved m).1 := by
  unfold State.basteReserved
  split
  · exact (tacked_basteDecided s m).trans (tacked_reserveWindow _ _ _)
  · exact tacked_basteDecided s m

/-- The baste as it is stored. -/
def State.bastes (s : State) (m : CasMsg) : RemoteBaste :=
  { origin := m.origin.toNat, number := m.d.toNat, st := CasMsg.st m, tgen := (s.basteReserved m).1.time.tgen, a := m.a.toNat
    si := s.retroTime (CasMsg.st m) / 64, fine := s.retroTime (CasMsg.st m) % 64, slot := (s.basteReserved m).2 }

/-- The cascade unit that has counted a BASTE for which it had no room. -/
def Cascade.countFull (c : Cascade) : Cascade := { c with storeFull := satInc 16 c.storeFull }

theorem basteDelivered_eq (s : State) (m : CasMsg) : s.basteDelivered m = if 256 ≤ (s.basteDecided m).cas.remote.length then
    (({ s.basteDecided m with cas := (s.basteDecided m).cas.countFull } : State).raise 142).placeProvisional (s.basteRecord m none)
  else ((s.basteReserved m).1.setRemote ((s.basteReserved m).1.cas.remote.filter
    (fun x => x.origin ≠ m.origin.toNat || x.number ≠ m.d.toNat) ++ [s.bastes m])).placeProvisional (s.basteRecord m (s.basteReserved m).2) := by
  unfold State.basteDelivered
  rfl

/-- A BASTE that finds 256 stored is counted, with event 142. -/
theorem basteDelivered_full {s : State} {m : CasMsg} (h : 256 ≤ s.cas.remote.length) :
    Tacked { s with cas := s.cas.countFull } (s.basteDelivered m) ∧ 142 ∈ (s.basteDelivered m).events.raised := by
  have hdecided := tacked_basteDecided s m
  have hset := hdecided.setCas s.cas.countFull
  rw [← hdecided.cas] at h
  rw [basteDelivered_eq, if_pos h]
  rw [← hdecided.cas] at hset ⊢
  have hplace := placed_placeProvisional (({ s.basteDecided m with cas := (s.basteDecided m).cas.countFull } : State).raise 142) (s.basteRecord m none)
  exact ⟨(hset.trans (placed_raise _ 142).tacked).trans hplace.tacked, hplace.raised _ (raise_mem _ 142)⟩

/-- Any other is stored, in the place of one with its key. -/
theorem basteDelivered_stored {s : State} {m : CasMsg} (h : s.cas.remote.length < 256) :
    Tacked (s.setRemote (s.otherBastes m.origin.toNat m.d.toNat ++ [s.bastes m])) (s.basteDelivered m) := by
  have hdecided := tacked_basteDecided s m
  have hreserved := tacked_basteReserved s m
  rw [← hdecided.cas] at h
  rw [basteDelivered_eq, if_neg (Nat.not_le_of_lt h), filter_otherKey, hreserved.cas]
  exact (placed_placeProvisional _ _).tacked.after (hreserved.setRemote _)

/-! #### UNPICK and expiry -/

/-- The cascade unit that has counted an expired baste. -/
def Cascade.countExpired (c : Cascade) : Cascade := { c with expired := satInc 16 c.expired }

/-- What an unpick of the stored baste r does before it is counted: the store, its record, pins and window. -/
def State.unpicked (s : State) (r : RemoteBaste) (reason : Nat) (si : SI) : State :=
  (((s.setRemote (s.otherBastes r.origin r.number)).placeProvisional (recUnpick si 0 0 reason r.number r.origin true)).unpickPins
    (r.origin, r.number)).releaseWindow r.slot

theorem unpickRemote_eq (s : State) (r : RemoteBaste) (reason : Nat) (si : SI) : s.unpickRemote r reason si = if reason = 4 then
    ({ s.unpicked r reason si with cas := (s.unpicked r reason si).cas.countExpired } : State).raise 143 else s.unpicked r reason si := by
  unfold State.unpicked State.otherBastes
  rw [← filter_otherKey]
  rfl

theorem tacked_unpicked (s : State) (r : RemoteBaste) (reason : Nat) (si : SI) :
    Tacked (s.setRemote (s.otherBastes r.origin r.number)) (s.unpicked r reason si) :=
  ((placed_placeProvisional _ _).tacked.trans (tacked_unpickPins _ _)).trans (tacked_releaseWindow _ _)

/-- A stored baste that is unpicked leaves the store; with reason 4 it is counted, with event 143. -/
theorem unpickRemote_tacked (s : State) (r : RemoteBaste) (reason : Nat) (si : SI) :
    let s' := s.unpickRemote r reason si
    Tacked { s with cas := s'.cas } s' ∧ s'.cas.remote = s.otherBastes r.origin r.number ∧ s'.cas.fireRx = s.cas.fireRx ∧
      (reason = 4 → s'.cas.expired = min (s.cas.expired + 1) 65535 ∧ 143 ∈ s'.events.raised) := by
  have hw := tacked_unpicked s r reason si
  have hcas := hw.cas
  dsimp only
  rw [unpickRemote_eq]
  generalize s.unpicked r reason si = w at hw hcas
  split
  next hr =>
    have hraise := (placed_raise ({ w with cas := w.cas.countExpired } : State) 143).tacked
    have hc := hraise.cas
    have hall := Tacked.ownCas (s := s) ((hw.setCas w.cas.countExpired).trans hraise)
    have hexpired : w.cas.countExpired.expired = min (s.cas.expired + 1) 65535 := by
      rw [hcas]
      rfl
    exact ⟨hall, (congrArg Cascade.remote hc).trans (congrArg Cascade.remote hcas), (congrArg Cascade.fireRx hc).trans (congrArg Cascade.fireRx hcas :),
      fun _ => ⟨(congrArg Cascade.expired hc).trans hexpired, raise_mem _ 143⟩⟩
  next hr =>
    exact ⟨Tacked.ownCas (s := s) hw, congrArg Cascade.remote hcas, (congrArg Cascade.fireRx hcas :), fun h => absurd h hr⟩

/-- An UNPICK that is delivered takes its baste out of the store, where it is there. -/
theorem unpickDelivered_tacked (s : State) (m : CasMsg) :
    let s' := s.unpickDelivered m
    Tacked { s with cas := s'.cas } s' ∧ s'.cas.remote = s.otherBastes m.origin.toNat m.d.toNat ∧ s'.cas.fireRx = s.cas.fireRx := by
  unfold State.unpickDelivered
  dsimp only
  split
  next r hr =>
    have hkey := List.find?_some hr
    simp only [Bool.and_eq_true, decide_eq_true_eq] at hkey
    obtain ⟨htacked, hremote, hfire, -⟩ := unpickRemote_tacked s r (m.a.toNat % 8) s.boundary
    rw [hkey.1, hkey.2] at hremote
    exact ⟨htacked, hremote, hfire⟩
  next hr =>
    have hnone := List.find?_eq_none.1 hr
    have h := (placed_placeProvisional s (recUnpick s.boundary 0 0 (m.a.toNat % 8) m.d.toNat m.origin.toNat true)).tacked.trans
      (tacked_unpickPins _ (m.origin.toNat, m.d.toNat))
    rw [h.cas]
    have hkept : ∀ x ∈ s.cas.remote, ¬(x.origin = m.origin.toNat ∧ x.number = m.d.toNat) := fun x hx hk => hnone x hx (by simp [hk])
    exact ⟨h, (List.filter_eq_self.2 fun x hx => decide_eq_true (hkept x hx)).symm, rfl⟩

/-! #### The rows -/

/-- A SEW that is delivered before it is a retro-tack or finds no run: counted, its pins resolved, its record placed. -/
def State.sewRecorded (s : State) (m : CasMsg) : State :=
  let x := ((s.setRemote (s.otherBastes m.origin.toNat m.d.toNat)).fireDelivered m).resolvePins (m.origin.toNat, m.d.toNat)
  x.placeProvisional (recSew x.boundary 0 0 m.d.toNat m.origin.toNat m.a.toNat true)

theorem sewDelivered_eq (s : State) (m : CasMsg) :
    s.sewDelivered m = (s.sewRecorded m).retro m false true ((s.remoteOf m).bind (fun r => r.slot)) := by
  unfold State.sewDelivered State.sewRecorded State.otherBastes
  rw [← filter_otherKey]
  rfl

theorem fired_sewDelivered (s : State) (m : CasMsg) : Fired (s.setRemote (s.otherBastes m.origin.toNat m.d.toNat)) (s.sewDelivered m) := by
  rw [sewDelivered_eq]
  exact fired_retro ((tacked_resolvePins _ _).trans (placed_placeProvisional _ _).tacked) _ _ _

/-- A broadcast message is passed on, and where it is delivered, f is done (R188, R191). -/
def State.delivering (s : State) (type : Nat) (m : CasMsg) (f : State → State) : State :=
  if (s.forward type m).2 then f (s.forward type m).1 else (s.forward type m).1

theorem delivering_cases {x s : State} (h : Relayed x s) (type : Nat) (m : CasMsg) (f : State → State) : ∃ y, Relayed x y ∧
    (delivers x m → s.delivering type m f = f y) ∧ (¬ delivers x m → s.delivering type m f = y) := by
  obtain ⟨hy, hd⟩ := relayed_forward s type m
  have hd := hd.trans (h.delivers m)
  exact ⟨_, h.trans hy, fun hm => if_pos (hd.2 hm), fun hm => if_neg (mt hd.1 hm)⟩

section Message
variable {s : State} {t : SI} {port : Fin 16} {m : CasMsg} (h : takesMessage (s.moment t) port.val m)
include h

theorem exec_fire : exec (.fire t port m) s = .next (((s.moment t).received port.val m.linkSeq).delivering 3 m
    (fun y => (y.fireDelivered m).retro m (m.flags.getLsbD 0) false none)) := by
  show execFire t port m s = _
  rw [execFire, accept_takes h]
  unfold State.delivering
  dsimp only
  rw [if_neg (by decide)]
  generalize ((s.moment t).received port.val m.linkSeq).forward 3 m = q
  obtain ⟨y, mine⟩ := q
  cases mine
  · rfl
  · exact (apply_ite Host.Outcome.next _ _ _).symm

theorem exec_basteMessage : exec (.basteMessage t port m) s =
    .next ((((s.moment t).received port.val m.linkSeq).track port.val m).delivering 4 m (fun y => y.basteDelivered m)) := by
  show execBasteMessage t port m s = _
  rw [execBasteMessage, accept_takes h]
  exact (apply_ite Host.Outcome.next _ _ _).symm

theorem exec_sewMessage : exec (.sewMessage t port m) s =
    .next ((((s.moment t).received port.val m.linkSeq).untrack m).delivering 5 m (fun y => y.sewDelivered m)) := by
  show execSewMessage t port m s = _
  rw [execSewMessage, accept_takes h]
  exact (apply_ite Host.Outcome.next _ _ _).symm

theorem exec_unpickMessage : exec (.unpickMessage t port m) s =
    .next ((((s.moment t).received port.val m.linkSeq).untrack m).delivering 6 m (fun y => y.unpickDelivered m)) := by
  show execUnpickMessage t port m s = _
  rw [execUnpickMessage, accept_takes h]
  exact (apply_ite Host.Outcome.next _ _ _).symm

end Message

/-- The stored baste that an expiry names. -/
def State.remoteAt (s : State) (o : BitVec 14) (k : BitVec 16) : Option RemoteBaste :=
  s.cas.remote.find? (fun r => decide (r.origin = o.toNat ∧ r.number = k.toNat))

theorem remoteAt_key {s : State} {o : BitVec 14} {k : BitVec 16} {r : RemoteBaste} (h : s.remoteAt o k = some r) :
    r.origin = o.toNat ∧ r.number = k.toNat := by
  unfold State.remoteAt at h
  simpa using List.find?_some h

theorem remoteAt_eq (s : State) (o : BitVec 14) (k : BitVec 16) :
    s.cas.remote.find? (fun r => r.origin = o.toNat && r.number = k.toNat) = s.remoteAt o k := by
  unfold State.remoteAt
  congr 1
  funext r
  rw [Bool.decide_and]

theorem exec_remoteBasteExpiry_none {s : State} {o : BitVec 14} {k : BitVec 16} (h : s.remoteAt o k = none) (t : SI) :
    exec (.remoteBasteExpiry t o k) s = .next (s.moment t) := by
  show execRemoteBasteExpiry t o k s = _
  unfold execRemoteBasteExpiry
  dsimp only [State.moment_cas]
  rw [remoteAt_eq, h]

theorem exec_remoteBasteExpiry_some {s : State} {o : BitVec 14} {k : BitVec 16} {r : RemoteBaste} (h : s.remoteAt o k = some r) (t : SI) :
    exec (.remoteBasteExpiry t o k) s = if (s.moment t).expiry r ≤ (s.moment t).stNow (s.moment t).boundary then
      .next ((s.moment t).unpickRemote r 4 (s.moment t).boundary) else .next (s.moment t) := by
  show execRemoteBasteExpiry t o k s = _
  unfold execRemoteBasteExpiry
  dsimp only [State.moment_cas]
  rw [remoteAt_eq, h]

/-! #### What the statement says -/

/-- What messages that leave and then a delivery do to a state. -/
theorem Relayed.then {x y w : State} (h : Relayed x y) (k : Tacked { y with cas := w.cas } w) : Tacked { x with cas := w.cas } w := by
  have hxy : Placed { x with cas := y.cas } y := h.linked
  exact ((hxy.setCas w.cas).tacked).trans k

/-- The cascade, the live sequencer, pins and windows change, and records are placed. -/
theorem Tacked.only {x w : State} (h : Tacked { x with cas := w.cas } w) :
    onlyPlaces { x with cas := w.cas, seq0 := w.seq0, pins := w.pins, cap := w.cap } w ∧ w.seq0.armed = x.seq0.armed ∧ w.seq0.tackNo = x.seq0.tackNo ∧
      w.cap.runState = x.cap.runState :=
  ⟨h.placed.only, h.armed, h.tackNo, h.runState⟩

end Sys2Proof.Machine

namespace Sys2Proof.Proofs

open Sys2Proof.Machine Sys2Proof.Safety

/-- Settles O42: messages are passed on and delivered (`delivering_cases`); a FIRE or SEW fires (`fired_retro`), a BASTE is stored or finds no room
(`basteDelivered_stored`, `basteDelivered_full`), and unpicks take it out (`unpickRemote_tacked`). -/
theorem firesAndRemoteBastes : Obligations.FiresAndRemoteBastes := by
  unfold Obligations.FiresAndRemoteBastes
  intro s t port m o k x here past key rest old only passedOn counted
  have hreceived := relayed_received x port.val m.linkSeq
  have htracked := hreceived.trans (relayed_track _ port.val m)
  have huntracked := hreceived.trans (relayed_untrack _ m)
  have hpassed : ∀ y, Relayed x y → passedOn y := fun y hy => ⟨Placed.only hy.linked, hy.fireRx, hy.remote⟩
  have hrun : ∀ {y}, Relayed x y → y.cap.runState = s.cap.runState := fun hy => hy.placed.runState
  have hcounted : ∀ {y w : State} {l : List RemoteBaste}, Relayed x y → Fired (y.setRemote l) w → counted w := fun {y w l} hy hf => by
    have hfire : w.cas.fireRx = min (y.cas.fireRx + 1) 65535 := hf.fireRx
    have hnone : y.cap.runState ≠ 1 → w.cas.retroNoRun = min (y.cas.retroNoRun + 1) 65535 ∧ 62 ∈ w.events.raised := hf.noRun
    have htack : y.cap.runState = 1 → w.cas.retroNoRun = y.cas.retroNoRun ∧ 139 ∈ w.events.raised := hf.tack
    rw [hy.fireRx] at hfire
    rw [hrun hy, hy.retroNoRun] at hnone htack
    exact ⟨(hy.then hf.tacked).only, hfire, hf.counted, hnone, htack⟩
  refine ⟨fun ⟨h, hm⟩ => ⟨?firePast, ?bastePast, ?sewPast, ?unpickPast⟩, fun ⟨h, hm⟩ => ?fire, fun ⟨h, hm⟩ hn => ?stored, fun ⟨h, hm⟩ hn => ?full,
    fun ⟨h, hm⟩ => ?sew, fun ⟨h, hm⟩ => ?unpick, fun hf => ?unknown, fun r hf he => ?early, fun r hf he => ?expires⟩
  case firePast =>
    obtain ⟨y, hy, -, hpast⟩ := delivering_cases hreceived 3 m (fun y => (y.fireDelivered m).retro m (m.flags.getLsbD 0) false none)
    exact ⟨y, (exec_fire (s := s) h).trans (congrArg _ (hpast hm)), hpassed y hy⟩
  case bastePast =>
    obtain ⟨y, hy, -, hpast⟩ := delivering_cases htracked 4 m (fun y => y.basteDelivered m)
    exact ⟨y, (exec_basteMessage (s := s) h).trans (congrArg _ (hpast hm)), hpassed y hy⟩
  case sewPast =>
    obtain ⟨y, hy, -, hpast⟩ := delivering_cases huntracked 5 m (fun y => y.sewDelivered m)
    exact ⟨y, (exec_sewMessage (s := s) h).trans (congrArg _ (hpast hm)), hpassed y hy⟩
  case unpickPast =>
    obtain ⟨y, hy, -, hpast⟩ := delivering_cases huntracked 6 m (fun y => y.unpickDelivered m)
    exact ⟨y, (exec_unpickMessage (s := s) h).trans (congrArg _ (hpast hm)), hpassed y hy⟩
  case fire =>
    obtain ⟨y, hy, hhere, -⟩ := delivering_cases hreceived 3 m (fun y => (y.fireDelivered m).retro m (m.flags.getLsbD 0) false none)
    have hf : Fired (y.setRemote y.cas.remote) ((y.fireDelivered m).retro m (m.flags.getLsbD 0) false none) := fired_retro (Placed.refl _).tacked _ _ _
    exact ⟨_, (exec_fire (s := s) h).trans (congrArg _ (hhere hm)), hcounted hy hf, hf.remote.trans hy.remote⟩
  case stored =>
    obtain ⟨y, hy, hhere, -⟩ := delivering_cases htracked 4 m (fun y => y.basteDelivered m)
    have hw := basteDelivered_stored (s := y) (m := m) (by rwa [hy.remote])
    have hcas := hw.cas
    refine ⟨_, (exec_basteMessage (s := s) h).trans (congrArg _ (hhere hm)), (hy.then (Tacked.ownCas (s := y) hw)).only, ?_, y.bastes m, ⟨rfl, rfl⟩, rfl, rfl, ?_⟩
    · exact (congrArg Cascade.storeFull hcas).trans hy.storeFull
    · refine (congrArg Cascade.remote hcas).trans ?_
      show y.otherBastes m.origin.toNat m.d.toNat ++ [y.bastes m] = _
      unfold State.otherBastes
      rw [hy.remote]
      rfl
  case full =>
    obtain ⟨y, hy, hhere, -⟩ := delivering_cases htracked 4 m (fun y => y.basteDelivered m)
    obtain ⟨hw, h142⟩ := basteDelivered_full (s := y) (m := m) (by rwa [hy.remote])
    have hcas := hw.cas
    refine ⟨_, (exec_basteMessage (s := s) h).trans (congrArg _ (hhere hm)), (hy.then (Tacked.ownCas (s := y) hw)).only, ?_, ?_, h142⟩
    · exact (congrArg Cascade.remote hcas).trans hy.remote
    · refine (congrArg Cascade.storeFull hcas).trans ?_
      show satInc 16 y.cas.storeFull = _
      rw [hy.storeFull]
      rfl
  case sew =>
    obtain ⟨y, hy, hhere, -⟩ := delivering_cases huntracked 5 m (fun y => y.sewDelivered m)
    have hf := fired_sewDelivered y m
    refine ⟨_, (exec_sewMessage (s := s) h).trans (congrArg _ (hhere hm)), hcounted hy hf, hf.remote.trans ?_⟩
    show y.otherBastes m.origin.toNat m.d.toNat = _
    unfold State.otherBastes
    rw [hy.remote]
    rfl
  case unpick =>
    obtain ⟨y, hy, hhere, -⟩ := delivering_cases huntracked 6 m (fun y => y.unpickDelivered m)
    obtain ⟨hw, hremote, hfire⟩ := unpickDelivered_tacked y m
    refine ⟨_, (exec_unpickMessage (s := s) h).trans (congrArg _ (hhere hm)), (hy.then hw).only, hremote.trans ?_, hfire.trans hy.fireRx⟩
    unfold State.otherBastes
    rw [hy.remote]
    rfl
  case unknown => exact exec_remoteBasteExpiry_none hf t
  case early => exact (exec_remoteBasteExpiry_some hf t).trans (if_neg (Nat.not_le_of_lt he))
  case expires =>
    obtain ⟨hw, hremote, -, hcount⟩ := unpickRemote_tacked x r 4 x.boundary
    obtain ⟨hexpired, h143⟩ := hcount rfl
    obtain ⟨horigin, hnumber⟩ := remoteAt_key hf
    refine ⟨_, (exec_remoteBasteExpiry_some hf t).trans (if_pos he), hw.only, ?_, hexpired, h143⟩
    rw [hremote, horigin, hnumber]
    exact List.filter_congr fun y _ => decide_not

end Sys2Proof.Proofs

/-! ### Tables of ports out of order (R183, R187, R188, R201) -/

namespace Sys2Proof.Machine

open Sys2Proof.Safety

/-! A table of ports whose entries stand out of order names the port with the higher number first. An entry that is written moves to the front, so that
another port is the upstream port from then on. -/

/-- Two upstream ports out of order, port 5 being the upstream port. -/
def State.crossed : State := { cas.ports := [(5, { role := 1, state := 2 }), (3, { role := 1, state := 2 })] }

/-- Nothing was put on a port's link but IDLEs. -/
def sentNothing (n : Nat) (l : List Posted) : Bool := l.all (fun e => match e with
  | .tiuth k false _ => decide (k ≠ n)
  | _ => true)

theorem sentNothing_not_mem {n : Nat} {l : List Posted} (h : sentNothing n l = true) (ws : List (BitVec 64)) : Posted.tiuth n false ws ∉ l := fun hm => by
  have he := List.all_eq_true.1 h _ hm
  simp at he

/-- A message of unit 9 on its way up. -/
def upMsg : CasMsg := { flags := 0, origin := 9, dir := 0, linkSeq := 0, a := 0, b := 0, c := 0, d := 0 }

/-- The copy of a message whose CRC proved bad on port 3 goes out there, and not on port 5. -/
theorem crossed_spoils : ∃ s', exec (.badCrcMessage 0 3 (some (3, upMsg))) .crossed = .next s' ∧ sentNothing 5 s'.obs.posted = true :=
  ⟨_, rfl, by decide⟩

/-- DISCOVER on port 5 is answered on port 3. -/
theorem crossed_answers : ∃ s', exec (.discover 0 5 upMsg) .crossed = .next s' ∧ sentNothing 5 s'.obs.posted = true :=
  ⟨_, rfl, by decide⟩

/-- A unit that is ready, with a Crypto Officer ring, whose table names two upstream ports out of order that no SET_PORT_ROLE reaches: port 20 is its
upstream port. -/
def State.beyond : State :=
  { startup.ready := true, startup.step := 8, cmd.rings := [(1, { enable := true, role := 2 })]
    cas.ports := [(20, { role := 1 }), (17, { role := 1 })] }

/-- SET_PORT_ROLE with no role for any port. -/
def noRoles : Packet := { ring := 1, tag := 7, flags := 0, atSt := 0, reservedSet := false, params := List.replicate 8 0 }

theorem beyond_accepted : accepted .beyond 0 opSetPortRole noRoles where
  quiet := ⟨rfl, rfl, rfl, rfl, rfl, rfl⟩
  enabled := rfl
  running := rfl
  fence := fun h => absurd h (by decide)
  early := by decide
  now := rfl
  here := rfl
  late := by decide
  atOnce := rfl

/-- The ports as that command leaves them. -/
def State.beyondSet : State := setPortRole noRoles.params (taken .beyond 0 noRoles)

/-- Nothing of that answers, and the core goes on. -/
theorem quiet_beyondSet : quiet .beyondSet := ⟨rfl, rfl, rfl, rfl, rfl, rfl⟩

/-- The IDLEs that the command announces move port 17 to the front, where it is the upstream port, and the depth stays 0. -/
theorem beyond_moves : (State.beyond.packetIn 0 opSetPortRole noRoles).cas.upPort = some 17 ∧
    (State.beyond.packetIn 0 opSetPortRole noRoles).cas.depth = 0 := by
  have heff : opSetPortRole.effect (packetCtx opSetPortRole.opcode noRoles) (taken .beyond 0 noRoles) =
    State.beyondSet.finish (packetCtx opSetPortRole.opcode noRoles) [] := rfl
  obtain ⟨hrow, -⟩ := packetIn_row beyond_accepted heff quiet_beyondSet (answered_finish _ _ _)
  rw [hrow.answered.cas]
  decide

end Sys2Proof.Machine

namespace Sys2Proof.Proofs

open Sys2Proof.Machine Sys2Proof.Safety

/-- Refutes O38: a unit whose upstream port changes is to have the unknown depth 7, but where the table of ports names two upstream ports out of order,
the IDLEs that SET_PORT_ROLE announces change the upstream port after the depth has been set (`State.beyond`). -/
theorem not_unitAndPortRoles : ¬ Obligations.UnitAndPortRoles := by
  unfold Obligations.UnitAndPortRoles
  intro h
  obtain ⟨-, hrole⟩ := h .beyond 0 noRoles
  obtain ⟨s', hs, -, -, -, -, -, -, hdepth⟩ := hrole beyond_accepted
  have he : State.beyond.packetIn 0 opSetPortRole noRoles = s' := Host.Outcome.next.inj hs
  obtain ⟨hup, hzero⟩ := beyond_moves
  rw [he] at hup hzero
  exact absurd ((hdepth 17 hup (by decide)).symm.trans hzero) (by decide)

/-- Refutes O39: the copy that a cut-through has begun on the upstream port is to go on there, but where the table of ports names two upstream ports out of
order, the bad message moves its own port to the front of the table, and the copy goes out there (`State.crossed`). -/
theorem not_cascadeLinks : ¬ Obligations.CascadeLinks := by
  unfold Obligations.CascadeLinks
  intro h
  obtain ⟨-, -, -, -, -, -, -, -, -, -, -, -, -, -, -, -, -, hbad⟩ := h .crossed 0 3
    { ackSeq := 0, ackValid := false, nak := false, role := 0, unitId := 0, depth := 0 } .roleChange (some (3, upMsg))
  obtain ⟨s', hs, -, -, -, hcopy⟩ := hbad (by decide)
  obtain ⟨s'', hs', hnone⟩ := crossed_spoils
  have he : s' = s'' := Host.Outcome.next.inj (hs.symm.trans hs')
  exact sentNothing_not_mem hnone _ (he ▸ hcopy 3 upMsg 5 rfl (by decide) (by decide) (by decide) (by decide))

/-- Refutes O43: a child's REPORT is to leave on its upstream port, but where the table of ports names two upstream ports out of order, the IDLE that
answers DISCOVER's arrival moves the other one to the front, and the REPORT leaves there (`State.crossed`). -/
theorem not_treeMessages : ¬ Obligations.TreeMessages := by
  unfold Obligations.TreeMessages
  intro h
  obtain ⟨hdiscover, -⟩ := h .crossed 0 5 upMsg { id := 0, state := .running, ctx := {} } (by constructor <;> decide)
  obtain ⟨s', hs, -, l, r, hposted, hreport, -⟩ := hdiscover (by decide) (by decide) (by decide) (by decide) (by decide) (by decide)
  obtain ⟨s'', hs', hnone⟩ := crossed_answers
  have he : s' = s'' := Host.Outcome.next.inj (hs.symm.trans hs')
  have hmem : Posted.message 5 8 r ∈ s'.obs.posted := by
    rw [hposted]
    exact List.mem_append_left _ hreport
  exact sentNothing_not_mem hnone _ (he ▸ hmem)

end Sys2Proof.Proofs

/-! ### SET_REDUCTION, SET_LOOKBACK and SET_WINDOW_POLICY (R216, R233 to R235) -/

namespace Sys2Proof.Machine

open Sys2Proof.Safety

/-! #### The settings of one region changed -/

/-- s' comes from s by what the reductions do, the settings of region r becoming what f makes of them; those of every other region stay. -/
structure CfgSet (r : Nat) (f : RegionCfg → RegionCfg) (s s' : State) : Prop where
  rest : Reduced { s with regions := s'.regions } s'
  cfg : ∀ k, (s'.region k).cfg = if k = r then f (s.region k).cfg else (s.region k).cfg

theorem Reduced.setRegions {s s' : State} (h : Reduced s s') (x : Tab Region) : Reduced { s with regions := x } { s' with regions := x } :=
  ⟨h.still, fun _ => rfl, h.raised, h.posted⟩

theorem cfgSet_modRegion (s : State) (r : Nat) {f : RegionCfg → RegionCfg} {g : Region → Region} (hg : (g (s.region r)).cfg = f (s.region r).cfg) :
    CfgSet r f s (s.modRegion r g) := by
  refine ⟨Reduced.refl _, fun k => ?_⟩
  rw [State.modRegion_region]
  split
  next h => rw [hg, h]
  next => rfl

theorem CfgSet.reduced {r : Nat} {f : RegionCfg → RegionCfg} {a b c : State} (h : CfgSet r f a b) (k : Reduced b c) : CfgSet r f a c :=
  ⟨(h.rest.setRegions c.regions).trans (k.setRegions c.regions), fun j => (k.cfg j).trans (h.cfg j)⟩

theorem Reduced.cfgSet {r : Nat} {f : RegionCfg → RegionCfg} {a b c : State} (h : Reduced a b) (k : CfgSet r f b c) : CfgSet r f a c :=
  ⟨(h.setRegions c.regions).trans k.rest, fun j => by rw [k.cfg, h.cfg]⟩

/-- A step for each of several regions changes the settings of these. -/
theorem foldl_cfgSet {f : RegionCfg → RegionCfg} {g : State → Nat → State} (hg : ∀ s r, CfgSet r f s (g s r)) {l : List Nat} (hl : l.Nodup) (s : State) :
    Reduced { s with regions := (l.foldl g s).regions } (l.foldl g s) ∧
      ∀ k, ((l.foldl g s).region k).cfg = if k ∈ l then f (s.region k).cfg else (s.region k).cfg := by
  induction l generalizing s with
  | nil => exact ⟨Reduced.refl s, fun k => (if_neg (List.not_mem_nil)).symm⟩
  | cons r rest ih =>
    obtain ⟨hr, hrest⟩ := List.nodup_cons.1 hl
    obtain ⟨hreduced, hcfg⟩ := ih hrest (g s r)
    refine ⟨((hg s r).rest.setRegions _).trans hreduced, fun k => ?_⟩
    rw [List.foldl_cons, hcfg, (hg s r).cfg]
    by_cases hk : k = r
    · rw [if_neg (hk ▸ hr), if_pos hk, if_pos (List.mem_cons.2 (.inl hk))]
    · simp only [List.mem_cons, hk, false_or, if_false]

/-! #### The four reductions (R233) -/

/-- The state clock that SET_REDUCTION gives. -/
def clockOf (p : List Byte) : StateClock :=
  { clk := pField p 8 1, slope := pField p 9 1, setup := pField p 10 2, hold := pField p 12 2, ofs := pInt p 14 2, mask := pMask p 24 }

/-- The settings of a region whose statistics are set. -/
def RegionCfg.withStats (on : Bool) (log2 : Nat) (mask : BitVec 256) (c : RegionCfg) : RegionCfg :=
  { c with statsOn := on, statLog2 := if on then log2 else c.statLog2, chMask := if on then mask else c.chMask }

/-- The settings of a region that SET_REDUCTION names. -/
def reducedCfg (p : List Byte) (c : RegionCfg) : RegionCfg :=
  let on := bit (pField p 2 1) 0
  match pField p 1 1 with
  | 0 => { c with trnGroupsLog2 := pField p 8 1 }
  | 1 => { c with clocks := if on then tput c.clocks (pField p 3 1) (clockOf p) else tdel c.clocks (pField p 3 1) }
  | 2 => c.withStats on (pField p 8 1) (pMask p 16)
  | _ => { c with engMask := if on then BitVec.ofNat 16 (pField p 8 2) else 0 }

theorem cfgSet_setClock (s : State) (r k : Nat) (c : Option StateClock) (b : SI) :
    CfgSet r (fun g => { g with clocks := match c with
      | some x => tput g.clocks k x
      | none => tdel g.clocks k }) s (s.setClock r k c b) :=
  (reduced_drainClocks s r b).cfgSet (cfgSet_modRegion _ r rfl)

theorem reduced_cutStats (s : State) (r : Nat) (ks : List Nat) (b : SI) (cut again : Bool) : Reduced s (s.cutStats r ks b cut again) :=
  reduced_modRegion s r _ rfl

/-- The settings of the statistics change between what ends and what begins with them (R216). -/
theorem cfgSet_setStats (s : State) (r : Nat) (on : Bool) (log2 : Nat) (mask : BitVec 256) (b : SI) :
    CfgSet r (RegionCfg.withStats on log2 mask) s (s.setStats r on log2 mask b) := by
  unfold State.setStats
  extract_lets s1 g running log2' mask' set resized old full s2 gone s3 s4 s5 added
  have h1 : Reduced s s1 := (reduced_advanceStats _ r _).after (reduced_finishEnded s r _)
  have hset : ∀ x : State, Reduced s1 x → CfgSet r (RegionCfg.withStats on log2 mask) x (set x) := fun x hx => by
    refine cfgSet_modRegion x r (?_ : ({ (x.region r).cfg with statsOn := on, statLog2 := log2', chMask := mask' } : RegionCfg) = _)
    rw [hx.cfg]
    rfl
  split
  · exact h1.cfgSet (hset s1 (Reduced.refl s1))
  · have h2 : Reduced s1 s2 := by
      show Reduced s1 (if _ then _ else _)
      split
      · exact (reduced_modRegion _ r _ rfl).after (reduced_cutStats s1 r _ _ _ _)
      · exact Reduced.refl s1
    have h3 : Reduced s2 s3 := by
      refine (reduced_cutStats _ r _ _ _ _).after ?_
      split
      · exact reduced_cutStats s2 r _ _ _ _
      · exact Reduced.refl s2
    have h4 := (h1.trans (h2.trans h3)).cfgSet (hset s3 (h2.trans h3))
    exact h4.reduced ((reduced_modRegion _ r _ rfl).after (reduced_modRegion _ r _ rfl))

/-- SET_REDUCTION at boundary b in one region. -/
def State.setsReduction (p : List Byte) (b : SI) (s : State) (r : Nat) : State :=
  let on := bit (pField p 2 1) 0
  match pField p 1 1 with
  | 0 => s.modRegion r (fun g => { g with cfg := { g.cfg with trnGroupsLog2 := pField p 8 1 } })
  | 1 => s.setClock r (pField p 3 1) (if on then some (clockOf p) else none) b
  | 2 => s.setStats r on (pField p 8 1) (pMask p 16) b
  | _ => s.modRegion r (fun g => { g with
      oldEng := if g.engAt = b then g.oldEng else g.cfg.engMask
      engAt := b
      cfg := { g.cfg with engMask := if on then BitVec.ofNat 16 (pField p 8 2) else 0 } })

theorem setReduction_eq (p : List Byte) (s : State) : setReduction p s = (redRegions p).foldl (State.setsReduction p s.boundary) s := rfl

theorem cfgSet_setsReduction (p : List Byte) (b : SI) (s : State) (r : Nat) : CfgSet r (reducedCfg p) s (s.setsReduction p b r) := by
  unfold State.setsReduction reducedCfg
  dsimp only
  split
  · exact cfgSet_modRegion s r rfl
  · cases bit (pField p 2 1) 0 with
    | false => exact cfgSet_setClock s r _ none b
    | true => exact cfgSet_setClock s r _ (some (clockOf p)) b
  · exact cfgSet_setStats s r _ _ _ b
  · exact cfgSet_modRegion s r rfl

theorem redRegions_nodup (p : List Byte) : (redRegions p).Nodup := by
  unfold redRegions
  split
  · exact List.nodup_range
  · exact List.nodup_singleton _

theorem mem_redRegions {p : List Byte} {r : Nat} : r ∈ redRegions p ↔ if pField p 0 1 = 255 then r < 4 else r = pField p 0 1 := by
  unfold redRegions
  split
  · exact List.mem_range
  · exact List.mem_singleton

/-- An accepted SET_REDUCTION changes the regions that it names. -/
theorem packetIn_setReduction {s : State} {t : SI} {p : Packet} (h : accepted s t opSetReduction p) :
    (∃ rs, onlyAnswers { s.moment t with regions := rs } (s.packetIn t opSetReduction p)) ∧
      ∀ r, ((s.packetIn t opSetReduction p).region r).cfg =
        if r ∈ redRegions p.params then reducedCfg p.params (s.region r).cfg else (s.region r).cfg := by
  obtain ⟨hreduced, hcfg⟩ := foldl_cfgSet (cfgSet_setsReduction p.params (taken s t p).boundary) (redRegions_nodup p.params) (taken s t p)
  rw [← setReduction_eq] at hreduced hcfg
  have hserved := packetIn_simply (m := { s.moment t with regions := (setReduction p.params (taken s t p)).regions }) h rfl
    (quiet_of_fields h.quiet rfl rfl rfl) hreduced
  exact ⟨⟨_, hserved.only⟩, fun r => (hserved.cfg r).trans (hcfg r)⟩

/-! #### The rings of history and the window policies (R234, R235) -/

/-- An accepted packet of a command that sets something at once, m being the state in which it stands. -/
theorem packetIn_sets {s m : State} {t : SI} {o : OpSpec} {p : Packet} {f : List Byte → State → State} (h : accepted s t o p)
    (ho : o.effect = simply f) (hm : quiet m) (hf : f p.params (taken s t p) = m.counted p.ring.val) : onlyAnswers m (s.packetIn t o p) :=
  (packetIn_simply h ho hm (hf ▸ Reduced.refl _)).only

/-- The rings of history without their content, which is gone up to slot b. -/
def Data.discarded (d : Data) (b : SI) : Data :=
  let gone := (List.range 4).map (fun r => (r, b))
  { d with
    lookback := (List.range 4).map (fun r => (r, { (tfind d.lookback r).getD {} with segs := [], gone := gone }))
    reduction := { d.reduction with segs := [], gone := gone } }

/-- The sizes and shares that SET_LOOKBACK gives. -/
def Capture.resized (c : Capture) (p : List Byte) : Capture :=
  { c with lbGib := pField p 0 4, redGib := pField p 4 4, share := (List.range 4).map (fun r => pField p (8 + r) 1), pinLimit := pField p 12 1 }

theorem setLookback_eq (p : List Byte) (s : State) : setLookback p s = { s with
    cap := s.cap.resized p, data := if s.cap.resized p = s.cap then s.data else s.data.discarded s.boundary } := by
  by_cases h : s.cap.resized p = s.cap
  · rw [if_pos h]
    exact if_neg (not_not.2 h)
  · rw [if_neg h]
    exact if_pos h

end Sys2Proof.Machine

namespace Sys2Proof.Proofs

open Sys2Proof.Machine Sys2Proof.Safety

/-- Settles O44: SET_REDUCTION goes through the regions that it names (`packetIn_setReduction`); the two other commands set fields at once
(`packetIn_sets`). -/
theorem reductionSettings : Obligations.ReductionSettings := by
  unfold Obligations.ReductionSettings
  intro s t p f x named on clock new cap gone
  refine ⟨fun h => ?reduction, fun h => ?lookback, fun h => ?policy⟩
  case reduction =>
    obtain ⟨hanswers, hcfg⟩ := packetIn_setReduction h
    refine ⟨_, rfl, hanswers, fun r => (hcfg r).trans ?_⟩
    simp only [mem_redRegions]
    rfl
  case lookback =>
    exact ⟨_, rfl, packetIn_sets h rfl (quiet_of_fields h.quiet rfl rfl rfl) (setLookback_eq p.params (taken s t p))⟩
  case policy =>
    exact ⟨_, rfl, packetIn_sets h rfl (quiet_of_fields h.quiet rfl rfl rfl) rfl⟩

end Sys2Proof.Proofs

/-! ### EXPORT_WINDOW (R222, R236) -/

namespace Sys2Proof.Machine

open Sys2Proof.Safety

theorem Answered.setCap {s s' : State} (h : Answered s s') (x : Capture) : Answered { s with cap := x } { s' with cap := x } :=
  ⟨congrArg (fun z : State => { z with cap := x }) h.settled, h.region, h.raised, h.posted, h.fetched⟩

theorem Windowed.setCap_answered {a b c : State} (h : Answered a b) (k : Windowed b c) : Answered { a with cap := c.cap } c :=
  (h.setCap c.cap).trans (Placed.answered k)

/-- The slot that opens takes the next window ID; its parts, the end of its span and STOPPED follow from the state. -/
theorem openSlot_slot (s : State) (k : Nat) (w : WSlot) (runB : SI) : (s.openSlot k w runB).cap.lastId = nextWindowId s.cap.lastId ∧
    ∃ parts e st, (s.openSlot k w runB).cap.slot k = some { w with
      state := 2, id := nextWindowId s.cap.lastId, runB := runB, parts := parts, pos := 0, openOrder := s.cap.winSeq, stopped := st, reqEnd := e } := by
  unfold State.openSlot
  dsimp only
  rw [(placed_raiseIf _ _ 15).cap]
  exact ⟨rfl, _, _, _, tfind_tput_self _ _ _⟩

theorem windowed_openExport (s : State) (k j : Nat) (p : List Byte) : Windowed s (s.openExport k j p) := windowed_openSlot s k _ _

/-- What a slot in which job j has opened its window shows of the job's parameters (R236). -/
structure Exports (j : Nat) (p : List Byte) (id : Nat) (v : WSlot) : Prop where
  state : v.state = 2
  job : v.exportJob = some j
  id : v.id = id
  policy : v.policy = pField p 16 1
  regions : v.regions = pField p 17 1
  red : v.red = pField p 18 1
  reqStart : v.reqStart = pField p 0 8 / 16 * 16
  start : v.t = pField p 0 8
  post : v.post = pField p 8 8 - pField p 0 8

theorem openExport_slot (s : State) (k j : Nat) (p : List Byte) : (s.openExport k j p).cap.lastId = nextWindowId s.cap.lastId ∧
    ∃ v, (s.openExport k j p).cap.slot k = some v ∧ Exports j p (nextWindowId s.cap.lastId) v := by
  unfold State.openExport
  dsimp only
  obtain ⟨hid, parts, e, st, hv⟩ := openSlot_slot s k _ _
  exact ⟨hid, _, hv, ⟨rfl, rfl, rfl, rfl, rfl, rfl, rfl, rfl, rfl⟩⟩

/-- A job of EXPORT_WINDOW waits for a slot (R236). -/
def State.exportWaits (s : State) : Bool := s.cmd.jobs.any (fun j => j.ctx.opcode = 0x0510 && j.state = .queued)

theorem exportWindowEffect_opens {s : State} {k : Nat} (c : Ctx) (hw : s.exportWaits = false) (hk : s.cap.freeSlot = some k) :
    exportWindowEffect c s = (s.startJob c .running 0).openExport k s.cmd.nextJob c.params := by
  unfold State.exportWaits at hw
  unfold exportWindowEffect
  simp only [hw, hk, Bool.false_eq_true, if_false]

theorem exportWindowEffect_waits {s : State} (c : Ctx) (h : s.exportWaits = true ∨ s.cap.freeSlot = none) :
    exportWindowEffect c s = s.startJob c .queued 0 := by
  have hn : (if s.exportWaits then none else s.cap.freeSlot) = none := by
    rcases h with h | h
    · exact if_pos h
    · rw [h, ite_self]
  unfold State.exportWaits at hn
  unfold exportWindowEffect
  dsimp only
  rw [hn]

theorem jobTable_of_desk {a b : State} (h : a.desk = b.desk) : a.jobTable = b.jobTable := (congrArg (fun c : Cmd => (c.jobs, c.nextJob)) h :)

theorem Windowed.jobTable {s s' : State} (h : Windowed s s') : s'.jobTable = s.jobTable := by
  have hplaced : Placed { s with cap := s'.cap } s' := h
  exact hplaced.jobTable

section ExportWindow
variable {s : State} {t : SI} {p : Packet} (h : accepted s t opExportWindow p)
include h

/-- An accepted EXPORT_WINDOW that finds slot k free opens its window there. -/
theorem packetIn_exportWindow_opens {k : Nat} (hw : s.exportWaits = false) (hk : s.cap.freeSlot = some k) :
    jobStarted s (s.packetIn t opExportWindow p) 0x0510 p.params .running ∧
      onlyAnswers { s.moment t with cap := (s.packetIn t opExportWindow p).cap } (s.packetIn t opExportWindow p) ∧
      (s.packetIn t opExportWindow p).cap.lastId = nextWindowId s.cap.lastId ∧
      ∃ v, (s.packetIn t opExportWindow p).cap.slot k = some v ∧ Exports s.cmd.nextJob p.params (nextWindowId s.cap.lastId) v := by
  have heff := exportWindowEffect_opens (s := taken s t p) (packetCtx 0x0510 p) hw hk
  have hstart : Answered (s.moment t) ((taken s t p).startJob (packetCtx 0x0510 p) .running 0) := (taken_answered s t p).trans (answered_startJob _ _ _ _)
  have hopen := windowed_openExport ((taken s t p).startJob (packetCtx 0x0510 p) .running 0) k s.cmd.nextJob p.params
  have hq : quiet { s.moment t with cap := (((taken s t p).startJob (packetCtx 0x0510 p) .running 0).openExport k s.cmd.nextJob p.params).cap } :=
    quiet_of_fields h.quiet rfl rfl rfl
  obtain ⟨hrow, -, -⟩ := packetIn_row h heff hq (Windowed.setCap_answered hstart hopen)
  have htable := (jobTable_of_desk hrow.desk).trans (hopen.jobTable.trans (startJob_jobTable (taken s t p) (packetCtx 0x0510 p) .running 0))
  have hslot := openExport_slot ((taken s t p).startJob (packetCtx 0x0510 p) .running 0) k s.cmd.nextJob p.params
  have hcap := hrow.answered.cap
  rw [hstart.cap] at hslot
  have hjob := jobStarted_of_table (s := s) htable
  refine ⟨hjob, ?_, ?_⟩
  · rw [hcap]
    exact hrow.answered.only
  · rw [hcap]
    exact hslot

/-- One that finds none, or that another job of its kind goes before, waits. -/
theorem packetIn_exportWindow_waits (hw : s.exportWaits = true ∨ s.cap.freeSlot = none) :
    jobStarted s (s.packetIn t opExportWindow p) 0x0510 p.params .queued ∧ onlyAnswers (s.moment t) (s.packetIn t opExportWindow p) := by
  have heff := exportWindowEffect_waits (s := taken s t p) (packetCtx 0x0510 p) hw
  obtain ⟨hrow, -, -⟩ := packetIn_row h heff (quiet_moment h.quiet t) ((taken_answered s t p).trans (answered_startJob _ _ _ _))
  have htable := (jobTable_of_desk hrow.desk).trans (startJob_jobTable (taken s t p) (packetCtx 0x0510 p) .queued 0)
  exact ⟨jobStarted_of_table (s := s) htable, hrow.answered.only⟩

end ExportWindow

end Sys2Proof.Machine

/-! ### Window segments and their reads from DRAM (R223, R224, R275, R370, R377) -/

namespace Sys2Proof.Machine

open Sys2Proof.Safety

/-! #### What raising events and going on leave of the data -/

@[simp] theorem State.raise_data (s : State) (n : Nat) : (s.raise n).data = s.data := by
  unfold State.raise
  dsimp only
  split <;> rfl

@[simp] theorem State.raiseIf_data (s : State) (c : Bool) (n : Nat) : (s.raiseIf c n).data = s.data := by
  unfold State.raiseIf
  split
  · exact State.raise_data s n
  · rfl

@[simp] theorem State.modBob_data (s : State) (i : Nat) (f : Bobbin → Bobbin) : (s.modBob i f).data = s.data := by
  unfold State.modBob
  split
  · rfl
  · unfold State.bobOut
    dsimp only
    rw [State.raiseIf_data]
    split <;> rfl

@[simp] theorem State.fetchRing_data (s : State) (n : Nat) : (s.fetchRing n).data = s.data := by
  have hi : ∀ (x : State) (q : Request), (x.issue q).data = x.data := fun x q => by
    unfold State.issue
    dsimp only
    split
    · rfl
    · split <;> rfl
  unfold State.fetchRing
  split
  · exact hi _ _
  · rfl

theorem data_foldl {β : Type} (f : State → β → State) (hf : ∀ s x, (f s x).data = s.data) (l : List β) (s : State) : (l.foldl f s).data = s.data := by
  induction l generalizing s with
  | nil => rfl
  | cons x rest ih => exact (ih _).trans (hf s x)

/-- In a quiet state, the rings that go on after a row leave the data. -/
theorem Answered.goOn_data {x e : State} (h : Answered x e) (hq : quiet x) : e.goOn.data = e.data := by
  have hs : e.startup.step ≠ 6 := by
    rw [h.startup, hq.step]
    decide
  have hr : e.safe.softReset = none := by rw [h.safe, hq.soft]
  rw [goOn_eq_pump hs hr]
  unfold State.pump
  dsimp only
  rw [examine_none e fun n => (h.fetched n).trans (quiet_fetched x hq n)]
  exact data_foldl _ State.fetchRing_data _ e

/-! #### Segments that enter the router (R275) -/

/-- The indices of the windows' segments set by hand. -/
def State.setIdx (s : State) (x : Tab Nat) : State := { s with data := { s.data with windowIdx := x } }

theorem Placed.setIdx {s s' : State} (h : Placed s s') (x : Tab Nat) : Placed (s.setIdx x) (s'.setIdx x) :=
  ⟨congrArg (fun z : State => z.setIdx x) h.still, h.region, h.raised, h.posted⟩

/-- The index of the next segment of window id (R275). -/
def State.nextIdx (s : State) (id : Nat) : Tab Nat := tput s.data.windowIdx id ((tfind s.data.windowIdx id).getD 0 + 1)

/-- A window segment that enters the router takes the next segment number and the next index of its window. -/
theorem emitPiece_data (s : State) (g : Seg) :
    (s.emitPiece g).data = { s.data with nextSeg := s.data.nextSeg + 1, windowIdx := s.nextIdx g.windowId } :=
  data_foldl _ (fun _ _ => State.modBob_data _ _ _) _ _

theorem placed_emitPiece (s : State) (g : Seg) : Placed (s.setIdx (s.nextIdx g.windowId)) (s.emitPiece g) :=
  (Placed.foldl _ (fun _ _ => placed_modBob _ _ _) _ _).after (Placed.of_fields rfl rfl rfl rfl)

/-- What fits a segment enters the router as one. -/
theorem Seg.pieces_of_le {g : Seg} (h : g.uncompLen ≤ payloadMax) : g.pieces = [g] := by
  unfold Seg.pieces
  rw [decide_eq_false (Nat.not_lt.2 h), Bool.and_false]
  rfl

theorem emitWindow_of_le {g : Seg} (h : g.uncompLen ≤ payloadMax) (s : State) : s.emitWindow g = s.emitPiece g := by
  unfold State.emitWindow
  rw [Seg.pieces_of_le h]
  rfl

theorem Seg.pieceWords_of_le {g : Seg} (h : g.uncompLen ≤ payloadMax) : g.pieceWords = g.len := by
  unfold Seg.pieceWords
  rw [Seg.pieces_of_le h]
  rfl

theorem Seg.len_pos (g : Seg) : g.len ≠ 0 := by
  unfold Seg.len
  omega

theorem Seg.pieces_windowId {g y : Seg} (h : y ∈ g.pieces) : y.windowId = g.windowId := by
  unfold Seg.pieces at h
  split at h
  · obtain ⟨is, -, rfl⟩ := List.mem_map.1 h
    rfl
  · rw [List.mem_singleton.1 h]

theorem tdel_tput {α : Type} (t : Tab α) (k : Nat) (v : α) : tdel (tput t k v) k = tdel t k := by
  induction t with
  | nil => simp [tput, tdel]
  | cons e rest ih =>
    obtain ⟨j, w⟩ := e
    by_cases hk : k < j
    · simp [tput, tdel, hk]
    · by_cases hj : j = k
      · simp [tput, tdel, hj]
      · simpa [tput, tdel, hk, hj] using ih

/-- Whatever segments carry a window's records, only the window's own index goes on. -/
theorem emitWindow_placed (s : State) (g : Seg) :
    Placed (s.setIdx (tdel s.data.windowIdx g.windowId)) ((s.emitWindow g).setIdx (tdel (s.emitWindow g).data.windowIdx g.windowId)) := by
  have hl : ∀ (l : List Seg) (s : State), (∀ y ∈ l, y.windowId = g.windowId) → Placed (s.setIdx (tdel s.data.windowIdx g.windowId))
      ((l.foldl State.emitPiece s).setIdx (tdel (l.foldl State.emitPiece s).data.windowIdx g.windowId)) := by
    intro l
    induction l with
    | nil => exact fun s _ => Placed.refl _
    | cons y rest ih =>
      intro s hy
      have hid := hy y (.head _)
      have hstep := (placed_emitPiece s y).setIdx (tdel s.data.windowIdx g.windowId)
      have hrest := ih (s.emitPiece y) fun z hz => hy z (.tail _ hz)
      rw [emitPiece_data, hid] at hrest
      rw [State.nextIdx, tdel_tput] at hrest
      exact hstep.trans hrest
  exact hl g.pieces s fun y hy => Seg.pieces_windowId hy

/-! #### A segment read from DRAM (R370, R377) -/

theorem Placed.setDram {s s' : State} (h : Placed s s') (x : Dram) : Placed { s with dram := x } { s' with dram := x } :=
  ⟨congrArg (fun z : State => { z with dram := x }) h.still, h.region, h.raised, h.posted⟩

/-- Reads access banks alone: no byte and no marker changes. -/
theorem Dram.touchAll_read (as : List Nat) (d : Dram) (now : SI) : (d.touchAll as now false).mem = d.mem ∧ (d.touchAll as now false).markers = d.markers := by
  induction as generalizing d with
  | nil => exact ⟨rfl, rfl⟩
  | cons a rest ih => exact ih _

theorem placed_dramWake (s : State) : Placed { s with dram := s.dramWake.dram } s.dramWake := by
  unfold State.dramWake
  split
  · rw [(placed_raise _ 170).dram]
    exact placed_raise _ 170
  · exact Placed.refl s

/-- What the end of self-refresh leaves of the DRAM part. -/
theorem dramWake_kept (s : State) : s.dramWake.dram.mem = s.dram.mem ∧ s.dramWake.dram.markers = s.dram.markers ∧
    s.dramWake.dram.rdBytes = s.dram.rdBytes ∧ s.dramWake.time = s.time ∧ s.dramWake.data = s.data := by
  unfold State.dramWake
  split
  · rw [(placed_raise _ 170).dram, (placed_raise _ 170).time, State.raise_data]
    exact ⟨rfl, rfl, rfl, rfl, rfl⟩
  · exact ⟨rfl, rfl, rfl, rfl, rfl⟩

/-- The DRAM part in which segment g has been read. -/
def State.readDram (s : State) (g : Seg) : Dram :=
  { (s.dramWake.dram.touchAll (s.segAccesses g) s.time.si false) with rdBytes := s.dramWake.dram.rdBytes + g.size, idleSince := s.time.si }

/-- A read of which the ECC finds nothing changes the DRAM part alone, whatever markers it meets. -/
theorem readSegment_plain (s : State) (g : Seg) : (s.readSegment g {}).1 = { s.dramWake with dram := s.readDram g } := by
  have hfound : ∀ (x : State) (kind : ReadKind) (c k a : Nat), (if kind = ({} : SegRead).kind then x.readFound kind c k a else x) = x := by
    intro x kind c k a
    split
    next h => rw [h]; rfl
    next => rfl
  obtain ⟨-, -, -, htime, -⟩ := dramWake_kept s
  unfold State.readSegment State.readDram
  simp only [hfound, htime]
  split <;> rfl

theorem placed_readSegment (s : State) (g : Seg) : Placed { s with dram := s.readDram g } (s.readSegment g {}).1 := by
  rw [readSegment_plain]
  exact (placed_dramWake s).setDram (s.readDram g)

theorem readSegment_data (s : State) (g : Seg) : (s.readSegment g {}).1.data = s.data := by
  obtain ⟨-, -, -, -, hdata⟩ := dramWake_kept s
  rw [readSegment_plain]
  exact hdata

/-- A read changes no byte and no marker, and counts its bytes. -/
theorem readDram_kept (s : State) (g : Seg) : (s.readDram g).mem = s.dram.mem ∧ (s.readDram g).markers = s.dram.markers ∧
    (s.readDram g).rdBytes = s.dram.rdBytes + g.size ∧ (s.readDram g).idleSince = s.time.si := by
  obtain ⟨hmem, hmarkers, hbytes, -, -⟩ := dramWake_kept s
  obtain ⟨hm, hk⟩ := Dram.touchAll_read (s.segAccesses g) s.dramWake.dram s.time.si
  exact ⟨hm.trans hmem, hk.trans hmarkers, congrArg (· + g.size) hbytes, rfl⟩

end Sys2Proof.Machine

/-! ### WINDOW_SEGMENT_READ and WINDOW_CLOSE (R223, R224) -/

namespace Sys2Proof.Machine

open Sys2Proof.Safety

theorem modSlot_eq {s : State} {k : Nat} {w : WSlot} (h : s.cap.slot k = some w) (f : WSlot → WSlot) :
    s.modSlot k f = { s with cap := { s.cap with slots := tput s.cap.slots k (f w) } } := by
  unfold Capture.slot at h
  unfold State.modSlot
  rw [h]

theorem exportRuns_window {w : WSlot} (h : w.exportJob = none) (s : State) : s.exportRuns w = true := by
  unfold State.exportRuns
  rw [h]

/-- Window slot x, of window w, after part n has taken segment g, of whose records `sel` are selvedges. -/
def WSlot.hasRead (x w : WSlot) (n : Nat) (g : Seg) (sel : Nat) : WSlot :=
  let at_ := max w.pos (floor16 (min g.lastSi w.reqEnd))
  ({ x with state := 2, opened := true, pos := at_, selvedges := x.selvedges + sel, frames := max x.frames (w.framesTo (at_ + 15)) } : WSlot).modPart n
    (fun q => { q with lost := [], told := q.told ++ q.lost, pos := g.lastSi + 1, read := tput q.read g.source (g.seg + 1) })

/-- The part goes on past the segment. -/
theorem hasRead_part {w : WSlot} {n : Nat} {q : WPart} (h : w.parts[n]? = some q) (hl : q.lost = []) (g : Seg) (sel : Nat) :
    (w.hasRead w n g sel).parts[n]? = some { q with lost := [], pos := g.lastSi + 1, read := tput q.read g.source (g.seg + 1) } := by
  simp [WSlot.hasRead, WSlot.modPart, h, hl]

theorem exec_windowSegmentRead (s : State) (t : SI) (k : Fin 64) (n : Fin 16) (r : SegRead) :
    exec (.windowSegmentRead t k n r) s = .next (rowWindowSegmentRead t k n r s).goOn := rfl

theorem exec_windowClose (s : State) (t : SI) (k : Fin 64) : exec (.windowClose t k) s = .next (rowWindowClose t k s).goOn := rfl

section Rows
variable {s : State} {t : SI} {k : Fin 64} {n : Fin 16} {w : WSlot} {q : WPart} {g : Seg}

/-- A window of a request in slot k, open, from whose part n nothing has been lost: its first records have been delivered. -/
structure State.Reads (s : State) (k : Nat) (w : WSlot) (n : Nat) (q : WPart) : Prop where
  slot : s.cap.slot k = some w
  state : 2 ≤ w.state
  job : w.exportJob = none
  opened : w.opened = true
  part : w.parts[n]? = some q
  lost : q.lost = []

theorem rowWindowSegmentRead_closed (h : ∀ v, s.cap.slot k.val = some v → v.state < 2) (read : SegRead) : rowWindowSegmentRead t k n read s = s.moment t := by
  unfold rowWindowSegmentRead
  dsimp only
  split
  · rfl
  next v hv => exact if_pos (by rw [decide_eq_true (h v hv), Bool.true_or])

theorem rowWindowSegmentRead_none (h : s.Reads k.val w n.val q) (hn : s.nextHistory w q = none) (read : SegRead) :
    rowWindowSegmentRead t k n read s = s.moment t := by
  have hn' : (s.moment t).nextHistory w q = none := hn
  unfold rowWindowSegmentRead
  simp [h.slot, Nat.not_lt.2 h.state, exportRuns_window h.job, h.part, h.opened, hn', WPart.lostRecs, h.lost]

/-- What the part takes of segment g (R330). -/
def State.cutFor (s : State) (g : Seg) (w : WSlot) (q : WPart) : Seg := g.windowCut w q (Config.lz4Block s.freeCtr)

/-- Segment g comes next: a part of it that one segment carries lies in the span, and its read finds nothing. -/
structure State.ReadsNext (s : State) (k : Nat) (w : WSlot) (n : Nat) (q : WPart) (g : Seg) : Prop extends s.Reads k w n q where
  next : s.nextHistory w q = some g
  items : (s.cutFor g w q).items ≠ []
  fits : (s.cutFor g w q).uncompLen ≤ payloadMax
  clean : s.dram.foundIn (s.segAccesses g) {} = .clean

theorem rowWindowSegmentRead_room (h : s.ReadsNext k.val w n.val q g) (hr : (s.moment t).windowRoom w.policy (s.cutFor g w q).len = true) :
    rowWindowSegmentRead t k n {} s = (((((s.moment t).readSegment g {}).1).emitPiece (s.cutFor g w q)).tick).modSlot k.val
      (fun x => x.hasRead w n.val g (selvedgeCount (s.cutFor g w q).recs)) := by
  have hn : (s.moment t).nextHistory w q = some g := h.next
  have hacc : (s.moment t).segAccesses g = s.segAccesses g := rfl
  have hwords := Seg.pieceWords_of_le h.fits
  have hpos := Seg.len_pos (s.cutFor g w q)
  have hemit := emitWindow_of_le h.fits
  have hi := h.items
  have hsel : selvedgeCount [] = 0 := rfl
  unfold State.cutFor at hi hwords hpos hemit hr ⊢
  unfold rowWindowSegmentRead
  simp [h.slot, Nat.not_lt.2 h.state, exportRuns_window h.job, h.part, h.opened, hn, hacc, h.clean, WPart.lostRecs, h.lost, hi, hwords, hpos, hemit,
    hr, poisonedKind, WSlot.hasRead, hsel]

theorem rowWindowSegmentRead_full (h : s.ReadsNext k.val w n.val q g) (hr : (s.moment t).windowRoom w.policy (s.cutFor g w q).len = false) :
    rowWindowSegmentRead t k n {} s = (s.moment t).modSlot k.val (fun x => { x with state := 3 }) := by
  have hn : (s.moment t).nextHistory w q = some g := h.next
  have hacc : (s.moment t).segAccesses g = s.segAccesses g := rfl
  have hwords := Seg.pieceWords_of_le h.fits
  have hpos := Seg.len_pos (s.cutFor g w q)
  have hi := h.items
  unfold State.cutFor at hi hwords hpos hr
  unfold rowWindowSegmentRead
  simp [h.slot, Nat.not_lt.2 h.state, exportRuns_window h.job, h.part, h.opened, hn, hacc, h.clean, WPart.lostRecs, h.lost, hi, hwords, hpos, hr]

/-! #### What the state shows after the row -/

theorem modSlot_cap {x : State} (h : x.cap.slot k.val = some w) (f : WSlot → WSlot) : (x.modSlot k.val f).cap.slot k.val = some (f w) ∧
    ∀ j, j ≠ k.val → (x.modSlot k.val f).cap.slot j = x.cap.slot j := by
  rw [modSlot_eq h]
  exact ⟨tfind_tput_self _ _ _, fun j hj => tfind_tput_ne _ _ j _ hj⟩

theorem answers_goOn {c : Instr} {x : State} (h : exec c s = .next x.goOn) (hq : quiet s) (hx : x = s.moment t) : answers c s (s.moment t) :=
  ⟨_, h, hx ▸ ((Answered.refl (s.moment t)).row (quiet_moment hq t)).answered.only⟩

/-- The state in which segment g has been read for window w, whose slot then shows v. -/
def State.pieceRead (s : State) (k : Nat) (w v : WSlot) (g : Seg) : State :=
  { s with cap := { s.cap with slots := tput s.cap.slots k v }, dram := s.readDram g, data := { s.data with windowIdx := s.nextIdx w.id } }

/-- A segment read and sent on changes no part that a window's slot is in. -/
theorem placed_pieceSent (x : State) {c : Seg} (hid : c.windowId = w.id) :
    Placed { x with dram := x.readDram g, data := { x.data with windowIdx := x.nextIdx w.id } } ((x.readSegment g {}).1.emitPiece c).tick := by
  have hidx : (x.readSegment g {}).1.nextIdx c.windowId = x.nextIdx w.id := by
    unfold State.nextIdx
    rw [readSegment_data, hid]
  have hpiece := placed_emitPiece (x.readSegment g {}).1 c
  rw [hidx] at hpiece
  exact (((placed_readSegment x g).setIdx (x.nextIdx w.id)).trans hpiece).trans (placed_tick _)

theorem pieceSent_slot {x : State} {c : Seg} (hs : x.cap.slot k.val = some w) (hid : c.windowId = w.id) :
    (((x.readSegment g {}).1.emitPiece c).tick).cap.slot k.val = some w := by
  rw [(placed_pieceSent x hid).cap]
  exact hs

theorem placed_pieceRead {x : State} {c : Seg} (hs : x.cap.slot k.val = some w) (hid : c.windowId = w.id) (f : WSlot → WSlot) :
    Placed (x.pieceRead k.val w (f w) g) ((((x.readSegment g {}).1.emitPiece c).tick).modSlot k.val f) := by
  have hsent := placed_pieceSent (g := g) x hid
  rw [modSlot_eq (pieceSent_slot hs hid), hsent.cap]
  exact hsent.setCap { x.cap with slots := tput x.cap.slots k.val (f w) }

theorem pieceRead_nextSeg {x : State} {c : Seg} (hs : x.cap.slot k.val = some w) (hid : c.windowId = w.id) (f : WSlot → WSlot) :
    ((((x.readSegment g {}).1.emitPiece c).tick).modSlot k.val f).data.nextSeg = x.data.nextSeg + 1 := by
  rw [modSlot_eq (pieceSent_slot hs hid), State.tick_data, emitPiece_data, readSegment_data]

/-! #### WINDOW_CLOSE -/

/-- The segment with which window w closes. -/
def State.closeSeg (s : State) (w : WSlot) : Seg :=
  { source := winSource w.policy, windowId := w.id, items := ((if w.opened then [] else s.windowHead w) ++ [recWindowClose w false w.reqEnd]).map Item.plain
    home := ((w.parts.head?).map (fun p => p.region)).getD 0 }

/-- The slot and the index of window w free. -/
def State.freed (s : State) (k : Nat) (w : WSlot) : State :=
  { s with cap := { s.cap with slots := tdel s.cap.slots k }, data := { s.data with windowIdx := tdel s.data.windowIdx w.id } }

theorem closeWindow_eq (s : State) (k : Nat) (w : WSlot) : s.closeWindow k w false = (s.emitWindow (s.closeSeg w)).freed k w := by
  unfold State.closeWindow State.closeSeg State.freed
  rfl

theorem placed_closeWindow (s : State) (k : Nat) (w : WSlot) : Placed (s.freed k w) (s.closeWindow k w false) := by
  have hplaced := emitWindow_placed s (s.closeSeg w)
  rw [closeWindow_eq]
  generalize s.emitWindow (s.closeSeg w) = y at hplaced ⊢
  have hcap : y.cap = s.cap := hplaced.cap
  unfold State.freed
  rw [hcap]
  exact hplaced.setCap { s.cap with slots := tdel s.cap.slots k }

theorem recWindowClose_size (w : WSlot) (cancelled : Bool) (e : SI) : (recWindowClose w cancelled e).words.length ≤ 131 := by
  have htacks : (if w.exportJob.isSome then [] else w.tacks.take 64).length ≤ 64 := by
    split
    · exact Nat.zero_le _
    · exact List.length_take_le _ _
  unfold recWindowClose mkRec
  simp only [List.length_cons, List.length_map, List.length_flatMap, List.length_nil, List.map_const', List.sum_replicate, smul_eq_mul]
  omega

/-- What closes an open window is one segment. -/
theorem closeWindow_nextSeg (s : State) (k : Nat) (ho : w.opened = true) : (s.closeWindow k w false).data.nextSeg = s.data.nextSeg + 1 := by
  have hfits : (s.closeSeg w).uncompLen ≤ payloadMax := by
    have hsize := recWindowClose_size w false w.reqEnd
    unfold State.closeSeg Seg.uncompLen payloadMax
    simp [ho, Item.size, Item.record]
    omega
  rw [closeWindow_eq, emitWindow_of_le hfits, State.freed, emitPiece_data]

theorem rowWindowClose_closed (h : ∀ v, s.cap.slot k.val = some v → v.state < 2) : rowWindowClose t k s = s.moment t := by
  unfold rowWindowClose
  dsimp only
  split
  · rfl
  next v hv => exact if_pos (by simp [h v hv])

theorem rowWindowClose_open (hs : s.cap.slot k.val = some w) (hd : ¬w.parts.all ((s.moment t).partDone w) = true) :
    rowWindowClose t k s = s.moment t := by
  unfold rowWindowClose
  simp [hs, hd]

theorem rowWindowClose_done (hs : s.cap.slot k.val = some w) (h2 : 2 ≤ w.state) (hj : w.exportJob = none)
    (hd : w.parts.all ((s.moment t).partDone w) = true) (hr : (s.moment t).windowRoom w.policy 256 = true) :
    rowWindowClose t k s = (s.moment t).closeWindow k.val w false := by
  unfold rowWindowClose
  simp [hs, hd, hj, hr, Nat.not_lt.2 h2, exportRuns_window hj]

/-! #### What the commands show -/

theorem windowSegmentRead_full (hq : quiet s) (h : s.ReadsNext k.val w n.val q g)
    (hr : (s.moment t).windowRoom w.policy (s.cutFor g w q).len = false) : completes (.windowSegmentRead t k n {}) s (fun s' =>
      (∀ j, j ≠ k.val → s'.cap.slot j = s.cap.slot j) ∧ onlyAnswers { s.moment t with cap := { s.cap with slots := s'.cap.slots } } s' ∧
      s'.cap.slot k.val = some { w with state := 3 }) := by
  have hslot : (s.moment t).cap.slot k.val = some w := h.slot
  obtain ⟨hself, hothers⟩ := modSlot_cap hslot (fun x => { x with state := 3 })
  have hquiet : quiet ((s.moment t).modSlot k.val (fun x => { x with state := 3 })) := by
    rw [modSlot_eq hslot]
    exact quiet_of_fields (quiet_moment hq t) rfl rfl rfl
  have hrow := ((Answered.refl _).row hquiet).answered
  refine ⟨_, (exec_windowSegmentRead s t k n {}).trans (by rw [rowWindowSegmentRead_full h hr]), ?_, ?_, ?_⟩
  · rw [hrow.cap]
    exact hothers
  · rw [hrow.cap]
    have honly := hrow.only
    rw [modSlot_eq hslot] at honly ⊢
    exact honly
  · rw [hrow.cap]
    exact hself

theorem windowSegmentRead_room (hq : quiet s) (h : s.ReadsNext k.val w n.val q g)
    (hr : (s.moment t).windowRoom w.policy (s.cutFor g w q).len = true) : completes (.windowSegmentRead t k n {}) s (fun s' =>
      (∀ j, j ≠ k.val → s'.cap.slot j = s.cap.slot j) ∧ onlyAnswers { s.moment t with
        cap := { s.cap with slots := s'.cap.slots }, dram := s'.dram, data := { s.data with windowIdx := s.nextIdx w.id } } s' ∧
      s'.data.nextSeg = s.data.nextSeg + 1 ∧ s'.dram.mem = s.dram.mem ∧ s'.dram.markers = s.dram.markers ∧
      s'.dram.rdBytes = s.dram.rdBytes + g.size ∧ s'.dram.idleSince = (s.moment t).time.si ∧
      ∃ v y, s'.cap.slot k.val = some v ∧ v.state = 2 ∧ v.opened = true ∧ v.pos = max w.pos (floor16 (min g.lastSi w.reqEnd)) ∧
        v.frames = max w.frames (w.framesTo (v.pos + 15)) ∧
        v.parts[n.val]? = some y ∧ y = { q with lost := [], pos := g.lastSi + 1, read := tput q.read g.source (g.seg + 1) }) := by
  have hslot : (s.moment t).cap.slot k.val = some w := h.slot
  have hplaced := placed_pieceRead (k := k) (g := g) hslot (rfl : (s.cutFor g w q).windowId = w.id)
    (fun x => x.hasRead w n.val g (selvedgeCount (s.cutFor g w q).recs))
  have hquiet : quiet ((s.moment t).pieceRead k.val w (w.hasRead w n.val g (selvedgeCount (s.cutFor g w q).recs)) g) :=
    quiet_of_fields (quiet_moment hq t) rfl rfl rfl
  have hrow := hplaced.answered.row hquiet
  have hcap := hrow.answered.cap
  have hdram := hrow.answered.dram
  obtain ⟨hmem, hmarkers, hbytes, hidle⟩ := readDram_kept (s.moment t) g
  refine ⟨_, (exec_windowSegmentRead s t k n {}).trans (by rw [rowWindowSegmentRead_room h hr]), ?_, ?_, ?_, ?_, ?_, ?_, ?_, ?_⟩
  case refine_1 =>
    rw [hcap]
    exact fun j hj => tfind_tput_ne _ _ j _ hj
  case refine_2 =>
    rw [hcap, hdram]
    exact hrow.answered.only
  case refine_3 =>
    rw [hplaced.answered.goOn_data hquiet]
    exact pieceRead_nextSeg hslot rfl _
  case refine_4 => exact (congrArg Dram.mem hdram).trans hmem
  case refine_5 => exact (congrArg Dram.markers hdram).trans hmarkers
  case refine_6 => exact (congrArg Dram.rdBytes hdram).trans hbytes
  case refine_7 => exact (congrArg Dram.idleSince hdram).trans hidle
  case refine_8 =>
    rw [hcap]
    exact ⟨_, _, tfind_tput_self _ _ _, rfl, rfl, rfl, rfl, hasRead_part h.part h.lost g _, rfl⟩

theorem windowClose_done (hq : quiet s) (hs : s.cap.slot k.val = some w) (h2 : 2 ≤ w.state) (hj : w.exportJob = none)
    (hd : w.parts.all ((s.moment t).partDone w) = true) (hr : (s.moment t).windowRoom w.policy 256 = true) : completes (.windowClose t k) s (fun s' =>
      (∀ j, j ≠ k.val → s'.cap.slot j = s.cap.slot j) ∧ s'.cap.slot k.val = none ∧ (w.opened = true → s'.data.nextSeg = s.data.nextSeg + 1) ∧
      onlyAnswers ((s.moment t).freed k.val w) s') := by
  have hclosed := (placed_closeWindow (s.moment t) k.val w).answered
  have hquiet : quiet ((s.moment t).freed k.val w) := quiet_of_fields (quiet_moment hq t) rfl rfl rfl
  have hrow := (hclosed.row hquiet).answered
  have hslots : ∀ j, ((s.moment t).closeWindow k.val w false).goOn.cap.slot j = tfind (tdel s.cap.slots k.val) j := fun j =>
    congrArg (fun c : Capture => c.slot j) hrow.cap
  refine ⟨_, (exec_windowClose s t k).trans (by rw [rowWindowClose_done hs h2 hj hd hr]), ?_, ?_, ?_, hrow.only⟩
  · exact fun j hne => (hslots j).trans (tfind_tdel_ne _ _ j hne)
  · exact (hslots k.val).trans (tfind_tdel_self _ _)
  · intro ho
    rw [hclosed.goOn_data hquiet]
    exact closeWindow_nextSeg (s.moment t) k.val ho

end Rows
end Sys2Proof.Machine

namespace Sys2Proof.Proofs
open Sys2Proof.Machine Sys2Proof.Safety

/-- Settles O46, case by case of the three commands. -/
theorem windowsAreDelivered : Obligations.WindowsAreDelivered := by
  unfold Obligations.WindowsAreDelivered
  intro s t p k n w q g
  dsimp only
  refine ⟨?_, ?_, ?_, ?_, ?_, ?_, ?_⟩
  case refine_1 => 
    intro h hw j hj
    obtain ⟨hstart, honly, hid, v, hv, hx⟩ := packetIn_exportWindow_opens h hw hj
    refine ⟨_, rfl, hstart, honly, hid, v, hv, hx.state, hx.job, hx.id.trans hid.symm, hx.policy, hx.regions, hx.red, hx.reqStart, hx.start, hx.post⟩
  case refine_2 => exact fun h hw => ⟨_, rfl, packetIn_exportWindow_waits h hw⟩
  case refine_3 =>
    intro hq h
    exact ⟨answers_goOn (exec_windowSegmentRead s t k n {}) hq (rowWindowSegmentRead_closed h {}), answers_goOn (exec_windowClose s t k) hq (rowWindowClose_closed h)⟩
  case refine_4 =>
    rintro hq ⟨hs, h2, hj⟩ ho hp hl hn
    exact answers_goOn (exec_windowSegmentRead s t k n {}) hq (rowWindowSegmentRead_none ⟨hs, h2, hj, ho, hp, hl⟩ hn {})
  case refine_5 =>
    rintro hq ⟨hs, h2, hj⟩ ho hp hl hn hi hu hc
    have h : s.ReadsNext k.val w n.val q g := ⟨⟨hs, h2, hj, ho, hp, hl⟩, hn, hi, hu, hc⟩
    exact ⟨windowSegmentRead_room hq h, windowSegmentRead_full hq h⟩
  case refine_6 =>
    rintro hq ⟨hs, h2, hj⟩ hd
    exact answers_goOn (exec_windowClose s t k) hq (rowWindowClose_open hs hd)
  case refine_7 =>
    rintro hq ⟨hs, h2, hj⟩ hd hr
    exact windowClose_done hq hs h2 hj hd hr

end Sys2Proof.Proofs

/-! ### What the work of a run leaves of the run (R228 to R230) -/

namespace Sys2Proof.Machine

open Sys2Proof.Safety

/-- The run, its start-up and its rings, but for the buffers of edges and the marks of the shut-down, everything else standing at one fixed value. -/
def State.runView (s : State) : State :=
  { startup := s.startup, safe := s.safe, cap := { s.cap with early := [], ending := false, flushed := false }
    cmd := { rings := s.cmd.rings, deferredStart := s.cmd.deferredStart } }

/-- s' comes from s by work that leaves the run as it is: recorded events stay recorded. -/
structure SameRun (s s' : State) : Prop where
  view : s'.runView = s.runView
  raised : ∀ n, n ∈ s.events.raised → n ∈ s'.events.raised

theorem SameRun.refl (s : State) : SameRun s s := ⟨rfl, fun _ h => h⟩

theorem SameRun.trans {a b c : State} (h : SameRun a b) (k : SameRun b c) : SameRun a c := ⟨k.view.trans h.view, fun n hn => k.raised n (h.raised n hn)⟩

/-- The same, the last step named first. -/
theorem SameRun.after {a b c : State} (k : SameRun b c) (h : SameRun a b) : SameRun a c := h.trans k

theorem SameRun.foldl {β : Type} (f : State → β → State) (hf : ∀ s x, SameRun s (f s x)) (l : List β) (s : State) : SameRun s (l.foldl f s) := by
  induction l generalizing s with
  | nil => exact SameRun.refl s
  | cons x rest ih => exact (hf s x).trans (ih _)

theorem SameRun.foldr {β : Type} (f : β → State → State) (hf : ∀ s x, SameRun s (f x s)) (l : List β) (s : State) : SameRun s (l.foldr f s) := by
  induction l with
  | nil => exact SameRun.refl s
  | cons x rest ih => exact ih.trans (hf _ x)

theorem Worked.sameRun {s s' : State} (h : Worked s s') : SameRun s s' := ⟨(congrArg State.runView h.still :), h.raised⟩

theorem Reduced.sameRun {s s' : State} (h : Reduced s s') : SameRun s s' := h.worked.sameRun

theorem Placed.sameRun {s s' : State} (h : Placed s s') : SameRun s s' := h.worked.sameRun

theorem Steered.sameRun {s s' : State} {y : Time} (h : Steered s y s') : SameRun s s' := ⟨(congrArg State.runView h.placed.still :), h.placed.raised⟩

theorem Tapped.sameRun {s s' : State} {c : Nat} (h : Tapped c s s') : SameRun s s' := ⟨(congrArg State.runView h.rest.still :), h.rest.raised⟩

theorem SameRun.cap {s s' : State} (h : SameRun s s') :
    { s'.cap with early := [], ending := false, flushed := false } = { s.cap with early := [], ending := false, flushed := false } :=
  (congrArg State.cap h.view :)

theorem SameRun.runState {s s' : State} (h : SameRun s s') : s'.cap.runState = s.cap.runState := (congrArg Capture.runState h.cap :)

theorem SameRun.runB {s s' : State} (h : SameRun s s') : s'.cap.runB = s.cap.runB := (congrArg Capture.runB h.cap :)

theorem SameRun.runE {s s' : State} (h : SameRun s s') : s'.cap.runE = s.cap.runE := (congrArg Capture.runE h.cap :)

theorem SameRun.runId {s s' : State} (h : SameRun s s') : s'.cap.runId = s.cap.runId := (congrArg Capture.runId h.cap :)

theorem SameRun.deferredStart {s s' : State} (h : SameRun s s') : s'.cmd.deferredStart = s.cmd.deferredStart :=
  (congrArg (fun x : State => x.cmd.deferredStart) h.view :)

/-- Station time, data, streams and secrets set by hand. -/
theorem sameRun_set (s : State) (t : Time) (d : Data) (l : Tab Stream) (y : Sec) : SameRun s { s with time := t, data := d, streams := l, sec := y } :=
  ⟨rfl, fun _ h => h⟩

/-! #### The records of an anchor boundary -/

theorem sameRun_applyStep (s : State) (p : PendingStep) (b : SI) : SameRun s (s.applyStep p b) := by
  unfold State.applyStep
  extract_lets delta r s1 kept s2 on s3
  have h2 : SameRun s s2 := (sameRun_set s1 s1.time _ s1.streams s1.sec).after (placed_placeActive s r).sameRun
  have h3 : SameRun s2 s3 := (steered_retime s2 (fun t => t.stepped p b)).sameRun
  exact ((placed_raise _ _).after (placed_postIf s3 on _)).sameRun.after (h3.after h2)

theorem sameRun_anchorSteps (s : State) (b : SI) : SameRun s (s.anchorSteps b) := by
  unfold State.anchorSteps
  extract_lets steps time tt s1 s2
  have h2 : SameRun s s2 := (SameRun.foldl _ (fun _ _ => sameRun_applyStep _ _ _) _ _).after (sameRun_set s _ s.data s.streams s.sec)
  exact (sameRun_set s2 _ s2.data s2.streams s2.sec).after h2

theorem sameRun_putAnchor (s : State) (b : SI) (x y : Bool) : SameRun s (s.putAnchor b x y) :=
  (sameRun_set _ _ _ _ _).after (placed_placeActive s (recAnchor s.time b x y)).sameRun

theorem placed_slewAt (s : State) (b : SI) : Placed s (s.slewAt b) := by
  unfold State.slewAt
  split
  · exact Placed.refl s
  · split
    · exact Placed.refl s
    · exact placed_placeActive _ _

theorem sameRun_anchorRecords (s : State) (b : SI) (start : Bool) : SameRun s (s.anchorRecords b start) := by
  unfold State.anchorRecords
  have hput := fun (y : State) (h : SameRun s y) => (placed_slewAt _ b).sameRun.after ((sameRun_putAnchor y b true false).after h)
  have hsteps := sameRun_anchorSteps s b
  split
  · split
    · exact hput _ (Placed.foldl _ (fun _ _ => placed_placeActive _ _) _ s).sameRun
    · exact SameRun.refl s
  · split
    · exact hput _ hsteps
    · dsimp only
      split
      · exact (sameRun_set _ _ _ _ _).after hsteps
      · exact (sameRun_putAnchor _ b false false).after ((placed_slewAt _ b).sameRun.after hsteps)

/-! #### The end of what a run has begun -/

theorem sameRun_flushBlock (s : State) (b : Nat) : SameRun s (s.flushBlock b) :=
  (Placed.foldl _ (fun _ _ => placed_placeEntry _ _ _) _ _).sameRun.after (worked_modBlock s b _).sameRun

theorem sameRun_blockSelvedge (s : State) (b : Nat) (e : SI) : SameRun s (s.blockSelvedge b e) := by
  cases h : (s.block b).discardFrom with
  | none =>
    rw [blockSelvedge_of_none h]
    exact SameRun.refl s
  | some f => exact (blockSelvedge_placed h e).sameRun.after (worked_modBlock s b _).sameRun

theorem worked_abandon (s : State) (n : Nat) (b : SI) : Worked s (s.abandon n b) := by
  unfold State.abandon
  split
  · exact Worked.refl s
  · exact (placed_raiseIf _ _ _).worked.after ((worked_modEngine _ n _).after ((worked_harvest _ n).after (worked_modEngine s n _)))

theorem worked_abandonIn (s : State) (sel : Nat → Bool) (b : SI) : Worked s (s.abandonIn sel b) :=
  (Worked.foldl _ (fun _ _ => worked_abandon _ _ _) _ _).after (worked_finishCutEngines s _)

theorem worked_drainMessages (s : State) (sel : Nat → Bool) : Worked s (s.drainMessages sel) :=
  Worked.foldl _ (fun _ _ => (Worked.foldl _ (fun _ _ => (placed_place _ _ _).worked) _ _).after (worked_modEngine _ _ _)) _ s

theorem reduced_endAllStats (s : State) (r : Nat) (e : SI) : Reduced s (s.endAllStats r e) := by
  unfold State.endAllStats
  extract_lets s1 g n s2 s3 s4
  have h1 : Reduced s s1 := reduced_finishEnded s r e
  have h2 : Reduced s1 s2 := Reduced.foldl _ (fun s _ => by
    split
    · exact reduced_nextStats s r _
    · exact Reduced.refl s) _ s1
  have h4 : Reduced s3 s4 := by
    show Reduced s3 (if _ then _ else _)
    split
    · exact reduced_endStats s3 r _ e true false
    · exact Reduced.refl s3
  split
  · exact h1
  · exact (reduced_modRegion s4 r _ rfl).after (h4.after ((reduced_advanceStats s2 r _).after (h2.after h1)))

theorem worked_endIvl (s : State) (n : Nat) (e : SI) : Worked s (s.endIvl n e) :=
  (Worked.foldl _ (fun _ _ => worked_ivlResult _ _ _) _ _).after ((worked_modIvl _ n _).after (worked_advanceIvl s n _ _))

theorem placed_gatedRecord (s : State) (a b : SI) : Placed s (s.gatedRecord a b) := by
  unfold State.gatedRecord
  extract_lets until_ from_
  split
  · exact placed_placeActive _ _
  · exact Placed.refl s

theorem placed_gatedUntil (s : State) (e : SI) : Placed s (match s.time.gatedFrom with | some a => s.gatedRecord a e | none => s) := by
  split
  · exact placed_gatedRecord s _ e
  · exact Placed.refl s

theorem sameRun_stagingSelvedge (s : State) (r : Nat) (e : SI) : SameRun s (s.stagingSelvedge r e) := by
  unfold State.stagingSelvedge
  split
  · exact SameRun.refl s
  · exact (placed_placeIn _ _ _).sameRun.after ((sameRun_set _ _ _ _ _).after (reduced_modRegion s r _ rfl).sameRun)

theorem sameRun_closeSpan (s : State) (r : Nat) (n : SI) : SameRun s (s.closeSpan r n false).1 := by
  have hput := fun (l : List (Nat × Rec)) (y : State) => Placed.foldl (fun (y : State) (e : Nat × Rec) => y.place e.1 e.2) (fun _ _ => placed_place _ _ _) l y
  unfold State.closeSpan
  split
  · exact SameRun.refl s
  · extract_lets s1 put time s2 s3 srcs a data s4 from_ s5 s6
    have h1 : SameRun s s1 := (reduced_modRegion s r _ rfl).sameRun
    have h3 : Placed s1 s4 := by
      rw [show s4 = s3 from if_neg Bool.false_ne_true]
      exact (hput _ s2).after (hput _ s1)
    have h5 : Placed s4 s5 := by
      refine Placed.foldl _ (fun s id => ?_) _ s4
      split
      · exact placed_place _ _ _
      · exact Placed.refl s
    split
    · exact h1
    · exact ((hput _ s6).after ((hput _ s5).after (h5.after h3))).sameRun.after h1

theorem sameRun_cutReset (s : State) (r : Nat) (e : SI) : SameRun s (s.cutReset r e) := by
  unfold State.cutReset
  split
  · exact SameRun.refl s
  · exact (reduced_modRegion _ r _ rfl).sameRun.after (sameRun_closeSpan s r e)

theorem sameRun_ending (s : State) (x : Bool) : SameRun s { s with cap := { s.cap with ending := x } } := ⟨rfl, fun _ h => h⟩

theorem sameRun_placeEnd (s : State) (e : SI) : SameRun s (s.placeEnd e) := by
  unfold State.placeEnd
  extract_lets cap s1 s2 s3
  have h1 : SameRun s s1 := sameRun_ending s true
  have h3 : SameRun s s3 := (Placed.foldl _ (fun _ _ => placed_placeActive _ _) _ s2).sameRun.after ((sameRun_anchorRecords s1 e false).after h1)
  split
  · exact (placed_placeActive s1 _).sameRun.after h1
  · split
    · exact h3
    · exact (placed_placeActive _ _).sameRun.after ((sameRun_set s3 _ _ _ _).after h3)

theorem sameRun_flushed (s : State) : SameRun s { s with cap := { s.cap with flushed := true } } := ⟨rfl, fun _ h => h⟩

/-- Placing what lies below E leaves the run that stops. -/
theorem sameRun_flushRun (s : State) (e : SI) : SameRun s (s.flushRun e) := by
  unfold State.flushRun
  extract_lets s1 bs s2 s3 s4 s5 s6 s7 s8 s9 s10
  have h2 : SameRun s s2 := (SameRun.foldl _ (fun _ _ => (sameRun_blockSelvedge _ _ _).after (sameRun_flushBlock _ _)) _ _).after (worked_advanceBlocks s).sameRun
  have h3 : SameRun s2 s3 := ((worked_drainMessages _ _).after (worked_abandonIn s2 _ e)).sameRun
  have h4 : SameRun s3 s4 := SameRun.foldl _ (fun s r =>
    ((Reduced.foldl _ (fun _ _ => reduced_finishSample _ _ _) _ _).after (reduced_drainClocks s r e)).sameRun) _ s3
  have h5 : SameRun s4 s5 := SameRun.foldl _ (fun _ _ => (reduced_endAllStats _ _ _).sameRun) _ s4
  have h6 : SameRun s5 s6 := SameRun.foldl _ (fun _ _ => (worked_endIvl _ _ _).sameRun) _ s5
  have h7 : SameRun s6 s7 := by
    clear_value s6
    exact (placed_gatedUntil s6 e).sameRun
  have h8 : SameRun s7 s8 := SameRun.foldl _ (fun _ _ => (sameRun_cutReset _ _ _).after (sameRun_stagingSelvedge _ _ _)) _ s7
  have h9 : SameRun s8 s9 := sameRun_placeEnd s8 e
  have h10 : SameRun s9 s10 := SameRun.foldl _ (fun _ _ => (placed_closeRegion _ _).sameRun) _ s9
  exact (sameRun_flushed s10).after (h10.after (h9.after (h8.after (h7.after (h6.after (h5.after (h4.after (h3.after h2))))))))

/-! #### The final signatures -/

theorem sameRun_setDrbg (s : State) (d : Drbg) : SameRun s (s.setDrbg d) := sameRun_set s s.time s.data s.streams _

theorem sameRun_random (s : State) (n : Nat) : SameRun s (s.random n).2 := by
  have hseeded : SameRun s s.seeded.2 := by
    unfold State.seeded
    split
    · exact (placed_tick s).sameRun
    · split
      · exact (placed_tick s).sameRun
      · exact SameRun.refl s
  exact (sameRun_setDrbg _ _).after hseeded

theorem sameRun_scalar (tries : Nat) (s : State) : SameRun s (s.scalar tries).2 := by
  induction tries generalizing s with
  | zero => exact SameRun.refl s
  | succ n ih =>
    have hr := sameRun_random s 32
    unfold State.scalar
    dsimp only
    split
    · exact hr
    · exact (ih _).after hr

theorem sameRun_ecdsaSign (tries : Nat) (s : State) (d : BitVec 256) (msg : List Byte) : SameRun s (s.ecdsaSign tries d msg).2 := by
  induction tries generalizing s with
  | zero => exact SameRun.refl s
  | succ n ih =>
    have hs := sameRun_scalar 64 s
    unfold State.ecdsaSign
    generalize s.scalar 64 = drawn at hs ⊢
    dsimp only
    split
    · exact hs
    · exact (ih _).after hs

theorem sameRun_signAs (s : State) (n esk : Nat) : SameRun s (s.signAs n esk) := by
  unfold State.signAs
  extract_lets x b m
  split
  · exact SameRun.refl s
  · have hsig := sameRun_ecdsaSign 64 s (s.sec.signingKey esk) m
    unfold State.signature
    generalize s.ecdsaSign 64 (s.sec.signingKey esk) m = signed at hsig ⊢
    refine (sameRun_set _ _ _ _ _).after ((sameRun_set _ _ _ _ _).after ((placed_modBob _ _ _).sameRun.after ((sameRun_set _ _ _ _ _).after hsig)))

theorem sameRun_sign (s : State) (n : Nat) : SameRun s (s.sign n) := by
  unfold State.sign
  split
  · exact sameRun_signAs s n _
  · exact sameRun_set s s.time s.data _ s.sec

theorem sameRun_signAll (s : State) : SameRun s s.signAll := SameRun.foldl _ (fun _ _ => sameRun_sign _ _) _ s

end Sys2Proof.Machine

/-! ### START_RUN (R228) -/

namespace Sys2Proof.Machine

open Sys2Proof.Safety

/-! #### The start of a run, step by step -/

/-- The run and its buffers at its first boundary b, regions, engines and records apart. -/
def State.runBegun (s : State) (b : SI) (runId : Nat) : State :=
  { s with
    cap := { s.cap with runState := 1, runId := runId, runB := b, flushed := false, ending := false, endAnchor := none }
    cells := s.cells.map (fun (e : Nat × Cell) => (e.1, { e.2 with levelAtEnable := e.2.level }))
    blocks := s.blocks.map (fun e => (e.1, e.2.fresh b))
    cutEngines := []
    ivls := s.ivls.map (fun e => (e.1, e.2.fresh))
    seq0 := { s.seq0 with levels := s.seq0.levels.filter (fun e => decide (4096 ≤ e.1)), edges := [] } }

/-- Every region starts afresh at b. -/
def State.freshRegions (s : State) (b : SI) : State := (List.range 4).foldl (fun s r => if (tfind s.regions r).isSome then s.freshRegion r b else s) s

/-- Every region and every engine starts afresh at b. -/
def State.freshened (s : State) (b : SI) : State :=
  ((s.freshRegions b).engines.map (fun e => e.1)).foldl (fun s n => s.freshEngine n b) (s.freshRegions b)

/-- The ANCHOR of b with RUN_START, and at an anchor boundary what else is placed there. -/
def State.startAnchor (s : State) (b : SI) : State := if b % 1048576 = 0 then s.anchorRecords b true else s.putAnchor b true false

theorem startRun_eq (s : State) (b : SI) (runId : Nat) :
    s.startRun b runId = ((((s.runBegun b runId).freshened b).startAnchor b).takeEarly b).raise 12 := rfl

theorem reduced_freshRegion (s : State) (r : Nat) (b : SI) : Reduced s (s.freshRegion r b) := reduced_modRegion s r _ rfl

theorem rewired_freshEngine (s : State) (n : Nat) (b : SI) : Rewired s (s.freshEngine n b) := by
  unfold State.freshEngine
  split
  · exact rewired_modEngine s n _
  · exact Rewired.refl s

theorem reduced_freshRegions (s : State) (b : SI) : Reduced s (s.freshRegions b) := by
  refine Reduced.foldl _ (fun s r => ?_) _ s
  split
  · exact reduced_freshRegion s r b
  · exact Reduced.refl s

theorem rewired_freshened (s : State) (b : SI) : Rewired s (s.freshened b) :=
  (Rewired.foldl _ (fun _ _ => rewired_freshEngine _ _ _) _ _).after (reduced_freshRegions s b).rewired

theorem sameRun_startAnchor (s : State) (b : SI) : SameRun s (s.startAnchor b) := by
  unfold State.startAnchor
  split
  · exact sameRun_anchorRecords s b true
  · exact sameRun_putAnchor s b true false

theorem sameRun_early (s : State) (l : List SeqEdge) : SameRun s { s with cap := { s.cap with early := l } } := ⟨rfl, fun _ h => h⟩

theorem sameRun_takeEarly (s : State) (b : SI) : SameRun s (s.takeEarly b) :=
  (SameRun.foldl _ (fun _ _ => (tapped_tapEdge _ _).sameRun) _ _).after
    ((SameRun.foldr _ (fun _ _ => (tapped_beforeRun _ _).sameRun) _ _).after (sameRun_early s []))

theorem Rewired.sameRun {s s' : State} (h : Rewired s s') : SameRun s s' := by
  have hreduced : Reduced { s with engines := s'.engines, cutEngines := s'.cutEngines, seq0 := s'.seq0 } s' := h
  exact ⟨(congrArg State.runView hreduced.still :), hreduced.raised⟩

/-- The start of a run changes of the run what its first state says, and raises event 12. -/
theorem startRun_run (s : State) (b : SI) (runId : Nat) : SameRun (s.runBegun b runId) (s.startRun b runId) ∧ 12 ∈ (s.startRun b runId).events.raised := by
  rw [startRun_eq]
  exact ⟨(placed_raise _ 12).sameRun.after ((sameRun_takeEarly _ b).after ((sameRun_startAnchor _ b).after (rewired_freshened _ b).sameRun)), raise_mem _ 12⟩

/-! #### A start between anchor boundaries with no edge ahead of it -/

/-- The state in which a run starts at b, with the burst SRAMs, interval units, engines and the live sequencer of y. -/
def State.startFrame (s : State) (b : SI) (runId : Nat) (y : State) : State :=
  { s with
    cap := { s.cap with runState := 1, runId := runId, runB := b, flushed := false, ending := false, endAnchor := none, early := [] }
    cells := s.cells.map (fun (e : Nat × Cell) => (e.1, { e.2 with levelAtEnable := e.2.level }))
    blocks := y.blocks, ivls := y.ivls, seq0 := y.seq0, engines := y.engines, cutEngines := y.cutEngines
    data := { s.data with anchors := (b, recAnchor s.time b true false) :: s.data.anchors.filter (fun e => e.1 ≠ b) } }

/-- The ring directory's ANCHORs set by hand. -/
def State.setAnchors (s : State) (l : List (SI × Rec)) : State := { s with data := { s.data with anchors := l } }

theorem Reduced.setAnchors {s s' : State} (h : Reduced s s') (l : List (SI × Rec)) : Reduced (s.setAnchors l) (s'.setAnchors l) :=
  ⟨congrArg (fun x : State => x.setAnchors l) h.still, h.cfg, h.raised, h.posted⟩

theorem Reduced.setEarly {s s' : State} (h : Reduced s s') (l : List SeqEdge) :
    Reduced { s with cap := { s.cap with early := l } } { s' with cap := { s'.cap with early := l } } :=
  ⟨congrArg (fun x : State => { x with cap := { x.cap with early := l } }) h.still, h.cfg, h.raised, h.posted⟩

theorem takeEarly_none {s : State} {b : SI} (h : ∀ e ∈ s.cap.early, e.time / 64 < b) : s.takeEarly b = { s with cap := { s.cap with early := [] } } := by
  have he : s.cap.early.filter (fun e => decide (b ≤ e.time / 64)) = [] := by
    refine List.filter_eq_nil_iff.2 fun e hm => ?_
    rw [decide_eq_true_iff]
    exact Nat.not_le.2 (h e hm)
  unfold State.takeEarly
  rw [he]
  rfl

/-- The ANCHOR of b is noted in the directory; nothing else changes but records. -/
theorem reduced_putAnchor (s : State) (b : SI) (x y : Bool) :
    Reduced (s.setAnchors ((b, recAnchor s.time b x y) :: s.data.anchors.filter (fun e => e.1 ≠ b))) (s.putAnchor b x y) := by
  have hplaced := placed_placeActive s (recAnchor s.time b x y)
  have hanchors : (s.placeActive (recAnchor s.time b x y)).data.anchors = s.data.anchors := (congrArg (fun z : State => z.data.anchors) hplaced.still :)
  rw [← hanchors]
  exact hplaced.reduced.setAnchors _

/-- What the frame takes of y is what z has, where no more changes on the way. -/
theorem startFrame_settled {s y z : State} {b : SI} {runId : Nat} (h : z.settled = (s.startFrame b runId y).settled) :
    s.startFrame b runId z = s.startFrame b runId y := by
  have hblocks : z.blocks = y.blocks := (congrArg (fun x : State => x.blocks) h :)
  have hivls : z.ivls = y.ivls := (congrArg (fun x : State => x.ivls) h :)
  have hseq : z.seq0 = y.seq0 := (congrArg (fun x : State => x.seq0) h :)
  have hengines : z.engines = y.engines := (congrArg (fun x : State => x.engines) h :)
  have hcut : z.cutEngines = y.cutEngines := (congrArg (fun x : State => x.cutEngines) h :)
  unfold State.startFrame
  rw [hblocks, hivls, hseq, hengines, hcut]

theorem reduced_startRun {s : State} {b : SI} (runId : Nat) (hb : b % 1048576 ≠ 0) (he : ∀ e ∈ s.cap.early, e.time / 64 < b) :
    Reduced (s.startFrame b runId (s.startRun b runId)) (s.startRun b runId) := by
  have hrewired := rewired_freshened (s.runBegun b runId) b
  rw [startRun_eq]
  generalize (s.runBegun b runId).freshened b = f at hrewired ⊢
  have hfresh : Reduced { s.runBegun b runId with engines := f.engines, cutEngines := f.cutEngines, seq0 := f.seq0 } f := hrewired
  have htime : f.time = s.time := hfresh.time
  have hanchors : f.data.anchors = s.data.anchors := (congrArg (fun z : State => z.data.anchors) hfresh.still :)
  have hput := reduced_putAnchor f b true false
  rw [htime, hanchors] at hput
  have hanchored := hput.after (hfresh.setAnchors _)
  have hcap : (f.putAnchor b true false).cap.early = s.cap.early := (congrArg (fun z : State => z.cap.early) hanchored.still :)
  have hstart : f.startAnchor b = f.putAnchor b true false := if_neg hb
  rw [hstart, takeEarly_none (s := f.putAnchor b true false) (by rwa [hcap])]
  have hall : Reduced (s.startFrame b runId { f with blocks := (s.runBegun b runId).blocks, ivls := (s.runBegun b runId).ivls }) _ :=
    (placed_raise _ 12).reduced.after (hanchored.setEarly [])
  rw [startFrame_settled hall.served.settled]
  exact hall

/-! #### The command -/

/-- An accepted packet whose effect leaves y to be answered, y having the rings of the state that takes it: what y shows but for the command registers stays. -/
theorem packetIn_shows {s y e : State} {t : SI} {o : OpSpec} {p : Packet} (h : accepted s t o p) (heff : o.effect (packetCtx o.opcode p) (taken s t p) = e)
    (he : Answered y e) (hq : quiet { y with cmd := s.cmd }) (hrings : y.cmd.rings = (taken s t p).cmd.rings) :
    Row { y with cmd := s.cmd } e (s.packetIn t o p) := by
  have hfetched : ∀ n, (y.ring n).fetched = (s.ring n).fetched := fun n => by
    have hring : y.ring n = (taken s t p).ring n := by simp only [State.ring, hrings]
    rw [hring]
    exact (taken_answered s t p).fetched n
  have hanswered : Answered { y with cmd := s.cmd } y := ⟨rfl, fun _ => rfl, fun _ h => h, ⟨[], rfl⟩, hfetched⟩
  obtain ⟨hrow, -, -⟩ := packetIn_row h heff hq (hanswered.trans he)
  exact hrow

section StartRun
variable {s : State} {t : SI} {p : Packet} (h : accepted s t opStartRun p)
include h

theorem packetIn_startRun : 12 ∈ (s.packetIn t opStartRun p).events.raised ∧ (s.packetIn t opStartRun p).cap.runState = 1 ∧
    (s.packetIn t opStartRun p).cap.runId = pField p.params 0 4 ∧ (s.packetIn t opStartRun p).cap.runB = (s.moment t).boundary := by
  obtain ⟨hrun, hevent⟩ := startRun_run (taken s t p) (s.moment t).boundary (pField p.params 0 4)
  have hstartup := (congrArg State.startup hrun.view :)
  have hsafe := (congrArg State.safe hrun.view :)
  have hrings := (congrArg (fun x : State => x.cmd.rings) hrun.view :)
  have hquiet : quiet { (taken s t p).startRun (s.moment t).boundary (pField p.params 0 4) with cmd := s.cmd } := quiet_of_fields h.quiet hstartup hsafe rfl
  have hshows := (packetIn_shows h rfl (answered_finish ((taken s t p).startRun (s.moment t).boundary (pField p.params 0 4)) _ _) hquiet hrings).answered
  refine ⟨hshows.raised 12 hevent, ?_, ?_, ?_⟩
  · exact (congrArg Capture.runState hshows.cap).trans hrun.runState
  · exact (congrArg Capture.runId hshows.cap).trans hrun.runId
  · exact (congrArg Capture.runB hshows.cap).trans hrun.runB

theorem packetIn_startRun_frame (hb : (s.moment t).boundary % 1048576 ≠ 0) (he : ∀ e ∈ s.cap.early, e.time / 64 < (s.moment t).boundary) :
    onlyAnswers ((s.moment t).startFrame (s.moment t).boundary (pField p.params 0 4) (s.packetIn t opStartRun p)) (s.packetIn t opStartRun p) := by
  have hreduced := reduced_startRun (s := taken s t p) (pField p.params 0 4) hb he
  have hserved := packetIn_simply (m := (s.moment t).startFrame (s.moment t).boundary (pField p.params 0 4)
    ((taken s t p).startRun (s.moment t).boundary (pField p.params 0 4))) h (f := fun p s => s.startRun s.boundary (pField p 0 4)) rfl
    (quiet_of_fields h.quiet rfl rfl rfl) hreduced
  rw [startFrame_settled hserved.settled]
  exact hserved.only

end StartRun

end Sys2Proof.Machine

/-! ### STOP_RUN (R229) -/

namespace Sys2Proof.Machine

open Sys2Proof.Safety

/-! #### The stop of a run whose sequencer has nothing unevaluated -/

/-- The burst SRAMs and interval units without their edges of slots from e on. -/
def State.cutBuffers (s : State) (e : SI) : State :=
  { s with
    blocks := s.blocks.map (fun x => (x.1, { x.2 with align := x.2.align.filter (fun a => decide (a.time / 64 < e)) }))
    ivls := s.ivls.map (fun x => (x.1, { x.2 with buf := x.2.buf.filter (fun a => decide (a.time / 64 < e)) })) }

/-- The capture unit of a run that stops at e. -/
def State.stopCap (s : State) (e : SI) : Capture :=
  { s.cap with
    runState := 2, runE := e, endAnchor := some (recAnchor (s.timeFor e) e false true)
    slots := s.cap.slots.map (fun w => (w.1, if e ≤ w.2.reqEnd then { w.2 with reqEnd := e - 1, stopped := true } else w.2)) }

/-- The live sequencer that the stop of a run disarms. -/
def Seq.stopped (q : Seq) (e : SI) : Seq := if q.armed then { q with armed := false, stopAt := some e } else q

/-- The state in which a run stops at e. -/
def State.stopFrame (s : State) (e : SI) : State := { s.cutBuffers e with cap := s.stopCap e, seq0 := s.seq0.stopped e }

theorem stopRunAt_eq (s : State) (e : SI) :
    s.stopRunAt e = { ((s.disarmAt e).cutEdgesAt e).retractAt e with cap := (((s.disarmAt e).cutEdgesAt e).retractAt e).stopCap e } := rfl

theorem placed_disarmAt {s : State} (hu : s.seq0.uneval = 0) (hh : s.seq0.halted = false) (e : SI) : Placed { s with seq0 := s.seq0.stopped e } (s.disarmAt e) := by
  have hq : s.seq0.disarmed e = s.seq0.stopped e := if_neg (ne_true_of_eq_false hh)
  cases ha : s.seq0.armed with
  | true =>
    rw [← hq]
    exact (disarmAt_armed ha hh hu e).1
  | false =>
    rw [disarmAt_idle ha hh, ← hq, disarmed_of_idle ha hh]
    exact Placed.refl s

/-- A region without its edges of slots from e on. -/
def Region.cutAt (g : Region) (e : SI) : Region :=
  { g with
    samples := g.samples.filter (fun a => decide (a.time / 64 < e))
    clockBuf := g.clockBuf.filter (fun a => decide (a.time / 64 < e))
    past := g.past.map (fun l => (l.1, l.2.filter (fun a => decide (a.time / 64 < e)))) }

theorem reduced_cutEdgesAt (s : State) (e : SI) : Reduced (s.cutBuffers e) (s.cutEdgesAt e) := by
  refine ⟨rfl, fun r => ?_, fun _ h => h, [], rfl⟩
  show ((tfind (s.regions.map (fun x : Nat × Region => (x.1, x.2.cutAt e))) r).getD {}).cfg = ((tfind s.regions r).getD {}).cfg
  rw [tfind_map s.regions (fun g => g.cutAt e) r]
  cases tfind s.regions r <;> rfl

theorem reduced_retractAt (s : State) (e : SI) : Reduced s (s.retractAt e) := ⟨rfl, fun _ => rfl, fun _ h => h, [], rfl⟩

theorem Reduced.cutBuffers {s s' : State} (h : Reduced s s') (e : SI) : Reduced (s.cutBuffers e) (s'.cutBuffers e) :=
  ⟨congrArg (fun x : State => x.cutBuffers e) h.still, h.cfg, h.raised, h.posted⟩

theorem Reduced.setCap {s s' : State} (h : Reduced s s') (x : Capture) : Reduced { s with cap := x } { s' with cap := x } :=
  ⟨congrArg (fun z : State => { z with cap := x }) h.still, h.cfg, h.raised, h.posted⟩

theorem Reduced.stopCap {s s' : State} (h : Reduced s s') (e : SI) : s'.stopCap e = s.stopCap e := (congrArg (fun x : State => x.stopCap e) h.still :)

theorem reduced_stopRunAt {s : State} (hu : s.seq0.uneval = 0) (hh : s.seq0.halted = false) (e : SI) : Reduced (s.stopFrame e) (s.stopRunAt e) := by
  have hcut : Reduced (({ s with seq0 := s.seq0.stopped e } : State).cutBuffers e) (((s.disarmAt e).cutEdgesAt e).retractAt e) :=
    (reduced_retractAt _ e).after ((reduced_cutEdgesAt _ e).after ((placed_disarmAt hu hh e).reduced.cutBuffers e))
  rw [stopRunAt_eq, hcut.stopCap]
  exact hcut.setCap (s.stopCap e)

/-! #### The command -/

/-- The state in which no ARM and no START_RUN is deferred any longer. -/
def State.dropDeferred (s : State) : State := { s with cmd := { s.cmd with deferredArm := none, deferredStart := none } }

/-- The state that a STOP_RUN has stopped. -/
def State.stopped (s : State) : State := if s.cap.runState = 1 then s.dropDeferred.stopRunAt s.boundary else s.dropDeferred

theorem answered_dropDeferred (s : State) : Answered s s.dropDeferred := Answered.of_fields rfl rfl rfl rfl rfl

/-- The command registers set back. -/
theorem Served.withCmd {x y : State} (h : Served x y) : Served x { y with cmd := x.cmd } := ⟨h.settled, h.cfg, h.raised, h.posted, fun _ => rfl⟩

theorem stopRunEffect_eq (c : Ctx) (s : State) :
    stopRunEffect c s = ((s.stopped.cancelDeferred s.cmd.deferredArm).cancelDeferred s.cmd.deferredStart).finish c [] := rfl

theorem answered_stopRun (c : Ctx) (s : State) : Answered s.stopped (stopRunEffect c s) := by
  rw [stopRunEffect_eq]
  exact ((answered_cancelDeferred _ _).trans (answered_cancelDeferred _ _)).trans (answered_finish _ _ _)

theorem stopRunEffect_desk (c : Ctx) (s : State) : (stopRunEffect c s).desk = s.stopped.desk := by
  rw [stopRunEffect_eq]
  exact (finish_desk _ _ _).trans ((cancelDeferred_desk _ _).trans (cancelDeferred_desk _ _))

theorem relieved_stopped (s : State) : s.stopped.cmd = s.dropDeferred.cmd ∧ s.stopped.startup = s.startup ∧
    s.stopped.safe = { s.safe with causes := s.stopped.safe.causes, fault := s.stopped.safe.fault } := by
  unfold State.stopped
  split
  · have h := relieved_disarmAt s.dropDeferred s.boundary
    exact ⟨h.placed.cmd, h.placed.startup, h.safe⟩
  · exact ⟨rfl, rfl, rfl⟩

theorem Answered.stopFrame {a b : State} (h : Answered a b) (e : SI) : Answered (a.stopFrame e) (b.stopFrame e) :=
  ⟨(congrArg (fun z : State => (z.stopFrame e).settled) h.settled :), h.region, h.raised, h.posted, h.fetched⟩

theorem deferredStart_of_desk {a b : State} (h : a.desk = b.desk) : a.cmd.deferredStart = b.cmd.deferredStart := (congrArg Cmd.deferredStart h :)

section StopRun
variable {s : State} {t : SI} {p : Packet} (h : accepted s t opStopRun p)
include h

theorem packetIn_stopRun_row : Row { (taken s t p).stopped with cmd := s.cmd } (stopRunEffect (packetCtx 0x0521 p) (taken s t p)) (s.packetIn t opStopRun p) := by
  obtain ⟨hcmd, hstartup, hsafe⟩ := relieved_stopped (taken s t p)
  have hquiet : quiet { (taken s t p).stopped with cmd := s.cmd } := quiet_relieved h.quiet hsafe hstartup rfl
  exact packetIn_shows h rfl (answered_stopRun _ _) hquiet (congrArg Cmd.rings hcmd :)

theorem packetIn_stopRun_cancels : (s.packetIn t opStopRun p).cmd.deferredArm = none ∧ (s.packetIn t opStopRun p).cmd.deferredStart = none := by
  obtain ⟨hcmd, -, -⟩ := relieved_stopped (taken s t p)
  have hdesk := (packetIn_stopRun_row h).desk
  rw [stopRunEffect_desk] at hdesk
  have harm := congrArg Cmd.deferredArm hcmd
  have hstart := congrArg Cmd.deferredStart hcmd
  exact ⟨(deferredArm_of_desk hdesk).trans harm, (deferredStart_of_desk hdesk).trans hstart⟩

/-- With no run under way it does no more. -/
theorem packetIn_stopRun_idle (hr : s.cap.runState ≠ 1) : onlyAnswers (s.moment t) (s.packetIn t opStopRun p) := by
  have hstopped : (taken s t p).stopped = (taken s t p).dropDeferred := if_neg hr
  have hrow := (packetIn_stopRun_row h).answered
  rw [hstopped] at hrow
  have hdrop : Answered (s.moment t) { (taken s t p).dropDeferred with cmd := s.cmd } := Answered.of_fields rfl rfl rfl rfl rfl
  exact (hdrop.trans hrow).only

theorem packetIn_stopRun_frame (hr : s.cap.runState = 1) (hu : s.seq0.uneval = 0) (hh : s.seq0.halted = false) :
    onlyAnswers ((s.moment t).stopFrame (s.moment t).boundary) (s.packetIn t opStopRun p) := by
  have hstopped : (taken s t p).stopped = (taken s t p).dropDeferred.stopRunAt (s.moment t).boundary := if_pos hr
  have hrow := (packetIn_stopRun_row h).answered
  rw [hstopped] at hrow
  have hdrop : Answered (s.moment t) (taken s t p).dropDeferred := (taken_answered s t p).trans (answered_dropDeferred _)
  have hreduced := reduced_stopRunAt (s := (taken s t p).dropDeferred) hu hh (s.moment t).boundary
  have hserved := ((hdrop.stopFrame (s.moment t).boundary).served.trans hreduced.served).withCmd
  exact (hserved.trans hrow.served).only

end StopRun

end Sys2Proof.Machine

/-! ### RUN_SHUTDOWN_END (R229, R230) -/

namespace Sys2Proof.Machine

open Sys2Proof.Safety

theorem exec_runShutdownEnd (t : SI) (s : State) : exec (.runShutdownEnd t) s = .next (rowRunShutdownEnd t s).goOn := rfl

theorem SameRun.quiet {a b : State} (h : SameRun a b) (hq : quiet a) : quiet b := by
  have hstartup : b.startup = a.startup := (congrArg State.startup h.view :)
  have hsafe : b.safe = a.safe := (congrArg State.safe h.view :)
  have hrings : b.cmd.rings = a.cmd.rings := (congrArg (fun x : State => x.cmd.rings) h.view :)
  obtain ⟨hready, hstep, hsoft, hup, hswap, hwaiting⟩ := hq
  rw [← hstartup] at hready hstep
  rw [← hsafe] at hsoft hup hswap
  rw [← hrings] at hwaiting
  exact ⟨hready, hstep, hsoft, hup, hswap, hwaiting⟩

/-- The state in which the run is IDLE. -/
def State.idled (s : State) : State :=
  { s with
    cap := { s.cap with runState := 0, flushed := false, pastRuns := (s.cap.runB, s.cap.runE) :: s.cap.pastRuns }
    dram := { s.dram with idleSince := s.time.si } }

/-- With no START_RUN deferred, the end of a run signs and makes it IDLE. -/
theorem endRun_eq {s : State} (h : s.cmd.deferredStart = none) : s.endRun = s.signAll.idled.raise 13 := by
  have hdeferred : (s.signAll.idled.raise 13).cmd.deferredStart = none := by
    rw [(placed_raise _ 13).cmd]
    exact (sameRun_signAll s).deferredStart.trans h
  have he : s.endRun = (s.signAll.idled.raise 13).releaseStart := rfl
  rw [he, State.releaseStart, hdeferred]

theorem signAll_none {s : State} (h : s.streams = []) : s.signAll = s := by
  unfold State.signAll
  rw [h]
  rfl

section Shutdown
variable {s : State} {t : SI}

/-- The shut-down can end: the sequencer has ended its own, and the alignment buffers have passed E. -/
structure State.Going (s : State) (t : SI) : Prop where
  stopping : s.cap.runState = 2
  seq : s.seq0.stopAt = none
  passed : s.cap.runE + 64 ≤ (s.moment t).time.si

theorem rowRunShutdownEnd_waits (h : s.cap.runState ≠ 2 ∨ s.seq0.stopAt ≠ none ∨ (s.moment t).time.si < s.cap.runE + 64) :
    rowRunShutdownEnd t s = s.moment t := by
  unfold rowRunShutdownEnd
  refine if_pos ?_
  rw [Bool.or_eq_true, Bool.or_eq_true, decide_eq_true_iff, decide_eq_true_iff, Option.isSome_iff_ne_none, or_assoc]
  exact h

theorem rowRunShutdownEnd_going (h : s.Going t) : rowRunShutdownEnd t s =
    (let y := if s.cap.flushed then s.moment t else (s.moment t).flushRun s.cap.runE; if y.runDrained then y.endRun else y) := by
  obtain ⟨hstopping, hseq, hpassed⟩ := h
  unfold rowRunShutdownEnd
  refine if_neg ?_
  rw [Bool.or_eq_true, Bool.or_eq_true, decide_eq_true_iff, decide_eq_true_iff, Option.isSome_iff_ne_none]
  rintro ((h | h) | h)
  · exact h hstopping
  · exact h hseq
  · exact absurd hpassed (Nat.not_le.2 h)

/-- Everything below E is placed; the run may then be IDLE already. -/
theorem runShutdownEnd_flushes (hq : quiet s) (h : s.Going t) (hf : s.cap.flushed = false) (hd : s.cmd.deferredStart = none) :
    completes (.runShutdownEnd t) s (fun s' => s'.cap.runB = s.cap.runB ∧
      (s'.cap.runState = 0 ∨ s'.cap.runState = 2 ∧ s'.cap.flushed = true ∧ s'.cap.runE = s.cap.runE)) := by
  have hflush := sameRun_flushRun (s.moment t) s.cap.runE
  have hflushed : ((s.moment t).flushRun s.cap.runE).cap.flushed = true := rfl
  have hrow := rowRunShutdownEnd_going h
  rw [if_neg (ne_true_of_eq_false hf)] at hrow
  refine ⟨_, exec_runShutdownEnd t s, ?_⟩
  rw [hrow]
  generalize (s.moment t).flushRun s.cap.runE = y at hflush hflushed ⊢
  have hquiet := hflush.quiet (quiet_moment hq t)
  dsimp only
  split
  · rw [endRun_eq (hflush.deferredStart.trans hd)]
    have hsign := sameRun_signAll y
    have hidle : quiet y.signAll.idled := quiet_of_fields (hsign.quiet hquiet) rfl rfl rfl
    have hcap := ((placed_raise y.signAll.idled 13).answered.row hidle).answered.cap
    rw [hcap]
    exact ⟨hsign.runB.trans hflush.runB, .inl rfl⟩
  · have hcap := ((Answered.refl y).row hquiet).answered.cap
    rw [hcap]
    exact ⟨hflush.runB, .inr ⟨hflush.runState.trans h.stopping, hflushed, hflush.runE⟩⟩

theorem rowRunShutdownEnd_undrained (h : s.Going t) (hf : s.cap.flushed = true) (hd : s.runDrained = false) : rowRunShutdownEnd t s = s.moment t := by
  have hd' : (s.moment t).runDrained = false := hd
  rw [rowRunShutdownEnd_going h, if_pos hf]
  exact if_neg (ne_true_of_eq_false hd')

theorem rowRunShutdownEnd_drained (h : s.Going t) (hf : s.cap.flushed = true) (hd : s.runDrained = true) (hs : s.streams = [])
    (hn : s.cmd.deferredStart = none) : rowRunShutdownEnd t s = (s.moment t).idled.raise 13 := by
  have hend : (s.moment t).endRun = (s.moment t).signAll.idled.raise 13 := endRun_eq hn
  rw [signAll_none (s := s.moment t) hs] at hend
  rw [rowRunShutdownEnd_going h, if_pos hf, ← hend]
  exact if_pos hd

/-- All of it is in DRAM: the run is IDLE, with event 13. -/
theorem runShutdownEnd_idles (hq : quiet s) (h : s.Going t) (hf : s.cap.flushed = true) (hd : s.runDrained = true) (hs : s.streams = [])
    (hn : s.cmd.deferredStart = none) : completes (.runShutdownEnd t) s (fun s' => 13 ∈ s'.events.raised ∧ onlyAnswers (s.moment t).idled s') := by
  have hidle : quiet (s.moment t).idled := quiet_of_fields (quiet_moment hq t) rfl rfl rfl
  have hrow := (placed_raise (s.moment t).idled 13).answered.row hidle
  refine ⟨_, (exec_runShutdownEnd t s).trans (by rw [rowRunShutdownEnd_drained h hf hd hs hn]), hrow.raised 13 (raise_mem _ 13), hrow.answered.only⟩

end Shutdown

end Sys2Proof.Machine

namespace Sys2Proof.Proofs
open Sys2Proof.Machine Sys2Proof.Safety

/-- Settles O45: each command ends in a state that is given outright, or in one that the work of the run leaves as it is (`SameRun`). -/
theorem runsStartAndStop : Obligations.RunsStartAndStop := by
  unfold Obligations.RunsStartAndStop
  intro s t p
  dsimp only
  refine ⟨fun h => ?_, fun h => ?_, fun hq h => ?_, fun hq h hf hd => ?_, fun hq h hf hd => ?_, fun hq h hf hd hs hn => ?_⟩
  case refine_1 =>
    obtain ⟨hevent, hstate, hid, hb⟩ := packetIn_startRun h
    exact ⟨_, rfl, hevent, hstate, hid, hb, packetIn_startRun_frame h⟩
  case refine_2 =>
    obtain ⟨harm, hstart⟩ := packetIn_stopRun_cancels h
    exact ⟨_, rfl, harm, hstart, packetIn_stopRun_idle h, packetIn_stopRun_frame h⟩
  case refine_3 => exact answers_goOn (exec_runShutdownEnd t s) hq (rowRunShutdownEnd_waits h)
  case refine_4 =>
    obtain ⟨hstopping, hseq, hpassed⟩ := h
    exact runShutdownEnd_flushes hq ⟨hstopping, hseq, hpassed⟩ hf hd
  case refine_5 =>
    obtain ⟨hstopping, hseq, hpassed⟩ := h
    exact answers_goOn (exec_runShutdownEnd t s) hq (rowRunShutdownEnd_undrained ⟨hstopping, hseq, hpassed⟩ hf hd)
  case refine_6 =>
    obtain ⟨hstopping, hseq, hpassed⟩ := h
    exact runShutdownEnd_idles hq ⟨hstopping, hseq, hpassed⟩ hf hd hs hn

end Sys2Proof.Proofs

/-! ### What decoding leaves of an engine (R244 to R261) -/

namespace Sys2Proof.Machine

/-! The decoders are made of a few steps on the decode state and the message in progress. Each of these steps keeps `Engine.given`, and
`simp` carries that through the branches of every decoder. -/

/-! #### What the decoders share (R245 to R249) -/

/-- What the protocols' decoders never change of an engine, everything they may change standing at one fixed value: the settings, the counters of
messages, the edges and the queue of messages stay. -/
def Engine.given (e : Engine) : Engine :=
  { e with st := {}, sync := 0, skip := 0, frameEdges := (0, 0), skipFrames := [], offers := [], fresh := [], lostLock := false }

@[simp] theorem Engine.given_ite (c : Prop) [Decidable c] (a b : Engine) : (if c then a else b).given = if c then a.given else b.given :=
  apply_ite Engine.given c a b

@[simp] theorem Engine.given_sync (e : Engine) (n : Nat) : ({ e with sync := n } : Engine).given = e.given := rfl
@[simp] theorem Engine.given_lost (e : Engine) (n : Nat) (l : Bool) : ({ e with sync := n, lostLock := l } : Engine).given = e.given := rfl

@[simp] theorem Engine.given_foldl {β : Type} (f : Engine → β → Engine) (hf : ∀ e x, (f e x).given = e.given) (l : List β) (e : Engine) :
    (l.foldl f e).given = e.given := by
  induction l generalizing e with
  | nil => rfl
  | cons x rest ih => exact (ih _).trans (hf e x)

@[simp] theorem Engine.modMsg_given (e : Engine) (f : Msg → Msg) : (e.modMsg f).given = e.given := rfl
@[simp] theorem Engine.modSt_given (e : Engine) (f : DecState → DecState) : (e.modSt f).given = e.given := rfl
@[simp] theorem Engine.offer_given (e : Engine) (f v : Nat) (t : FineTime) : (e.offer f v t).given = e.given := rfl
@[simp] theorem Engine.merge_given (e : Engine) : e.merge.given = e.given := rfl
@[simp] theorem Engine.begin_given (e : Engine) (t : FineTime) (settle coarse : Bool) : (e.begin t settle coarse).given = e.given := rfl
@[simp] theorem Engine.put_given (e : Engine) (f v : Nat) : (e.put f v).given = e.given := rfl
@[simp] theorem Engine.field_given (e : Engine) (f v : Nat) (t : FineTime) : (e.field f v t).given = e.given := rfl

@[simp] theorem Engine.given_fresh (e : Engine) (l : List Msg) : ({ e with fresh := l } : Engine).given = e.given := rfl

@[simp] theorem Engine.err_given (e : Engine) (k : Nat) (c : Bool) : (e.err k c).given = e.given := by
  unfold Engine.err
  split <;> rfl

@[simp] theorem Engine.mark_given (e : Engine) (settle coarse : Bool) : (e.mark settle coarse).given = e.given := by
  unfold Engine.mark
  split
  · rfl
  · split <;> rfl

@[simp] theorem Engine.useLevels_given (e : Engine) (is : List Nat) (p : Int) : (e.useLevels is p).given = e.given :=
  Engine.given_foldl _ (fun _ _ => mark_given _ _ _) is e

@[simp] theorem Engine.useEdge_given (e : Engine) (x : DecEdge) : (e.useEdge x).given = e.given := mark_given e _ _

@[simp] theorem Engine.timing_given (e : Engine) (near : Bool) : (e.timing near).given = e.given := by
  unfold Engine.timing
  split
  · rfl
  · split <;> rfl

@[simp] theorem Engine.sampling_given (e : Engine) (t : FineTime) : (e.sampling t).1.given = e.given := by
  unfold Engine.sampling
  extract_lets f n e1
  split <;> rfl

@[simp] theorem Engine.pushA_given (e : Engine) (b : Byte) (t : FineTime) : (e.pushA b t).given = e.given := by
  simp [Engine.pushA]

@[simp] theorem Engine.pushB_given (e : Engine) (b : Byte) (t : FineTime) : (e.pushB b t).given = e.given := by
  simp [Engine.pushB]

@[simp] theorem Engine.offerRest_given (e : Engine) (base off : Nat) (bs : List Byte) (times : List FineTime) (t : FineTime) :
    (e.offerRest base off bs times t).given = e.given := by
  refine Engine.given_foldl _ (fun e j => ?_) _ e
  split
  · rfl
  · split
    · rfl
    · split <;> rfl

@[simp] theorem Engine.emit_given (e : Engine) (t : FineTime) (final : Bool) : (e.emit t final).given = e.given := by
  unfold Engine.emit
  extract_lets e1 hit e2 seg e3 m e4 e5 e6 e7 e8 both
  have h1 : e1.given = e.given := by simp [e1]
  have h4 : e4.given = e1.given := by simp [e4, e3, e2]
  have h6 : e6.given = e4.given := by simp [e6, e5]
  have h8 : e8.given = e7.given := given_fresh e7 _
  rw [modSt_given, h8, offer_given, h6, h4, h1]

@[simp] theorem Engine.close_given (e : Engine) (len : Nat) (t : FineTime) (final : Bool) : (e.close len t final).given = e.given :=
  emit_given _ t final

/-! #### The UART, SPI and I²C decoders (R252 to R255) -/

@[simp] theorem Engine.uartEnd_given (e : Engine) (t : FineTime) : (e.uartEnd t).given = e.given := by
  simp [Engine.uartEnd]

@[simp] theorem Engine.uartChar_given (e : Engine) (v : Bool) (t : FineTime) : (e.uartChar v t).given = e.given := by
  simp [Engine.uartChar]

@[simp] theorem Engine.uartBreak_given (e : Engine) : e.uartBreak.given = e.given := by
  simp [Engine.uartBreak]

@[simp] theorem Engine.uartBegin_given (e : Engine) (x : DecEdge) : (e.uartBegin x).given = e.given := by
  simp [Engine.uartBegin]

@[simp] theorem Engine.uartEdge_given (e : Engine) (hz : Nat) (x : DecEdge) : (e.uartEdge hz x).given = e.given := by
  simp [Engine.uartEdge]

@[simp] theorem Engine.uartTick_given (e : Engine) (hz : Nat) (t : FineTime) : (e.uartTick hz t).given = e.given := by
  simp [Engine.uartTick]

@[simp] theorem Engine.spiEdge_given (e : Engine) (x : DecEdge) : (e.spiEdge x).given = e.given := by
  simp [Engine.spiEdge]

@[simp] theorem Engine.i2cEnd_given (e : Engine) (t : FineTime) (busError stop : Bool) : (e.i2cEnd t busError stop).given = e.given := by
  simp [Engine.i2cEnd]

@[simp] theorem Engine.i2cSplit_given (e : Engine) : e.i2cSplit.given = e.given := by
  simp [Engine.i2cSplit]

@[simp] theorem Engine.i2cStart_given (e : Engine) (x : DecEdge) : (e.i2cStart x).given = e.given := by
  simp [Engine.i2cStart]

@[simp] theorem Engine.i2cAddr_given (e : Engine) (addr : Nat) (ten : Bool) (t : FineTime) : (e.i2cAddr addr ten t).given = e.given := by
  simp [Engine.i2cAddr]

@[simp] theorem Engine.i2cAddrByte_given (e : Engine) (v : Nat) (nack : Bool) (t : FineTime) : (e.i2cAddrByte v nack t).given = e.given := by
  simp [Engine.i2cAddrByte]

@[simp] theorem Engine.i2cEdge_given (e : Engine) (x : DecEdge) : (e.i2cEdge x).given = e.given := by
  simp [Engine.i2cEdge]

@[simp] theorem Engine.i2cTimeout_given (e : Engine) (t : FineTime) : (e.i2cTimeout t).given = e.given := by
  simp [Engine.i2cTimeout]

/-! #### The MDIO and JTAG decoders (R256, R257) -/

@[simp] theorem Engine.mdioEnd_given (e : Engine) (t : FineTime) : (e.mdioEnd t).given = e.given := by
  unfold Engine.mdioEnd
  extract_lets bs num c45 op key ta data track known rd reg e1 next e2
  have h1 : e1.given = e.given := by simp [e1]
  have h2 : e2.given = e1.given := by
    cases hn : next <;> simp [e2, hn]
  simp [h2, h1]

@[simp] theorem Engine.mdioInvalid_given (e : Engine) (t : FineTime) : (e.mdioInvalid t).given = e.given := by
  simp [Engine.mdioInvalid]

@[simp] theorem Engine.mdioEdge_given (e : Engine) (x : DecEdge) : (e.mdioEdge x).given = e.given := by
  unfold Engine.mdioEdge
  split
  · rfl
  · split
    next e1 use hs =>
      have h1 : e1.given = e.given := (congrArg (fun x => x.1.given) hs).symm.trans (sampling_given e x.time)
      extract_lets p v short e2 num
      have h2 : e2.given = e.given := by simp [e2, h1]
      split
      · exact h1
      · split
        · split <;> simp [h1]
        · split
          · simp [h2]
          · split <;> simp [h2]

@[simp] theorem Engine.jtagFlush_given (e : Engine) : e.jtagFlush.given = e.given := by
  simp [Engine.jtagFlush]

@[simp] theorem Engine.jtagClose_given (e : Engine) (t : FineTime) (final : Bool) : (e.jtagClose t final).given = e.given := by
  simp [Engine.jtagClose]

@[simp] theorem Engine.jtagReset_given (e : Engine) (x : DecEdge) (is : List Nat) (p : Int) (near : Bool) : (e.jtagReset x is p near).given = e.given := by
  simp [Engine.jtagReset]

@[simp] theorem Engine.jtagCapture_given (e : Engine) (x : DecEdge) (p : Int) (near dr : Bool) : (e.jtagCapture x p near dr).given = e.given := by
  simp [Engine.jtagCapture]

@[simp] theorem Engine.jtagShift_given (e : Engine) (x : DecEdge) (p : Int) (near : Bool) : (e.jtagShift x p near).given = e.given := by
  simp [Engine.jtagShift]

@[simp] theorem Engine.jtagEdge_given (e : Engine) (x : DecEdge) : (e.jtagEdge x).given = e.given := by
  unfold Engine.jtagEdge
  split
  · simp
  · split
    · split
      next e1 use hs =>
        have h1 : e1.given = e.given := (congrArg (fun x => x.1.given) hs).symm.trans (sampling_given e x.time)
        extract_lets p tms near shifts e2 n old new e3 e4
        have h2 : e2.given = e.given := by simp [e2, h1]
        have h4 : e4.given = e.given := by simp [e4, e3, h2]
        clear_value e4 e3 new old n e2
        split
        · exact h1
        · split
          · simp [h2]
          · split <;> simp [h4]
    · rfl

/-! #### The CAN decoder (R258) -/

@[simp] theorem Engine.canSof_given (e : Engine) (hz : Nat) (t : FineTime) (settle coarse : Bool) : (e.canSof hz t settle coarse).given = e.given := by
  simp [Engine.canSof]

@[simp] theorem Engine.canEdge_given (e : Engine) (hz : Nat) (x : DecEdge) : (e.canEdge hz x).given = e.given := by
  unfold Engine.canEdge
  split
  · rfl
  · split
    · rfl
    · split <;> simp

@[simp] theorem Engine.canSlow_given (e : Engine) (hz : Nat) (t : FineTime) : (e.canSlow hz t).given = e.given := by
  simp [Engine.canSlow]

@[simp] theorem Engine.canFast_given (e : Engine) (hz : Nat) (t : FineTime) : (e.canFast hz t).given = e.given := by
  simp [Engine.canFast]

@[simp] theorem Engine.canFlagStart_given (e : Engine) (t : FineTime) (kind : Nat) (seen : Bool) : (e.canFlagStart t kind seen).given = e.given := by
  simp [Engine.canFlagStart]

@[simp] theorem Engine.canFail_given (e : Engine) (hz k : Nat) (seen : Bool) (t : FineTime) : (e.canFail hz k seen t).given = e.given := by
  simp [Engine.canFail]

@[simp] theorem Engine.canFailLate_given (e : Engine) (k : Nat) (t : FineTime) : (e.canFailLate k t).given = e.given := by
  simp [Engine.canFailLate]

@[simp] theorem Engine.canField_given (e : Engine) (hz : Nat) (v : Bool) (t : FineTime) : (e.canField hz v t).given = e.given := by
  simp [Engine.canField]

@[simp] theorem Engine.canStuffed_given (e : Engine) (hz : Nat) (v last : Bool) (t : FineTime) : (e.canStuffed hz v last t).given = e.given := by
  simp [Engine.canStuffed]

@[simp] theorem Engine.canCrcBit_given (e : Engine) (hz : Nat) (v last : Bool) (t : FineTime) : (e.canCrcBit hz v last t).given = e.given := by
  simp [Engine.canCrcBit]

@[simp] theorem Engine.canTail_given (e : Engine) (hz : Nat) (v : Bool) (t : FineTime) : (e.canTail hz v t).given = e.given := by
  unfold Engine.canTail
  dsimp only
  split <;> simp

@[simp] theorem Engine.canBit_given (e : Engine) (hz : Nat) (v last : Bool) (t : FineTime) : (e.canBit hz v last t).given = e.given := by
  simp [Engine.canBit]

@[simp] theorem Engine.canFlag_given (e : Engine) (v : Bool) : (e.canFlag v).given = e.given := by
  simp [Engine.canFlag]

@[simp] theorem Engine.canDelim_given (e : Engine) (hz : Nat) (v : Bool) (t : FineTime) : (e.canDelim hz v t).given = e.given := by
  simp [Engine.canDelim]

@[simp] theorem Engine.canInter_given (e : Engine) (v : Bool) (t : FineTime) : (e.canInter v t).given = e.given := by
  simp [Engine.canInter]

@[simp] theorem Engine.canTick_given (e : Engine) (hz : Nat) (t : FineTime) : (e.canTick hz t).given = e.given := by
  unfold Engine.canTick
  extract_lets v last e1
  have h1 : e1.given = e.given := by simp [e1]
  split <;> simp [h1]

/-! #### The lane and the strobed bus (R259 to R261) -/

@[simp] theorem Engine.laneAdd_given (e : Engine) (y : LaneSym) : (e.laneAdd y).given = e.given := by
  simp [Engine.laneAdd]

@[simp] theorem Engine.laneEnd_given (e : Engine) (t : FineTime) : (e.laneEnd t).given = e.given := by
  simp [Engine.laneEnd]

@[simp] theorem Engine.laneGroup_given (e : Engine) (ss : List LaneSym) (extra : Nat) (t : FineTime) : (e.laneGroup ss extra t).given = e.given := by
  simp [Engine.laneGroup]

@[simp] theorem Engine.laneBreak_given (e : Engine) (extra : Nat) (t : Option FineTime) : (e.laneBreak extra t).given = e.given := by
  simp [Engine.laneBreak]

@[simp] theorem Engine.laneSymbol_given (e : Engine) (y : LaneSym) : (e.laneSymbol y).given = e.given := by
  unfold Engine.laneSymbol
  split <;> simp

@[simp] theorem Engine.laneTen_given (e : Engine) (t : FineTime) : (e.laneTen t).given = e.given := by
  simp [Engine.laneTen]

@[simp] theorem Engine.laneBit_given (e : Engine) (t : FineTime) : (e.laneBit t).given = e.given := by
  simp [Engine.laneBit]

@[simp] theorem Engine.laneLose_given (e : Engine) (t : FineTime) : (e.laneLose t).given = e.given := by
  simp [Engine.laneLose]

@[simp] theorem Engine.laneEdge_given (e : Engine) (hz : Nat) (x : DecEdge) : (e.laneEdge hz x).given = e.given := by
  simp [Engine.laneEdge]

@[simp] theorem Engine.laneTick_given (e : Engine) (x : FineTime × Bool) : (e.laneTick x).given = e.given := by
  simp [Engine.laneTick]

@[simp] theorem Engine.parClose_given (e : Engine) (t : FineTime) (final : Bool) : (e.parClose t final).given = e.given := by
  simp [Engine.parClose]

@[simp] theorem Engine.parUse_given (e : Engine) (x : DecEdge) (p : Int) (quals : Bool) : (e.parUse x p quals).given = e.given := by
  simp [Engine.parUse]

@[simp] theorem Engine.parWord_given (e : Engine) (x : DecEdge) (p : Int) (quals : Bool) : (e.parWord x p quals).given = e.given := by
  simp [Engine.parWord]

@[simp] theorem Engine.parEdge_given (e : Engine) (x : DecEdge) : (e.parEdge x).given = e.given := by
  simp [Engine.parEdge]

/-! #### An engine at work (R244, R245) -/

@[simp] theorem Engine.onEdge_given (e : Engine) (hz : Nat) (x : DecEdge) : (e.onEdge hz x).given = e.given := by
  unfold Engine.onEdge
  split <;> simp

@[simp] theorem Engine.onPoint_given (e : Engine) (hz : Nat) (t : FineTime) : (e.onPoint hz t).given = e.given := by
  unfold Engine.onPoint
  split
  · simp
  · simp
  · simp
  · split <;> simp
  · rfl

/-- What decoding never changes of an engine: its settings, the counters of messages and the queue. -/
def Engine.setting (e : Engine) : Engine :=
  { e.given with buf := [], ready := [], past := [], base := [], baseMark := [], removed := [], filtered := 0 }

theorem Engine.setting_of_given {a b : Engine} (h : a.given = b.given) : a.setting = b.setting := by
  unfold Engine.setting
  rw [h]

theorem Engine.filterStep_setting (e : Engine) (f : Nat) : (e.filterStep f).setting = e.setting := by
  unfold Engine.filterStep
  split
  · rfl
  · split
    · rfl
    · split
      · rfl
      · split
        · rfl
        · split <;> rfl

theorem Engine.filterTo_setting (e : Engine) (hz : Nat) (h : FineTime) (fuel : Nat) : (e.filterTo hz h fuel).setting = e.setting := by
  induction fuel generalizing e with
  | zero => rfl
  | succ k ih =>
    unfold Engine.filterTo
    split
    · rfl
    · split
      · exact (ih _).trans (filterStep_setting e _)
      · rfl

theorem Engine.take_setting (e : Engine) (x : DecEdge) : (e.take x).setting = e.setting := by
  have he : (if (e.protocol = 5 || e.protocol = 6) && x.input = 0 then e.useEdge x else e).setting = e.setting := Engine.setting_of_given (by simp)
  exact he

/-- One step of running an engine: it stops, or goes on from its next edge or from the next instant at which it acts without one. -/
theorem Engine.run_succ (e : Engine) (hz : Nat) (h : FineTime) (ahead : Bool) (k : Nat) : e.run hz h ahead (k + 1) = e ∨
    (∃ x, e.run hz h ahead (k + 1) = ((e.take x).onEdge hz x).run hz h ahead k) ∨
    ∃ q, e.run hz h ahead (k + 1) = (e.onPoint hz q).run hz h ahead k := by
  rw [Engine.run]
  generalize (if ahead = true then e.look else 0) = look
  generalize (if ahead = true then e.guard else 0) = guard
  split
  · split
    · split
      · exact .inr (.inl ⟨_, rfl⟩)
      · exact .inl rfl
    · split
      · split
        · exact .inr (.inr ⟨_, rfl⟩)
        · exact .inl rfl
      · exact .inl rfl
  · split
    · split
      · exact .inr (.inr ⟨_, rfl⟩)
      · exact .inl rfl
    · exact .inl rfl

theorem Engine.run_setting (e : Engine) (hz : Nat) (h : FineTime) (ahead : Bool) (fuel : Nat) : (e.run hz h ahead fuel).setting = e.setting := by
  induction fuel generalizing e with
  | zero => rfl
  | succ k ih =>
    obtain hstop | ⟨x, hedge⟩ | ⟨q, hpoint⟩ := Engine.run_succ e hz h ahead k
    · rw [hstop]
    · rw [hedge, ih, Engine.setting_of_given (onEdge_given _ hz x), take_setting]
    · rw [hpoint, ih, Engine.setting_of_given (onPoint_given e hz q)]

/-- Bringing an engine up to fine time h leaves its settings, the counters of messages and the queue. -/
theorem Engine.advance_setting (e : Engine) (hz : Nat) (h : FineTime) : (e.advance hz h).setting = e.setting :=
  (run_setting _ _ _ _ _).trans (filterTo_setting _ _ _ _)

end Sys2Proof.Machine

/-! ### The instants at which an engine without edges acts (R255, R259) -/

namespace Sys2Proof.Machine

/-! #### The next instant without an edge -/

theorem Engine.ready_of_given {a b : Engine} (h : a.given = b.given) : a.ready = b.ready := (congrArg Engine.ready h :)
theorem Engine.protocol_of_given {a b : Engine} (h : a.given = b.given) : a.protocol = b.protocol := (congrArg Engine.protocol h :)
theorem Engine.msgs_of_given {a b : Engine} (h : a.given = b.given) : a.msgs = b.msgs := (congrArg Engine.msgs h :)

/-- Without edges and without such an instant an engine stands still. -/
theorem Engine.run_idle {e : Engine} {hz : Nat} (hr : e.ready = []) (hp : e.point hz = none) (h : FineTime) (ahead : Bool) (fuel : Nat) :
    e.run hz h ahead fuel = e := by
  cases fuel with
  | zero => rfl
  | succ k =>
    rw [Engine.run]
    simp only [hr, hp]

/-- An engine without edges that acts at instant q, and at none after it, is brought up to a fine time beyond q by that. -/
theorem Engine.advance_point {e : Engine} {hz : Nat} {q k : FineTime} (hb : e.buf = []) (hr : e.ready = []) (hp : e.point hz = some q)
    (hq : q + e.guard < k) (hr' : (e.onPoint hz q).ready = []) (hp' : (e.onPoint hz q).point hz = none) :
    e.advance hz (k + e.wait hz) = e.onPoint hz q := by
  have hfilter : e.filterTo hz (k + e.wait hz) (e.buf.length + 1) = e := by
    rw [Engine.filterTo]
    simp only [hb]
  have hfuel : e.fuel = 4095 + 1 := by
    unfold Engine.fuel
    rw [hr]
    rfl
  unfold Engine.advance
  dsimp only
  rw [hfilter, Nat.add_sub_cancel, hfuel, Engine.run]
  simp only [hr, hp, if_true, if_pos hq]
  exact Engine.run_idle hr' hp' _ _ _

/-! #### The twelfth bit period of a lane without an edge (R259) -/

section Lane
variable {e : Engine} {hz : Nat} {q : FineTime} (h : e.protocol = 6)
include h

theorem Engine.point_lane : e.point hz = e.lanePoint.map (fun x => x.1) := by
  simp only [Engine.point, h]

theorem Engine.onPoint_lane (hp : e.lanePoint = some (q, true)) : e.onPoint hz q = e.laneLose q := by
  simp only [Engine.onPoint, h, hp]
  rfl

/-- A lane that has lost lock acts at no instant without an edge. -/
theorem Engine.laneLose_point (t : FineTime) : (e.laneLose t).point hz = none :=
  Engine.point_lane ((Engine.protocol_of_given (laneLose_given e t)).trans h)

theorem Engine.advance_lane {k : FineTime} (hp : e.lanePoint = some (q, true)) (hb : e.buf = []) (hr : e.ready = []) (hq : q + e.guard < k) :
    e.advance hz (k + e.wait hz) = e.laneLose q := by
  have hlose := Engine.onPoint_lane (hz := hz) h hp
  rw [Engine.advance_point hb hr (by rw [point_lane h, hp]; rfl) hq ?_ ?_, hlose]
  · rw [hlose, Engine.ready_of_given (laneLose_given e q), hr]
  · rw [hlose, laneLose_point h]

end Lane

/-! #### The time-out of an SMBus clock (R255) -/

@[simp] theorem Engine.fresh_ite (c : Prop) [Decidable c] (a b : Engine) : (if c then a else b).fresh = if c then a.fresh else b.fresh :=
  apply_ite Engine.fresh c a b

@[simp] theorem Engine.modMsg_fresh (e : Engine) (f : Msg → Msg) : (e.modMsg f).fresh = e.fresh := rfl
@[simp] theorem Engine.modSt_fresh (e : Engine) (f : DecState → DecState) : (e.modSt f).fresh = e.fresh := rfl
@[simp] theorem Engine.offer_fresh (e : Engine) (f v : Nat) (t : FineTime) : (e.offer f v t).fresh = e.fresh := rfl
@[simp] theorem Engine.field_fresh (e : Engine) (f v : Nat) (t : FineTime) : (e.field f v t).fresh = e.fresh := rfl
@[simp] theorem Engine.merge_fresh (e : Engine) : e.merge.fresh = e.fresh := rfl

@[simp] theorem Engine.err_fresh (e : Engine) (k : Nat) (c : Bool) : (e.err k c).fresh = e.fresh := by
  unfold Engine.err
  split <;> rfl

@[simp] theorem Engine.mark_fresh (e : Engine) (settle coarse : Bool) : (e.mark settle coarse).fresh = e.fresh := by
  unfold Engine.mark
  split
  · rfl
  · split <;> rfl

@[simp] theorem Engine.offerRest_fresh (e : Engine) (base off : Nat) (bs : List Byte) (times : List FineTime) (t : FineTime) :
    (e.offerRest base off bs times t).fresh = e.fresh := by
  unfold Engine.offerRest
  induction List.range 8 generalizing e with
  | nil => rfl
  | cons j rest ih =>
    refine (ih _).trans ?_
    dsimp only
    split
    · rfl
    · split
      · rfl
      · split <;> rfl

/-- A message that ends waits for the region writer. -/
theorem Engine.emit_fresh (e : Engine) (t : FineTime) (final : Bool) : ∃ m, (e.emit t final).fresh = e.fresh ++ [m] := by
  unfold Engine.emit
  extract_lets e1 hit e2 seg e3 m e4 e5 e6 e7 e8 both
  have h6 : e6.fresh = e.fresh := by simp [e6, e5, e4, e3, e2, e1]
  have h8 : e8.fresh = e6.fresh ++ [m] := rfl
  exact ⟨m, by rw [modSt_fresh, h8, h6]⟩

/-- No message is in progress after its end. -/
theorem Engine.close_inMsg (e : Engine) (len : Nat) (t : FineTime) : (e.close len t true).st.inMsg = false := by
  unfold Engine.close Engine.emit
  extract_lets e1 hit e2 seg e3 m e4 e5 e6 e7 e8 both
  rfl

theorem Engine.close_fresh (e : Engine) (len : Nat) (t : FineTime) (final : Bool) : ∃ m, (e.close len t final).fresh = e.fresh ++ [m] :=
  emit_fresh (e.modMsg fun m => { m with len := len }) t final

/-- A time-out ends one message, and none is in progress after it. -/
theorem Engine.i2cTimeout_message (e : Engine) (t : FineTime) :
    (∃ m, (e.i2cTimeout t).fresh = e.fresh ++ [m]) ∧ (e.i2cTimeout t).st.inMsg = false := by
  unfold Engine.i2cTimeout
  extract_lets n e1 e2 e3 y
  have h3 : e3.fresh = e.fresh := by simp [e3, e2, e1]
  have hin : y.st.inMsg = false := close_inMsg _ _ _
  obtain ⟨m, hm⟩ : ∃ m, y.fresh = e3.fresh ++ [m] := close_fresh _ _ _ _
  clear_value y
  exact ⟨⟨m, hm.trans (congrArg (· ++ [m]) h3)⟩, hin⟩

section Smbus
variable {e : Engine} {hz : Nat} (h : e.protocol = 2)
include h

theorem Engine.point_smbus : e.point hz = e.i2cPoint hz := by
  simp only [Engine.point, h]

theorem Engine.onPoint_smbus (q : FineTime) : e.onPoint hz q = e.i2cTimeout q := by
  simp only [Engine.onPoint, h]

theorem Engine.i2cTimeout_point (t : FineTime) : (e.i2cTimeout t).point hz = none := by
  rw [point_smbus ((Engine.protocol_of_given (i2cTimeout_given e t)).trans h)]
  simp [Engine.i2cPoint, (i2cTimeout_message e t).2]

theorem Engine.advance_smbus {q k : FineTime} (hp : e.i2cPoint hz = some q) (hb : e.buf = []) (hr : e.ready = []) (hq : q + e.guard < k) :
    e.advance hz (k + e.wait hz) = e.i2cTimeout q := by
  have htimeout := Engine.onPoint_smbus (hz := hz) h q
  rw [Engine.advance_point hb hr ((point_smbus h).trans hp) hq ?_ ?_, htimeout]
  · rw [htimeout, Engine.ready_of_given (i2cTimeout_given e q), hr]
  · rw [htimeout, i2cTimeout_point h]

end Smbus

end Sys2Proof.Machine

/-! ### Engines that decode, and what they have produced (R246 to R251) -/

namespace Sys2Proof.Machine

open Sys2Proof.Safety

/-! #### Messages, skipped frames and fields reported (R246 to R250) -/

/-- What reporting an engine's products never changes of it: all but the counters and the queue of its messages, and the marks of its events. -/
def Engine.decoding (e : Engine) : Engine :=
  { e with lastErr := 0, msgs := 0, errMsgs := 0, drop := 0, done := [], dropFrames := [], errEvent := none, skipEvent := none }

/-- s' comes from s by reporting products of engine n: records placed, events raised and fields offered, the queue of its messages at most longer, and
every other engine as it was. -/
structure Reported (n : Nat) (s s' : State) : Prop where
  rewired : Rewired s s'
  others : ∀ j, j ≠ n → s'.engine j = s.engine j
  decoding : (s'.engine n).decoding = (s.engine n).decoding
  done : ∃ l, (s'.engine n).done = (s.engine n).done ++ l

theorem Reported.refl (n : Nat) (s : State) : Reported n s s := ⟨Rewired.refl s, fun _ _ => rfl, rfl, [], (List.append_nil _).symm⟩

theorem Reported.trans {n : Nat} {a b c : State} (h : Reported n a b) (k : Reported n b c) : Reported n a c := by
  obtain ⟨l, hl⟩ := h.done
  obtain ⟨m, hm⟩ := k.done
  exact ⟨h.rewired.trans k.rewired, fun j hj => (k.others j hj).trans (h.others j hj), k.decoding.trans h.decoding,
    l ++ m, by rw [hm, hl, List.append_assoc]⟩

/-- The same, the last step named first. -/
theorem Reported.after {n : Nat} {a b c : State} (k : Reported n b c) (h : Reported n a b) : Reported n a c := h.trans k

theorem Reported.foldl {n : Nat} {β : Type} (f : State → β → State) (hf : ∀ s x, Reported n s (f s x)) (l : List β) (s : State) :
    Reported n s (l.foldl f s) := by
  induction l generalizing s with
  | nil => exact Reported.refl n s
  | cons x rest ih => exact (hf s x).trans (ih _)

theorem Placed.engine {s s' : State} (h : Placed s s') (j : Nat) : s'.engine j = s.engine j := by simp only [State.engine, h.engines]

theorem Placed.reported {s s' : State} (h : Placed s s') (n : Nat) : Reported n s s' :=
  ⟨h.reduced.rewired, fun j _ => h.engine j, by rw [h.engine], [], by rw [h.engine, List.append_nil]⟩

theorem reported_modEngine (s : State) (n : Nat) (f : Engine → Engine) (hf : (f (s.engine n)).decoding = (s.engine n).decoding)
    (hd : ∃ l, (f (s.engine n)).done = (s.engine n).done ++ l) : Reported n s (s.modEngine n f) := by
  refine ⟨rewired_modEngine s n f, fun j hj => ?_, ?_, ?_⟩
  · rw [State.modEngine_engine, if_neg hj]
  · rw [State.modEngine_engine, if_pos rfl, hf]
  · rw [State.modEngine_engine, if_pos rfl]
    exact hd

theorem reported_seq0 (s : State) (n : Nat) (q : Seq) : Reported n s { s with seq0 := q } :=
  ⟨rewired_set s _ _ _, fun _ _ => rfl, rfl, [], (List.append_nil _).symm⟩

/-- What stays in the queue of an engine stays there in front. -/
theorem done_kept (l : List Msg) : ∃ m, l = l ++ m := ⟨[], (List.append_nil l).symm⟩

theorem reported_messageDone (s : State) (n : Nat) (m : Msg) : Reported n s (s.messageDone n m) := by
  unfold State.messageDone
  extract_lets r bad once s1 s2 f known s3
  have h2 : Reported n s s2 := ((placed_raiseIf s1 _ _).reported n).after (reported_modEngine s n _ rfl (done_kept _))
  have h3 : Reported n s s3 := ((placed_raise _ _).reported n).after ((reported_modEngine s2 n _ rfl (done_kept _)).after h2)
  split
  · exact h2
  · split
    · exact (reported_modEngine s2 n _ rfl ⟨_, rfl⟩).after h2
    · split
      · exact h3
      · exact ((placed_place s3 _ _).reported n).after h3

theorem reported_frameSkipped (s : State) (n f : Nat) : Reported n s (s.frameSkipped n f) := by
  unfold State.frameSkipped
  extract_lets r once s1 s2
  have h1 : Reported n s s1 := reported_modEngine s n _ rfl (done_kept _)
  have h2 : Reported n s1 s2 := by
    show Reported n s1 (if _ then _ else _)
    split
    · exact (placed_place _ _ _).reported n
    · exact Reported.refl n s1
  exact ((placed_raiseIf s2 _ _).reported n).after (h2.after h1)

theorem reported_harvestOf (s : State) (n : Nat) (e : Engine) : Reported n s (s.harvestOf n e) :=
  ((placed_raiseIf _ _ _).reported n).after ((Reported.foldl _ (fun _ _ => reported_messageDone _ _ _) _ _).after
    ((Reported.foldl _ (fun _ _ => reported_frameSkipped _ _ _) _ _).after (reported_seq0 s n _)))

/-- Loss of lock raises the region's event of index 8 (R251, R259). -/
theorem harvestOf_lost (s : State) (n : Nat) {e : Engine} (h : e.lostLock = true) :
    regionEvent (engRegion n) 8 ∈ (s.harvestOf n e).events.raised := by
  unfold State.harvestOf
  extract_lets s1 s2 s3
  rw [h]
  exact raise_mem s3 _

theorem frameSkipped_msgs (s : State) (n f : Nat) : ((s.frameSkipped n f).engine n).msgs = (s.engine n).msgs := by
  unfold State.frameSkipped
  extract_lets r once s1 s2
  have h1 : (s1.engine n).msgs = (s.engine n).msgs := by rw [State.modEngine_engine, if_pos rfl]
  have h2 : s2.engine n = s1.engine n := by
    show State.engine (if _ then _ else _) n = _
    split
    · exact (placed_place _ _ _).engine n
    · rfl
  rw [(placed_raiseIf _ _ _).engine, h2, h1]

theorem framesSkipped_msgs (l : List Nat) (s : State) (n : Nat) : ((l.foldl (fun s f => s.frameSkipped n f) s).engine n).msgs = (s.engine n).msgs := by
  induction l generalizing s with
  | nil => rfl
  | cons f rest ih => exact (ih _).trans (frameSkipped_msgs s n f)

theorem messageDone_msgs (s : State) (n : Nat) (m : Msg) : ((s.messageDone n m).engine n).msgs = satInc 16 (s.engine n).msgs := by
  unfold State.messageDone
  extract_lets r bad once s1 s2 f known s3
  have h2 : (s2.engine n).msgs = satInc 16 (s.engine n).msgs := by
    rw [(placed_raiseIf s1 _ _).engine, State.modEngine_engine, if_pos rfl]
  have h3 : (s3.engine n).msgs = (s2.engine n).msgs := by
    rw [(placed_raise _ _).engine, State.modEngine_engine, if_pos rfl]
  split
  · exact h2
  · split
    · rw [State.modEngine_engine, if_pos rfl, ← h2]
    · split
      · rw [h3, h2]
      · rw [(placed_place s3 _ _).engine, h3, h2]

/-- An engine that has ended one message counts it, whatever frames it has skipped. -/
theorem harvestOf_msgs (s : State) (n : Nat) {e : Engine} {m : Msg} (h : e.fresh = [m]) :
    ((s.harvestOf n e).engine n).msgs = satInc 16 (s.engine n).msgs := by
  unfold State.harvestOf
  extract_lets s1 s2 s3
  have h3 : s3 = s2.messageDone n m := by
    show e.fresh.foldl _ s2 = _
    rw [h]
    rfl
  rw [(placed_raiseIf _ _ _).engine, h3, messageDone_msgs, framesSkipped_msgs]
  rfl

/-! #### An engine brought up to a fine time -/

/-- What decoding and reporting never change of an engine. -/
def Engine.configured (e : Engine) : Bool × Nat × List Byte × List (Option Nat) := (e.enable, e.protocol, e.body, e.inputs)

theorem advanceEngine_off {s : State} {n : Nat} (h : (s.engine n).works = false) (k : FineTime) : s.advanceEngine n k = s := by
  unfold State.advanceEngine
  rw [h]
  rfl

theorem forceEngine_off {s : State} {n : Nat} (h : (s.engine n).works = false) : s.forceEngine n = s := advanceEngine_off h _

/-- The state in which engine n has come to be a, what it has produced taken from it. -/
def State.decoded (s : State) (n : Nat) (a : Engine) : State := (s.modEngine n (fun _ => a)).modEngine n Engine.clear

theorem decoded_engine (s : State) (n j : Nat) (a : Engine) : (s.decoded n a).engine j = if j = n then a.clear else s.engine j := by
  unfold State.decoded
  rw [State.modEngine_engine, State.modEngine_engine, State.modEngine_engine, if_pos rfl]
  split <;> rfl

theorem rewired_decoded (s : State) (n : Nat) (a : Engine) : Rewired s (s.decoded n a) := (rewired_modEngine s n _).trans (rewired_modEngine _ n _)

/-- An engine that works decodes, and its products are reported. -/
theorem advanceEngine_on {s : State} {n : Nat} {a : Engine} {k : FineTime} (h : (s.engine n).works = true)
    (ha : (s.engine n).advance s.time.hz (s.engineLimit n k) = a) : s.advanceEngine n k = (s.decoded n a).harvestOf n a := by
  have hmod : s.modEngine n (fun e => e.advance s.time.hz (s.engineLimit n k)) = s.modEngine n (fun _ => a) := by
    rw [← ha]
    rfl
  unfold State.advanceEngine State.harvest
  rw [h, if_pos rfl, hmod, State.modEngine_engine, if_pos rfl]
  rfl

/-- s' comes from s by the work of engine n alone: every other engine is as it was, and so are its own settings. -/
structure Decodes (n : Nat) (s s' : State) : Prop where
  rewired : Rewired s s'
  others : ∀ j, j ≠ n → s'.engine j = s.engine j
  configured : (s'.engine n).configured = (s.engine n).configured

theorem Decodes.refl (n : Nat) (s : State) : Decodes n s s := ⟨Rewired.refl s, fun _ _ => rfl, rfl⟩

theorem Decodes.trans {n : Nat} {a b c : State} (h : Decodes n a b) (k : Decodes n b c) : Decodes n a c :=
  ⟨h.rewired.trans k.rewired, fun j hj => (k.others j hj).trans (h.others j hj), k.configured.trans h.configured⟩

theorem Reported.decodes {n : Nat} {s s' : State} (h : Reported n s s') : Decodes n s s' :=
  ⟨h.rewired, h.others, (congrArg Engine.configured h.decoding :)⟩

theorem decodes_modEngine (s : State) (n : Nat) (f : Engine → Engine) (hf : (f (s.engine n)).configured = (s.engine n).configured) :
    Decodes n s (s.modEngine n f) :=
  ⟨rewired_modEngine s n f, fun j hj => by rw [State.modEngine_engine, if_neg hj], by rw [State.modEngine_engine, if_pos rfl, hf]⟩

/-- What the statement says of everything that the work of engine n leaves. -/
theorem Decodes.only {n : Nat} {x s' : State} (h : Decodes n x s') :
    onlyPlaces { x with engines := s'.engines, cutEngines := s'.cutEngines, seq0 := s'.seq0 } s' ∧ (∀ j, j ≠ n → s'.engine j = x.engine j) ∧
      (s'.engine n).enable = (x.engine n).enable ∧ (s'.engine n).protocol = (x.engine n).protocol ∧ (s'.engine n).body = (x.engine n).body ∧
      (s'.engine n).inputs = (x.engine n).inputs := by
  have hc := h.configured
  unfold Engine.configured at hc
  simp only [Prod.mk.injEq] at hc
  exact ⟨Reduced.only h.rewired, h.others, hc⟩

/-- An engine brought up to a fine time: its settings stay, and the queue of its messages is at most longer. -/
theorem advanceEngine_decodes (s : State) (n : Nat) (k : FineTime) :
    Decodes n s (s.advanceEngine n k) ∧ ∃ l, ((s.advanceEngine n k).engine n).done = (s.engine n).done ++ l := by
  cases h : (s.engine n).works with
  | false =>
    rw [advanceEngine_off h]
    exact ⟨Decodes.refl n s, [], (List.append_nil _).symm⟩
  | true =>
    have hset := Engine.advance_setting (s.engine n) s.time.hz (s.engineLimit n k)
    rw [advanceEngine_on h rfl]
    generalize (s.engine n).advance s.time.hz (s.engineLimit n k) = a at hset ⊢
    have hr := reported_harvestOf (s.decoded n a) n a
    have hn : (s.decoded n a).engine n = a.clear := by rw [decoded_engine, if_pos rfl]
    have hd : Decodes n s (s.decoded n a) := by
      refine ⟨rewired_decoded s n a, fun j hj => by rw [decoded_engine, if_neg hj], ?_⟩
      rw [hn]
      exact (congrArg Engine.configured hset :)
    obtain ⟨l, hl⟩ := hr.done
    refine ⟨hd.trans hr.decodes, l, hl.trans ?_⟩
    rw [hn]
    exact (congrArg (fun e : Engine => e.done ++ l) hset :)

/-! #### The engine of a row at the end of the present slot -/

/-- Nothing of engine n's edges waits, and neither the end of a run nor a reset of its region bounds it. -/
structure State.Unbound (s : State) (n : Nat) : Prop where
  buf : (s.engine n).buf = []
  ready : (s.engine n).ready = []
  run : s.cap.runState ≠ 2
  rst : (s.region (n / 16)).rst = none

theorem engineLimit_unbound {s : State} {n : Nat} (h : s.Unbound n) (k : FineTime) : s.engineLimit n k = k := by
  have hrst : (s.region (engRegion n)).rst = none := h.rst
  unfold State.engineLimit
  simp only [h.run, if_false, hrst]

/-- What one step of the engine at the end of the present slot makes of it, and what it has produced, reported. -/
theorem forceEngine_step {s : State} {n : Nat} {a : Engine} (hw : (s.engine n).works = true) (hu : s.Unbound n)
    (ha : (s.engine n).advance s.time.hz (64 * s.time.si + 64 + (s.engine n).guard + (s.engine n).wait s.time.hz) = a) :
    s.forceEngine n = (s.decoded n a).harvestOf n a ∧ ((s.forceEngine n).engine n).st = a.st ∧ ((s.forceEngine n).engine n).sync = a.sync := by
  have heq : s.forceEngine n = (s.decoded n a).harvestOf n a := by
    unfold State.forceEngine
    refine advanceEngine_on hw ?_
    rw [engineLimit_unbound hu, Nat.add_comm ((s.engine n).wait _), ← Nat.add_assoc, ha]
  have hd := (reported_harvestOf (s.decoded n a) n a).decoding
  rw [decoded_engine, if_pos rfl] at hd
  rw [heq]
  exact ⟨rfl, (congrArg Engine.st hd :), (congrArg Engine.sync hd :)⟩

theorem Engine.clear_msgs (e : Engine) : e.clear.msgs = e.msgs := rfl

/-- A lane that shows no edge for twelve bit periods, up to the present slot, loses lock (R259). -/
theorem forceEngine_lane {s : State} {n : Nat} {q : FineTime} (h : (s.engine n).protocol = 6) (hw : (s.engine n).works = true) (hu : s.Unbound n)
    (hp : (s.engine n).lanePoint = some (q, true)) (hq : q < 64 * (s.time.si + 1)) :
    ((s.forceEngine n).engine n).st.lock = false ∧ ((s.forceEngine n).engine n).sync = 1 ∧ regionEvent (n / 16) 8 ∈ (s.forceEngine n).events.raised := by
  have hlate : q + (s.engine n).guard < 64 * s.time.si + 64 + (s.engine n).guard := Nat.add_lt_add_right hq _
  obtain ⟨heq, hst, hsync⟩ := forceEngine_step hw hu (Engine.advance_lane h hp hu.buf hu.ready hlate)
  refine ⟨by rw [hst]; rfl, by rw [hsync]; rfl, ?_⟩
  rw [heq]
  exact harvestOf_lost _ n rfl

/-- An SMBus clock low for its time-out, up to the present slot, ends the message (R255). -/
theorem forceEngine_smbus {s : State} {n : Nat} {q : FineTime} (h : (s.engine n).protocol = 2) (hw : (s.engine n).works = true) (hu : s.Unbound n)
    (hf : (s.engine n).fresh = []) (hp : (s.engine n).i2cPoint s.time.hz = some q) (hq : q < 64 * (s.time.si + 1)) :
    ((s.forceEngine n).engine n).st.inMsg = false ∧ ((s.forceEngine n).engine n).sync = 1 ∧
      ((s.forceEngine n).engine n).msgs = min ((s.engine n).msgs + 1) 65535 ∧ regionEvent (n / 16) 8 ∈ (s.forceEngine n).events.raised := by
  have hlate : q + (s.engine n).guard < 64 * s.time.si + 64 + (s.engine n).guard := Nat.add_lt_add_right hq _
  obtain ⟨heq, hst, hsync⟩ := forceEngine_step hw hu (Engine.advance_smbus h hp hu.buf hu.ready hlate)
  obtain ⟨⟨m, hm⟩, hin⟩ := Engine.i2cTimeout_message (s.engine n) q
  rw [hf] at hm
  refine ⟨by rw [hst, hin], by rw [hsync]; rfl, ?_, ?_⟩
  · rw [heq, harvestOf_msgs _ n hm, decoded_engine, if_pos rfl, Engine.clear_msgs, Engine.msgs_of_given (Engine.i2cTimeout_given _ q)]
    rfl
  · rw [heq]
    exact harvestOf_lost _ n rfl

end Sys2Proof.Machine

/-! ### The rows of the decode engines and SET_DECODER (R215, R243, R244, R248, R255, R259, R262 to R264) -/

namespace Sys2Proof.Machine

open Sys2Proof.Safety

/-! #### The rows of the engines -/

section Rows
variable {s : State} {t : SI} {n : Fin 64}

/-- A row that changes engine n alone. -/
theorem completes_decodes {c : Instr} {s' : State} (hx : exec c s = .next s') (h : Decodes n.val (s.moment t) s') : completes c s (fun s' =>
    onlyPlaces { s.moment t with engines := s'.engines, cutEngines := s'.cutEngines, seq0 := s'.seq0 } s' ∧
      (∀ j, j ≠ n.val → s'.engine j = s.engine j) ∧ (s'.engine n.val).enable = (s.engine n.val).enable ∧
      (s'.engine n.val).protocol = (s.engine n.val).protocol ∧ (s'.engine n.val).body = (s.engine n.val).body ∧
      (s'.engine n.val).inputs = (s.engine n.val).inputs) := ⟨s', hx, h.only⟩

theorem exec_cdrLockLoss_idle (h : (s.engine n.val).protocol ≠ 6 ∨ (s.engine n.val).works = false) : exec (.cdrLockLoss t n) s = .next (s.moment t) := by
  show (if (s.engine n.val).protocol = 6 then _ else _) = _
  split
  next h6 =>
    have hoff : ((s.moment t).engine n.val).works = false := h.resolve_left (not_not.2 h6)
    rw [forceEngine_off hoff]
  next => rfl

theorem exec_cdrLockLoss (h : (s.engine n.val).protocol = 6) : exec (.cdrLockLoss t n) s = .next ((s.moment t).forceEngine n.val) := if_pos h

theorem exec_smbusTimeout_idle (h : (s.engine n.val).protocol ≠ 2 ∨ (s.engine n.val).works = false) :
    exec (.smbusTimeout t n) s = .next (s.moment t) := by
  show (if (s.engine n.val).protocol = 2 then _ else _) = _
  split
  next h2 =>
    have hoff : ((s.moment t).engine n.val).works = false := h.resolve_left (not_not.2 h2)
    rw [forceEngine_off hoff]
  next => rfl

theorem exec_smbusTimeout (h : (s.engine n.val).protocol = 2) : exec (.smbusTimeout t n) s = .next ((s.moment t).forceEngine n.val) := if_pos h

theorem forceEngine_decodes (s : State) (n : Nat) : Decodes n s (s.forceEngine n) := (advanceEngine_decodes s n _).1

/-- With no message queued at an engine that does not decode, nothing happens. -/
theorem exec_decoderMessageComplete_idle (hw : (s.engine n.val).works = false) (hd : (s.engine n.val).done = []) :
    exec (.decoderMessageComplete t n) s = .next (s.moment t) := by
  have hoff : ((s.moment t).engine n.val).works = false := hw
  have hnone : ((s.moment t).engine n.val).done = [] := hd
  show execDecoderMessageComplete t n s = _
  unfold execDecoderMessageComplete
  simp only [advanceEngine_off hoff, forceEngine_off hoff, hnone, if_true]

/-- The state in which the oldest message m of engine n has left its queue for its MESSAGE record. -/
def State.popped (s : State) (n : Nat) (m : Msg) (rest : List Msg) : State :=
  (s.modEngine n (fun e => { e with done := rest })).place (msgSource (engRegion n) (n % 16)) (recMessage n m.npf m)

/-- With a message queued, the oldest one becomes its record. -/
theorem exec_decoderMessageComplete {y : State} {m : Msg} {rest : List Msg} (hy : (s.moment t).advanceEngine n.val (s.moment t).edgeHorizon = y)
    (hd : (y.engine n.val).done = m :: rest) : exec (.decoderMessageComplete t n) s = .next (y.popped n.val m rest) := by
  show execDecoderMessageComplete t n s = _
  unfold execDecoderMessageComplete
  simp only [hy, hd, List.cons_ne_nil, if_false]
  rfl

theorem decodes_popped (s : State) (n : Nat) (m : Msg) (rest : List Msg) :
    Decodes n s (s.popped n m rest) ∧ ((s.popped n m rest).engine n).done = rest := by
  have hp := placed_place (s.modEngine n (fun e => { e with done := rest })) (msgSource (engRegion n) (n % 16)) (recMessage n m.npf m)
  refine ⟨(decodes_modEngine s n _ rfl).trans (hp.reported n).decodes, ?_⟩
  show (State.engine (State.place _ _ _) n).done = _
  rw [hp.engine, State.modEngine_engine, if_pos rfl]

/-- At an engine that does not decode only the message leaves the queue. -/
theorem decoderMessageComplete_off {m : Msg} {rest : List Msg} (hw : (s.engine n.val).works = false) (hd : (s.engine n.val).done = m :: rest) :
    completes (.decoderMessageComplete t n) s (fun s' =>
      onlyPlaces { s.moment t with engines := tput s.engines n.val { s.engine n.val with done := rest } } s') := by
  have hoff : ((s.moment t).engine n.val).works = false := hw
  exact ⟨_, exec_decoderMessageComplete (advanceEngine_off hoff _) hd, (placed_place _ _ _).only⟩

/-- At one that decodes, messages that it has completed since come behind those that stay in the queue. -/
theorem decoderMessageComplete_on {m : Msg} {rest : List Msg} (hd : (s.engine n.val).done = m :: rest) :
    ∃ s', exec (.decoderMessageComplete t n) s = .next s' ∧ Decodes n.val (s.moment t) s' ∧ ∃ l, (s'.engine n.val).done = rest ++ l := by
  obtain ⟨hadvance, l, hl⟩ := advanceEngine_decodes (s.moment t) n.val (s.moment t).edgeHorizon
  have hqueue : (((s.moment t).advanceEngine n.val (s.moment t).edgeHorizon).engine n.val).done = m :: (rest ++ l) :=
    hl.trans (congrArg (· ++ l) hd)
  obtain ⟨hrecord, hrest⟩ := decodes_popped ((s.moment t).advanceEngine n.val (s.moment t).edgeHorizon) n.val m (rest ++ l)
  exact ⟨_, exec_decoderMessageComplete rfl hqueue, hadvance.trans hrecord, l, hrest⟩

end Rows

/-! #### Several engines changed alike -/

theorem foldl_modEngine_not_mem {l : List Nat} {k : Nat} (h : k ∉ l) (f : Engine → Engine) (s : State) :
    (l.foldl (fun s m => s.modEngine m f) s).engine k = s.engine k := by
  induction l generalizing s with
  | nil => rfl
  | cons m rest ih =>
    rw [List.mem_cons, not_or] at h
    exact (ih h.2 _).trans ((State.modEngine_engine s m k f).trans (if_neg h.1))

theorem foldl_modEngine_region (l : List Nat) (f : Engine → Engine) (s : State) (r : Nat) :
    (l.foldl (fun s m => s.modEngine m f) s).region r = s.region r := by
  induction l generalizing s with
  | nil => rfl
  | cons m rest ih => exact ih _

theorem foldl_modEngine_mem {l : List Nat} {k : Nat} (h : k ∈ l) {f : Engine → Engine} {P : Engine → Prop} (hf : ∀ e, P (f e)) (s : State) :
    P ((l.foldl (fun s m => s.modEngine m f) s).engine k) := by
  induction l generalizing s with
  | nil => exact absurd h List.not_mem_nil
  | cons m rest ih =>
    by_cases hk : k ∈ rest
    · exact ih hk _
    · obtain rfl := (List.mem_cons.1 h).resolve_right hk
      rw [List.foldl_cons, foldl_modEngine_not_mem hk, State.modEngine_engine, if_pos rfl]
      exact hf _

theorem mem_gangMembers {n g k : Nat} : k ∈ gangMembers n g ↔ n < k ∧ k < n + g := by
  unfold gangMembers
  simp only [List.mem_map, List.mem_range]
  constructor
  · rintro ⟨j, hj, rfl⟩
    omega
  · intro h
    exact ⟨k - n - 1, by omega, by omega⟩

theorem not_mem_gangMembers (n g : Nat) : n ∉ gangMembers n g := fun h => (lt_irrefl n) (mem_gangMembers.1 h).1

/-! #### The engine that is replaced (R251) -/

/-- An engine that something takes the place of stays a member of no gang, or of the same one; no region's edges change. -/
theorem cutEngine_kept (s : State) (n : Nat) (b : SI) : ((s.cutEngine n b).engine n).member = (s.engine n).member ∧
    ∀ r, ((s.cutEngine n b).region r).past = (s.region r).past := by
  unfold State.cutEngine
  extract_lets e old
  split
  · exact ⟨rfl, fun _ => rfl⟩
  · refine ⟨?_, fun r => (congrArg Region.past ((placed_raiseIf _ _ _).region r) :)⟩
    rw [(placed_raiseIf _ _ _).engine, State.modEngine_engine, if_pos rfl]
    rfl

theorem rewired_setDecoder (p : List Byte) (s : State) : Rewired s (setDecoder p s) := by
  unfold setDecoder
  extract_lets b n g on s1 old s2 ins chan level held s3
  have h3 : Rewired s s3 := (rewired_modEngine _ _ _).after
    ((Rewired.foldl _ (fun _ _ => rewired_modEngine _ _ _) _ _).after (rewired_cutEngine s _ _))
  split
  · exact (Rewired.foldl _ (fun _ _ => rewired_modEngine _ _ _) _ _).after h3
  · exact h3

/-- What engine y shows after SET_DECODER with parameters p and boundary b. -/
structure Engine.SetBy (p : List Byte) (b : SI) (y : Engine) : Prop where
  enable : y.enable = (pField p 1 1).testBit 0
  protocol : y.protocol = pField p 2 1
  gang : y.gang = pField p 3 1
  filter : y.filter = pField p 4 2
  guard : y.guard = pField p 6 2
  ofs : y.ofs = pInt p 8 2
  body : y.body = pBytes p 144 32
  sync : y.sync = 1
  start : y.from_ = b
  ready : y.ready = []
  inputs : y.inputs = ((decInputs p).take (inputCount (pField p 3 1))).map (fun v => if v.testBit 15 then some (v % 256) else none)
  inCh : y.inCh = ((decInputs p).take (inputCount (pField p 3 1))).map (fun v => v % 256)

theorem setDecoder_engine (p : List Byte) (s : State) :
    ((setDecoder p s).engine (pField p 0 1)).SetBy p s.boundary ∧
      ((setDecoder p s).engine (pField p 0 1)).member = (s.engine (pField p 0 1)).member ∧
      ((pField p 1 1).testBit 0 = false ∨ (s.region (pField p 0 1 / 16)).past = [] → ((setDecoder p s).engine (pField p 0 1)).buf = []) := by
  unfold setDecoder
  extract_lets b n g on s1 old s2 ins chan level held s3
  obtain ⟨hmember, hpast⟩ := cutEngine_kept s n b
  have h2 : s2.engine n = s1.engine n := foldl_modEngine_not_mem (not_mem_gangMembers n _) _ s1
  have hregion : (s2.region (engRegion n)).past = (s.region (n / 16)).past :=
    (congrArg Region.past (foldl_modEngine_region _ _ s1 _)).trans (hpast (n / 16))
  have hheld : (s.region (n / 16)).past = [] → held = [] := by
    intro hnone
    rw [hnone] at hregion
    have hchan : ∀ i, chan i = [] := by
      intro i
      cases i with
      | none => rfl
      | some k => simp [chan, hregion, tfind]
    show List.foldl insertDec [] (List.flatMap _ ins.zipIdx) = []
    rw [List.flatMap_eq_nil_iff.2 fun i _ => by rw [hchan, List.map_nil], List.foldl_nil]
  have hlast : ((if on then (gangMembers n g).foldl (fun s m => s.modEngine m (fun e => { e with
      enable := true, member := true, gang := g, lead := n % 16 })) s3 else s3).engine n) = s3.engine n := by
    split
    · exact foldl_modEngine_not_mem (not_mem_gangMembers n g) _ s3
    · rfl
  rw [hlast, State.modEngine_engine, if_pos rfl, h2]
  refine ⟨⟨rfl, rfl, rfl, rfl, rfl, rfl, rfl, rfl, rfl, rfl, rfl, rfl⟩, hmember, fun hoff => ?_⟩
  show (if on then held else []) = []
  rcases hoff with hoff | hnone
  · exact if_neg (Bool.eq_false_iff.1 hoff)
  · rw [hheld hnone, ite_self]

/-- With the engine enabled, the others of its gang are its members. -/
theorem setDecoder_members (p : List Byte) (s : State) (hon : (pField p 1 1).testBit 0 = true) {j : Nat} (hlo : pField p 0 1 < j)
    (hhi : j < pField p 0 1 + pField p 3 1) :
    ((setDecoder p s).engine j).enable = true ∧ ((setDecoder p s).engine j).member = true ∧ ((setDecoder p s).engine j).gang = pField p 3 1 := by
  have hmem : j ∈ gangMembers (pField p 0 1) (pField p 3 1) := mem_gangMembers.2 ⟨hlo, hhi⟩
  unfold setDecoder
  extract_lets b n g on s1 old s2 ins chan level held s3
  rw [if_pos (show on = true from hon)]
  exact foldl_modEngine_mem (P := fun y => y.enable = true ∧ y.member = true ∧ y.gang = g) hmem (fun _ => ⟨rfl, rfl, rfl⟩) s3

/-! #### The command -/

section SetDecoder
variable {s : State} {t : SI} {p : Packet} (h : accepted s t opSetDecoder p)
include h

/-- No member of a gang takes the command (R264). -/
theorem accepted_setDecoder_member : (s.engine (pField p.params 0 1)).member = false := by
  have hbad : setDecoderBadState (entered s t p) p.params = false := (late_none h.late).1
  unfold setDecoderBadState at hbad
  exact (Bool.or_eq_false_iff.1 hbad).1

/-- An accepted SET_DECODER changes the engines, and what has been offered to the sequencer. -/
theorem packetIn_setDecoder : onlyAnswers { s.moment t with
      engines := (s.packetIn t opSetDecoder p).engines, cutEngines := (s.packetIn t opSetDecoder p).cutEngines
      seq0 := (s.packetIn t opSetDecoder p).seq0 } (s.packetIn t opSetDecoder p) ∧
    ∀ j, (s.packetIn t opSetDecoder p).engine j = (setDecoder p.params (taken s t p)).engine j := by
  have hx := packetIn_simply (m := { s.moment t with
    engines := (setDecoder p.params (taken s t p)).engines, cutEngines := (setDecoder p.params (taken s t p)).cutEngines
    seq0 := (setDecoder p.params (taken s t p)).seq0 }) h rfl (quiet_of_fields h.quiet rfl rfl rfl) (rewired_setDecoder p.params (taken s t p))
  refine ⟨?_, fun j => by simp only [State.engine, hx.engines]⟩
  rw [hx.engines, hx.cutEngines, hx.seq0]
  exact hx.only

end SetDecoder

end Sys2Proof.Machine

namespace Sys2Proof.Proofs
open Sys2Proof.Machine Sys2Proof.Safety

/-- Settles O47: SET_DECODER by what it makes of each engine, and the rows of the engines by what decoding keeps (`Engine.setting`), what reporting keeps
(`Reported`), and the one instant at which an engine without edges acts (`Engine.advance_point`). -/
theorem decodersWork : Obligations.DecodersWork := by
  unfold Obligations.DecodersWork
  intro s t p n m rest q
  dsimp only
  refine ⟨fun h => ?_, fun hw hd => exec_decoderMessageComplete_idle hw hd, fun hw hd => decoderMessageComplete_off hw hd, fun _ hd => ?_,
    fun h => exec_cdrLockLoss_idle h, fun h6 _ => completes_decodes (exec_cdrLockLoss h6) (forceEngine_decodes _ _), fun h6 hw hidle hp hq => ?_,
    fun h => exec_smbusTimeout_idle h, fun h2 _ => completes_decodes (exec_smbusTimeout h2) (forceEngine_decodes _ _),
    fun h2 hw hidle hf hp hq => ?_⟩
  case refine_1 =>
    obtain ⟨honly, hengine⟩ := packetIn_setDecoder h
    obtain ⟨hset, hmember, hbuf⟩ := setDecoder_engine p.params (taken s t p)
    have halone : ((taken s t p).engine (pField p.params 0 1)).member = false := accepted_setDecoder_member (s := s) h
    refine ⟨_, rfl, honly, ?_, fun hon j hlo hhi => ?_⟩
    · rw [hengine]
      exact ⟨hset.enable, hset.protocol, hset.gang, hset.filter, hset.guard, hset.ofs, hset.body, hmember.trans halone,
        hset.sync, hset.start, hbuf, hset.ready, hset.inputs, hset.inCh⟩
    · rw [hengine]
      exact setDecoder_members p.params (taken s t p) hon hlo hhi
  case refine_2 =>
    obtain ⟨s', hx, hdecodes, hqueue⟩ := decoderMessageComplete_on hd
    exact ⟨s', hx, hdecodes.only, hqueue⟩
  case refine_3 =>
    obtain ⟨hb, hr, hrun, hrst⟩ := hidle
    exact ⟨_, exec_cdrLockLoss h6, (forceEngine_decodes _ _).only, forceEngine_lane (s := s.moment t) h6 hw ⟨hb, hr, hrun, hrst⟩ hp hq⟩
  case refine_4 =>
    obtain ⟨hb, hr, hrun, hrst⟩ := hidle
    exact ⟨_, exec_smbusTimeout h2, (forceEngine_decodes _ _).only, forceEngine_smbus (s := s.moment t) h2 hw ⟨hb, hr, hrun, hrst⟩ hf hp hq⟩

end Sys2Proof.Proofs
